-- ==== Sys2Proof/Word.lean ====
section
/-! DEFINITION. The word types of the machine (R3, R28, R112, R154). -/

namespace Sys2Proof

/-- A 64-bit scalar register or control register (R41, R112). -/
abbrev Word := BitVec 64

/-- One byte of memory (R3). -/
abbrev Byte := BitVec 8

/-- One instruction word (R28). -/
abbrev InstrWord := BitVec 32

/-- One vector register (R154). -/
abbrev Vec := BitVec 2048

/-- One predicate register (R154). -/
abbrev Pred := BitVec 256

/-- A six-bit operand field of an instruction (R35). -/
abbrev Field6 := BitVec 6

end Sys2Proof
end

