-- ==== Sys2Proof/Config.lean ====
section
/-! DEFINITION. What the manual leaves open: opaque constants that nothing in Lean can evaluate. -/

namespace Sys2Proof.Config

/-- Which of the candidates moves next, where R102, R236, R337 and their like leave the order free
(applied to the step counter; DESIGN CHOICE, log entry 4). -/
opaque choice : Nat → Nat

/-- How long a step takes, in units of 1/56 ns (R6, R15; DESIGN CHOICE, log entry 5). -/
opaque stepTime : Nat → Nat

/-- Whether an element above the faulting one has been performed (R174; DESIGN CHOICE, log entry 8):
step counter and element index. -/
opaque aboveDone : Nat → Nat → Bool

/-- A byte of a line that is decrypted under another key than it was written under (R424; DESIGN CHOICE, log entry 12). -/
opaque wrongKeyByte : Nat → Nat → Byte

/-- Bytes of the opaque parts of a save area (R376, R377; DESIGN CHOICE, log entry 15): strand and offset. -/
opaque opaqueByte : Nat → Nat → Byte

/-- The SLH-DSA-SHAKE-256s check of the boot image (R426; DESIGN CHOICE, log entry 13): the signed bytes, which begin with the public key,
and the signature, each as one number. -/
opaque signatureVerifies : Nat → Nat → Bool

/-- The bytes of an attestation signature (R427; DESIGN CHOICE, log entry 13): quote bytes as one number, byte index. -/
opaque signatureByte : Nat → Nat → Byte

/-- The device-internal key of the save-area integrity tag (R377; DESIGN CHOICE, log entry 15). -/
opaque saveTagKey : Nat

/-- Which of several overlapping elements stands where R177 and R315 let the device choose
(step counter; DESIGN CHOICE, log entry 9). -/
opaque overlapChoice : Nat → Nat → Bool

/-- Module power and rail current that PWRNOW reports (R422; DESIGN CHOICE, log entry 14): clock. -/
opaque powerNow : Nat → Word

/-- Whether a cached translation that is present is used, or the tables are walked afresh (R214, R216; DESIGN CHOICE, log entry 11):
step counter. -/
opaque useCached : Nat → Bool

/-- Whether a read leaves a copy of its line in a cache that may hold one (R239; DESIGN CHOICE, log entry 17):
step counter and line number. -/
opaque keepCopy : Nat → Nat → Bool

/-- Which first-level copy a core gives up when it takes another, and which line or guest copy leaves a full slice of a
last-level cache (R19; DESIGN CHOICE, log entry 17): step counter. -/
opaque victim : Nat → Nat

/-- Whether Naing has set the merge flag of a parcel's log index, for which the manual names no register
(R225; DESIGN CHOICE, log entry 90): step counter and parcel frame. -/
opaque naingMerges : Nat → Nat → Bool

/-- The vector length that Naing grants a strand at launch and at resumption, less one, before it is taken modulo 64
(R101; DESIGN CHOICE, log entry 26): step counter and strand. -/
opaque gvlGrant : Nat → Nat → Nat

/-- The SAVEBASE that Naing gives a strand when it places it (R363; DESIGN CHOICE, log entry 26): step counter and strand. -/
opaque saveBase : Nat → Nat → Word

/-- The bytes of a tile state in a carry or a save, whose layout is open (R355, R362, R377; DESIGN CHOICE, log entry 15): the state's
contents as numbers. -/
opaque tileImage : List Nat → List Byte

/-- A cell of a tile state that is reloaded from bytes that have changed (R355; DESIGN CHOICE, log entry 107): the bytes, the accumulator
and the cell. -/
opaque tileCell : List Byte → Nat → Nat → BitVec 40

/-- Where in its save area a strand's tile state stands after a move off an M-core (R355; DESIGN CHOICE, log entry 107):
step counter and strand. -/
opaque tilePlace : Nat → Nat → Word

/-- The state code of a sample record for a strand that is parked on a condition R412 names no code for
(DESIGN CHOICE, log entry 29): step counter and strand. -/
opaque sampleState : Nat → Nat → Nat

/-- The digest of the context measurement log in a quote (R427; DESIGN CHOICE, log entry 13): quotes made so far. -/
opaque measurement : Nat → BitVec 256

/-- The issue rate that the power controller sets at a hot junction (R23, R24; DESIGN CHOICE, log entry 30): step counter. -/
opaque throttleRate : Nat → Nat

/-- What an array without a poison bit holds after an uncorrected error (R25; DESIGN CHOICE, log entry 31): step counter. -/
opaque errorValue : Nat → BitVec 2048

/-- The bytes that the network delivers at a scale-out port at a step, if any (R316, R428; DESIGN CHOICE, log entry 94): step and
port. -/
opaque scaleOut : Nat → Nat → List Byte

end Sys2Proof.Config
end

