-- ==== Sys2Proof/Machine/Fp.lean ====
section
/-! DEFINITION. Number formats and arithmetic (R62-R91): exact values, one rounding, flags. Bit patterns are natural
numbers below 2^width. -/

namespace Sys2Proof.Fp

/-- A floating-point format (R64): widths of the exponent and fraction fields. E4 has no infinity (R65). -/
structure Fmt where
  ew : Nat
  fw : Nat
  e4 : Bool
  deriving DecidableEq, Repr

def fp64 : Fmt := ⟨11, 52, false⟩
def fp32 : Fmt := ⟨8, 23, false⟩
def fp16 : Fmt := ⟨5, 10, false⟩
def bf16 : Fmt := ⟨8, 7, false⟩
def e5 : Fmt := ⟨5, 2, false⟩
def e4 : Fmt := ⟨4, 3, true⟩

/-- The width of a format. -/
def Fmt.width (f : Fmt) : Nat := 1 + f.ew + f.fw
/-- The exponent bias. -/
def Fmt.bias (f : Fmt) : Nat := 2 ^ (f.ew - 1) - 1
/-- The largest exponent code. -/
def Fmt.emax (f : Fmt) : Nat := 2 ^ f.ew - 1
/-- The sign bit as a number. -/
def Fmt.signBit (f : Fmt) : Nat := 2 ^ (f.ew + f.fw)
/-- The canonical NaN (R64). -/
def Fmt.nan (f : Fmt) : Nat := if f.e4 then 0x7F else f.emax * 2 ^ f.fw + 2 ^ (f.fw - 1)
/-- Infinity of a sign; in E4 the largest finite value takes its place (R76). -/
def Fmt.inf (f : Fmt) (neg : Bool) : Nat :=
  (if neg then f.signBit else 0) + (if f.e4 then 0x7E else f.emax * 2 ^ f.fw)
/-- The largest finite value of a sign. -/
def Fmt.maxFinite (f : Fmt) (neg : Bool) : Nat :=
  (if neg then f.signBit else 0) + (if f.e4 then 0x7E else f.emax * 2 ^ f.fw - 1)

/-! Flags: the bits of FCSR (R70). -/
def NX : Nat := 0x10
def UF : Nat := 0x20
def OF : Nat := 0x40
def DZ : Nat := 0x80
def NV : Nat := 0x100
def SX : Nat := 0x200

/-- What a bit pattern means (R65): a NaN, an infinity, or the exact value (-1)^neg * m * 2^e. -/
inductive Val where
  | nan (signalling : Bool)
  | inf (neg : Bool)
  | fin (neg : Bool) (m : Nat) (e : Int)
  deriving DecidableEq, Repr

/-- Decode a bit pattern (R65, R66). -/
def decode (f : Fmt) (b : Nat) : Val :=
  let neg := decide (b / f.signBit % 2 = 1)
  let e := b / 2 ^ f.fw % 2 ^ f.ew
  let m := b % 2 ^ f.fw
  if f.e4 then
    if e = 15 ∧ m = 7 then .nan false
    else if e = 0 then .fin neg m (1 - (f.bias : Int) - f.fw)
    else .fin neg (2 ^ f.fw + m) ((e : Int) - f.bias - f.fw)
  else if e = f.emax then
    if m = 0 then .inf neg else .nan (decide (m / 2 ^ (f.fw - 1) = 0))
  else if e = 0 then .fin neg m (1 - (f.bias : Int) - f.fw)
  else .fin neg (2 ^ f.fw + m) ((e : Int) - f.bias - f.fw)

/-- The number of bits of a natural number. -/
def bitLen (m : Nat) : Nat := if m = 0 then 0 else Nat.log2 m + 1

/-- Rounding modes (R70): 0 nearest even, 1 toward zero, 2 toward -inf, 3 toward +inf. Whether the magnitude
lo + rem / 2^sh rounds up. -/
def roundsUp (rm : Nat) (neg : Bool) (lo rem sh : Nat) : Bool :=
  if rem = 0 then false
  else match rm with
    | 0 => decide (2 ^ sh < 2 * rem) || (decide (2 * rem = 2 ^ sh) && decide (lo % 2 = 1))
    | 1 => false
    | 2 => neg
    | _ => !neg

/-- m * 2^e rounded to a multiple of 2^q: the multiple, and whether it is exact (DEDUCED, log entry 70). -/
def roundAt (rm : Nat) (neg : Bool) (m : Nat) (e q : Int) : Nat × Bool :=
  if q ≤ e then (m * 2 ^ (e - q).toNat, true)
  else
    let sh := (q - e).toNat
    let lo := m / 2 ^ sh
    let rem := m % 2 ^ sh
    (if roundsUp rm neg lo rem sh then lo + 1 else lo, decide (rem = 0))

/-- The bit pattern of mag * 2^q in a format, where q is the quantum of the value's binade. -/
def pack (f : Fmt) (neg : Bool) (mag : Nat) (q : Int) : Nat :=
  let (mag, q) := if 2 ^ (f.fw + 1) ≤ mag then (mag / 2, q + 1) else (mag, q)
  (if neg then f.signBit else 0) +
    (if mag < 2 ^ f.fw then mag else (q + f.fw + f.bias).toNat * 2 ^ f.fw + mag % 2 ^ f.fw)

/-- Whether mag * 2^q exceeds the largest finite value (R64, R76). -/
def overflows (f : Fmt) (mag : Nat) (q : Int) : Bool :=
  let top : Int := if f.e4 then 9 - 4 else (f.emax : Int) - f.bias
  -- E4: 448 = 14 * 2^5; others: 2^(emax - bias)
  if f.e4 then
    if top ≤ q then decide (14 < mag * 2 ^ (q - top).toNat) else decide (14 * 2 ^ (top - q).toNat < mag)
  else
    if top ≤ q then decide (0 < mag) else decide (2 ^ (top - q).toNat ≤ mag)

/-- The exact value m * 2^e (m > 0), rounded once to a format: bit pattern and flags (R71, R75, R76). -/
def roundPos (f : Fmt) (rm : Nat) (neg : Bool) (m : Nat) (e : Int) : Nat × Nat :=
  let top : Int := e + bitLen m - 1
  let emin : Int := 1 - f.bias
  let q : Int := (if top < emin then emin else top) - f.fw
  let (mag, exact) := roundAt rm neg m e q
  let (umag, _) := roundAt rm neg m e (top - f.fw)
  -- tiny after rounding with an unbounded exponent
  let tiny := if emin ≤ top then false
    else decide (umag < 2 ^ (f.fw + 1)) || decide (top + 1 < emin)
  if overflows f mag q then
    let toInf := match rm with
      | 0 => true
      | 1 => false
      | 2 => neg
      | _ => !neg
    (if f.e4 || toInf then f.inf neg else f.maxFinite neg, OF ||| NX)
  else
    (pack f neg mag q, (if exact then 0 else NX) ||| (if !exact && tiny then UF else 0))

/-- The exact value (-1)^neg * m * 2^e rounded once; m = 0 gives the zero of the sign. -/
def round (f : Fmt) (rm : Nat) (neg : Bool) (m : Nat) (e : Int) : Nat × Nat :=
  if m = 0 then (if neg then f.signBit else 0, 0) else roundPos f rm neg m e

/-- An exact value of a signed integer times 2^e, rounded; an exact zero is +0, or -0 toward -inf (R128). -/
def roundInt (f : Fmt) (rm : Nat) (v e : Int) : Nat × Nat :=
  if v = 0 then (if rm = 2 then f.signBit else 0, 0) else roundPos f rm (decide (v < 0)) v.natAbs e

/-- The signed significand. -/
def signed (neg : Bool) (m : Nat) : Int := if neg then -(m : Int) else m

/-- The sum of two exact values as a signed integer times a power of two. -/
def sumExact (n1 : Bool) (m1 : Nat) (e1 : Int) (n2 : Bool) (m2 : Nat) (e2 : Int) : Int × Int :=
  let e := if e1 ≤ e2 then e1 else e2
  (signed n1 m1 * (2 ^ (e1 - e).toNat : Nat) + signed n2 m2 * (2 ^ (e2 - e).toNat : Nat), e)

/-- NV for a signalling NaN. -/
def snan : Val → Nat
  | .nan true => NV
  | _ => 0

/-- Whether a value is NaN. -/
def Val.isNan : Val → Bool
  | .nan _ => true
  | _ => false

/-- The sign of a value that is no NaN. -/
def Val.neg : Val → Bool
  | .nan _ => false
  | .inf n => n
  | .fin n _ _ => n

/-- The value with its sign inverted. -/
def Val.negate : Val → Val
  | .nan s => .nan s
  | .inf n => .inf (!n)
  | .fin n m e => .fin (!n) m e

/-- Whether a value is zero. -/
def Val.isZero : Val → Bool
  | .fin _ 0 _ => true
  | _ => false

/-- A + B of two values (R71, R73, R128). -/
def addVal (f : Fmt) (rm : Nat) (a b : Val) : Nat × Nat :=
  match a, b with
  | .inf x, .inf y => if x = y then (f.inf x, 0) else (f.nan, NV)
  | .inf x, .fin _ _ _ => (f.inf x, 0)
  | .fin _ _ _, .inf y => (f.inf y, 0)
  | .fin n1 m1 e1, .fin n2 m2 e2 =>
    if m1 = 0 ∧ m2 = 0 ∧ n1 = n2 then (if n1 then f.signBit else 0, 0)
    else
      let (v, e) := sumExact n1 m1 e1 n2 m2 e2
      roundInt f rm v e
  | x, y => (f.nan, snan x ||| snan y)

/-- FADD, FSUB. -/
def add (f : Fmt) (rm a b : Nat) : Nat × Nat := addVal f rm (decode f a) (decode f b)
def sub (f : Fmt) (rm a b : Nat) : Nat × Nat := addVal f rm (decode f a) (decode f b).negate

/-- The exact product, as a value; the flag is NV for 0 * inf. -/
def mulVal (a b : Val) : Val × Nat :=
  match a, b with
  | .inf x, .inf y => (.inf (x != y), 0)
  | .inf x, .fin y m _ => if m = 0 then (.nan false, NV) else (.inf (x != y), 0)
  | .fin x m _, .inf y => if m = 0 then (.nan false, NV) else (.inf (x != y), 0)
  | .fin x m e, .fin y m' e' => (.fin (x != y) (m * m') (e + e'), 0)
  | x, y => (.nan false, snan x ||| snan y)

/-- FMUL. -/
def mul (f : Fmt) (rm a b : Nat) : Nat × Nat :=
  match mulVal (decode f a) (decode f b) with
  | (.nan _, fl) => (f.nan, fl)
  | (.inf n, fl) => (f.inf n, fl)
  | (.fin n m e, fl) => let (r, g) := round f rm n m e; (r, fl ||| g)

/-- FMAC and FNMAC: D + A * B or D - A * B with one rounding; NV for 0 * inf even beside a quiet NaN (R128). -/
def fma (f : Fmt) (rm : Nat) (minus : Bool) (d a b : Nat) : Nat × Nat :=
  let (p, fl) := mulVal (decode f a) (decode f b)
  let p := if minus then p.negate else p
  let (r, g) := addVal f rm (decode f d) p
  (r, fl ||| g)

/-- FDIV (R71). The quotient is formed with enough bits and a sticky bit. -/
def div (f : Fmt) (rm a b : Nat) : Nat × Nat :=
  match decode f a, decode f b with
  | .inf _, .inf _ => (f.nan, NV)
  | .inf x, .fin y _ _ => (f.inf (x != y), 0)
  | .fin x _ _, .inf y => (if x != y then f.signBit else 0, 0)
  | .fin x m e, .fin y m' e' =>
    if m' = 0 then (if m = 0 then (f.nan, NV) else (f.inf (x != y), DZ))
    else if m = 0 then (if x != y then f.signBit else 0, 0)
    else
      let k := 2 * f.fw + 8
      let n := m * 2 ^ k
      round f rm (x != y) (n / m' * 2 + (if n % m' = 0 then 0 else 1)) (e - e' - k - 1)
  | x, y => (f.nan, snan x ||| snan y)

/-- The integer square root of n, for results below 2^k, bit by bit. -/
def isqrt (n : Nat) : Nat → Nat → Nat
  | 0, r => r
  | k + 1, r => if (r + 2 ^ k) * (r + 2 ^ k) ≤ n then isqrt n k (r + 2 ^ k) else isqrt n k r

/-- FSQRT (R71, R128): the square root of -0 is -0. -/
def sqrt (f : Fmt) (rm a : Nat) : Nat × Nat :=
  match decode f a with
  | .nan s => (f.nan, snan (.nan s))
  | .inf n => if n then (f.nan, NV) else (f.inf false, 0)
  | .fin n m e =>
    if m = 0 then (if n then f.signBit else 0, 0)
    else if n then (f.nan, NV)
    else
      let k := 2 * f.fw + 8 + (if (e % 2 = 0) then 0 else 1)
      let v := m * 2 ^ k
      let r := isqrt v (2 * f.fw + 8) 0
      round f rm false (r * 2 + (if r * r = v then 0 else 1)) ((e - k) / 2 - 1)

/-- The order of two values that are no NaN, -0 equal to +0: -1, 0 or 1. -/
def cmpVal (a b : Val) : Int :=
  match a, b with
  | .inf x, .inf y => if x = y then 0 else if x then -1 else 1
  | .inf x, _ => if x then -1 else 1
  | _, .inf y => if y then 1 else -1
  | .fin n1 m1 e1, .fin n2 m2 e2 =>
    let (v, _) := sumExact n1 m1 e1 (!n2) m2 e2
    if v < 0 then -1 else if v = 0 then 0 else 1
  | _, _ => 0

/-- FEQ (R74). -/
def feq (f : Fmt) (a b : Nat) : Bool × Nat :=
  let x := decode f a
  let y := decode f b
  (!x.isNan && !y.isNan && cmpVal x y = 0, snan x ||| snan y)

/-- FLT, or FLE with orEqual (R74). -/
def flt (f : Fmt) (orEqual : Bool) (a b : Nat) : Bool × Nat :=
  let x := decode f a
  let y := decode f b
  if x.isNan || y.isNan then (false, NV)
  else (decide (cmpVal x y < 0) || (orEqual && cmpVal x y = 0), 0)

/-- VFCUN (R74). -/
def unordered (f : Fmt) (a b : Nat) : Bool × Nat :=
  let x := decode f a
  let y := decode f b
  (x.isNan || y.isNan, snan x ||| snan y)

/-- FMIN, or FMAX with max (R74): -0 is less than +0. -/
def minmax (f : Fmt) (max : Bool) (a b : Nat) : Nat × Nat :=
  let x := decode f a
  let y := decode f b
  let fl := snan x ||| snan y
  if x.isNan && y.isNan then (f.nan, fl)
  else if x.isNan then (b, fl)
  else if y.isNan then (a, fl)
  else
    let c := cmpVal x y
    let less := decide (c < 0) || (c = 0 && x.neg && !y.neg)
    (if less != max then a else b, fl)

/-! Conversions (R75-R78). -/

/-- A value rounded to an integer in a mode: the integer and whether it is exact. -/
def toInt (rm : Nat) (neg : Bool) (m : Nat) (e : Int) : Int × Bool :=
  let (r, exact) := roundAt rm neg m e 0
  (signed neg r, exact)

/-- Floating point to an integer format of range [lo, hi] (R77): the integer and the flags. With quant the clamps set
SX, as for Q8 and Q4. -/
def toRange (quant : Bool) (lo hi : Int) (rm : Nat) (v : Val) : Int × Nat :=
  let c := if quant then SX else NV
  match v with
  | .nan _ => (0, NV)
  | .inf n => (if n then lo else hi, c)
  | .fin n m e =>
    -- far outside the range nothing is shifted
    if (200 : Int) < e ∧ m ≠ 0 then (if n then lo else hi, c)
    else
      let (r, exact) := toInt rm n m e
      if hi < r then (hi, c) else if r < lo then (lo, c) else (r, if exact then 0 else NX)

/-- An integer to a format (R78); zero is +0. -/
def ofInt (f : Fmt) (rm : Nat) (v : Int) : Nat × Nat :=
  if v = 0 then (0, 0) else roundPos f rm (decide (v < 0)) v.natAbs 0

/-- Between formats (R75, R76). -/
def convert (src dst : Fmt) (rm a : Nat) : Nat × Nat :=
  match decode src a with
  | .nan s => (dst.nan, snan (.nan s))
  | .inf n => (dst.inf n, if dst.e4 then NV else 0)
  | .fin n m e => round dst rm n m e

/-! Stochastic rounding (R79-R82). -/

/-- One generator step: the new state, which is also the random number (R80). -/
def xorshift (st : Nat) : Nat :=
  let x := if st = 0 then 1 else st
  let x := (x ^^^ (x * 2 ^ 13)) % 2 ^ 32
  let x := x ^^^ (x / 2 ^ 17)
  (x ^^^ (x * 2 ^ 5)) % 2 ^ 32

/-- A stochastically rounded conversion with random number r (R81). -/
def convertStochastic (src dst : Fmt) (r a : Nat) : Nat × Nat :=
  match decode src a with
  | .nan s => (dst.nan, snan (.nan s))
  | .inf n => (dst.inf n, if dst.e4 then NV else 0)
  | .fin n m e =>
    if m = 0 then (if n then dst.signBit else 0, 0)
    else
      let top : Int := e + bitLen m - 1
      let emin : Int := 1 - dst.bias
      let q : Int := (if top < emin then emin else top) - dst.fw
      let (lo, exact) := roundAt 1 n m e q
      let sh := (q - e).toNat
      let g := if exact then 0 else (m % 2 ^ sh) * 2 ^ 32 / 2 ^ sh
      let mag := if r < g then lo + 1 else lo
      let small := decide (mag < 2 ^ dst.fw) && decide (q = emin - dst.fw)
      if overflows dst mag q then (dst.inf n, OF ||| NX)
      else (pack dst n mag q, (if exact then 0 else NX) ||| (if !exact && small && mag != 0 then UF else 0))

/-! Bit edits and the class descriptor (R128, R129). -/

/-- A with its sign replaced. -/
def withSign (f : Fmt) (a : Nat) (neg : Bool) : Nat := a % f.signBit + (if neg then f.signBit else 0)
/-- The sign bit of a pattern. -/
def signOf (f : Fmt) (a : Nat) : Bool := decide (a / f.signBit % 2 = 1)

/-- FCLASS (R129). -/
def fclass (f : Fmt) (a : Nat) : Nat :=
  let s := if signOf f a then 8 else 0
  match decode f a with
  | .nan true => 5 + s
  | .nan false => 4 + s
  | .inf _ => 3 + s
  | .fin _ m e =>
    let integral := m = 0 ∨ 0 ≤ e ∨ m % 2 ^ (-e).toNat = 0
    (if m = 0 then 0 else if m < 2 ^ f.fw then 1 else 2) + s + (if integral then 16 else 0)

/-! FP32 sums with NaN origin (R90) and the sums of the units of R72. -/

/-- The earliest NaN of two FP32 patterns, one of which is NaN: lowest bits [21:8], then [7:0] (R90). -/
def nanMerge (a b : Nat) : Nat :=
  let key := fun x => x % 2 ^ 22
  let pick := if (decode fp32 a).isNan then (if (decode fp32 b).isNan then (if key b < key a then b else a) else a) else b
  0x7FC00000 + key pick

/-- FP32 a + b, to nearest even, NaNs combined by R90. -/
def addMerge32 (a b : Nat) : Nat × Nat :=
  let x := decode fp32 a
  let y := decode fp32 b
  if x.isNan || y.isNan then (nanMerge a b, snan x ||| snan y) else addVal fp32 0 x y

/-- The floating-point sum of the atomic units and of folds (R72, R90): width 64 FP64, 32 FP32, 16 BF16. -/
def addHome (width a b : Nat) : Nat :=
  if width = 64 then (add fp64 0 a b).1
  else if width = 32 then (addMerge32 a b).1
  else (add bf16 0 a b).1

/-- FADDH: two BF16 sums (R90). -/
def addHalves (a b : Nat) : Nat :=
  addHome 16 (a % 65536) (b % 65536) + 65536 * addHome 16 (a / 65536 % 65536) (b / 65536 % 65536)

/-! VFEXP2 and VFLOG2 in 256-bit fixed point (R71, R166; DESIGN CHOICE, log entry 18). -/

/-- ln 2 times 2^256. -/
def ln2Fixed : Nat := 80260960185991308862233904206310070533990667611589946606122867505419956976171
/-- 2^256 / ln 2. -/
def invLn2Fixed : Nat := 167052672916848388242985626561247531987276682633131050150846402744536260568207

/-- The sum of the Taylor series of e^y in fixed point: n terms, the current term and its index. -/
def expSeries (y : Nat) : Nat → Nat → Nat → Nat
  | 0, _, _ => 0
  | n + 1, k, term => term + expSeries y n (k + 1) (term * y / 2 ^ 256 / (k + 1))

/-- The series of atanh z, z2 the square of z, in fixed point. -/
def atanhSeries (z2 : Nat) : Nat → Nat → Nat → Nat
  | 0, _, _ => 0
  | n + 1, k, term => term / k + atanhSeries z2 n (k + 2) (term * z2 / 2 ^ 256)

/-- VFEXP2 on FP32. -/
def exp2 (rm a : Nat) : Nat × Nat :=
  match decode fp32 a with
  | .nan s => (fp32.nan, snan (.nan s))
  | .inf n => if n then (0, 0) else (fp32.inf false, 0)
  | .fin n m e =>
    if m = 0 then (0x3F800000, 0)
    else if (8 : Int) < e + bitLen m then
      -- |x| >= 256: far above or below the range
      if n then roundPos fp32 rm false 3 (-2000) else roundPos fp32 rm false 3 2000
    else
      -- x = whole + frac, frac in [0, 1) with 256 fraction bits (exact: FP32 has no bit below 2^-149)
      let x : Int := signed n m * (2 ^ (256 + e).toNat : Nat)
      let whole := x / (2 ^ 256 : Nat)
      let frac := (x % (2 ^ 256 : Nat)).toNat
      if frac = 0 then roundPos fp32 rm false 1 whole
      else
        let y := frac * ln2Fixed / 2 ^ 256
        roundPos fp32 rm false (expSeries y 64 0 (2 ^ 256) * 2 + 1) (whole - 257)

/-- VFLOG2 on FP32; log2 of 1 is +0 in every rounding mode (R166). -/
def log2 (rm a : Nat) : Nat × Nat :=
  match decode fp32 a with
  | .nan s => (fp32.nan, snan (.nan s))
  | .inf n => if n then (fp32.nan, NV) else (fp32.inf false, 0)
  | .fin n m e =>
    if m = 0 then (fp32.inf true, DZ)
    else if n then (fp32.nan, NV)
    else
      let k := bitLen m - 1
      let whole : Int := e + k
      let x := m * 2 ^ 256 / 2 ^ k
      if x = 2 ^ 256 then (if whole = 0 then (0, 0) else roundInt fp32 rm whole 0)
      else
        let z : Nat := (x - 2 ^ 256) * 2 ^ 256 / (x + 2 ^ 256)
        let l : Nat := 2 * atanhSeries (z * z / 2 ^ 256) 100 1 z * invLn2Fixed / 2 ^ 256
        roundInt fp32 rm ((whole * (2 ^ 256 : Nat) + l) * 2 + 1) (-257)

end Sys2Proof.Fp
end

