-- ==== Sys2Proof/Payload.lean ====
section
/-! DEFINITION. What a device event carries: the data of a reduction in flight and the settings of a new context. -/

namespace Sys2Proof

/-- A non-returning reduction on its way to its execution place (R296, R297). -/
structure Reduction where
  /-- the issuing strand -/
  issuer : Nat
  /-- its context -/
  ctx : Nat
  /-- its core and slot, for the fault log (R372) -/
  core : Nat
  slot : Nat
  /-- the instruction word, for the fault log (R372) -/
  word : InstrWord
  /-- the FA function code (R291) -/
  fn : Nat
  /-- width in bits, 32 or 64 -/
  width : Nat
  /-- virtual address, or aperture address -/
  va : Word
  /-- the operand, in the low bits -/
  src : Word
  /-- at firmware level the access translates through Naing's tables (R366) -/
  firmware : Bool
  /-- a release: it is performed after the strand's earlier accesses (R296, R338) -/
  release : Bool
  /-- the scope of an acquire, which takes effect when the reduction is performed (R296, R338) -/
  acquire : Option Nat
  deriving DecidableEq, Repr

/-- One element of an element train (R178), or one group of a tile fetch (R204): where it was addressed, where it goes,
its leaf, and the value of an element. -/
structure TrainElem where
  va : Word
  pa : Nat
  leaf : Word
  value : Word
  deriving DecidableEq, Repr

/-- What Naing sets when it creates a context (R210, R217, R218, R273, R287, R297, R311, R352, R353, R372). -/
structure ContextInit where
  num : Nat
  root : Nat
  key : BitVec 256
  ringBase : Word
  ringCb : Word
  faultLog : Word
  /-- the delegated policy strand of R218, if any -/
  policy : Option Nat
  threshold : Nat
  keepQuota : Nat
  lifetime : Nat
  waitBound : Nat
  creditCap : Nat
  creditDelay : Nat
  drainBound : Nat
  engineShare : Nat
  gangTimeout : Nat
  deriving DecidableEq, Repr

end Sys2Proof
end

