-- ==== Sys2Proof/Syntax.lean ====
section
/-! DEFINITION. The rows of the opcode table: the 305 instructions with the operand fields that the table gives them
(R30, R38, R39), and the 84 device events, each with what it concerns. -/

namespace Sys2Proof

/-- One constructor per row of spec/opcode_table.json. A field keeps the width and the name the table gives it. -/
inductive Instr where
  /-- STRAND_WAKE (R103): A parked strand's condition is satisfied and it re-enters the rotation. -/
  | strandWake (u : Nat)
  /-- BARWT_DEADLINE (R302): Device time reaches a BARWT deadline and the waiter completes with 1. -/
  | barwtDeadline (u : Nat)
  /-- USER_INTERRUPT_ENTRY (R331): A pending completion record vectors the strand to UIVEC. -/
  | userInterruptEntry (u : Nat)
  /-- MIGRATION_SEARCH_EXPIRY (R352): The wait bound for a suitable core expires without one. -/
  | migrationSearchExpiry (u : Nat)
  /-- MIGRATION_CORE_FREED (R351): A suitable core frees and Carousel reserves it for a waiting strand. -/
  | migrationCoreFreed (u : Nat)
  /-- MIGRATION_CARRY_COMPLETE (R354): Write-backs are acknowledged and the moved strand resumes at the new core. -/
  | migrationCarryComplete (u : Nat)
  /-- CREDIT_RETURN (R353): A consumed migration credit returns after the return delay. -/
  | creditReturn (u : Nat)
  /-- PROACTIVE_RETURN (R360): A 65,536-instruction window closes and the strand may move back to its launch class. -/
  | proactiveReturn (u : Nat)
  /-- NAING_ORDERED_MOVE (R360): Naing orders a strand moved through its firmware interface. -/
  | naingOrderedMove (u : Nat) (classes : BitVec 3)
  /-- PREEMPTION_SAVE_COMPLETE (R374): The drains of a pre-emption end and the unit's state is written to its save area. -/
  | preemptionSaveComplete (u : Nat)
  /-- HOME_READ (R243): A home slice serves a read request for a tracked line. -/
  | homeRead (agent line : Nat)
  /-- HOME_OWN (R243): A home slice serves an Own request, invalidating sharers. -/
  | homeOwn (agent line : Nat)
  /-- HOME_WRITE_BACK (R243): A home merges the dirty words of a write-back. -/
  | homeWriteBack (agent line seq : Nat)
  /-- CLEAN_COPY_DROP (R243): A home clears a sharer bit on a drop. -/
  | cleanCopyDrop (agent line : Nat)
  /-- INVALIDATING_SNOOP (R243): An agent receives an invalidating snoop and returns dirty words or no copy. -/
  | invalidatingSnoop (agent line : Nat)
  /-- FORWARDED_READ (R243): An owner receives a forwarded read and downgrades its copy. -/
  | forwardedRead (agent line : Nat)
  /-- GONE_RESPONSE (R248): A home receives gone and waits for the matching write-back. -/
  | goneResponse (agent line seq : Nat)
  /-- LLC_EVICTION (R238): A line leaves the last-level cache after every copy is recalled. -/
  | llcEviction (line : Nat)
  /-- GUEST_COPY_EVICTION (R244): A remote die evicts a guest copy, recalling local copies. -/
  | guestCopyEviction (die line : Nat)
  /-- SHOOTDOWN_REQUEST (R215): An agent removes translations and acknowledges a shootdown sequence. -/
  | shootdownRequest (die seq agent : Nat)
  /-- SHOOTDOWN_COMPLETE (R215): All acknowledgements of a shootdown arrive. -/
  | shootdownComplete (die seq : Nat)
  /-- PARCEL_MIGRATION_START (R219): A migration engine starts a queued migration by setting write-block. -/
  | parcelMigrationStart (die : Nat)
  /-- PARCEL_MIGRATION_COMPLETE (R219): The copy ends, the new frame is published and held writes are performed. -/
  | parcelMigrationComplete (die parcel : Nat)
  /-- PENDING_LOG_APPEND (R222): A write to a logged parcel in tier 1 is appended and compacted at the home. -/
  | pendingLogAppend (pa op wd : Nat) (value : BitVec 64)
  /-- BOOTH_FILL (R279): Ticketed data arrives at the booth and the entry becomes Ready. -/
  | boothFill (slice entry : Nat)
  /-- BOOTH_WAIT_ALLOCATE (R278): A TKLDW request waiting at a full booth is allocated a released entry. -/
  | boothWaitAllocate (slice : Nat)
  /-- BOOTH_CLAIM (R282): A booth accepts or rejects a redeem claim. -/
  | boothClaim (u : Nat)
  /-- TICKET_DELIVERY (R282): Ready ticket data is delivered to the redeemer. -/
  | ticketDelivery (u : Nat)
  /-- TICKET_WITHDRAWAL (R289): A booth answers a redeem withdrawal at pre-emption or migration. -/
  | ticketWithdrawal (u : Nat)
  /-- TICKET_EXPIRY (R287): A booth entry outlives the ticket lifetime and becomes Expired. -/
  | ticketExpiry (slice entry : Nat)
  /-- QUEUE_FILL_ARRIVAL (R137): A producer's value arrives in its queue slot and V advances. -/
  | queueFillArrival (u q slot gen : Nat) (value : BitVec 2048) (poison : Bool)
  /-- WINDOW_FILL (R262): A window line's invalid words are filled from the home. -/
  | windowFill (u idx line : Nat)
  /-- MATRIX_PIPE_STEP (R202): A ready outer-product step enters the matrix pipe. -/
  | matrixPipeStep (u : Nat)
  /-- TILE_OP_COMPLETE (R202): A tile operation completes after its last step. -/
  | tileOpComplete (u : Nat)
  /-- TFETCH_SLOT_FILL (R204): A tile-fetch slot is filled from memory with pinned lines. -/
  | tfetchSlotFill (u q slot gen g n st : Nat) (src : TrainElem)
  /-- ELEMENT_TRAIN (R178): A receiving die performs a VSTXR element train and acknowledges it. -/
  | elementTrain (u die st w : Nat) (elems : List TrainElem)
  /-- TRAIN_ACK (R178): A train acknowledgement arrives; the last completes VSTXR. -/
  | trainAck (u die st count : Nat)
  /-- REDUCTION_PERFORM (R297): A reduction reaches its execution place and is performed or logged as faulted. -/
  | reductionPerform (r : Reduction)
  /-- REDUCTION_DRAIN_EXPIRY (R297): The teardown drain bound expires and late reductions are discarded. -/
  | reductionDrainExpiry (ctx : Nat)
  /-- COMMAND_START (R311): A queued engine command starts when an engine and its ports are free. -/
  | commandStart (die entry : Nat)
  /-- ENGINE_ELEMENT (R315): An engine reads and writes or folds one element of a command. -/
  | engineElement (die entry : Nat)
  /-- ROW_COMPLETE (R321): A completed dimension-0 row enters the output FIFO. -/
  | rowComplete (die entry : Nat)
  /-- COMMAND_END (R315): A command becomes Done or Cancelled once nothing of it is in flight. -/
  | commandEnd (die entry : Nat)
  /-- STAGE_BLOCK_ANNOUNCE (R329): A sender announces a stage-queue block. -/
  | stageBlockAnnounce (launch src dst : Nat)
  /-- STAGE_BLOCK_GRANT (R329): A receiver grants space for an announced block. -/
  | stageBlockGrant (launch src dst : Nat)
  /-- STAGE_BLOCK_PULL (R329): Block data arrives in granted space. -/
  | stageBlockPull (launch src dst : Nat)
  /-- GANG_STRIP_GRANT (R327): An engine grants a strip to every gang member and allocates their slots. -/
  | gangStripGrant (ctx die port : Nat)
  /-- CONTEXT_TEARDOWN (R334): A context's commands, gangs, channels, booth entries and logs are released. -/
  | contextTeardown (ctx : Nat)
  /-- LAUNCH_RECORD_ACCEPT (R391): A dispatch unit reads, checks and accepts the next launch record. -/
  | launchRecordAccept (q : Nat)
  /-- DISPATCH (R395): A dispatch unit chooses and dispatches one candidate. -/
  | dispatch (die : Nat)
  /-- STARVATION_BOUND_EXPIRY (R395): A candidate's wait passes the starvation bound. -/
  | starvationBoundExpiry (die : Nat)
  /-- LAUNCH_COMPLETION (R397): All strands are Done and CVAL is written to CADDR. -/
  | launchCompletion (launch : Nat)
  /-- GANG_ANNOUNCE_RECEIVE (R401): An announcement from another gang member arrives. -/
  | gangAnnounceReceive (tag : BitVec 64) (index : Nat)
  /-- GANG_TIMEOUT (R402): The collective timer expires before the gang is complete. -/
  | gangTimeout (launch : Nat)
  /-- GANG_ABORT_RECEIVE (R402): An abort for a gang tag arrives from another member. -/
  | gangAbortReceive (tag : BitVec 64)
  /-- TRACE_SAMPLE (R412): The sampling interval elapses and a sample record is written. -/
  | traceSample (core : Nat)
  /-- REPLAY_HOLD_EXPIRY (R416): An event held for 1 ms in mode 2 proceeds unrecorded. -/
  | replayHoldExpiry (die : Nat)
  /-- POWER_ON_BRING_UP (R430): After power or reset the module steps BOOTSTAT from 0 to 3. -/
  | powerOnBringUp
  /-- DOORBELL (R421): A host doorbell write stores the value for Naing and raises an event. -/
  | doorbell (v : BitVec 64)
  /-- QUOTE_REQUEST (R427): A doorbell write of 0x51 starts an attestation quote. -/
  | quoteRequest (nonce : BitVec 256)
  /-- QUOTE_READY (R427): The signed quote appears and QSTAT reads 2. -/
  | quoteReady
  /-- EVSTAT_CLEAR (R421): A host write clears EVSTAT event bits. -/
  | evstatClear (m : BitVec 64)
  /-- HOST_MEMORY_ACCESS (R245): A host CXL.mem access to tier 0 or 1 is performed at the home. -/
  | hostMemoryAccess (write : Bool) (pa size : Nat) (v : BitVec 64)
  /-- HOST_SNOOP (R245): A host snoop of a tier-2 line is answered by its home slice. -/
  | hostSnoop (line : Nat)
  /-- HOST_LINK_LOSS (R428): A link is lost; lines it owned are poisoned and commands on it fail. -/
  | hostLinkLoss (link : Nat)
  /-- THERMAL_THROTTLE (R24): A junction passes 105 °C and the power controller throttles. -/
  | thermalThrottle (tj : BitVec 8)
  /-- THERMAL_SHUTDOWN (R24): A junction passes 115 °C; compute dies are fenced and dispatch stops. -/
  | thermalShutdown (tj : BitVec 8)
  /-- POWER_CAP_THROTTLE (R429): Module power reaches the cap and issue rates are lowered. -/
  | powerCapThrottle (rate : BitVec 7)
  /-- UNCORRECTED_ERROR (R25): An uncorrected SRAM or DRAM error poisons the word read. -/
  | uncorrectedError (kind a b c : Nat)
  /-- UNIT_FENCE (R26): A failing strand, core, compute die or base die is fenced. -/
  | unitFence (kind num : Nat)
  /-- DCWORD7_COMMIT (R422): Writing DCWORD7 commits the selected launch-queue descriptor. -/
  | dcword7Commit (v : BitVec 64)
  /-- KEY_LOAD (R424): KEYCTL 1 installs key material into the selected slot. -/
  | keyLoad
  /-- KEY_ERASE (R424): KEYCTL 2 empties the selected key slot. -/
  | keyErase
  /-- PWRCAP_WRITE (R429): A PWRCAP write sets the clamped power cap within 1 ms. -/
  | pwrcapWrite (v : BitVec 64)
  /-- RPLMODE_WRITE (R418): Writing RPLMODE sets the replay mode and clears RPLSTAT. -/
  | rplmodeWrite (v : BitVec 64)
  /-- REGISTER_WRITE (R41): A write to any register without a row of its own. -/
  | registerWrite (u : Nat) (n : BitVec 12) (v : BitVec 64)
  /-- CORRECTED_ERROR (R25): A single-bit error in an SRAM array or DRAM is corrected and counted in the per-unit soft-error counts reported to Naing and the host. -/
  | correctedError (site : Nat)
  /-- POWER_LOSS (R15): Module power is lost, and TIME, keys, caches and every volatile state are lost. -/
  | powerLoss
  /-- CONTEXT_CREATION (R273): Naing creates a context, setting its ticket check key and starting its notification and fault-log counts and SEQ numbers at 0. -/
  | contextCreation (c : ContextInit)
  /-- NAING_PARCEL_MIGRATION_REQUEST (R219): Naing requests a parcel migration, which enters the migration engine's queue. -/
  | naingParcelMigrationRequest (ctx : Nat) (va : BitVec 64) (tier : Nat)
  /-- RESERVE_FRAME_SUPPLY (R227): Naing supplies a tier-0 frame to a migration engine's reserve, starting a forced fetch that was waiting. -/
  | reserveFrameSupply (die frame : Nat)
  /-- COUNTER_TABLE_ENTRY_FREE (R217): Naing frees entries of a full tier-2 counter table, so newly touched parcels are counted again and a later fill makes a new kind-6 notification. -/
  | counterTableEntryFree (die count : Nat)
  /-- RESUMPTION_MARK (R394): Naing marks a saved unit for resumption, making it a dispatch candidate with its save time as wait start. -/
  | resumptionMark (u : Nat)
  /-- NAING_LAUNCH_END (R402): Naing ends a launch after cause 20, writing code 10 to LASTERR without the completion write. -/
  | naingLaunchEnd (launch : Nat)
  /-- ADD (R116): Adds two scalar registers with wrap at 64 or 32 bits. -/
  | add (d : BitVec 6) (a : BitVec 6) (b : BitVec 6) (t : BitVec 1) (s : BitVec 1)
  /-- SUB (R116): Subtracts scalar register b from a with wrap. -/
  | sub (d : BitVec 6) (a : BitVec 6) (b : BitVec 6) (t : BitVec 1) (s : BitVec 1)
  /-- MUL (R116): Multiplies two scalar registers, low half. -/
  | mul (d : BitVec 6) (a : BitVec 6) (b : BitVec 6) (t : BitVec 1) (s : BitVec 1)
  /-- MULH (R116): Writes the high half of the signed product. -/
  | mulh (d : BitVec 6) (a : BitVec 6) (b : BitVec 6) (t : BitVec 1) (s : BitVec 1)
  /-- MULHN (R116): Writes the high half of the natural product. -/
  | mulhn (d : BitVec 6) (a : BitVec 6) (b : BitVec 6) (t : BitVec 1) (s : BitVec 1)
  /-- DIV (R116): Signed division with saturating edge results, on C and V. -/
  | div (d : BitVec 6) (a : BitVec 6) (b : BitVec 6) (t : BitVec 1) (s : BitVec 1)
  /-- DIVN (R116): Natural division; division by zero gives the largest natural value. -/
  | divn (d : BitVec 6) (a : BitVec 6) (b : BitVec 6) (t : BitVec 1) (s : BitVec 1)
  /-- REM (R116): Signed remainder; by zero returns the dividend. -/
  | rem (d : BitVec 6) (a : BitVec 6) (b : BitVec 6) (t : BitVec 1) (s : BitVec 1)
  /-- REMN (R116): Natural remainder; by zero returns the dividend. -/
  | remn (d : BitVec 6) (a : BitVec 6) (b : BitVec 6) (t : BitVec 1) (s : BitVec 1)
  /-- AND (R116): Bitwise AND of two scalar registers. -/
  | and (d : BitVec 6) (a : BitVec 6) (b : BitVec 6) (t : BitVec 1) (s : BitVec 1)
  /-- OR (R116): Bitwise OR of two scalar registers. -/
  | or (d : BitVec 6) (a : BitVec 6) (b : BitVec 6) (t : BitVec 1) (s : BitVec 1)
  /-- XOR (R116): Bitwise XOR of two scalar registers. -/
  | xor (d : BitVec 6) (a : BitVec 6) (b : BitVec 6) (t : BitVec 1) (s : BitVec 1)
  /-- ANDN (R116): AND of a with the complement of b. -/
  | andn (d : BitVec 6) (a : BitVec 6) (b : BitVec 6) (t : BitVec 1) (s : BitVec 1)
  /-- SLL (R116): Logical left shift by a register amount. -/
  | sll (d : BitVec 6) (a : BitVec 6) (b : BitVec 6) (t : BitVec 1) (s : BitVec 1)
  /-- SRL (R116): Logical right shift by a register amount. -/
  | srl (d : BitVec 6) (a : BitVec 6) (b : BitVec 6) (t : BitVec 1) (s : BitVec 1)
  /-- SRA (R116): Arithmetic right shift by a register amount. -/
  | sra (d : BitVec 6) (a : BitVec 6) (b : BitVec 6) (t : BitVec 1) (s : BitVec 1)
  /-- SLLI (R117): Logical left shift by the immediate in b. -/
  | slli (d : BitVec 6) (a : BitVec 6) (h : BitVec 6) (t : BitVec 1) (s : BitVec 1)
  /-- SRLI (R117): Logical right shift by the immediate in b. -/
  | srli (d : BitVec 6) (a : BitVec 6) (h : BitVec 6) (t : BitVec 1) (s : BitVec 1)
  /-- SRAI (R117): Arithmetic right shift by the immediate in b. -/
  | srai (d : BitVec 6) (a : BitVec 6) (h : BitVec 6) (t : BitVec 1) (s : BitVec 1)
  /-- MIN (R116): Signed minimum. -/
  | min (d : BitVec 6) (a : BitVec 6) (b : BitVec 6) (t : BitVec 1) (s : BitVec 1)
  /-- MAX (R116): Signed maximum. -/
  | max (d : BitVec 6) (a : BitVec 6) (b : BitVec 6) (t : BitVec 1) (s : BitVec 1)
  /-- MINN (R116): Natural minimum. -/
  | minn (d : BitVec 6) (a : BitVec 6) (b : BitVec 6) (t : BitVec 1) (s : BitVec 1)
  /-- MAXN (R116): Natural maximum. -/
  | maxn (d : BitVec 6) (a : BitVec 6) (b : BitVec 6) (t : BitVec 1) (s : BitVec 1)
  /-- SLT (R116): Sets 1 if a is less than b, signed. -/
  | slt (d : BitVec 6) (a : BitVec 6) (b : BitVec 6) (t : BitVec 1) (s : BitVec 1)
  /-- SLTN (R116): Sets 1 if a is less than b, natural. -/
  | sltn (d : BitVec 6) (a : BitVec 6) (b : BitVec 6) (t : BitVec 1) (s : BitVec 1)
  /-- SEQ (R116): Sets 1 if a equals b. -/
  | seq (d : BitVec 6) (a : BitVec 6) (b : BitVec 6) (t : BitVec 1) (s : BitVec 1)
  /-- CLZ (R116): Counts leading zero bits. -/
  | clz (d : BitVec 6) (a : BitVec 6) (t : BitVec 1) (s : BitVec 1)
  /-- CTZ (R116): Counts trailing zero bits. -/
  | ctz (d : BitVec 6) (a : BitVec 6) (t : BitVec 1) (s : BitVec 1)
  /-- POPC (R116): Counts set bits. -/
  | popc (d : BitVec 6) (a : BitVec 6) (t : BitVec 1) (s : BitVec 1)
  /-- ROTR (R116): Rotates right by a register amount. -/
  | rotr (d : BitVec 6) (a : BitVec 6) (b : BitVec 6) (t : BitVec 1) (s : BitVec 1)
  /-- BREV (R116): Reverses bit order. -/
  | brev (d : BitVec 6) (a : BitVec 6) (t : BitVec 1) (s : BitVec 1)
  /-- BSWAP (R116): Reverses byte order. -/
  | bswap (d : BitVec 6) (a : BitVec 6) (t : BitVec 1) (s : BitVec 1)
  /-- ADDI (R118): Adds a sign-extended 14-bit immediate. -/
  | addi (d : BitVec 6) (a : BitVec 6) (i : BitVec 14)
  /-- ANDI (R118): ANDs with a sign-extended immediate. -/
  | andi (d : BitVec 6) (a : BitVec 6) (i : BitVec 14)
  /-- ORI (R118): ORs with a sign-extended immediate. -/
  | ori (d : BitVec 6) (a : BitVec 6) (i : BitVec 14)
  /-- XORI (R118): XORs with a sign-extended immediate. -/
  | xori (d : BitVec 6) (a : BitVec 6) (i : BitVec 14)
  /-- SLTI (R118): Signed compare with an immediate. -/
  | slti (d : BitVec 6) (a : BitVec 6) (i : BitVec 14)
  /-- SLTNI (R118): Natural compare with an immediate. -/
  | sltni (d : BitVec 6) (a : BitVec 6) (i : BitVec 14)
  /-- LUI (R119): Loads imm20 times 2^14. -/
  | lui (d : BitVec 6) (i : BitVec 20)
  /-- AUIPC (R119): Adds imm20 times 2^14 to the PC. -/
  | auipc (d : BitVec 6) (i : BitVec 20)
  /-- JAL (R120): Jumps PC-relative and writes the link. -/
  | jal (d : BitVec 6) (i : BitVec 20)
  /-- JALR (R120): Jumps through a register plus a word offset and writes the link. -/
  | jalr (d : BitVec 6) (a : BitVec 6) (i : BitVec 14)
  /-- BEQ (R121): Branches when two registers are equal. -/
  | beq (a : BitVec 6) (b : BitVec 6) (o : BitVec 11)
  /-- BNE (R121): Branches when two registers differ. -/
  | bne (a : BitVec 6) (b : BitVec 6) (o : BitVec 11)
  /-- BLT (R121): Branches on signed less-than. -/
  | blt (a : BitVec 6) (b : BitVec 6) (o : BitVec 11)
  /-- BGE (R121): Branches on signed greater-or-equal. -/
  | bge (a : BitVec 6) (b : BitVec 6) (o : BitVec 11)
  /-- BLTN (R121): Branches on natural less-than. -/
  | bltn (a : BitVec 6) (b : BitVec 6) (o : BitVec 11)
  /-- BGEN (R121): Branches on natural greater-or-equal. -/
  | bgen (a : BitVec 6) (b : BitVec 6) (o : BitVec 11)
  /-- BQT (R122): Consumes a branch-queue head and branches if it is 1. -/
  | bqt (a : BitVec 6) (o : BitVec 11)
  /-- BQF (R122): Consumes a branch-queue head and branches if it is 0. -/
  | bqf (a : BitVec 6) (o : BitVec 11)
  /-- LD (R123): Loads a naturally aligned value and sign-extends it. -/
  | ld (d : BitVec 6) (b : BitVec 6) (o : BitVec 6) (w : BitVec 2) (s : BitVec 2) (r : BitVec 2) (c : BitVec 2)
  /-- LDZ (R123): Loads a naturally aligned value and zero-extends it. -/
  | ldz (d : BitVec 6) (b : BitVec 6) (o : BitVec 6) (w : BitVec 2) (s : BitVec 2) (r : BitVec 2) (c : BitVec 2)
  /-- ST (R123): Stores the low bits of a register to memory. -/
  | st (d : BitVec 6) (b : BitVec 6) (o : BitVec 6) (w : BitVec 2) (s : BitVec 2) (r : BitVec 2) (c : BitVec 2)
  /-- FADD (R128): Scalar floating-point add rounded in RM. -/
  | fadd (d : BitVec 6) (a : BitVec 6) (b : BitVec 6) (t : BitVec 2) (s : BitVec 1)
  /-- FSUB (R128): Scalar floating-point subtract. -/
  | fsub (d : BitVec 6) (a : BitVec 6) (b : BitVec 6) (t : BitVec 2) (s : BitVec 1)
  /-- FMUL (R128): Scalar floating-point multiply. -/
  | fmul (d : BitVec 6) (a : BitVec 6) (b : BitVec 6) (t : BitVec 2) (s : BitVec 1)
  /-- FMAC (R128): Fused multiply-add into d with one rounding. -/
  | fmac (d : BitVec 6) (a : BitVec 6) (b : BitVec 6) (t : BitVec 2) (s : BitVec 1)
  /-- FNMAC (R128): Fused multiply-subtract from d with one rounding. -/
  | fnmac (d : BitVec 6) (a : BitVec 6) (b : BitVec 6) (t : BitVec 2) (s : BitVec 1)
  /-- FDIV (R128): Scalar floating-point divide, on C and V. -/
  | fdiv (d : BitVec 6) (a : BitVec 6) (b : BitVec 6) (t : BitVec 2) (s : BitVec 1)
  /-- FSQRT (R128): Scalar floating-point square root, on C and V. -/
  | fsqrt (d : BitVec 6) (a : BitVec 6) (t : BitVec 2) (s : BitVec 1)
  /-- FMIN (R74): Scalar floating-point minimum. -/
  | fmin (d : BitVec 6) (a : BitVec 6) (b : BitVec 6) (t : BitVec 2) (s : BitVec 1)
  /-- FMAX (R74): Scalar floating-point maximum. -/
  | fmax (d : BitVec 6) (a : BitVec 6) (b : BitVec 6) (t : BitVec 2) (s : BitVec 1)
  /-- FEQ (R128): Floating-point equality compare into an integer. -/
  | feq (d : BitVec 6) (a : BitVec 6) (b : BitVec 6) (t : BitVec 2) (s : BitVec 1)
  /-- FLT (R128): Floating-point less-than compare. -/
  | flt (d : BitVec 6) (a : BitVec 6) (b : BitVec 6) (t : BitVec 2) (s : BitVec 1)
  /-- FLE (R128): Floating-point less-or-equal compare. -/
  | fle (d : BitVec 6) (a : BitVec 6) (b : BitVec 6) (t : BitVec 2) (s : BitVec 1)
  /-- FCLASS (R129): Writes the class descriptor of a floating-point value. -/
  | fclass (d : BitVec 6) (a : BitVec 6) (t : BitVec 2) (s : BitVec 1)
  /-- FCVTI (R131): Converts floating point to an integer format. -/
  | fcvti (d : BitVec 6) (a : BitVec 6) (m : BitVec 3) (f : BitVec 3) (t : BitVec 2) (s : BitVec 1)
  /-- FCVTF (R131): Converts an integer format to floating point. -/
  | fcvtf (d : BitVec 6) (a : BitVec 6) (m : BitVec 3) (f : BitVec 3) (t : BitVec 2) (s : BitVec 1)
  /-- FCVTW (R131): Converts between floating-point formats. -/
  | fcvtw (d : BitVec 6) (a : BitVec 6) (m : BitVec 3) (f : BitVec 2) (t : BitVec 2) (s : BitVec 1)
  /-- FSCPY (R128): Copies the sign of b onto a. -/
  | fscpy (d : BitVec 6) (a : BitVec 6) (b : BitVec 6) (t : BitVec 2) (s : BitVec 1)
  /-- FSNEG (R128): Puts the inverse of b's sign onto a. -/
  | fsneg (d : BitVec 6) (a : BitVec 6) (b : BitVec 6) (t : BitVec 2) (s : BitVec 1)
  /-- FSXOR (R128): XORs the signs of a and b onto a. -/
  | fsxor (d : BitVec 6) (a : BitVec 6) (b : BitVec 6) (t : BitVec 2) (s : BitVec 1)
  /-- CSRRW (R41): Writes a control register from x[a] and returns the old value. -/
  | csrrw (d : BitVec 6) (a : BitVec 6) (c : BitVec 12)
  /-- CSRRS (R41): Sets control-register bits from x[a] and returns the old value. -/
  | csrrs (d : BitVec 6) (a : BitVec 6) (c : BitVec 12)
  /-- CSRRC (R41): Clears control-register bits from x[a] and returns the old value. -/
  | csrrc (d : BitVec 6) (a : BitVec 6) (c : BitVec 12)
  /-- CSRR (R41): Reads a control register. -/
  | csrr (d : BitVec 6) (c : BitVec 12)
  /-- EXIT (R106): Ends the strand after its accesses are performed, unmapping windows and disabling tiles. -/
  | exit
  /-- YIELD (R107): Waits for vector commands to complete and gives up the issue opportunity. -/
  | yield
  /-- FORKL (R109): Starts a child strand in a free slot with half the GVL. -/
  | forkl (d : BitVec 6) (a : BitVec 6)
  /-- JOINL (R109): Waits for a child to finish and takes back its lanes. -/
  | joinl (d : BitVec 6) (a : BitVec 6)
  /-- LOOP (R108): Starts a hardware loop, or sets the strand skipping on a zero count. -/
  | loop (a : BitVec 6) (n : BitVec 2)
  /-- ENDLOOP (R108): Ends a hardware loop iteration or ends skipping. -/
  | endloop (n : BitVec 2)
  /-- LIDX (R108): Reads a loop index, iteration index or trip count. -/
  | lidx (d : BitVec 6) (s : BitVec 6)
  /-- SIDX (R108): Sets the index of a hardware loop slot. -/
  | sidx (a : BitVec 6) (n : BitVec 2)
  /-- HINT (R111): Tells the device about the following code. -/
  | hint (c : BitVec 6)
  /-- MIGR (R110): Asks Carousel to move the strand to a core of the named classes. -/
  | migr (d : BitVec 6) (a : BitVec 6)
  /-- QCFG (R148): Configures or unconfigures a queue. -/
  | qcfg (d : BitVec 6) (a : BitVec 6)
  /-- QADV (R148): Discards a count of queue heads. -/
  | qadv (a : BitVec 6) (b : BitVec 6)
  /-- QCOMMIT (R148): Sets the queue's commit mark. -/
  | qcommit (a : BitVec 6)
  /-- QFILL (R148): Returns the number of ready heads. -/
  | qfill (d : BitVec 6) (a : BitVec 6)
  /-- QFREE (R148): Returns the number of free slots. -/
  | qfree (d : BitVec 6) (a : BitVec 6)
  /-- QRESET (R148): Discards all slots and resets the pointers. -/
  | qreset (a : BitVec 6)
  /-- QDRAIN (R148): Waits until every allocated slot has filled. -/
  | qdrain (a : BitVec 6)
  /-- XPUT (R148): Writes a partner register and its full bit, or appends a queue slot. -/
  | xput (d : BitVec 6) (a : BitVec 6)
  /-- FSET (R148): Sets a register's full bit. -/
  | fset (d : BitVec 6)
  /-- FCLR (R148): Clears a register's full bit. -/
  | fclr (d : BitVec 6)
  /-- FTEST (R148): Reads a register's full bit. -/
  | ftest (d : BitVec 6) (a : BitVec 6)
  /-- VADD (R163): Element-wise integer add. -/
  | vadd (d : BitVec 6) (a : BitVec 6) (b : BitVec 6) (t : BitVec 2) (x : BitVec 1)
  /-- VSUB (R163): Element-wise integer subtract. -/
  | vsub (d : BitVec 6) (a : BitVec 6) (b : BitVec 6) (t : BitVec 2) (x : BitVec 1)
  /-- VMUL (R163): Element-wise integer multiply, low bits. -/
  | vmul (d : BitVec 6) (a : BitVec 6) (b : BitVec 6) (t : BitVec 2) (x : BitVec 1)
  /-- VMULH (R163): Element-wise signed high-half multiply. -/
  | vmulh (d : BitVec 6) (a : BitVec 6) (b : BitVec 6) (t : BitVec 2) (x : BitVec 1)
  /-- VMAC (R163): Element-wise multiply-accumulate into d. -/
  | vmac (d : BitVec 6) (a : BitVec 6) (b : BitVec 6) (t : BitVec 2) (x : BitVec 1)
  /-- VDIV (R163): Element-wise signed divide, on C and V. -/
  | vdiv (d : BitVec 6) (a : BitVec 6) (b : BitVec 6) (t : BitVec 2) (x : BitVec 1)
  /-- VDIVN (R163): Element-wise natural divide, on C and V. -/
  | vdivn (d : BitVec 6) (a : BitVec 6) (b : BitVec 6) (t : BitVec 2) (x : BitVec 1)
  /-- VREM (R163): Element-wise signed remainder, on C and V. -/
  | vrem (d : BitVec 6) (a : BitVec 6) (b : BitVec 6) (t : BitVec 2) (x : BitVec 1)
  /-- VMIN (R163): Element-wise signed minimum. -/
  | vmin (d : BitVec 6) (a : BitVec 6) (b : BitVec 6) (t : BitVec 2) (x : BitVec 1)
  /-- VMAX (R163): Element-wise signed maximum. -/
  | vmax (d : BitVec 6) (a : BitVec 6) (b : BitVec 6) (t : BitVec 2) (x : BitVec 1)
  /-- VMINN (R163): Element-wise natural minimum. -/
  | vminn (d : BitVec 6) (a : BitVec 6) (b : BitVec 6) (t : BitVec 2) (x : BitVec 1)
  /-- VMAXN (R163): Element-wise natural maximum. -/
  | vmaxn (d : BitVec 6) (a : BitVec 6) (b : BitVec 6) (t : BitVec 2) (x : BitVec 1)
  /-- VAND (R163): Element-wise AND. -/
  | vand (d : BitVec 6) (a : BitVec 6) (b : BitVec 6) (t : BitVec 2) (x : BitVec 1)
  /-- VOR (R163): Element-wise OR. -/
  | vor (d : BitVec 6) (a : BitVec 6) (b : BitVec 6) (t : BitVec 2) (x : BitVec 1)
  /-- VXOR (R163): Element-wise XOR. -/
  | vxor (d : BitVec 6) (a : BitVec 6) (b : BitVec 6) (t : BitVec 2) (x : BitVec 1)
  /-- VSLL (R163): Element-wise logical left shift. -/
  | vsll (d : BitVec 6) (a : BitVec 6) (b : BitVec 6) (t : BitVec 2) (x : BitVec 1)
  /-- VSRL (R163): Element-wise logical right shift. -/
  | vsrl (d : BitVec 6) (a : BitVec 6) (b : BitVec 6) (t : BitVec 2) (x : BitVec 1)
  /-- VSRA (R163): Element-wise arithmetic right shift. -/
  | vsra (d : BitVec 6) (a : BitVec 6) (b : BitVec 6) (t : BitVec 2) (x : BitVec 1)
  /-- VSADD (R163): Element-wise saturating add, setting SX when clamped. -/
  | vsadd (d : BitVec 6) (a : BitVec 6) (b : BitVec 6) (t : BitVec 2) (x : BitVec 1)
  /-- VSSUB (R163): Element-wise saturating subtract. -/
  | vssub (d : BitVec 6) (a : BitVec 6) (b : BitVec 6) (t : BitVec 2) (x : BitVec 1)
  /-- VABS (R163): Element-wise absolute value. -/
  | vabs (d : BitVec 6) (a : BitVec 6) (t : BitVec 2)
  /-- VNEG (R163): Element-wise negation. -/
  | vneg (d : BitVec 6) (a : BitVec 6) (t : BitVec 2)
  /-- VREDSUM (R164): Sums active elements plus b[0] into d[0]. -/
  | vredsum (d : BitVec 6) (a : BitVec 6) (b : BitVec 6) (t : BitVec 2)
  /-- VREDMIN (R164): Signed minimum reduction into d[0]. -/
  | vredmin (d : BitVec 6) (a : BitVec 6) (b : BitVec 6) (t : BitVec 2)
  /-- VREDMAX (R164): Signed maximum reduction into d[0]. -/
  | vredmax (d : BitVec 6) (a : BitVec 6) (b : BitVec 6) (t : BitVec 2)
  /-- VFADD (R165): Element-wise floating-point add. -/
  | vfadd (d : BitVec 6) (a : BitVec 6) (b : BitVec 6) (t : BitVec 2) (x : BitVec 1)
  /-- VFSUB (R165): Element-wise floating-point subtract. -/
  | vfsub (d : BitVec 6) (a : BitVec 6) (b : BitVec 6) (t : BitVec 2) (x : BitVec 1)
  /-- VFMUL (R165): Element-wise floating-point multiply. -/
  | vfmul (d : BitVec 6) (a : BitVec 6) (b : BitVec 6) (t : BitVec 2) (x : BitVec 1)
  /-- VFMA (R165): Element-wise fused multiply-add into d. -/
  | vfma (d : BitVec 6) (a : BitVec 6) (b : BitVec 6) (t : BitVec 2) (x : BitVec 1)
  /-- VFNMA (R165): Element-wise fused multiply-subtract from d. -/
  | vfnma (d : BitVec 6) (a : BitVec 6) (b : BitVec 6) (t : BitVec 2) (x : BitVec 1)
  /-- VFDIV (R165): Element-wise floating-point divide, on C and V. -/
  | vfdiv (d : BitVec 6) (a : BitVec 6) (b : BitVec 6) (t : BitVec 2) (x : BitVec 1)
  /-- VFSQRT (R165): Element-wise square root, on C and V. -/
  | vfsqrt (d : BitVec 6) (a : BitVec 6) (t : BitVec 2)
  /-- VFEXP2 (R166): Element-wise correctly rounded 2^a in FP32. -/
  | vfexp2 (d : BitVec 6) (a : BitVec 6)
  /-- VFLOG2 (R166): Element-wise correctly rounded log2 in FP32. -/
  | vflog2 (d : BitVec 6) (a : BitVec 6)
  /-- VFMIN (R74): Element-wise floating-point minimum. -/
  | vfmin (d : BitVec 6) (a : BitVec 6) (b : BitVec 6) (t : BitVec 2) (x : BitVec 1)
  /-- VFMAX (R74): Element-wise floating-point maximum. -/
  | vfmax (d : BitVec 6) (a : BitVec 6) (b : BitVec 6) (t : BitVec 2) (x : BitVec 1)
  /-- VFABS (R165): Element-wise clears the sign bit. -/
  | vfabs (d : BitVec 6) (a : BitVec 6) (t : BitVec 2)
  /-- VFNEG (R165): Element-wise inverts the sign bit. -/
  | vfneg (d : BitVec 6) (a : BitVec 6) (t : BitVec 2)
  /-- VFCVT (R168): Element-wise format conversion, including stochastic rounding. -/
  | vfcvt (d : BitVec 6) (a : BitVec 6) (e : BitVec 3) (f : BitVec 3)
  /-- VFREDO (R167): Ordered floating-point sum reduction into d[0]. -/
  | vfredo (d : BitVec 6) (a : BitVec 6) (b : BitVec 6) (t : BitVec 2)
  /-- VFREDT (R167): Tree floating-point sum reduction into d[0]. -/
  | vfredt (d : BitVec 6) (a : BitVec 6) (b : BitVec 6) (t : BitVec 2)
  /-- VFREDMAX (R165): Floating-point maximum reduction into d[0]. -/
  | vfredmax (d : BitVec 6) (a : BitVec 6) (b : BitVec 6) (t : BitVec 2)
  /-- VFREDMIN (R165): Floating-point minimum reduction into d[0]. -/
  | vfredmin (d : BitVec 6) (a : BitVec 6) (b : BitVec 6) (t : BitVec 2)
  /-- VFSCALE (R165): Element-wise multiply by a power of two. -/
  | vfscale (d : BitVec 6) (a : BitVec 6) (b : BitVec 6) (t : BitVec 2) (x : BitVec 1)
  /-- VCEQ (R169): Integer equality compare into a predicate. -/
  | vceq (d : BitVec 6) (a : BitVec 6) (b : BitVec 6) (t : BitVec 2) (x : BitVec 1)
  /-- VCNE (R169): Integer inequality compare into a predicate. -/
  | vcne (d : BitVec 6) (a : BitVec 6) (b : BitVec 6) (t : BitVec 2) (x : BitVec 1)
  /-- VCLT (R169): Signed less-than compare into a predicate. -/
  | vclt (d : BitVec 6) (a : BitVec 6) (b : BitVec 6) (t : BitVec 2) (x : BitVec 1)
  /-- VCLE (R169): Signed less-or-equal compare into a predicate. -/
  | vcle (d : BitVec 6) (a : BitVec 6) (b : BitVec 6) (t : BitVec 2) (x : BitVec 1)
  /-- VCLTN (R169): Natural less-than compare into a predicate. -/
  | vcltn (d : BitVec 6) (a : BitVec 6) (b : BitVec 6) (t : BitVec 2) (x : BitVec 1)
  /-- VCLEN (R169): Natural less-or-equal compare into a predicate. -/
  | vclen (d : BitVec 6) (a : BitVec 6) (b : BitVec 6) (t : BitVec 2) (x : BitVec 1)
  /-- VFCEQ (R169): Floating-point equality compare into a predicate. -/
  | vfceq (d : BitVec 6) (a : BitVec 6) (b : BitVec 6) (t : BitVec 2) (x : BitVec 1)
  /-- VFCLT (R169): Floating-point less-than compare into a predicate. -/
  | vfclt (d : BitVec 6) (a : BitVec 6) (b : BitVec 6) (t : BitVec 2) (x : BitVec 1)
  /-- VFCLE (R169): Floating-point less-or-equal compare into a predicate. -/
  | vfcle (d : BitVec 6) (a : BitVec 6) (b : BitVec 6) (t : BitVec 2) (x : BitVec 1)
  /-- VFCUN (R169): Sets a predicate bit where either operand is NaN. -/
  | vfcun (d : BitVec 6) (a : BitVec 6) (b : BitVec 6) (t : BitVec 2) (x : BitVec 1)
  /-- PAND (R170): Predicate AND. -/
  | pand (d : BitVec 6) (a : BitVec 6) (b : BitVec 6)
  /-- POR (R170): Predicate OR. -/
  | por (d : BitVec 6) (a : BitVec 6) (b : BitVec 6)
  /-- PXOR (R170): Predicate XOR. -/
  | pxor (d : BitVec 6) (a : BitVec 6) (b : BitVec 6)
  /-- PANDN (R170): Predicate AND NOT. -/
  | pandn (d : BitVec 6) (a : BitVec 6) (b : BitVec 6)
  /-- PNOT (R170): Predicate NOT. -/
  | pnot (d : BitVec 6) (a : BitVec 6)
  /-- PSBF (R170): Sets bits before the first set bit. -/
  | psbf (d : BitVec 6) (a : BitVec 6)
  /-- PSIF (R170): Sets bits up to and including the first set bit. -/
  | psif (d : BitVec 6) (a : BitVec 6)
  /-- PSOF (R170): Sets only the first set bit. -/
  | psof (d : BitVec 6) (a : BitVec 6)
  /-- PCNT (R170): Counts set predicate bits below VL.COUNT. -/
  | pcnt (d : BitVec 6) (a : BitVec 6)
  /-- PFIRST (R170): Returns the index of the first set predicate bit. -/
  | pfirst (d : BitVec 6) (a : BitVec 6)
  /-- PSET (R170): Sets predicate bits below VL.COUNT. -/
  | pset (d : BitVec 6)
  /-- PCLR (R170): Clears predicate bits below VL.COUNT. -/
  | pclr (d : BitVec 6)
  /-- PFROMX (R170): Writes 64 predicate bits from a scalar register. -/
  | pfromx (d : BitVec 6) (a : BitVec 6) (k : BitVec 2)
  /-- PTOX (R170): Reads 64 predicate bits into a scalar register. -/
  | ptox (d : BitVec 6) (a : BitVec 6) (k : BitVec 2)
  /-- VCOMPRESS (R171): Packs active elements to the low end of d. -/
  | vcompress (d : BitVec 6) (a : BitVec 6) (t : BitVec 2)
  /-- VEXPAND (R171): Spreads consecutive source elements to active positions. -/
  | vexpand (d : BitVec 6) (a : BitVec 6) (t : BitVec 2)
  /-- VSLIDEUP (R171): Slides elements up by s. -/
  | vslideup (d : BitVec 6) (a : BitVec 6) (b : BitVec 6) (t : BitVec 2) (x : BitVec 1)
  /-- VSLIDEDN (R171): Slides elements down by s. -/
  | vslidedn (d : BitVec 6) (a : BitVec 6) (b : BitVec 6) (t : BitVec 2) (x : BitVec 1)
  /-- VPERMX (R171): Permutes elements by an index vector. -/
  | vpermx (d : BitVec 6) (a : BitVec 6) (b : BitVec 6) (t : BitVec 2)
  /-- VBCAST (R171): Broadcasts element k to the strip. -/
  | vbcast (d : BitVec 6) (a : BitVec 6) (k : BitVec 6) (t : BitVec 2)
  /-- VEXTX (R171): Extracts one element into a scalar register. -/
  | vextx (d : BitVec 6) (a : BitVec 6) (b : BitVec 6) (t : BitVec 2)
  /-- VINSX (R171): Inserts a scalar into one element. -/
  | vinsx (d : BitVec 6) (a : BitVec 6) (b : BitVec 6) (t : BitVec 2)
  /-- VIOTA (R171): Writes prefix counts of predicate bits. -/
  | viota (d : BitVec 6) (a : BitVec 6) (b : BitVec 6) (t : BitVec 2)
  /-- VMOV (R171): Element-wise vector move. -/
  | vmov (d : BitVec 6) (a : BitVec 6) (t : BitVec 2)
  /-- VZIP (R171): Interleaves two vectors. -/
  | vzip (d : BitVec 6) (a : BitVec 6) (b : BitVec 6) (t : BitVec 2)
  /-- VUNZIP (R171): Takes the even elements of two concatenated vectors. -/
  | vunzip (d : BitVec 6) (a : BitVec 6) (b : BitVec 6) (t : BitVec 2)
  /-- VLD (R173): Unit-stride vector load. -/
  | vld (d : BitVec 6) (b : BitVec 6) (w : BitVec 2) (s : BitVec 2) (h : BitVec 1)
  /-- VLDS (R173): Strided vector load using VST. -/
  | vlds (d : BitVec 6) (b : BitVec 6) (w : BitVec 2) (s : BitVec 2) (h : BitVec 1)
  /-- VLDX (R173): Indexed vector gather, on C and V. -/
  | vldx (d : BitVec 6) (b : BitVec 6) (i : BitVec 6) (w : BitVec 2) (s : BitVec 2) (h : BitVec 1)
  /-- VLDFF (R176): Fault-only-first vector load that truncates VL. -/
  | vldff (d : BitVec 6) (b : BitVec 6) (w : BitVec 2) (s : BitVec 2) (h : BitVec 1)
  /-- VLDB (R173): Loads one value and broadcasts it to active elements. -/
  | vldb (d : BitVec 6) (b : BitVec 6) (w : BitVec 2) (s : BitVec 2) (h : BitVec 1)
  /-- VST (R173): Unit-stride vector store. -/
  | vst (d : BitVec 6) (b : BitVec 6) (w : BitVec 2) (s : BitVec 2) (h : BitVec 1)
  /-- VSTS (R173): Strided vector store. -/
  | vsts (d : BitVec 6) (b : BitVec 6) (w : BitVec 2) (s : BitVec 2) (h : BitVec 1)
  /-- VSTX (R173): Indexed vector scatter, on C and V. -/
  | vstx (d : BitVec 6) (b : BitVec 6) (i : BitVec 6) (w : BitVec 2) (s : BitVec 2) (h : BitVec 1)
  /-- VSTXR (R178): Remote scatter sent as element trains per base die. -/
  | vstxr (d : BitVec 6) (b : BitVec 6) (i : BitVec 6) (w : BitVec 2) (s : BitVec 2) (h : BitVec 1)
  /-- SETVL (R162): Sets VL from a requested count capped by GVL. -/
  | setvl (d : BitVec 6) (a : BitVec 6) (t : BitVec 2)
  /-- SETVLI (R162): Sets VL from an immediate count. -/
  | setvli (d : BitVec 6) (i : BitVec 12) (t : BitVec 2)
  /-- SETMS (R162): Selects the mask predicate or all-true. -/
  | setms (a : BitVec 6) (m : BitVec 1)
  /-- SETST (R162): Sets the vector stride VST. -/
  | setst (a : BitVec 6)
  /-- SCPUT (R180): Appends active elements to the compaction buffer or reports a dense strip. -/
  | scput (d : BitVec 6) (a : BitVec 6) (t : BitVec 2)
  /-- SCTAKE (R180): Takes a dense strip from the compaction buffer. -/
  | sctake (d : BitVec 6) (t : BitVec 2)
  /-- SCFLUSH (R180): Empties the compaction buffer and returns its count. -/
  | scflush (d : BitVec 6)
  /-- SCSTAT (R180): Returns the compaction buffer count and width. -/
  | scstat (d : BitVec 6)
  /-- TEN (R190): Enables an accumulator with physical tiles. -/
  | ten (d : BitVec 6) (c : BitVec 3) (b : BitVec 6)
  /-- TDIS (R190): Disables an accumulator and frees its tiles. -/
  | tdis (c : BitVec 3)
  /-- TZERO (R190): Zeroes every cell and KCOUNT of an accumulator. -/
  | tzero (c : BitVec 3)
  /-- TPRED (R191): Sets an accumulator's row and column masks. -/
  | tpred (d : BitVec 6) (c : BitVec 3) (b : BitVec 6)
  /-- TMOVR (R198): Moves an accumulator row into a vector. -/
  | tmovr (d : BitVec 6) (c : BitVec 3) (b : BitVec 6)
  /-- TMOVC (R198): Moves an accumulator column into a vector. -/
  | tmovc (d : BitVec 6) (c : BitVec 3) (b : BitVec 6)
  /-- TSETR (R198): Writes an accumulator row from a vector. -/
  | tsetr (c : BitVec 3) (a : BitVec 6) (b : BitVec 6)
  /-- TSETC (R198): Writes an accumulator column from a vector. -/
  | tsetc (c : BitVec 3) (a : BitVec 6) (b : BitVec 6)
  /-- TFOLD (R197): Folds a residue accumulator into its FP32 companion with scales. -/
  | tfold (c : BitVec 3) (e : BitVec 3)
  /-- TDRAIN (R199): Converts accumulator rows to a narrower format into a vector. -/
  | tdrain (d : BitVec 6) (c : BitVec 3) (b : BitVec 6) (t : BitVec 2)
  /-- TFETCH (R204): Checks then fetches step operands from memory into tile-queue slots. -/
  | tfetch (d : BitVec 6) (a : BitVec 6) (b : BitVec 6)
  /-- TSCL (R196): Loads the scale latch of a residue accumulator. -/
  | tscl (c : BitVec 3) (a : BitVec 6)
  /-- TSTAT (R200): Reads accumulator status or masks, optionally clearing sticky flags. -/
  | tstat (d : BitVec 6) (c : BitVec 3) (s : BitVec 2)
  /-- TOP (R194): Plain outer-product steps into an accumulator. -/
  | top (t : BitVec 3) (a : BitVec 6) (b : BitVec 6) (r : BitVec 4) (y : BitVec 3) (n : BitVec 1) (z : BitVec 1)
  /-- TOPS (R194): Sliding-window outer-product steps. -/
  | tops (t : BitVec 3) (a : BitVec 6) (b : BitVec 6) (r : BitVec 4) (y : BitVec 3) (n : BitVec 1) (z : BitVec 1)
  /-- TOPL (R194): Outer-product steps using the A latch. -/
  | topl (t : BitVec 3) (b : BitVec 6) (r : BitVec 4) (y : BitVec 3) (n : BitVec 1) (z : BitVec 1)
  /-- WMAP (R259): Binds a window index to a global range. -/
  | wmap (d : BitVec 6) (a : BitVec 6) (b : BitVec 6)
  /-- WUNMAP (R267): Unbinds a window, writing back or dropping dirty words. -/
  | wunmap (v : BitVec 1) (n : BitVec 2)
  /-- WFLUSH (R267): Writes back dirty words of a window range. -/
  | wflush (a : BitVec 6) (n : BitVec 2)
  /-- WINV (R267): Invalidates clean, or also dirty, words of a window range. -/
  | winv (a : BitVec 6) (v : BitVec 1) (n : BitVec 2)
  /-- WSTAT (R267): Returns a window status word or its global base. -/
  | wstat (d : BitVec 6) (v : BitVec 1) (n : BitVec 2)
  /-- WTOUCH (R267): Starts fills of a window range without faulting. -/
  | wtouch (a : BitVec 6) (n : BitVec 2)
  /-- WKEEP (R267): Sets or clears a read-only window's KEEP bit. -/
  | wkeep (v : BitVec 1) (n : BitVec 2)
  /-- TKLD (R278): Issues a ticketed scalar load, or returns the null ticket. -/
  | tkld (d : BitVec 6) (a : BitVec 6) (s : BitVec 2) (t : BitVec 2) (z : BitVec 1)
  /-- TKLDW (R278): Issues a ticketed scalar load, waiting for quota or booth space. -/
  | tkldw (d : BitVec 6) (a : BitVec 6) (s : BitVec 2) (t : BitVec 2) (z : BitVec 1)
  /-- TKLDV (R278): Issues a ticketed load of a whole line. -/
  | tkldv (d : BitVec 6) (a : BitVec 6) (s : BitVec 2)
  /-- TKRD (R282): Redeems a scalar ticket into a register. -/
  | tkrd (d : BitVec 6) (a : BitVec 6)
  /-- TKRDV (R282): Redeems a line ticket into a vector register. -/
  | tkrdv (d : BitVec 6) (a : BitVec 6)
  /-- TKRDQ (R282): Redeems a ticket into a queue slot filled on delivery. -/
  | tkrdq (d : BitVec 6) (a : BitVec 6)
  /-- TKTEST (R286): Reports a ticket's booth state without faulting. -/
  | tktest (d : BitVec 6) (a : BitVec 6)
  /-- TKDROP (R286): Drops a pending or ready ticket. -/
  | tkdrop (d : BitVec 6) (a : BitVec 6)
  /-- PQRY (R230): Returns the state of the parcel holding an address. -/
  | pqry (d : BitVec 6) (a : BitVec 6)
  /-- PHINT (R231): Passes a reuse hint or resets a parcel's counter. -/
  | phint (a : BitVec 6) (c : BitVec 6)
  /-- PLOGQ (R231): Returns a parcel's pending log entry count. -/
  | plogq (d : BitVec 6) (a : BitVec 6)
  /-- PFETCH (R231): Requests migration of a parcel to tier 0. -/
  | pfetch (d : BitVec 6) (a : BitVec 6)
  /-- PMIGR (R231): Policy strand requests migration of a parcel to a tier. -/
  | pmigr (d : BitVec 6) (a : BitVec 6) (b : BitVec 6)
  /-- PNQPOP (R231): Policy strand removes the oldest notification into a vector. -/
  | pnqpop (d : BitVec 6)
  /-- PKEEP (R231): Policy strand sets or clears keep-resident on a parcel. -/
  | pkeep (d : BitVec 6) (a : BitVec 6) (b : BitVec 6)
  /-- ATM_ADD (R291): Returning 32-bit atomic add. -/
  | atmAdd (d : BitVec 6) (a : BitVec 6) (b : BitVec 6) (o : BitVec 2) (c : BitVec 2)
  /-- ATM_MIN (R291): Returning 32-bit atomic signed minimum. -/
  | atmMin (d : BitVec 6) (a : BitVec 6) (b : BitVec 6) (o : BitVec 2) (c : BitVec 2)
  /-- ATM_MAX (R291): Returning 32-bit atomic signed maximum. -/
  | atmMax (d : BitVec 6) (a : BitVec 6) (b : BitVec 6) (o : BitVec 2) (c : BitVec 2)
  /-- ATM_MINN (R291): Returning 32-bit atomic natural minimum. -/
  | atmMinn (d : BitVec 6) (a : BitVec 6) (b : BitVec 6) (o : BitVec 2) (c : BitVec 2)
  /-- ATM_MAXN (R291): Returning 32-bit atomic natural maximum. -/
  | atmMaxn (d : BitVec 6) (a : BitVec 6) (b : BitVec 6) (o : BitVec 2) (c : BitVec 2)
  /-- ATM_AND (R291): Returning 32-bit atomic AND. -/
  | atmAnd (d : BitVec 6) (a : BitVec 6) (b : BitVec 6) (o : BitVec 2) (c : BitVec 2)
  /-- ATM_OR (R291): Returning 32-bit atomic OR. -/
  | atmOr (d : BitVec 6) (a : BitVec 6) (b : BitVec 6) (o : BitVec 2) (c : BitVec 2)
  /-- ATM_XOR (R291): Returning 32-bit atomic XOR. -/
  | atmXor (d : BitVec 6) (a : BitVec 6) (b : BitVec 6) (o : BitVec 2) (c : BitVec 2)
  /-- ATM_SWP (R291): 32-bit atomic swap. -/
  | atmSwp (d : BitVec 6) (a : BitVec 6) (b : BitVec 6) (o : BitVec 2) (c : BitVec 2)
  /-- ATM_FADD (R291): Returning FP32 atomic add rounded to nearest even. -/
  | atmFadd (d : BitVec 6) (a : BitVec 6) (b : BitVec 6) (o : BitVec 2) (c : BitVec 2)
  /-- ATM_FADDH (R291): Returning atomic add of two BF16 halves. -/
  | atmFaddh (d : BitVec 6) (a : BitVec 6) (b : BitVec 6) (o : BitVec 2) (c : BitVec 2)
  /-- ATM_CAS (R291): 32-bit atomic compare-and-swap. -/
  | atmCas (d : BitVec 6) (a : BitVec 6) (b : BitVec 6) (o : BitVec 2) (c : BitVec 2)
  /-- RED_ADD_32 (R40): Non-returning 32-bit add reduction. -/
  | redAdd32 (a : BitVec 6) (b : BitVec 6) (o : BitVec 2) (c : BitVec 2)
  /-- RED_MIN_32 (R40): Non-returning 32-bit signed minimum reduction. -/
  | redMin32 (a : BitVec 6) (b : BitVec 6) (o : BitVec 2) (c : BitVec 2)
  /-- RED_MAX_32 (R40): Non-returning 32-bit signed maximum reduction. -/
  | redMax32 (a : BitVec 6) (b : BitVec 6) (o : BitVec 2) (c : BitVec 2)
  /-- RED_MINN_32 (R40): Non-returning 32-bit natural minimum reduction. -/
  | redMinn32 (a : BitVec 6) (b : BitVec 6) (o : BitVec 2) (c : BitVec 2)
  /-- RED_MAXN_32 (R40): Non-returning 32-bit natural maximum reduction. -/
  | redMaxn32 (a : BitVec 6) (b : BitVec 6) (o : BitVec 2) (c : BitVec 2)
  /-- RED_AND_32 (R40): Non-returning 32-bit AND reduction. -/
  | redAnd32 (a : BitVec 6) (b : BitVec 6) (o : BitVec 2) (c : BitVec 2)
  /-- RED_OR_32 (R40): Non-returning 32-bit OR reduction. -/
  | redOr32 (a : BitVec 6) (b : BitVec 6) (o : BitVec 2) (c : BitVec 2)
  /-- RED_XOR_32 (R40): Non-returning 32-bit XOR reduction. -/
  | redXor32 (a : BitVec 6) (b : BitVec 6) (o : BitVec 2) (c : BitVec 2)
  /-- RED_FADD_32 (R40): Non-returning FP32 add reduction. -/
  | redFadd32 (a : BitVec 6) (b : BitVec 6) (o : BitVec 2) (c : BitVec 2)
  /-- RED_FADDH_32 (R40): Non-returning paired BF16 add reduction. -/
  | redFaddh32 (a : BitVec 6) (b : BitVec 6) (o : BitVec 2) (c : BitVec 2)
  /-- ATMD_ADD (R291): Returning 64-bit atomic add. -/
  | atmdAdd (d : BitVec 6) (a : BitVec 6) (b : BitVec 6) (o : BitVec 2) (c : BitVec 2)
  /-- ATMD_MIN (R291): Returning 64-bit atomic signed minimum. -/
  | atmdMin (d : BitVec 6) (a : BitVec 6) (b : BitVec 6) (o : BitVec 2) (c : BitVec 2)
  /-- ATMD_MAX (R291): Returning 64-bit atomic signed maximum. -/
  | atmdMax (d : BitVec 6) (a : BitVec 6) (b : BitVec 6) (o : BitVec 2) (c : BitVec 2)
  /-- ATMD_MINN (R291): Returning 64-bit atomic natural minimum. -/
  | atmdMinn (d : BitVec 6) (a : BitVec 6) (b : BitVec 6) (o : BitVec 2) (c : BitVec 2)
  /-- ATMD_MAXN (R291): Returning 64-bit atomic natural maximum. -/
  | atmdMaxn (d : BitVec 6) (a : BitVec 6) (b : BitVec 6) (o : BitVec 2) (c : BitVec 2)
  /-- ATMD_AND (R291): Returning 64-bit atomic AND. -/
  | atmdAnd (d : BitVec 6) (a : BitVec 6) (b : BitVec 6) (o : BitVec 2) (c : BitVec 2)
  /-- ATMD_OR (R291): Returning 64-bit atomic OR. -/
  | atmdOr (d : BitVec 6) (a : BitVec 6) (b : BitVec 6) (o : BitVec 2) (c : BitVec 2)
  /-- ATMD_XOR (R291): Returning 64-bit atomic XOR. -/
  | atmdXor (d : BitVec 6) (a : BitVec 6) (b : BitVec 6) (o : BitVec 2) (c : BitVec 2)
  /-- ATMD_SWP (R291): 64-bit atomic swap. -/
  | atmdSwp (d : BitVec 6) (a : BitVec 6) (b : BitVec 6) (o : BitVec 2) (c : BitVec 2)
  /-- ATMD_FADD (R291): Returning FP64 atomic add, on C and V. -/
  | atmdFadd (d : BitVec 6) (a : BitVec 6) (b : BitVec 6) (o : BitVec 2) (c : BitVec 2)
  /-- ATMD_CAS (R291): 64-bit atomic compare-and-swap. -/
  | atmdCas (d : BitVec 6) (a : BitVec 6) (b : BitVec 6) (o : BitVec 2) (c : BitVec 2)
  /-- RED_ADD_64 (R40): Non-returning 64-bit add reduction. -/
  | redAdd64 (a : BitVec 6) (b : BitVec 6) (o : BitVec 2) (c : BitVec 2)
  /-- RED_MIN_64 (R40): Non-returning 64-bit signed minimum reduction. -/
  | redMin64 (a : BitVec 6) (b : BitVec 6) (o : BitVec 2) (c : BitVec 2)
  /-- RED_MAX_64 (R40): Non-returning 64-bit signed maximum reduction. -/
  | redMax64 (a : BitVec 6) (b : BitVec 6) (o : BitVec 2) (c : BitVec 2)
  /-- RED_MINN_64 (R40): Non-returning 64-bit natural minimum reduction. -/
  | redMinn64 (a : BitVec 6) (b : BitVec 6) (o : BitVec 2) (c : BitVec 2)
  /-- RED_MAXN_64 (R40): Non-returning 64-bit natural maximum reduction. -/
  | redMaxn64 (a : BitVec 6) (b : BitVec 6) (o : BitVec 2) (c : BitVec 2)
  /-- RED_AND_64 (R40): Non-returning 64-bit AND reduction. -/
  | redAnd64 (a : BitVec 6) (b : BitVec 6) (o : BitVec 2) (c : BitVec 2)
  /-- RED_OR_64 (R40): Non-returning 64-bit OR reduction. -/
  | redOr64 (a : BitVec 6) (b : BitVec 6) (o : BitVec 2) (c : BitVec 2)
  /-- RED_XOR_64 (R40): Non-returning 64-bit XOR reduction. -/
  | redXor64 (a : BitVec 6) (b : BitVec 6) (o : BitVec 2) (c : BitVec 2)
  /-- RED_FADD_64 (R40): Non-returning FP64 add reduction, on C and V. -/
  | redFadd64 (a : BitVec 6) (b : BitVec 6) (o : BitVec 2) (c : BitVec 2)
  /-- SBAR (R300): Orders the named streams at a scope as acquire, release or both. -/
  | sbar (m : BitVec 4) (p : BitVec 2) (k : BitVec 2)
  /-- BARI (R302): Initialises a barrier object or starts a new phase. -/
  | bari (a : BitVec 6) (b : BitVec 6) (s : BitVec 2)
  /-- BARV (R302): Arrives at a barrier and returns the phase. -/
  | barv (d : BitVec 6) (a : BitVec 6) (s : BitVec 2)
  /-- BARW (R302): Waits while the barrier phase equals the given one. -/
  | barw (a : BitVec 6) (b : BitVec 6) (s : BitVec 2)
  /-- BARWT (R302): Waits for a phase change or a deadline. -/
  | barwt (d : BitVec 6) (a : BitVec 6) (b : BitVec 6) (s : BitVec 2)
  /-- WAITV (R305): Waits while a 64-bit word equals a value, then returns it with acquire. -/
  | waitv (d : BitVec 6) (a : BitVec 6) (b : BitVec 6) (s : BitVec 2)
  /-- ACCDECL (R307): Declares an accumulation span with per-lane copies. -/
  | accdecl (k : BitVec 1) (a : BitVec 6) (b : BitVec 6) (t : BitVec 2)
  /-- VACC (R308): Adds vector values into per-lane span copies. -/
  | vacc (k : BitVec 1) (a : BitVec 6) (b : BitVec 6)
  /-- ACCMERGE (R309): Folds span copies into memory in lane order. -/
  | accmerge (d : BitVec 6) (k : BitVec 1)
  /-- ACCREL (R310): Releases a span without merging. -/
  | accrel (k : BitVec 1)
  /-- ESTR (R318): Reads and validates a stream command and allocates a command-table entry. -/
  | estr (d : BitVec 6) (a : BitVec 6)
  /-- EPUSH (R321): Pushes a value into a command's input FIFO with release. -/
  | epush (a : BitVec 6) (b : BitVec 6)
  /-- EPOP (R321): Pops the oldest element of a command's output FIFO with acquire. -/
  | epop (d : BitVec 6) (a : BitVec 6)
  /-- EWM (R323): Returns a channel's watermark. -/
  | ewm (d : BitVec 6) (a : BitVec 6)
  /-- EWAIT (R323): Waits until a channel's watermark covers a byte count. -/
  | ewait (a : BitVec 6) (b : BitVec 6)
  /-- ECHAN (R323): Configures or unconfigures a channel. -/
  | echan (d : BitVec 6) (a : BitVec 6) (b : BitVec 6)
  /-- EGANG (R326): Joins the strand to a gang on a vector port. -/
  | egang (d : BitVec 6) (a : BitVec 6) (b : BitVec 6)
  /-- ECANCEL (R320): Cancels a queued or running command. -/
  | ecancel (d : BitVec 6) (a : BitVec 6)
  /-- ESTAT (R319): Reports a command's state and rows completed. -/
  | estat (d : BitVec 6) (a : BitVec 6)
  /-- UIEN (R331): Sets the user-interrupt enable and returns the old one. -/
  | uien (d : BitVec 6) (a : BitVec 6)
  /-- UIRET (R331): Returns from a user-interrupt or emulation handler. -/
  | uiret
  /-- SVC (R380): Takes the service-call trap. -/
  | svc (c : BitVec 6)
  /-- BRK (R380): Takes the breakpoint trap. -/
  | brk (c : BitVec 6)
  /-- RETT (R380): Returns from a firmware trap handler. -/
  | rett
  /-- WFI (R381): Waits for a firmware event and returns the pending mask. -/
  | wfi (d : BitVec 6)
  /-- TLBINV (R382): Starts a shootdown and waits for it to complete. -/
  | tlbinv (d : BitVec 6) (a : BitVec 6) (b : BitVec 6)
  /-- CTXSV (R384): Pre-empts a unit into its save area. -/
  | ctxsv (d : BitVec 6) (a : BitVec 6)
  /-- CTXLD (R385): Resumes a saved unit on a core. -/
  | ctxld (d : BitVec 6) (a : BitVec 6) (b : BitVec 6)
  /-- LNPURGE (R383): Zeroes a physical line and drops all tracked copies. -/
  | lnpurge (d : BitVec 6) (a : BitVec 6)
  /-- TMARK (R413): Writes a mark record to the trace ring. -/
  | tmark (a : BitVec 6) (c : BitVec 6)
  /-- TCNT (R413): Reads one of the strand's profiling counters. -/
  | tcnt (d : BitVec 6) (s : BitVec 3)
  deriving DecidableEq, Repr

end Sys2Proof
end

