-- ==== Sys2Proof/WellFormed.lean ====
section
/-! DEFINITION. Which field values make a word an instruction, beyond the fixed bits of its row (R31, R39, R105, R117,
R130, R147, R161, R168, R277, R298). A device event has no word and is always well formed. -/

namespace Sys2Proof

/-- The value limits that R39 and the owning chapters put on the fields of an instruction. -/
def Instr.wf : Instr → Bool
  | .strandWake _ => true
  | .barwtDeadline _ => true
  | .userInterruptEntry _ => true
  | .migrationSearchExpiry _ => true
  | .migrationCoreFreed _ => true
  | .migrationCarryComplete _ => true
  | .creditReturn _ => true
  | .proactiveReturn _ => true
  | .naingOrderedMove _ _ => true
  | .preemptionSaveComplete _ => true
  | .homeRead _ _ => true
  | .homeOwn _ _ => true
  | .homeWriteBack _ _ _ => true
  | .cleanCopyDrop _ _ => true
  | .invalidatingSnoop _ _ => true
  | .forwardedRead _ _ => true
  | .goneResponse _ _ _ => true
  | .llcEviction _ => true
  | .guestCopyEviction _ _ => true
  | .shootdownRequest _ _ _ => true
  | .shootdownComplete _ _ => true
  | .parcelMigrationStart _ => true
  | .parcelMigrationComplete _ _ => true
  | .pendingLogAppend _ _ _ _ => true
  | .boothFill _ _ => true
  | .boothWaitAllocate _ => true
  | .boothClaim _ => true
  | .ticketDelivery _ => true
  | .ticketWithdrawal _ => true
  | .ticketExpiry _ _ => true
  | .queueFillArrival _ _ _ _ _ _ => true
  | .windowFill _ _ _ => true
  | .matrixPipeStep _ => true
  | .tileOpComplete _ => true
  | .tfetchSlotFill _ _ _ _ _ _ _ _ => true
  | .elementTrain _ _ _ _ _ => true
  | .trainAck _ _ _ _ => true
  | .reductionPerform _ => true
  | .reductionDrainExpiry _ => true
  | .commandStart _ _ => true
  | .engineElement _ _ => true
  | .rowComplete _ _ => true
  | .commandEnd _ _ => true
  | .stageBlockAnnounce _ _ _ => true
  | .stageBlockGrant _ _ _ => true
  | .stageBlockPull _ _ _ => true
  | .gangStripGrant _ _ _ => true
  | .contextTeardown _ => true
  | .launchRecordAccept _ => true
  | .dispatch _ => true
  | .starvationBoundExpiry _ => true
  | .launchCompletion _ => true
  | .gangAnnounceReceive _ _ => true
  | .gangTimeout _ => true
  | .gangAbortReceive _ => true
  | .traceSample _ => true
  | .replayHoldExpiry _ => true
  | .powerOnBringUp => true
  | .doorbell _ => true
  | .quoteRequest _ => true
  | .quoteReady => true
  | .evstatClear _ => true
  | .hostMemoryAccess _ _ _ _ => true
  | .hostSnoop _ => true
  | .hostLinkLoss _ => true
  | .thermalThrottle _ => true
  | .thermalShutdown _ => true
  | .powerCapThrottle _ => true
  | .uncorrectedError _ _ _ _ => true
  | .unitFence _ _ => true
  | .dcword7Commit _ => true
  | .keyLoad => true
  | .keyErase => true
  | .pwrcapWrite _ => true
  | .rplmodeWrite _ => true
  | .registerWrite _ _ _ => true
  | .correctedError _ => true
  | .powerLoss => true
  | .contextCreation _ => true
  | .naingParcelMigrationRequest _ _ _ => true
  | .reserveFrameSupply _ _ => true
  | .counterTableEntryFree _ _ => true
  | .resumptionMark _ => true
  | .naingLaunchEnd _ => true
  | .add _ _ _ _ _ => true
  | .sub _ _ _ _ _ => true
  | .mul _ _ _ _ _ => true
  | .mulh _ _ _ _ _ => true
  | .mulhn _ _ _ _ _ => true
  | .div _ _ _ _ _ => true
  | .divn _ _ _ _ _ => true
  | .rem _ _ _ _ _ => true
  | .remn _ _ _ _ _ => true
  | .and _ _ _ _ _ => true
  | .or _ _ _ _ _ => true
  | .xor _ _ _ _ _ => true
  | .andn _ _ _ _ _ => true
  | .sll _ _ _ _ _ => true
  | .srl _ _ _ _ _ => true
  | .sra _ _ _ _ _ => true
  | .slli _ _ h t _ => !(t == 1 && h.getLsbD 5)  -- R117
  | .srli _ _ h t _ => !(t == 1 && h.getLsbD 5)  -- R117
  | .srai _ _ h t _ => !(t == 1 && h.getLsbD 5)  -- R117
  | .min _ _ _ _ _ => true
  | .max _ _ _ _ _ => true
  | .minn _ _ _ _ _ => true
  | .maxn _ _ _ _ _ => true
  | .slt _ _ _ _ _ => true
  | .sltn _ _ _ _ _ => true
  | .seq _ _ _ _ _ => true
  | .clz _ _ _ _ => true
  | .ctz _ _ _ _ => true
  | .popc _ _ _ _ => true
  | .rotr _ _ _ _ _ => true
  | .brev _ _ _ _ => true
  | .bswap _ _ _ _ => true
  | .addi _ _ _ => true
  | .andi _ _ _ => true
  | .ori _ _ _ => true
  | .xori _ _ _ => true
  | .slti _ _ _ => true
  | .sltni _ _ _ => true
  | .lui _ _ => true
  | .auipc _ _ => true
  | .jal _ _ => true
  | .jalr _ _ _ => true
  | .beq _ _ _ => true
  | .bne _ _ _ => true
  | .blt _ _ _ => true
  | .bge _ _ _ => true
  | .bltn _ _ _ => true
  | .bgen _ _ _ => true
  | .bqt _ _ => true
  | .bqf _ _ => true
  | .ld _ _ _ _ _ r c => r != 3 && !(r == 0 && c != 0)  -- R31
  | .ldz _ _ _ _ _ r c => r != 3 && !(r == 0 && c != 0)  -- R31
  | .st _ _ _ _ _ r c => r != 3 && !(r == 0 && c != 0)  -- R31
  | .fadd _ _ _ _ _ => true
  | .fsub _ _ _ _ _ => true
  | .fmul _ _ _ _ _ => true
  | .fmac _ _ _ _ _ => true
  | .fnmac _ _ _ _ _ => true
  | .fdiv _ _ _ _ _ => true
  | .fsqrt _ _ _ _ => true
  | .fmin _ _ _ _ _ => true
  | .fmax _ _ _ _ _ => true
  | .feq _ _ _ _ _ => true
  | .flt _ _ _ _ _ => true
  | .fle _ _ _ _ _ => true
  | .fclass _ _ _ _ => true
  | .fcvti _ _ m _ _ _ => decide (m.toNat ≤ 4)  -- R130
  | .fcvtf _ _ m _ _ _ => decide (m.toNat ≤ 4)  -- R130
  | .fcvtw _ _ m _ _ _ => decide (m.toNat ≤ 4)  -- R130
  | .fscpy _ _ _ _ _ => true
  | .fsneg _ _ _ _ _ => true
  | .fsxor _ _ _ _ _ => true
  | .csrrw _ _ _ => true
  | .csrrs _ _ _ => true
  | .csrrc _ _ _ => true
  | .csrr _ _ => true
  | .exit => true
  | .yield => true
  | .forkl _ _ => true
  | .joinl _ _ => true
  | .loop _ _ => true
  | .endloop _ => true
  | .lidx _ s => decide (s.toNat ≤ 11)  -- R105
  | .sidx _ _ => true
  | .hint _ => true
  | .migr _ _ => true
  | .qcfg _ _ => true
  | .qadv _ _ => true
  | .qcommit _ => true
  | .qfill _ _ => true
  | .qfree _ _ => true
  | .qreset _ => true
  | .qdrain _ => true
  | .xput d _ => d != 0  -- R147
  | .fset d => d != 0  -- R147
  | .fclr d => d != 0  -- R147
  | .ftest _ _ => true
  | .vadd _ _ _ _ _ => true
  | .vsub _ _ _ _ _ => true
  | .vmul _ _ _ _ _ => true
  | .vmulh _ _ _ _ _ => true
  | .vmac _ _ _ _ _ => true
  | .vdiv _ _ _ _ _ => true
  | .vdivn _ _ _ _ _ => true
  | .vrem _ _ _ _ _ => true
  | .vmin _ _ _ _ _ => true
  | .vmax _ _ _ _ _ => true
  | .vminn _ _ _ _ _ => true
  | .vmaxn _ _ _ _ _ => true
  | .vand _ _ _ _ _ => true
  | .vor _ _ _ _ _ => true
  | .vxor _ _ _ _ _ => true
  | .vsll _ _ _ _ _ => true
  | .vsrl _ _ _ _ _ => true
  | .vsra _ _ _ _ _ => true
  | .vsadd _ _ _ _ _ => true
  | .vssub _ _ _ _ _ => true
  | .vabs _ _ _ => true
  | .vneg _ _ _ => true
  | .vredsum _ _ _ _ => true
  | .vredmin _ _ _ _ => true
  | .vredmax _ _ _ _ => true
  | .vfadd _ _ _ _ _ => true
  | .vfsub _ _ _ _ _ => true
  | .vfmul _ _ _ _ _ => true
  | .vfma _ _ _ _ _ => true
  | .vfnma _ _ _ _ _ => true
  | .vfdiv _ _ _ _ _ => true
  | .vfsqrt _ _ _ => true
  | .vfexp2 _ _ => true
  | .vflog2 _ _ => true
  | .vfmin _ _ _ _ _ => true
  | .vfmax _ _ _ _ _ => true
  | .vfabs _ _ _ => true
  | .vfneg _ _ _ => true
  | .vfcvt _ _ e f => !((e == f && (e == 0 || e == 3 || e == 6 || e == 7)) || (e == 6 && f == 7) || (e == 7 && f == 6))  -- R168
  | .vfredo _ _ _ _ => true
  | .vfredt _ _ _ _ => true
  | .vfredmax _ _ _ _ => true
  | .vfredmin _ _ _ _ => true
  | .vfscale _ _ _ _ _ => true
  | .vceq _ _ _ _ _ => true
  | .vcne _ _ _ _ _ => true
  | .vclt _ _ _ _ _ => true
  | .vcle _ _ _ _ _ => true
  | .vcltn _ _ _ _ _ => true
  | .vclen _ _ _ _ _ => true
  | .vfceq _ _ _ _ _ => true
  | .vfclt _ _ _ _ _ => true
  | .vfcle _ _ _ _ _ => true
  | .vfcun _ _ _ _ _ => true
  | .pand _ _ _ => true
  | .por _ _ _ => true
  | .pxor _ _ _ => true
  | .pandn _ _ _ => true
  | .pnot _ _ => true
  | .psbf _ _ => true
  | .psif _ _ => true
  | .psof _ _ => true
  | .pcnt _ _ => true
  | .pfirst _ _ => true
  | .pset _ => true
  | .pclr _ => true
  | .pfromx _ _ _ => true
  | .ptox _ _ _ => true
  | .vcompress _ _ _ => true
  | .vexpand _ _ _ => true
  | .vslideup _ _ _ _ _ => true
  | .vslidedn _ _ _ _ _ => true
  | .vpermx _ _ _ _ => true
  | .vbcast _ _ _ _ => true
  | .vextx _ _ _ _ => true
  | .vinsx _ _ _ _ => true
  | .viota _ _ _ _ => true
  | .vmov _ _ _ => true
  | .vzip _ _ _ _ => true
  | .vunzip _ _ _ _ => true
  | .vld _ _ _ _ _ => true
  | .vlds _ _ _ _ _ => true
  | .vldx _ _ _ _ _ _ => true
  | .vldff _ _ _ _ _ => true
  | .vldb _ _ _ _ _ => true
  | .vst _ _ _ _ _ => true
  | .vsts _ _ _ _ _ => true
  | .vstx _ _ _ _ _ _ => true
  | .vstxr _ _ _ _ _ _ => true
  | .setvl _ _ _ => true
  | .setvli _ _ _ => true
  | .setms a m => !(m == 1 && a != 0)  -- R161
  | .setst _ => true
  | .scput _ _ _ => true
  | .sctake _ _ => true
  | .scflush _ => true
  | .scstat _ => true
  | .ten _ _ _ => true
  | .tdis _ => true
  | .tzero _ => true
  | .tpred _ _ _ => true
  | .tmovr _ _ _ => true
  | .tmovc _ _ _ => true
  | .tsetr _ _ _ => true
  | .tsetc _ _ _ => true
  | .tfold _ _ => true
  | .tdrain _ _ _ _ => true
  | .tfetch _ _ _ => true
  | .tscl _ _ => true
  | .tstat _ _ _ => true
  | .top _ _ _ _ y _ _ => decide (y.toNat < 6)  -- R31
  | .tops _ _ _ _ y _ _ => decide (y.toNat < 6)  -- R31
  | .topl _ _ _ y _ _ => decide (y.toNat < 6)  -- R31
  | .wmap _ _ _ => true
  | .wunmap _ _ => true
  | .wflush _ _ => true
  | .winv _ _ _ => true
  | .wstat _ _ _ => true
  | .wtouch _ _ => true
  | .wkeep _ _ => true
  | .tkld d _ _ _ _ => d != 0  -- R277
  | .tkldw d _ _ _ _ => d != 0  -- R277
  | .tkldv d _ _ => d != 0  -- R277
  | .tkrd _ _ => true
  | .tkrdv _ _ => true
  | .tkrdq _ _ => true
  | .tktest _ _ => true
  | .tkdrop _ _ => true
  | .pqry _ _ => true
  | .phint _ _ => true
  | .plogq _ _ => true
  | .pfetch _ _ => true
  | .pmigr _ _ _ => true
  | .pnqpop _ => true
  | .pkeep _ _ _ => true
  | .atmAdd d _ _ _ _ => d != 0  -- R39, R40
  | .atmMin d _ _ _ _ => d != 0  -- R39, R40
  | .atmMax d _ _ _ _ => d != 0  -- R39, R40
  | .atmMinn d _ _ _ _ => d != 0  -- R39, R40
  | .atmMaxn d _ _ _ _ => d != 0  -- R39, R40
  | .atmAnd d _ _ _ _ => d != 0  -- R39, R40
  | .atmOr d _ _ _ _ => d != 0  -- R39, R40
  | .atmXor d _ _ _ _ => d != 0  -- R39, R40
  | .atmSwp d _ _ _ _ => d != 0  -- R39, R40
  | .atmFadd d _ _ _ _ => d != 0  -- R39, R40
  | .atmFaddh d _ _ _ _ => d != 0  -- R39, R40
  | .atmCas d _ _ _ _ => d != 0  -- R39, R40
  | .redAdd32 _ _ _ _ => true
  | .redMin32 _ _ _ _ => true
  | .redMax32 _ _ _ _ => true
  | .redMinn32 _ _ _ _ => true
  | .redMaxn32 _ _ _ _ => true
  | .redAnd32 _ _ _ _ => true
  | .redOr32 _ _ _ _ => true
  | .redXor32 _ _ _ _ => true
  | .redFadd32 _ _ _ _ => true
  | .redFaddh32 _ _ _ _ => true
  | .atmdAdd d _ _ _ _ => d != 0  -- R39, R40
  | .atmdMin d _ _ _ _ => d != 0  -- R39, R40
  | .atmdMax d _ _ _ _ => d != 0  -- R39, R40
  | .atmdMinn d _ _ _ _ => d != 0  -- R39, R40
  | .atmdMaxn d _ _ _ _ => d != 0  -- R39, R40
  | .atmdAnd d _ _ _ _ => d != 0  -- R39, R40
  | .atmdOr d _ _ _ _ => d != 0  -- R39, R40
  | .atmdXor d _ _ _ _ => d != 0  -- R39, R40
  | .atmdSwp d _ _ _ _ => d != 0  -- R39, R40
  | .atmdFadd d _ _ _ _ => d != 0  -- R39, R40
  | .atmdCas d _ _ _ _ => d != 0  -- R39, R40
  | .redAdd64 _ _ _ _ => true
  | .redMin64 _ _ _ _ => true
  | .redMax64 _ _ _ _ => true
  | .redMinn64 _ _ _ _ => true
  | .redMaxn64 _ _ _ _ => true
  | .redAnd64 _ _ _ _ => true
  | .redOr64 _ _ _ _ => true
  | .redXor64 _ _ _ _ => true
  | .redFadd64 _ _ _ _ => true
  | .sbar m _ k => m != 0 && k != 0  -- R39
  | .bari _ _ _ => true
  | .barv _ _ _ => true
  | .barw _ _ _ => true
  | .barwt _ _ _ _ => true
  | .waitv _ _ _ _ => true
  | .accdecl _ _ _ t => t == 0 || t == 3  -- R298
  | .vacc _ _ _ => true
  | .accmerge _ _ => true
  | .accrel _ => true
  | .estr _ _ => true
  | .epush _ _ => true
  | .epop _ _ => true
  | .ewm _ _ => true
  | .ewait _ _ => true
  | .echan _ _ _ => true
  | .egang _ _ _ => true
  | .ecancel _ _ => true
  | .estat _ _ => true
  | .uien _ _ => true
  | .uiret => true
  | .svc _ => true
  | .brk _ => true
  | .rett => true
  | .wfi _ => true
  | .tlbinv _ _ _ => true
  | .ctxsv _ _ => true
  | .ctxld _ _ _ => true
  | .lnpurge _ _ => true
  | .tmark _ _ => true
  | .tcnt _ _ => true

/-- A well-formed instruction. -/
abbrev Instr.WellFormed (i : Instr) : Prop := i.wf = true

end Sys2Proof
end

