-- ==== Sys2Proof/Decode.lean ====
section
/-! DEFINITION. The decoder (R28, R30, R38, R39, R47), total on every word and rejecting by name, and the encoder.
The compiler's object tags end at 244, below the number of rows of the table: a function that builds one of the later
constructors is marked noncomputable (DESIGN CHOICE, log entry 20); Lean's kernel evaluates it, and Machine/Run.lean gives the step a
compiled form that is proved equal. -/

namespace Sys2Proof

/-- Why a word is not an instruction: the sub-causes of cause 1 that decoding finds (R47). -/
inductive Illegal where
  | zeroWord
  | majorZero
  | unassignedMajor
  | reservedMajor
  | unassignedFn
  | badType
  | reservedField
  | badOrdering
  /-- fewer than four bytes were given to the decoder -/
  | tooShort
  deriving DecidableEq, Repr

/-- The sub-cause code that R47 gives each condition. -/
def Illegal.sub : Illegal → Nat
  | .zeroWord => 0
  | .majorZero => 1
  | .unassignedMajor => 2
  | .reservedMajor => 3
  | .unassignedFn => 4
  | .badType => 5
  | .reservedField => 6
  | .badOrdering => 7
  | .tooShort => 0

/-- The major opcode, bits [31:26] (R28). -/
def majorOf (w : InstrWord) : BitVec 6 := w.extractLsb' 26 6

/-- The fn field of FR (R30). -/
def frFn (w : InstrWord) : BitVec 5 := w.extractLsb' 3 5

/-- One row of the opcode map: the checks of R45 step 3 in the order of R47 (type first, then reserved fields and the
cases of R39). -/
def row (ty reserved : Bool) (i : Instr) : Except Illegal Instr :=
  if ty = false then .error .badType
  else if (reserved && i.wf) = false then .error .reservedField
  else .ok i

/-- An FM row: ord and sc are checked last (R31, R47 sub-cause 7). -/
def rowFm (i : Instr) : Except Illegal Instr :=
  if i.wf = false then .error .badOrdering else .ok i

/-- An FX row: form and type are sub-cause 5, reserved fields 6 (R31, R47, R193). -/
def rowFx (reserved : Bool) (i : Instr) : Except Illegal Instr :=
  if i.wf = false then .error .badType
  else if reserved = false then .error .reservedField
  else .ok i

/-- Major 0x01 (R38). -/
def decodeAlu (w : InstrWord) : Except Illegal Instr :=
  match (frFn w).toNat with
  | 0 => row (w.extractLsb' 2 1 == 0#1) true (.add (w.extractLsb' 20 6) (w.extractLsb' 14 6) (w.extractLsb' 8 6) (w.extractLsb' 1 1) (w.extractLsb' 0 1))
  | 1 => row (w.extractLsb' 2 1 == 0#1) true (.sub (w.extractLsb' 20 6) (w.extractLsb' 14 6) (w.extractLsb' 8 6) (w.extractLsb' 1 1) (w.extractLsb' 0 1))
  | 2 => row (w.extractLsb' 2 1 == 0#1) true (.mul (w.extractLsb' 20 6) (w.extractLsb' 14 6) (w.extractLsb' 8 6) (w.extractLsb' 1 1) (w.extractLsb' 0 1))
  | 3 => row (w.extractLsb' 2 1 == 0#1) true (.mulh (w.extractLsb' 20 6) (w.extractLsb' 14 6) (w.extractLsb' 8 6) (w.extractLsb' 1 1) (w.extractLsb' 0 1))
  | 4 => row (w.extractLsb' 2 1 == 0#1) true (.mulhn (w.extractLsb' 20 6) (w.extractLsb' 14 6) (w.extractLsb' 8 6) (w.extractLsb' 1 1) (w.extractLsb' 0 1))
  | 5 => row (w.extractLsb' 2 1 == 0#1) true (.div (w.extractLsb' 20 6) (w.extractLsb' 14 6) (w.extractLsb' 8 6) (w.extractLsb' 1 1) (w.extractLsb' 0 1))
  | 6 => row (w.extractLsb' 2 1 == 0#1) true (.divn (w.extractLsb' 20 6) (w.extractLsb' 14 6) (w.extractLsb' 8 6) (w.extractLsb' 1 1) (w.extractLsb' 0 1))
  | 7 => row (w.extractLsb' 2 1 == 0#1) true (.rem (w.extractLsb' 20 6) (w.extractLsb' 14 6) (w.extractLsb' 8 6) (w.extractLsb' 1 1) (w.extractLsb' 0 1))
  | 8 => row (w.extractLsb' 2 1 == 0#1) true (.remn (w.extractLsb' 20 6) (w.extractLsb' 14 6) (w.extractLsb' 8 6) (w.extractLsb' 1 1) (w.extractLsb' 0 1))
  | 9 => row (w.extractLsb' 2 1 == 0#1) true (.and (w.extractLsb' 20 6) (w.extractLsb' 14 6) (w.extractLsb' 8 6) (w.extractLsb' 1 1) (w.extractLsb' 0 1))
  | 10 => row (w.extractLsb' 2 1 == 0#1) true (.or (w.extractLsb' 20 6) (w.extractLsb' 14 6) (w.extractLsb' 8 6) (w.extractLsb' 1 1) (w.extractLsb' 0 1))
  | 11 => row (w.extractLsb' 2 1 == 0#1) true (.xor (w.extractLsb' 20 6) (w.extractLsb' 14 6) (w.extractLsb' 8 6) (w.extractLsb' 1 1) (w.extractLsb' 0 1))
  | 12 => row (w.extractLsb' 2 1 == 0#1) true (.andn (w.extractLsb' 20 6) (w.extractLsb' 14 6) (w.extractLsb' 8 6) (w.extractLsb' 1 1) (w.extractLsb' 0 1))
  | 13 => row (w.extractLsb' 2 1 == 0#1) true (.sll (w.extractLsb' 20 6) (w.extractLsb' 14 6) (w.extractLsb' 8 6) (w.extractLsb' 1 1) (w.extractLsb' 0 1))
  | 14 => row (w.extractLsb' 2 1 == 0#1) true (.srl (w.extractLsb' 20 6) (w.extractLsb' 14 6) (w.extractLsb' 8 6) (w.extractLsb' 1 1) (w.extractLsb' 0 1))
  | 15 => row (w.extractLsb' 2 1 == 0#1) true (.sra (w.extractLsb' 20 6) (w.extractLsb' 14 6) (w.extractLsb' 8 6) (w.extractLsb' 1 1) (w.extractLsb' 0 1))
  | 16 => row (w.extractLsb' 2 1 == 0#1) true (.slli (w.extractLsb' 20 6) (w.extractLsb' 14 6) (w.extractLsb' 8 6) (w.extractLsb' 1 1) (w.extractLsb' 0 1))
  | 17 => row (w.extractLsb' 2 1 == 0#1) true (.srli (w.extractLsb' 20 6) (w.extractLsb' 14 6) (w.extractLsb' 8 6) (w.extractLsb' 1 1) (w.extractLsb' 0 1))
  | 18 => row (w.extractLsb' 2 1 == 0#1) true (.srai (w.extractLsb' 20 6) (w.extractLsb' 14 6) (w.extractLsb' 8 6) (w.extractLsb' 1 1) (w.extractLsb' 0 1))
  | 19 => row (w.extractLsb' 2 1 == 0#1) true (.min (w.extractLsb' 20 6) (w.extractLsb' 14 6) (w.extractLsb' 8 6) (w.extractLsb' 1 1) (w.extractLsb' 0 1))
  | 20 => row (w.extractLsb' 2 1 == 0#1) true (.max (w.extractLsb' 20 6) (w.extractLsb' 14 6) (w.extractLsb' 8 6) (w.extractLsb' 1 1) (w.extractLsb' 0 1))
  | 21 => row (w.extractLsb' 2 1 == 0#1) true (.minn (w.extractLsb' 20 6) (w.extractLsb' 14 6) (w.extractLsb' 8 6) (w.extractLsb' 1 1) (w.extractLsb' 0 1))
  | 22 => row (w.extractLsb' 2 1 == 0#1) true (.maxn (w.extractLsb' 20 6) (w.extractLsb' 14 6) (w.extractLsb' 8 6) (w.extractLsb' 1 1) (w.extractLsb' 0 1))
  | 23 => row (w.extractLsb' 2 1 == 0#1) true (.slt (w.extractLsb' 20 6) (w.extractLsb' 14 6) (w.extractLsb' 8 6) (w.extractLsb' 1 1) (w.extractLsb' 0 1))
  | 24 => row (w.extractLsb' 2 1 == 0#1) true (.sltn (w.extractLsb' 20 6) (w.extractLsb' 14 6) (w.extractLsb' 8 6) (w.extractLsb' 1 1) (w.extractLsb' 0 1))
  | 25 => row (w.extractLsb' 2 1 == 0#1) true (.seq (w.extractLsb' 20 6) (w.extractLsb' 14 6) (w.extractLsb' 8 6) (w.extractLsb' 1 1) (w.extractLsb' 0 1))
  | 26 => row (w.extractLsb' 2 1 == 0#1) (w.extractLsb' 8 6 == 0#6) (.clz (w.extractLsb' 20 6) (w.extractLsb' 14 6) (w.extractLsb' 1 1) (w.extractLsb' 0 1))
  | 27 => row (w.extractLsb' 2 1 == 0#1) (w.extractLsb' 8 6 == 0#6) (.ctz (w.extractLsb' 20 6) (w.extractLsb' 14 6) (w.extractLsb' 1 1) (w.extractLsb' 0 1))
  | 28 => row (w.extractLsb' 2 1 == 0#1) (w.extractLsb' 8 6 == 0#6) (.popc (w.extractLsb' 20 6) (w.extractLsb' 14 6) (w.extractLsb' 1 1) (w.extractLsb' 0 1))
  | 29 => row (w.extractLsb' 2 1 == 0#1) true (.rotr (w.extractLsb' 20 6) (w.extractLsb' 14 6) (w.extractLsb' 8 6) (w.extractLsb' 1 1) (w.extractLsb' 0 1))
  | 30 => row (w.extractLsb' 2 1 == 0#1) (w.extractLsb' 8 6 == 0#6) (.brev (w.extractLsb' 20 6) (w.extractLsb' 14 6) (w.extractLsb' 1 1) (w.extractLsb' 0 1))
  | 31 => row (w.extractLsb' 2 1 == 0#1) (w.extractLsb' 8 6 == 0#6) (.bswap (w.extractLsb' 20 6) (w.extractLsb' 14 6) (w.extractLsb' 1 1) (w.extractLsb' 0 1))
  | _ => .error .unassignedFn

/-- Major 0x0C (R38): the condition is in bits [13:11]. -/
def decodeBr (w : InstrWord) : Except Illegal Instr :=
  match (w.extractLsb' 11 3).toNat with
  | 0 => row true true (.beq (w.extractLsb' 20 6) (w.extractLsb' 14 6) (w.extractLsb' 0 11))
  | 1 => row true true (.bne (w.extractLsb' 20 6) (w.extractLsb' 14 6) (w.extractLsb' 0 11))
  | 2 => row true true (.blt (w.extractLsb' 20 6) (w.extractLsb' 14 6) (w.extractLsb' 0 11))
  | 3 => row true true (.bge (w.extractLsb' 20 6) (w.extractLsb' 14 6) (w.extractLsb' 0 11))
  | 4 => row true true (.bltn (w.extractLsb' 20 6) (w.extractLsb' 14 6) (w.extractLsb' 0 11))
  | 5 => row true true (.bgen (w.extractLsb' 20 6) (w.extractLsb' 14 6) (w.extractLsb' 0 11))
  | 6 => row true (w.extractLsb' 14 6 == 0#6) (.bqt (w.extractLsb' 20 6) (w.extractLsb' 0 11))
  | 7 => row true (w.extractLsb' 14 6 == 0#6) (.bqf (w.extractLsb' 20 6) (w.extractLsb' 0 11))
  | _ => .error .unassignedFn

/-- Major 0x10 (R38). -/
def decodeFps (w : InstrWord) : Except Illegal Instr :=
  match (frFn w).toNat with
  | 0 => row true true (.fadd (w.extractLsb' 20 6) (w.extractLsb' 14 6) (w.extractLsb' 8 6) (w.extractLsb' 1 2) (w.extractLsb' 0 1))
  | 1 => row true true (.fsub (w.extractLsb' 20 6) (w.extractLsb' 14 6) (w.extractLsb' 8 6) (w.extractLsb' 1 2) (w.extractLsb' 0 1))
  | 2 => row true true (.fmul (w.extractLsb' 20 6) (w.extractLsb' 14 6) (w.extractLsb' 8 6) (w.extractLsb' 1 2) (w.extractLsb' 0 1))
  | 3 => row true true (.fmac (w.extractLsb' 20 6) (w.extractLsb' 14 6) (w.extractLsb' 8 6) (w.extractLsb' 1 2) (w.extractLsb' 0 1))
  | 4 => row true true (.fnmac (w.extractLsb' 20 6) (w.extractLsb' 14 6) (w.extractLsb' 8 6) (w.extractLsb' 1 2) (w.extractLsb' 0 1))
  | 5 => row true true (.fdiv (w.extractLsb' 20 6) (w.extractLsb' 14 6) (w.extractLsb' 8 6) (w.extractLsb' 1 2) (w.extractLsb' 0 1))
  | 6 => row true (w.extractLsb' 8 6 == 0#6) (.fsqrt (w.extractLsb' 20 6) (w.extractLsb' 14 6) (w.extractLsb' 1 2) (w.extractLsb' 0 1))
  | 7 => row true true (.fmin (w.extractLsb' 20 6) (w.extractLsb' 14 6) (w.extractLsb' 8 6) (w.extractLsb' 1 2) (w.extractLsb' 0 1))
  | 8 => row true true (.fmax (w.extractLsb' 20 6) (w.extractLsb' 14 6) (w.extractLsb' 8 6) (w.extractLsb' 1 2) (w.extractLsb' 0 1))
  | 9 => row true true (.feq (w.extractLsb' 20 6) (w.extractLsb' 14 6) (w.extractLsb' 8 6) (w.extractLsb' 1 2) (w.extractLsb' 0 1))
  | 10 => row true true (.flt (w.extractLsb' 20 6) (w.extractLsb' 14 6) (w.extractLsb' 8 6) (w.extractLsb' 1 2) (w.extractLsb' 0 1))
  | 11 => row true true (.fle (w.extractLsb' 20 6) (w.extractLsb' 14 6) (w.extractLsb' 8 6) (w.extractLsb' 1 2) (w.extractLsb' 0 1))
  | 12 => row true (w.extractLsb' 8 6 == 0#6) (.fclass (w.extractLsb' 20 6) (w.extractLsb' 14 6) (w.extractLsb' 1 2) (w.extractLsb' 0 1))
  | 13 => row true true (.fcvti (w.extractLsb' 20 6) (w.extractLsb' 14 6) (w.extractLsb' 11 3) (w.extractLsb' 8 3) (w.extractLsb' 1 2) (w.extractLsb' 0 1))
  | 14 => row true true (.fcvtf (w.extractLsb' 20 6) (w.extractLsb' 14 6) (w.extractLsb' 11 3) (w.extractLsb' 8 3) (w.extractLsb' 1 2) (w.extractLsb' 0 1))
  | 15 => row true (w.extractLsb' 10 1 == 0#1) (.fcvtw (w.extractLsb' 20 6) (w.extractLsb' 14 6) (w.extractLsb' 11 3) (w.extractLsb' 8 2) (w.extractLsb' 1 2) (w.extractLsb' 0 1))
  | 16 => row true true (.fscpy (w.extractLsb' 20 6) (w.extractLsb' 14 6) (w.extractLsb' 8 6) (w.extractLsb' 1 2) (w.extractLsb' 0 1))
  | 17 => row true true (.fsneg (w.extractLsb' 20 6) (w.extractLsb' 14 6) (w.extractLsb' 8 6) (w.extractLsb' 1 2) (w.extractLsb' 0 1))
  | 18 => row true true (.fsxor (w.extractLsb' 20 6) (w.extractLsb' 14 6) (w.extractLsb' 8 6) (w.extractLsb' 1 2) (w.extractLsb' 0 1))
  | _ => .error .unassignedFn

/-- Major 0x11 (R38, R39). -/
def decodeCsr (w : InstrWord) : Except Illegal Instr :=
  match (w.extractLsb' 0 2).toNat with
  | 0 => row true true (.csrrw (w.extractLsb' 20 6) (w.extractLsb' 14 6) (w.extractLsb' 2 12))
  | 1 => row true true (.csrrs (w.extractLsb' 20 6) (w.extractLsb' 14 6) (w.extractLsb' 2 12))
  | 2 => row true true (.csrrc (w.extractLsb' 20 6) (w.extractLsb' 14 6) (w.extractLsb' 2 12))
  | 3 => row true (w.extractLsb' 14 6 == 0#6) (.csrr (w.extractLsb' 20 6) (w.extractLsb' 2 12))
  | _ => .error .unassignedFn

/-- Major 0x12 (R38). -/
def decodeStr (w : InstrWord) : Except Illegal Instr :=
  match (frFn w).toNat with
  | 0 => row (w.extractLsb' 1 2 == 0#2) (w.extractLsb' 20 6 == 0#6 && w.extractLsb' 14 6 == 0#6 && w.extractLsb' 8 6 == 0#6 && w.extractLsb' 0 1 == 0#1) .exit
  | 1 => row (w.extractLsb' 1 2 == 0#2) (w.extractLsb' 20 6 == 0#6 && w.extractLsb' 14 6 == 0#6 && w.extractLsb' 8 6 == 0#6 && w.extractLsb' 0 1 == 0#1) .yield
  | 2 => row (w.extractLsb' 1 2 == 0#2) (w.extractLsb' 8 6 == 0#6 && w.extractLsb' 0 1 == 0#1) (.forkl (w.extractLsb' 20 6) (w.extractLsb' 14 6))
  | 3 => row (w.extractLsb' 1 2 == 0#2) (w.extractLsb' 8 6 == 0#6 && w.extractLsb' 0 1 == 0#1) (.joinl (w.extractLsb' 20 6) (w.extractLsb' 14 6))
  | 4 => row (w.extractLsb' 1 2 == 0#2) (w.extractLsb' 20 6 == 0#6 && w.extractLsb' 10 4 == 0#4 && w.extractLsb' 0 1 == 0#1) (.loop (w.extractLsb' 14 6) (w.extractLsb' 8 2))
  | 5 => row (w.extractLsb' 1 2 == 0#2) (w.extractLsb' 20 6 == 0#6 && w.extractLsb' 14 6 == 0#6 && w.extractLsb' 10 4 == 0#4 && w.extractLsb' 0 1 == 0#1) (.endloop (w.extractLsb' 8 2))
  | 6 => row (w.extractLsb' 1 2 == 0#2) (w.extractLsb' 14 6 == 0#6 && w.extractLsb' 0 1 == 0#1) (.lidx (w.extractLsb' 20 6) (w.extractLsb' 8 6))
  | 7 => row (w.extractLsb' 1 2 == 0#2) (w.extractLsb' 20 6 == 0#6 && w.extractLsb' 10 4 == 0#4 && w.extractLsb' 0 1 == 0#1) (.sidx (w.extractLsb' 14 6) (w.extractLsb' 8 2))
  | 8 => row (w.extractLsb' 1 2 == 0#2) (w.extractLsb' 20 6 == 0#6 && w.extractLsb' 14 6 == 0#6 && w.extractLsb' 0 1 == 0#1) (.hint (w.extractLsb' 8 6))
  | 9 => row (w.extractLsb' 1 2 == 0#2) (w.extractLsb' 8 6 == 0#6 && w.extractLsb' 0 1 == 0#1) (.migr (w.extractLsb' 20 6) (w.extractLsb' 14 6))
  | _ => .error .unassignedFn

/-- Major 0x13 (R38). -/
def decodeQue (w : InstrWord) : Except Illegal Instr :=
  match (frFn w).toNat with
  | 0 => row (w.extractLsb' 1 2 == 0#2) (w.extractLsb' 8 6 == 0#6 && w.extractLsb' 0 1 == 0#1) (.qcfg (w.extractLsb' 20 6) (w.extractLsb' 14 6))
  | 1 => row (w.extractLsb' 1 2 == 0#2) (w.extractLsb' 20 6 == 0#6 && w.extractLsb' 0 1 == 0#1) (.qadv (w.extractLsb' 14 6) (w.extractLsb' 8 6))
  | 2 => row (w.extractLsb' 1 2 == 0#2) (w.extractLsb' 20 6 == 0#6 && w.extractLsb' 8 6 == 0#6 && w.extractLsb' 0 1 == 0#1) (.qcommit (w.extractLsb' 14 6))
  | 3 => row (w.extractLsb' 1 2 == 0#2) (w.extractLsb' 8 6 == 0#6 && w.extractLsb' 0 1 == 0#1) (.qfill (w.extractLsb' 20 6) (w.extractLsb' 14 6))
  | 4 => row (w.extractLsb' 1 2 == 0#2) (w.extractLsb' 8 6 == 0#6 && w.extractLsb' 0 1 == 0#1) (.qfree (w.extractLsb' 20 6) (w.extractLsb' 14 6))
  | 5 => row (w.extractLsb' 1 2 == 0#2) (w.extractLsb' 20 6 == 0#6 && w.extractLsb' 8 6 == 0#6 && w.extractLsb' 0 1 == 0#1) (.qreset (w.extractLsb' 14 6))
  | 6 => row (w.extractLsb' 1 2 == 0#2) (w.extractLsb' 20 6 == 0#6 && w.extractLsb' 8 6 == 0#6 && w.extractLsb' 0 1 == 0#1) (.qdrain (w.extractLsb' 14 6))
  | 7 => row (w.extractLsb' 1 2 == 0#2) (w.extractLsb' 8 6 == 0#6 && w.extractLsb' 0 1 == 0#1) (.xput (w.extractLsb' 20 6) (w.extractLsb' 14 6))
  | 8 => row (w.extractLsb' 1 2 == 0#2) (w.extractLsb' 14 6 == 0#6 && w.extractLsb' 8 6 == 0#6 && w.extractLsb' 0 1 == 0#1) (.fset (w.extractLsb' 20 6))
  | 9 => row (w.extractLsb' 1 2 == 0#2) (w.extractLsb' 14 6 == 0#6 && w.extractLsb' 8 6 == 0#6 && w.extractLsb' 0 1 == 0#1) (.fclr (w.extractLsb' 20 6))
  | 10 => row (w.extractLsb' 1 2 == 0#2) (w.extractLsb' 8 6 == 0#6 && w.extractLsb' 0 1 == 0#1) (.ftest (w.extractLsb' 20 6) (w.extractLsb' 14 6))
  | _ => .error .unassignedFn

/-- Major 0x14 (R38). -/
def decodeValu (w : InstrWord) : Except Illegal Instr :=
  match (frFn w).toNat with
  | 0 => row true true (.vadd (w.extractLsb' 20 6) (w.extractLsb' 14 6) (w.extractLsb' 8 6) (w.extractLsb' 1 2) (w.extractLsb' 0 1))
  | 1 => row true true (.vsub (w.extractLsb' 20 6) (w.extractLsb' 14 6) (w.extractLsb' 8 6) (w.extractLsb' 1 2) (w.extractLsb' 0 1))
  | 2 => row true true (.vmul (w.extractLsb' 20 6) (w.extractLsb' 14 6) (w.extractLsb' 8 6) (w.extractLsb' 1 2) (w.extractLsb' 0 1))
  | 3 => row true true (.vmulh (w.extractLsb' 20 6) (w.extractLsb' 14 6) (w.extractLsb' 8 6) (w.extractLsb' 1 2) (w.extractLsb' 0 1))
  | 4 => row true true (.vmac (w.extractLsb' 20 6) (w.extractLsb' 14 6) (w.extractLsb' 8 6) (w.extractLsb' 1 2) (w.extractLsb' 0 1))
  | 5 => row true true (.vdiv (w.extractLsb' 20 6) (w.extractLsb' 14 6) (w.extractLsb' 8 6) (w.extractLsb' 1 2) (w.extractLsb' 0 1))
  | 6 => row true true (.vdivn (w.extractLsb' 20 6) (w.extractLsb' 14 6) (w.extractLsb' 8 6) (w.extractLsb' 1 2) (w.extractLsb' 0 1))
  | 7 => row true true (.vrem (w.extractLsb' 20 6) (w.extractLsb' 14 6) (w.extractLsb' 8 6) (w.extractLsb' 1 2) (w.extractLsb' 0 1))
  | 8 => row true true (.vmin (w.extractLsb' 20 6) (w.extractLsb' 14 6) (w.extractLsb' 8 6) (w.extractLsb' 1 2) (w.extractLsb' 0 1))
  | 9 => row true true (.vmax (w.extractLsb' 20 6) (w.extractLsb' 14 6) (w.extractLsb' 8 6) (w.extractLsb' 1 2) (w.extractLsb' 0 1))
  | 10 => row true true (.vminn (w.extractLsb' 20 6) (w.extractLsb' 14 6) (w.extractLsb' 8 6) (w.extractLsb' 1 2) (w.extractLsb' 0 1))
  | 11 => row true true (.vmaxn (w.extractLsb' 20 6) (w.extractLsb' 14 6) (w.extractLsb' 8 6) (w.extractLsb' 1 2) (w.extractLsb' 0 1))
  | 12 => row true true (.vand (w.extractLsb' 20 6) (w.extractLsb' 14 6) (w.extractLsb' 8 6) (w.extractLsb' 1 2) (w.extractLsb' 0 1))
  | 13 => row true true (.vor (w.extractLsb' 20 6) (w.extractLsb' 14 6) (w.extractLsb' 8 6) (w.extractLsb' 1 2) (w.extractLsb' 0 1))
  | 14 => row true true (.vxor (w.extractLsb' 20 6) (w.extractLsb' 14 6) (w.extractLsb' 8 6) (w.extractLsb' 1 2) (w.extractLsb' 0 1))
  | 15 => row true true (.vsll (w.extractLsb' 20 6) (w.extractLsb' 14 6) (w.extractLsb' 8 6) (w.extractLsb' 1 2) (w.extractLsb' 0 1))
  | 16 => row true true (.vsrl (w.extractLsb' 20 6) (w.extractLsb' 14 6) (w.extractLsb' 8 6) (w.extractLsb' 1 2) (w.extractLsb' 0 1))
  | 17 => row true true (.vsra (w.extractLsb' 20 6) (w.extractLsb' 14 6) (w.extractLsb' 8 6) (w.extractLsb' 1 2) (w.extractLsb' 0 1))
  | 18 => row true true (.vsadd (w.extractLsb' 20 6) (w.extractLsb' 14 6) (w.extractLsb' 8 6) (w.extractLsb' 1 2) (w.extractLsb' 0 1))
  | 19 => row true true (.vssub (w.extractLsb' 20 6) (w.extractLsb' 14 6) (w.extractLsb' 8 6) (w.extractLsb' 1 2) (w.extractLsb' 0 1))
  | 20 => row true (w.extractLsb' 8 6 == 0#6 && w.extractLsb' 0 1 == 0#1) (.vabs (w.extractLsb' 20 6) (w.extractLsb' 14 6) (w.extractLsb' 1 2))
  | 21 => row true (w.extractLsb' 8 6 == 0#6 && w.extractLsb' 0 1 == 0#1) (.vneg (w.extractLsb' 20 6) (w.extractLsb' 14 6) (w.extractLsb' 1 2))
  | 22 => row true (w.extractLsb' 0 1 == 0#1) (.vredsum (w.extractLsb' 20 6) (w.extractLsb' 14 6) (w.extractLsb' 8 6) (w.extractLsb' 1 2))
  | 23 => row true (w.extractLsb' 0 1 == 0#1) (.vredmin (w.extractLsb' 20 6) (w.extractLsb' 14 6) (w.extractLsb' 8 6) (w.extractLsb' 1 2))
  | 24 => row true (w.extractLsb' 0 1 == 0#1) (.vredmax (w.extractLsb' 20 6) (w.extractLsb' 14 6) (w.extractLsb' 8 6) (w.extractLsb' 1 2))
  | _ => .error .unassignedFn

/-- Major 0x15 (R38). -/
def decodeVfp (w : InstrWord) : Except Illegal Instr :=
  match (frFn w).toNat with
  | 0 => row true true (.vfadd (w.extractLsb' 20 6) (w.extractLsb' 14 6) (w.extractLsb' 8 6) (w.extractLsb' 1 2) (w.extractLsb' 0 1))
  | 1 => row true true (.vfsub (w.extractLsb' 20 6) (w.extractLsb' 14 6) (w.extractLsb' 8 6) (w.extractLsb' 1 2) (w.extractLsb' 0 1))
  | 2 => row true true (.vfmul (w.extractLsb' 20 6) (w.extractLsb' 14 6) (w.extractLsb' 8 6) (w.extractLsb' 1 2) (w.extractLsb' 0 1))
  | 3 => row true true (.vfma (w.extractLsb' 20 6) (w.extractLsb' 14 6) (w.extractLsb' 8 6) (w.extractLsb' 1 2) (w.extractLsb' 0 1))
  | 4 => row true true (.vfnma (w.extractLsb' 20 6) (w.extractLsb' 14 6) (w.extractLsb' 8 6) (w.extractLsb' 1 2) (w.extractLsb' 0 1))
  | 5 => row true true (.vfdiv (w.extractLsb' 20 6) (w.extractLsb' 14 6) (w.extractLsb' 8 6) (w.extractLsb' 1 2) (w.extractLsb' 0 1))
  | 6 => row true (w.extractLsb' 8 6 == 0#6 && w.extractLsb' 0 1 == 0#1) (.vfsqrt (w.extractLsb' 20 6) (w.extractLsb' 14 6) (w.extractLsb' 1 2))
  | 7 => row (w.extractLsb' 1 2 == 0#2) (w.extractLsb' 8 6 == 0#6 && w.extractLsb' 0 1 == 0#1) (.vfexp2 (w.extractLsb' 20 6) (w.extractLsb' 14 6))
  | 8 => row (w.extractLsb' 1 2 == 0#2) (w.extractLsb' 8 6 == 0#6 && w.extractLsb' 0 1 == 0#1) (.vflog2 (w.extractLsb' 20 6) (w.extractLsb' 14 6))
  | 9 => row true true (.vfmin (w.extractLsb' 20 6) (w.extractLsb' 14 6) (w.extractLsb' 8 6) (w.extractLsb' 1 2) (w.extractLsb' 0 1))
  | 10 => row true true (.vfmax (w.extractLsb' 20 6) (w.extractLsb' 14 6) (w.extractLsb' 8 6) (w.extractLsb' 1 2) (w.extractLsb' 0 1))
  | 11 => row true (w.extractLsb' 8 6 == 0#6 && w.extractLsb' 0 1 == 0#1) (.vfabs (w.extractLsb' 20 6) (w.extractLsb' 14 6) (w.extractLsb' 1 2))
  | 12 => row true (w.extractLsb' 8 6 == 0#6 && w.extractLsb' 0 1 == 0#1) (.vfneg (w.extractLsb' 20 6) (w.extractLsb' 14 6) (w.extractLsb' 1 2))
  | 13 => row (w.extractLsb' 1 2 == 0#2) (w.extractLsb' 0 1 == 0#1) (.vfcvt (w.extractLsb' 20 6) (w.extractLsb' 14 6) (w.extractLsb' 11 3) (w.extractLsb' 8 3))
  | 14 => row true (w.extractLsb' 0 1 == 0#1) (.vfredo (w.extractLsb' 20 6) (w.extractLsb' 14 6) (w.extractLsb' 8 6) (w.extractLsb' 1 2))
  | 15 => row true (w.extractLsb' 0 1 == 0#1) (.vfredt (w.extractLsb' 20 6) (w.extractLsb' 14 6) (w.extractLsb' 8 6) (w.extractLsb' 1 2))
  | 16 => row true (w.extractLsb' 0 1 == 0#1) (.vfredmax (w.extractLsb' 20 6) (w.extractLsb' 14 6) (w.extractLsb' 8 6) (w.extractLsb' 1 2))
  | 17 => row true (w.extractLsb' 0 1 == 0#1) (.vfredmin (w.extractLsb' 20 6) (w.extractLsb' 14 6) (w.extractLsb' 8 6) (w.extractLsb' 1 2))
  | 18 => row true true (.vfscale (w.extractLsb' 20 6) (w.extractLsb' 14 6) (w.extractLsb' 8 6) (w.extractLsb' 1 2) (w.extractLsb' 0 1))
  | _ => .error .unassignedFn

/-- Major 0x16 (R38). -/
def decodeVcmp (w : InstrWord) : Except Illegal Instr :=
  match (frFn w).toNat with
  | 0 => row true true (.vceq (w.extractLsb' 20 6) (w.extractLsb' 14 6) (w.extractLsb' 8 6) (w.extractLsb' 1 2) (w.extractLsb' 0 1))
  | 1 => row true true (.vcne (w.extractLsb' 20 6) (w.extractLsb' 14 6) (w.extractLsb' 8 6) (w.extractLsb' 1 2) (w.extractLsb' 0 1))
  | 2 => row true true (.vclt (w.extractLsb' 20 6) (w.extractLsb' 14 6) (w.extractLsb' 8 6) (w.extractLsb' 1 2) (w.extractLsb' 0 1))
  | 3 => row true true (.vcle (w.extractLsb' 20 6) (w.extractLsb' 14 6) (w.extractLsb' 8 6) (w.extractLsb' 1 2) (w.extractLsb' 0 1))
  | 4 => row true true (.vcltn (w.extractLsb' 20 6) (w.extractLsb' 14 6) (w.extractLsb' 8 6) (w.extractLsb' 1 2) (w.extractLsb' 0 1))
  | 5 => row true true (.vclen (w.extractLsb' 20 6) (w.extractLsb' 14 6) (w.extractLsb' 8 6) (w.extractLsb' 1 2) (w.extractLsb' 0 1))
  | 6 => row true true (.vfceq (w.extractLsb' 20 6) (w.extractLsb' 14 6) (w.extractLsb' 8 6) (w.extractLsb' 1 2) (w.extractLsb' 0 1))
  | 7 => row true true (.vfclt (w.extractLsb' 20 6) (w.extractLsb' 14 6) (w.extractLsb' 8 6) (w.extractLsb' 1 2) (w.extractLsb' 0 1))
  | 8 => row true true (.vfcle (w.extractLsb' 20 6) (w.extractLsb' 14 6) (w.extractLsb' 8 6) (w.extractLsb' 1 2) (w.extractLsb' 0 1))
  | 9 => row true true (.vfcun (w.extractLsb' 20 6) (w.extractLsb' 14 6) (w.extractLsb' 8 6) (w.extractLsb' 1 2) (w.extractLsb' 0 1))
  | _ => .error .unassignedFn

/-- Major 0x17 (R38). -/
noncomputable def decodePred (w : InstrWord) : Except Illegal Instr :=
  match (frFn w).toNat with
  | 0 => row (w.extractLsb' 1 2 == 0#2) (w.extractLsb' 0 1 == 0#1) (.pand (w.extractLsb' 20 6) (w.extractLsb' 14 6) (w.extractLsb' 8 6))
  | 1 => row (w.extractLsb' 1 2 == 0#2) (w.extractLsb' 0 1 == 0#1) (.por (w.extractLsb' 20 6) (w.extractLsb' 14 6) (w.extractLsb' 8 6))
  | 2 => row (w.extractLsb' 1 2 == 0#2) (w.extractLsb' 0 1 == 0#1) (.pxor (w.extractLsb' 20 6) (w.extractLsb' 14 6) (w.extractLsb' 8 6))
  | 3 => row (w.extractLsb' 1 2 == 0#2) (w.extractLsb' 0 1 == 0#1) (.pandn (w.extractLsb' 20 6) (w.extractLsb' 14 6) (w.extractLsb' 8 6))
  | 4 => row (w.extractLsb' 1 2 == 0#2) (w.extractLsb' 8 6 == 0#6 && w.extractLsb' 0 1 == 0#1) (.pnot (w.extractLsb' 20 6) (w.extractLsb' 14 6))
  | 5 => row (w.extractLsb' 1 2 == 0#2) (w.extractLsb' 8 6 == 0#6 && w.extractLsb' 0 1 == 0#1) (.psbf (w.extractLsb' 20 6) (w.extractLsb' 14 6))
  | 6 => row (w.extractLsb' 1 2 == 0#2) (w.extractLsb' 8 6 == 0#6 && w.extractLsb' 0 1 == 0#1) (.psif (w.extractLsb' 20 6) (w.extractLsb' 14 6))
  | 7 => row (w.extractLsb' 1 2 == 0#2) (w.extractLsb' 8 6 == 0#6 && w.extractLsb' 0 1 == 0#1) (.psof (w.extractLsb' 20 6) (w.extractLsb' 14 6))
  | 8 => row (w.extractLsb' 1 2 == 0#2) (w.extractLsb' 8 6 == 0#6 && w.extractLsb' 0 1 == 0#1) (.pcnt (w.extractLsb' 20 6) (w.extractLsb' 14 6))
  | 9 => row (w.extractLsb' 1 2 == 0#2) (w.extractLsb' 8 6 == 0#6 && w.extractLsb' 0 1 == 0#1) (.pfirst (w.extractLsb' 20 6) (w.extractLsb' 14 6))
  | 10 => row (w.extractLsb' 1 2 == 0#2) (w.extractLsb' 14 6 == 0#6 && w.extractLsb' 8 6 == 0#6 && w.extractLsb' 0 1 == 0#1) (.pset (w.extractLsb' 20 6))
  | 11 => row (w.extractLsb' 1 2 == 0#2) (w.extractLsb' 14 6 == 0#6 && w.extractLsb' 8 6 == 0#6 && w.extractLsb' 0 1 == 0#1) (.pclr (w.extractLsb' 20 6))
  | 12 => row (w.extractLsb' 1 2 == 0#2) (w.extractLsb' 10 4 == 0#4 && w.extractLsb' 0 1 == 0#1) (.pfromx (w.extractLsb' 20 6) (w.extractLsb' 14 6) (w.extractLsb' 8 2))
  | 13 => row (w.extractLsb' 1 2 == 0#2) (w.extractLsb' 10 4 == 0#4 && w.extractLsb' 0 1 == 0#1) (.ptox (w.extractLsb' 20 6) (w.extractLsb' 14 6) (w.extractLsb' 8 2))
  | _ => .error .unassignedFn

/-- Major 0x18 (R38). -/
noncomputable def decodeVperm (w : InstrWord) : Except Illegal Instr :=
  match (frFn w).toNat with
  | 0 => row true (w.extractLsb' 8 6 == 0#6 && w.extractLsb' 0 1 == 0#1) (.vcompress (w.extractLsb' 20 6) (w.extractLsb' 14 6) (w.extractLsb' 1 2))
  | 1 => row true (w.extractLsb' 8 6 == 0#6 && w.extractLsb' 0 1 == 0#1) (.vexpand (w.extractLsb' 20 6) (w.extractLsb' 14 6) (w.extractLsb' 1 2))
  | 2 => row true true (.vslideup (w.extractLsb' 20 6) (w.extractLsb' 14 6) (w.extractLsb' 8 6) (w.extractLsb' 1 2) (w.extractLsb' 0 1))
  | 3 => row true true (.vslidedn (w.extractLsb' 20 6) (w.extractLsb' 14 6) (w.extractLsb' 8 6) (w.extractLsb' 1 2) (w.extractLsb' 0 1))
  | 4 => row true (w.extractLsb' 0 1 == 0#1) (.vpermx (w.extractLsb' 20 6) (w.extractLsb' 14 6) (w.extractLsb' 8 6) (w.extractLsb' 1 2))
  | 5 => row true (w.extractLsb' 0 1 == 0#1) (.vbcast (w.extractLsb' 20 6) (w.extractLsb' 14 6) (w.extractLsb' 8 6) (w.extractLsb' 1 2))
  | 6 => row true (w.extractLsb' 0 1 == 0#1) (.vextx (w.extractLsb' 20 6) (w.extractLsb' 14 6) (w.extractLsb' 8 6) (w.extractLsb' 1 2))
  | 7 => row true (w.extractLsb' 0 1 == 0#1) (.vinsx (w.extractLsb' 20 6) (w.extractLsb' 14 6) (w.extractLsb' 8 6) (w.extractLsb' 1 2))
  | 8 => row true (w.extractLsb' 0 1 == 0#1) (.viota (w.extractLsb' 20 6) (w.extractLsb' 14 6) (w.extractLsb' 8 6) (w.extractLsb' 1 2))
  | 9 => row true (w.extractLsb' 8 6 == 0#6 && w.extractLsb' 0 1 == 0#1) (.vmov (w.extractLsb' 20 6) (w.extractLsb' 14 6) (w.extractLsb' 1 2))
  | 10 => row true (w.extractLsb' 0 1 == 0#1) (.vzip (w.extractLsb' 20 6) (w.extractLsb' 14 6) (w.extractLsb' 8 6) (w.extractLsb' 1 2))
  | 11 => row true (w.extractLsb' 0 1 == 0#1) (.vunzip (w.extractLsb' 20 6) (w.extractLsb' 14 6) (w.extractLsb' 8 6) (w.extractLsb' 1 2))
  | _ => .error .unassignedFn

/-- Major 0x19 (R38): the mode is in bits [7:5]. -/
noncomputable def decodeVld (w : InstrWord) : Except Illegal Instr :=
  match (w.extractLsb' 5 3).toNat with
  | 0 => row true (w.extractLsb' 8 6 == 0#6) (.vld (w.extractLsb' 20 6) (w.extractLsb' 14 6) (w.extractLsb' 3 2) (w.extractLsb' 1 2) (w.extractLsb' 0 1))
  | 1 => row true (w.extractLsb' 8 6 == 0#6) (.vlds (w.extractLsb' 20 6) (w.extractLsb' 14 6) (w.extractLsb' 3 2) (w.extractLsb' 1 2) (w.extractLsb' 0 1))
  | 2 => row true true (.vldx (w.extractLsb' 20 6) (w.extractLsb' 14 6) (w.extractLsb' 8 6) (w.extractLsb' 3 2) (w.extractLsb' 1 2) (w.extractLsb' 0 1))
  | 3 => row true (w.extractLsb' 8 6 == 0#6) (.vldff (w.extractLsb' 20 6) (w.extractLsb' 14 6) (w.extractLsb' 3 2) (w.extractLsb' 1 2) (w.extractLsb' 0 1))
  | 4 => row true (w.extractLsb' 8 6 == 0#6) (.vldb (w.extractLsb' 20 6) (w.extractLsb' 14 6) (w.extractLsb' 3 2) (w.extractLsb' 1 2) (w.extractLsb' 0 1))
  | _ => .error .unassignedFn

/-- Major 0x1A (R38): the mode is in bits [7:5]. -/
noncomputable def decodeVst (w : InstrWord) : Except Illegal Instr :=
  match (w.extractLsb' 5 3).toNat with
  | 0 => row true (w.extractLsb' 8 6 == 0#6) (.vst (w.extractLsb' 20 6) (w.extractLsb' 14 6) (w.extractLsb' 3 2) (w.extractLsb' 1 2) (w.extractLsb' 0 1))
  | 1 => row true (w.extractLsb' 8 6 == 0#6) (.vsts (w.extractLsb' 20 6) (w.extractLsb' 14 6) (w.extractLsb' 3 2) (w.extractLsb' 1 2) (w.extractLsb' 0 1))
  | 2 => row true true (.vstx (w.extractLsb' 20 6) (w.extractLsb' 14 6) (w.extractLsb' 8 6) (w.extractLsb' 3 2) (w.extractLsb' 1 2) (w.extractLsb' 0 1))
  | 3 => row true true (.vstxr (w.extractLsb' 20 6) (w.extractLsb' 14 6) (w.extractLsb' 8 6) (w.extractLsb' 3 2) (w.extractLsb' 1 2) (w.extractLsb' 0 1))
  | _ => .error .unassignedFn

/-- Major 0x1B (R38). -/
noncomputable def decodeVctl (w : InstrWord) : Except Illegal Instr :=
  match (frFn w).toNat with
  | 0 => row true (w.extractLsb' 8 6 == 0#6 && w.extractLsb' 0 1 == 0#1) (.setvl (w.extractLsb' 20 6) (w.extractLsb' 14 6) (w.extractLsb' 1 2))
  | 1 => row true (w.extractLsb' 0 1 == 0#1) (.setvli (w.extractLsb' 20 6) (w.extractLsb' 8 12) (w.extractLsb' 1 2))
  | 2 => row (w.extractLsb' 1 2 == 0#2) (w.extractLsb' 20 6 == 0#6 && w.extractLsb' 9 5 == 0#5 && w.extractLsb' 0 1 == 0#1) (.setms (w.extractLsb' 14 6) (w.extractLsb' 8 1))
  | 3 => row (w.extractLsb' 1 2 == 0#2) (w.extractLsb' 20 6 == 0#6 && w.extractLsb' 8 6 == 0#6 && w.extractLsb' 0 1 == 0#1) (.setst (w.extractLsb' 14 6))
  | 4 => row true (w.extractLsb' 8 6 == 0#6 && w.extractLsb' 0 1 == 0#1) (.scput (w.extractLsb' 20 6) (w.extractLsb' 14 6) (w.extractLsb' 1 2))
  | 5 => row true (w.extractLsb' 14 6 == 0#6 && w.extractLsb' 8 6 == 0#6 && w.extractLsb' 0 1 == 0#1) (.sctake (w.extractLsb' 20 6) (w.extractLsb' 1 2))
  | 6 => row (w.extractLsb' 1 2 == 0#2) (w.extractLsb' 14 6 == 0#6 && w.extractLsb' 8 6 == 0#6 && w.extractLsb' 0 1 == 0#1) (.scflush (w.extractLsb' 20 6))
  | 7 => row (w.extractLsb' 1 2 == 0#2) (w.extractLsb' 14 6 == 0#6 && w.extractLsb' 8 6 == 0#6 && w.extractLsb' 0 1 == 0#1) (.scstat (w.extractLsb' 20 6))
  | _ => .error .unassignedFn

/-- Major 0x1C (R38). -/
noncomputable def decodeTile (w : InstrWord) : Except Illegal Instr :=
  match (frFn w).toNat with
  | 0 => row (w.extractLsb' 1 2 == 0#2) (w.extractLsb' 17 3 == 0#3 && w.extractLsb' 0 1 == 0#1) (.ten (w.extractLsb' 20 6) (w.extractLsb' 14 3) (w.extractLsb' 8 6))
  | 1 => row (w.extractLsb' 1 2 == 0#2) (w.extractLsb' 20 6 == 0#6 && w.extractLsb' 17 3 == 0#3 && w.extractLsb' 8 6 == 0#6 && w.extractLsb' 0 1 == 0#1) (.tdis (w.extractLsb' 14 3))
  | 2 => row (w.extractLsb' 1 2 == 0#2) (w.extractLsb' 20 6 == 0#6 && w.extractLsb' 17 3 == 0#3 && w.extractLsb' 8 6 == 0#6 && w.extractLsb' 0 1 == 0#1) (.tzero (w.extractLsb' 14 3))
  | 3 => row (w.extractLsb' 1 2 == 0#2) (w.extractLsb' 17 3 == 0#3 && w.extractLsb' 0 1 == 0#1) (.tpred (w.extractLsb' 20 6) (w.extractLsb' 14 3) (w.extractLsb' 8 6))
  | 4 => row (w.extractLsb' 1 2 == 0#2) (w.extractLsb' 17 3 == 0#3 && w.extractLsb' 0 1 == 0#1) (.tmovr (w.extractLsb' 20 6) (w.extractLsb' 14 3) (w.extractLsb' 8 6))
  | 5 => row (w.extractLsb' 1 2 == 0#2) (w.extractLsb' 17 3 == 0#3 && w.extractLsb' 0 1 == 0#1) (.tmovc (w.extractLsb' 20 6) (w.extractLsb' 14 3) (w.extractLsb' 8 6))
  | 6 => row (w.extractLsb' 1 2 == 0#2) (w.extractLsb' 23 3 == 0#3 && w.extractLsb' 0 1 == 0#1) (.tsetr (w.extractLsb' 20 3) (w.extractLsb' 14 6) (w.extractLsb' 8 6))
  | 7 => row (w.extractLsb' 1 2 == 0#2) (w.extractLsb' 23 3 == 0#3 && w.extractLsb' 0 1 == 0#1) (.tsetc (w.extractLsb' 20 3) (w.extractLsb' 14 6) (w.extractLsb' 8 6))
  | 8 => row (w.extractLsb' 1 2 == 0#2) (w.extractLsb' 20 6 == 0#6 && w.extractLsb' 17 3 == 0#3 && w.extractLsb' 11 3 == 0#3 && w.extractLsb' 0 1 == 0#1) (.tfold (w.extractLsb' 14 3) (w.extractLsb' 8 3))
  | 9 => row true (w.extractLsb' 17 3 == 0#3 && w.extractLsb' 0 1 == 0#1) (.tdrain (w.extractLsb' 20 6) (w.extractLsb' 14 3) (w.extractLsb' 8 6) (w.extractLsb' 1 2))
  | 10 => row (w.extractLsb' 1 2 == 0#2) (w.extractLsb' 0 1 == 0#1) (.tfetch (w.extractLsb' 20 6) (w.extractLsb' 14 6) (w.extractLsb' 8 6))
  | 11 => row (w.extractLsb' 1 2 == 0#2) (w.extractLsb' 23 3 == 0#3 && w.extractLsb' 8 6 == 0#6 && w.extractLsb' 0 1 == 0#1) (.tscl (w.extractLsb' 20 3) (w.extractLsb' 14 6))
  | 12 => row (w.extractLsb' 1 2 == 0#2) (w.extractLsb' 17 3 == 0#3 && w.extractLsb' 10 4 == 0#4 && w.extractLsb' 0 1 == 0#1) (.tstat (w.extractLsb' 20 6) (w.extractLsb' 14 3) (w.extractLsb' 8 2))
  | _ => .error .unassignedFn

/-- Major 0x1D (R38): the form is in bits [6:5]. -/
noncomputable def decodeTop (w : InstrWord) : Except Illegal Instr :=
  match (w.extractLsb' 5 2).toNat with
  | 0 => rowFx true (.top (w.extractLsb' 23 3) (w.extractLsb' 17 6) (w.extractLsb' 11 6) (w.extractLsb' 7 4) (w.extractLsb' 2 3) (w.extractLsb' 1 1) (w.extractLsb' 0 1))
  | 1 => rowFx true (.tops (w.extractLsb' 23 3) (w.extractLsb' 17 6) (w.extractLsb' 11 6) (w.extractLsb' 7 4) (w.extractLsb' 2 3) (w.extractLsb' 1 1) (w.extractLsb' 0 1))
  | 2 => rowFx (w.extractLsb' 17 6 == 0#6) (.topl (w.extractLsb' 23 3) (w.extractLsb' 11 6) (w.extractLsb' 7 4) (w.extractLsb' 2 3) (w.extractLsb' 1 1) (w.extractLsb' 0 1))
  | _ => .error .badType

/-- Major 0x1E (R38). -/
noncomputable def decodeWin (w : InstrWord) : Except Illegal Instr :=
  match (frFn w).toNat with
  | 0 => row (w.extractLsb' 1 2 == 0#2) (w.extractLsb' 0 1 == 0#1) (.wmap (w.extractLsb' 20 6) (w.extractLsb' 14 6) (w.extractLsb' 8 6))
  | 1 => row (w.extractLsb' 1 2 == 0#2) (w.extractLsb' 20 6 == 0#6 && w.extractLsb' 14 6 == 0#6 && w.extractLsb' 11 3 == 0#3 && w.extractLsb' 0 1 == 0#1) (.wunmap (w.extractLsb' 10 1) (w.extractLsb' 8 2))
  | 2 => row (w.extractLsb' 1 2 == 0#2) (w.extractLsb' 20 6 == 0#6 && w.extractLsb' 10 4 == 0#4 && w.extractLsb' 0 1 == 0#1) (.wflush (w.extractLsb' 14 6) (w.extractLsb' 8 2))
  | 3 => row (w.extractLsb' 1 2 == 0#2) (w.extractLsb' 20 6 == 0#6 && w.extractLsb' 11 3 == 0#3 && w.extractLsb' 0 1 == 0#1) (.winv (w.extractLsb' 14 6) (w.extractLsb' 10 1) (w.extractLsb' 8 2))
  | 4 => row (w.extractLsb' 1 2 == 0#2) (w.extractLsb' 14 6 == 0#6 && w.extractLsb' 11 3 == 0#3 && w.extractLsb' 0 1 == 0#1) (.wstat (w.extractLsb' 20 6) (w.extractLsb' 10 1) (w.extractLsb' 8 2))
  | 5 => row (w.extractLsb' 1 2 == 0#2) (w.extractLsb' 20 6 == 0#6 && w.extractLsb' 10 4 == 0#4 && w.extractLsb' 0 1 == 0#1) (.wtouch (w.extractLsb' 14 6) (w.extractLsb' 8 2))
  | 6 => row (w.extractLsb' 1 2 == 0#2) (w.extractLsb' 20 6 == 0#6 && w.extractLsb' 14 6 == 0#6 && w.extractLsb' 11 3 == 0#3 && w.extractLsb' 0 1 == 0#1) (.wkeep (w.extractLsb' 10 1) (w.extractLsb' 8 2))
  | _ => .error .unassignedFn

/-- Major 0x1F (R38). -/
noncomputable def decodeTkt (w : InstrWord) : Except Illegal Instr :=
  match (frFn w).toNat with
  | 0 => row true (w.extractLsb' 10 4 == 0#4) (.tkld (w.extractLsb' 20 6) (w.extractLsb' 14 6) (w.extractLsb' 8 2) (w.extractLsb' 1 2) (w.extractLsb' 0 1))
  | 1 => row true (w.extractLsb' 10 4 == 0#4) (.tkldw (w.extractLsb' 20 6) (w.extractLsb' 14 6) (w.extractLsb' 8 2) (w.extractLsb' 1 2) (w.extractLsb' 0 1))
  | 2 => row (w.extractLsb' 1 2 == 0#2) (w.extractLsb' 10 4 == 0#4 && w.extractLsb' 0 1 == 0#1) (.tkldv (w.extractLsb' 20 6) (w.extractLsb' 14 6) (w.extractLsb' 8 2))
  | 3 => row (w.extractLsb' 1 2 == 0#2) (w.extractLsb' 8 6 == 0#6 && w.extractLsb' 0 1 == 0#1) (.tkrd (w.extractLsb' 20 6) (w.extractLsb' 14 6))
  | 4 => row (w.extractLsb' 1 2 == 0#2) (w.extractLsb' 8 6 == 0#6 && w.extractLsb' 0 1 == 0#1) (.tkrdv (w.extractLsb' 20 6) (w.extractLsb' 14 6))
  | 5 => row (w.extractLsb' 1 2 == 0#2) (w.extractLsb' 8 6 == 0#6 && w.extractLsb' 0 1 == 0#1) (.tkrdq (w.extractLsb' 20 6) (w.extractLsb' 14 6))
  | 6 => row (w.extractLsb' 1 2 == 0#2) (w.extractLsb' 8 6 == 0#6 && w.extractLsb' 0 1 == 0#1) (.tktest (w.extractLsb' 20 6) (w.extractLsb' 14 6))
  | 7 => row (w.extractLsb' 1 2 == 0#2) (w.extractLsb' 8 6 == 0#6 && w.extractLsb' 0 1 == 0#1) (.tkdrop (w.extractLsb' 20 6) (w.extractLsb' 14 6))
  | _ => .error .unassignedFn

/-- Major 0x20 (R38). -/
noncomputable def decodePcl (w : InstrWord) : Except Illegal Instr :=
  match (frFn w).toNat with
  | 0 => row (w.extractLsb' 1 2 == 0#2) (w.extractLsb' 8 6 == 0#6 && w.extractLsb' 0 1 == 0#1) (.pqry (w.extractLsb' 20 6) (w.extractLsb' 14 6))
  | 1 => row (w.extractLsb' 1 2 == 0#2) (w.extractLsb' 20 6 == 0#6 && w.extractLsb' 0 1 == 0#1) (.phint (w.extractLsb' 14 6) (w.extractLsb' 8 6))
  | 2 => row (w.extractLsb' 1 2 == 0#2) (w.extractLsb' 8 6 == 0#6 && w.extractLsb' 0 1 == 0#1) (.plogq (w.extractLsb' 20 6) (w.extractLsb' 14 6))
  | 3 => row (w.extractLsb' 1 2 == 0#2) (w.extractLsb' 8 6 == 0#6 && w.extractLsb' 0 1 == 0#1) (.pfetch (w.extractLsb' 20 6) (w.extractLsb' 14 6))
  | 4 => row (w.extractLsb' 1 2 == 0#2) (w.extractLsb' 0 1 == 0#1) (.pmigr (w.extractLsb' 20 6) (w.extractLsb' 14 6) (w.extractLsb' 8 6))
  | 5 => row (w.extractLsb' 1 2 == 0#2) (w.extractLsb' 14 6 == 0#6 && w.extractLsb' 8 6 == 0#6 && w.extractLsb' 0 1 == 0#1) (.pnqpop (w.extractLsb' 20 6))
  | 6 => row (w.extractLsb' 1 2 == 0#2) (w.extractLsb' 0 1 == 0#1) (.pkeep (w.extractLsb' 20 6) (w.extractLsb' 14 6) (w.extractLsb' 8 6))
  | _ => .error .unassignedFn

/-- Major 0x21 (R38, R39, R40): d = 0 is the non-returning reduction. -/
noncomputable def decodeAtm (w : InstrWord) : Except Illegal Instr :=
  match (w.extractLsb' 4 4).toNat with
  | 0 => if w.extractLsb' 20 6 == 0#6 then .ok (.redAdd32 (w.extractLsb' 14 6) (w.extractLsb' 8 6) (w.extractLsb' 2 2) (w.extractLsb' 0 2)) else .ok (.atmAdd (w.extractLsb' 20 6) (w.extractLsb' 14 6) (w.extractLsb' 8 6) (w.extractLsb' 2 2) (w.extractLsb' 0 2))
  | 1 => if w.extractLsb' 20 6 == 0#6 then .ok (.redMin32 (w.extractLsb' 14 6) (w.extractLsb' 8 6) (w.extractLsb' 2 2) (w.extractLsb' 0 2)) else .ok (.atmMin (w.extractLsb' 20 6) (w.extractLsb' 14 6) (w.extractLsb' 8 6) (w.extractLsb' 2 2) (w.extractLsb' 0 2))
  | 2 => if w.extractLsb' 20 6 == 0#6 then .ok (.redMax32 (w.extractLsb' 14 6) (w.extractLsb' 8 6) (w.extractLsb' 2 2) (w.extractLsb' 0 2)) else .ok (.atmMax (w.extractLsb' 20 6) (w.extractLsb' 14 6) (w.extractLsb' 8 6) (w.extractLsb' 2 2) (w.extractLsb' 0 2))
  | 3 => if w.extractLsb' 20 6 == 0#6 then .ok (.redMinn32 (w.extractLsb' 14 6) (w.extractLsb' 8 6) (w.extractLsb' 2 2) (w.extractLsb' 0 2)) else .ok (.atmMinn (w.extractLsb' 20 6) (w.extractLsb' 14 6) (w.extractLsb' 8 6) (w.extractLsb' 2 2) (w.extractLsb' 0 2))
  | 4 => if w.extractLsb' 20 6 == 0#6 then .ok (.redMaxn32 (w.extractLsb' 14 6) (w.extractLsb' 8 6) (w.extractLsb' 2 2) (w.extractLsb' 0 2)) else .ok (.atmMaxn (w.extractLsb' 20 6) (w.extractLsb' 14 6) (w.extractLsb' 8 6) (w.extractLsb' 2 2) (w.extractLsb' 0 2))
  | 5 => if w.extractLsb' 20 6 == 0#6 then .ok (.redAnd32 (w.extractLsb' 14 6) (w.extractLsb' 8 6) (w.extractLsb' 2 2) (w.extractLsb' 0 2)) else .ok (.atmAnd (w.extractLsb' 20 6) (w.extractLsb' 14 6) (w.extractLsb' 8 6) (w.extractLsb' 2 2) (w.extractLsb' 0 2))
  | 6 => if w.extractLsb' 20 6 == 0#6 then .ok (.redOr32 (w.extractLsb' 14 6) (w.extractLsb' 8 6) (w.extractLsb' 2 2) (w.extractLsb' 0 2)) else .ok (.atmOr (w.extractLsb' 20 6) (w.extractLsb' 14 6) (w.extractLsb' 8 6) (w.extractLsb' 2 2) (w.extractLsb' 0 2))
  | 7 => if w.extractLsb' 20 6 == 0#6 then .ok (.redXor32 (w.extractLsb' 14 6) (w.extractLsb' 8 6) (w.extractLsb' 2 2) (w.extractLsb' 0 2)) else .ok (.atmXor (w.extractLsb' 20 6) (w.extractLsb' 14 6) (w.extractLsb' 8 6) (w.extractLsb' 2 2) (w.extractLsb' 0 2))
  | 8 => row true true (.atmSwp (w.extractLsb' 20 6) (w.extractLsb' 14 6) (w.extractLsb' 8 6) (w.extractLsb' 2 2) (w.extractLsb' 0 2))
  | 9 => if w.extractLsb' 20 6 == 0#6 then .ok (.redFadd32 (w.extractLsb' 14 6) (w.extractLsb' 8 6) (w.extractLsb' 2 2) (w.extractLsb' 0 2)) else .ok (.atmFadd (w.extractLsb' 20 6) (w.extractLsb' 14 6) (w.extractLsb' 8 6) (w.extractLsb' 2 2) (w.extractLsb' 0 2))
  | 10 => if w.extractLsb' 20 6 == 0#6 then .ok (.redFaddh32 (w.extractLsb' 14 6) (w.extractLsb' 8 6) (w.extractLsb' 2 2) (w.extractLsb' 0 2)) else .ok (.atmFaddh (w.extractLsb' 20 6) (w.extractLsb' 14 6) (w.extractLsb' 8 6) (w.extractLsb' 2 2) (w.extractLsb' 0 2))
  | 11 => row true true (.atmCas (w.extractLsb' 20 6) (w.extractLsb' 14 6) (w.extractLsb' 8 6) (w.extractLsb' 2 2) (w.extractLsb' 0 2))
  | _ => .error .unassignedFn

/-- Major 0x22 (R38, R39, R40): d = 0 is the non-returning reduction. -/
noncomputable def decodeAtmd (w : InstrWord) : Except Illegal Instr :=
  match (w.extractLsb' 4 4).toNat with
  | 0 => if w.extractLsb' 20 6 == 0#6 then .ok (.redAdd64 (w.extractLsb' 14 6) (w.extractLsb' 8 6) (w.extractLsb' 2 2) (w.extractLsb' 0 2)) else .ok (.atmdAdd (w.extractLsb' 20 6) (w.extractLsb' 14 6) (w.extractLsb' 8 6) (w.extractLsb' 2 2) (w.extractLsb' 0 2))
  | 1 => if w.extractLsb' 20 6 == 0#6 then .ok (.redMin64 (w.extractLsb' 14 6) (w.extractLsb' 8 6) (w.extractLsb' 2 2) (w.extractLsb' 0 2)) else .ok (.atmdMin (w.extractLsb' 20 6) (w.extractLsb' 14 6) (w.extractLsb' 8 6) (w.extractLsb' 2 2) (w.extractLsb' 0 2))
  | 2 => if w.extractLsb' 20 6 == 0#6 then .ok (.redMax64 (w.extractLsb' 14 6) (w.extractLsb' 8 6) (w.extractLsb' 2 2) (w.extractLsb' 0 2)) else .ok (.atmdMax (w.extractLsb' 20 6) (w.extractLsb' 14 6) (w.extractLsb' 8 6) (w.extractLsb' 2 2) (w.extractLsb' 0 2))
  | 3 => if w.extractLsb' 20 6 == 0#6 then .ok (.redMinn64 (w.extractLsb' 14 6) (w.extractLsb' 8 6) (w.extractLsb' 2 2) (w.extractLsb' 0 2)) else .ok (.atmdMinn (w.extractLsb' 20 6) (w.extractLsb' 14 6) (w.extractLsb' 8 6) (w.extractLsb' 2 2) (w.extractLsb' 0 2))
  | 4 => if w.extractLsb' 20 6 == 0#6 then .ok (.redMaxn64 (w.extractLsb' 14 6) (w.extractLsb' 8 6) (w.extractLsb' 2 2) (w.extractLsb' 0 2)) else .ok (.atmdMaxn (w.extractLsb' 20 6) (w.extractLsb' 14 6) (w.extractLsb' 8 6) (w.extractLsb' 2 2) (w.extractLsb' 0 2))
  | 5 => if w.extractLsb' 20 6 == 0#6 then .ok (.redAnd64 (w.extractLsb' 14 6) (w.extractLsb' 8 6) (w.extractLsb' 2 2) (w.extractLsb' 0 2)) else .ok (.atmdAnd (w.extractLsb' 20 6) (w.extractLsb' 14 6) (w.extractLsb' 8 6) (w.extractLsb' 2 2) (w.extractLsb' 0 2))
  | 6 => if w.extractLsb' 20 6 == 0#6 then .ok (.redOr64 (w.extractLsb' 14 6) (w.extractLsb' 8 6) (w.extractLsb' 2 2) (w.extractLsb' 0 2)) else .ok (.atmdOr (w.extractLsb' 20 6) (w.extractLsb' 14 6) (w.extractLsb' 8 6) (w.extractLsb' 2 2) (w.extractLsb' 0 2))
  | 7 => if w.extractLsb' 20 6 == 0#6 then .ok (.redXor64 (w.extractLsb' 14 6) (w.extractLsb' 8 6) (w.extractLsb' 2 2) (w.extractLsb' 0 2)) else .ok (.atmdXor (w.extractLsb' 20 6) (w.extractLsb' 14 6) (w.extractLsb' 8 6) (w.extractLsb' 2 2) (w.extractLsb' 0 2))
  | 8 => row true true (.atmdSwp (w.extractLsb' 20 6) (w.extractLsb' 14 6) (w.extractLsb' 8 6) (w.extractLsb' 2 2) (w.extractLsb' 0 2))
  | 9 => if w.extractLsb' 20 6 == 0#6 then .ok (.redFadd64 (w.extractLsb' 14 6) (w.extractLsb' 8 6) (w.extractLsb' 2 2) (w.extractLsb' 0 2)) else .ok (.atmdFadd (w.extractLsb' 20 6) (w.extractLsb' 14 6) (w.extractLsb' 8 6) (w.extractLsb' 2 2) (w.extractLsb' 0 2))
  | 11 => row true true (.atmdCas (w.extractLsb' 20 6) (w.extractLsb' 14 6) (w.extractLsb' 8 6) (w.extractLsb' 2 2) (w.extractLsb' 0 2))
  | _ => .error .unassignedFn

/-- Major 0x23 (R38). -/
noncomputable def decodeSync (w : InstrWord) : Except Illegal Instr :=
  match (frFn w).toNat with
  | 0 => row (w.extractLsb' 1 2 == 0#2) (w.extractLsb' 24 2 == 0#2 && w.extractLsb' 16 4 == 0#4 && w.extractLsb' 10 4 == 0#4 && w.extractLsb' 0 1 == 0#1) (.sbar (w.extractLsb' 20 4) (w.extractLsb' 14 2) (w.extractLsb' 8 2))
  | 1 => row true (w.extractLsb' 20 6 == 0#6 && w.extractLsb' 0 1 == 0#1) (.bari (w.extractLsb' 14 6) (w.extractLsb' 8 6) (w.extractLsb' 1 2))
  | 2 => row true (w.extractLsb' 8 6 == 0#6 && w.extractLsb' 0 1 == 0#1) (.barv (w.extractLsb' 20 6) (w.extractLsb' 14 6) (w.extractLsb' 1 2))
  | 3 => row true (w.extractLsb' 20 6 == 0#6 && w.extractLsb' 0 1 == 0#1) (.barw (w.extractLsb' 14 6) (w.extractLsb' 8 6) (w.extractLsb' 1 2))
  | 4 => row true (w.extractLsb' 0 1 == 0#1) (.barwt (w.extractLsb' 20 6) (w.extractLsb' 14 6) (w.extractLsb' 8 6) (w.extractLsb' 1 2))
  | 5 => row true (w.extractLsb' 0 1 == 0#1) (.waitv (w.extractLsb' 20 6) (w.extractLsb' 14 6) (w.extractLsb' 8 6) (w.extractLsb' 1 2))
  | 6 => row ((w.extractLsb' 1 2 == 0#2 || w.extractLsb' 1 2 == 3#2)) (w.extractLsb' 21 5 == 0#5 && w.extractLsb' 0 1 == 0#1) (.accdecl (w.extractLsb' 20 1) (w.extractLsb' 14 6) (w.extractLsb' 8 6) (w.extractLsb' 1 2))
  | 7 => row (w.extractLsb' 1 2 == 0#2) (w.extractLsb' 21 5 == 0#5 && w.extractLsb' 0 1 == 0#1) (.vacc (w.extractLsb' 20 1) (w.extractLsb' 14 6) (w.extractLsb' 8 6))
  | 8 => row (w.extractLsb' 1 2 == 0#2) (w.extractLsb' 14 6 == 0#6 && w.extractLsb' 9 5 == 0#5 && w.extractLsb' 0 1 == 0#1) (.accmerge (w.extractLsb' 20 6) (w.extractLsb' 8 1))
  | 9 => row (w.extractLsb' 1 2 == 0#2) (w.extractLsb' 20 6 == 0#6 && w.extractLsb' 14 6 == 0#6 && w.extractLsb' 9 5 == 0#5 && w.extractLsb' 0 1 == 0#1) (.accrel (w.extractLsb' 8 1))
  | _ => .error .unassignedFn

/-- Major 0x24 (R38). -/
noncomputable def decodeEng (w : InstrWord) : Except Illegal Instr :=
  match (frFn w).toNat with
  | 0 => row (w.extractLsb' 1 2 == 0#2) (w.extractLsb' 8 6 == 0#6 && w.extractLsb' 0 1 == 0#1) (.estr (w.extractLsb' 20 6) (w.extractLsb' 14 6))
  | 1 => row (w.extractLsb' 1 2 == 0#2) (w.extractLsb' 20 6 == 0#6 && w.extractLsb' 0 1 == 0#1) (.epush (w.extractLsb' 14 6) (w.extractLsb' 8 6))
  | 2 => row (w.extractLsb' 1 2 == 0#2) (w.extractLsb' 8 6 == 0#6 && w.extractLsb' 0 1 == 0#1) (.epop (w.extractLsb' 20 6) (w.extractLsb' 14 6))
  | 3 => row (w.extractLsb' 1 2 == 0#2) (w.extractLsb' 8 6 == 0#6 && w.extractLsb' 0 1 == 0#1) (.ewm (w.extractLsb' 20 6) (w.extractLsb' 14 6))
  | 4 => row (w.extractLsb' 1 2 == 0#2) (w.extractLsb' 20 6 == 0#6 && w.extractLsb' 0 1 == 0#1) (.ewait (w.extractLsb' 14 6) (w.extractLsb' 8 6))
  | 5 => row (w.extractLsb' 1 2 == 0#2) (w.extractLsb' 0 1 == 0#1) (.echan (w.extractLsb' 20 6) (w.extractLsb' 14 6) (w.extractLsb' 8 6))
  | 6 => row (w.extractLsb' 1 2 == 0#2) (w.extractLsb' 0 1 == 0#1) (.egang (w.extractLsb' 20 6) (w.extractLsb' 14 6) (w.extractLsb' 8 6))
  | 7 => row (w.extractLsb' 1 2 == 0#2) (w.extractLsb' 8 6 == 0#6 && w.extractLsb' 0 1 == 0#1) (.ecancel (w.extractLsb' 20 6) (w.extractLsb' 14 6))
  | 8 => row (w.extractLsb' 1 2 == 0#2) (w.extractLsb' 8 6 == 0#6 && w.extractLsb' 0 1 == 0#1) (.estat (w.extractLsb' 20 6) (w.extractLsb' 14 6))
  | 9 => row (w.extractLsb' 1 2 == 0#2) (w.extractLsb' 8 6 == 0#6 && w.extractLsb' 0 1 == 0#1) (.uien (w.extractLsb' 20 6) (w.extractLsb' 14 6))
  | 10 => row (w.extractLsb' 1 2 == 0#2) (w.extractLsb' 20 6 == 0#6 && w.extractLsb' 14 6 == 0#6 && w.extractLsb' 8 6 == 0#6 && w.extractLsb' 0 1 == 0#1) .uiret
  | _ => .error .unassignedFn

/-- Major 0x25 (R38). -/
noncomputable def decodeSys (w : InstrWord) : Except Illegal Instr :=
  match (frFn w).toNat with
  | 0 => row (w.extractLsb' 1 2 == 0#2) (w.extractLsb' 20 6 == 0#6 && w.extractLsb' 14 6 == 0#6 && w.extractLsb' 0 1 == 0#1) (.svc (w.extractLsb' 8 6))
  | 1 => row (w.extractLsb' 1 2 == 0#2) (w.extractLsb' 20 6 == 0#6 && w.extractLsb' 14 6 == 0#6 && w.extractLsb' 0 1 == 0#1) (.brk (w.extractLsb' 8 6))
  | 2 => row (w.extractLsb' 1 2 == 0#2) (w.extractLsb' 20 6 == 0#6 && w.extractLsb' 14 6 == 0#6 && w.extractLsb' 8 6 == 0#6 && w.extractLsb' 0 1 == 0#1) .rett
  | 3 => row (w.extractLsb' 1 2 == 0#2) (w.extractLsb' 14 6 == 0#6 && w.extractLsb' 8 6 == 0#6 && w.extractLsb' 0 1 == 0#1) (.wfi (w.extractLsb' 20 6))
  | 4 => row (w.extractLsb' 1 2 == 0#2) (w.extractLsb' 0 1 == 0#1) (.tlbinv (w.extractLsb' 20 6) (w.extractLsb' 14 6) (w.extractLsb' 8 6))
  | 5 => row (w.extractLsb' 1 2 == 0#2) (w.extractLsb' 8 6 == 0#6 && w.extractLsb' 0 1 == 0#1) (.ctxsv (w.extractLsb' 20 6) (w.extractLsb' 14 6))
  | 6 => row (w.extractLsb' 1 2 == 0#2) (w.extractLsb' 0 1 == 0#1) (.ctxld (w.extractLsb' 20 6) (w.extractLsb' 14 6) (w.extractLsb' 8 6))
  | 7 => row (w.extractLsb' 1 2 == 0#2) (w.extractLsb' 8 6 == 0#6 && w.extractLsb' 0 1 == 0#1) (.lnpurge (w.extractLsb' 20 6) (w.extractLsb' 14 6))
  | _ => .error .unassignedFn

/-- Major 0x26 (R38). -/
noncomputable def decodeTrc (w : InstrWord) : Except Illegal Instr :=
  match (frFn w).toNat with
  | 0 => row (w.extractLsb' 1 2 == 0#2) (w.extractLsb' 20 6 == 0#6 && w.extractLsb' 0 1 == 0#1) (.tmark (w.extractLsb' 14 6) (w.extractLsb' 8 6))
  | 1 => row (w.extractLsb' 1 2 == 0#2) (w.extractLsb' 14 6 == 0#6 && w.extractLsb' 11 3 == 0#3 && w.extractLsb' 0 1 == 0#1) (.tcnt (w.extractLsb' 20 6) (w.extractLsb' 8 3))
  | _ => .error .unassignedFn

/-- The instruction of a word, or why it is none (R38, R45 checks 2 and 3, R47). -/
noncomputable def decode (w : InstrWord) : Except Illegal Instr :=
  match (majorOf w).toNat with
  | 0 => if w = 0 then .error .zeroWord else .error .majorZero
  | 1 => decodeAlu w
  | 2 => .ok (.addi (w.extractLsb' 20 6) (w.extractLsb' 14 6) (w.extractLsb' 0 14))
  | 3 => .ok (.andi (w.extractLsb' 20 6) (w.extractLsb' 14 6) (w.extractLsb' 0 14))
  | 4 => .ok (.ori (w.extractLsb' 20 6) (w.extractLsb' 14 6) (w.extractLsb' 0 14))
  | 5 => .ok (.xori (w.extractLsb' 20 6) (w.extractLsb' 14 6) (w.extractLsb' 0 14))
  | 6 => .ok (.slti (w.extractLsb' 20 6) (w.extractLsb' 14 6) (w.extractLsb' 0 14))
  | 7 => .ok (.sltni (w.extractLsb' 20 6) (w.extractLsb' 14 6) (w.extractLsb' 0 14))
  | 8 => .ok (.lui (w.extractLsb' 20 6) (w.extractLsb' 0 20))
  | 9 => .ok (.auipc (w.extractLsb' 20 6) (w.extractLsb' 0 20))
  | 10 => .ok (.jal (w.extractLsb' 20 6) (w.extractLsb' 0 20))
  | 11 => .ok (.jalr (w.extractLsb' 20 6) (w.extractLsb' 14 6) (w.extractLsb' 0 14))
  | 12 => decodeBr w
  | 13 => rowFm (.ld (w.extractLsb' 20 6) (w.extractLsb' 14 6) (w.extractLsb' 8 6) (w.extractLsb' 6 2) (w.extractLsb' 4 2) (w.extractLsb' 2 2) (w.extractLsb' 0 2))
  | 14 => rowFm (.ldz (w.extractLsb' 20 6) (w.extractLsb' 14 6) (w.extractLsb' 8 6) (w.extractLsb' 6 2) (w.extractLsb' 4 2) (w.extractLsb' 2 2) (w.extractLsb' 0 2))
  | 15 => rowFm (.st (w.extractLsb' 20 6) (w.extractLsb' 14 6) (w.extractLsb' 8 6) (w.extractLsb' 6 2) (w.extractLsb' 4 2) (w.extractLsb' 2 2) (w.extractLsb' 0 2))
  | 16 => decodeFps w
  | 17 => decodeCsr w
  | 18 => decodeStr w
  | 19 => decodeQue w
  | 20 => decodeValu w
  | 21 => decodeVfp w
  | 22 => decodeVcmp w
  | 23 => decodePred w
  | 24 => decodeVperm w
  | 25 => decodeVld w
  | 26 => decodeVst w
  | 27 => decodeVctl w
  | 28 => decodeTile w
  | 29 => decodeTop w
  | 30 => decodeWin w
  | 31 => decodeTkt w
  | 32 => decodePcl w
  | 33 => decodeAtm w
  | 34 => decodeAtmd w
  | 35 => decodeSync w
  | 36 => decodeEng w
  | 37 => decodeSys w
  | 38 => decodeTrc w
  | 63 => .error .reservedMajor
  | _ => .error .unassignedMajor

/-! The nine formats (R30), high field to low. -/

/-- FR. -/
def fr (op d a b : BitVec 6) (fn : BitVec 5) (ty : BitVec 2) (s : BitVec 1) : InstrWord :=
  op ++ d ++ a ++ b ++ fn ++ ty ++ s

/-- FI. -/
def fi (op d a : BitVec 6) (imm : BitVec 14) : InstrWord := op ++ d ++ a ++ imm

/-- FU. -/
def fu (op d : BitVec 6) (imm : BitVec 20) : InstrWord := op ++ d ++ imm

/-- FB. -/
def fb (op a b : BitVec 6) (cond : BitVec 3) (off : BitVec 11) : InstrWord := op ++ a ++ b ++ cond ++ off

/-- FM. -/
def fm (op d base off : BitVec 6) (wd st ord sc : BitVec 2) : InstrWord :=
  op ++ d ++ base ++ off ++ wd ++ st ++ ord ++ sc

/-- FV. -/
def fv (op d base i : BitVec 6) (mode : BitVec 3) (wd st : BitVec 2) (h : BitVec 1) : InstrWord :=
  op ++ d ++ base ++ i ++ mode ++ wd ++ st ++ h

/-- FX. -/
def fx (op : BitVec 6) (t : BitVec 3) (a b : BitVec 6) (rep : BitVec 4) (form : BitVec 2) (ty : BitVec 3)
    (n z : BitVec 1) : InstrWord :=
  op ++ t ++ a ++ b ++ rep ++ form ++ ty ++ n ++ z

/-- FA. -/
def fa (op d base b : BitVec 6) (fn : BitVec 4) (ord sc : BitVec 2) : InstrWord :=
  op ++ d ++ base ++ b ++ fn ++ ord ++ sc

/-- FS. -/
def fs (op d a : BitVec 6) (csr : BitVec 12) (fn : BitVec 2) : InstrWord := op ++ d ++ a ++ csr ++ fn

/-- The word of an instruction, from the encoding tables of the chapters. A device event has no word: it answers 0
(DEDUCED, log entry 35). -/
def encode : Instr → InstrWord
  | .strandWake _ => 0
  | .barwtDeadline _ => 0
  | .userInterruptEntry _ => 0
  | .migrationSearchExpiry _ => 0
  | .migrationCoreFreed _ => 0
  | .migrationCarryComplete _ => 0
  | .creditReturn _ => 0
  | .proactiveReturn _ => 0
  | .naingOrderedMove _ _ => 0
  | .preemptionSaveComplete _ => 0
  | .homeRead _ _ => 0
  | .homeOwn _ _ => 0
  | .homeWriteBack _ _ _ => 0
  | .cleanCopyDrop _ _ => 0
  | .invalidatingSnoop _ _ => 0
  | .forwardedRead _ _ => 0
  | .goneResponse _ _ _ => 0
  | .llcEviction _ => 0
  | .guestCopyEviction _ _ => 0
  | .shootdownRequest _ _ _ => 0
  | .shootdownComplete _ _ => 0
  | .parcelMigrationStart _ => 0
  | .parcelMigrationComplete _ _ => 0
  | .pendingLogAppend _ _ _ _ => 0
  | .boothFill _ _ => 0
  | .boothWaitAllocate _ => 0
  | .boothClaim _ => 0
  | .ticketDelivery _ => 0
  | .ticketWithdrawal _ => 0
  | .ticketExpiry _ _ => 0
  | .queueFillArrival _ _ _ _ _ _ => 0
  | .windowFill _ _ _ => 0
  | .matrixPipeStep _ => 0
  | .tileOpComplete _ => 0
  | .tfetchSlotFill _ _ _ _ _ _ _ _ => 0
  | .elementTrain _ _ _ _ _ => 0
  | .trainAck _ _ _ _ => 0
  | .reductionPerform _ => 0
  | .reductionDrainExpiry _ => 0
  | .commandStart _ _ => 0
  | .engineElement _ _ => 0
  | .rowComplete _ _ => 0
  | .commandEnd _ _ => 0
  | .stageBlockAnnounce _ _ _ => 0
  | .stageBlockGrant _ _ _ => 0
  | .stageBlockPull _ _ _ => 0
  | .gangStripGrant _ _ _ => 0
  | .contextTeardown _ => 0
  | .launchRecordAccept _ => 0
  | .dispatch _ => 0
  | .starvationBoundExpiry _ => 0
  | .launchCompletion _ => 0
  | .gangAnnounceReceive _ _ => 0
  | .gangTimeout _ => 0
  | .gangAbortReceive _ => 0
  | .traceSample _ => 0
  | .replayHoldExpiry _ => 0
  | .powerOnBringUp => 0
  | .doorbell _ => 0
  | .quoteRequest _ => 0
  | .quoteReady => 0
  | .evstatClear _ => 0
  | .hostMemoryAccess _ _ _ _ => 0
  | .hostSnoop _ => 0
  | .hostLinkLoss _ => 0
  | .thermalThrottle _ => 0
  | .thermalShutdown _ => 0
  | .powerCapThrottle _ => 0
  | .uncorrectedError _ _ _ _ => 0
  | .unitFence _ _ => 0
  | .dcword7Commit _ => 0
  | .keyLoad => 0
  | .keyErase => 0
  | .pwrcapWrite _ => 0
  | .rplmodeWrite _ => 0
  | .registerWrite _ _ _ => 0
  | .correctedError _ => 0
  | .powerLoss => 0
  | .contextCreation _ => 0
  | .naingParcelMigrationRequest _ _ _ => 0
  | .reserveFrameSupply _ _ => 0
  | .counterTableEntryFree _ _ => 0
  | .resumptionMark _ => 0
  | .naingLaunchEnd _ => 0
  | .add d a b t s => fr 1#6 d a b 0#5 (0#1 ++ t) s
  | .sub d a b t s => fr 1#6 d a b 1#5 (0#1 ++ t) s
  | .mul d a b t s => fr 1#6 d a b 2#5 (0#1 ++ t) s
  | .mulh d a b t s => fr 1#6 d a b 3#5 (0#1 ++ t) s
  | .mulhn d a b t s => fr 1#6 d a b 4#5 (0#1 ++ t) s
  | .div d a b t s => fr 1#6 d a b 5#5 (0#1 ++ t) s
  | .divn d a b t s => fr 1#6 d a b 6#5 (0#1 ++ t) s
  | .rem d a b t s => fr 1#6 d a b 7#5 (0#1 ++ t) s
  | .remn d a b t s => fr 1#6 d a b 8#5 (0#1 ++ t) s
  | .and d a b t s => fr 1#6 d a b 9#5 (0#1 ++ t) s
  | .or d a b t s => fr 1#6 d a b 10#5 (0#1 ++ t) s
  | .xor d a b t s => fr 1#6 d a b 11#5 (0#1 ++ t) s
  | .andn d a b t s => fr 1#6 d a b 12#5 (0#1 ++ t) s
  | .sll d a b t s => fr 1#6 d a b 13#5 (0#1 ++ t) s
  | .srl d a b t s => fr 1#6 d a b 14#5 (0#1 ++ t) s
  | .sra d a b t s => fr 1#6 d a b 15#5 (0#1 ++ t) s
  | .slli d a h t s => fr 1#6 d a h 16#5 (0#1 ++ t) s
  | .srli d a h t s => fr 1#6 d a h 17#5 (0#1 ++ t) s
  | .srai d a h t s => fr 1#6 d a h 18#5 (0#1 ++ t) s
  | .min d a b t s => fr 1#6 d a b 19#5 (0#1 ++ t) s
  | .max d a b t s => fr 1#6 d a b 20#5 (0#1 ++ t) s
  | .minn d a b t s => fr 1#6 d a b 21#5 (0#1 ++ t) s
  | .maxn d a b t s => fr 1#6 d a b 22#5 (0#1 ++ t) s
  | .slt d a b t s => fr 1#6 d a b 23#5 (0#1 ++ t) s
  | .sltn d a b t s => fr 1#6 d a b 24#5 (0#1 ++ t) s
  | .seq d a b t s => fr 1#6 d a b 25#5 (0#1 ++ t) s
  | .clz d a t s => fr 1#6 d a 0#6 26#5 (0#1 ++ t) s
  | .ctz d a t s => fr 1#6 d a 0#6 27#5 (0#1 ++ t) s
  | .popc d a t s => fr 1#6 d a 0#6 28#5 (0#1 ++ t) s
  | .rotr d a b t s => fr 1#6 d a b 29#5 (0#1 ++ t) s
  | .brev d a t s => fr 1#6 d a 0#6 30#5 (0#1 ++ t) s
  | .bswap d a t s => fr 1#6 d a 0#6 31#5 (0#1 ++ t) s
  | .addi d a i => fi 2#6 d a i
  | .andi d a i => fi 3#6 d a i
  | .ori d a i => fi 4#6 d a i
  | .xori d a i => fi 5#6 d a i
  | .slti d a i => fi 6#6 d a i
  | .sltni d a i => fi 7#6 d a i
  | .lui d i => fu 8#6 d i
  | .auipc d i => fu 9#6 d i
  | .jal d i => fu 10#6 d i
  | .jalr d a i => fi 11#6 d a i
  | .beq a b o => fb 12#6 a b 0#3 o
  | .bne a b o => fb 12#6 a b 1#3 o
  | .blt a b o => fb 12#6 a b 2#3 o
  | .bge a b o => fb 12#6 a b 3#3 o
  | .bltn a b o => fb 12#6 a b 4#3 o
  | .bgen a b o => fb 12#6 a b 5#3 o
  | .bqt a o => fb 12#6 a 0#6 6#3 o
  | .bqf a o => fb 12#6 a 0#6 7#3 o
  | .ld d b o w s r c => fm 13#6 d b o w s r c
  | .ldz d b o w s r c => fm 14#6 d b o w s r c
  | .st d b o w s r c => fm 15#6 d b o w s r c
  | .fadd d a b t s => fr 16#6 d a b 0#5 t s
  | .fsub d a b t s => fr 16#6 d a b 1#5 t s
  | .fmul d a b t s => fr 16#6 d a b 2#5 t s
  | .fmac d a b t s => fr 16#6 d a b 3#5 t s
  | .fnmac d a b t s => fr 16#6 d a b 4#5 t s
  | .fdiv d a b t s => fr 16#6 d a b 5#5 t s
  | .fsqrt d a t s => fr 16#6 d a 0#6 6#5 t s
  | .fmin d a b t s => fr 16#6 d a b 7#5 t s
  | .fmax d a b t s => fr 16#6 d a b 8#5 t s
  | .feq d a b t s => fr 16#6 d a b 9#5 t s
  | .flt d a b t s => fr 16#6 d a b 10#5 t s
  | .fle d a b t s => fr 16#6 d a b 11#5 t s
  | .fclass d a t s => fr 16#6 d a 0#6 12#5 t s
  | .fcvti d a m f t s => fr 16#6 d a (m ++ f) 13#5 t s
  | .fcvtf d a m f t s => fr 16#6 d a (m ++ f) 14#5 t s
  | .fcvtw d a m f t s => fr 16#6 d a (m ++ 0#1 ++ f) 15#5 t s
  | .fscpy d a b t s => fr 16#6 d a b 16#5 t s
  | .fsneg d a b t s => fr 16#6 d a b 17#5 t s
  | .fsxor d a b t s => fr 16#6 d a b 18#5 t s
  | .csrrw d a c => fs 17#6 d a c 0#2
  | .csrrs d a c => fs 17#6 d a c 1#2
  | .csrrc d a c => fs 17#6 d a c 2#2
  | .csrr d c => fs 17#6 d 0#6 c 3#2
  | .exit => fr 18#6 0#6 0#6 0#6 0#5 0#2 0#1
  | .yield => fr 18#6 0#6 0#6 0#6 1#5 0#2 0#1
  | .forkl d a => fr 18#6 d a 0#6 2#5 0#2 0#1
  | .joinl d a => fr 18#6 d a 0#6 3#5 0#2 0#1
  | .loop a n => fr 18#6 0#6 a (0#4 ++ n) 4#5 0#2 0#1
  | .endloop n => fr 18#6 0#6 0#6 (0#4 ++ n) 5#5 0#2 0#1
  | .lidx d s => fr 18#6 d 0#6 s 6#5 0#2 0#1
  | .sidx a n => fr 18#6 0#6 a (0#4 ++ n) 7#5 0#2 0#1
  | .hint c => fr 18#6 0#6 0#6 c 8#5 0#2 0#1
  | .migr d a => fr 18#6 d a 0#6 9#5 0#2 0#1
  | .qcfg d a => fr 19#6 d a 0#6 0#5 0#2 0#1
  | .qadv a b => fr 19#6 0#6 a b 1#5 0#2 0#1
  | .qcommit a => fr 19#6 0#6 a 0#6 2#5 0#2 0#1
  | .qfill d a => fr 19#6 d a 0#6 3#5 0#2 0#1
  | .qfree d a => fr 19#6 d a 0#6 4#5 0#2 0#1
  | .qreset a => fr 19#6 0#6 a 0#6 5#5 0#2 0#1
  | .qdrain a => fr 19#6 0#6 a 0#6 6#5 0#2 0#1
  | .xput d a => fr 19#6 d a 0#6 7#5 0#2 0#1
  | .fset d => fr 19#6 d 0#6 0#6 8#5 0#2 0#1
  | .fclr d => fr 19#6 d 0#6 0#6 9#5 0#2 0#1
  | .ftest d a => fr 19#6 d a 0#6 10#5 0#2 0#1
  | .vadd d a b t x => fr 20#6 d a b 0#5 t x
  | .vsub d a b t x => fr 20#6 d a b 1#5 t x
  | .vmul d a b t x => fr 20#6 d a b 2#5 t x
  | .vmulh d a b t x => fr 20#6 d a b 3#5 t x
  | .vmac d a b t x => fr 20#6 d a b 4#5 t x
  | .vdiv d a b t x => fr 20#6 d a b 5#5 t x
  | .vdivn d a b t x => fr 20#6 d a b 6#5 t x
  | .vrem d a b t x => fr 20#6 d a b 7#5 t x
  | .vmin d a b t x => fr 20#6 d a b 8#5 t x
  | .vmax d a b t x => fr 20#6 d a b 9#5 t x
  | .vminn d a b t x => fr 20#6 d a b 10#5 t x
  | .vmaxn d a b t x => fr 20#6 d a b 11#5 t x
  | .vand d a b t x => fr 20#6 d a b 12#5 t x
  | .vor d a b t x => fr 20#6 d a b 13#5 t x
  | .vxor d a b t x => fr 20#6 d a b 14#5 t x
  | .vsll d a b t x => fr 20#6 d a b 15#5 t x
  | .vsrl d a b t x => fr 20#6 d a b 16#5 t x
  | .vsra d a b t x => fr 20#6 d a b 17#5 t x
  | .vsadd d a b t x => fr 20#6 d a b 18#5 t x
  | .vssub d a b t x => fr 20#6 d a b 19#5 t x
  | .vabs d a t => fr 20#6 d a 0#6 20#5 t 0#1
  | .vneg d a t => fr 20#6 d a 0#6 21#5 t 0#1
  | .vredsum d a b t => fr 20#6 d a b 22#5 t 0#1
  | .vredmin d a b t => fr 20#6 d a b 23#5 t 0#1
  | .vredmax d a b t => fr 20#6 d a b 24#5 t 0#1
  | .vfadd d a b t x => fr 21#6 d a b 0#5 t x
  | .vfsub d a b t x => fr 21#6 d a b 1#5 t x
  | .vfmul d a b t x => fr 21#6 d a b 2#5 t x
  | .vfma d a b t x => fr 21#6 d a b 3#5 t x
  | .vfnma d a b t x => fr 21#6 d a b 4#5 t x
  | .vfdiv d a b t x => fr 21#6 d a b 5#5 t x
  | .vfsqrt d a t => fr 21#6 d a 0#6 6#5 t 0#1
  | .vfexp2 d a => fr 21#6 d a 0#6 7#5 0#2 0#1
  | .vflog2 d a => fr 21#6 d a 0#6 8#5 0#2 0#1
  | .vfmin d a b t x => fr 21#6 d a b 9#5 t x
  | .vfmax d a b t x => fr 21#6 d a b 10#5 t x
  | .vfabs d a t => fr 21#6 d a 0#6 11#5 t 0#1
  | .vfneg d a t => fr 21#6 d a 0#6 12#5 t 0#1
  | .vfcvt d a e f => fr 21#6 d a (e ++ f) 13#5 0#2 0#1
  | .vfredo d a b t => fr 21#6 d a b 14#5 t 0#1
  | .vfredt d a b t => fr 21#6 d a b 15#5 t 0#1
  | .vfredmax d a b t => fr 21#6 d a b 16#5 t 0#1
  | .vfredmin d a b t => fr 21#6 d a b 17#5 t 0#1
  | .vfscale d a b t x => fr 21#6 d a b 18#5 t x
  | .vceq d a b t x => fr 22#6 d a b 0#5 t x
  | .vcne d a b t x => fr 22#6 d a b 1#5 t x
  | .vclt d a b t x => fr 22#6 d a b 2#5 t x
  | .vcle d a b t x => fr 22#6 d a b 3#5 t x
  | .vcltn d a b t x => fr 22#6 d a b 4#5 t x
  | .vclen d a b t x => fr 22#6 d a b 5#5 t x
  | .vfceq d a b t x => fr 22#6 d a b 6#5 t x
  | .vfclt d a b t x => fr 22#6 d a b 7#5 t x
  | .vfcle d a b t x => fr 22#6 d a b 8#5 t x
  | .vfcun d a b t x => fr 22#6 d a b 9#5 t x
  | .pand d a b => fr 23#6 d a b 0#5 0#2 0#1
  | .por d a b => fr 23#6 d a b 1#5 0#2 0#1
  | .pxor d a b => fr 23#6 d a b 2#5 0#2 0#1
  | .pandn d a b => fr 23#6 d a b 3#5 0#2 0#1
  | .pnot d a => fr 23#6 d a 0#6 4#5 0#2 0#1
  | .psbf d a => fr 23#6 d a 0#6 5#5 0#2 0#1
  | .psif d a => fr 23#6 d a 0#6 6#5 0#2 0#1
  | .psof d a => fr 23#6 d a 0#6 7#5 0#2 0#1
  | .pcnt d a => fr 23#6 d a 0#6 8#5 0#2 0#1
  | .pfirst d a => fr 23#6 d a 0#6 9#5 0#2 0#1
  | .pset d => fr 23#6 d 0#6 0#6 10#5 0#2 0#1
  | .pclr d => fr 23#6 d 0#6 0#6 11#5 0#2 0#1
  | .pfromx d a k => fr 23#6 d a (0#4 ++ k) 12#5 0#2 0#1
  | .ptox d a k => fr 23#6 d a (0#4 ++ k) 13#5 0#2 0#1
  | .vcompress d a t => fr 24#6 d a 0#6 0#5 t 0#1
  | .vexpand d a t => fr 24#6 d a 0#6 1#5 t 0#1
  | .vslideup d a b t x => fr 24#6 d a b 2#5 t x
  | .vslidedn d a b t x => fr 24#6 d a b 3#5 t x
  | .vpermx d a b t => fr 24#6 d a b 4#5 t 0#1
  | .vbcast d a k t => fr 24#6 d a k 5#5 t 0#1
  | .vextx d a b t => fr 24#6 d a b 6#5 t 0#1
  | .vinsx d a b t => fr 24#6 d a b 7#5 t 0#1
  | .viota d a b t => fr 24#6 d a b 8#5 t 0#1
  | .vmov d a t => fr 24#6 d a 0#6 9#5 t 0#1
  | .vzip d a b t => fr 24#6 d a b 10#5 t 0#1
  | .vunzip d a b t => fr 24#6 d a b 11#5 t 0#1
  | .vld d b w s h => fv 25#6 d b 0#6 0#3 w s h
  | .vlds d b w s h => fv 25#6 d b 0#6 1#3 w s h
  | .vldx d b i w s h => fv 25#6 d b i 2#3 w s h
  | .vldff d b w s h => fv 25#6 d b 0#6 3#3 w s h
  | .vldb d b w s h => fv 25#6 d b 0#6 4#3 w s h
  | .vst d b w s h => fv 26#6 d b 0#6 0#3 w s h
  | .vsts d b w s h => fv 26#6 d b 0#6 1#3 w s h
  | .vstx d b i w s h => fv 26#6 d b i 2#3 w s h
  | .vstxr d b i w s h => fv 26#6 d b i 3#3 w s h
  | .setvl d a t => fr 27#6 d a 0#6 0#5 t 0#1
  | .setvli d i t => fr 27#6 d (i.extractLsb' 6 6) (i.extractLsb' 0 6) 1#5 t 0#1
  | .setms a m => fr 27#6 0#6 a (0#5 ++ m) 2#5 0#2 0#1
  | .setst a => fr 27#6 0#6 a 0#6 3#5 0#2 0#1
  | .scput d a t => fr 27#6 d a 0#6 4#5 t 0#1
  | .sctake d t => fr 27#6 d 0#6 0#6 5#5 t 0#1
  | .scflush d => fr 27#6 d 0#6 0#6 6#5 0#2 0#1
  | .scstat d => fr 27#6 d 0#6 0#6 7#5 0#2 0#1
  | .ten d c b => fr 28#6 d (0#3 ++ c) b 0#5 0#2 0#1
  | .tdis c => fr 28#6 0#6 (0#3 ++ c) 0#6 1#5 0#2 0#1
  | .tzero c => fr 28#6 0#6 (0#3 ++ c) 0#6 2#5 0#2 0#1
  | .tpred d c b => fr 28#6 d (0#3 ++ c) b 3#5 0#2 0#1
  | .tmovr d c b => fr 28#6 d (0#3 ++ c) b 4#5 0#2 0#1
  | .tmovc d c b => fr 28#6 d (0#3 ++ c) b 5#5 0#2 0#1
  | .tsetr c a b => fr 28#6 (0#3 ++ c) a b 6#5 0#2 0#1
  | .tsetc c a b => fr 28#6 (0#3 ++ c) a b 7#5 0#2 0#1
  | .tfold c e => fr 28#6 0#6 (0#3 ++ c) (0#3 ++ e) 8#5 0#2 0#1
  | .tdrain d c b t => fr 28#6 d (0#3 ++ c) b 9#5 t 0#1
  | .tfetch d a b => fr 28#6 d a b 10#5 0#2 0#1
  | .tscl c a => fr 28#6 (0#3 ++ c) a 0#6 11#5 0#2 0#1
  | .tstat d c s => fr 28#6 d (0#3 ++ c) (0#4 ++ s) 12#5 0#2 0#1
  | .top t a b r y n z => fx 29#6 t a b r 0#2 y n z
  | .tops t a b r y n z => fx 29#6 t a b r 1#2 y n z
  | .topl t b r y n z => fx 29#6 t 0#6 b r 2#2 y n z
  | .wmap d a b => fr 30#6 d a b 0#5 0#2 0#1
  | .wunmap v n => fr 30#6 0#6 0#6 (0#3 ++ v ++ n) 1#5 0#2 0#1
  | .wflush a n => fr 30#6 0#6 a (0#4 ++ n) 2#5 0#2 0#1
  | .winv a v n => fr 30#6 0#6 a (0#3 ++ v ++ n) 3#5 0#2 0#1
  | .wstat d v n => fr 30#6 d 0#6 (0#3 ++ v ++ n) 4#5 0#2 0#1
  | .wtouch a n => fr 30#6 0#6 a (0#4 ++ n) 5#5 0#2 0#1
  | .wkeep v n => fr 30#6 0#6 0#6 (0#3 ++ v ++ n) 6#5 0#2 0#1
  | .tkld d a s t z => fr 31#6 d a (0#4 ++ s) 0#5 t z
  | .tkldw d a s t z => fr 31#6 d a (0#4 ++ s) 1#5 t z
  | .tkldv d a s => fr 31#6 d a (0#4 ++ s) 2#5 0#2 0#1
  | .tkrd d a => fr 31#6 d a 0#6 3#5 0#2 0#1
  | .tkrdv d a => fr 31#6 d a 0#6 4#5 0#2 0#1
  | .tkrdq d a => fr 31#6 d a 0#6 5#5 0#2 0#1
  | .tktest d a => fr 31#6 d a 0#6 6#5 0#2 0#1
  | .tkdrop d a => fr 31#6 d a 0#6 7#5 0#2 0#1
  | .pqry d a => fr 32#6 d a 0#6 0#5 0#2 0#1
  | .phint a c => fr 32#6 0#6 a c 1#5 0#2 0#1
  | .plogq d a => fr 32#6 d a 0#6 2#5 0#2 0#1
  | .pfetch d a => fr 32#6 d a 0#6 3#5 0#2 0#1
  | .pmigr d a b => fr 32#6 d a b 4#5 0#2 0#1
  | .pnqpop d => fr 32#6 d 0#6 0#6 5#5 0#2 0#1
  | .pkeep d a b => fr 32#6 d a b 6#5 0#2 0#1
  | .atmAdd d a b o c => fa 33#6 d a b 0#4 o c
  | .atmMin d a b o c => fa 33#6 d a b 1#4 o c
  | .atmMax d a b o c => fa 33#6 d a b 2#4 o c
  | .atmMinn d a b o c => fa 33#6 d a b 3#4 o c
  | .atmMaxn d a b o c => fa 33#6 d a b 4#4 o c
  | .atmAnd d a b o c => fa 33#6 d a b 5#4 o c
  | .atmOr d a b o c => fa 33#6 d a b 6#4 o c
  | .atmXor d a b o c => fa 33#6 d a b 7#4 o c
  | .atmSwp d a b o c => fa 33#6 d a b 8#4 o c
  | .atmFadd d a b o c => fa 33#6 d a b 9#4 o c
  | .atmFaddh d a b o c => fa 33#6 d a b 10#4 o c
  | .atmCas d a b o c => fa 33#6 d a b 11#4 o c
  | .redAdd32 a b o c => fa 33#6 0#6 a b 0#4 o c
  | .redMin32 a b o c => fa 33#6 0#6 a b 1#4 o c
  | .redMax32 a b o c => fa 33#6 0#6 a b 2#4 o c
  | .redMinn32 a b o c => fa 33#6 0#6 a b 3#4 o c
  | .redMaxn32 a b o c => fa 33#6 0#6 a b 4#4 o c
  | .redAnd32 a b o c => fa 33#6 0#6 a b 5#4 o c
  | .redOr32 a b o c => fa 33#6 0#6 a b 6#4 o c
  | .redXor32 a b o c => fa 33#6 0#6 a b 7#4 o c
  | .redFadd32 a b o c => fa 33#6 0#6 a b 9#4 o c
  | .redFaddh32 a b o c => fa 33#6 0#6 a b 10#4 o c
  | .atmdAdd d a b o c => fa 34#6 d a b 0#4 o c
  | .atmdMin d a b o c => fa 34#6 d a b 1#4 o c
  | .atmdMax d a b o c => fa 34#6 d a b 2#4 o c
  | .atmdMinn d a b o c => fa 34#6 d a b 3#4 o c
  | .atmdMaxn d a b o c => fa 34#6 d a b 4#4 o c
  | .atmdAnd d a b o c => fa 34#6 d a b 5#4 o c
  | .atmdOr d a b o c => fa 34#6 d a b 6#4 o c
  | .atmdXor d a b o c => fa 34#6 d a b 7#4 o c
  | .atmdSwp d a b o c => fa 34#6 d a b 8#4 o c
  | .atmdFadd d a b o c => fa 34#6 d a b 9#4 o c
  | .atmdCas d a b o c => fa 34#6 d a b 11#4 o c
  | .redAdd64 a b o c => fa 34#6 0#6 a b 0#4 o c
  | .redMin64 a b o c => fa 34#6 0#6 a b 1#4 o c
  | .redMax64 a b o c => fa 34#6 0#6 a b 2#4 o c
  | .redMinn64 a b o c => fa 34#6 0#6 a b 3#4 o c
  | .redMaxn64 a b o c => fa 34#6 0#6 a b 4#4 o c
  | .redAnd64 a b o c => fa 34#6 0#6 a b 5#4 o c
  | .redOr64 a b o c => fa 34#6 0#6 a b 6#4 o c
  | .redXor64 a b o c => fa 34#6 0#6 a b 7#4 o c
  | .redFadd64 a b o c => fa 34#6 0#6 a b 9#4 o c
  | .sbar m p k => fr 35#6 (0#2 ++ m) (0#4 ++ p) (0#4 ++ k) 0#5 0#2 0#1
  | .bari a b s => fr 35#6 0#6 a b 1#5 s 0#1
  | .barv d a s => fr 35#6 d a 0#6 2#5 s 0#1
  | .barw a b s => fr 35#6 0#6 a b 3#5 s 0#1
  | .barwt d a b s => fr 35#6 d a b 4#5 s 0#1
  | .waitv d a b s => fr 35#6 d a b 5#5 s 0#1
  | .accdecl k a b t => fr 35#6 (0#5 ++ k) a b 6#5 t 0#1
  | .vacc k a b => fr 35#6 (0#5 ++ k) a b 7#5 0#2 0#1
  | .accmerge d k => fr 35#6 d 0#6 (0#5 ++ k) 8#5 0#2 0#1
  | .accrel k => fr 35#6 0#6 0#6 (0#5 ++ k) 9#5 0#2 0#1
  | .estr d a => fr 36#6 d a 0#6 0#5 0#2 0#1
  | .epush a b => fr 36#6 0#6 a b 1#5 0#2 0#1
  | .epop d a => fr 36#6 d a 0#6 2#5 0#2 0#1
  | .ewm d a => fr 36#6 d a 0#6 3#5 0#2 0#1
  | .ewait a b => fr 36#6 0#6 a b 4#5 0#2 0#1
  | .echan d a b => fr 36#6 d a b 5#5 0#2 0#1
  | .egang d a b => fr 36#6 d a b 6#5 0#2 0#1
  | .ecancel d a => fr 36#6 d a 0#6 7#5 0#2 0#1
  | .estat d a => fr 36#6 d a 0#6 8#5 0#2 0#1
  | .uien d a => fr 36#6 d a 0#6 9#5 0#2 0#1
  | .uiret => fr 36#6 0#6 0#6 0#6 10#5 0#2 0#1
  | .svc c => fr 37#6 0#6 0#6 c 0#5 0#2 0#1
  | .brk c => fr 37#6 0#6 0#6 c 1#5 0#2 0#1
  | .rett => fr 37#6 0#6 0#6 0#6 2#5 0#2 0#1
  | .wfi d => fr 37#6 d 0#6 0#6 3#5 0#2 0#1
  | .tlbinv d a b => fr 37#6 d a b 4#5 0#2 0#1
  | .ctxsv d a => fr 37#6 d a 0#6 5#5 0#2 0#1
  | .ctxld d a b => fr 37#6 d a b 6#5 0#2 0#1
  | .lnpurge d a => fr 37#6 d a 0#6 7#5 0#2 0#1
  | .tmark a c => fr 38#6 0#6 a c 0#5 0#2 0#1
  | .tcnt d s => fr 38#6 d 0#6 (0#3 ++ s) 1#5 0#2 0#1

/-- Whether an instruction has a word: the device events have none. -/
def Instr.encoded : Instr → Bool
  | .strandWake _ => false
  | .barwtDeadline _ => false
  | .userInterruptEntry _ => false
  | .migrationSearchExpiry _ => false
  | .migrationCoreFreed _ => false
  | .migrationCarryComplete _ => false
  | .creditReturn _ => false
  | .proactiveReturn _ => false
  | .naingOrderedMove _ _ => false
  | .preemptionSaveComplete _ => false
  | .homeRead _ _ => false
  | .homeOwn _ _ => false
  | .homeWriteBack _ _ _ => false
  | .cleanCopyDrop _ _ => false
  | .invalidatingSnoop _ _ => false
  | .forwardedRead _ _ => false
  | .goneResponse _ _ _ => false
  | .llcEviction _ => false
  | .guestCopyEviction _ _ => false
  | .shootdownRequest _ _ _ => false
  | .shootdownComplete _ _ => false
  | .parcelMigrationStart _ => false
  | .parcelMigrationComplete _ _ => false
  | .pendingLogAppend _ _ _ _ => false
  | .boothFill _ _ => false
  | .boothWaitAllocate _ => false
  | .boothClaim _ => false
  | .ticketDelivery _ => false
  | .ticketWithdrawal _ => false
  | .ticketExpiry _ _ => false
  | .queueFillArrival _ _ _ _ _ _ => false
  | .windowFill _ _ _ => false
  | .matrixPipeStep _ => false
  | .tileOpComplete _ => false
  | .tfetchSlotFill _ _ _ _ _ _ _ _ => false
  | .elementTrain _ _ _ _ _ => false
  | .trainAck _ _ _ _ => false
  | .reductionPerform _ => false
  | .reductionDrainExpiry _ => false
  | .commandStart _ _ => false
  | .engineElement _ _ => false
  | .rowComplete _ _ => false
  | .commandEnd _ _ => false
  | .stageBlockAnnounce _ _ _ => false
  | .stageBlockGrant _ _ _ => false
  | .stageBlockPull _ _ _ => false
  | .gangStripGrant _ _ _ => false
  | .contextTeardown _ => false
  | .launchRecordAccept _ => false
  | .dispatch _ => false
  | .starvationBoundExpiry _ => false
  | .launchCompletion _ => false
  | .gangAnnounceReceive _ _ => false
  | .gangTimeout _ => false
  | .gangAbortReceive _ => false
  | .traceSample _ => false
  | .replayHoldExpiry _ => false
  | .powerOnBringUp => false
  | .doorbell _ => false
  | .quoteRequest _ => false
  | .quoteReady => false
  | .evstatClear _ => false
  | .hostMemoryAccess _ _ _ _ => false
  | .hostSnoop _ => false
  | .hostLinkLoss _ => false
  | .thermalThrottle _ => false
  | .thermalShutdown _ => false
  | .powerCapThrottle _ => false
  | .uncorrectedError _ _ _ _ => false
  | .unitFence _ _ => false
  | .dcword7Commit _ => false
  | .keyLoad => false
  | .keyErase => false
  | .pwrcapWrite _ => false
  | .rplmodeWrite _ => false
  | .registerWrite _ _ _ => false
  | .correctedError _ => false
  | .powerLoss => false
  | .contextCreation _ => false
  | .naingParcelMigrationRequest _ _ _ => false
  | .reserveFrameSupply _ _ => false
  | .counterTableEntryFree _ _ => false
  | .resumptionMark _ => false
  | .naingLaunchEnd _ => false
  | .add _ _ _ _ _ => true
  | .sub _ _ _ _ _ => true
  | .mul _ _ _ _ _ => true
  | .mulh _ _ _ _ _ => true
  | .mulhn _ _ _ _ _ => true
  | .div _ _ _ _ _ => true
  | .divn _ _ _ _ _ => true
  | .rem _ _ _ _ _ => true
  | .remn _ _ _ _ _ => true
  | .and _ _ _ _ _ => true
  | .or _ _ _ _ _ => true
  | .xor _ _ _ _ _ => true
  | .andn _ _ _ _ _ => true
  | .sll _ _ _ _ _ => true
  | .srl _ _ _ _ _ => true
  | .sra _ _ _ _ _ => true
  | .slli _ _ _ _ _ => true
  | .srli _ _ _ _ _ => true
  | .srai _ _ _ _ _ => true
  | .min _ _ _ _ _ => true
  | .max _ _ _ _ _ => true
  | .minn _ _ _ _ _ => true
  | .maxn _ _ _ _ _ => true
  | .slt _ _ _ _ _ => true
  | .sltn _ _ _ _ _ => true
  | .seq _ _ _ _ _ => true
  | .clz _ _ _ _ => true
  | .ctz _ _ _ _ => true
  | .popc _ _ _ _ => true
  | .rotr _ _ _ _ _ => true
  | .brev _ _ _ _ => true
  | .bswap _ _ _ _ => true
  | .addi _ _ _ => true
  | .andi _ _ _ => true
  | .ori _ _ _ => true
  | .xori _ _ _ => true
  | .slti _ _ _ => true
  | .sltni _ _ _ => true
  | .lui _ _ => true
  | .auipc _ _ => true
  | .jal _ _ => true
  | .jalr _ _ _ => true
  | .beq _ _ _ => true
  | .bne _ _ _ => true
  | .blt _ _ _ => true
  | .bge _ _ _ => true
  | .bltn _ _ _ => true
  | .bgen _ _ _ => true
  | .bqt _ _ => true
  | .bqf _ _ => true
  | .ld _ _ _ _ _ _ _ => true
  | .ldz _ _ _ _ _ _ _ => true
  | .st _ _ _ _ _ _ _ => true
  | .fadd _ _ _ _ _ => true
  | .fsub _ _ _ _ _ => true
  | .fmul _ _ _ _ _ => true
  | .fmac _ _ _ _ _ => true
  | .fnmac _ _ _ _ _ => true
  | .fdiv _ _ _ _ _ => true
  | .fsqrt _ _ _ _ => true
  | .fmin _ _ _ _ _ => true
  | .fmax _ _ _ _ _ => true
  | .feq _ _ _ _ _ => true
  | .flt _ _ _ _ _ => true
  | .fle _ _ _ _ _ => true
  | .fclass _ _ _ _ => true
  | .fcvti _ _ _ _ _ _ => true
  | .fcvtf _ _ _ _ _ _ => true
  | .fcvtw _ _ _ _ _ _ => true
  | .fscpy _ _ _ _ _ => true
  | .fsneg _ _ _ _ _ => true
  | .fsxor _ _ _ _ _ => true
  | .csrrw _ _ _ => true
  | .csrrs _ _ _ => true
  | .csrrc _ _ _ => true
  | .csrr _ _ => true
  | .exit => true
  | .yield => true
  | .forkl _ _ => true
  | .joinl _ _ => true
  | .loop _ _ => true
  | .endloop _ => true
  | .lidx _ _ => true
  | .sidx _ _ => true
  | .hint _ => true
  | .migr _ _ => true
  | .qcfg _ _ => true
  | .qadv _ _ => true
  | .qcommit _ => true
  | .qfill _ _ => true
  | .qfree _ _ => true
  | .qreset _ => true
  | .qdrain _ => true
  | .xput _ _ => true
  | .fset _ => true
  | .fclr _ => true
  | .ftest _ _ => true
  | .vadd _ _ _ _ _ => true
  | .vsub _ _ _ _ _ => true
  | .vmul _ _ _ _ _ => true
  | .vmulh _ _ _ _ _ => true
  | .vmac _ _ _ _ _ => true
  | .vdiv _ _ _ _ _ => true
  | .vdivn _ _ _ _ _ => true
  | .vrem _ _ _ _ _ => true
  | .vmin _ _ _ _ _ => true
  | .vmax _ _ _ _ _ => true
  | .vminn _ _ _ _ _ => true
  | .vmaxn _ _ _ _ _ => true
  | .vand _ _ _ _ _ => true
  | .vor _ _ _ _ _ => true
  | .vxor _ _ _ _ _ => true
  | .vsll _ _ _ _ _ => true
  | .vsrl _ _ _ _ _ => true
  | .vsra _ _ _ _ _ => true
  | .vsadd _ _ _ _ _ => true
  | .vssub _ _ _ _ _ => true
  | .vabs _ _ _ => true
  | .vneg _ _ _ => true
  | .vredsum _ _ _ _ => true
  | .vredmin _ _ _ _ => true
  | .vredmax _ _ _ _ => true
  | .vfadd _ _ _ _ _ => true
  | .vfsub _ _ _ _ _ => true
  | .vfmul _ _ _ _ _ => true
  | .vfma _ _ _ _ _ => true
  | .vfnma _ _ _ _ _ => true
  | .vfdiv _ _ _ _ _ => true
  | .vfsqrt _ _ _ => true
  | .vfexp2 _ _ => true
  | .vflog2 _ _ => true
  | .vfmin _ _ _ _ _ => true
  | .vfmax _ _ _ _ _ => true
  | .vfabs _ _ _ => true
  | .vfneg _ _ _ => true
  | .vfcvt _ _ _ _ => true
  | .vfredo _ _ _ _ => true
  | .vfredt _ _ _ _ => true
  | .vfredmax _ _ _ _ => true
  | .vfredmin _ _ _ _ => true
  | .vfscale _ _ _ _ _ => true
  | .vceq _ _ _ _ _ => true
  | .vcne _ _ _ _ _ => true
  | .vclt _ _ _ _ _ => true
  | .vcle _ _ _ _ _ => true
  | .vcltn _ _ _ _ _ => true
  | .vclen _ _ _ _ _ => true
  | .vfceq _ _ _ _ _ => true
  | .vfclt _ _ _ _ _ => true
  | .vfcle _ _ _ _ _ => true
  | .vfcun _ _ _ _ _ => true
  | .pand _ _ _ => true
  | .por _ _ _ => true
  | .pxor _ _ _ => true
  | .pandn _ _ _ => true
  | .pnot _ _ => true
  | .psbf _ _ => true
  | .psif _ _ => true
  | .psof _ _ => true
  | .pcnt _ _ => true
  | .pfirst _ _ => true
  | .pset _ => true
  | .pclr _ => true
  | .pfromx _ _ _ => true
  | .ptox _ _ _ => true
  | .vcompress _ _ _ => true
  | .vexpand _ _ _ => true
  | .vslideup _ _ _ _ _ => true
  | .vslidedn _ _ _ _ _ => true
  | .vpermx _ _ _ _ => true
  | .vbcast _ _ _ _ => true
  | .vextx _ _ _ _ => true
  | .vinsx _ _ _ _ => true
  | .viota _ _ _ _ => true
  | .vmov _ _ _ => true
  | .vzip _ _ _ _ => true
  | .vunzip _ _ _ _ => true
  | .vld _ _ _ _ _ => true
  | .vlds _ _ _ _ _ => true
  | .vldx _ _ _ _ _ _ => true
  | .vldff _ _ _ _ _ => true
  | .vldb _ _ _ _ _ => true
  | .vst _ _ _ _ _ => true
  | .vsts _ _ _ _ _ => true
  | .vstx _ _ _ _ _ _ => true
  | .vstxr _ _ _ _ _ _ => true
  | .setvl _ _ _ => true
  | .setvli _ _ _ => true
  | .setms _ _ => true
  | .setst _ => true
  | .scput _ _ _ => true
  | .sctake _ _ => true
  | .scflush _ => true
  | .scstat _ => true
  | .ten _ _ _ => true
  | .tdis _ => true
  | .tzero _ => true
  | .tpred _ _ _ => true
  | .tmovr _ _ _ => true
  | .tmovc _ _ _ => true
  | .tsetr _ _ _ => true
  | .tsetc _ _ _ => true
  | .tfold _ _ => true
  | .tdrain _ _ _ _ => true
  | .tfetch _ _ _ => true
  | .tscl _ _ => true
  | .tstat _ _ _ => true
  | .top _ _ _ _ _ _ _ => true
  | .tops _ _ _ _ _ _ _ => true
  | .topl _ _ _ _ _ _ => true
  | .wmap _ _ _ => true
  | .wunmap _ _ => true
  | .wflush _ _ => true
  | .winv _ _ _ => true
  | .wstat _ _ _ => true
  | .wtouch _ _ => true
  | .wkeep _ _ => true
  | .tkld _ _ _ _ _ => true
  | .tkldw _ _ _ _ _ => true
  | .tkldv _ _ _ => true
  | .tkrd _ _ => true
  | .tkrdv _ _ => true
  | .tkrdq _ _ => true
  | .tktest _ _ => true
  | .tkdrop _ _ => true
  | .pqry _ _ => true
  | .phint _ _ => true
  | .plogq _ _ => true
  | .pfetch _ _ => true
  | .pmigr _ _ _ => true
  | .pnqpop _ => true
  | .pkeep _ _ _ => true
  | .atmAdd _ _ _ _ _ => true
  | .atmMin _ _ _ _ _ => true
  | .atmMax _ _ _ _ _ => true
  | .atmMinn _ _ _ _ _ => true
  | .atmMaxn _ _ _ _ _ => true
  | .atmAnd _ _ _ _ _ => true
  | .atmOr _ _ _ _ _ => true
  | .atmXor _ _ _ _ _ => true
  | .atmSwp _ _ _ _ _ => true
  | .atmFadd _ _ _ _ _ => true
  | .atmFaddh _ _ _ _ _ => true
  | .atmCas _ _ _ _ _ => true
  | .redAdd32 _ _ _ _ => true
  | .redMin32 _ _ _ _ => true
  | .redMax32 _ _ _ _ => true
  | .redMinn32 _ _ _ _ => true
  | .redMaxn32 _ _ _ _ => true
  | .redAnd32 _ _ _ _ => true
  | .redOr32 _ _ _ _ => true
  | .redXor32 _ _ _ _ => true
  | .redFadd32 _ _ _ _ => true
  | .redFaddh32 _ _ _ _ => true
  | .atmdAdd _ _ _ _ _ => true
  | .atmdMin _ _ _ _ _ => true
  | .atmdMax _ _ _ _ _ => true
  | .atmdMinn _ _ _ _ _ => true
  | .atmdMaxn _ _ _ _ _ => true
  | .atmdAnd _ _ _ _ _ => true
  | .atmdOr _ _ _ _ _ => true
  | .atmdXor _ _ _ _ _ => true
  | .atmdSwp _ _ _ _ _ => true
  | .atmdFadd _ _ _ _ _ => true
  | .atmdCas _ _ _ _ _ => true
  | .redAdd64 _ _ _ _ => true
  | .redMin64 _ _ _ _ => true
  | .redMax64 _ _ _ _ => true
  | .redMinn64 _ _ _ _ => true
  | .redMaxn64 _ _ _ _ => true
  | .redAnd64 _ _ _ _ => true
  | .redOr64 _ _ _ _ => true
  | .redXor64 _ _ _ _ => true
  | .redFadd64 _ _ _ _ => true
  | .sbar _ _ _ => true
  | .bari _ _ _ => true
  | .barv _ _ _ => true
  | .barw _ _ _ => true
  | .barwt _ _ _ _ => true
  | .waitv _ _ _ _ => true
  | .accdecl _ _ _ _ => true
  | .vacc _ _ _ => true
  | .accmerge _ _ => true
  | .accrel _ => true
  | .estr _ _ => true
  | .epush _ _ => true
  | .epop _ _ => true
  | .ewm _ _ => true
  | .ewait _ _ => true
  | .echan _ _ _ => true
  | .egang _ _ _ => true
  | .ecancel _ _ => true
  | .estat _ _ => true
  | .uien _ _ => true
  | .uiret => true
  | .svc _ => true
  | .brk _ => true
  | .rett => true
  | .wfi _ => true
  | .tlbinv _ _ _ => true
  | .ctxsv _ _ => true
  | .ctxld _ _ _ => true
  | .lnpurge _ _ => true
  | .tmark _ _ => true
  | .tcnt _ _ => true

/-- Little-endian assembly of bytes (R3). -/
def leNat : List Byte → Nat
  | [] => 0
  | b :: bs => b.toNat + 256 * leNat bs

/-- The low n bytes of a number, little-endian (R3). -/
def leBytes : Nat → Nat → List Byte
  | 0, _ => []
  | n + 1, v => BitVec.ofNat 8 v :: leBytes n (v / 256)

/-- Decode the instruction at the front of a byte stream: the instruction and the bytes after it (R28). -/
noncomputable def decodeBytes : List Byte → Except Illegal (Instr × List Byte)
  | b0 :: b1 :: b2 :: b3 :: rest =>
    match decode (BitVec.ofNat 32 (leNat [b0, b1, b2, b3])) with
    | .ok i => .ok (i, rest)
    | .error e => .error e
  | _ => .error .tooShort

/-- The instruction that the decoder reads from the table word w of nbits bits, laid out in memory order. -/
noncomputable def decodeTableWord (nbits w : Nat) : Option Instr :=
  match decodeBytes (leBytes 4 (w % 2 ^ nbits)) with
  | .ok (i, _) => some i
  | .error _ => none

end Sys2Proof
end

