-- ==== Sys2Proof/Machine/Tab.lean ====
section
/-! DEFINITION. Sparse tables: plain data keyed by a natural number, in one canonical form. Memory, register files and
the collections of the device are tables of this kind. -/

namespace Sys2Proof.Machine

/-- A sparse table: pairs of a key and a value, keys strictly rising, no value equal to the default. -/
abbrev Tab (α : Type) := List (Nat × α)

/-- The value at key k, the default d where the table lists none. -/
def Tab.get {α : Type} (d : α) : List (Nat × α) → Nat → α
  | [], _ => d
  | (k', v) :: t, k => if k' = k then v else Tab.get d t k

/-- The table without key k. -/
def Tab.erase {α : Type} : List (Nat × α) → Nat → List (Nat × α)
  | [], _ => []
  | (k', v) :: t, k => if k' = k then Tab.erase t k else (k', v) :: Tab.erase t k

/-- The table with the pair (k, v) put before the first greater key. -/
def Tab.insert {α : Type} : List (Nat × α) → Nat → α → List (Nat × α)
  | [], k, v => [(k, v)]
  | (k', v') :: t, k, v => if k < k' then (k, v) :: (k', v') :: t else (k', v') :: Tab.insert t k v

/-- The table with value v at key k, in canonical form: the default is not listed. -/
def Tab.set {α : Type} [DecidableEq α] (d : α) (t : List (Nat × α)) (k : Nat) (v : α) : List (Nat × α) :=
  if v = d then Tab.erase t k else Tab.insert (Tab.erase t k) k v

/-- Every key of the table is above the bound. -/
def Tab.above {α : Type} (b : Nat) : List (Nat × α) → Bool
  | [] => true
  | (k, _) :: t => decide (b < k) && Tab.above b t

/-- The canonical form: keys strictly rising and no value equal to the default. -/
def Tab.wf {α : Type} [DecidableEq α] (d : α) : List (Nat × α) → Bool
  | [] => true
  | (k, v) :: t => decide (v ≠ d) && Tab.above k t && Tab.wf d t

/-- The keys of a table, rising. -/
def Tab.keys {α : Type} (t : List (Nat × α)) : List Nat := t.map Prod.fst

end Sys2Proof.Machine
end

