-- ==== Sys2Proof/Machine/State.lean ====
section
/-! DEFINITION. The state of the whole device: strands, cores, base dies, contexts, memory and its directory, and the
module. INVENTORY.md lists every field with the rule that names it. -/

namespace Sys2Proof.Machine

/-- What a parked strand waits on (R103). -/
inductive Wait where
  /-- an empty source queue of the couple (R138) -/
  | queueData (q : Nat)
  /-- a full destination queue (R138) -/
  | queueSpace (q : Nat)
  /-- QDRAIN (R148) -/
  | queueDrain (q : Nat)
  /-- a synchronised read of a clear full bit (R34) -/
  | fullSet (r : Nat)
  /-- XPUT into a register whose full bit is set (R148) -/
  | fullClear (r : Nat)
  /-- a tile operation the strand issued (R202) -/
  | tile
  /-- a barrier: object address and phase to leave; for BARWT the deadline, field d and the scope (R302-R304) -/
  | barrier (va : Word) (phase : Nat) (deadline : Option (Nat × Nat × Nat))
  /-- WAITV: address and the value that does not satisfy it (R305) -/
  | value (va : Word) (v : Word)
  /-- a ticket that has been claimed and whose data is not ready, with the form (0 TKRD, 1 TKRDV) and field d (R282) -/
  | ticket (tk : Word) (kind : Nat) (d : Nat)
  /-- a redeem until a landing slot is free, with the form (2 TKRDQ) and field d (R282, R283) -/
  | landing (tk : Word) (kind : Nat) (d : Nat)
  /-- TKLDW until the strand's quota admits a ticket (R278) -/
  | quota
  /-- TKLDW until an entry is free (R277) -/
  | booth (slice : Nat)
  /-- a channel watermark (R322) -/
  | watermark (chan : Nat) (need : Nat)
  /-- EPUSH into a full input FIFO (R321) -/
  | epush (handle : Word)
  /-- EPOP from an empty output FIFO (R321) -/
  | epop (handle : Word)
  /-- EWAIT on a channel: the generation of the channel's configuration and the bytes asked for (R323) -/
  | ewait (chan gen need : Nat)
  /-- an event held by replay recording at a base die (R416) -/
  | replay (die : Nat)
  /-- until accesses of the strand's own have been performed (R106, R124, R178, R300, R318): a mask of element trains by
  stream (bits 0-3), tile fetches and ticketed reads by stream (bits 4-7), reductions (bit 8), everything that EXIT waits for (bit 9), redeems by stream (bits 10-13) -/
  | performed (mask : Nat)
  /-- KEYCTL until the accesses in flight under a key slot have completed (R424) -/
  | keySlot (k : Nat)
  /-- a vector register that a gang's strip will fill (R327) -/
  | gangReg (r : Nat)
  /-- JOINL of a live child (R109) -/
  | join (child : Nat)
  /-- EXIT with live children (R109) -/
  | children
  /-- MIGR or a class-missing trap while a core of these classes is sought, or a credit awaited (R110, R350) -/
  | migrate (classes : Nat) (credit : Bool)
  /-- WFI (R381) -/
  | event
  /-- a shootdown that TLBINV or PKEEP started, with field d and what it will write (R382, R231) -/
  | shootdown (die seq d : Nat) (v : Word)
  /-- until a parcel is unblocked or fetched: for the strand's own held stores, or to try again (R126, R227) -/
  | parcel (frame : Nat)
  /-- an operation held at its home, whose result is to be delivered (R220, R439) -/
  | held (frame : Nat)
  /-- CTXSV until the save completes, with field d (R384) -/
  | save (unit d : Nat)
  deriving DecidableEq, Repr

/-- The states of a strand (R93). -/
inductive Run where
  | ready
  | parked (w : Wait)
  | skipping
  | exited
  /-- stopped for a pre-emption, until its drains end (R374) -/
  | draining
  | migrating
  | saved
  | done
  deriving DecidableEq, Repr

/-- A hardware loop slot (R108). -/
structure LoopSlot where
  skip : Bool
  active : Bool
  start : Word
  count : Word
  index : Word
  deriving DecidableEq, Repr

/-- The loop slot at strand start (R108). -/
def LoopSlot.zero : LoopSlot := ⟨false, false, 0, 0, 0⟩

/-- A slot of a queue between H and F (R137, R142, R143). For a tile slot, pend lists the fill groups that have not
arrived (R204). -/
structure Slot where
  ready : Bool
  poison : Bool
  val : Vec
  pend : List Nat
  deriving DecidableEq, Repr

/-- A queue (R135-R139). F is h plus the number of slots, V is h plus the ready slots at the front. -/
structure Queue where
  /-- the low 32 bits of the configuration word, 0 when unconfigured -/
  cfg : BitVec 32
  /-- the head pointer H, modulo 2^16 -/
  h : Nat
  slots : List Slot
  /-- the commit mark, as a value of F -/
  mark : Option Nat
  /-- the model's own count of resets: a fill of an earlier generation is dropped (R148) -/
  gen : Nat
  deriving DecidableEq, Repr

/-- An unconfigured queue (R133). -/
def Queue.none : Queue := ⟨0, 0, [], .none, 0⟩

/-- A child that FORKL made and its parent has not joined (R109). -/
structure Child where
  uid : Nat
  token : Word
  /-- with d = x0 the child's lanes return when it exits -/
  auto : Bool
  deriving DecidableEq, Repr

/-- A window binding of a strand (R257). The valid and dirty bits of line j are entry j of the two tables. -/
structure Window where
  base : Word
  offset : Nat
  size : Nat
  /-- sharing class, coded as in R211 -/
  cls : Nat
  keep : Bool
  valid : Tab (BitVec 32)
  dirty : Tab (BitVec 32)
  /-- the physical line behind each filled window line, plus one -/
  phys : Tab Nat
  /-- the window lines whose translation was a 512 MiB leaf (R214) -/
  wide : Tab Bool
  /-- false after a move: the first touch re-translates the range (R270) -/
  bound : Bool
  deriving DecidableEq, Repr

/-- An accumulation span of a strand (R307). -/
structure Span where
  target : Word
  offset : Nat
  length : Nat
  count : Nat
  op : Nat
  /-- element width in bits -/
  w : Nat
  dropped : Nat
  /-- the TOUCHED bits that are set (R307) -/
  touched : Tab Bool
  deriving DecidableEq, Repr

/-- A tile accumulator of a strand (R186, R190). Row r, column c is cell 32 * r + c: an FP32 value in the low
32 bits, or a residue triple with c1 in bits 12..0, c2 in bits 25..13 and c3 in bits 39..26 (R83, R198). Scales not listed
are 0x7F00. -/
structure Acc where
  enabled : Bool
  fmt : Nat
  group : Nat
  cells : Tab (BitVec 40)
  rowMask : BitVec 64
  colMask : BitVec 32
  kcount : Nat
  kgrp : Nat
  rowScale : Tab (BitVec 16)
  colScale : Tab (BitVec 16)
  deriving DecidableEq, Repr

/-- A disabled accumulator. -/
def Acc.none : Acc := ⟨false, 0, 0, [], 0, 0, 0, 0, [], []⟩

/-- A user-interrupt completion record (R330). -/
structure Completion where
  handle : Word
  status : Nat
  tag : BitVec 32
  deriving DecidableEq, Repr

/-- The compaction buffer of SCPUT and SCTAKE (R179): element width in bits and the elements, oldest first. -/
structure Compaction where
  width : Nat
  elems : List Word
  deriving DecidableEq, Repr

/-- A TOP-family instruction (R193, R194): accumulator, source fields, repeat count less one, FX form and type, and the
bits n and z. -/
structure TopOp where
  acc : Nat
  a : Nat
  b : Nat
  rep : Nat
  form : Nat
  ty : Nat
  n : Bool
  z : Bool
  deriving DecidableEq, Repr

/-- The tile state of a strand outside its accumulators (R185, R186). -/
structure TileState where
  lty : Nat
  lcnt : Nat
  sat : Bool
  inf : Bool
  nan : Bool
  /-- the A latch: 16 rows (R186) -/
  latch : Tab Vec
  /-- the TOP-family instruction at the PC that waits for its next heads (R202) -/
  op : Option TopOp
  deriving DecidableEq, Repr

/-- No tile operation under way. -/
def TileState.zero : TileState := ⟨0, 0, false, false, false, [], none⟩

/-- The states of a booth entry (R274). -/
inductive BoothState where
  | free | pending | ready | claimed | redeemed | expired | dropped
  deriving DecidableEq, Repr

/-- A booth entry (R274). -/
structure Booth where
  st : BoothState
  gen : Nat
  ctx : Nat
  /-- a line ticket (R279) -/
  line : Bool
  /-- size in bytes -/
  size : Nat
  z : Bool
  /-- the strand that issued it, and the core from which it did (R236) -/
  issuer : Nat
  core : Nat
  time : Nat
  va : Word
  pa : Nat
  firmware : Bool
  data : BitVec 1024
  poison : Bool
  /-- the stream of the ticketed load, and its leaf at issue -/
  stream : Nat
  leaf : Word
  /-- the strand whose redeem is accepted, and its destination: none for a register, or a queue slot -/
  claimer : Nat
  dest : Option (Nat × Nat × Nat)
  /-- the data has arrived -/
  arrived : Bool
  /-- when it was released, for reallocation (R275) -/
  released : Nat
  deriving DecidableEq, Repr

/-- A Free booth entry. -/
def Booth.blank : Booth :=
  ⟨.free, 0, 0, false, 0, false, 0, 0, 0, 0, 0, false, 0, false, 0, 0, 0, none, false, 0⟩

/-- How far the instruction at a place has come that is interrupted part-way: the steps of a TOP-family instruction (R195), the
heads that a QADV has still to discard (R148), the slots that a TFETCH has allocated (R204) with its number among those of its core and
the lines that its other slots will read (R206), the request of a TKLDW that is past its checks (R278), whether an ACCMERGE has merged
positions (R368), and the object, the phase and the deadline of a BARWT that a trap or a move has interrupted, with whether the deadline
went by with the phase unchanged (R302). -/
structure Progress where
  pc : Word
  steps : Nat
  /-- how many, and whether one has been discarded -/
  heads : Option (Nat × Bool)
  slots : Nat
  fetch : Nat
  ahead : List (List Nat)
  request : Option Booth
  merged : Bool
  wait : Option (Word × Nat × Nat)
  late : Bool
  deriving DecidableEq, Repr

/-- No instruction is part-done. -/
def Progress.none : Progress := ⟨0, 0, .none, 0, 0, [], .none, false, .none, false⟩

/-- The counters that Carousel keeps for a strand or couple (R353, R360, R361). -/
structure Travel where
  credits : Nat
  /-- the times at which consumed credits return, rising -/
  returns : List Nat
  /-- bits 0 C, 1 V, 2 M (R349) -/
  allowed : Nat
  launchClass : Nat
  issued : Nat
  away : Nat
  emu : Nat
  mig : Nat
  deriving DecidableEq, Repr

/-- An instruction that is past its pipe's entry, with a begin record and results that are still to be written (R410). -/
structure OpenPipe where
  pipe : Nat
  tag : Nat
  pc : Word
  /-- what is still to be written: [0, owner, queue, slot, generation] a load into a queue slot, [1, stream] the trains of a scatter,
  [2, number] the groups of a TFETCH -/
  key : List Nat
  deriving DecidableEq, Repr

/-- The trace settings and counters of one strand (R403, R410, R413, R414, R415). -/
structure TraceState where
  admitted : Bool
  replay : Bool
  tag : Nat
  events : Nat
  counters : Tab Word
  waddr : Tab Word
  wctl : Tab Word
  /-- the event that the strand is parked on may be performed unrecorded: its hold has expired (R416) -/
  replayFree : Bool
  /-- the base die at whose place replay holds the strand's event, and since when (R416) -/
  heldAt : Option (Nat × Nat)
  /-- the clock of the last sample record, or of the placement (R412) -/
  sampled : Nat
  /-- the pipe of a begin record whose end record is not written yet (R410) -/
  pipe : Option Nat
  /-- the instructions that have completed and whose last result is not written yet, oldest first (R410) -/
  ends : List OpenPipe
  deriving DecidableEq, Repr

/-- One strand. -/
structure Strand where
  run : Run
  /-- the wait of a strand that is saved or carried in its parked or exited state (R94) -/
  resumeAs : Run
  /-- when the strand parked, for the counters of R413 -/
  parkedAt : Nat
  /-- firmware level (R44) -/
  firmware : Bool
  pc : Word
  /-- x1-x31, unlisted 0 (R112) -/
  x : Tab Word
  /-- full bits; bit 0 is not used (R114) -/
  full : BitVec 32
  v : Tab Vec
  p : Tab Pred
  vdirty : BitVec 32
  pdirty : BitVec 64
  /-- high-water marks of v0-v31 (R375) -/
  hwm : Tab Nat
  loops : Tab LoopSlot
  fcsr : Word
  vl : Word
  vms : Word
  vst : Word
  gvl : Nat
  vstart : Word
  /-- VDONE as the predicate of element bits (R158) -/
  vdone : Word
  srseed : Word
  scthr : Word
  strandId : Word
  troupeId : Word
  stageId : Word
  core : Nat
  slot : Nat
  ctx : Nat
  coupled : Bool
  /-- the uid of the partner of a couple -/
  partner : Nat
  /-- q0-q15, held by the access strand of a couple -/
  queues : Tab Queue
  /-- the part-done instruction of each level: 0 user, 1 firmware (R368) -/
  parts : Tab Progress
  tile : TileState
  /-- where the tile state of a strand off the M-cores stands in its save area, and its bytes there (R355, R377, R385) -/
  tileSave : Option (Word × List Byte)
  accs : Tab Acc
  /-- the size A of the allotment in bytes, and its bytes by offset (R254, R255) -/
  allotSize : Nat
  allot : Tab Byte
  windows : Tab Window
  spans : Tab (Option Span)
  compaction : Compaction
  uivec : Word
  uipc : Word
  uicause : Word
  uistat : Word
  completions : List Completion
  /-- the shadow bank of x24-x31, by register number, and its full bits (R331) -/
  shadow : Tab Word
  shadowFull : BitVec 32
  emuVec : Word
  travel : Travel
  ticketQuota : Nat
  tickets : Nat
  trapVec : Word
  trapCause : Word
  trapPc : Word
  trapVal : Word
  trapStat : Word
  saveBase : Word
  flogBase : Word
  trapScr : Tab Word
  bpAddr : Tab Word
  /-- RETT with BPSKIP: the next fetch at TRAPPC matches no breakpoint (R369) -/
  bpSkip : Bool
  /-- a cause-20 trap that has not been delivered: the launch tag (R370) -/
  async20 : Option Word
  trace : TraceState
  issued : Word
  /-- cycles accumulated before cycleFrom, and the clock at which counting on this core began (R15) -/
  cycleAcc : Nat
  cycleFrom : Nat
  parent : Option Nat
  children : List Child
  /-- the generations of FORKL tokens are per core; a launch, its loop indexes and trip counts (R108) -/
  launch : Nat
  levelIndex : Tab Nat
  levelTrip : Tab Nat
  /-- the port gangs that the strand has joined: base die, port, and the register that the gang's one strip will fill, or 32 when
  no register waits (R326, R327) -/
  gangs : List (Nat × Nat × Nat)
  /-- the configuration generation, plus one, of the channel that a parked EWAIT began to wait on (R323) -/
  waitGen : Nat
  /-- per stream, the element trains that have not been acknowledged (R178) -/
  trains : Tab Nat
  /-- the strand has resumed and acts as though it had issued an SBAR over all streams (R345) -/
  fence : Bool
  /-- words of the allotment that an uncorrected error has poisoned, by offset / 4 (R25) -/
  spoiled : Tab Bool
  deriving DecidableEq, Repr

/-- A cached translation (R214): whose tables, the leaf level, the virtual address above the leaf, and the leaf. -/
structure TlbEntry where
  firmware : Bool
  ctx : Nat
  level : Nat
  vpn : Nat
  leaf : Word
  deriving DecidableEq, Repr

/-- A copy of a line in a first-level cache or in a remote die's last-level cache (R239, R241, R243). -/
structure Copy where
  data : BitVec 1024
  dirty : BitVec 32
  /-- device time of the fill (R241) -/
  fill : Nat
  tracked : Bool
  /-- the copy is owned: it may take dirty words (R243) -/
  owned : Bool
  /-- a guest copy's sharers on its die, as core numbers (R244) -/
  sharers : List Nat
  deriving DecidableEq, Repr

/-- No copy. -/
def Copy.none : Copy := ⟨0, 0, 0, false, false, []⟩

/-- Kept window storage (R271). -/
structure Kept where
  ctx : Nat
  win : Window
  /-- the allotment bytes of the window -/
  bytes : Tab Byte
  /-- the strand it came from and its window index, while the strand lives -/
  uid : Nat
  idx : Nat
  /-- the effective tier of a KEEPW launch, if one made it (R399) -/
  tier : Option Nat
  deriving DecidableEq, Repr

/-- One core. -/
structure Core where
  fenced : Bool
  /-- generations of the slots, for FORKL tokens (R109) -/
  gens : Tab Nat
  /-- slots that Carousel or the dispatch unit has reserved, by strand (R92, R351) -/
  reserved : List Nat
  tlb : List TlbEntry
  copies : Tab Copy
  /-- the time of the last wide acquire, plus one; 0 when there was none (R241) -/
  ta : Nat
  kept : List Kept
  /-- TFETCH instructions issued on the core, which number the pins -/
  fetches : Nat
  /-- the pins, oldest first: the line and the TFETCH that holds it pinned (R206) -/
  pins : List (Nat × Nat)
  /-- landing slots in use, by strand (R283) -/
  landing : List Nat
  /-- the strands that wait for one, in the order of their redeems (R283) -/
  landers : List Nat
  /-- the strand that gave up its issue opportunity with YIELD, until another strand of the core issues (R107) -/
  yielded : Option Nat
  deriving DecidableEq, Repr

/-- A core at reset. -/
def Core.blank : Core := ⟨false, [], [], [], [], 0, [], 0, [], [], [], none⟩

/-- A line at its home (R237, R238). -/
structure Line where
  /-- 0 No copies, 1 Shared, 2 Owned, 3 Poisoned -/
  code : Nat
  /-- agent identifiers of the sharers or of the owner (R234) -/
  sharers : List Nat
  /-- held in the home's last-level cache -/
  cached : Bool
  /-- the key slot generation it was last written under (R424) -/
  key : Nat
  /-- written since the last-level cache took it from its memory (R217, R238) -/
  dirty : Bool
  deriving DecidableEq, Repr

/-- A line that nothing has touched. -/
def Line.blank : Line := ⟨0, [], false, 0, false⟩

/-- Where the result of a returning operation that is held at its home goes (R220, R439): the value that CAS compares, the register,
or the queue slot allocated for it, and the scope of an acquire. -/
structure HeldResult where
  cmp : Word
  d : Nat
  slot : Option (Nat × Nat × Nat)
  acquire : Option Nat
  deriving DecidableEq, Repr

/-- An operation of a pending log, or one held at its home (R220, R223) (DEDUCED, log entry 75). -/
structure LogEntry where
  seq : Nat
  op : Nat
  wd : Nat
  offset : Nat
  value : Word
  /-- the strand that issued it (R126) -/
  issuer : Nat
  ret : Option HeldResult
  deriving DecidableEq, Repr

/-- What the device keeps about a parcel frame (R217-R227). -/
structure Parcel where
  /-- the access counter, whether it is counted, and whether kind 1 was notified (R217) -/
  count : Nat
  counted : Bool
  notified : Bool
  /-- the merge flag of the log index (R225) -/
  merge : Bool
  log : List LogEntry
  held : List LogEntry
  /-- write-block (R219) -/
  blocked : Bool
  /-- a migration of the parcel is queued or running (R230) -/
  migrating : Bool
  /-- the frame that has taken this one's place, until the migration's last shootdown completes (R216, R219) -/
  moved : Option Nat
  /-- the context and virtual address under which it was last counted or logged, for notifications (R218) -/
  ctx : Nat
  va : Word
  deriving DecidableEq, Repr

/-- A parcel frame at reset. -/
def Parcel.blank : Parcel := ⟨0, false, false, false, [], [], false, false, none, 0, 0⟩

/-- A migration that an engine has accepted (R219). -/
structure Migration where
  ctx : Nat
  va : Word
  frame : Nat
  target : Nat
  /-- the new frame, once running -/
  dest : Nat
  /-- 0 queued, 1 the first shootdown is under way, 2 the new frame is published and the second is under way -/
  phase : Nat
  /-- the number of that shootdown -/
  seq : Nat
  forced : Bool
  /-- the parcel is mapped by Naing's own tables (R366) -/
  firmware : Bool
  deriving DecidableEq, Repr

/-- A shootdown in progress (R215): which translations, and the agents that have not acknowledged. -/
structure Shootdown where
  seq : Nat
  all : Bool
  global : Bool
  ctx : Nat
  va : Word
  pending : List Nat
  deriving DecidableEq, Repr

/-- The states of a command table entry (R311). -/
inductive CmdState where
  | free | queued | running | done | cancelled | failed
  deriving DecidableEq, Repr

/-- A command table entry (R311, R313). -/
structure Command where
  st : CmdState
  gen : Nat
  ctx : Nat
  issuer : Nat
  /-- the core and slot of the issuer, for the fault log (R372) -/
  core : Nat
  slot : Nat
  launch : Nat
  stage : Nat
  /-- order of ESTR on the die -/
  order : Nat
  /-- the copy engine that runs it, 0 to 15 -/
  engine : Nat
  src : Word
  dst : Word
  counts : Word
  ss : List Word
  ds : List Word
  ctrl : Word
  tag : BitVec 32
  /-- elements performed, and which ones where the order is free (R315) -/
  count : Nat
  done : Tab Bool
  /-- per row, the elements performed; the rows completed (R319); those whose result element is still to enter the FIFO -/
  rowCount : Tab Nat
  rows : Nat
  finished : List Nat
  /-- the accumulator of an ordered scalar sum, once dst[0] has been read (R325) -/
  acc : Option Word
  input : List Word
  output : List Word
  pushes : Nat
  /-- the row base that an address push supplied (R314) -/
  rowBase : Word
  /-- bytes read for a port and not yet granted -/
  gather : List Byte
  /-- cancelled, or failed with the sub-cause -/
  stop : Bool
  sub : Nat
  /-- when it ended, for reallocation oldest first -/
  released : Nat
  deriving DecidableEq, Repr

/-- A Free command table entry. -/
def Command.blank : Command :=
  ⟨.free, 0, 0, 0, 0, 0, 0, 0, 0, 0, 0, 0, 0, [], [], 0, 0, 0, [], [], 0, [], none, [], [], 0, 0, [], false, 0, 0⟩

/-- A stage queue of a launch from one stage to another (R328, R329); for a scale-out port, launch 0 and the port number in
place of a stage (R428). -/
structure StageQueue where
  launch : Nat
  src : Nat
  dst : Nat
  /-- the sequence number of the next block that is announced -/
  seq : Nat
  /-- blocks announced, blocks granted, oldest first, and the bytes that have arrived -/
  announced : List (List Byte)
  granted : List (List Byte)
  arrived : List Byte
  deriving DecidableEq, Repr

/-- A channel of a context (R322). The counts list the counted writes of each byte by offset. -/
structure Channel where
  base : Word
  size : Nat
  group : Nat
  wm : Nat
  counts : Tab Nat
  /-- ordered-fold keys performed, by element address: the list of keys (R325) -/
  keys : Tab (List Nat)
  /-- how often the channel was configured -/
  gen : Nat
  /-- the lowest key of an ordered fold that has failed or been cancelled (R325) -/
  dead : Option Nat
  deriving DecidableEq, Repr

/-- An unconfigured channel. -/
def Channel.blank : Channel := ⟨0, 0, 0, 0, [], [], 0, none⟩

/-- A gang at a vector port (R326). -/
structure Gang where
  die : Nat
  port : Nat
  size : Nat
  vl : Word
  /-- the members and their targets -/
  members : List (Nat × Nat)
  complete : Bool
  strips : Nat
  /-- strips of granted blocks whose slots are allocated, oldest first: member, slot and generation (R329) -/
  ahead : List (List (Nat × Nat × Nat × Nat))
  deriving DecidableEq, Repr

/-- One base die. -/
structure Die where
  fenced : Bool
  guests : Tab Copy
  /-- the shared translation cache (R214) -/
  tlb : List TlbEntry
  shootSeq : Nat
  shoots : List Shootdown
  migrations : List Migration
  /-- the reserve of tier-0 frames, and the free frames of each tier that Naing has given or that have come back (R219, R227) -/
  reserve : List Nat
  frames : Tab (List Nat)
  logSeq : Nat
  logUse : Nat
  logWarned : Bool
  counterUse : Nat
  counterWarned : Bool
  booths : Tab Booth
  /-- requests of TKLDW waiting at a booth: slice, field d and the entry asked for, in arrival order (R278) -/
  boothWaits : List (Nat × Nat × Booth)
  cmds : Tab Command
  cmdOrder : Nat
  /-- the dispatch unit's credits per tier and N7 (R395) -/
  credit : Tab Int
  n7 : Nat
  /-- events held for space in a replay log: the event, since when, and whether the hold has expired (R416) -/
  replayHolds : List (Instr × Nat × Bool)
  deriving DecidableEq, Repr

/-- A base die at reset. -/
def Die.blank : Die := ⟨false, [], [], 0, [], [], [], [], 0, 0, false, 0, false, [], [], [], 0, [], 0, []⟩

/-- The trace and replay settings of a context (R404, R406, R407, R418). -/
structure TraceCtx where
  base : Word
  cb : Word
  size : Word
  filt : Word
  smp : Word
  drop : Nat
  /-- per quarter: records dropped since the last GAP -/
  gaps : Tab Nat
  /-- per quarter and source: whether a SYNC was written, and the clock of the last record -/
  last : Tab (Option Nat)
  /-- per quarter: the sources whose records were dropped since the last GAP -/
  dropped : Tab (List Nat)
  rplBase : Word
  rplCb : Word
  rplSize : Word
  rplMode : Word
  rplStat : Word
  /-- per quarter: the entry number at which playback stands (R417) -/
  rplPos : Tab Nat
  deriving DecidableEq, Repr

/-- Trace off. -/
def TraceCtx.blank : TraceCtx := ⟨0, 0, 0, 0, 0, 0, [], [], [], 0, 0, 0, 0, 0, []⟩

/-- One context (R210, R217, R218, R273, R287, R297, R311, R322, R352, R353, R372). -/
structure Context where
  live : Bool
  lost : Bool
  root : Nat
  ticketKey : BitVec 256
  lifetime : Nat
  orphans : Nat
  ringBase : Word
  ringCb : Word
  noteSeq : Nat
  noteLost : Bool
  policy : Option Nat
  threshold : Nat
  keepQuota : Nat
  keepUsed : Nat
  faultLog : Word
  faultSeq : Nat
  faultLost : Bool
  waitBound : Nat
  creditCap : Nat
  creditDelay : Nat
  drainBound : Nat
  engineShare : Nat
  gangTimeout : Nat
  channels : Tab Channel
  gangs : List Gang
  trace : TraceCtx
  /-- Naing has begun the teardown: when the drain bound passes (R297) -/
  closing : Option Nat
  deriving DecidableEq, Repr

/-- No context under this number. -/
def Context.blank : Context :=
  ⟨false, false, 0, 0, 1000000, 0, 0, 0, 0, false, none, 256, 0, 0, 0, 0, false, 20000, 4, 1000000, 100000, 64, 10000000,
   [], [], TraceCtx.blank, none⟩

/-- A launch queue's descriptor (R386) and the launch it is placing. -/
structure LaunchQueue where
  ring : Word
  cb : Word
  log2n : Nat
  tier : Nat
  ctx : Nat
  die : Nat
  /-- 0 Disabled, 1 Active, 2 Error -/
  state : Nat
  placing : Option Nat
  deriving DecidableEq, Repr

/-- A Disabled queue. -/
def LaunchQueue.blank : LaunchQueue := ⟨0, 0, 0, 0, 0, 0, 0, none⟩

/-- A launch (R389-R402). -/
structure Launch where
  queue : Nat
  ctx : Nat
  /-- the effective tier (R390) -/
  tier : Nat
  index : Nat
  /-- the record's 64 bytes as eight doublewords -/
  record : List Word
  /-- from the image header (R58): the entries, and the stack size -/
  coupled : Bool
  entryA : Word
  entryX : Word
  stack : Nat
  /-- the allowed set (R349) -/
  classes : Nat
  /-- the levels in use: kind, count, chunk (R58, R96) -/
  levels : List (Nat × Nat × Nat)
  /-- the queue declarations, and the windows declared: index, global base, binding word, keep (R59) -/
  queueDecls : List (BitVec 32)
  windowDecls : List (Nat × Word × Word × Bool)
  /-- the die of each stage (R398) -/
  dies : List Nat
  /-- troupes per stage, and how many of each stage are placed -/
  troupes : Nat
  placed : Tab Nat
  /-- when the launch became the candidate of its queue, and by die when the unit there last dispatched a candidate of the queue (R394) -/
  waitStart : Nat
  waits : Tab Nat
  /-- the dies that a co-resident launch has reserved, with the slots reserved on each core (R398) -/
  reserved : List (Nat × List (Nat × List Nat))
  running : Bool
  ended : Bool
  /-- the gang: tag, members, own index, timeout in ns, indices announced, the timer's deadline (R401, R402) -/
  tag : Word
  members : Nat
  self : Nat
  timeout : Nat
  announced : List Nat
  timer : Option Nat
  gangDead : Bool
  deriving DecidableEq, Repr

/-- No launch under this number. -/
def Launch.blank : Launch :=
  ⟨0, 0, 0, 0, [], false, 0, 0, 0, 0, [], [], [], [], 0, [], 0, [], [], false, true, 0, 0, 0, 0, [], none, false⟩

/-- A gang's member table: index, port and endpoint (R428). -/
structure Member where
  tag : Word
  index : Nat
  port : Nat
  endpoint : Nat
  deriving DecidableEq, Repr

/-- An announcement or an abort that the device has sent to a member of a gang (R401, R402, R428). -/
structure Message where
  port : Nat
  endpoint : Nat
  abort : Bool
  tag : Word
  index : Nat
  deriving DecidableEq, Repr

/-- A write-back in flight from an agent to a home (R247, R248). -/
structure WriteBack where
  agent : Nat
  line : Nat
  seq : Nat
  data : BitVec 1024
  dirty : BitVec 32
  deriving DecidableEq, Repr

/-- A unit that has been pre-empted (R374): its members, where its save area is, and whether Naing marked it. -/
structure SavedUnit where
  base : Word
  members : List Nat
  /-- the die the unit belongs to -/
  die : Nat
  marked : Bool
  since : Nat
  /-- the integrity tag of its save area -/
  tag : Word
  deriving DecidableEq, Repr

/-- A pre-emption in progress: the unit's strands and the strand that issued CTXSV, if it waits. -/
structure Preempt where
  members : List Nat
  /-- the strand and field d of the CTXSV -/
  waiter : Option (Nat × Nat)
  deriving DecidableEq, Repr

/-- A move of Carousel (R354), or a search for a core (R350). -/
structure Move where
  uid : Nat
  classes : Nat
  reason : Nat
  /-- when the search ends -/
  deadline : Nat
  /-- the target core and slots, once reserved -/
  target : Option (Nat × List Nat)
  since : Nat
  /-- field d of a MIGR, and the strand that issued it -/
  dest : Option Nat
  issuer : Nat
  /-- the word that took the class-missing trap, and the fields of it that name x registers (R358) -/
  word : InstrWord
  xfields : List Nat
  deriving DecidableEq, Repr

/-- The boot image in flash (R426), the fused values, and what the image makes of Naing's root table, handler and release
number. -/
structure Boot where
  image : List Byte
  /-- the fused digest of the public key -/
  digest : BitVec 256
  minSvn : Nat
  root : Nat
  vec : Word
  version : Word
  deriving DecidableEq, Repr

/-- The host-facing and power registers (R421, R422, R427, R429). -/
structure Module where
  bootStat : Nat
  fwVer : Word
  evStat : Word
  /-- the host has masked MSI-X vector 0, one is waiting to be unmasked, and those sent so far (R421) -/
  msixMasked : Bool
  msixPending : Bool
  msixSent : Nat
  dbVal : Word
  /-- a DOORBELL value that Naing has not read (R421) -/
  dbUnread : Bool
  /-- the data with which the host's last read completed (R430) -/
  hostData : Word
  qstat : Nat
  quotes : Nat
  nonce : BitVec 256
  quote : List Byte
  fenceMap : Tab Nat
  pwrCap : Nat
  /-- when PWRCAP was last written, if Naing has set a cap (R422) -/
  capSet : Option Nat
  throttle : Nat
  capReached : Bool
  tjMax : Nat
  keySel : Word
  keyData : Tab Word
  /-- key slots: the loaded key; an empty slot is not listed (R424) -/
  keys : Tab (Option (BitVec 512))
  /-- loads of each slot so far -/
  keyGens : Tab Nat
  dcqSel : Word
  dcWord : Tab (Option Word)
  trcSel : Word
  /-- firmware events pending for WFI (R381) -/
  events : Word
  /-- lines of tier 2 and 3 that the host has made present: base and size (R209) -/
  hostRanges : List (Nat × Nat)
  /-- Naing's root table (R366) and the handler address it gives new strands -/
  root : Nat
  vec : Word
  /-- Naing's orphan queue: context, address and FA function of each discarded reduction (R297) -/
  orphans : List (Nat × Word × Nat)
  corrected : Tab Nat
  weights : Tab Nat
  starvation : Nat
  memberTable : List Member
  /-- gang messages sent, oldest first, and announcements heard before a launch of their tag: tag and index (R401) -/
  sent : List Message
  heard : List (Word × Nat)
  ports : Tab Nat
  thermal : Bool
  step : Nat
  blend : Nat
  boot : Boot
  deriving DecidableEq, Repr

/-- The state of the machine. -/
structure State where
  /-- device time in units of 1/56 ns (R15) -/
  clock : Nat
  /-- the model's own counter of steps: it feeds the free values -/
  tick : Nat
  /-- the strand whose instruction is executed -/
  cur : Nat
  /-- the model's own name for the next strand -/
  nextUid : Nat
  strands : Tab Strand
  cores : Tab Core
  dies : Tab Die
  contexts : Tab Context
  mem : List Host.Cell
  lines : Tab Line
  parcels : Tab Parcel
  writeBacks : List WriteBack
  agentSeq : Tab Nat
  /-- lines that the host holds through CXL.cache or CXL.mem (R245) -/
  hostCopies : Tab Copy
  saved : List SavedUnit
  preempts : List Preempt
  moves : List Move
  stageQueues : List StageQueue
  queues : Tab LaunchQueue
  launches : Tab Launch
  nextLaunch : Nat
  module : Module
  /-- device events in flight, in the order of their arrival; the next step may be any of them -/
  agenda : List Instr
  deriving DecidableEq, Repr

/-- The ways the machine stops with a fault. -/
inductive Fault where
  /-- raised by no meaning: every trap of the device is a next state (R366), and the device has no state in which it
  stops for good; kept so that the type is inhabited; safe -/
  | stuck
  deriving DecidableEq, Repr

/-- The refusals. -/
inductive Refusal where
  /-- raised by Dispatch for an instruction that has no meaning yet; safe -/
  | notModelled (mnemonic : String)
  deriving DecidableEq, Repr

/-- A strand at strand start, before its place is set (R109, R112, R114, R154-R158, R375) (DESIGN CHOICE, log entry 2). -/
def Strand.blank : Strand where
  run := .done
  resumeAs := .ready
  parkedAt := 0
  firmware := false
  pc := 0
  x := []
  full := 0
  v := []
  p := []
  vdirty := 0
  pdirty := 0
  hwm := []
  loops := []
  fcsr := 0
  vl := 0
  vms := 0x40
  vst := 0
  gvl := 0
  vstart := 0
  vdone := 0
  srseed := 1
  scthr := 32
  strandId := 0
  troupeId := 0
  stageId := 0
  core := 0
  slot := 0
  ctx := 0
  coupled := false
  partner := 0
  queues := []
  parts := []
  tile := TileState.zero
  tileSave := none
  accs := []
  allotSize := 0
  allot := []
  windows := []
  spans := []
  compaction := ⟨0, []⟩
  uivec := 0
  uipc := 0
  uicause := 0
  uistat := 0
  completions := []
  shadow := []
  shadowFull := 0
  emuVec := 0
  travel := ⟨0, [], 0, 0, 0, 0, 0, 0⟩
  ticketQuota := 0
  tickets := 0
  trapVec := 0
  trapCause := 0
  trapPc := 0
  trapVal := 0
  trapStat := 0
  saveBase := 0
  flogBase := 0
  trapScr := []
  bpAddr := []
  bpSkip := false
  async20 := none
  trace := ⟨false, false, 0, 0, [], [], [], false, none, 0, none, []⟩
  issued := 0
  cycleAcc := 0
  cycleFrom := 0
  parent := none
  children := []
  launch := 0
  levelIndex := []
  levelTrip := []
  gangs := []
  waitGen := 0
  trains := []
  fence := false
  spoiled := []

/-- The module at reset (R13, R24, R395, R421, R422, R430): BOOTSTAT 0; blend A and stepping B0 are fused. The boot flash holds an
empty image and every fuse 0, so that bring-up from here ends at BOOTSTAT 4 (DESIGN CHOICE, log entry 2). -/
def Module.reset : Module where
  bootStat := 0
  fwVer := 0
  evStat := 0
  msixMasked := false
  msixPending := false
  msixSent := 0
  dbVal := 0
  dbUnread := false
  hostData := 0
  qstat := 0
  quotes := 0
  nonce := 0
  quote := []
  fenceMap := []
  pwrCap := 8000
  capSet := none
  throttle := 64
  capReached := false
  tjMax := 0
  keySel := 0
  keyData := []
  keys := []
  keyGens := []
  dcqSel := 0
  dcWord := []
  trcSel := 0
  events := 0
  hostRanges := []
  root := 0
  vec := 0
  orphans := []
  corrected := []
  weights := [(0, 128), (1, 64), (2, 32), (3, 16), (4, 8), (5, 4), (6, 2), (7, 1)]
  starvation := 10000000
  memberTable := []
  sent := []
  heard := []
  ports := []
  thermal := false
  step := 0xB0
  blend := 0x0A
  boot := ⟨[], 0, 0, 0, 0, 0⟩

/-- The machine right after reset: nothing resident, memory lists nothing, BOOTSTAT 0 (R430). -/
def State.reset : State where
  clock := 0
  tick := 0
  cur := 0
  nextUid := 1
  strands := []
  cores := []
  dies := []
  contexts := []
  mem := []
  lines := []
  parcels := []
  writeBacks := []
  agentSeq := []
  hostCopies := []
  saved := []
  preempts := []
  moves := []
  stageQueues := []
  queues := []
  launches := []
  nextLaunch := 1
  module := Module.reset
  agenda := []

end Sys2Proof.Machine
end

