-- ==== Sys2Proof/Machine/Device.lean ====
section
/-! DEFINITION. The parts of the device and where they stand (R8-R15, R20, R92), and access to the tables of State. -/

namespace Sys2Proof.Machine

/-! Blends (R11), core numbers (R12) and classes (R9). -/

/-- C-, V- and M-dies per base die of a blend (R11). -/
def blendDies (blend : Nat) : Nat × Nat × Nat :=
  if blend = 0x0B then (1, 2, 1) else if blend = 0x0D then (1, 3, 0) else (1, 1, 2)

/-- Cores per base die: 8 on a C-die, 48 on a V-die, 192 on an M-die (R9, R11). -/
def coresPerDie (blend : Nat) : Nat :=
  let (c, v, m) := blendDies blend
  8 * c + 48 * v + 192 * m

/-- CLASSID of the core with local index l (R9, R12): 0 C, 1 V, 2 M. -/
def classOfLocal (blend l : Nat) : Nat :=
  let (c, v, _) := blendDies blend
  if l < 8 * c then 0 else if l < 8 * c + 48 * v then 1 else 2

/-- The base die of a core number (R12). -/
def dieOf (s : State) (core : Nat) : Nat := core / coresPerDie s.module.blend

/-- The class of a core number (R12). -/
def classOf (s : State) (core : Nat) : Nat :=
  classOfLocal s.module.blend (core % coresPerDie s.module.blend)

/-- Strand slots of a core (R9, R92). -/
def slotsOfClass (cls : Nat) : Nat := if cls = 0 then 2 else if cls = 1 then 8 else 4

/-- Allotable scratchpad in bytes (R253). -/
def allotable (cls : Nat) : Nat := if cls = 0 then 240 * 1024 else 496 * 1024

/-- The core numbers of a base die, ascending, of one class. -/
def coresOf (s : State) (die cls : Nat) : List Nat :=
  let n := coresPerDie s.module.blend
  (List.range n).filterMap fun l => if classOfLocal s.module.blend l = cls then some (die * n + l) else none

/-- One cycle of a core's clock in units of 1/56 ns: 2.8 GHz on a C-core, else 1.6 GHz (R15). -/
def cycleUnits (cls : Nat) : Nat := if cls = 0 then 20 else 35

/-- Device time in ns (R15). -/
def State.time (s : State) : Nat := s.clock / 56

/-! The tables. -/

/-- The strand named u. -/
def State.strand (s : State) (u : Nat) : Strand := Tab.get Strand.blank s.strands u

/-- The state with strand u replaced. -/
def State.setStrand (s : State) (u : Nat) (t : Strand) : State :=
  { s with strands := Tab.set Strand.blank s.strands u t }

/-- The state with strand u changed. -/
def State.updStrand (s : State) (u : Nat) (f : Strand → Strand) : State := s.setStrand u (f (s.strand u))

/-- The strand whose instruction is executed. -/
def State.me (s : State) : Strand := s.strand s.cur

/-- The state with the executing strand changed. -/
def State.updMe (s : State) (f : Strand → Strand) : State := s.updStrand s.cur f

/-- The core with this number. -/
def State.core (s : State) (c : Nat) : Core := Tab.get Core.blank s.cores c

/-- The state with a core changed. -/
def State.updCore (s : State) (c : Nat) (f : Core → Core) : State :=
  { s with cores := Tab.set Core.blank s.cores c (f (s.core c)) }

/-- The base die with this number. -/
def State.die (s : State) (d : Nat) : Die := Tab.get Die.blank s.dies d

/-- The state with a base die changed. -/
def State.updDie (s : State) (d : Nat) (f : Die → Die) : State :=
  { s with dies := Tab.set Die.blank s.dies d (f (s.die d)) }

/-- The context with this number. -/
def State.context (s : State) (c : Nat) : Context := Tab.get Context.blank s.contexts c

/-- The state with a context changed. -/
def State.updContext (s : State) (c : Nat) (f : Context → Context) : State :=
  { s with contexts := Tab.set Context.blank s.contexts c (f (s.context c)) }

/-- The home's state of a line, by line number (physical address / 128). -/
def State.line (s : State) (l : Nat) : Line := Tab.get Line.blank s.lines l

/-- The state with a line's home state changed. -/
def State.updLine (s : State) (l : Nat) (f : Line → Line) : State :=
  { s with lines := Tab.set Line.blank s.lines l (f (s.line l)) }

/-- The device's state of a parcel frame (physical address / 65536). -/
def State.parcel (s : State) (p : Nat) : Parcel := Tab.get Parcel.blank s.parcels p

/-- The state with a parcel frame changed. -/
def State.updParcel (s : State) (p : Nat) (f : Parcel → Parcel) : State :=
  { s with parcels := Tab.set Parcel.blank s.parcels p (f (s.parcel p)) }

/-- The module's registers changed. -/
def State.updModule (s : State) (f : Module → Module) : State := { s with module := f s.module }

/-- One more device event in flight. -/
def State.post (s : State) (e : Instr) : State := { s with agenda := s.agenda ++ [e] }

/-- Raise firmware event n of WFI (R381). -/
def State.raise (s : State) (n : Nat) : State :=
  s.updModule fun m => { m with events := m.events ||| BitVec.ofNat 64 (2 ^ n) }

/-- The strand that owns the queues, the allotment and the windows of a couple: the access strand (R95, R133, R254)
(DEDUCED, log entry 74). -/
def State.owner (s : State) (u : Nat) : Nat :=
  let t := s.strand u
  if t.coupled && t.strandId.getLsbD 15 then t.partner else u

/-- Whether a strand is the execute strand of a couple (R98). -/
def Strand.isExecute (t : Strand) : Bool := t.strandId.getLsbD 15

/-- The strand whose allotment a strand addresses: a FORKL child addresses its parent's (R254). -/
def State.allotOwner (s : State) (u : Nat) : Nat := allotUp s 8 (s.owner u)
where
  /-- At most eight members make a family: one per slot of a V-core. -/
  allotUp (s : State) : Nat → Nat → Nat
    | 0, u => u
    | n + 1, u => match (s.strand u).parent with
      | none => u
      | some p => allotUp s n (s.owner p)

/-- The members of a strand's couple (R95). -/
def State.couple (s : State) (u : Nat) : List Nat :=
  let t := s.strand u
  if t.coupled then [s.owner u, (s.strand (s.owner u)).partner] else [u]

/-- The strands that hold a slot of a core (R93); one that is being carried keeps its old slot until the carry ends
(R354). -/
def Run.holdsSlot : Run → Bool
  | .ready => true
  | .parked _ => true
  | .skipping => true
  | .exited => true
  | .draining => true
  | .migrating => true
  | .saved => false
  | .done => false

/-- Whether a strand is in one of the states of a resident strand that is not being carried (R93). -/
def Run.inPlay : Run → Bool
  | .ready => true
  | .parked _ => true
  | .skipping => true
  | .exited => true
  | _ => false

/-- Whether a strand is stopped for a pre-emption or a move, or saved (R93, R374). -/
def Run.away : Run → Bool
  | .draining => true
  | .migrating => true
  | .saved => true
  | _ => false

/-- The strands resident on a core. -/
def State.residents (s : State) (core : Nat) : List Nat :=
  (s.strands.filter fun p => p.2.core = core && p.2.run.holdsSlot).map Prod.fst

/-- The strand in a slot of a core. -/
def State.atSlot (s : State) (core slot : Nat) : Option Nat :=
  (s.strands.find? fun p => p.2.core = core && p.2.slot = slot && p.2.run.holdsSlot).map Prod.fst

/-- The free slots of a core, lowest first: neither held nor reserved (R92). -/
def State.freeSlots (s : State) (core : Nat) : List Nat :=
  (List.range (slotsOfClass (classOf s core))).filter fun k =>
    (s.atSlot core k).isNone && !((s.core core).reserved.contains k)

/-- A core's cycles since the strand was placed there (R15). -/
def State.cycles (s : State) (t : Strand) : Nat :=
  t.cycleAcc + (if t.run.holdsSlot ∧ t.run ≠ .migrating then (s.clock - t.cycleFrom) / cycleUnits (classOf s t.core) else 0)

/-- The root of a family: the topmost parent, or the access strand of its couple (R109, R374). -/
def State.familyRoot (s : State) (u : Nat) : Nat := go s 8 u
where
  /-- Parents are followed at most eight times. -/
  go (s : State) : Nat → Nat → Nat
    | 0, u => s.owner u
    | n + 1, u => match (s.strand (s.owner u)).parent with
      | none => s.owner u
      | some p => go s n p

/-- Whether a strand's run is not over. -/
def Run.live : Run → Bool
  | .done => false
  | _ => true

/-- The live members of the unit of a strand: itself, its couple, or its family (R373, R374). -/
def State.unit (s : State) (u : Nat) : List Nat :=
  let r := s.familyRoot u
  let fam := (s.strands.filter fun p => p.2.run.live && s.familyRoot p.1 = r).map Prod.fst
  let cpl := s.couple r
  cpl ++ fam.filter fun m => !cpl.contains m

/-- Whether a strand, or the other one of its couple, has live children or a parent (R109, R350). -/
def State.inFamily (s : State) (u : Nat) : Bool :=
  (s.couple u).any fun v =>
    let t := s.strand v
    t.parent.isSome || t.children.any fun c => (s.strand c.uid).run.live

end Sys2Proof.Machine
end

