-- ==== Sys2Proof/Machine/Memory.lean ====
section
/-! DEFINITION. Physical memory: the address map (R209), the homes of lines (R232), bytes at a physical address and the
word-granular dirty copies that lie over them (R243, R247). -/

namespace Sys2Proof.Machine

/-- What a byte of physical memory reads as when nothing has written it (DESIGN CHOICE, log entry 1). -/
def memDefault : Byte := 0

/-- One byte of physical memory. -/
def memByte (m : List Host.Cell) (a : Nat) : Byte := Tab.get memDefault m a

/-- Physical memory with one byte written. -/
def memSet (m : List Host.Cell) (a : Nat) (b : Byte) : List Host.Cell := Tab.set memDefault m a b

/-- The canonical form of physical memory. -/
abbrev Memory.wf (m : List Host.Cell) : Bool := Tab.wf memDefault m

/-- The n bytes at a physical address. -/
def memBytes (m : List Host.Cell) : Nat → Nat → List Byte
  | _, 0 => []
  | a, n + 1 => memByte m a :: memBytes m (a + 1) n

/-- Physical memory with bytes written from a physical address. -/
def memStore (m : List Host.Cell) : Nat → List Byte → List Host.Cell
  | _, [] => m
  | a, b :: bs => memStore (memSet m a b) (a + 1) bs

/-- The bytes in ascending order as a little-endian number (R3). -/
def leWord (n : Nat) (bs : List Byte) : BitVec n := BitVec.ofNat n (leNat bs)

/-! The address map (R209). -/

/-- The tier of a physical address: PA[51:48]. -/
def tierOf (pa : Nat) : Nat :=
  let r := pa / 2 ^ 48 % 16
  if r = 0 then 0 else if r = 1 then 1 else if r < 8 then 2 else 3

/-- The home base die of the parcel of a physical address. -/
def homeDie (pa : Nat) : Nat :=
  match tierOf pa with
  | 0 => pa / 2 ^ 38 % 4
  | 1 => pa / 2 ^ 39 % 4
  | _ => pa / 2 ^ 16 % 4

/-- The home slice of a line on its die: PA[11:7] XOR PA[20:16] (R232). -/
def homeSlice (pa : Nat) : Nat := (pa / 2 ^ 7 % 32) ^^^ (pa / 2 ^ 16 % 32)

/-- Whether memory stands behind a physical address. -/
def hasMemory (s : State) (pa : Nat) : Bool :=
  match tierOf pa with
  | 0 => pa / 2 ^ 40 % 2 ^ 8 = 0 && decide (pa % 2 ^ 38 < 0x3B8ACA0000)
  | 1 => pa / 2 ^ 41 % 2 ^ 7 = 0 && decide (pa % 2 ^ 39 < 0x7735940000)
  | _ => s.module.hostRanges.any fun r => decide (r.1 ≤ pa ∧ pa < r.1 + r.2)

/-- Whether a physical address lies in the pending-log store of a base die: the last 256 MiB of its HBM (R209, R223). -/
def inLogStore (pa : Nat) : Bool :=
  tierOf pa = 0 && pa / 2 ^ 40 % 2 ^ 8 = 0 && decide (0x3B8ACA0000 ≤ pa % 2 ^ 38) && decide (pa % 2 ^ 38 < 0x3B9ACA0000)

/-- Whether memory stands behind a physical address for a level: the log store is there for Naing alone (R209, R223). -/
def hasMemoryFor (s : State) (firmware : Bool) (pa : Nat) : Bool := hasMemory s pa || (firmware && inLogStore pa)

/-- Whether the home base die of a physical address still serves its tier 0 and tier 1 (R27) (DEDUCED, log entry 80). -/
def reachable (s : State) (pa : Nat) : Bool := !(decide (tierOf pa < 2) && (s.die (homeDie pa)).fenced)

/-- Where a frame's byte lies while the frame's last shootdown is under way: its home answers for the frame that has taken its
place (R216, R219). -/
def State.movedPa (s : State) (pa : Nat) : Nat :=
  match (s.parcel (pa / 65536)).moved with
  | some g => g * 65536 + pa % 65536
  | none => pa

/-! Agents (R234). -/

/-- The identifier of a base die as a sharer of lines homed elsewhere. -/
def agentDie (d : Nat) : Nat := 0x4000 + d

/-- The identifier of the host bridge behind a link. -/
def agentHost (l : Nat) : Nat := 0x8000 + l

/-- The mark that stands for an agent in a sharer vector: one bit for every copy that the host holds, whichever link it
came by (R20, R237). -/
def sharerBit (a : Nat) : Nat := if 0x8000 ≤ a ∧ a < 0xC000 then agentHost 0 else a

/-- The identifier of a unit of a base die: 0-15 engines, 16 migration engine, 17-48 walkers, 49 Carousel. -/
def agentUnit (d u : Nat) : Nat := 0xC000 + d * 0x1000 + u

/-- Whether sequence number a of an agent is later than its sequence number b, both modulo 2^32 (R235). -/
def seqLater (a b : Nat) : Bool := a ≠ b && decide ((a + 2 ^ 32 - b) % 2 ^ 32 < 2 ^ 31)

/-- The agent's next request number (R235). -/
def nextRequest (s : State) (agent : Nat) : State :=
  { s with agentSeq := Tab.set 0 s.agentSeq agent ((Tab.get 0 s.agentSeq agent + 1) % 2 ^ 32) }

/-- An agent has issued n more requests (R235). -/
def countRequests (s : State) (agent n : Nat) : State :=
  { s with agentSeq := Tab.set 0 s.agentSeq agent ((Tab.get 0 s.agentSeq agent + n) % 2 ^ 32) }

/-! Words of a line. -/

/-- Merge the dirty words of src into dst, both 128-byte lines (R243). -/
def mergeWords (dst src : BitVec 1024) (dirty : BitVec 32) : BitVec 1024 :=
  go 32 dst
where
  /-- Word by word, from word n - 1 down. -/
  go : Nat → BitVec 1024 → BitVec 1024
    | 0, d => d
    | n + 1, d =>
      let m := BitVec.ofNat 1024 (0xFFFFFFFF * 2 ^ (32 * n))
      go n (if dirty.getLsbD n then (d &&& ~~~m) ||| (src &&& m) else d)

/-- The 128 bytes of a line as one number. -/
def lineData (m : List Host.Cell) (line : Nat) : BitVec 1024 := leWord 1024 (memBytes m (line * 128) 128)

/-- Memory with the dirty words of a line merged, byte by byte. -/
def memMerge (m : List Host.Cell) (line : Nat) (data : BitVec 1024) (dirty : BitVec 32) : List Host.Cell :=
  go 128 m
where
  /-- Byte by byte, from byte n - 1 down. -/
  go : Nat → List Host.Cell → List Host.Cell
    | 0, m => m
    | n + 1, m =>
      go n (if dirty.getLsbD (n / 4) then memSet m (line * 128 + n) (data.extractLsb' (8 * n) 8) else m)

/-- Bytes of a line, from offset o. -/
def lineBytes (d : BitVec 1024) (o n : Nat) : List Byte :=
  (List.range n).map fun i => d.extractLsb' (8 * (o + i)) 8

/-- A line with bytes written from offset o. -/
def lineStore (d : BitVec 1024) : Nat → List Byte → BitVec 1024
  | _, [] => d
  | o, b :: bs =>
    let m := BitVec.ofNat 1024 (0xFF * 2 ^ (8 * o))
    lineStore ((d &&& ~~~m) ||| (b.setWidth 1024 <<< (8 * o))) (o + 1) bs

/-- The mask of the words that n bytes from offset o touch. -/
def wordMask (o n : Nat) : BitVec 32 :=
  if n = 0 then 0 else BitVec.ofNat 32 ((2 ^ ((o + n - 1) / 4 + 1) - 1) / 2 ^ (o / 4) * 2 ^ (o / 4))

/-! Keys (R423, R424). -/

/-- The identity of the key that a slot holds now: slot and load number. -/
def keyId (s : State) (k : Nat) : Nat := k * 2 ^ 32 + Tab.get 0 s.module.keyGens k + 1

/-- A line is written under a key: what it held under another one decrypts to unrelated bytes (R424). -/
def keyLine (s : State) (line id : Nat) : State :=
  let k := (s.line line).key
  if k = id then s
  else
    let s := if k = 0 then s else
      { s with mem := memStore s.mem (line * 128) ((List.range 128).map fun i => Config.wrongKeyByte id (line * 128 + i)) }
    s.updLine line fun k => { k with key := id }

/-! What the homes see: the dirty words of a line's owner lie over memory until they are written back. -/

/-- The first-level copy of a line in a core. -/
def State.copyIn (s : State) (core line : Nat) : Option Copy :=
  let c := Tab.get Copy.none (s.core core).copies line
  if c = Copy.none then none else some c

/-- The guest copy of a line on a remote die. -/
def State.guestIn (s : State) (die line : Nat) : Option Copy :=
  let c := Tab.get Copy.none (s.die die).guests line
  if c = Copy.none then none else some c

/-- Set a core's first-level copy. -/
def State.setCopy (s : State) (core line : Nat) (c : Copy) : State :=
  s.updCore core fun k => { k with copies := Tab.set Copy.none k.copies line c }

/-- Set a die's guest copy. -/
def State.setGuest (s : State) (die line : Nat) (c : Copy) : State :=
  s.updDie die fun k => { k with guests := Tab.set Copy.none k.guests line c }

end Sys2Proof.Machine
end

