-- ==== Sys2Proof/Machine/Translate.lean ====
section
/-! DEFINITION. Page tables, their walk, and the translation caches (R208-R214). -/

namespace Sys2Proof.Machine

/-- A fault of an access: cause, sub-cause and the trap value (R213). -/
structure Trap where
  cause : Nat
  sub : Nat
  val : Word
  deriving DecidableEq, Repr

/-- A leaf found: its bits (R211) and the physical address of the access. -/
structure Leaf where
  bits : Word
  pa : Nat
  /-- where the leaf entry stands, for the migration engine and PKEEP -/
  entry : Nat
  level : Nat
  deriving DecidableEq, Repr

/-! Leaf fields (R211). -/

def Leaf.writable (l : Leaf) : Bool := l.bits.getLsbD 1
def Leaf.executable (l : Leaf) : Bool := l.bits.getLsbD 2
/-- 0 private, 1 read-only, 2 home, 3 tracked. -/
def Leaf.cls (l : Leaf) : Nat := (l.bits.extractLsb' 3 2).toNat
def Leaf.tier (l : Leaf) : Nat := (l.bits.extractLsb' 5 2).toNat
def Leaf.writeBlock (l : Leaf) : Bool := l.bits.getLsbD 7
def Leaf.logEnable (l : Leaf) : Bool := l.bits.getLsbD 8
def Leaf.counterEnable (l : Leaf) : Bool := l.bits.getLsbD 9
def Leaf.keepResident (l : Leaf) : Bool := l.bits.getLsbD 10
def Leaf.tracePin (l : Leaf) : Bool := l.bits.getLsbD 11
def Leaf.savePin (l : Leaf) : Bool := l.bits.getLsbD 12
def Leaf.keyIndex (l : Leaf) : Nat := (l.bits.extractLsb' 52 12).toNat
/-- The parcel frame of the access. -/
def Leaf.frame (l : Leaf) : Nat := l.pa / 65536

/-- A canonical address: bits [63:55] all equal bit 54 (R208). -/
def canonical (va : Word) : Bool :=
  let h := (va.extractLsb' 54 10).toNat
  h = 0 || h = 1023

/-- The local aperture (R208). -/
def apertureBase : Nat := 0x7FF000000000

/-- The offset of an address in the local aperture, if it lies there. -/
def apertureOffset (va : Word) : Option Nat :=
  if apertureBase ≤ va.toNat ∧ va.toNat < apertureBase + 0x100000 then some (va.toNat - apertureBase) else none

/-- The dirty words of a core's copies of a line: the first-level copy and its windows (R260). -/
def coreDirty (s : State) (core line : Nat) (d : BitVec 1024) : BitVec 1024 :=
  let d := match s.copyIn core line with
    | some c => mergeWords d c.data c.dirty
    | none => d
  (s.residents core).foldl (init := d) fun d u =>
    let t := s.strand u
    t.windows.foldl (init := d) fun d w =>
      w.2.phys.foldl (init := d) fun d jp =>
        if jp.2 = line + 1 then
          mergeWords d (leWord 1024 ((List.range 128).map fun i => Tab.get 0 t.allot (128 * (w.2.offset + jp.1) + i)))
            (Tab.get 0 w.2.dirty jp.1)
        else d

/-- The words an agent holds dirty, over the line's data. -/
def agentDirty (s : State) (agent line : Nat) (d : BitVec 1024) : BitVec 1024 :=
  if agent < 0x4000 then coreDirty s agent line d
  else if agent < 0x8000 then
    match s.guestIn (agent - 0x4000) line with
    | some g => g.sharers.foldl (init := mergeWords d g.data g.dirty) fun d c => coreDirty s c line d
    | none => d
  else
    let c := Tab.get Copy.none s.hostCopies line
    mergeWords d c.data c.dirty

/-- The line as its home would serve it: memory, the write-backs in flight and the owner's dirty words (R243, R248). -/
def coherentLine (s : State) (line : Nat) : BitVec 1024 :=
  let l := s.line line
  let d := s.writeBacks.foldl (init := lineData s.mem line) fun d w =>
    if w.line = line then mergeWords d w.data w.dirty else d
  l.sharers.foldl (init := d) fun d a => agentDirty s a line d

/-- n bytes at a physical address as the homes would serve them. -/
def coherentBytes (s : State) : Nat → Nat → List Byte
  | _, 0 => []
  | pa, n + 1 =>
    (if (s.line (pa / 128)).code = 2 || s.writeBacks.any (fun w => w.line = pa / 128) then
      (coherentLine s (pa / 128)).extractLsb' (8 * (pa % 128)) 8
    else memByte s.mem pa) :: coherentBytes s (pa + 1) n

/-- The index of a level: VA[54:42], VA[41:29], VA[28:16] (R210). -/
def tableIndex (va : Word) (level : Nat) : Nat :=
  if level = 3 then (va.extractLsb' 42 13).toNat
  else if level = 2 then (va.extractLsb' 29 13).toNat
  else (va.extractLsb' 16 13).toNat

/-- The frame of an entry as a physical address. -/
def entryFrame (e : Word) : Nat := (e.extractLsb' 16 36).toNat * 65536

/-- A malformed entry (R212). -/
def malformed (s : State) (e : Word) (level : Nat) : Bool :=
  let leaf := e.getLsbD 15
  let tier := (e.extractLsb' 5 2).toNat
  let cls := (e.extractLsb' 3 2).toNat
  if leaf then
    level = 3
      || (level = 2 && (e.extractLsb' 16 13) != 0)
      || (e.extractLsb' 13 2) != 0
      || tier != tierOf (entryFrame e)
      || (e.getLsbD 8 && (decide (2 ≤ tier) || cls != 2))
  else
    level = 1 || tierOf (entryFrame e) != 0 || !hasMemory s (entryFrame e)

/-- The walk of R210 from a table: the leaf, or the sub-cause of the translation fault. Three levels. Naing's tables reach the
log store too (R223). -/
def walkFrom (s : State) (firmware : Bool) (va : Word) : Nat → Nat → Except Nat Leaf
  | 0, _ => .error 2
  | level + 1, t =>
    let a := t + 8 * tableIndex va (level + 1)
    if (s.line (a / 128)).code = 3 || !reachable s a then .error 4
    else
      let e := leWord 64 (coherentBytes s a 8)
      if !e.getLsbD 0 then .error 1
      else if malformed s e (level + 1) then .error 2
      else if e.getLsbD 15 then
        let pa := if level + 1 = 1 then entryFrame e + va.toNat % 65536
          else (e.extractLsb' 29 23).toNat * 2 ^ 29 + va.toNat % 2 ^ 29
        if hasMemoryFor s firmware pa then .ok ⟨e, pa, a, level + 1⟩ else .error 3
      else walkFrom s firmware va level (entryFrame e)

/-- The root table of an access: Naing's at firmware level, else the context's (R210, R366). -/
def rootOf (s : State) (firmware : Bool) (ctx : Nat) : Nat :=
  if firmware then s.module.root else (s.context ctx).root

/-- Translate an address by a fresh walk (R208, R210). -/
def walk (s : State) (firmware : Bool) (ctx : Nat) (va : Word) : Except Trap Leaf :=
  if !canonical va then .error ⟨6, 0, va⟩
  else match walkFrom s firmware va 3 (rootOf s firmware ctx) with
    | .ok l => .ok l
    | .error n => .error ⟨6, n, va⟩

/-- The page number of an address at a leaf level. -/
def vpnOf (va : Word) (level : Nat) : Nat := if level = 2 then va.toNat / 2 ^ 29 else va.toNat / 2 ^ 16

/-- A cached translation of an address (R214). -/
def tlbFind (es : List TlbEntry) (firmware : Bool) (ctx : Nat) (va : Word) : Option TlbEntry :=
  es.find? fun e => e.firmware = firmware && (firmware || e.ctx = ctx) && vpnOf va e.level = e.vpn

/-- The leaf of a cached translation. -/
def TlbEntry.leafAt (e : TlbEntry) (va : Word) : Leaf :=
  { bits := e.leaf
    pa := if e.level = 2 then (e.leaf.extractLsb' 29 23).toNat * 2 ^ 29 + va.toNat % 2 ^ 29
      else entryFrame e.leaf + va.toNat % 65536
    entry := 0
    level := e.level }

/-- Capacities of a core's two translation caches, and of a base die's shared one (R214). -/
def tlbCapacity (shared : Bool) : Nat := if shared then 32768 else 2112

/-- Keep a leaf in a translation cache. -/
def tlbKeep (es : List TlbEntry) (shared : Bool) (e : TlbEntry) : List TlbEntry := (e :: es).take (tlbCapacity shared)

/-- The walker of a base die that a walk uses has read the entries down to a leaf of a level (R210, R214, R235): walkers are free
at once, so the first one takes every walk (DEDUCED, log entry 88). -/
def countWalk (s : State) (die level : Nat) : State := countRequests s (agentUnit die 17) (4 - level)

/-- The requests of the walk that has found a leaf, where it stood in no translation cache: a cached leaf names no entry. -/
def countLeaf (s : State) (die : Nat) (l : Leaf) : State := if l.entry = 0 then s else countWalk s die l.level

/-- A fresh walk for an access of a core, with its requests counted. -/
def freshWalk (s : State) (die : Nat) (firmware : Bool) (ctx : Nat) (va : Word) : Except Trap (Leaf × State) :=
  match walk s firmware ctx va with
  | .ok l => .ok (l, countWalk s die l.level)
  | .error t => .error t

/-- Translate through a core's translation caches, then its die's shared one, then by a walk that fills both (R214-R216). A
cached translation that is present is used, or the tables are walked afresh (R216; Config.useCached, DESIGN CHOICE, log entry 11).
A cached leaf that maps no memory at the address is walked again, so that the fault is a fresh walk's (R213, R214). -/
def translate (s : State) (core : Nat) (firmware : Bool) (ctx : Nat) (va : Word) : Except Trap (Leaf × State) :=
  if !canonical va then .error ⟨6, 0, va⟩
  else
    let die := dieOf s core
    let own := tlbFind (s.core core).tlb firmware ctx va
    let found := if own.isSome then own else tlbFind (s.die die).tlb firmware ctx va
    match found with
    | some e =>
      let l := e.leafAt va
      if Config.useCached s.tick && hasMemoryFor s firmware l.pa then
        .ok ({ l with pa := s.movedPa l.pa },
          if own.isSome then s else s.updCore core fun c => { c with tlb := tlbKeep c.tlb false e })
      else freshWalk s die firmware ctx va
    | none =>
      match freshWalk s die firmware ctx va with
      | .ok (l, s) =>
        let e : TlbEntry := ⟨firmware, ctx, l.level, vpnOf va l.level, l.bits⟩
        let s := s.updCore core fun c => { c with tlb := tlbKeep c.tlb false e }
        .ok (l, s.updDie die fun d => { d with tlb := tlbKeep d.tlb true e })
      | .error t => .error t

/-! Keys (R423, R424). -/

/-- Whether the slot of a leaf is empty, for the tiers that are encrypted (R424). -/
def keyEmpty (s : State) (l : Leaf) : Bool :=
  decide (tierOf l.pa < 2) && (Tab.get none s.module.keys l.keyIndex).isNone

/-- Bytes as they decrypt under a leaf's key: bytes of a line written under another key are unrelated (R424). A line that nothing has
written has no key, and reads as log entry 1 says. -/
def decrypted (s : State) (l : Leaf) (bs : List Byte) : List Byte :=
  if tierOf l.pa < 2 then
    bs.zipIdx.map fun (b, i) =>
      let k := (s.line ((l.pa + i) / 128)).key
      if k = 0 ∨ k = keyId s l.keyIndex then b else Config.wrongKeyByte (keyId s l.keyIndex) (l.pa + i)
  else bs

/-- The lines of n bytes take the key of the leaf that they are written through (R423). -/
def stampKey (s : State) (l : Leaf) (n : Nat) : State :=
  if tierOf l.pa < 2 then
    ((List.range ((l.pa % 128 + n + 127) / 128)).map fun i => l.pa / 128 + i).foldl (init := s) fun s x =>
      keyLine s x (keyId s l.keyIndex)
  else s

/-- What an access does, for its checks (R213). -/
inductive Kind where
  | load
  | store
  /-- an atomic or a reduction -/
  | atomic
  | fetch
  deriving DecidableEq, Repr

/-- The permission and class checks of a leaf (R29, R213), lowest sub-cause first. The log store is there for Naing's reads
alone (R209, R223). -/
def checkLeaf (k : Kind) (l : Leaf) (va : Word) : Option Trap :=
  let writes := k = .store || k = .atomic
  if k ≠ .load && inLogStore l.pa then some ⟨6, 3, va⟩
  else if writes && !l.writable then some ⟨7, 0, va⟩
  else if writes && l.cls = 1 then some ⟨7, 1, va⟩
  else if k = .fetch && !l.executable then some ⟨7, 2, va⟩
  else if k = .fetch && l.writable then some ⟨7, 3, va⟩
  else if l.tier = 3 && (l.cls = 0 || l.cls = 3) then some ⟨8, 1, va⟩
  else none

end Sys2Proof.Machine
end

