-- ==== Sys2Proof/Machine/Lines.lean ====
section
/-! DEFINITION. Lines and their homes: the transactions of R243-R252 and the copies of R239-R241. -/

namespace Sys2Proof.Machine

/-! What a snoop does to the copies of one core. -/

/-- The windows of a core that hold a line: strand, window index and window line (R260). -/
def windowLines (s : State) (core line : Nat) : List (Nat × Nat × Nat) :=
  (s.residents core).flatMap fun u =>
    (s.strand u).windows.flatMap fun w =>
      (w.2.phys.filter fun jp => jp.2 = line + 1).map fun jp => (u, w.1, jp.1)

/-- A window with the state of one line changed: valid bits, dirty bits. -/
def Window.setLine (w : Window) (j : Nat) (valid dirty : BitVec 32) : Window :=
  { w with
    valid := Tab.set 0 w.valid j valid
    dirty := Tab.set 0 w.dirty j dirty
    phys := if valid = 0 ∧ dirty = 0 then Tab.erase w.phys j else w.phys
    wide := if valid = 0 ∧ dirty = 0 then Tab.erase w.wide j else w.wide }

/-- The blank window binding. -/
def Window.blank : Window := ⟨0, 0, 0, 0, false, [], [], [], [], false⟩

/-- A window of a strand. -/
def Strand.window (t : Strand) (i : Nat) : Window := Tab.get Window.blank t.windows i

/-- A window of a strand, if bound. -/
def Strand.window? (t : Strand) (i : Nat) : Option Window :=
  if (t.windows.any fun w => w.1 = i) then some (t.window i) else none

/-- The strand with a window changed. -/
def Strand.updWindow (t : Strand) (i : Nat) (f : Window → Window) : Strand :=
  { t with windows := Tab.set Window.blank t.windows i (f (t.window i)) }

/-- Whether a group of a TFETCH is read through the first-level cache (R206, R242). -/
def groupCached (x : TrainElem) : Bool := (apertureOffset x.va).isNone && (x.leaf.extractLsb' 3 2).toNat != 2

/-- Whether a group shares the request of a lower one of its TFETCH (R242). -/
def groupAgain (x : TrainElem) : Bool := x.value.getLsbD 0

/-- The number of a group's TFETCH on its core. -/
def groupFetch (x : TrainElem) : Nat := x.value.toNat / 2

/-- Whether groups of a strand's TFETCH that lie in a line have still to be read: of its allocated slots, or of those that it has not
reached (R206). -/
def groupsLeft (s : State) (u fetch line : Nat) : Bool :=
  (s.agenda.any fun e => match e with
    | .tfetchSlotFill v _ _ _ _ _ _ x => v = u && groupCached x && groupFetch x = fetch && x.pa / 128 = line
    | _ => false)
  || (s.strand u).parts.any fun p => p.2.fetch = fetch && p.2.ahead.any fun ls => ls.contains line

/-- The pins of a core that are not released: some group of their TFETCH in the line has still to be read (R206). -/
def State.livePins (s : State) (core : Nat) : List (Nat × Nat) :=
  (s.core core).pins.filter fun p => (s.residents core).any fun u => groupsLeft s u p.2 p.1

/-- Whether a core holds a line pinned. -/
def State.pinned (s : State) (core line : Nat) : Bool := (s.livePins core).any fun p => p.1 = line

/-- Release a line's TFETCH pins on a core (R206). -/
def unpin (s : State) (core line : Nat) : State :=
  s.updCore core fun c => { c with pins := c.pins.filter fun p => p.1 != line }

/-- A core answers an invalidating snoop: it loses its tracked copies of the line (R238, R243). -/
def coreDrop (s : State) (core line : Nat) : State :=
  let s := s.setCopy core line Copy.none
  let s := unpin s core line
  (windowLines s core line).foldl (init := s) fun s (u, i, j) =>
    s.updStrand u fun t => t.updWindow i fun w => w.setLine j 0 0

/-- A core answers a forwarded read: it keeps a clean copy (R243). -/
def coreClean (s : State) (core line : Nat) : State :=
  let s := match s.copyIn core line with
    | some c => s.setCopy core line { c with dirty := 0, owned := false }
    | none => s
  (windowLines s core line).foldl (init := s) fun s (u, i, j) =>
    s.updStrand u fun t => t.updWindow i fun w => w.setLine j (Tab.get 0 w.valid j) 0

/-- The addresses at which a range enters each of its parcels, ascending. An address past the top of the address space is
not canonical. -/
def parcelStarts (g : Word) (n : Nat) : List Nat :=
  (List.range ((g.toNat % 65536 + n + 65535) / 65536)).map fun i => if i = 0 then g.toNat else g.toNat / 65536 * 65536 + i * 65536

/-- Whether the global range of a window of a context translates to a line (R257, R260). -/
def Window.maps (s : State) (ctx : Nat) (w : Window) (line : Nat) : Bool :=
  (parcelStarts w.base (128 * w.size)).any fun a =>
    match walk s false ctx (BitVec.ofNat 64 a) with
    | .error _ => false
    | .ok l =>
      let last := min (w.base.toNat + 128 * w.size) (a / 65536 * 65536 + 65536)
      decide (l.pa / 128 ≤ line) && decide (line < l.pa / 128 + (last - a) / 128)

/-- Whether a window bound on the core covers a line: then the core holds no first-level copy of it (R260). -/
def windowed (s : State) (core line : Nat) : Bool :=
  !(windowLines s core line).isEmpty || (s.residents core).any fun u =>
    (s.strand u).windows.any fun w => w.2.maps s (s.strand u).ctx line

/-- Whether a core holds any copy of the line. -/
def coreHolds (s : State) (core line : Nat) : Bool :=
  (s.copyIn core line).isSome || !(windowLines s core line).isEmpty

/-- A line that the last-level cache holds has been written there (R217, R238). -/
def markDirty (s : State) (line : Nat) : State :=
  if (s.line line).cached then s.updLine line fun k => { k with dirty := true } else s

/-- Whether an agent holds a copy of the line: one that has evicted it does not (R248). -/
def agentHolds (s : State) (agent line : Nat) : Bool :=
  if agent < 0x4000 then coreHolds s agent line
  else if agent < 0x8000 then (s.guestIn (agent - 0x4000) line).isSome
  else Tab.get Copy.none s.hostCopies line ≠ Copy.none

/-- Whether dirty words of a line have no key to be written under: its slot has been emptied (R424). -/
def keyGone (s : State) (line : Nat) : Bool :=
  (s.line line).key != 0 && (Tab.get none s.module.keys (((s.line line).key - 1) / 2 ^ 32)).isNone

/-- A line that is written again takes the key that its slot holds now (R423, R424). -/
def rekey (s : State) (line : Nat) : State :=
  if (s.line line).key = 0 then s else keyLine s line (keyId s (((s.line line).key - 1) / 2 ^ 32))

/-- Dirty words reach the home of a line: they are merged, or held while the parcel's write-block is set (R220, R243). They are
discarded where the key slot of the line is empty (R424). -/
def homeMerge (s : State) (line : Nat) (data : BitVec 1024) (dirty : BitVec 32) : State :=
  let pa := s.movedPa (line * 128)
  let f := pa / 65536
  if (s.parcel f).blocked then
    let words := (List.range 32).filter dirty.getLsbD
    s.updParcel f fun p => { p with held := p.held ++ words.zipIdx.map fun (i, k) =>
      ⟨p.held.length + k, 0, 2, pa % 65536 + 4 * i, (data.extractLsb' (32 * i) 32).setWidth 64, 0, none⟩ }
  else if keyGone s (pa / 128) then s
  else
    let s := markDirty (rekey s (pa / 128)) (pa / 128)
    { s with mem := memMerge s.mem (pa / 128) data dirty }

/-- The words of a line that an agent holds dirty: those that stand over any data. -/
def dirtyWords (s : State) (agent line : Nat) : BitVec 32 :=
  let lo := agentDirty s agent line 0
  let hi := agentDirty s agent line (BitVec.allOnes 1024)
  (List.range 32).foldl (init := 0) fun m i =>
    if lo.extractLsb' (32 * i) 32 = hi.extractLsb' (32 * i) 32 then m ||| BitVec.ofNat 32 (2 ^ i) else m

/-- An agent answers a snoop: its dirty words go to the home, and it drops the line or keeps it clean
(R243, R244, R247, R248: a write-back of the agent in flight is taken first). -/
def takeBack (s : State) (agent line : Nat) (drop : Bool) : State :=
  let mine := s.writeBacks.filter fun w => w.agent = agent && w.line = line
  let s := mine.foldl (init := s) fun s w => homeMerge s line w.data w.dirty
  let s := { s with writeBacks := s.writeBacks.filter fun w => !(w.agent = agent && w.line = line) }
  let m := dirtyWords s agent line
  let s := if m = 0 then s else homeMerge s line (agentDirty s agent line 0) m
  if agent < 0x4000 then (if drop then coreDrop s agent line else coreClean s agent line)
  else if agent < 0x8000 then
    let die := agent - 0x4000
    match s.guestIn die line with
    | none => s
    | some g =>
      let s := g.sharers.foldl (init := s) fun s c => if drop then coreDrop s c line else coreClean s c line
      s.setGuest die line (if drop then Copy.none
        else { g with data := lineData s.mem line, dirty := 0, owned := false })
  else
    let c := Tab.get Copy.none s.hostCopies line
    let c := if drop ∨ c = Copy.none then Copy.none else { c with dirty := 0, owned := false }
    { s with hostCopies := Tab.set Copy.none s.hostCopies line c }

/-- Recall every copy of a line from its sharers (R238, R243). -/
def recallAll (s : State) (line : Nat) : State :=
  let l := s.line line
  let s := l.sharers.foldl (init := s) fun s a => takeBack s a line true
  s.updLine line fun l => if l.code = 3 then l else { l with code := 0, sharers := [] }

/-- The home serves a write-back of dirty words: it merges them, and an owner's line has no copies afterwards
(R243, R247). -/
def serveWriteBack (s : State) (agent line : Nat) (data : BitVec 1024) (dirty : BitVec 32) : State :=
  let agent := sharerBit agent
  let s := homeMerge s line data dirty
  s.updLine line fun k =>
    if k.code = 2 ∧ k.sharers = [agent] then { k with code := 0, sharers := [] } else k

/-- A write-back of an agent in flight comes before its later requests of the line (R236). -/
def settle (s : State) (agent line : Nat) : State :=
  let mine := s.writeBacks.filter fun w => w.agent = agent && w.line = line
  if mine.isEmpty then s
  else mine.foldl (init := { s with writeBacks := s.writeBacks.filter fun w => !(w.agent = agent && w.line = line) }) fun s w =>
    serveWriteBack s agent line w.data w.dirty

/-- The home serves a Read request for a tracked line (R243). The line is not poisoned. -/
def serveRead (s : State) (agent line : Nat) : State :=
  let s := settle s agent line
  let agent := sharerBit agent
  let l := s.line line
  if l.code = 2 then
    if l.sharers = [agent] then s
    else
      let s := l.sharers.foldl (init := s) fun s a => takeBack s a line false
      s.updLine line fun k => { k with code := 1, sharers := l.sharers.filter (agentHolds s · line) ++ [agent] }
  else if l.code = 3 then s
  else s.updLine line fun k =>
    { k with code := 1, sharers := if k.sharers.contains agent then k.sharers else k.sharers ++ [agent] }

/-- The home serves an Own request for a tracked line (R243). -/
def serveOwn (s : State) (agent line : Nat) : State :=
  let s := settle s agent line
  let agent := sharerBit agent
  let l := s.line line
  if l.code = 3 then s
  else if l.code = 2 ∧ l.sharers = [agent] then s
  else
    let s := (l.sharers.filter fun a => a ≠ agent).foldl (init := s) fun s a => takeBack s a line true
    s.updLine line fun k => { k with code := 2, sharers := [agent] }

/-- The home hears that an agent dropped a clean copy (R243). -/
def serveDrop (s : State) (agent line : Nat) : State :=
  let agent := sharerBit agent
  s.updLine line fun k =>
    if k.code = 1 then
      let r := k.sharers.filter fun a => a ≠ agent
      { k with code := if r.isEmpty then 0 else 1, sharers := r }
    else k

/-- The home marks a line Poisoned (R249). -/
def poisonLine (s : State) (line : Nat) : State :=
  s.updLine line fun k => { k with code := 3, sharers := [] }

/-- Bytes written at the home of a line by an agent that holds no copy: every tracked copy is recalled first. -/
def homeStore (s : State) (pa : Nat) (bs : List Byte) : State :=
  let lines := (List.range ((pa % 128 + bs.length + 127) / 128)).map fun i => pa / 128 + i
  let s := lines.foldl (init := s) fun s l =>
    markDirty (if (s.line l).code = 1 ∨ (s.line l).code = 2 then recallAll s l else s) l
  { s with mem := memStore s.mem pa bs }

/-! Agents that request on behalf of a core. -/

/-- The agent under which a core's request for a tracked line reaches the home: the core itself on its own die, else its base
die, whose last-level cache is the sharer (R234, R244). A request for any other line is the core's own. -/
def requester (s : State) (core line : Nat) : Nat :=
  if dieOf s core = homeDie (line * 128) then core else agentDie (dieOf s core)

/-! Evictions (R243, R244, R247). -/

/-- A numbered write-back of an owner starts for the home, which takes it before the owner's later requests (R235, R247). -/
def sendWriteBack (s : State) (agent line : Nat) (data : BitVec 1024) (dirty : BitVec 32) : State :=
  nextRequest { s with writeBacks := s.writeBacks ++ [⟨agent, line, Tab.get 0 s.agentSeq agent, data, dirty⟩] } agent

/-- Words of a core's copy go to the guest copy of its die, and the core leaves that copy's sharers (R244). -/
def guestMerge (s : State) (die core line : Nat) (data : BitVec 1024) (dirty : BitVec 32) : State :=
  match s.guestIn die line with
  | none => s
  | some g => s.setGuest die line { g with
      data := mergeWords g.data data dirty, dirty := g.dirty ||| dirty, sharers := g.sharers.filter (· != core) }

/-- A first-level copy leaves a core: an untracked one is gone, an owner's line is written back, and the home or the die's
guest copy hears of a clean one (R243, R244, R247). -/
def evictCopy (s : State) (core line : Nat) : State :=
  match s.copyIn core line with
  | none => s
  | some c =>
    let s := unpin (s.setCopy core line Copy.none) core line
    if !c.tracked then s
    else if requester s core line != core then guestMerge s (dieOf s core) core line c.data c.dirty
    else if c.owned then sendWriteBack s core line c.data c.dirty
    else if (windowLines s core line).isEmpty then serveDrop s core line
    else s

/-- A core's first-level cache gives up every copy. -/
def dropCopies (s : State) (core : Nat) : State := (s.core core).copies.foldl (init := s) fun s c => evictCopy s core c.1

/-- A strand of a context has left a core: no first-level copy stays there once none of the context's is left (R425; DEDUCED, log
entry 108). -/
def leaveCore (s : State) (core ctx : Nat) : State :=
  if (s.residents core).any fun u => (s.strand u).ctx = ctx then s else dropCopies s core

/-- The lines of a first-level cache: 640 KiB (R19). -/
def firstLevelLines : Nat := 5120

/-- Room for one more first-level copy: one must leave when the cache is full, and one may leave in any case. A pinned line
stays (R19, R206; DESIGN CHOICE, log entry 17). -/
def makeRoom (s : State) (core line : Nat) : State :=
  let copies := (s.core core).copies
  let held := (copies.map Prod.fst).filter fun l => l != line && !(s.pinned core l)
  if (s.copyIn core line).isSome ∨ held.isEmpty then s
  else
    let k := Config.victim s.tick
    if copies.length < firstLevelLines ∧ held.length ≤ k then s
    else evictCopy s core (held.getD (k % held.length) line)

/-- A core takes a first-level copy of a line. -/
def placeCopy (s : State) (core line : Nat) (c : Copy) : State := (makeRoom s core line).setCopy core line c

/-- A guest copy leaves a die: the local copies are recalled first, and an owner's dirty words start for the home (R244, R247). -/
def evictGuest (s : State) (die line : Nat) : State :=
  match s.guestIn die line with
  | none => s
  | some g =>
    let agent := agentDie die
    let m := dirtyWords s agent line
    let d := agentDirty s agent line 0
    let s := (g.sharers.foldl (init := s) fun s c => coreDrop s c line).setGuest die line Copy.none
    if !g.tracked then s
    else if g.owned then sendWriteBack s agent line d m
    else serveDrop s agent line

/-- The tracked guest copy of a line on a die (R244). -/
def State.trackedGuest (s : State) (die line : Nat) : Option Copy := (s.guestIn die line).filter fun g => g.tracked

/-- A core obtains a readable copy of a tracked line: afterwards the requester is a sharer or the owner, and the guest
copy of a remote line is filled (R243, R244). The words that the core itself holds dirty stay where they are (R262, R263). -/
def coreRead (s : State) (core line : Nat) : State :=
  let a := requester s core line
  if a = core then serveRead s core line
  else
    let die := dieOf s core
    match s.trackedGuest die line with
    | some g =>
      -- other local cores that own words of the guest copy are downgraded on the die
      let others := g.sharers.filter (· != core)
      let d := others.foldl (init := g.data) fun d c => coreDirty s c line d
      let dirty := if g.owned then
          (List.range 32).foldl (init := g.dirty) fun m i =>
            if d.extractLsb' (32 * i) 32 != g.data.extractLsb' (32 * i) 32 then m ||| BitVec.ofNat 32 (2 ^ i) else m
        else g.dirty
      let s := others.foldl (init := s) fun s c => coreClean s c line
      s.setGuest die line { g with data := d, dirty := dirty, sharers := if g.sharers.contains core then g.sharers else g.sharers ++ [core] }
    | none =>
      let s := serveRead s a line
      s.setGuest die line ⟨coherentLine s line, 0, s.time, true, false, [core]⟩

/-- Whether a request of a core for a tracked line goes to its home, and is numbered: one that the guest copy of the core's own die
serves does not (R235, R244). -/
def asksHome (s : State) (core line : Nat) (own : Bool) : Bool :=
  requester s core line = core || match s.trackedGuest (dieOf s core) line with
    | some g => own && !g.owned
    | none => true

/-- A core obtains ownership of a tracked line (R243, R244). -/
def coreOwn (s : State) (core line : Nat) : State :=
  let a := requester s core line
  if a = core then serveOwn s core line
  else
    let die := dieOf s core
    let s := match s.trackedGuest die line with
      | some g =>
        if g.owned then s else serveOwn s a line
      | none => serveOwn s a line
    let base := match s.trackedGuest die line with
      | some g => (g.sharers.filter (· != core)).foldl (init := g.data) fun d c => coreDirty s c line d
      | none => coherentLine s line
    let dirty := match s.trackedGuest die line with
      | some g =>
        if g.owned then
          (List.range 32).foldl (init := g.dirty) fun m i =>
            if base.extractLsb' (32 * i) 32 != g.data.extractLsb' (32 * i) 32 then m ||| BitVec.ofNat 32 (2 ^ i) else m
        else 0
      | none => 0
    let s := match s.trackedGuest die line with
      | some g => (g.sharers.filter fun c => c ≠ core).foldl (init := s) fun s c => coreDrop s c line
      | none => s
    s.setGuest die line ⟨base, dirty, s.time, true, true, [core]⟩

/-- The line as a core that has just read or owned it sees it. -/
def coreView (s : State) (core line : Nat) : BitVec 1024 :=
  if requester s core line = core then coherentLine s line
  else match s.trackedGuest (dieOf s core) line with
    | some g => coreDirty s core line g.data
    | none => coherentLine s line

/-! Untracked copies (R240, R241). -/

/-- The untracked line that a read of a core obtains, and whether it came from the home: the core's copy, else the
die's untracked copy unless it is older than the core's last wide acquire, else the home (R241)
(DEDUCED, log entry 69). -/
def untrackedView (s : State) (core line : Nat) : BitVec 1024 × Bool :=
  match s.copyIn core line with
  | some c => (c.data, false)
  | none =>
    if dieOf s core = homeDie (line * 128) then (coherentLine s line, true)
    else match s.guestIn (dieOf s core) line with
      | some g => if !g.tracked && decide ((s.core core).ta ≤ g.fill) then (g.data, false) else (coherentLine s line, true)
      | none => (coherentLine s line, true)

/-- Keep the first-level copy that an untracked read may leave (R239). -/
def keepUntracked (s : State) (core line : Nat) (d : BitVec 1024) : State :=
  if windowed s core line then s else placeCopy s core line ⟨d, 0, s.time, false, false, []⟩

/-- What an untracked read from the home leaves on the issuing die: a copy that was too old is refreshed or, if nothing of
the result may be kept, discarded; another may be made (R239, R241). -/
def keepGuest (s : State) (core line : Nat) (d : BitVec 1024) (plain may : Bool) : State :=
  let die := dieOf s core
  if die = homeDie (line * 128) then s
  else match s.guestIn die line with
    | some g => if g.tracked then s else s.setGuest die line (if plain then ⟨d, 0, s.time, false, false, []⟩ else Copy.none)
    | none => if plain && may then s.setGuest die line ⟨d, 0, s.time, false, false, []⟩ else s

/-- The copy of a private line in the last-level cache of the issuing die is updated (R240). -/
def updateGuest (s : State) (die line o : Nat) (bs : List Byte) : State :=
  if die = homeDie (line * 128) then s
  else match s.guestIn die line with
    | some g => s.setGuest die line { g with data := lineStore g.data o bs }
    | none => s

/-- A store to a private line updates the copies on its way to the home (R240). -/
def updateUntracked (s : State) (core line o : Nat) (bs : List Byte) : State :=
  let s := match s.copyIn core line with
    | some c => s.setCopy core line { c with data := lineStore c.data o bs }
    | none => s
  updateGuest s (dieOf s core) line o bs

/-- A core and its die give up their untracked copies of a line of which the home's value has been read apart from them: a later read
of the core does not return an older one (R342). -/
def dropUntracked (s : State) (core line : Nat) : State :=
  let s := match s.copyIn core line with
    | some c => if c.tracked then s else s.setCopy core line Copy.none
    | none => s
  match s.guestIn (dieOf s core) line with
  | some g => if g.tracked then s else s.setGuest (dieOf s core) line Copy.none
  | none => s

/-- A window without its clean untracked words (R241). -/
def Window.invalidate (w : Window) : Window :=
  if w.cls = 3 then w
  else { w with
    valid := w.dirty
    phys := w.phys.filter fun jp => (Tab.get 0 w.dirty jp.1) != 0
    wide := w.wide.filter fun jp => (Tab.get 0 w.dirty jp.1) != 0 }

/-- An acquire of scope die or wider discards a core's untracked copies and the clean untracked words of its windows, kept ones
among them (R241, R271); at scope package or system the core records the time. -/
def selfInvalidate (s : State) (core scope : Nat) : State :=
  if scope = 0 then s
  else
    let s := s.updCore core fun c =>
      { c with
        copies := c.copies.filter fun p => p.2.tracked
        pins := c.pins.filter fun p => c.copies.any fun k => k.1 = p.1 && k.2.tracked
        kept := c.kept.map fun k => { k with win := k.win.invalidate }
        ta := if 2 ≤ scope then s.time + 1 else c.ta }
    (s.residents core).foldl (init := s) fun s u =>
      (s.strand u).windows.foldl (init := s) fun s w =>
        s.updStrand u fun t => t.updWindow w.1 Window.invalidate

end Sys2Proof.Machine
end

