-- ==== Sys2Proof/Machine/Parcels.lean ====
section
/-! DEFINITION. Parcels at their homes: pending logs (R222-R227), held writes (R220), access counters and notifications
(R217, R218), and the context fault log (R372). -/

namespace Sys2Proof.Machine

/-! Naing's memory: the rings that Naing maps and the device writes (DEDUCED, log entry 21). -/

/-- Bytes written through Naing's tables, under the key of the leaf; none when the address does not translate or its key slot is
empty (R423, R424). -/
def naingStore (s : State) (va : Word) (bs : List Byte) : Option State :=
  match walk s true 0 va with
  | .ok l => if reachable s l.pa && !keyEmpty s l then some (homeStore (stampKey s l bs.length) l.pa bs) else none
  | .error _ => none

/-- A 64-bit count read through Naing's tables. -/
def naingCount (s : State) (va : Word) : Option Nat :=
  match walk s true 0 va with
  | .ok l => if reachable s l.pa && !keyEmpty s l then some (leNat (decrypted s l (coherentBytes s l.pa 8))) else none
  | .error _ => none

/-- What an append to a ring came to: stored, or discarded because the ring is full or unmapped. -/
structure Ring where
  base : Word
  cb : Word
  log2 : Nat

/-- Store entry number TAIL of a ring of 32-byte entries and advance TAIL (R218, R372). -/
def Ring.append (r : Ring) (s : State) (bs : List Byte) : Option State :=
  match naingCount s r.cb, naingCount s (r.cb + 8) with
  | some t, some h =>
    if t - h = 2 ^ r.log2 then none
    else match naingStore s (r.base + BitVec.ofNat 64 (32 * (t % 2 ^ r.log2))) bs with
      | some s => naingStore s r.cb (leBytes 8 (t + 1))
      | none => none
  | _, _ => none

/-- Append a notification to a context's queue (R218). -/
def notify (s : State) (ctx kind : Nat) (va : Word) (count tier die : Nat) : State :=
  let c := s.context ctx
  if !c.live then s
  else
    let e := leBytes 8 (va.toNat / 65536 * 65536 + kind) ++ leBytes 8 s.time ++ leBytes 2 count ++
      [BitVec.ofNat 8 tier, BitVec.ofNat 8 die, if c.noteLost then 1 else 0, 0, 0, 0] ++ leBytes 8 c.noteSeq
    match (Ring.mk c.ringBase c.ringCb 12).append s e with
    | some s => (s.updContext ctx fun c => { c with noteSeq := c.noteSeq + 1, noteLost := false }).raise 0
    | none => s.updContext ctx fun c => { c with noteSeq := c.noteSeq + 1, noteLost := true }

/-- What a fault log entry records (R372). -/
structure FaultEntry where
  addr : Word
  what : Word
  orig : Nat
  sub : Nat
  handle : Bool
  slot : Nat
  core : Nat

/-- Append an entry to a context's fault log (R372). -/
def faultLog (s : State) (ctx : Nat) (f : FaultEntry) : State :=
  let c := s.context ctx
  let e := leBytes 8 f.addr.toNat ++ leBytes 8 s.time ++ leBytes 8 f.what.toNat ++
    [BitVec.ofNat 8 f.orig, BitVec.ofNat 8 f.sub,
      BitVec.ofNat 8 ((if c.faultLost then 1 else 0) + (if f.handle then 2 else 0)), BitVec.ofNat 8 f.slot] ++
    leBytes 2 (f.core % 2 ^ 14) ++ leBytes 2 (c.faultSeq % 65536)
  let s := s.raise 1
  match (Ring.mk c.faultLog (c.faultLog + 0x8000) 10).append s e with
  | some s => s.updContext ctx fun c => { c with faultSeq := c.faultSeq + 1, faultLost := false }
  | none => s.updContext ctx fun c => { c with faultSeq := c.faultSeq + 1, faultLost := true }

/-! Operations on a value at its home (R223, R291). -/

/-- The effect of OP code op (R223) at a width of w bits: the new value from the old and the operand. -/
def combine (op w old v : Nat) : Nat :=
  let m := 2 ^ w
  let a := old % m
  let b := v % m
  let sa := BitVec.toInt (BitVec.ofNat w a)
  let sb := BitVec.toInt (BitVec.ofNat w b)
  match op with
  | 0 => b
  | 1 => (a + b) % m
  | 2 => if sb < sa then b else a
  | 3 => if sa < sb then b else a
  | 4 => if b < a then b else a
  | 5 => if a < b then b else a
  | 6 => a &&& b
  | 7 => a ||| b
  | 8 => a ^^^ b
  | 9 => Fp.addHome w a b
  | 10 => Fp.addHalves a b
  | _ => a

/-! The operation (R291). -/

/-- The OP code of a log entry for an FA function code (R223). -/
def logOp (fn : Nat) : Nat := if fn < 8 then fn + 1 else if fn = 8 then 0 else fn

/-- The new value of FA function fn at a width of w bits, none when no write is made: cmp is the value that CAS compares. -/
def atomicNew (fn w old src cmp : Nat) : Option Nat :=
  if fn = 11 then (if old % 2 ^ w = cmp % 2 ^ w then some (src % 2 ^ w) else none)
  else some (combine (logOp fn) w old src)

/-- The old value as a returning atomic writes it to d (R292). -/
def atomicResult (fn w old : Nat) : Word :=
  if w = 64 ∨ fn = 9 ∨ fn = 10 then BitVec.ofNat 64 old else (BitVec.ofNat 32 old).signExtend 64

/-! Barrier objects (R301, R302). -/

/-- A barrier object's words: COUNT, ARRIVED, PHASE and FLAGS. -/
structure Barrier where
  count : Nat
  arrived : Nat
  phase : Nat
  flags : Nat
  deriving DecidableEq, Repr

/-- An object from its 16 bytes. -/
def Barrier.ofBytes (bs : List Byte) : Barrier :=
  let v := leWord 128 bs
  ⟨(v.extractLsb' 0 32).toNat, (v.extractLsb' 32 32).toNat, (v.extractLsb' 64 32).toNat, (v.extractLsb' 96 32).toNat⟩

/-- The 16 bytes of an object. -/
def Barrier.bytes (b : Barrier) : List Byte := leBytes 4 b.count ++ leBytes 4 b.arrived ++ leBytes 4 b.phase ++ leBytes 4 b.flags

/-- BARI's effect on an object: n participants and the next phase (R302). -/
def Barrier.init (x : Barrier) (n : Nat) : Barrier := ⟨n, 0, if x.flags % 2 = 1 then (x.phase + 1) % 2 ^ 32 else 0, 1⟩

/-- An arrival at an object: the object after it. -/
def Barrier.arrive (x : Barrier) : Barrier :=
  let n := (x.arrived + 1) % 2 ^ 32
  if x.count ≤ n then { x with arrived := 0, phase := (x.phase + 1) % 2 ^ 32 } else { x with arrived := n }

/-! Operations in a log or held at their home (R220, R223, R439). -/

/-- The code under which a full-line store of zeros is held at its home: no log entry has it (R223, R251). -/
def fullLineOp : Nat := 11

/-- The codes of BARI and BARV that are held at their home (R439), and that of a returning atomic of function 0. -/
def bariCode : Nat := 12
def barvCode : Nat := 13
def atomicCode : Nat := 16

/-- The bytes that an operation touches. -/
def LogEntry.size (e : LogEntry) : Nat :=
  if e.op = bariCode ∨ e.op = barvCode then 16 else if e.op = fullLineOp then 128 else 2 ^ e.wd

/-- What an operation makes of its bytes. A full-line store clears poison and leaves other lines alone (R251). -/
def LogEntry.effect (e : LogEntry) (bs : List Byte) : List Byte :=
  if e.op = bariCode then ((Barrier.ofBytes bs).init e.value.toNat).bytes
  else if e.op = barvCode then (Barrier.ofBytes bs).arrive.bytes
  else if e.op = fullLineOp then bs
  else if atomicCode ≤ e.op then
    let old := leNat bs
    leBytes e.size ((atomicNew (e.op - atomicCode) (8 * e.size) old e.value.toNat ((e.ret.map fun r => r.cmp.toNat).getD 0)).getD old)
  else leBytes e.size (combine e.op (8 * e.size) (leNat bs) e.value.toNat)

/-- Bytes with a log entry applied, where the bytes start at offset base of the parcel. -/
def LogEntry.apply (base : Nat) (bs : List Byte) (e : LogEntry) : List Byte :=
  let n := e.size
  if base ≤ e.offset ∧ e.offset + n ≤ base + bs.length then
    let o := e.offset - base
    bs.take o ++ e.effect ((bs.drop o).take n) ++ bs.drop (o + n)
  else bs

/-- The 16 bytes of an entry in the log store (R223). -/
def LogEntry.bytes (e : LogEntry) : List Byte :=
  leBytes 16 (e.seq % 2 ^ 40 * 2 ^ 88 + e.op * 2 ^ 84 + e.wd * 2 ^ 82 + e.offset * 2 ^ 64 + e.value.toNat)

/-- The log store of a base die: the parcels' logs one after another by frame, each in append order (R223; DESIGN CHOICE,
log entry 89). -/
def logStoreEntries (s : State) (die : Nat) : List LogEntry :=
  (s.parcels.filter fun p => homeDie (p.1 * 65536) = die).flatMap fun p => p.2.log

/-- The byte at a physical address of a log store: entry k stands at 16 k bytes from the store's start. -/
def logStoreByte (s : State) (pa : Nat) : Byte :=
  let o := pa % 2 ^ 38 - 0x3B8ACA0000
  match (logStoreEntries s (homeDie pa))[o / 16]? with
  | some e => e.bytes.getD (o % 16) 0
  | none => 0

/-- n bytes at a physical address with the parcel's log and held writes applied in their order (R220, R224); of a log store, its
entries (R223). -/
def homeRead (s : State) (pa n : Nat) : List Byte :=
  let pa := s.movedPa pa
  let p := s.parcel (pa / 65536)
  if inLogStore pa then (List.range n).map fun i => logStoreByte s (pa + i)
  else if p.log.isEmpty && p.held.isEmpty then coherentBytes s pa n
  else
    let lo := pa / 16 * 16
    let hi := (pa + n + 15) / 16 * 16
    let bs := (p.log ++ p.held).foldl (init := coherentBytes s lo (hi - lo)) fun bs e => e.apply (lo % 65536) bs
    (bs.drop (pa - lo)).take n

/-! Access counters (R217). -/

/-- One counted transfer of a parcel's line. The context and address are those of the access that caused it. -/
def countTransfer (s : State) (pa ctx : Nat) (va : Word) (counterEnable : Bool) : State :=
  let f := pa / 65536
  let tier := tierOf pa
  if !counterEnable || !(tier = 1 || tier = 2) then s
  else
    let die := homeDie pa
    let p := s.parcel f
    if !p.counted && tier = 2 && decide (1048576 ≤ (s.die die).counterUse) then s
    else
      let full := !p.counted && tier = 2 && (s.die die).counterUse + 1 = 1048576
      let s := if p.counted || tier = 1 then s
        else s.updDie die fun d => { d with counterUse := d.counterUse + 1 }
      let n := if p.counted then (if p.count < 65535 then p.count + 1 else p.count) else 1
      let thr := (s.context ctx).threshold
      let hit := !p.notified && decide (thr ≤ n)
      let s := s.updParcel f fun p =>
        { p with counted := true, count := n, notified := p.notified || hit, ctx := ctx, va := va }
      let s := if hit then notify s ctx 1 va n tier die else s
      if full then notify s ctx 6 va 0 tier die else s

/-- The counter of a frame that returns to Naing leaves the table of the die's tier-2 counters (R217). -/
def leaveCounter (s : State) (f : Nat) : State :=
  if (s.parcel f).counted && tierOf (f * 65536) = 2 then
    s.updDie (homeDie (f * 65536)) fun d => { d with counterUse := d.counterUse - 1 }
  else s

/-- A parcel is counted no more: a newly counted one starts at 0 (R217). -/
def uncount (s : State) (f : Nat) : State :=
  (leaveCounter s f).updParcel f fun p => { p with counted := false, count := 0, notified := false }

/-- The leaf that maps a parcel frame now, by the context and address under which the frame was last counted or logged
(DEDUCED, log entry 65). -/
def State.leafOfFrame (s : State) (f : Nat) : Option Leaf :=
  let p := s.parcel f
  match walk s false p.ctx p.va with
  | .ok l => if l.frame = f then some l else none
  | .error _ => none

/-- LLC_EVICTION (R238): every copy of a line is recalled, then the line leaves the last-level cache; one that has been written
is a transfer to its memory (R217). -/
def evictLine (s : State) (line : Nat) : State :=
  let l := s.line line
  let s := if l.code = 1 ∨ l.code = 2 then recallAll s line else s
  let written := (s.line line).dirty
  let s := s.updLine line fun k => { k with cached := false, dirty := false }
  if written then
    match s.leafOfFrame (line / 512) with
    | some l => countTransfer s (line * 128) (s.parcel (line / 512)).ctx (s.parcel (line / 512)).va l.counterEnable
    | none => s
  else s

/-- The lines of a slice of a last-level cache: 4 MiB (R8, R19). -/
def sliceLines : Nat := 32768

/-- The home lines and guest copies that a slice of a die's last-level cache holds. -/
def sliceHolds (s : State) (die slice : Nat) : List Nat :=
  ((s.lines.filter fun l => l.2.cached && homeDie (l.1 * 128) = die && homeSlice (l.1 * 128) = slice).map Prod.fst) ++
    ((s.die die).guests.filter fun g => homeSlice (g.1 * 128) = slice).map Prod.fst

/-- A slice that holds more lines than it has room for gives one up (R8, R19, R238, R244): any but the line that came last
(DESIGN CHOICE, log entry 17). -/
def fitSlice (s : State) (die line : Nat) : State :=
  let held := sliceHolds s die (homeSlice (line * 128))
  if held.length ≤ sliceLines then s
  else
    let others := held.filter (· != line)
    let v := others.getD (Config.victim s.tick % others.length) line
    if homeDie (v * 128) = die then evictLine s v else evictGuest s die v

/-- A line's home touches the line's memory: the transfer counts when the last-level cache does not hold the line
(R217) (DEDUCED, log entry 65). -/
def touchLine (s : State) (pa ctx : Nat) (va : Word) (counterEnable : Bool) : State :=
  let l := pa / 128
  if (s.line l).cached then s
  else countTransfer (fitSlice (s.updLine l fun k => { k with cached := true }) (homeDie pa) l) pa ctx va counterEnable

/-- A read at a line's home: one that is served with a pending log applied counts once, whether or not the line is transferred
(R217, R224). -/
def touchRead (s : State) (pa ctx : Nat) (va : Word) (counterEnable : Bool) : State :=
  if (s.parcel (s.movedPa pa / 65536)).log.isEmpty then touchLine s pa ctx va counterEnable
  else countTransfer s pa ctx va counterEnable

/-- A write at a line's home: one that is appended to the pending log or held there transfers nothing (R217, R220, R222). -/
def touchWrite (s : State) (l : Leaf) (ctx : Nat) (va : Word) : State :=
  if (l.logEnable && tierOf (s.movedPa l.pa) = 1) || (s.parcel l.frame).blocked then s
  else touchLine s l.pa ctx va l.counterEnable

/-! Pending logs (R222-R227). -/

/-- The entries a log store holds (R223). -/
def logCapacity : Nat := 16777216

/-- The latest entry of a log that overlaps an operation's bytes, with its place from the end. -/
def latestOverlap (log : List LogEntry) (o n : Nat) : Option (Nat × LogEntry) :=
  (log.reverse.zipIdx.find? fun (e, _) => e.offset < o + n ∧ o < e.offset + 2 ^ e.wd).map fun (e, i) => (i, e)

/-- Compact an append into a log (R225): the new log, or none when the operation needs an entry of its own. -/
def compact (merge : Bool) (log : List LogEntry) (e : LogEntry) : List LogEntry × Bool :=
  let n := 2 ^ e.wd
  if e.op = 0 then
    (log.filter fun x => !(decide (e.offset ≤ x.offset) && decide (x.offset + 2 ^ x.wd ≤ e.offset + n)), false)
  else
    match latestOverlap log e.offset n with
    | some (i, x) =>
      if x.op = e.op ∧ x.offset = e.offset ∧ x.wd = e.wd ∧ i < 64 ∧ (e.op ≤ 8 ∨ merge) then
        let k := log.length - 1 - i
        (log.zipIdx.map fun (y, j) =>
          if j = k then { y with value := BitVec.ofNat 64 (combine e.op (8 * n) y.value.toNat e.value.toNat) } else y, true)
      else (log, false)
    | none => (log, false)

/-- Start a forced fetch of a parcel unless one of its migrations is under way (R227). It is queued also where the engine holds the 64 requests
of R219 already (DESIGN CHOICE, log entry 121). -/
def forceFetch (s : State) (f ctx : Nat) (va : Word) : State :=
  let p := s.parcel f
  if p.migrating then s
  else
    let die := homeDie (f * 65536)
    let naing := match walk s false ctx va with
      | .ok l => l.frame != f
      | .error _ => true
    let s := s.updParcel f fun p => { p with migrating := true }
    let s := s.updDie die fun d =>
      { d with migrations := d.migrations ++ [⟨ctx, va, f, 0, 0, 0, 0, true, naing⟩] }
    notify s ctx 4 va 0 (tierOf (f * 65536)) die

/-- Naing may have set the merge flag of a parcel's log index by now (R225; DESIGN CHOICE, log entry 90). -/
def State.naingMerges (s : State) (f : Nat) : State :=
  s.updParcel f fun p => { p with merge := p.merge || Config.naingMerges s.tick f }

/-- Whether an operation waits at the home of a line: the later ones to the line wait behind it, in the order in which they reached
the home (R220, R227, R236). -/
def lineHeld (s : State) (pa : Nat) : Bool :=
  (s.parcel (pa / 65536)).held.any fun e => e.offset / 128 = pa % 65536 / 128

/-- Append an operation to a parcel's log, or hold it for the forced fetch that it starts, or behind one that waits on its line
(R222, R225, R227, R236). The notification of kind 5 is made once per die: when a store that has drained fills to 90 % again, no further one
is (R218; DESIGN CHOICE, log entry 122). -/
def logAppend (s : State) (pa op wd : Nat) (v : Word) (ctx : Nat) (va : Word) : State :=
  let f := pa / 65536
  let die := homeDie pa
  let s := s.naingMerges f
  let p := s.parcel f
  let e : LogEntry := ⟨(s.die die).logSeq, op, wd, pa % 65536, v, s.cur, none⟩
  let (log, absorbed) := compact p.merge p.log e
  let use := (s.die die).logUse - p.log.length + log.length
  if lineHeld s pa then s.updParcel f fun p => { p with held := p.held ++ [e] }
  else if absorbed then
    let s := s.updParcel f fun p => { p with log := log }
    s.updDie die fun d => { d with logSeq := (d.logSeq + 1) % 2 ^ 40 }
  else if 4096 ≤ log.length ∨ logCapacity ≤ use then
    forceFetch (s.updParcel f fun p => { p with held := p.held ++ [e] }) f ctx va
  else
    let s := s.updParcel f fun p => { p with log := log ++ [e], ctx := ctx, va := va }
    let warn := !(s.die die).logWarned && decide (logCapacity * 9 / 10 ≤ use + 1)
    let s := s.updDie die fun d =>
      { d with logSeq := (d.logSeq + 1) % 2 ^ 40, logUse := use + 1, logWarned := d.logWarned || warn }
    if warn then notify s ctx 5 va 0 (tierOf pa) die else s

/-- Whether an append of this operation would have to wait for a forced fetch (R227). -/
def logOverflows (s : State) (pa op wd : Nat) : Bool :=
  let p := s.parcel (pa / 65536)
  let merge := p.merge || Config.naingMerges s.tick (pa / 65536)
  let (log, absorbed) := compact merge p.log ⟨0, op, wd, pa % 65536, 0, 0, none⟩
  !absorbed && (decide (4096 ≤ log.length) || decide (logCapacity ≤ (s.die (homeDie pa)).logUse - p.log.length + log.length))

/-- The width code of a number of bytes, as FM wd. -/
def wdOf (n : Nat) : Nat := if n = 1 then 0 else if n = 2 then 1 else if n = 4 then 2 else 3

/-- One operation of 1, 2, 4 or 8 bytes performed, held or logged at its home (R220, R222, R240, R242). -/
def homeOp (s : State) (pa n op : Nat) (v : Word) (logEnable : Bool) (ctx : Nat) (va : Word) : State :=
  let pa := s.movedPa pa
  let f := pa / 65536
  if logEnable && tierOf pa = 1 then logAppend s pa op (wdOf n) v ctx va
  else if (s.parcel f).blocked && logEnable then logAppend s pa op (wdOf n) v ctx va
  else if (s.parcel f).blocked then
    let s := if (s.line (pa / 128)).code = 1 ∨ (s.line (pa / 128)).code = 2 then recallAll s (pa / 128) else s
    s.updParcel f fun p => { p with held := p.held ++ [⟨p.held.length, op, wdOf n, pa % 65536, v, s.cur, none⟩] }
  else if lineHeld s pa then
    s.updParcel f fun p => { p with held := p.held ++ [⟨p.held.length, op, wdOf n, pa % 65536, v, s.cur, none⟩] }
  else if op = 0 then homeStore s pa (leBytes n v.toNat)
  else homeStore s pa (leBytes n (combine op (8 * n) (leNat (coherentBytes s pa n)) v.toNat))

/-- A store of any number of bytes at its home, in naturally aligned pieces of at most 8 bytes in ascending offset
(R222). -/
def homePut (s : State) (pa : Nat) (bs : List Byte) (logEnable : Bool) (ctx : Nat) (va : Word) : State :=
  let pa := s.movedPa pa
  if !((s.parcel (pa / 65536)).blocked || lineHeld s pa || (logEnable && tierOf pa = 1)) then homeStore s pa bs
  else go s 0 bs.length
where
  /-- The piece at offset o: as wide as its alignment and the bytes left allow. -/
  go (s : State) (o : Nat) : Nat → State
    | 0 => s
    | fuel + 1 =>
      if bs.length ≤ o then s
      else
        let left := bs.length - o
        let a := pa + o
        let n := if a % 8 = 0 ∧ 8 ≤ left then 8 else if a % 4 = 0 ∧ 4 ≤ left then 4 else if a % 2 = 0 ∧ 2 ≤ left then 2 else 1
        go (homeOp s a n 0 (leWord 64 ((bs.drop o).take n)) logEnable ctx (va + BitVec.ofNat 64 o)) (o + n) fuel

/-- A full-line store reaches the home of its line (R251): a Poisoned line is written with zeros, appended in a logged parcel as
stores of 8 bytes (R222), and has no copies and no poison afterwards; on another line it does nothing of its own. In a
write-blocked parcel that keeps no log it is held and judged when it is performed (R220). -/
def fullLineStore (s : State) (pa : Nat) (logEnable : Bool) (ctx : Nat) (va : Word) : State :=
  let pa := s.movedPa pa / 128 * 128
  if ((s.parcel (pa / 65536)).blocked && !logEnable) || lineHeld s pa then
    s.updParcel (pa / 65536) fun p => { p with held := p.held ++ [⟨p.held.length, fullLineOp, 0, pa % 65536, 0, s.cur, none⟩] }
  else if (s.line (pa / 128)).code = 3 then
    (homePut s pa (List.replicate 128 0) logEnable ctx va).updLine (pa / 128) fun k => { k with code := 0, sharers := [] }
  else s

/-- Whether an operation of a strand at a leaf is held at its home, where its parcel is write-blocked and keeps no log, or must wait
for the forced fetch of a full log, or behind an operation that waits on its line (R220, R227, R236); writes says that it appends. -/
def heldAt (s : State) (pa op wd : Nat) (log writes : Bool) : Bool :=
  ((s.parcel (s.movedPa pa / 65536)).blocked && !log) || lineHeld s (s.movedPa pa)
    || (log && writes && (tierOf (s.movedPa pa) = 1 || (s.parcel (s.movedPa pa / 65536)).blocked) && logOverflows s (s.movedPa pa) op wd)

/-- Hold an operation at its home (R220, R227): every copy of a tracked line is recalled, and a full log has its parcel
fetched. -/
def holdAt (s : State) (pa op wd : Nat) (v : Word) (ret : Option HeldResult) (log : Bool) (ctx : Nat) (va : Word) : State :=
  let pa := s.movedPa pa
  let f := pa / 65536
  let s := if (s.line (pa / 128)).code = 1 ∨ (s.line (pa / 128)).code = 2 then recallAll s (pa / 128) else s
  let s := s.updParcel f fun p => { p with held := p.held ++ [⟨p.held.length, op, wd, pa % 65536, v, s.cur, ret⟩] }
  if log then forceFetch s f ctx va else s

/-- An operation that was held at its home is performed there (R219, R220): the bytes it found, if it has a result to deliver. One that
a full log turns away waits again (R227). -/
def performHeld (s : State) (frame : Nat) (e : LogEntry) (logEnable : Bool) (ctx : Nat) (va : Word) : Option (List Byte) × State :=
  let pa := frame * 65536 + e.offset
  if e.op = fullLineOp then (none, fullLineStore s pa logEnable ctx va)
  else if e.op < fullLineOp then (none, homeOp s pa (2 ^ e.wd) e.op e.value logEnable ctx va)
  else
    let bs := homeRead s pa e.size
    if e.ret.isSome ∧ e.effect bs ≠ bs ∧ heldAt s pa 0 3 logEnable true then (none, holdAt s pa e.op e.wd e.value e.ret logEnable ctx va)
    else (some bs, if e.effect bs = bs then s else homePut s pa (e.effect bs) logEnable ctx va)

end Sys2Proof.Machine
end

