-- ==== Sys2Proof/Machine/Trace.lean ====
section
/-! DEFINITION. The trace writer (R403-R411) and the replay log (R415-R418). -/

namespace Sys2Proof.Machine

/-! The ring of quarters (R406, R407). -/

/-- A ring of four quarters: base, control block, and records per quarter. -/
structure Quarters where
  ctx : Nat
  base : Word
  cb : Word
  q : Nat

/-- The ring of a size code, if it enables one (R404). -/
def Quarters.of (ctx : Nat) (base cb size : Word) : Option Quarters :=
  let n := size.toNat % 32
  if 8 ≤ n ∧ n ≤ 24 then some ⟨ctx, base, cb, 2 ^ n⟩ else none

/-- Whether a shootdown in progress covers an address of a context (R215). -/
def shootdownCovers (s : State) (ctx : Nat) (va : Word) : Bool :=
  (List.range 4).any fun d => (s.die d).shoots.any fun x =>
    x.global || (x.ctx = ctx && (x.all || x.va.toNat / 65536 = va.toNat / 65536))

/-- The physical address of a place in the ring, unless its parcel is unavailable (R407). -/
def ringPlace (s : State) (ctx : Nat) (va : Word) : Option Nat :=
  if shootdownCovers s ctx va then none
  else match walk s false ctx va with
    | .error _ => none
    | .ok l => if l.cls = 2 && l.writable && l.tracePin && l.tier = 0 && !keyless s l && reachable s l.pa then some l.pa else none
where
  /-- An empty key slot makes the parcel unusable (R424). -/
  keyless (s : State) (l : Leaf) : Bool := (Tab.get none s.module.keys l.keyIndex).isNone

/-- TAIL and HEAD of quarter d. -/
def Quarters.counts (r : Quarters) (s : State) (d : Nat) : Option (Nat × Nat) :=
  match ringPlace s r.ctx (r.cb + BitVec.ofNat 64 (8 * d)), ringPlace s r.ctx (r.cb + BitVec.ofNat 64 (32 + 8 * d)) with
  | some a, some b => some (leNat (coherentBytes s a 8), leNat (coherentBytes s b 8))
  | _, _ => none

/-- Write one 16-byte record as record TAIL of quarter d and advance TAIL. -/
def Quarters.put (r : Quarters) (s : State) (d : Nat) (bs : List Byte) : Option State :=
  match r.counts s d with
  | none => none
  | some (t, h) =>
    if r.q ≤ t - h then none
    else match ringPlace s r.ctx (r.base + BitVec.ofNat 64 (16 * (d * r.q + t % r.q))),
        ringPlace s r.ctx (r.cb + BitVec.ofNat 64 (8 * d)) with
      | some a, some c => some (homeStore (homeStore s a bs) c (leBytes 8 (t + 1)))
      | _, _ => none

/-! Trace records (R408, R409). -/

/-- A record's contents. -/
structure Rec where
  kind : Nat
  flags : Nat
  payload : Nat

/-- One cycle of a source's clock: a C-core's, else 1.6 GHz (R408). -/
def sourceCycle (s : State) (src : Nat) : Nat := if src < 0x4000 then cycleUnits (classOf s src) else 35

/-- The key of a source in a quarter. -/
def sourceKey (d src : Nat) : Nat := d * 65536 + src

/-- The bytes of a record of a source. -/
def recBytes (delta src : Nat) (r : Rec) : List Byte :=
  [BitVec.ofNat 8 r.kind, BitVec.ofNat 8 r.flags] ++ leBytes 2 src ++ leBytes 4 delta ++ leBytes 8 r.payload

/-- The cycles of a source's clock since its previous record in a quarter (R408). -/
def sinceLast (s : State) (ctx d src : Nat) : Nat :=
  match Tab.get none (s.context ctx).trace.last (sourceKey d src) with
  | some t => s.clock / sourceCycle s src - t / sourceCycle s src
  | none => 0

/-- Write a record of a source and note its time. -/
def writeRec (s : State) (q : Quarters) (d src delta : Nat) (r : Rec) : Option State :=
  match q.put s d (recBytes delta src r) with
  | none => none
  | some s => some (s.updContext q.ctx fun c => { c with trace := { c.trace with
      last := Tab.set none c.trace.last (sourceKey d src) (some s.clock) } })

/-- A SYNC record of a source, with its time (R409). -/
def writeSync (s : State) (q : Quarters) (d src : Nat) : Option State := writeRec s q d src 0 ⟨1, 0, s.time⟩

/-- Records of several SYNCs. -/
def writeSyncs (s : State) (q : Quarters) (d : Nat) : List Nat → Option State
  | [] => some s
  | x :: xs => match writeSync s q d x with
    | none => none
    | some s => writeSyncs s q d xs

/-- Whether at least n records fit a quarter. -/
def Quarters.room (r : Quarters) (s : State) (d n : Nat) : Bool :=
  match r.counts s d with
  | none => false
  | some (t, h) => decide (t - h + n ≤ r.q)

/-- The record is dropped and counted (R407). A quarter's own count, which a GAP record gives in 32 bits, stops at the largest of them
(DESIGN CHOICE, log entry 112). -/
def dropRec (s : State) (ctx d src : Nat) : State :=
  s.updContext ctx fun c => { c with trace := { c.trace with
    drop := min (c.trace.drop + 1) (2 ^ 32 - 1)
    gaps := Tab.set 0 c.trace.gaps d (min (Tab.get 0 c.trace.gaps d + 1) (2 ^ 32 - 1))
    dropped := Tab.set [] c.trace.dropped d
      (if (Tab.get [] c.trace.dropped d).contains src then Tab.get [] c.trace.dropped d else Tab.get [] c.trace.dropped d ++ [src]) } }

/-- A source writes a record: after dropped records a GAP and the SYNCs come first, and a source's first record and a long
interval need a SYNC (R407, R409). A record that does not fit is dropped. -/
def traceRec (s : State) (ctx d src : Nat) (r : Rec) : State :=
  let t := (s.context ctx).trace
  match Quarters.of ctx t.base t.cb t.size with
  | none => s
  | some q =>
    let gap := Tab.get 0 t.gaps d
    let lost := Tab.get [] t.dropped d
    let done :=
      let sync := (Tab.get none t.last (sourceKey d src)).isNone || decide (2 ^ 32 ≤ sinceLast s ctx d src)
      if gap = 0 then
        if q.room s d (if sync then 2 else 1) then
          match (if sync then writeSync s q d src else some s) with
          | none => none
          | some s => writeRec s q d src (sinceLast s ctx d src) r
        else none
      else
        let srcs := if lost.contains src then lost else lost ++ [src]
        if q.room s d (srcs.length + if sync then 3 else 2) then
          match (if sync then writeSync s q d src else some s).bind fun s => writeRec s q d src (sinceLast s ctx d src) ⟨2, 0, gap⟩ with
          | none => none
          | some s =>
            let s := s.updContext ctx fun c => { c with trace := { c.trace with
              gaps := Tab.set 0 c.trace.gaps d 0
              dropped := Tab.set [] c.trace.dropped d []
              last := c.trace.last.filter fun k => k.1 / 65536 != d } }
            match writeSyncs s q d srcs with
            | none => none
            | some s => writeRec s q d src 0 r
        else none
    match done with
    | some s => s
    | none => dropRec s ctx d src

/-- Whether a strand's records of a class are written: the strand is admitted and TRCFILT enables them (R403, R405). -/
def traces (s : State) (t : Strand) (bit : Nat) : Bool :=
  t.trace.admitted && (s.context t.ctx).trace.filt.getLsbD 7 && (s.context t.ctx).trace.filt.getLsbD bit

/-- PC[54:2] of an address as a payload field. -/
def pcBits (pc : Word) : Nat := pc.toNat / 4 % 2 ^ 53

/-- PC[54:2] as a payload field. -/
def pcField (t : Strand) : Nat := pcBits t.pc

/-- A record of a strand's core. -/
def strandRec (s : State) (u bit : Nat) (r : Rec) : State :=
  let t := s.strand u
  if traces s t bit then traceRec s t.ctx (dieOf s t.core) t.core r else s

/-- A record about the instruction at pc with a tag on a pipe (R410). -/
def pipeRecAt (s : State) (u kind pipe tag : Nat) (pc : Word) (stop : Bool) : State :=
  strandRec s u 0 ⟨kind, pipe * 16 + (s.strand u).slot, pcBits pc + tag % 256 * 2 ^ 53 + if stop then 2 ^ 63 else 0⟩

/-- A record about the instruction at the program counter on a pipe (R410). -/
def pipeRec (s : State) (u kind pipe : Nat) (stop : Bool) : State :=
  pipeRecAt s u kind pipe (s.strand u).trace.tag (s.strand u).pc stop

/-- A vector or tile instruction enters a pipe: its begin record, unless one stands without its end (R410). -/
def pipeBegin (s : State) (u pipe : Nat) : State :=
  if (s.strand u).trace.pipe.isSome then s
  else (pipeRec s u 0x10 pipe false).updStrand u fun t => { t with trace := { t.trace with pipe := some pipe } }

/-- A vector or tile instruction leaves a pipe, completed or stopped: its end record (R410). -/
def pipeEnd (s : State) (u pipe : Nat) (stop : Bool) : State :=
  (pipeRec s u 0x11 pipe stop).updStrand u fun t => { t with trace := { t.trace with tag := (t.trace.tag + 1) % 256, pipe := none } }

/-- An instruction that stands in a pipe is stopped there by a trap, a move or a pre-emption (R410, R419). -/
def pipeStop (s : State) (u : Nat) : State :=
  match (s.strand u).trace.pipe with
  | some p => pipeEnd s u p true
  | none => s

/-- The begin and end records of an instruction that goes through a pipe at once (R410). -/
def pipeRecords (s : State) (u pipe : Nat) (stop : Bool) : State := pipeEnd (pipeBegin s u pipe) u pipe stop

/-- An instruction completes with results on their way: its begin record now, and its end record when the last of them is written
(R410). -/
def pipeOpen (s : State) (u pipe : Nat) (key : List Nat) : State :=
  (pipeBegin s u pipe).updStrand u fun t => { t with trace := { t.trace with
    tag := (t.trace.tag + 1) % 256
    pipe := none
    ends := t.trace.ends ++ [⟨pipe, t.trace.tag, t.pc, key⟩] } }

/-- The last result of an instruction that completed before is written: its end record (R410). -/
def pipeClose (s : State) (u : Nat) (key : List Nat) : State :=
  match (s.strand u).trace.ends.find? fun e => e.key = key with
  | none => s
  | some e => (pipeRecAt s u 0x11 e.pipe e.tag e.pc false).updStrand u fun t =>
    { t with trace := { t.trace with ends := t.trace.ends.erase e } }

/-- The key of a vector load into a slot of a queue of strand o. -/
def slotKey (o q slot gen : Nat) : List Nat := [0, o, q, slot, gen]

/-- The element and VDONE records of a vector memory instruction that stops (R411). -/
def elementRecords (s : State) (u : Nat) : State :=
  let t := s.strand u
  let s := strandRec s u 1 ⟨0x12, t.slot, pcField t + t.vstart.toNat % 512 * 2 ^ 53⟩
  strandRec s u 1 ⟨0x13, t.slot, t.vdone.toNat⟩

/-- Whether an agent works for a context: a core does so while a strand of the context is resident on it. -/
def worksFor (s : State) (agent ctx : Nat) : Bool :=
  decide (0x4000 ≤ agent) || (s.residents agent).any fun u => (s.strand u).ctx = ctx

/-- A home record for a request that agent a makes for strand u (R403, R411): the event and the other agent. The number is that
of the request, which the agent counts once its home has performed it (DEDUCED, log entry 86). -/
def agentHomeRec (s : State) (u a line event scope : Nat) (other : Option Nat) : State :=
  let t := s.strand u
  if traces s t 2 then
    let pa := line * 128
    let o := match other with
      | some x => if worksFor s x t.ctx then x else 0xFFFF
      | none => 0xFFFF
    traceRec s t.ctx (homeDie pa) a
      ⟨0x20, homeDie pa * 32 + homeSlice pa,
        Tab.get 0 s.agentSeq a + line % 512 * 2 ^ 32 + scope * 2 ^ 43 + event * 2 ^ 45 + o * 2 ^ 48⟩
  else s

/-- A home record for a strand's own request for a tracked line (R411). -/
def homeRec (s : State) (u line event scope : Nat) (other : Option Nat) : State :=
  agentHomeRec s u (requester s (s.strand u).core line) line event scope other

/-- The home records of a request that took a line from the state before to ownership or to a shared copy (R411)
(DEDUCED, log entry 64). -/
def homeRecords (s : State) (u line : Nat) (before : Line) (own : Bool) (scope : Nat) : State :=
  let a := requester s (s.strand u).core line
  let others := if before.code = 1 ∨ before.code = 2 then before.sharers.filter fun x => x != a else []
  others.foldl (init := s) fun s x =>
    if own then homeRec s u line (if before.code = 2 then 1 else 0) scope (some x)
    else if before.code = 2 then homeRec s u line 2 scope (some x) else s

/-! Replay (R415-R418). -/

/-- What replay makes of an event at a base die. -/
inductive Gate where
  /-- the event is performed, and an entry is appended -/
  | record
  /-- the event is performed, and nothing is appended -/
  | free
  /-- the event is performed unrecorded, and RPLSTAT.NR is set -/
  | lost
  /-- the event waits -/
  | hold
  deriving DecidableEq, Repr

/-- The replay log of a context. -/
def replayLog (s : State) (ctx : Nat) : Option Quarters :=
  let t := (s.context ctx).trace
  Quarters.of ctx t.rplBase t.rplCb t.rplSize

/-- The entry of an event: kind 1 atomic, 2 barrier, 3 ticket ready, 4 engine end (R415). -/
def replayEntry (t : Strand) (kind : Nat) : List Byte :=
  leBytes 8 (kind + t.stageId.toNat % 256 * 2 ^ 8 + t.strandId.toNat / 2 ^ 16 % 16 * 2 ^ 16
      + (if t.isExecute then 2 ^ 20 else 0) + t.strandId.toNat % 2 ^ 15 * 2 ^ 21) ++
    leBytes 4 (t.troupeId.toNat % 2 ^ 32) ++ leBytes 4 t.trace.events

/-- The entry that playback performs next at a base die (R417). -/
def replayNext (s : State) (ctx d : Nat) : Option (List Byte) :=
  match replayLog s ctx with
  | none => none
  | some q =>
    let i := Tab.get 0 (s.context ctx).trace.rplPos d
    match q.counts s d with
    | none => none
    | some (t, _) =>
      if t ≤ i then none
      else match ringPlace s ctx (q.base + BitVec.ofNat 64 (16 * (d * q.q + i % q.q))) with
        | some a => some (coherentBytes s a 16)
        | none => none

/-- What replay makes of an event whose issuer is strand u at base die d (R415-R417). -/
def replayGate (s : State) (u d kind : Nat) (expired : Bool) : Gate :=
  let t := s.strand u
  let c := (s.context t.ctx).trace
  let mode := c.rplMode.toNat % 4
  if !t.trace.replay || mode = 0 then .free
  else if mode = 3 then
    if c.rplStat.getLsbD 63 then .free
    else match replayNext s t.ctx d with
      | none => .lost
      | some e => if e = replayEntry t kind then .record else if expired then .lost else .hold
  else match replayLog s t.ctx with
    | none => .lost
    | some q => if (q.put s d (replayEntry t kind)).isSome then .record else if mode = 1 ∨ expired then .lost else .hold

/-- Whether the context of a strand records and stalls. -/
def stalls (s : State) (u : Nat) : Bool := (s.context (s.strand u).ctx).trace.rplMode.toNat % 4 = 2

/-- The issuer of an event that replay can hold. -/
def heldIssuer (s : State) : Instr → Nat
  | .reductionPerform r => r.issuer
  | .boothFill slice entry => (Tab.get Booth.blank (s.die (slice / 32)).booths (slice % 32 * 2048 + entry)).issuer
  | .commandEnd die entry => (Tab.get Command.blank (s.die die).cmds entry).issuer
  | _ => 0

/-- The base die at whose place replay holds an operation that a strand has issued, and since when: the strand is parked for it, or about
to have it performed (R416). -/
def Strand.atPlace (t : Strand) : Option (Nat × Nat) :=
  t.trace.heldAt.filter fun h => t.run = .ready || t.run = .parked (.replay h.1)

/-- The strands that an event of theirs at a base die holds, and since when. -/
def heldStrands (s : State) (die : Nat) : List (Nat × Nat) :=
  s.strands.filterMap fun p => (p.2.atPlace.filter fun h => h.1 = die).map fun h => (p.1, h.2)

/-- Whether events of a context have been held at a base die since before a time: those that came later wait for them (R416). -/
def heldBefore (s : State) (ctx die since : Nat) : Bool :=
  ((s.die die).replayHolds.any fun h => (s.strand (heldIssuer s h.1)).ctx = ctx && decide (h.2.1 < since))
    || (heldStrands s die).any fun h => (s.strand h.1).ctx = ctx && decide (h.2 < since)

/-- What replay makes of an event of strand u that came to its place at base die d at a time: in mode 2 those held there for longer go
first (R415-R417). -/
def placeGate (s : State) (u d kind : Nat) (expired : Bool) (since : Nat) : Gate :=
  let g := replayGate s u d kind expired
  if g = .record && stalls s u && heldBefore s (s.strand u).ctx d since then .hold else g

/-- Whether the hold of an event in flight at a base die has expired (R416). -/
def holdExpired (s : State) (d : Nat) (e : Instr) : Bool := (s.die d).replayHolds.any fun h => h.1 = e && h.2.2

/-- The hold of an event that is performed ends. -/
def dropHold (s : State) (d : Nat) (e : Instr) : State :=
  if (s.die d).replayHolds.isEmpty then s
  else s.updDie d fun k => { k with replayHolds := k.replayHolds.filter fun h => h.1 != e }

/-- RPLSTAT.NR set, with FROM at the quarter's entry number if it was clear (R416, R418). -/
def notReplayable (s : State) (ctx d : Nat) : State :=
  let c := (s.context ctx).trace
  if c.rplStat.getLsbD 63 then s
  else
    let n := if c.rplMode.toNat % 4 = 3 then Tab.get 0 c.rplPos d
      else match replayLog s ctx with
        | some q => (match q.counts s d with
          | some (t, _) => t
          | none => 0)
        | none => 0
    s.updContext ctx fun c => { c with trace := { c.trace with
      rplStat := BitVec.ofNat 64 (2 ^ 63 + d * 2 ^ 40 + n % 2 ^ 40) } }

/-- The log after an event that the gate let through (R415, R417). -/
def replayDone (s : State) (u d kind : Nat) (g : Gate) : State :=
  let t := s.strand u
  let s := match g with
    | .record =>
      if (s.context t.ctx).trace.rplMode.toNat % 4 = 3 then
        s.updContext t.ctx fun c => { c with trace := { c.trace with
          rplPos := Tab.set 0 c.trace.rplPos d (Tab.get 0 c.trace.rplPos d + 1) } }
      else match replayLog s t.ctx with
        | some q => (match q.put s d (replayEntry t kind) with
          | some s => s
          | none => notReplayable s t.ctx d)
        | none => notReplayable s t.ctx d
    | .lost => notReplayable s t.ctx d
    | _ => s
  s.updStrand u fun t => { t with trace := { t.trace with
    events := if g = .record then (t.trace.events + 1) % 2 ^ 32 else t.trace.events
    replayFree := false
    heldAt := none } }

end Sys2Proof.Machine
end

