-- ==== Sys2Proof/Machine/Ops.lean ====
section
/-! DEFINITION. How an instruction runs: the order of checks (R45), parking (R103), completion, and taking a trap and
returning from one (R366-R371), each once. -/

namespace Sys2Proof.Machine

/-- The outcome of a step. -/
abbrev Out := Host.Outcome State Fault Refusal

/-- Why an instruction does not complete. -/
inductive Stop where
  /-- a trap: the instruction has had no effect (R46, R125) -/
  | trap (t : Trap)
  /-- a trap that keeps the effects made so far; part says whether the instruction is partly done (R368) -/
  | trapAt (t : Trap) (part : Bool)
  /-- the strand parks; the instruction has had no effect and issues again when it wakes (R103; DEDUCED, log entry 22) -/
  | park (w : Wait)
  /-- the strand parks and keeps the progress made so far (R148, R195, R204) -/
  | parkAt (w : Wait)
  deriving DecidableEq, Repr

/-- What an instruction does to the program counter when it completes. -/
inductive Flow where
  | seq
  | jump (pc : Word)
  /-- the instruction has set the strand's state itself -/
  | stay
  deriving DecidableEq, Repr

/-- The effect of an instruction on the state. -/
abbrev M := EStateM Stop State

/-- Raise a trap of an instruction that has had no effect. -/
def trap {α : Type} (cause sub : Nat) (v : Word) : M α := throw (.trap ⟨cause, sub, v⟩)

/-- The executing strand. -/
def me : M Strand := do return (← get).me

/-- Change the executing strand. -/
def updMe (f : Strand → Strand) : M Unit := modify fun s => s.updMe f

/-- Answer the value of an exceptional computation, or raise its trap. -/
def orTrap {α : Type} : Except Trap α → M α
  | .ok a => pure a
  | .error t => throw (.trap t)

/-- Run an effect; where it stops, the state is as before and the reason is answered. -/
def attempt {α : Type} (m : M α) : M (Except Stop α) := fun s =>
  match m s with
  | .ok a s' => .ok (.ok a) s'
  | .error e _ => .ok (.error e) s

/-- An effect on behalf of strand u, from outside its instructions: the answer and the state, if it does not stop. -/
def runAs {α : Type} (s : State) (u : Nat) (m : M α) : Option (α × State) :=
  match m { s with cur := u } with
  | .ok a s' => some (a, { s' with cur := s.cur })
  | .error _ _ => none

/-! Control over a strand from outside. -/

/-- A strand's cycles of parking, in its core's clock, added to the counter of what it waited on (R413). -/
def Wait.counter : Wait → Option Nat
  | .queueData _ => some 2
  | .queueSpace _ => some 2
  | .queueDrain _ => some 2
  | .fullSet _ => some 2
  | .fullClear _ => some 2
  | .ticket _ _ _ => some 3
  | .landing _ _ _ => some 3
  | .quota => some 3
  | .booth _ => some 3
  | .watermark _ _ => some 3
  | .epush _ => some 3
  | .epop _ => some 3
  | .ewait _ _ _ => some 3
  | .barrier _ _ _ => some 4
  | .value _ _ => some 4
  | _ => none

/-- One of the strand's counters of R413 advanced. -/
def Strand.bump (t : Strand) (c n : Nat) : Strand :=
  { t with trace := { t.trace with counters := Tab.set 0 t.trace.counters c (Tab.get 0 t.trace.counters c + BitVec.ofNat 64 n) } }

/-- The cycles for which a parked strand has been parked are counted, in its core's clock (R413). -/
def Strand.countParked (s : State) (t : Strand) : Strand :=
  match t.run with
  | .parked w => match w.counter with
    | some c => t.bump c ((s.clock - t.parkedAt) / cycleUnits (classOf s t.core))
    | none => t
  | _ => t

/-- A parked strand becomes Ready (R93, R103). -/
def wake (s : State) (u : Nat) : State :=
  s.updStrand u fun t =>
    match t.run with
    | .parked _ => { t.countParked s with run := .ready }
    | _ => t

/-- The time since which replay holds an event of a strand that parks: it keeps its place among those held (R416). -/
def Strand.holdFor (t : Strand) (clock : Nat) : Wait → Option (Nat × Nat)
  | .replay d => some (match t.trace.heldAt with
    | some h => if h.1 = d then h else (d, clock)
    | none => (d, clock))
  | _ => none

/-- A strand parks (R103). -/
def park (s : State) (u : Nat) (w : Wait) : State :=
  s.updStrand u fun t =>
    { t with run := .parked w, parkedAt := s.clock, trace := { t.trace with heldAt := t.holdFor s.clock w } }

/-- A strand's slot is given back: its run is over (R93, R106, R152, R425). -/
def finishStrand (s : State) (u : Nat) : State :=
  leaveCore (s.updStrand u fun t =>
    { t with
      run := .done
      cycleAcc := s.cycles t
      queues := [] }) (s.strand u).core (s.strand u).ctx

/-! The context's fault log for a strand, and lost contexts (R372, R373). -/

/-- Bytes stored for a context at system scope: the walk, then a plain store at the home, with the poisoned-data fault of a fenced one
(R27) and the discard of an empty key slot (R424). -/
def ctxStore (s : State) (ctx : Nat) (va : Word) (bs : List Byte) : Except Trap State :=
  match walk s false ctx va with
  | .error t => .error t
  | .ok l =>
    match checkLeaf .store l va with
    | some t => .error t
    | none =>
      if !reachable s l.pa then .error ⟨11, 0, va⟩
      else if keyEmpty s l then .ok (faultLog s ctx ⟨va, 0, 11, 0, false, 0xFF, 0⟩)
      else .ok (homePut (stampKey s l bs.length) l.pa bs l.logEnable ctx va)

/-- A launch queue enters Error with a refusal code (R393): LASTERR is written and an event raised. -/
def queueError (s : State) (q code cause sub index : Nat) (toError : Bool) : State :=
  let d := Tab.get LaunchQueue.blank s.queues q
  let w := code + cause * 2 ^ 8 + sub * 2 ^ 16 + (index % 2 ^ 32) * 2 ^ 32
  let s := match ctxStore s d.ctx (d.cb + 0x10) (leBytes 8 w) with
    | .ok s => s
    | .error _ => s
  let s := if toError then { s with queues := Tab.set LaunchQueue.blank s.queues q { d with state := 2 } } else s
  s.raise 4

/-- A launch. -/
def State.launch (s : State) (i : Nat) : Launch := Tab.get Launch.blank s.launches i

/-- The state with a launch changed. -/
def State.updLaunch (s : State) (i : Nat) (f : Launch → Launch) : State :=
  { s with launches := Tab.set Launch.blank s.launches i (f (s.launch i)) }

/-- A launch queue. -/
def State.queueDesc (s : State) (q : Nat) : LaunchQueue := Tab.get LaunchQueue.blank s.queues q

/-- The state with the launch that a queue is placing. -/
def setPlacing (s : State) (q : Nat) (p : Option Nat) : State :=
  { s with queues := Tab.set LaunchQueue.blank s.queues q { s.queueDesc q with placing := p } }

/-- Give back the slots that a launch has reserved. -/
def releaseReserved (s : State) (id : Nat) : State :=
  let s := (s.launch id).reserved.foldl (init := s) fun s r => r.2.foldl (init := s) fun s c =>
    s.updCore c.1 fun k => { k with reserved := k.reserved.filter fun x => !c.2.contains x }
  s.updLaunch id fun l => { l with reserved := [] }

/-- What strands wait for at booths, and for landing slots, is withdrawn. -/
def withdrawRequests (s : State) (us : List Nat) : State :=
  { s with
    dies := s.dies.map fun (i, (d : Die)) => (i, { d with boothWaits := d.boothWaits.filter fun w => !us.contains w.2.2.issuer })
    cores := s.cores.map fun (i, (c : Core)) => (i, { c with landers := c.landers.filter fun u => !us.contains u }) }

/-- Every Queued or Running command of a context is cancelled without an interrupt, and ends once nothing of it is in flight (R320, R334). -/
def cancelCommands (s : State) (ctx : Nat) : State :=
  (List.range 4).foldl (init := s) fun s d => s.updDie d fun k =>
    { k with cmds := k.cmds.map fun (i, c) =>
        (i, if c.ctx = ctx ∧ (c.st = .queued ∨ c.st = .running) then { c with stop := true, ctrl := c.ctrl &&& ~~~(0x20000000 : Word) } else c) }

/-- The slots that moves of a context's strands have reserved are given back, and the moves are gone. -/
def dropMoves (s : State) (ctx : Nat) : State :=
  let s := s.moves.foldl (init := s) fun s m => match m.target with
    | some (core, slots) =>
      if (s.strand m.uid).ctx = ctx then s.updCore core fun c => { c with reserved := c.reserved.filter fun k => !slots.contains k } else s
    | none => s
  { s with moves := s.moves.filter fun v => (s.strand v.uid).ctx != ctx }

/-- A context is lost (R373): it is fenced, none of its strands issues again, its commands are cancelled (R334), each of its queues enters
Error with code 11, and its launches end without completion writes (R393). -/
def loseContext (s : State) (ctx sub : Nat) (u : Option Nat) : State :=
  if (s.context ctx).lost then s
  else
    let slotCore := match u with
      | some u => ((s.strand u).slot, (s.strand u).core)
      | none => (0xFF, 0)
    let s := faultLog s ctx ⟨0, 0, 21, sub, false, slotCore.1, slotCore.2⟩
    let s := s.updContext ctx fun c => { c with lost := true, channels := [], gangs := [] }
    let mine := (s.strands.filter fun p => p.2.ctx = ctx && p.2.run.live).map Prod.fst
    let s := mine.foldl (init := dropMoves (withdrawRequests s mine) ctx) fun s u => finishStrand s u
    let s := cancelCommands s ctx
    let s := ((s.launches.filter fun l => l.2.ctx = ctx).map Prod.fst).foldl (init := s) fun s i =>
      (releaseReserved s i).updLaunch i fun l => { l with ended := true }
    let s := ((s.queues.filter fun p => p.2.ctx = ctx).map Prod.fst).foldl (init := s) fun s q =>
      queueError (setPlacing s q none) q 11 0 0 0 true
    { s with saved := s.saved.filter fun v => !(v.members.any fun m => (s.strand m).ctx = ctx) }

/-! Part-done instructions (R368). -/

/-- The place of a strand's level among its part-done instructions. -/
def partLevel (firmware : Bool) : Nat := if firmware then 1 else 0

/-- Whether an instruction has come no way. -/
def Progress.fresh (p : Progress) : Bool :=
  p.steps = 0 && p.heads.isNone && p.slots = 0 && p.request.isNone && !p.merged && p.wait.isNone

/-- Whether an instruction is partly done: it has made steps, discarded heads, allocated slots or merged positions (R368). -/
def Progress.begun (p : Progress) : Bool := p.steps != 0 || (p.heads.any fun h => h.2) || p.slots != 0 || p.merged

/-- How far the instruction at the program counter has come. -/
def Strand.part (t : Strand) : Progress :=
  let p := Tab.get Progress.none t.parts (partLevel t.firmware)
  if p.pc = t.pc then p else Progress.none

/-- The strand with the instruction at the program counter as far as p says. -/
def Strand.setPart (t : Strand) (p : Progress) : Strand :=
  { t with parts := Tab.set Progress.none t.parts (partLevel t.firmware) (if p.fresh then Progress.none else { p with pc := t.pc }) }

/-- The part-done instruction that the running handler interrupted, while TRAPPC stands at it; outside a handler the one at the
program counter (R185, R368). -/
def Strand.interrupted (t : Strand) : Progress :=
  if t.firmware && t.trapStat.getLsbD 0 then
    let p := Tab.get Progress.none t.parts (partLevel (t.trapStat.getLsbD 1))
    if p.pc = t.trapPc then p else Progress.none
  else t.part

/-- What a handler that returns somewhere else leaves: the instruction it interrupted is not resumed (R368). -/
def Strand.dropPart (t : Strand) : Strand :=
  let i := partLevel (t.trapStat.getLsbD 1)
  if (Tab.get Progress.none t.parts i).pc = t.trapPc then t else { t with parts := Tab.set Progress.none t.parts i Progress.none }

/-! Taking a trap (R366-R371). -/

/-- The TRAPSTAT that a trap leaves: BPSKIP is kept, the other fields are set (R365). -/
def trapStatus (t : Strand) (part : Bool) : Word :=
  BitVec.ofNat 64 (1 + (if t.firmware then 2 else 0) + (if part then 2 ^ 9 else 0)
    + (if t.uistat.getLsbD 1 then 2 ^ 10 else 0) + (if t.isExecute then 2 ^ 11 else 0) + t.slot % 16 * 2 ^ 12)
  ||| (t.trapStat &&& 0x100)

/-- TRAPCAUSE of a trap (R364). -/
def trapCauseWord (cause sub : Nat) (async : Bool) : Word :=
  BitVec.ofNat 64 (cause % 64 + sub % 256 * 2 ^ 16 + (if async then 2 ^ 31 else 0))

/-- A strand enters its firmware handler (R366). -/
def Strand.enterTrap (t : Strand) (x : Trap) (async part : Bool) : Strand :=
  let b := t.bump 7 1
  { b with
    run := .ready
    trace := { b.trace with heldAt := none }
    trapPc := t.pc
    trapCause := trapCauseWord x.cause x.sub async
    trapVal := x.val
    trapStat := trapStatus t part
    firmware := true
    pc := t.trapVec }

/-- An event for the host: a bit of EVSTAT. A bit that comes to be set raises MSI-X vector 0, or waits while the host masks it (R421;
DESIGN CHOICE, log entry 113). -/
def State.tellHost (s : State) (bit : Nat) : State :=
  s.updModule fun m => { m with
    evStat := m.evStat ||| BitVec.ofNat 64 (2 ^ bit)
    msixPending := m.msixPending || (m.msixMasked && !m.evStat.getLsbD bit)
    msixSent := if m.msixMasked || m.evStat.getLsbD bit then m.msixSent else m.msixSent + 1 }

/-- A double trap (R371): the strand is fenced, the host gets a firmware error, and a context is lost. -/
def doubleTrap (s : State) (u : Nat) : State :=
  let t := s.strand u
  let s := s.tellHost 1
  let s := finishStrand s u
  if (s.context t.ctx).live then loseContext s t.ctx 4 (some u) else s

/-- A strand takes a trap (R366). -/
def takeTrap (s : State) (u : Nat) (x : Trap) (async part : Bool) : State :=
  let t := s.strand u
  if t.trapStat.getLsbD 0 && t.firmware then doubleTrap s u
  else s.updStrand u fun t => t.enterTrap x async part

/-- Whether a strand is in the Skipping state's loop: some loop slot skips (R108). -/
def Strand.skips (t : Strand) : Bool := t.loops.any fun l => l.2.skip

/-- RETT (R380): the strand returns to TRAPPC at the level before the trap; BPSKIP arms one instruction (R369). -/
def Strand.leaveTrap (t : Strand) : Strand :=
  { t.dropPart with
    run := if t.skips then .skipping else .ready
    pc := t.trapPc
    firmware := t.trapStat.getLsbD 1
    bpSkip := t.trapStat.getLsbD 8
    trapStat := t.trapStat &&& ~~~(0x101 : Word) }

/-! Class-missing traps (R350, R358). -/

/-- Swap x24-x31 and their full bits with the shadow bank (R331). -/
def Strand.swapBank (t : Strand) : Strand :=
  let regs := (List.range 8).map (· + 24)
  { t with
    x := regs.foldl (init := t.x) fun x r => Tab.set 0 x r (Tab.get 0 t.shadow r)
    shadow := regs.foldl (init := t.shadow) fun x r => Tab.set 0 x r (Tab.get 0 t.x r)
    full := (t.full &&& 0x00FFFFFF) ||| (t.shadowFull &&& 0xFF000000)
    shadowFull := (t.shadowFull &&& 0x00FFFFFF) ||| (t.full &&& 0xFF000000) }

/-- Enter the user-level emulation handler (R358). -/
def Strand.enterEmulation (t : Strand) (w : InstrWord) (reason : Nat) : Strand :=
  let pc := t.pc
  let t := t.swapBank.bump 7 1
  { t with
    run := .ready
    uipc := pc + 4
    uistat := t.uistat ||| 2
    x := Tab.set 0 (Tab.set 0 (Tab.set 0 t.x 24 (w.setWidth 64)) 25 pc) 26 (BitVec.ofNat 64 reason)
    pc := t.emuVec }

/-- One more emulation trap in MIGCNT.EMU, saturating (R361); both strands of a couple read the same value. -/
def countEmulation (s : State) (u : Nat) : State :=
  (s.couple u).foldl (init := s) fun s v => s.updStrand v fun t =>
    { t with travel := { t.travel with emu := if t.travel.emu < 65535 then t.travel.emu + 1 else t.travel.emu } }

/-- Whether user-level emulation is possible: EMUVEC is set, no handler runs, and no x field names x24-x31 (R358). -/
def Strand.canEmulate (t : Strand) (xfields : List Nat) : Bool :=
  t.emuVec != 0 && !t.uistat.getLsbD 1 && !(xfields.any fun r => decide (24 ≤ r ∧ r < 32))

/-- End a strand's unit because nothing can run its instruction (R109, R350): a context fault with cause 3. -/
def endUnit (s : State) (u : Nat) (w : InstrWord) : State :=
  let t := s.strand u
  let s := faultLog s t.ctx ⟨t.pc, w.setWidth 64, 3, 0, false, t.slot, t.core⟩
  (s.unit u).foldl (init := s) fun s v => finishStrand s v

/-- A record of Carousel about a strand (R362, R409). -/
def migrationRec (s : State) (u kind slot core target reason bytes : Nat) : State :=
  let t := s.strand u
  let d := dieOf s core
  if traces s t 4 then
    traceRec s t.ctx d (agentUnit d 49)
      ⟨kind, slot, core % 2 ^ 14 + target % 2 ^ 14 * 2 ^ 14 + reason % 16 * 2 ^ 28 + bytes % 2 ^ 32 * 2 ^ 32⟩
  else s

/-- Emulate the instruction, or end the unit, or wait for a core of these classes (R350) (DEDUCED, log entry 45). -/
def emulate (s : State) (u : Nat) (w : InstrWord) (xfields : List Nat) (reason : Nat) (orEnd : Option Wait) : State :=
  let t := s.strand u
  if t.canEmulate xfields then
    let s := migrationRec s u 0x32 t.slot t.core t.core reason 0
    countEmulation (s.updStrand u fun t => t.enterEmulation w reason) u
  else match orEnd with
    | none => endUnit s u w
    | some p => park s u p

/-- The moves with one more search of a strand. Where its partner's class-missing trap is pending, a core for both instructions is
sought, and where no class executes both, one for that of the lower-numbered slot (R356; DEDUCED, log entry 50). -/
def joinSearch (s : State) (v : Move) : List Move :=
  let rest := s.moves.filter fun x => x.uid != v.uid
  match s.moves.find? fun x => x.uid = v.uid && x.target.isNone && x.reason = 1 && x.issuer != v.issuer with
  | some m =>
    if m.classes &&& v.classes ≠ 0 then rest ++ [{ m with classes := m.classes &&& v.classes }]
    else if (s.strand v.issuer).slot < (s.strand m.issuer).slot then rest ++ [v]
    else s.moves
  | none => rest ++ [v]

/-- A class-missing trap at a form that the classes of the mask execute (R350). A member of a family for which no class is left either is given
reason 4, not 3 (R358; DESIGN CHOICE, log entry 124). A search for a core becomes a move that
waits for its core until the context's wait bound (R352); the strand is parked (R103). -/
def classMissing (s : State) (u : Nat) (w : InstrWord) (classes : Nat) (xfields : List Nat) : State :=
  let t := s.strand u
  let o := s.strand (s.owner u)
  let mask := (classes &&& o.travel.allowed) &&& (if (s.couple u).any fun v => !(s.strand v).gangs.isEmpty then 6 else 7)
  if s.inFamily u then emulate s u w xfields 4 none
  else if mask = 0 then emulate s u w xfields 3 none
  else if o.travel.credits = 0 then emulate s u w xfields 1 (some (.migrate mask true))
  else
    let s := park s u (.migrate mask false)
    { s with moves := joinSearch s ⟨s.owner u, mask, 1, s.time + (s.context t.ctx).waitBound, none, s.clock, none, u, w, xfields⟩ }

/-! The checks of an instruction (R45). -/

/-- How an instruction uses an operand field, for checks 6 and 7. -/
inductive Opnd where
  /-- register-only, base and index fields -/
  | reg (f : BitVec 6)
  /-- a data operand: a queue it names must have the slot kind, and the strand must produce or consume -/
  | data (f : BitVec 6) (kind : Nat) (produce : Bool)
  /-- operand a under a synchronised read (R34) -/
  | sync (f : BitVec 6)
  /-- a queue-only field: the slot kinds it accepts, none meaning any; the role, none meaning either -/
  | queue (f : BitVec 6) (kinds : List Nat) (produce : Option Bool)
  /-- QCFG's field, which may name an unconfigured queue -/
  | handle (f : BitVec 6)
  deriving DecidableEq, Repr

/-- Check 6 for one field: the sub-cause of cause 2 (R47). -/
def Opnd.bad : Opnd → Option Nat
  | .reg f => if f.toNat < 32 then none else if f.toNat < 48 then some 1 else some 0
  | .data f _ _ => if f.toNat < 48 then none else some 0
  | .sync f => if f.toNat < 32 then none else if f.toNat < 48 then some 3 else some 0
  | .queue f _ _ => if f.toNat < 32 then some 2 else if f.toNat < 48 then none else some 0
  | .handle f => if f.toNat < 32 then some 2 else if f.toNat < 48 then none else some 0

/-- Queue q of a strand: a couple's queues belong to its access strand (R133). -/
def State.queue (s : State) (u q : Nat) : Queue := Tab.get Queue.none (s.strand (s.owner u)).queues q

/-- The state with a queue of a strand's couple changed. -/
def State.updQueue (s : State) (u q : Nat) (f : Queue → Queue) : State :=
  s.updStrand (s.owner u) fun t => { t with queues := Tab.set Queue.none t.queues q (f (Tab.get Queue.none t.queues q)) }

/-- KIND of a queue (R135): 0 unconfigured, 1 scalar, 2 vector, 3 tile, 4 branch. -/
def Queue.kind (q : Queue) : Nat := (q.cfg.extractLsb' 0 3).toNat
/-- DIR: the execute strand produces. -/
def Queue.e2a (q : Queue) : Bool := q.cfg.getLsbD 8
/-- NEED. -/
def Queue.need (q : Queue) : Nat := (q.cfg.extractLsb' 12 4).toNat
/-- DEPTH. -/
def Queue.depth (q : Queue) : Nat := (q.cfg.extractLsb' 16 11).toNat
/-- V - H: the ready slots at the front (R137). -/
def Queue.ready (q : Queue) : Nat := (q.slots.takeWhile fun x => x.ready).length
/-- F, modulo 2^16. -/
def Queue.fill (q : Queue) : Nat := (q.h + q.slots.length) % 65536

/-- Whether a strand may produce into, or consume from, a queue (R145). -/
def Strand.mayUse (t : Strand) (q : Queue) (produce : Bool) : Bool :=
  !t.coupled || ((q.e2a == t.isExecute) == produce)

/-- Check 7 of one queue: the sub-cause of cause 13 (R150). -/
def queueCheck (s : State) (u q : Nat) (kinds : List Nat) (produce : Option Bool) : Option Nat :=
  let k := s.queue u q
  if k.kind = 0 then some 0
  else if !kinds.isEmpty && !kinds.contains k.kind then some 1
  else match produce with
    | none => none
    | some p => if (s.strand u).mayUse k p then none else some 2

/-- Check 7 of one field. -/
def Opnd.badQueue (s : State) (u : Nat) : Opnd → Option Nat
  | .data f kind p => if 32 ≤ f.toNat then queueCheck s u (f.toNat - 32) [kind] (some p) else none
  | .queue f kinds p => queueCheck s u (f.toNat - 32) kinds p
  | _ => none

/-- The field of an operand. -/
def Opnd.field : Opnd → BitVec 6
  | .reg f => f
  | .data f _ _ => f
  | .sync f => f
  | .queue f _ _ => f
  | .handle f => f

/-- What checks 4 to 8 need to know about an instruction. -/
structure Form where
  word : InstrWord
  /-- check 4: the trap that the control-register number takes -/
  csr : Option Trap := none
  /-- check 5 -/
  firmware : Bool := false
  /-- checks 6 and 7, in the order d, a, b, i -/
  ops : List Opnd := []
  /-- barred on an execute strand (R146) -/
  bar : Bool := false
  /-- the classes that execute the form: bit 0 C, bit 1 V, bit 2 M (R348) -/
  classes : Nat := 7
  /-- the fields that name x registers, for R358 -/
  xfields : List Nat := []

/-- Checks 4 to 8 (R45): the first trap that applies. -/
def Form.check (f : Form) (s : State) : Option Trap :=
  let t := s.me
  let w : Word := f.word.setWidth 64
  match f.csr with
  | some x => some x
  | none =>
    if f.firmware && !t.firmware then some ⟨4, 0, w⟩
    else match f.ops.findSome? Opnd.bad with
      | some n => some ⟨2, n, w⟩
      | none =>
        if f.bar && t.isExecute then some ⟨13, 6, w⟩
        else match f.ops.findSome? fun o => (o.badQueue s s.cur).map fun n => (o, n) with
          | some (o, n) => some ⟨13, n, o.field.setWidth 64⟩
          | none =>
            if f.classes.testBit (classOf s t.core) then none
            else some ⟨3, 0, w⟩

/-! Completion. -/

/-- The strand with its program counter at pc. -/
def Strand.setPc (t : Strand) (pc : Word) : Strand := { t with pc := pc }

/-- The strand with ISSUED advanced (R438). -/
def Strand.addIssued (t : Strand) : Strand := { t with issued := t.issued + 1 }

/-- The strand with the counts of R360 set. -/
def Strand.setWindow (t : Strand) (issued away : Nat) : Strand :=
  { t with travel := { t.travel with issued := issued, away := away } }

/-- The counts of a completed instruction: ISSUED at user level (R438) and the window of proactive return (R360). -/
def countIssued (s : State) (u : Nat) (classes : Nat) : State :=
  let s := s.updStrand u Strand.addIssued
  let o := s.owner u
  let v := (s.strand o).travel
  let n := v.issued + 1
  let away := v.away + if classes.testBit v.launchClass then 0 else 1
  if 65536 ≤ n then
    let s := s.updStrand o fun t => t.setWindow 0 0
    if classOf s (s.strand o).core ≠ v.launchClass ∧ away = 0 ∧ 2 ≤ v.credits ∧ !(s.inFamily u) then s.post (.proactiveReturn o)
    else s
  else s.updStrand o fun t => t.setWindow n away

/-- The state after an instruction of strand s.cur completes. -/
def complete (f : Form) (s : State) (flow : Flow) (s' : State) : State :=
  let u := s.cur
  let s' := if s.me.firmware then s' else countIssued s' u f.classes
  match flow with
  | .seq => s'.updStrand u fun t => t.setPc (t.pc + 4)
  | .jump pc => s'.updStrand u fun t => t.setPc pc
  | .stay => s'

/-- Whether a trap is the effect of the instruction itself, a service call or BRK: it counts as completed when it takes its trap
(R438). -/
def Trap.isEffect (x : Trap) : Bool := x.cause = 15 || (x.cause = 16 && x.sub = 0)

/-- A trap of an instruction (R366, R350) (DEDUCED, log entry 38). -/
def stopTrap (f : Form) (s : State) (x : Trap) (part : Bool) : State :=
  if x.cause = 3 then classMissing s s.cur f.word f.classes f.xfields
  else
    let s := if x.isEffect && !s.me.firmware then countIssued s s.cur f.classes else s
    takeTrap s s.cur x false part

/-- Whether the partner of a strand of a couple can no longer act (R140). -/
def partnerGone (s : State) (u : Nat) : Bool :=
  let t := s.strand u
  t.coupled && (match (s.strand t.partner).run with
    | .exited => true
    | .done => true
    | _ => false)

/-- What sub-cause 7 of cause 13 says of an operand: its queue, which only an exited partner could fill or empty, has no head or no free
slot, or its full bit is clear for good (R140, R150). -/
def Opnd.stuck (s : State) (u : Nat) (o : Opnd) : Bool :=
  let k := s.queue u (o.field.toNat - 32)
  let queueStuck := fun (produce : Bool) =>
    decide (32 ≤ o.field.toNat) && partnerGone s u && if produce then decide (k.depth ≤ k.slots.length) else k.slots.isEmpty
  match o with
  | .data _ _ p => queueStuck p
  | .queue _ _ (some p) => queueStuck p
  | .sync r => r != 0 && !(s.strand u).full.getLsbD r.toNat && (!(s.strand u).coupled || partnerGone s u)
  | _ => false

/-- A trap of sub-cause 7 names the first of the operand fields that meet its condition (R150). -/
def Form.firstStuck (f : Form) (s : State) (x : Trap) : Trap :=
  if x.cause = 13 ∧ x.sub = 7 then
    match f.ops.find? (Opnd.stuck s s.cur) with
    | some o => ⟨13, 7, o.field.setWidth 64⟩
    | none => x
  else x

/-- Run an instruction: checks 4 to 8, then its effect; its traps and its parking are next states (DEDUCED, log entry 84). -/
def insn (f : Form) (body : M Flow) (s : State) : Out :=
  match f.check s with
  | some x => .next (stopTrap f s x false)
  | none =>
    match body s with
    | .ok flow s' => .next (complete f s flow s')
    | .error (.trap x) _ => .next (stopTrap f s (f.firstStuck s x) false)
    | .error (.trapAt x part) s' => .next (stopTrap f s' x part)
    | .error (.park w) _ => .next (park s s.cur w)
    | .error (.parkAt w) s' => .next (park s' s.cur w)

/-- An instruction that goes on to the next one. -/
def seq (body : M Unit) : M Flow := do body; return .seq

end Sys2Proof.Machine
end

