-- ==== Sys2Proof/Machine/Operands.lean ====
section
/-! DEFINITION. The operand forms (R34-R37): scalar registers, synchronised reads, queue heads and slots, vector registers
and predicates. -/

namespace Sys2Proof.Machine

/-- The place of a slot of a generation among the slots of a queue. -/
def Queue.place (q : Queue) (slot gen : Nat) : Option Nat :=
  let i := (slot + 65536 - q.h) % 65536
  if gen = q.gen ∧ i < q.slots.length then some i else Option.none

/-- The queue with its nth slot changed. -/
def Queue.updSlot (q : Queue) (n : Nat) (f : Slot → Slot) : Queue :=
  { q with slots := q.slots.zipIdx.map fun (x, i) => if i = n then f x else x }

/-! Scalar registers (R112-R114) and queues (R36, R136-R145). -/

/-- Register r of a strand; x0 reads 0. -/
def Strand.reg (t : Strand) (r : Nat) : Word := if r = 0 then 0 else Tab.get 0 t.x r

/-- The strand with register r written; a write of x0 is discarded (R37). -/
def Strand.setReg (t : Strand) (r : Nat) (v : Word) : Strand :=
  if r = 0 then t else { t with x := Tab.set 0 t.x r v }

/-- Read a register of a register-only field. -/
def readReg (f : BitVec 6) : M Word := do return (← me).reg f.toNat

/-- Write a register of a register-only field. -/
def writeReg (f : BitVec 6) (v : Word) : M Unit := updMe fun t => t.setReg f.toNat v

/-- Take the head of a queue (R138, R140, R143) (DEDUCED, log entry 81). -/
def popQueue (q : Nat) : M Vec := do
  let s ← get
  let k := s.queue s.cur q
  match k.slots with
  | x :: rest =>
    if x.ready then
      if x.poison then trap 11 0 (BitVec.ofNat 64 (32 + q))
      else
        set (s.updQueue s.cur q fun k => { k with h := (k.h + 1) % 65536, slots := rest })
        return x.val
    else throw (.park (.queueData q))
  | [] =>
    if partnerGone s s.cur then trap 13 7 (BitVec.ofNat 64 (32 + q))
    else throw (.park (.queueData q))

/-- Allocate slot F of a queue, parking while the queue is full (R138, R140): the slot's number and the generation. -/
def allocSlot (q : Nat) (x : Slot) : M (Nat × Nat) := do
  let s ← get
  let k := s.queue s.cur q
  if k.depth ≤ k.slots.length then
    if partnerGone s s.cur then trap 13 7 (BitVec.ofNat 64 (32 + q))
    else throw (.park (.queueSpace q))
  else
    set (s.updQueue s.cur q fun k => { k with slots := k.slots ++ [x] })
    return (k.fill, k.gen)

/-- Append a value to a queue: ready at once; a branch slot holds whether the value is non-zero (R142). -/
def pushQueue (q : Nat) (v : Vec) : M Unit := do
  let s ← get
  let k := s.queue s.cur q
  let v := if k.kind = 4 then (if v = 0 then 0 else 1) else v
  let _ ← allocSlot q ⟨true, false, v, []⟩

/-- Read a data operand of the scalar majors (R35, R113). -/
def readX (f : BitVec 6) : M Word :=
  if f.toNat < 32 then readReg f
  else do return (← popQueue (f.toNat - 32)).setWidth 64

/-- Read operand a, with a synchronised read when s = 1 (R34, R140). -/
def readSync (f : BitVec 6) (sync : BitVec 1) : M Word := do
  if sync = 0 then readX f
  else
    let s ← get
    let t := s.me
    if f = 0 then return 0
    else if t.full.getLsbD f.toNat then
      updMe fun t => { t with full := t.full &&& ~~~(BitVec.ofNat 32 (2 ^ f.toNat)) }
      return t.reg f.toNat
    else if !t.coupled || partnerGone s s.cur then trap 13 7 (f.setWidth 64)
    else throw (.park (.fullSet f.toNat))

/-- Write a data operand of the scalar majors (R35, R36, R142). -/
def writeX (f : BitVec 6) (v : Word) : M Unit :=
  if f.toNat < 32 then writeReg f v else pushQueue (f.toNat - 32) (v.setWidth 2048)

/-- The operand check of a field that may be a synchronised read. -/
def syncOpnd (f : BitVec 6) (s : BitVec 1) : Opnd := if s = 1 then .sync f else .data f 1 false

/-! Vector registers and predicates (R154, R375). -/

/-- Write a vector register: n is the number of bytes from byte 0 to the highest byte written (R375). -/
def Strand.setVec (t : Strand) (r : Nat) (v : Vec) (n : Nat) : Strand :=
  { t with
    v := Tab.set 0 t.v r v
    vdirty := t.vdirty ||| BitVec.ofNat 32 (2 ^ r)
    hwm := Tab.set 0 t.hwm r (max (Tab.get 0 t.hwm r) ((n + 31) / 32)) }

/-- A vector register. -/
def Strand.vec (t : Strand) (r : Nat) : Vec := Tab.get 0 t.v r

/-- A register that a gang's strip will fill is not there yet: the instruction waits (R327). -/
def vecReady (r : Nat) : M Unit := do
  if (← me).gangs.any fun g => g.2.2 = r then throw (.park (.gangReg r))

/-- Read a data operand of the v file. -/
def readV (f : BitVec 6) : M Vec :=
  if f.toNat < 32 then do
    vecReady f.toNat
    return (← me).vec f.toNat
  else popQueue (f.toNat - 32)

/-- What a vector destination holds before it is written: a queue slot starts from zeros (R142). -/
def oldV (f : BitVec 6) : M Vec := if f.toNat < 32 then readV f else pure 0

/-- Write a data operand of the v file, of which n bytes from byte 0 may have changed: a register that nothing is written
to is left alone, and a queue gets its one slot (R36, R159, R375). -/
def writeV (f : BitVec 6) (v : Vec) (n : Nat) : M Unit :=
  if f.toNat < 32 then do
    vecReady f.toNat
    if n ≠ 0 then updMe fun t => t.setVec f.toNat v n
  else pushQueue (f.toNat - 32) v

/-- Write a predicate (R375) (DEDUCED, log entry 62). -/
def Strand.setPred (t : Strand) (r : Nat) (v : Pred) : Strand :=
  { t with p := Tab.set 0 t.p r v, pdirty := t.pdirty ||| BitVec.ofNat 64 (2 ^ r) }

/-- A predicate register. -/
def Strand.pred (t : Strand) (r : Nat) : Pred := Tab.get 0 t.p r

end Sys2Proof.Machine
end

