-- ==== Sys2Proof/Machine/Flags.lean ====
section
/-! DEFINITION. FCSR: the sticky flags and the rounding mode (R70, R71). The flags of each operation are computed with its
result in Machine/Fp.lean. -/

namespace Sys2Proof.Machine

/-- Set sticky flags of FCSR (R70). -/
def raiseFlags (fl : Nat) : M Unit :=
  if fl = 0 then pure () else updMe fun t => { t with fcsr := t.fcsr ||| BitVec.ofNat 64 (fl &&& 0x3F0) }

/-- FCSR.RM. -/
def Strand.rm (t : Strand) : Nat := (t.fcsr.extractLsb' 0 2).toNat

end Sys2Proof.Machine
end

