-- ==== Sys2Proof/Machine/Access.lean ====
section
/-! DEFINITION. Data accesses: where an address leads (R208, R255, R260), the order of faults (R125), watermarks (R324),
watches (R414), window words (R261-R263), and loads and stores by sharing class (R239-R243). -/

namespace Sys2Proof.Machine

/-- Where an access goes. -/
inductive Place where
  /-- plain allotment: the strand that owns it and the byte offset -/
  | spad (u o : Nat)
  /-- a window line: the strand, the window index, the line and the byte offset in the line -/
  | window (u idx j o : Nat)
  /-- the homes -/
  | mem (l : Leaf)
  deriving DecidableEq, Repr

/-- The window of a strand that holds allotment byte o. -/
def windowAt (t : Strand) (o : Nat) : Option (Nat × Nat × Nat) :=
  (t.windows.find? fun w => 128 * w.2.offset ≤ o && decide (o < 128 * (w.2.offset + w.2.size))).map fun w =>
    (w.1, (o - 128 * w.2.offset) / 128, (o - 128 * w.2.offset) % 128)

/-- The window of the core, in the strand's context, that covers a global address (R260). -/
def windowOver (s : State) (core ctx : Nat) (va : Word) : Option (Nat × Nat × Nat × Nat) :=
  (s.residents core).findSome? fun u =>
    let t := s.strand u
    if t.ctx = ctx then
      (t.windows.find? fun w => w.2.base.toNat ≤ va.toNat && decide (va.toNat < w.2.base.toNat + 128 * w.2.size)).map fun w =>
        (u, w.1, (va.toNat - w.2.base.toNat) / 128, (va.toNat - w.2.base.toNat) % 128)
    else none

/-- Translate for the executing strand and check the leaf (R213). -/
def leafFor (k : Kind) (va : Word) : M Leaf := do
  let s ← get
  let t := s.me
  let (l, s) ← orTrap (translate s t.core t.firmware t.ctx va)
  set s
  match checkLeaf k l va with
  | some x => throw (.trap x)
  | none => return l

/-- Translate in the window's context: at firmware level a window still belongs to its context. The faults in the order of R125:
translation, permission, class. -/
def windowLeaf (k : Kind) (va : Word) : M Leaf := do
  let s ← get
  let t := s.me
  let (l, s) ← orTrap (translate s t.core false t.ctx va)
  set s
  match checkLeaf k l va with
  | some x => throw (.trap x)
  | none =>
    if l.cls = 2 then throw (.trap ⟨8, 0, va⟩)
    return l

/-- Translate an address that a window covers and check its class: cause 6 and cause 8 with sub-cause 0 (R213, R259). -/
def coveredLeaf (va : Word) : M Leaf := do
  let s ← get
  let t := s.me
  let (l, s) ← orTrap (translate s t.core false t.ctx va)
  set s
  if l.cls = 2 then trap 8 0 va
  return l

/-- The sharing class of every parcel of a range, with the faults of R259. -/
def rangeClasses (g : Word) (n : Nat) : M (List Nat) :=
  (parcelStarts g n).mapM fun a => do
    if 2 ^ 64 ≤ a then trap 6 0 (BitVec.ofNat 64 a)
    return (← coveredLeaf (BitVec.ofNat 64 a)).cls

/-- Drop the first-level copies of the lines that a window's parcels hold: a bound window takes their place (R260). -/
def dropRangeCopies (s : State) (core ctx : Nat) (g : Word) (n : Nat) : State :=
  (List.range n).foldl (init := s) fun s j =>
    match walk s false ctx (g + BitVec.ofNat 64 (128 * j)) with
    | .error _ => s
    | .ok l => evictCopy s core (l.pa / 128)

/-- The first touch of a window after a move: its range is translated again, under the class checks of R259, and the core's
first-level copies of it go (R260, R270). -/
def rebindWindow (u i : Nat) : M Unit := do
  let w := ((← get).strand u).window i
  if w.bound then pure ()
  else
    let cls ← rangeClasses w.base (128 * w.size)
    let c0 := cls.headD 0
    if cls.any (· != c0) then trap 22 9 w.base
    modify fun s =>
      let t := s.strand u
      (dropRangeCopies s t.core t.ctx w.base w.size).updStrand u fun t => t.updWindow i fun w => { w with cls := c0, bound := true }

/-- Where an access to byte o of line j of a window goes: a store checks its parcel, and a read does where words have to be
filled (R261, R262). The trap value of a fill is the global address of the word. -/
def resolveWindow (k : Kind) (u i j o n : Nat) : M Place := do
  rebindWindow u i
  let w := ((← get).strand u).window i
  if k ≠ .load then
    let va := w.base + BitVec.ofNat 64 (128 * j + o)
    let l ← match ← attempt (windowLeaf k va) with
      | .ok l => pure l
      | .error (.trap x) =>
        -- a translation or class fault of a fill names the word
        let fills := (Tab.get 0 w.valid j) &&& wordMask o n ≠ wordMask o n ∧ !(w.cls = 0 ∧ o % 4 = 0 ∧ n % 4 = 0)
        throw (.trap (if fills ∧ x.cause ≠ 7 then { x with val := w.base + BitVec.ofNat 64 (128 * j + o / 4 * 4) } else x))
      | .error e => throw e
    if w.cls = 1 ∧ l.writable then trap 7 1 va
  else if (Tab.get 0 w.valid j) &&& wordMask o n ≠ wordMask o n then
    let _ ← windowLeaf .load (w.base + BitVec.ofNat 64 (128 * j + o / 4 * 4))
  return .window u i j o

/-- Where an access of n bytes goes, with its translation, permission and class faults (R125, R255, R261). -/
def resolve (k : Kind) (va : Word) (n : Nat) : M Place := do
  let s ← get
  let t := s.me
  match apertureOffset va with
  | some o =>
    let w := s.allotOwner s.cur
    let a := s.strand w
    if a.allotSize < o + n then trap 22 0 va
    else match windowAt a o with
      | some (i, j, b) => resolveWindow k w i j b n
      | none => return .spad w o
  | none =>
    match (if t.firmware then none else windowOver s t.core t.ctx va) with
    | some (u, i, j, b) => resolveWindow k u i j b n
    | none => return .mem (← leafFor k va)

/-! Watermarks and watches. -/

/-- Whether an access of n bytes at va meets a channel above its watermark (R324): the channel. -/
def channelAbove (s : State) (ctx : Nat) (va : Word) (n : Nat) : Option Nat :=
  ((s.context ctx).channels.find? fun c =>
    decide (c.2.base.toNat + c.2.wm < va.toNat + n) && decide (va.toNat < c.2.base.toNat + c.2.size)
      && decide (0 < c.2.size)).map Prod.fst

/-- Park while bytes of the context's address space lie above a watermark (R324). -/
def checkFill (va : Word) (n : Nat) : M Unit := do
  let s ← get
  let t := s.me
  match channelAbove s t.ctx va n with
  | some c =>
    let b := ((s.context t.ctx).channels.find? fun x => x.1 = c).map fun x => x.2.base.toNat
    throw (.park (.watermark c (va.toNat + n - b.getD 0)))
  | none => pure ()

/-- Park while an access lies above a watermark of its context (R324). At firmware level an address outside the aperture is one
of Naing's address space, in which no channel stands (R322, R366). -/
def checkChannel (va : Word) (n : Nat) : M Unit := do
  if (← me).firmware || (apertureOffset va).isSome then pure () else checkFill va n

/-- The lowest enabled watch that an access meets (R414). -/
def watchHit (t : Strand) (k : Kind) (va : Word) (n : Nat) : Option Nat :=
  (List.range 4).find? fun i =>
    let c := Tab.get 0 t.trace.wctl i
    let a := Tab.get 0 t.trace.waddr i
    let sz := 2 ^ (c.extractLsb' 0 5).toNat
    let lo := a.toNat / sz * sz
    c.getLsbD 15
      && ((c.getLsbD 9 && k ≠ .load) || (c.getLsbD 8 && k ≠ .store))
      && decide (lo < va.toNat + n) && decide (va.toNat < lo + sz)

/-- The watch trap, after every other fault and before any effect (R369). -/
def checkWatch (k : Kind) (va : Word) (n : Nat) : M Unit := do
  match watchHit (← me) k va n with
  | some i => trap 17 i va
  | none => pure ()

/-- Whether a read through a leaf returns poisoned data from its home (R27, R250, R424). -/
def poisonedAt (s : State) (l : Leaf) (n : Nat) : Bool :=
  keyEmpty s l || !reachable s l.pa ||
    ((List.range ((l.pa % 128 + n + 127) / 128)).any fun i => (s.line (l.pa / 128 + i)).code = 3)

/-! Window words (R261-R263). -/

/-- The bytes of an allotment. -/
def allotBytes (t : Strand) (o n : Nat) : List Byte := (List.range n).map fun i => Tab.get 0 t.allot (o + i)

/-- Whether a poisoned word of the allotment lies among n bytes from o on (R25). -/
def Strand.spoiledAt (t : Strand) (o n : Nat) : Bool := t.spoiled.any fun b => decide (4 * b.1 < o + n) && decide (o < 4 * b.1 + 4)

/-- The allotment with bytes written: a poisoned word that they cover whole is sound again (R25). -/
def Strand.storeAllot (t : Strand) (o : Nat) (bs : List Byte) : Strand :=
  { t with
    allot := bs.zipIdx.foldl (init := t.allot) fun a bi => Tab.set 0 a (o + bi.2) bi.1
    spoiled := t.spoiled.filter fun b => !(decide (o ≤ 4 * b.1) && decide (4 * b.1 + 4 ≤ o + bs.length)) }

/-- Whether the core owns the tracked line behind a window line (R261). -/
def ownsLine (s : State) (core line : Nat) : Bool :=
  let a := requester s core line
  (s.line line).code = 2 && (s.line line).sharers = [a] &&
    (a = core || (match s.trackedGuest (dieOf s core) line with
      | some g => g.owned && g.sharers = [core]
      | none => false))

/-- The guest copy that a request of a core may have made finds its room (R19, R244). -/
def fitGuest (s : State) (core line : Nat) : State :=
  if requester s core line = core then s else fitSlice s (dieOf s core) line

/-- The agent under which a request of a core through a leaf is numbered (R234, R235). -/
def asker (s : State) (core : Nat) (l : Leaf) : Nat := if l.cls = 3 then requester s core (l.pa / 128) else core

/-- A core's read of a tracked line, with its home records and, where it goes to the home, its request number (R235, R411). -/
def readLine (s : State) (core line scope : Nat) : State :=
  let before := s.line line
  let asks := asksHome s core line false
  let s := fitGuest (homeRecords (coreRead s core line) s.cur line before false scope) core line
  if asks then nextRequest s (requester s core line) else s

/-- A core's request to own a tracked line, with its home records and, where it goes to the home, its request number. -/
def ownLine (s : State) (core line scope : Nat) : State :=
  let before := s.line line
  let asks := asksHome s core line true
  let s := fitGuest (homeRecords (coreOwn s core line) s.cur line before true scope) core line
  if asks then nextRequest s (requester s core line) else s

/-- A read of a tracked line that a window of the core holds, by a strand whom the window does not serve: the home serves it as it
serves another core's, and the core's own window answers a forwarded read (R260). -/
def foreignRead (s : State) (core line scope : Nat) : State :=
  let a := requester s core line
  let before := s.line line
  let s :=
    if before.code = 2 ∧ before.sharers = [a] then (takeBack s a line false).updLine line fun k => { k with code := 1 }
    else homeRecords (serveRead s a line) s.cur line before false scope
  nextRequest s a

/-- Put the words that are invalid from a line's data, and mark every word valid (R262). -/
def Strand.fillWindow (t : Strand) (i j : Nat) (d : BitVec 1024) (line : Nat) (wide : Bool := false) : Strand :=
  let w := t.window i
  let v := Tab.get 0 w.valid j
  let old := leWord 1024 (allotBytes t (128 * (w.offset + j)) 128)
  let new := mergeWords d old v
  let t := t.storeAllot (128 * (w.offset + j)) (lineBytes new 0 128)
  t.updWindow i fun w =>
    { w with
      valid := Tab.set 0 w.valid j (BitVec.allOnes 32)
      phys := Tab.set 0 w.phys j (line + 1)
      wide := Tab.set false w.wide j wide }

/-- The other windows of a core over a tracked line that one of its windows asks for: they share the core's mark at the home, so their
dirty words go to the home, or to the guest copy of the core's die, and they keep the line clean, or for an owner lose it
(R237, R243, R260). -/
def yieldWindows (s : State) (core line : Nat) (mine : Nat × Nat × Nat) (own : Bool) : State :=
  ((windowLines s core line).filter (· != mine)).foldl (init := s) fun s (u, i, j) =>
    let t := s.strand u
    let w := t.window i
    let m := Tab.get 0 w.dirty j
    let d := leWord 1024 (allotBytes t (128 * (w.offset + j)) 128)
    let s :=
      if m = 0 then s
      else match if requester s core line = core then none else s.trackedGuest (dieOf s core) line with
        | some g => s.setGuest (dieOf s core) line { g with data := mergeWords g.data d m, dirty := g.dirty ||| m }
        | none => homeMerge s line d m
    s.updStrand u fun t => t.updWindow i fun w => w.setLine j (if own then 0 else Tab.get 0 w.valid j) 0

/-- The invalid words of line j of window i of strand u are read through a leaf and marked valid (R262); with own the line is owned
then. Untracked words that come from the home replace what the core's die holds of the line (R342). -/
def fillFrom (u i j : Nat) (own : Bool) (l : Leaf) (va : Word) : M Unit := do
  let s ← get
  let core := s.me.core
  let line := l.pa / 128
  let lineLeaf := { l with pa := line * 128 }
  let s := touchLine s l.pa s.me.ctx va l.counterEnable
  let s := evictCopy s core line
  let s :=
    if l.cls = 3 then
      let s := yieldWindows s core line (u, i, j) own
      if own then ownLine s core line 0 else readLine s core line 0
    else nextRequest s core
  let d := if l.cls = 3 && !(s.parcel l.frame).blocked then coreView s core line
    else leWord 1024 (homeRead s (line * 128) 128)
  let d := leWord 1024 (decrypted s lineLeaf (lineBytes d 0 128))
  let plain := (s.parcel l.frame).held.isEmpty && (s.parcel l.frame).log.isEmpty
  let s := if l.cls = 3 then (if own then stampKey s lineLeaf 128 else s) else keepGuest s core line d plain false
  let s := s.updStrand u fun t => t.fillWindow i j d line (l.level = 2)
  set (s.updMe fun t => t.bump 6 1)

/-- Fill line j of window i of strand u, for reading or, with own, for a tracked store; va is the global address of the word that
asks for it (R261, R262). -/
def fillWindowLine (u i j : Nat) (own : Bool) (va : Word) : M Unit := do
  let w := ((← get).strand u).window i
  let l ← windowLeaf .load va
  let first := w.base + BitVec.ofNat 64 (128 * j)
  checkFill first 128
  if poisonedAt (← get) { l with pa := l.pa / 128 * 128 } 128 then trap 11 0 va
  checkWatch .load first 128
  fillFrom u i j own l va

/-- An access to a word of a filled window line whose home is on a fenced base die takes the poisoned-data fault (R27). -/
def windowReachable (u i j : Nat) (va : Word) : M Unit := do
  let s ← get
  let p := Tab.get 0 ((s.strand u).window i).phys j
  if p ≠ 0 ∧ !reachable s ((p - 1) * 128) then trap 11 0 va

/-- Load n bytes of a window line (R261). -/
def windowLoad (u i j o n : Nat) : M (List Byte) := do
  let w := ((← get).strand u).window i
  let m := wordMask o n
  let va := w.base + BitVec.ofNat 64 (128 * j + o / 4 * 4)
  if (Tab.get 0 w.valid j) &&& m = m then windowReachable u i j va
  else fillWindowLine u i j false va
  let t := (← get).strand u
  return allotBytes t (128 * ((t.window i).offset + j) + o) n

/-- Whether a window of a core holds a tracked line owned: no other window of the core shares it (R260, R261). -/
def windowOwns (s : State) (core u i j : Nat) : Bool :=
  let p := Tab.get 0 ((s.strand u).window i).phys j
  p != 0 && ownsLine s core (p - 1) && (windowLines s core (p - 1)).all (· = (u, i, j))

/-- A store to a window line has its words: they are valid, they are filled, or a private line needs none (R261). -/
def windowReady (u i j o n : Nat) : M Unit := do
  let s ← get
  let w := (s.strand u).window i
  let m := wordMask o n
  let va := w.base + BitVec.ofNat 64 (128 * j + o / 4 * 4)
  let whole := o % 4 = 0 ∧ n % 4 = 0
  let valid := (Tab.get 0 w.valid j) &&& m = m
  if w.cls = 3 then
    if valid ∧ windowOwns s s.me.core u i j then windowReachable u i j va else fillWindowLine u i j true va
  else if valid ∨ whole then
    let l ← windowLeaf .store va
    if !reachable (← get) l.pa then trap 11 0 va
    modify fun s => s.updStrand u fun t => t.updWindow i fun w =>
      { w with phys := Tab.set 0 w.phys j (l.pa / 128 + 1), wide := Tab.set false w.wide j (l.level = 2) }
  else fillWindowLine u i j false va

/-- Store bytes into a window line (R261). -/
def windowStore (u i j o : Nat) (bs : List Byte) : M Unit := do
  windowReady u i j o bs.length
  let m := wordMask o bs.length
  modify fun s => s.updStrand u fun t =>
    let t := t.storeAllot (128 * ((t.window i).offset + j) + o) bs
    t.updWindow i fun w =>
      { w with valid := Tab.set 0 w.valid j (Tab.get 0 w.valid j ||| m), dirty := Tab.set 0 w.dirty j (Tab.get 0 w.dirty j ||| m) }

/-- The dirty words of a private window line are stores at their home (R240, R263, R264, R424): the issuing die's copy takes them
too, and an empty key slot or a fenced home discards them. -/
def writePrivate (s : State) (u line : Nat) (va : Word) (dirty : BitVec 32) (data : List Byte) : State :=
  let t := s.strand u
  let leaf := (walk s false t.ctx va).toOption.map fun l => { l with pa := line * 128 }
  let log := leaf.any fun l => l.logEnable && l.cls = 2
  if leaf.any (keyEmpty s) || !reachable s (line * 128) then faultLog s t.ctx ⟨va, 0, 11, 0, false, t.slot, t.core⟩
  else
    let s := match leaf with
      | some l => stampKey (touchWrite s l t.ctx va) l 128
      | none => s
    let me := s.cur
    let s := (List.range 32).foldl (init := { s with cur := u }) fun s m =>
      if dirty.getLsbD m then
        let bs := (data.drop (4 * m)).take 4
        updateGuest (homePut s (line * 128 + 4 * m) bs log t.ctx (va + BitVec.ofNat 64 (4 * m))) (dieOf s t.core) line (4 * m) bs
      else s
    nextRequest { s with cur := me } t.core

/-- Write back the dirty words of line j of a window (R263): a private line's words are stores at their home, a tracked
line is given up; clearValid clears a private line's valid bits too. -/
def writeBackWindow (s : State) (u i j : Nat) (clearValid : Bool) : State :=
  let t := s.strand u
  let w := t.window i
  let dirty := Tab.get 0 w.dirty j
  let p := Tab.get 0 w.phys j
  if p = 0 then s
  else
    let line := p - 1
    if w.cls = 3 then
      if dirty = 0 then s
      else
        let a := requester s t.core line
        let s := if keyGone s line then faultLog s t.ctx ⟨w.base + BitVec.ofNat 64 (128 * j), 0, 11, 0, false, t.slot, t.core⟩ else s
        let s := takeBack s a line true
        let s := coreDrop s t.core line
        let s := s.updLine line fun k => if k.sharers.contains a then
          { k with sharers := k.sharers.filter (· != a), code := if k.code = 3 then 3 else if k.sharers.length ≤ 1 then 0 else 1 } else k
        nextRequest s a
    else
      let va := w.base + BitVec.ofNat 64 (128 * j)
      let s := if dirty = 0 then s else writePrivate s u line va dirty (allotBytes t (128 * (w.offset + j)) 128)
      s.updStrand u fun t => t.updWindow i fun w => w.setLine j (if clearValid then 0 else Tab.get 0 w.valid j) 0

/-- The lines of a window that hold state. -/
def Window.lines (w : Window) : List Nat := (List.range w.size).filter fun j => Tab.get 0 w.phys j != 0

/-- Write back every dirty line of a strand's windows that the filter admits (R264, R269). -/
def flushWindows (s : State) (u : Nat) (f : Window → Bool) (clearValid : Bool) : State :=
  (s.strand u).windows.foldl (init := s) fun s w =>
    if f w.2 then w.2.phys.foldl (init := s) fun s jp => writeBackWindow s u w.1 jp.1 clearValid else s

/-! Accesses in flight. -/

/-- The global address behind an address of a strand: through the aperture, a window's word has its global one (R260). -/
def State.globalVa (s : State) (u : Nat) (va : Word) : Word :=
  match apertureOffset va with
  | none => va
  | some o =>
    let t := s.strand (s.allotOwner u)
    match windowAt t o with
    | some (i, j, b) => (t.window i).base + BitVec.ofNat 64 (128 * j + b)
    | none => va

/-- Whether two runs of bytes that a strand addresses meet, by their global addresses or, outside plain allotment, by their
physical ones. -/
def bytesMeet (s : State) (u : Nat) (va : Word) (pa n : Nat) (va' : Word) (pa' n' : Nat) : Bool :=
  let a := s.globalVa u va
  let b := s.globalVa u va'
  (decide (a.toNat < b.toNat + n') && decide (b.toNat < a.toNat + n)) ||
    ((apertureOffset a).isNone && (apertureOffset b).isNone && decide (pa < pa' + n') && decide (pa' < pa + n))

/-- The physical address of a reduction on its way, if its address translates now. -/
def reductionPa (s : State) (r : Reduction) : Option Nat :=
  let va := s.globalVa r.issuer r.va
  match walk s (r.firmware && (apertureOffset r.va).isNone) r.ctx va with
  | .ok l => some l.pa
  | .error _ => none

/-- The physical address of the bytes at a place: of a window word, that of its filled line or the one that its address
translates to. -/
def Place.pa (s : State) : Place → Nat
  | .spad _ _ => 0
  | .window u i j o =>
    let t := s.strand u
    let w := t.window i
    let p := Tab.get 0 w.phys j
    if p ≠ 0 then (p - 1) * 128 + o
    else match walk s false t.ctx (w.base + BitVec.ofNat 64 (128 * j + o)) with
      | .ok l => l.pa
      | .error _ => 0
  | .mem l => l.pa

/-- Whether an event in flight is a store or reduction of a strand to one of n bytes at an address. -/
def writesBytes (s : State) (u : Nat) (va : Word) (pa n : Nat) (e : Instr) : Bool :=
  match e with
  | .elementTrain v _ _ w elems => v = u && elems.any fun x => bytesMeet s u va pa n x.va x.pa (w / 8)
  | .reductionPerform r => r.issuer = u && bytesMeet s u va pa n r.va ((reductionPa s r).getD (2 ^ 60)) (r.width / 8)
  | _ => false

/-- Whether an element train or a reduction of a strand that is still on its way writes one of n bytes at an address: the
strand's own later access waits for it (R124, R177, R296). -/
def trainOverlap (s : State) (u : Nat) (va : Word) (pa n : Nat) : Bool := s.agenda.any (writesBytes s u va pa n)

/-- Whether a strand has reductions that have been neither performed nor recorded as faulted (R296). -/
def reducing (s : State) (u : Nat) : Bool :=
  s.agenda.any fun e => match e with
    | .reductionPerform r => r.issuer = u
    | _ => false

/-- Whether an event in flight is a read of a strand, of a tile fetch group or a ticketed load, of one of n bytes at an
address. -/
def readsBytes (s : State) (u : Nat) (va : Word) (pa n : Nat) (e : Instr) : Bool :=
  match e with
  | .tfetchSlotFill v _ _ _ _ w _ x => v = u && bytesMeet s u va pa n x.va x.pa w
  | .boothFill slice entry =>
    let b := Tab.get Booth.blank (s.die (slice / 32)).booths (slice % 32 * 2048 + entry)
    b.issuer = u && !b.arrived && bytesMeet s u va pa n b.va b.pa b.size
  | _ => false

/-- Whether a strand has an acquiring reduction on its way (R296, R338). -/
def acquiring (s : State) (u : Nat) : Bool :=
  s.agenda.any fun e => match e with
    | .reductionPerform r => r.issuer = u && r.acquire.isSome
    | _ => false

/-- Whether a group of a strand's tile fetch, or a ticketed load of its, that has not been read overlaps n bytes at an
address: the strand's own later access waits for it (R124, R205, R280, R342). -/
def fetchOverlap (s : State) (u : Nat) (va : Word) (pa n : Nat) : Bool := s.agenda.any (readsBytes s u va pa n)

/-- Park an access until the strand's own earlier accesses to its bytes that are still on their way have been performed. -/
def awaitOwn (va : Word) (pa n : Nat) : M Unit := do
  let s ← get
  if trainOverlap s s.cur va pa n || fetchOverlap s s.cur va pa n then throw (.park (.performed 0x1FF))

/-- Park an access of n bytes at a place until the strand's own earlier accesses to them have been performed: for a window line
with invalid words, which the access may fill, those to any byte of the line (R124, R262). -/
def awaitPlace (p : Place) (va : Word) (n : Nat) : M Unit := do
  let s ← get
  match p with
  | .window u i j _ =>
    let w := (s.strand u).window i
    if Tab.get 0 w.valid j = BitVec.allOnes 32 then awaitOwn va (p.pa s) n
    else awaitOwn (w.base + BitVec.ofNat 64 (128 * j)) (p.pa s / 128 * 128) 128
  | _ => awaitOwn va (p.pa s) n

/-- Whether a tile fetch of a strand in one of the streams of a mask has groups to read, or a ticketed load its read point
to come (R205, R280). -/
def fetching (s : State) (u mask : Nat) : Bool :=
  s.agenda.any fun e => match e with
    | .tfetchSlotFill v _ _ _ _ _ st _ => v = u && mask.testBit st
    | .boothFill slice entry =>
      let b := Tab.get Booth.blank (s.die (slice / 32)).booths (slice % 32 * 2048 + entry)
      b.issuer = u && !b.arrived && mask.testBit b.stream
    | _ => false

/-- Whether a redeem of a strand of a ticket in one of the streams of a mask, past its instruction, has not been delivered to its queue
slot (R282, R300). -/
def redeeming (s : State) (u mask : Nat) : Bool :=
  (List.range 4).any fun d => (s.die d).booths.any fun b =>
    b.2.st = .claimed && b.2.claimer = u && b.2.dest.isSome && mask.testBit b.2.stream

/-- Whether loads, stores, fetches or redeems of a strand have not been performed: trains, tile fetch fills and redeems (R106,
R300). -/
def outstanding (s : State) (u : Nat) : Bool :=
  ((s.strand u).trains.any fun t => t.2 != 0) || redeeming s u 15 ||
    s.agenda.any fun e => match e with
      | .tfetchSlotFill v _ _ _ _ _ _ _ => v = u
      | _ => false

/-! Memory outside windows. -/

/-- Read n bytes of a home-class line at its home (R242). -/
def readHome (l : Leaf) (va : Word) (n : Nat) (again : Bool) : M (List Byte × Bool) := do
  let s ← get
  let t := s.me
  if poisonedAt s l n then
    set (if again then s else nextRequest s t.core)
    return (List.replicate n 0, true)
  let s := if again then s else nextRequest (touchRead s l.pa t.ctx va l.counterEnable) t.core
  set s
  return (decrypted s l (homeRead s l.pa n), false)

/-- Read n bytes of a tracked line of which the core holds no first-level copy (R243): a new copy may stay, and does for a pin;
none does where a window of the core holds the line (R260) or its parcel is write-blocked. -/
def readTracked (l : Leaf) (va : Word) (n scope : Nat) (again pin : Bool) : M (List Byte × Bool) := do
  let s ← get
  let t := s.me
  let line := l.pa / 128
  if poisonedAt s l n then
    set (if again then s else nextRequest s (requester s t.core line))
    return (List.replicate n 0, true)
  let foreign := windowed s t.core line
  let s := if again then (if foreign then s else coreRead s t.core line)
    else (touchLine (if foreign then foreignRead s t.core line scope else readLine s t.core line scope)
      l.pa t.ctx va l.counterEnable).updMe fun t => t.bump 5 1
  let blocked := (s.parcel l.frame).blocked
  let pin := pin || s.pinned t.core line
  let whole : Leaf := { l with pa := line * 128 }
  let d := leWord 1024 (decrypted s whole (if blocked then homeRead s (line * 128) 128
    else lineBytes (if foreign then coherentLine s line else coreView s t.core line) 0 128))
  set (if !blocked && !foreign && (pin || Config.keepCopy s.tick line)
    then placeCopy s t.core line ⟨d, 0, s.time, true, false, []⟩ else s)
  return (lineBytes d (l.pa % 128) n, false)

/-- Read n bytes of a private or read-only line of which the core holds no first-level copy (R239-R241). -/
def readUntracked (l : Leaf) (va : Word) (n : Nat) (again pin : Bool) : M (List Byte × Bool) := do
  let s ← get
  let t := s.me
  let core := t.core
  let line := l.pa / 128
  let (d, fromHome) := untrackedView s core line
  if fromHome && poisonedAt s l n then
    set (if again then s else nextRequest s core)
    return (List.replicate n 0, true)
  let whole : Leaf := { l with pa := line * 128 }
  let d := if fromHome then leWord 1024 (decrypted s whole (homeRead s (line * 128) 128)) else d
  let s := if again then s
    else (if fromHome then nextRequest (touchLine s l.pa t.ctx va l.counterEnable) core else s).updMe fun t => t.bump 5 1
  let plain := (s.parcel l.frame).held.isEmpty && (s.parcel l.frame).log.isEmpty
  let keep := pin || s.pinned core line || Config.keepCopy s.tick line
  let s := if fromHome then fitGuest (keepGuest s core line d plain keep) core line else s
  set (if keep && plain then keepUntracked s core line d else s)
  return (lineBytes d (l.pa % 128) n, false)

/-- Read n bytes through a leaf, all in one line: the bytes, and whether they are poisoned (R239-R243, R250). Memory behind a
fenced base die, or under an empty key slot, gives poison whatever copies remain (R27, R424), and a log store its entries (R223). again says that the read is part
of a request that has been made (R242), and pin that a first-level copy has to stay (R206). -/
def memRead (l : Leaf) (va : Word) (n : Nat) (scope : Nat := 0) (again : Bool := false) (pin : Bool := false) :
    M (List Byte × Bool) := do
  let s ← get
  if !reachable s l.pa || keyEmpty s l then return (List.replicate n 0, true)
  if inLogStore l.pa then return (homeRead s l.pa n, false)
  if l.cls = 2 then readHome l va n again
  else match s.copyIn s.me.core (l.pa / 128) with
    | some c =>
      if l.cls = 3 ∧ !c.tracked then readTracked l va n scope again pin
      else return (lineBytes c.data (l.pa % 128) n, false)
    | none => if l.cls = 3 then readTracked l va n scope again pin else readUntracked l va n again pin

/-- Store bytes through a leaf, all in one line (R240, R242, R243, R220, R424). A tracked store that finds no copy of its line is
a first-level miss (R413; DEDUCED, log entry 16). The memory of a fenced base die takes no store: the strand takes the
poisoned-data fault (R27). With full, the store is part of a full-line store that reaches its home now (R251). -/
def memStoreAt (l : Leaf) (va : Word) (bs : List Byte) (scope : Nat := 0) (again : Bool := false) (full : Bool := false) : M Unit := do
  let s ← get
  let t := s.me
  let line := l.pa / 128
  if !reachable s l.pa then trap 11 0 va
  else if keyEmpty s l then
    set (faultLog s t.ctx ⟨va, 0, 11, 0, false, t.slot, t.core⟩)
  else
    let log := l.logEnable && l.cls = 2
    let s := stampKey s l bs.length
    let s := if full then fullLineStore s l.pa log t.ctx (va - BitVec.ofNat 64 (va.toNat % 128)) else s
    let blocked := (s.parcel l.frame).blocked
    if l.cls = 3 && !blocked && (s.line line).code != 3 && !windowed s t.core line then
      let held := (s.copyIn t.core line).filter fun c => c.tracked
      let s := match held with
        | some c => if c.owned then s else touchLine (ownLine s t.core line scope) l.pa t.ctx va l.counterEnable
        | none => (touchLine (ownLine s t.core line scope) l.pa t.ctx va l.counterEnable).updMe fun t => t.bump 5 1
      let c := match held with
        | some c => c
        | none => ⟨coreView s t.core line, 0, s.time, true, true, []⟩
      set (placeCopy s t.core line { c with
        data := lineStore c.data (l.pa % 128) bs, dirty := c.dirty ||| wordMask (l.pa % 128) bs.length, tracked := true, owned := true })
    else
      let s := if again then s else nextRequest (touchWrite s l t.ctx va) (if l.cls = 3 then requester s t.core line else t.core)
      let s := homePut s l.pa bs log t.ctx va
      set (if l.cls = 0 then updateUntracked s t.core line (l.pa % 128) bs else s)

/-! Whole accesses. -/

/-- Read n naturally aligned bytes of the executing strand: the faults of R125 and the watermark, then the bytes. With deliver the
poison is handed on instead of faulting (R143). -/
def readBytes (va : Word) (n : Nat) (deliver : Bool) (scope : Nat := 0) (again : Bool := false) : M (List Byte × Bool) := do
  let p ← resolve .load va n
  checkChannel va n
  awaitPlace p va n
  let r ← match p with
    | .spad u o => do return (allotBytes ((← get).strand u) o n, ((← get).strand u).spoiledAt o n)
    | .window u i j o => do return (← windowLoad u i j o n, false)
    | .mem l => memRead l va n scope again
  if r.2 && !deliver then trap 11 0 va
  return r

/-- Load n naturally aligned bytes of the executing strand; a watch traps after every other fault, and before any effect
(R369). -/
def loadBytes (va : Word) (n : Nat) (deliver : Bool) (scope : Nat := 0) (again : Bool := false) : M (List Byte × Bool) := do
  let before ← me
  let r ← readBytes va n deliver scope again
  match watchHit before .load va n with
  | some i => trap 17 i va
  | none => return r

/-- Store naturally aligned bytes of the executing strand; a watch traps after every other fault, and before any effect (R369). -/
def storeBytes (va : Word) (bs : List Byte) (scope : Nat := 0) (again : Bool := false) (full : Bool := false) : M Unit := do
  let before ← me
  let p ← resolve .store va bs.length
  checkChannel va bs.length
  awaitPlace p va bs.length
  match p with
  | .spad u o => modify fun s => s.updStrand u fun t => t.storeAllot o bs
  | .window u i j o => windowStore u i j o bs
  | .mem l => memStoreAt l va bs scope again full
  match watchHit before .store va bs.length with
  | some i => trap 17 i va
  | none => pure ()

/-- The misaligned trap (R123). -/
def checkAligned (va : Word) (n : Nat) : M Unit := if va.toNat % n = 0 then pure () else trap 5 0 va

/-! Ordering (R124, R241, R264). -/

/-- A frame in which a store of the strand is held (R126). -/
def heldFrame (s : State) (u : Nat) : Option Nat :=
  (s.parcels.find? fun p => p.2.held.any fun e => e.issuer = u).map Prod.fst

/-- Whether anything that a strand has issued is still to be performed: what an SBAR over all streams would wait for (R345). -/
def unsettled (s : State) (u : Nat) : Bool :=
  fetching s u 15 || redeeming s u 15 || reducing s u || ((s.strand u).trains.any fun x => x.2 != 0) || (heldFrame s u).isSome

/-- Before a release over the streams of a mask: their tile fetches and element trains, and the strand's reductions and held
stores, are performed, and at scope die or wider its dirty private window words are written back (R126, R178, R205, R264,
R296). -/
def release (scope mask : Nat) : M Unit := do
  let s ← get
  if fetching s s.cur mask || reducing s s.cur || (s.me.trains.any fun x => mask.testBit x.1 && x.2 != 0) then
    throw (.park (.performed (mask % 16 * 17 + 0x100)))
  match heldFrame s s.cur with
  | some f => throw (.park (.parcel f))
  | none =>
    if scope = 0 then pure ()
    else set (flushWindows s (s.owner s.cur) (fun w => w.cls = 0) false)

/-- A later access of a stream waits while an element train of the stream is not acknowledged (R178), and every one while an
acquiring reduction is on its way (R296, R338). -/
def streamReady (st : Nat) : M Unit := do
  let s ← get
  if Tab.get 0 s.me.trains st ≠ 0 then throw (.park (.performed (2 ^ st)))
  if acquiring s s.cur then throw (.park (.performed 0x100))

/-- A member of every stream waits for the strand's element trains and its acquiring reductions (R178, R296, R338). -/
def allStreams : M Unit := do
  let s ← get
  if s.me.trains.any fun x => x.2 != 0 then throw (.park (.performed 0xF))
  if acquiring s s.cur then throw (.park (.performed 0x100))

/-- After an acquire (R241). -/
def acquire (scope : Nat) : M Unit := modify fun s => selfInvalidate s s.me.core scope

end Sys2Proof.Machine
end

