-- ==== Sys2Proof/Machine/Mem.lean ====
section
/-! DEFINITION. Scalar loads and stores (R123-R126). -/

namespace Sys2Proof.Machine

/-- The access size in bytes of a width code (R30). -/
def sizeOf (w : BitVec 2) : Nat := 2 ^ w.toNat

/-- The address of a scalar access (R123). -/
def memAddr (t : Strand) (b o : BitVec 6) (w : BitVec 2) : Word :=
  t.reg b.toNat + BitVec.ofNat 64 (o.toNat * sizeOf w)

/-- Bytes as a loaded value: sign- or zero-extended (R123). -/
def extend (signed : Bool) (bs : List Byte) : Word :=
  if signed then (leWord (8 * bs.length) bs).signExtend 64 else leWord 64 bs

/-- A strong access reaches the coherent value: the clean untracked words of a window line, which strands of other contexts do not
write, and from scope die on the core's untracked copies of the line are given up first (R31, R260, R339) (DEDUCED, log entry 69). -/
def freshen (k : Kind) (va : Word) (n scope : Nat) : M Unit := do
  match ← resolve k va n with
  | .spad _ _ => pure ()
  | .window u i j _ =>
    modify fun s => s.updStrand u fun t =>
      t.updWindow i fun w =>
        if w.cls = 3 then w else w.setLine j (Tab.get 0 w.dirty j) (Tab.get 0 w.dirty j)
  | .mem l =>
      modify fun s =>
        if l.cls = 2 ∨ l.cls = 3 ∨ scope = 0 then s
        else
          let s := s.setCopy s.me.core (l.pa / 128) Copy.none
          match s.guestIn (dieOf s s.me.core) (l.pa / 128) with
          | some g => if scope < 2 ∨ g.tracked then s else s.setGuest (dieOf s s.me.core) (l.pa / 128) Copy.none
          | none => s

/-- A strong store through a window is written back at once: strands of other contexts, on the same core too, read the home
(R31, R260, R339). -/
def publish (va : Word) (n : Nat) : M Unit := do
  match ← resolve .store va n with
  | .window u i j _ =>
    modify fun s =>
      if ((s.strand u).window i).cls = 3 then s else writeBackWindow s u i j false
  | _ => pure ()

/-- LD and LDZ (R123-R126): into a queue, the slot is allocated now and filled when the value arrives (R137, R143). -/
def loadOp (d b o : BitVec 6) (w st r c : BitVec 2) (signed : Bool) : M Flow := do
  let t ← me
  let n := sizeOf w
  let va := memAddr t b o w
  checkAligned va n
  streamReady st.toNat
  if r = 2 then freshen .load va n c.toNat
  if d.toNat < 32 then
    let (bs, _) ← loadBytes va n false c.toNat
    if r = 1 then acquire c.toNat
    writeReg d (extend signed bs)
  else
    let q := d.toNat - 32
    let (slot, gen) ← allocSlot q ⟨false, false, 0, []⟩
    let (bs, poison) ← loadBytes va n true c.toNat
    if r = 1 then acquire c.toNat
    modify fun s => s.post (.queueFillArrival (s.owner s.cur) q slot gen ((extend signed bs).setWidth 2048) poison)
  return .seq

/-- ST (R123-R126). The source is read first: an empty, misused or poisoned head comes before a fault of the address (DESIGN CHOICE, log
entry 103). -/
def storeOp (d b o : BitVec 6) (w st r c : BitVec 2) : M Flow := do
  let v ← readX d
  let t ← me
  let n := sizeOf w
  let va := memAddr t b o w
  checkAligned va n
  streamReady st.toNat
  if r = 1 then release c.toNat (2 ^ st.toNat)
  storeBytes va (leBytes n v.toNat) c.toNat
  if r = 2 then publish va n
  return .seq

/-- LD (R123): Loads a naturally aligned value and sign-extends it. -/
def execLd (d : BitVec 6) (b : BitVec 6) (o : BitVec 6) (w : BitVec 2) (s : BitVec 2) (r : BitVec 2) (c : BitVec 2) (st : State) : Out :=
  insn { word := fm 13#6 d b o w s r c, ops := [.data d 1 true, .reg b], bar := true } (loadOp d b o w s r c true) st

/-- LDZ (R123): Loads a naturally aligned value and zero-extends it. -/
def execLdz (d : BitVec 6) (b : BitVec 6) (o : BitVec 6) (w : BitVec 2) (s : BitVec 2) (r : BitVec 2) (c : BitVec 2) (st : State) : Out :=
  insn { word := fm 14#6 d b o w s r c, ops := [.data d 1 true, .reg b], bar := true } (loadOp d b o w s r c false) st

/-- ST (R123): Stores the low bits of a register to memory. -/
def execSt (d : BitVec 6) (b : BitVec 6) (o : BitVec 6) (w : BitVec 2) (s : BitVec 2) (r : BitVec 2) (c : BitVec 2) (st : State) : Out :=
  insn { word := fm 15#6 d b o w s r c, ops := [.data d 1 false, .reg b], bar := true } (storeOp d b o w s r c) st

end Sys2Proof.Machine
end

