-- ==== Sys2Proof/Machine/Win.lean ====
section
/-! DEFINITION. Scratchpad windows (R257-R268, R271). -/

namespace Sys2Proof.Machine

/-! Ranges. -/

/-- Whether two ranges of natural numbers, each a start and a length, meet. -/
def meets (a n b m : Nat) : Bool := decide (a < b + m) && decide (b < a + n)

/-- Whether a byte range of the allotment meets a bound window of the strand (R259). -/
def Strand.windowMeets (t : Strand) (o n : Nat) : Bool :=
  t.windows.any fun w => meets o n (128 * w.2.offset) (128 * w.2.size)

/-- The bytes of a span in the allotment: its start and length (R307). -/
def Span.range (k : Span) : Nat × Nat := (128 * k.offset, k.count * k.length * (k.w / 8))

/-- Whether a byte range of the allotment meets a declared span other than number k (R259, R307). -/
def Strand.spanMeets (t : Strand) (o n : Nat) (k : Option Nat) : Bool :=
  t.spans.any fun x => match x.2 with
    | some y => some x.1 != k && meets o n y.range.1 y.range.2
    | none => false

/-- The descriptors in use on a core: by bound windows and kept storage (R257, R271), and reserved for the windows of strands
that are on their way to it (R270). -/
def descriptorsUsed (s : State) (core : Nat) : Nat :=
  ((s.residents core).map fun u => (s.strand u).windows.length).sum + (s.core core).kept.length
    + (s.moves.map fun m => match m.target with
        | some (c, _) => if c = core then ((s.couple m.uid).map fun u => (s.strand u).windows.length).sum else 0
        | none => 0).sum

/-! WMAP (R258, R259, R271). -/

/-- A kept window of a context on a core with this base and size. -/
def keptFor (c : Core) (ctx : Nat) (g : Word) (size : Nat) : Option Kept :=
  c.kept.find? fun k => k.ctx = ctx && k.win.base = g && k.win.size = size

/-- Whether a global range meets a window bound or kept on a core for the context (R259). -/
def globalMeets (s : State) (core ctx : Nat) (g : Word) (n : Nat) (adopted : Option Kept) : Bool :=
  ((s.residents core).any fun u => (s.strand u).ctx = ctx && (s.strand u).windows.any fun w =>
      meets g.toNat n w.2.base.toNat (128 * w.2.size)) ||
    ((s.core core).kept.any fun k => k.ctx = ctx && some k != adopted && meets g.toNat n k.win.base.toNat (128 * k.win.size))

/-- Bind a window of base g by a binding word: 1, or 0 when no descriptor is free (R258, R259). A kept window with the same
base and size gives its words to the new binding (R271) (DEDUCED, log entry 42). -/
def bindWindow (g w : Word) : M Word := do
  let idx := (w.extractLsb' 32 2).toNat
  let size := (w.extractLsb' 16 16).toNat
  let off := (w.extractLsb' 0 16).toNat
  if w.toNat / 2 ^ 34 ≠ 0 ∨ g.toNat % 128 ≠ 0 ∨ (apertureOffset g).isSome then trap 22 8 w
  let s ← get
  let t := s.me
  if t.parent.isSome then trap 22 11 w
  if (t.window? idx).isSome then trap 22 4 w
  if size = 0 ∨ t.allotSize < 128 * (off + size) then trap 22 1 w
  if t.windowMeets (128 * off) (128 * size) ∨ t.spanMeets (128 * off) (128 * size) none then trap 22 2 w
  let cls ← rangeClasses g (128 * size)
  let c0 := cls.headD 0
  if cls.any (· != c0) then trap 22 9 g
  let s ← get
  let kept := keptFor (s.core t.core) t.ctx g size
  if globalMeets s t.core t.ctx g (128 * size) kept then trap 22 3 g
  match kept with
  | some k =>
    modify fun s =>
      let s := (dropRangeCopies s t.core t.ctx g size).updCore t.core fun c => { c with kept := c.kept.filter (· != k) }
      s.updMe fun t =>
        let t := t.storeAllot (128 * off) ((List.range (128 * size)).map fun i => Tab.get 0 k.bytes i)
        { t with windows := Tab.set Window.blank t.windows idx { k.win with offset := off, cls := c0, keep := false, bound := true } }
    return 1
  | none =>
    if 16 ≤ descriptorsUsed s t.core then return 0
    else
      modify fun s => (dropRangeCopies s t.core t.ctx g size).updMe fun t =>
        { t with windows := Tab.set Window.blank t.windows idx ⟨g, off, size, c0, false, [], [], [], [], true⟩ }
      return 1

/-- WMAP (R259). -/
def wmapOp (d a b : BitVec 6) : M Flow := do
  let g ← readReg a
  let w ← readReg b
  writeReg d (← bindWindow g w)
  return .seq

/-! The other forms (R266, R267). -/

/-- The bound window that an instruction names (R266). -/
def boundWindow (n : BitVec 2) : M Window := do
  match (← me).window? n.toNat with
  | some w => return w
  | none => trap 22 5 (n.setWidth 64)

/-- The lines of a range word (R266). -/
def windowRange (w : Window) (a : BitVec 6) : M (List Nat) := do
  if a = 0 then return List.range w.size
  else
    let r ← readReg a
    let first := (r.extractLsb' 0 16).toNat
    let count := (r.extractLsb' 16 16).toNat
    if r.toNat / 2 ^ 32 ≠ 0 ∨ w.size ≤ first ∨ w.size < first + count then trap 22 6 r
    return (List.range (if count = 0 then w.size - first else count)).map (· + first)

/-- A core gives up a line without dirty words: the home's value stands, or for a remote line that of the die's guest copy,
which other cores of the die may share (R244, R263). A core of which another window still holds the line keeps its mark (R237). To the
home it is a numbered write-back with no dirty words (R235). -/
def giveUpLine (s : State) (core line : Nat) : State :=
  if coreHolds s core line then s
  else match if requester s core line = core then none else s.trackedGuest (dieOf s core) line with
  | some g => s.setGuest (dieOf s core) line { g with sharers := g.sharers.filter (· != core) }
  | none =>
    if (s.line line).sharers.contains core then
      nextRequest (s.updLine line fun k =>
        { k with sharers := k.sharers.filter (· != core), code := if k.code = 3 then 3 else if k.sharers.length ≤ 1 then 0 else 1 }) core
    else s

/-- Drop every word of line j of a window (R263, R267). -/
def dropWindowLine (s : State) (u i j : Nat) : State :=
  let t := s.strand u
  let w := t.window i
  let p := Tab.get 0 w.phys j
  let s := s.updStrand u fun t => t.updWindow i fun w => w.setLine j 0 0
  if w.cls = 3 ∧ p ≠ 0 then giveUpLine s t.core (p - 1) else s

/-- The fills that WTOUCH started of a window that is gone are not made (R267). -/
def dropFills (s : State) (u i : Nat) : State :=
  { s with agenda := s.agenda.filter fun e => match e with
      | .windowFill v k _ => !(v = u && k = i)
      | _ => true }

/-- Unbind a window: its dirty words are written back, or dropped, and clean copies of tracked lines are dropped; the local range
keeps its bytes (R267). -/
def unmapWindow (s : State) (u i : Nat) (discard : Bool) : State :=
  let s := dropFills s u i
  let w := (s.strand u).window i
  let s := w.phys.foldl (init := s) fun s jp =>
    if discard ∨ (w.cls = 3 ∧ Tab.get 0 w.dirty jp.1 = 0) then dropWindowLine s u i jp.1 else writeBackWindow s u i jp.1 true
  s.updStrand u fun t => { t with windows := Tab.erase t.windows i }

/-- The write-backs of lines of a window are members of every stream: they follow the strand's element trains and acquiring reductions,
and its own earlier accesses to the lines (R32, R124, R267). -/
def awaitLines (w : Window) : M Unit := do
  allStreams
  awaitOwn w.base (2 ^ 60) (128 * w.size)

/-- WUNMAP (R267), with the effect of a release: it follows what the strand has issued before (R335; DESIGN CHOICE, log entry 109). -/
def wunmapOp (v : BitVec 1) (n : BitVec 2) : M Flow := do
  let w ← boundWindow n
  awaitLines w
  release 0 15
  modify fun s => unmapWindow s s.cur n.toNat (v = 1)
  return .seq

/-- WFLUSH (R267). -/
def wflushOp (a : BitVec 6) (n : BitVec 2) : M Flow := do
  let w ← boundWindow n
  let js ← windowRange w a
  awaitLines w
  modify fun s => js.foldl (init := s) fun s j => writeBackWindow s s.cur n.toNat j false
  return .seq

/-- WINV (R267). -/
def winvOp (a : BitVec 6) (v : BitVec 1) (n : BitVec 2) : M Flow := do
  let w ← boundWindow n
  let js ← windowRange w a
  modify fun s => js.foldl (init := s) fun s j =>
    let dirty := Tab.get 0 ((s.me).window n.toNat).dirty j
    if v = 1 ∨ dirty = 0 then dropWindowLine s s.cur n.toNat j
    else s.updMe fun t => t.updWindow n.toNat fun w => w.setLine j dirty dirty
  return .seq

/-- WTOUCH (R267): a fill starts for each line with an invalid word. -/
def wtouchOp (a : BitVec 6) (n : BitVec 2) : M Flow := do
  let w ← boundWindow n
  let js ← windowRange w a
  modify fun s => js.foldl (init := s) fun s j =>
    if Tab.get 0 w.valid j = BitVec.allOnes 32 then s else s.post (.windowFill s.cur n.toNat j)
  return .seq

/-- The status word of a window (R267). -/
def Window.status (w : Window) : Word :=
  BitVec.ofNat 64 (w.dirty.length * 2 ^ 51 + w.valid.length * 2 ^ 38 + w.cls * 2 ^ 36 + (if w.keep then 2 ^ 35 else 0) + 2 ^ 34
    + w.size * 2 ^ 16 + w.offset)

/-- WSTAT (R267). -/
def wstatOp (d : BitVec 6) (v : BitVec 1) (n : BitVec 2) : M Flow := do
  writeReg d (match (← me).window? n.toNat with
    | some w => if v = 1 then w.base else w.status
    | none => 0)
  return .seq

/-- Kept storage that came from a window of a strand, on whichever core it stayed, is released (R271). -/
def releaseKept (s : State) (u i : Nat) : State :=
  { s with cores := s.cores.map fun (n, c) => (n, { c with kept := c.kept.filter fun k => !(k.uid = u && k.idx = i) }) }

/-- Set or clear KEEP of a bound window; only a read-only window is kept (R267). To clear it releases what an earlier stay of the
window left as kept storage (R271). -/
def keepBound (on : Bool) (n : BitVec 2) : M Unit := do
  let w ← boundWindow n
  if on && w.cls != 1 then trap 22 7 (n.setWidth 64)
  if !on then modify fun s => releaseKept s s.cur n.toNat
  updMe fun t => t.updWindow n.toNat fun w => { w with keep := on }

/-- WKEEP (R267). -/
def wkeepOp (v : BitVec 1) (n : BitVec 2) : M Flow := do
  keepBound (v = 1) n
  return .seq

/-- WINDOW_FILL: the invalid words of a line of a window that is still bound arrive; a fill that would fault is not made
(R262, R267). -/
def windowFill (s : State) (u idx line : Nat) : State :=
  let t := s.strand u
  match t.window? idx with
  | none => s
  | some w =>
    if w.size ≤ line ∨ Tab.get 0 w.valid line = BitVec.allOnes 32 ∨ !t.run.holdsSlot then s
    else match runAs s u (do rebindWindow u idx; fillWindowLine u idx line false (w.base + BitVec.ofNat 64 (128 * line))) with
      | some (_, s) => s
      | none => s

/-! Kept storage (R271). -/

/-- The effective tier of a strand's launch, when the launch has KEEPW (R389, R399). -/
def keepTier (s : State) (u : Nat) : Option Nat :=
  let l := Tab.get Launch.blank s.launches (s.strand u).launch
  if (l.record.getD 7 0).getLsbD 49 then some l.tier else none

/-- A window with KEEP set becomes kept storage of its context on its core. -/
def keepWindow (s : State) (u i : Nat) : State :=
  let tier := keepTier s u
  let t := s.strand u
  let w := t.window i
  let bytes := (List.range (128 * w.size)).filterMap fun b =>
    let v := Tab.get 0 t.allot (128 * w.offset + b)
    if v = 0 then none else some (b, v)
  let s := (dropFills s u i).updCore t.core fun c => { c with kept := c.kept ++ [⟨t.ctx, w, bytes, u, i, tier⟩] }
  s.updStrand u fun t => { t with windows := Tab.erase t.windows i }

/-- Every window of a strand that ends: KEEP windows become kept storage, the others are unmapped (R106). -/
def leaveWindows (s : State) (u : Nat) : State :=
  (s.strand u).windows.foldl (init := s) fun s w => if w.2.keep then keepWindow s u w.1 else unmapWindow s u w.1 false

/-- WMAP (R259): Binds a window index to a global range. -/
def execWmap (d : BitVec 6) (a : BitVec 6) (b : BitVec 6) (st : State) : Out :=
  insn { word := fr 30#6 d a b 0#5 0#2 0#1, ops := [.reg d, .reg a, .reg b], bar := true } (wmapOp d a b) st

/-- WUNMAP (R267): Unbinds a window, writing back or dropping dirty words. -/
def execWunmap (v : BitVec 1) (n : BitVec 2) (st : State) : Out :=
  insn { word := fr 30#6 0#6 0#6 (0#3 ++ v ++ n) 1#5 0#2 0#1, bar := true } (wunmapOp v n) st

/-- WFLUSH (R267): Writes back dirty words of a window range. -/
def execWflush (a : BitVec 6) (n : BitVec 2) (st : State) : Out :=
  insn { word := fr 30#6 0#6 a (0#4 ++ n) 2#5 0#2 0#1, ops := [.reg a], bar := true } (wflushOp a n) st

/-- WINV (R267): Invalidates clean, or also dirty, words of a window range. -/
def execWinv (a : BitVec 6) (v : BitVec 1) (n : BitVec 2) (st : State) : Out :=
  insn { word := fr 30#6 0#6 a (0#3 ++ v ++ n) 3#5 0#2 0#1, ops := [.reg a], bar := true } (winvOp a v n) st

/-- WSTAT (R267): Returns a window status word or its global base. -/
def execWstat (d : BitVec 6) (v : BitVec 1) (n : BitVec 2) (st : State) : Out :=
  insn { word := fr 30#6 d 0#6 (0#3 ++ v ++ n) 4#5 0#2 0#1, ops := [.reg d], bar := true } (wstatOp d v n) st

/-- WTOUCH (R267): Starts fills of a window range without faulting. -/
def execWtouch (a : BitVec 6) (n : BitVec 2) (st : State) : Out :=
  insn { word := fr 30#6 0#6 a (0#4 ++ n) 5#5 0#2 0#1, ops := [.reg a], bar := true } (wtouchOp a n) st

/-- WKEEP (R267): Sets or clears a read-only window's KEEP bit. -/
def execWkeep (v : BitVec 1) (n : BitVec 2) (st : State) : Out :=
  insn { word := fr 30#6 0#6 0#6 (0#3 ++ v ++ n) 6#5 0#2 0#1, bar := true } (wkeepOp v n) st

/-- WINDOW_FILL (R262): A window line's invalid words are filled from the home. -/
def execWindowFill (u idx line : Nat) (s0 : State) : Out :=
  .next (windowFill s0 u idx line)

end Sys2Proof.Machine
end

