-- ==== Sys2Proof/Machine/Atm.lean ====
section
/-! DEFINITION. Atomics and reductions (R290-R297). -/

namespace Sys2Proof.Machine

/-- What a returning atomic keeps when it has to wait at its home: the function code, the operand, the value that CAS compares, the
destination field, and the scope of an acquire (R220, R292). -/
structure Returning where
  fn : Nat
  src : Word
  cmp : Word
  dest : BitVec 6
  acquire : Option Nat

/-- An atomic step on a word: its width, the new value from the old, for a reduction the operation that a log or a
write-blocked parcel keeps in its place, the scope of the request, and the result of a returning atomic. -/
structure Atom where
  w : Nat
  new : Nat → Option Nat
  op : Option (Nat × Word)
  scope : Nat
  fp : Bool
  ret : Option Returning

/-- The number of bytes. -/
def Atom.n (a : Atom) : Nat := a.w / 8

/-! The places (R294). -/

/-- What replay makes of an event of the executing strand at a base die: a hold parks the strand (R415-R417). -/
def strandGate (die kind : Nat) : M Gate := do
  let s ← get
  let since := match s.me.trace.heldAt with
    | some h => if h.1 = die then h.2 else s.clock + 1
    | none => s.clock + 1
  let g := placeGate s s.cur die kind s.me.trace.replayFree since
  if g = .hold then throw (.park (.replay die))
  return g

/-- A returning operation is held at its home, and its strand parks until it has been performed there (R220, R227, R439). The issuing
core keeps no copy of a line whose value is open. -/
def holdReturning (l : Leaf) (va : Word) (code wd : Nat) (v : Word) (cmp : Word) (dest : BitVec 6) (acq : Option Nat) : M Nat := do
  let slot ← if 32 ≤ dest.toNat then do
      let (slot, gen) ← allocSlot (dest.toNat - 32) ⟨false, false, 0, []⟩
      pure (some (dest.toNat - 32, slot, gen))
    else pure none
  modify fun s =>
    let t := s.me
    let line := l.pa / 128
    let s := if l.cls = 0 then dropUntracked s t.core line else s
    nextRequest (holdAt s l.pa code wd v (some ⟨cmp, dest.toNat, slot, acq⟩) (l.logEnable && l.cls = 2) t.ctx va) (asker s t.core l)
  throw (.parkAt (.held l.frame))

/-- Performed at the home slice, or at the host bridge behind it: the old value (R220, R222, R294). -/
def atomicHome (a : Atom) (l : Leaf) (va : Word) : M Nat := do
  let g ← strandGate (homeDie l.pa) 1
  let s ← get
  let t := s.me
  let line := l.pa / 128
  let k := s.line line
  let log := l.logEnable && l.cls = 2
  let found := leNat (decrypted s l (homeRead s l.pa a.n))
  match a.ret with
  | some r =>
    if heldAt s l.pa 0 (wdOf a.n) log (a.new found).isSome then
      modify fun s => if (a.new found).isSome then stampKey s l a.n else s
      let _ ← holdReturning l va (atomicCode + r.fn) (wdOf a.n) r.src r.cmp r.dest r.acquire
  | none => pure ()
  let s := if l.cls = 3 ∧ !(s.parcel l.frame).blocked
    then homeRecords (recallAll s line) s.cur line { k with code := if k.code = 2 then 1 else k.code } true a.scope else s
  let s := if a.op.isSome then touchWrite s l t.ctx va else touchRead s l.pa t.ctx va l.counterEnable
  let old := leNat (decrypted s l (homeRead s l.pa a.n))
  let s := if (a.new old).isSome then stampKey s l a.n else s
  let keep := (log && tierOf l.pa = 1) || (s.parcel l.frame).blocked || lineHeld s (s.movedPa l.pa)
  let s := match a.op, a.new old with
    | some (op, v), some x => if keep then homeOp s l.pa a.n op v log t.ctx va else homeOp s l.pa a.n 0 (BitVec.ofNat 64 x) log t.ctx va
    | none, some x => homeOp s l.pa a.n 0 (BitVec.ofNat 64 x) log t.ctx va
    | _, none => s
  let s := match a.new old with
    | some x => if l.cls = 0 then updateUntracked s t.core line (l.pa % 128) (leBytes a.n x) else s
    | none => if l.cls = 0 then dropUntracked s t.core line else s
  let s := nextRequest (agentHomeRec s s.cur (asker s t.core l) line 3 a.scope none) (asker s t.core l)
  set (replayDone s s.cur (homeDie l.pa) 1 g)
  return old

/-- Performed at the agent that owns a tracked line, which keeps the ownership (R294, R244). -/
def ownerWrite (s : State) (owner : Nat) (l : Leaf) (bs : List Byte) : State :=
  let line := l.pa / 128
  let o := l.pa % 128
  if owner < 0x4000 then
    match windowLines s owner line with
    | (u, i, j) :: _ => s.updStrand u fun t =>
        let t := t.storeAllot (128 * ((t.window i).offset + j) + o) bs
        t.updWindow i fun w => { w with
          valid := Tab.set 0 w.valid j (Tab.get 0 w.valid j ||| wordMask o bs.length)
          dirty := Tab.set 0 w.dirty j (Tab.get 0 w.dirty j ||| wordMask o bs.length) }
    | [] => match s.copyIn owner line with
      | some c => s.setCopy owner line { c with data := lineStore c.data o bs, dirty := c.dirty ||| wordMask o bs.length }
      | none => homeStore s l.pa bs
  else match s.guestIn (owner - 0x4000) line with
    | some g =>
      let d := g.sharers.foldl (init := g.data) fun d c => coreDirty s c line d
      let s := g.sharers.foldl (init := s) fun s c => coreDrop s c line
      s.setGuest (owner - 0x4000) line { g with
        data := lineStore d o bs, dirty := if d = g.data then g.dirty ||| wordMask o bs.length else BitVec.allOnes 32, sharers := [] }
    | none => homeStore s l.pa bs

/-- Performed at another agent that owns the line. -/
def atomicOwner (a : Atom) (l : Leaf) (va : Word) (owner : Nat) : M Nat := do
  let s ← get
  let t := s.me
  let line := l.pa / 128
  let s := touchLine s l.pa t.ctx va l.counterEnable
  let old := leNat (decrypted s l (coherentBytes s l.pa a.n))
  let s := match a.new old with
    | some x => ownerWrite s owner l (leBytes a.n x)
    | none => s
  set (nextRequest (homeRec s s.cur line 4 a.scope (some owner)) (requester s t.core line))
  return old

/-- Performed in the issuing core's first-level copy, after an Own request where the copy is not owned (R294). -/
def atomicCore (a : Atom) (l : Leaf) (va : Word) : M Nat := do
  let s ← get
  let core := s.me.core
  let line := l.pa / 128
  let old := leNat (decrypted s l (coherentBytes s l.pa a.n))
  match a.new old, s.copyIn core line with
  | some x, _ => memStoreAt l va (leBytes a.n x) a.scope
  | none, some c =>
    if c.owned then pure ()
    else
      let s := touchLine (ownLine s core line a.scope) l.pa s.me.ctx va l.counterEnable
      set (s.setCopy core line { c with tracked := true, owned := true })
  | none, none => pure ()
  return old

/-- The agent that owns a line of which the core has no first-level copy, if one does: another agent, the guest copy of the core's own
die (R244; DEDUCED, log entry 87), or the core itself through a window of another context (R260). -/
def otherOwner (s : State) (line : Nat) : Option Nat :=
  if (s.line line).code = 2 then (s.line line).sharers.head? else none

/-- The strand's own earlier accesses to the bytes of a returning atomic have been performed (R124, R296), and a watch is looked at
after every other fault (R369); a reduction has met both at its issue or before it landed. -/
def atomicReady (a : Atom) (va : Word) (p : Place) : M Unit := do
  if a.op.isNone then
    awaitPlace p va a.n
    checkWatch .atomic va a.n

/-- The poisoned-data fault of an atomic (R293). -/
def atomicPoison (l : Leaf) (va : Word) (n : Nat) : M Unit := do
  if poisonedAt (← get) l n then trap 11 0 va

/-- An atomic step on memory that no window of the core covers. -/
def atomicMem (a : Atom) (l : Leaf) (va : Word) : M Nat := do
  let s ← get
  let core := s.me.core
  let line := l.pa / 128
  atomicPoison l va a.n
  atomicReady a va (.mem l)
  if l.cls = 3 ∧ tierOf l.pa < 2 ∧ !(s.parcel l.frame).blocked then
    if (s.copyIn core line).isSome then atomicCore a l va
    else match otherOwner s line with
      | some o => atomicOwner a l va o
      | none => atomicHome a l va
  else atomicHome a l va

/-- An atomic step at its place (R294): the old value. -/
def performAtomic (a : Atom) (va : Word) (p : Place) : M Nat := do
  match p with
  | .spad u o =>
    if ((← get).strand u).spoiledAt o a.n then trap 11 0 va
    atomicReady a va (.spad u o)
    let old := leNat (allotBytes ((← get).strand u) o a.n)
    match a.new old with
    | some x => modify fun s => s.updStrand u fun t => t.storeAllot o (leBytes a.n x)
    | none => pure ()
    return old
  | .window u i j o =>
    let w := ((← get).strand u).window i
    let l ← windowLeaf .atomic (w.base + BitVec.ofNat 64 (128 * j + o))
    if tierOf l.pa < 2 then
      if a.op.isNone then awaitPlace (.window u i j o) va a.n
      if w.cls = 3 then windowReady u i j o a.n
      let old := leNat (← windowLoad u i j o a.n)
      atomicReady a va (.window u i j o)
      match a.new old with
      | some x => windowStore u i j o (leBytes a.n x)
      | none => pure ()
      return old
    else
      modify fun s => writeBackWindow s u i j true
      modify fun s => s.updStrand u fun t => t.updWindow i fun w => w.setLine j 0 0
      atomicMem a l va
  | .mem l => atomicMem a l va

/-- The physical address behind a place, if it is memory. -/
def placePa (p : Place) : M (Option Leaf) := do
  match p with
  | .spad _ _ => return none
  | .window u i j o =>
    let w := ((← get).strand u).window i
    return some (← windowLeaf .atomic (w.base + BitVec.ofNat 64 (128 * j + o)))
  | .mem l => return some l

/-- Where an atomic goes, after the faults of steps 1 to 5 of R293 (R295). -/
def atomicPlace (va : Word) (n : Nat) (fp : Bool) : M Place := do
  checkAligned va n
  let p ← resolve .atomic va n
  match ← placePa p with
  | some l => if fp ∧ 2 ≤ tierOf l.pa then trap 12 (tierOf l.pa - 2) va
  | none => pure ()
  checkChannel va n
  return p

/-- A merge of an accumulation span waits for a write-blocked parcel, or for the forced fetch that a full log starts
(R220, R227, R309). -/
def awaitParcel (p : Place) (va : Word) (pieces : List (Nat × Nat)) : M Unit := do
  match p with
  | .mem l =>
    let s ← get
    let log := l.logEnable && l.cls = 2
    if (s.parcel l.frame).blocked ∧ !log then throw (.park (.parcel l.frame))
    if log ∧ (tierOf l.pa = 1 ∨ (s.parcel l.frame).blocked) then
      if pieces.any fun (o, n) => logOverflows s (l.pa + o) 0 (wdOf n) then
        set (forceFetch s l.frame s.me.ctx va)
        throw (.parkAt (.parcel l.frame))
  | _ => pure ()

/-- A returning atomic (R290-R296): w is the width, fn the function code, o and c the order and the scope. -/
def atmOp (w fn : Nat) (d a b : BitVec 6) (o c : BitVec 2) : M Flow := do
  let va ← readReg a
  let fp := fn = 9 ∨ fn = 10
  allStreams
  let p ← atomicPlace va (w / 8) fp
  let cmp := (← me).reg d.toNat
  let src ← readX b
  if o.getLsbD 1 then release c.toNat 15
  let ret : Returning := ⟨fn, src, cmp, d, if o.getLsbD 0 then some c.toNat else none⟩
  let old ← performAtomic ⟨w, fun x => atomicNew fn w x src.toNat cmp.toNat, none, c.toNat, fp, some ret⟩ va p
  if o.getLsbD 0 then acquire c.toNat
  writeX d (atomicResult fn w old)
  return .seq

/-! Reductions (R297). -/

/-- A fault of a reduction: it is discarded and recorded in its context's fault log. -/
def reductionFault (s : State) (r : Reduction) (x : Trap) : State :=
  faultLog s r.ctx ⟨r.va, r.word.setWidth 64, x.cause, x.sub, false, r.slot, r.core⟩

/-- The atomic step of a reduction. -/
def reductionAtom (r : Reduction) (scope : Nat) : Atom :=
  ⟨r.width, fun x => atomicNew r.fn r.width x r.src.toNat 0, some (logOp r.fn, r.src), scope, r.fn = 9 ∨ r.fn = 10, none⟩

/-- An effect that no watch of the executing strand sees. -/
def unwatched (m : M Unit) : M Unit := do
  let t ← me
  updMe fun t => { t with trace := { t.trace with wctl := [] } }
  m
  updMe fun t' => { t' with trace := { t'.trace with wctl := t.trace.wctl } }

/-- Perform a reduction in the place of its issuer. A watch was looked at when it issued; it is none of the faults for which a reduction
is discarded (R297). -/
def performReduction (r : Reduction) : M Unit := unwatched do
  let p ← atomicPlace r.va (r.width / 8) (r.fn = 9 ∨ r.fn = 10)
  let _ ← performAtomic (reductionAtom r 0) r.va p

/-- A reduction of width w and function fn (R296, R297). It does not park its strand: it is on its way to its place, but for one to
the local aperture that nothing keeps from being performed now. A watch is looked at when it issues, as for a store, whose form it
has (R40, R414; DEDUCED, log entry 92). Its release writes the dirty private window words back now, and its acquire takes effect when
it is performed. -/
def redOp (word : InstrWord) (w fn : Nat) (a b : BitVec 6) (o c : BitVec 2) : M Flow := do
  let va ← readReg a
  checkAligned va (w / 8)
  let src ← readX b
  checkWatch .store va (w / 8)
  if o.getLsbD 1 ∧ c ≠ 0 then modify fun s => flushWindows s (s.owner s.cur) (fun w => w.cls = 0) false
  let s ← get
  let t := s.me
  let r : Reduction := ⟨s.cur, t.ctx, t.core, t.slot, word, fn, w, va, src, t.firmware, o.getLsbD 1,
    if o.getLsbD 0 then some c.toNat else none⟩
  let free := (apertureOffset va).isSome && o = 0 && !(t.trains.any fun x => x.2 != 0) && !acquiring s s.cur
    && !(trainOverlap s s.cur va 0 (w / 8)) && !(fetchOverlap s s.cur va 0 (w / 8))
  if free then
    match ← attempt (performReduction r) with
    | .ok _ => pure ()
    | .error (.trap x) => modify fun s => reductionFault s r x
    | .error _ => modify fun s => s.post (.reductionPerform r)
  else set (s.post (.reductionPerform r))
  return .seq

/-- A reduction without a place to go is reported to Naing's orphan queue (R297), an event of Naing's queues (R381). -/
def orphan (s : State) (r : Reduction) : State :=
  (s.updModule fun m => { m with orphans := m.orphans ++ [(r.ctx, r.va, r.fn)] }).raise 0

/-- The base die of the place where a reduction is performed. -/
def reductionDie (s : State) (r : Reduction) : Nat := match reductionPa s r with
  | some a => homeDie a
  | none => 0

/-- Whether the issuer of a reduction to memory has left the core from which it issued it, and taken its windows along. -/
def reductionMoved (s : State) (r : Reduction) : Bool :=
  (s.strand r.issuer).core != r.core && (apertureOffset r.va).isNone

/-- The state in which a reduction is performed in the place of its issuer: at the core from which it was issued (R336), and under the
context, the level and the replay state it has there. -/
def inPlaceOf (s : State) (r : Reduction) : State :=
  let there := reductionMoved s r
  let e := Instr.reductionPerform r
  let die := reductionDie s r
  let free := holdExpired s die e
  let since := ((s.die die).replayHolds.find? fun h => h.1 = e).map fun h => (die, h.2.1)
  let s := (dropHold s die e).updStrand r.issuer fun t =>
    { t with
      firmware := r.firmware, ctx := r.ctx
      core := if there then r.core else t.core
      windows := if there then [] else t.windows
      trace := { t.trace with replayFree := free, heldAt := since } }
  { s with cur := r.issuer }

/-- Whether a reduction has no place to go any more: its context is gone, or the drain bound of its teardown has passed (R297). -/
def reductionLost (s : State) (r : Reduction) : Bool :=
  !(s.context r.ctx).live || (s.context r.ctx).closing.any fun t => decide (t < s.time)

/-- Whether a reduction still has to wait at its place. -/
def reductionWaits (s : State) (r : Reduction) : Bool :=
  !reductionLost s r && match performReduction r (inPlaceOf s r) with
    | .ok _ _ => false
    | .error (.trap _) _ => false
    | .error _ _ => true

/-- REDUCTION_PERFORM: a reduction reaches its place. It is performed there, recorded as faulted, or, when its context is gone or the
drain bound has passed, discarded; one that replay holds goes on waiting. -/
def reductionPerform (s : State) (r : Reduction) : State :=
  if reductionLost s r then orphan s r
  else
    let e := Instr.reductionPerform r
    let die := reductionDie s r
    let t := s.strand r.issuer
    let back := fun (s : State) => s.updStrand r.issuer fun t' =>
      { t' with
        firmware := t.firmware, ctx := t.ctx, core := t.core
        windows := if reductionMoved s r then t.windows else t'.windows
        trace := { t'.trace with replayFree := t.trace.replayFree, heldAt := t.trace.heldAt } }
    match performReduction r (inPlaceOf s r) with
    | .ok _ s' =>
      let s' := back { s' with cur := s.cur }
      match r.acquire with
      | some scope => selfInvalidate (selfInvalidate s' r.core scope) t.core scope
      | none => s'
    | .error (.trap x) _ => reductionFault (dropHold s die e) r x
    | .error _ _ => s.post e

/-- ATM_ADD (R291): Returning 32-bit atomic add. -/
def execAtmAdd (d : BitVec 6) (a : BitVec 6) (b : BitVec 6) (o : BitVec 2) (c : BitVec 2) (st : State) : Out :=
  insn
    { word := fa 33#6 d a b 0#4 o c, ops := [.data d 1 true, .reg a, .data b 1 false], bar := true }
    (atmOp 32 0 d a b o c) st

/-- ATM_MIN (R291): Returning 32-bit atomic signed minimum. -/
def execAtmMin (d : BitVec 6) (a : BitVec 6) (b : BitVec 6) (o : BitVec 2) (c : BitVec 2) (st : State) : Out :=
  insn
    { word := fa 33#6 d a b 1#4 o c, ops := [.data d 1 true, .reg a, .data b 1 false], bar := true }
    (atmOp 32 1 d a b o c) st

/-- ATM_MAX (R291): Returning 32-bit atomic signed maximum. -/
def execAtmMax (d : BitVec 6) (a : BitVec 6) (b : BitVec 6) (o : BitVec 2) (c : BitVec 2) (st : State) : Out :=
  insn
    { word := fa 33#6 d a b 2#4 o c, ops := [.data d 1 true, .reg a, .data b 1 false], bar := true }
    (atmOp 32 2 d a b o c) st

/-- ATM_MINN (R291): Returning 32-bit atomic natural minimum. -/
def execAtmMinn (d : BitVec 6) (a : BitVec 6) (b : BitVec 6) (o : BitVec 2) (c : BitVec 2) (st : State) : Out :=
  insn
    { word := fa 33#6 d a b 3#4 o c, ops := [.data d 1 true, .reg a, .data b 1 false], bar := true }
    (atmOp 32 3 d a b o c) st

/-- ATM_MAXN (R291): Returning 32-bit atomic natural maximum. -/
def execAtmMaxn (d : BitVec 6) (a : BitVec 6) (b : BitVec 6) (o : BitVec 2) (c : BitVec 2) (st : State) : Out :=
  insn
    { word := fa 33#6 d a b 4#4 o c, ops := [.data d 1 true, .reg a, .data b 1 false], bar := true }
    (atmOp 32 4 d a b o c) st

/-- ATM_AND (R291): Returning 32-bit atomic AND. -/
def execAtmAnd (d : BitVec 6) (a : BitVec 6) (b : BitVec 6) (o : BitVec 2) (c : BitVec 2) (st : State) : Out :=
  insn
    { word := fa 33#6 d a b 5#4 o c, ops := [.data d 1 true, .reg a, .data b 1 false], bar := true }
    (atmOp 32 5 d a b o c) st

/-- ATM_OR (R291): Returning 32-bit atomic OR. -/
def execAtmOr (d : BitVec 6) (a : BitVec 6) (b : BitVec 6) (o : BitVec 2) (c : BitVec 2) (st : State) : Out :=
  insn
    { word := fa 33#6 d a b 6#4 o c, ops := [.data d 1 true, .reg a, .data b 1 false], bar := true }
    (atmOp 32 6 d a b o c) st

/-- ATM_XOR (R291): Returning 32-bit atomic XOR. -/
def execAtmXor (d : BitVec 6) (a : BitVec 6) (b : BitVec 6) (o : BitVec 2) (c : BitVec 2) (st : State) : Out :=
  insn
    { word := fa 33#6 d a b 7#4 o c, ops := [.data d 1 true, .reg a, .data b 1 false], bar := true }
    (atmOp 32 7 d a b o c) st

/-- ATM_SWP (R291): 32-bit atomic swap. -/
def execAtmSwp (d : BitVec 6) (a : BitVec 6) (b : BitVec 6) (o : BitVec 2) (c : BitVec 2) (st : State) : Out :=
  insn
    { word := fa 33#6 d a b 8#4 o c, ops := [.data d 1 true, .reg a, .data b 1 false], bar := true }
    (atmOp 32 8 d a b o c) st

/-- ATM_FADD (R291): Returning FP32 atomic add rounded to nearest even. -/
def execAtmFadd (d : BitVec 6) (a : BitVec 6) (b : BitVec 6) (o : BitVec 2) (c : BitVec 2) (st : State) : Out :=
  insn
    { word := fa 33#6 d a b 9#4 o c, ops := [.data d 1 true, .reg a, .data b 1 false], bar := true }
    (atmOp 32 9 d a b o c) st

/-- ATM_FADDH (R291): Returning atomic add of two BF16 halves. -/
def execAtmFaddh (d : BitVec 6) (a : BitVec 6) (b : BitVec 6) (o : BitVec 2) (c : BitVec 2) (st : State) : Out :=
  insn
    { word := fa 33#6 d a b 10#4 o c, ops := [.data d 1 true, .reg a, .data b 1 false], bar := true }
    (atmOp 32 10 d a b o c) st

/-- ATM_CAS (R291): 32-bit atomic compare-and-swap. -/
def execAtmCas (d : BitVec 6) (a : BitVec 6) (b : BitVec 6) (o : BitVec 2) (c : BitVec 2) (st : State) : Out :=
  insn
    { word := fa 33#6 d a b 11#4 o c, ops := [.reg d, .reg a, .data b 1 false], bar := true }
    (atmOp 32 11 d a b o c) st

/-- ATMD_ADD (R291): Returning 64-bit atomic add. -/
def execAtmdAdd (d : BitVec 6) (a : BitVec 6) (b : BitVec 6) (o : BitVec 2) (c : BitVec 2) (st : State) : Out :=
  insn
    { word := fa 34#6 d a b 0#4 o c, ops := [.data d 1 true, .reg a, .data b 1 false], bar := true }
    (atmOp 64 0 d a b o c) st

/-- ATMD_MIN (R291): Returning 64-bit atomic signed minimum. -/
def execAtmdMin (d : BitVec 6) (a : BitVec 6) (b : BitVec 6) (o : BitVec 2) (c : BitVec 2) (st : State) : Out :=
  insn
    { word := fa 34#6 d a b 1#4 o c, ops := [.data d 1 true, .reg a, .data b 1 false], bar := true }
    (atmOp 64 1 d a b o c) st

/-- ATMD_MAX (R291): Returning 64-bit atomic signed maximum. -/
def execAtmdMax (d : BitVec 6) (a : BitVec 6) (b : BitVec 6) (o : BitVec 2) (c : BitVec 2) (st : State) : Out :=
  insn
    { word := fa 34#6 d a b 2#4 o c, ops := [.data d 1 true, .reg a, .data b 1 false], bar := true }
    (atmOp 64 2 d a b o c) st

/-- ATMD_MINN (R291): Returning 64-bit atomic natural minimum. -/
def execAtmdMinn (d : BitVec 6) (a : BitVec 6) (b : BitVec 6) (o : BitVec 2) (c : BitVec 2) (st : State) : Out :=
  insn
    { word := fa 34#6 d a b 3#4 o c, ops := [.data d 1 true, .reg a, .data b 1 false], bar := true }
    (atmOp 64 3 d a b o c) st

/-- ATMD_MAXN (R291): Returning 64-bit atomic natural maximum. -/
def execAtmdMaxn (d : BitVec 6) (a : BitVec 6) (b : BitVec 6) (o : BitVec 2) (c : BitVec 2) (st : State) : Out :=
  insn
    { word := fa 34#6 d a b 4#4 o c, ops := [.data d 1 true, .reg a, .data b 1 false], bar := true }
    (atmOp 64 4 d a b o c) st

/-- ATMD_AND (R291): Returning 64-bit atomic AND. -/
def execAtmdAnd (d : BitVec 6) (a : BitVec 6) (b : BitVec 6) (o : BitVec 2) (c : BitVec 2) (st : State) : Out :=
  insn
    { word := fa 34#6 d a b 5#4 o c, ops := [.data d 1 true, .reg a, .data b 1 false], bar := true }
    (atmOp 64 5 d a b o c) st

/-- ATMD_OR (R291): Returning 64-bit atomic OR. -/
def execAtmdOr (d : BitVec 6) (a : BitVec 6) (b : BitVec 6) (o : BitVec 2) (c : BitVec 2) (st : State) : Out :=
  insn
    { word := fa 34#6 d a b 6#4 o c, ops := [.data d 1 true, .reg a, .data b 1 false], bar := true }
    (atmOp 64 6 d a b o c) st

/-- ATMD_XOR (R291): Returning 64-bit atomic XOR. -/
def execAtmdXor (d : BitVec 6) (a : BitVec 6) (b : BitVec 6) (o : BitVec 2) (c : BitVec 2) (st : State) : Out :=
  insn
    { word := fa 34#6 d a b 7#4 o c, ops := [.data d 1 true, .reg a, .data b 1 false], bar := true }
    (atmOp 64 7 d a b o c) st

/-- ATMD_SWP (R291): 64-bit atomic swap. -/
def execAtmdSwp (d : BitVec 6) (a : BitVec 6) (b : BitVec 6) (o : BitVec 2) (c : BitVec 2) (st : State) : Out :=
  insn
    { word := fa 34#6 d a b 8#4 o c, ops := [.data d 1 true, .reg a, .data b 1 false], bar := true }
    (atmOp 64 8 d a b o c) st

/-- ATMD_FADD (R291): Returning FP64 atomic add, on C and V. -/
def execAtmdFadd (d : BitVec 6) (a : BitVec 6) (b : BitVec 6) (o : BitVec 2) (c : BitVec 2) (st : State) : Out :=
  insn
    { word := fa 34#6 d a b 9#4 o c, ops := [.data d 1 true, .reg a, .data b 1 false], bar := true, classes := 3, xfields := [d.toNat, a.toNat, b.toNat] }
    (atmOp 64 9 d a b o c) st

/-- ATMD_CAS (R291): 64-bit atomic compare-and-swap. -/
def execAtmdCas (d : BitVec 6) (a : BitVec 6) (b : BitVec 6) (o : BitVec 2) (c : BitVec 2) (st : State) : Out :=
  insn
    { word := fa 34#6 d a b 11#4 o c, ops := [.reg d, .reg a, .data b 1 false], bar := true }
    (atmOp 64 11 d a b o c) st

/-- RED_ADD_32 (R40): Non-returning 32-bit add reduction. -/
def execRedAdd32 (a : BitVec 6) (b : BitVec 6) (o : BitVec 2) (c : BitVec 2) (st : State) : Out :=
  insn
    { word := fa 33#6 0#6 a b 0#4 o c, ops := [.reg a, .data b 1 false], bar := true }
    (redOp (fa 33#6 0#6 a b 0#4 o c) 32 0 a b o c) st

/-- RED_MIN_32 (R40): Non-returning 32-bit signed minimum reduction. -/
def execRedMin32 (a : BitVec 6) (b : BitVec 6) (o : BitVec 2) (c : BitVec 2) (st : State) : Out :=
  insn
    { word := fa 33#6 0#6 a b 1#4 o c, ops := [.reg a, .data b 1 false], bar := true }
    (redOp (fa 33#6 0#6 a b 1#4 o c) 32 1 a b o c) st

/-- RED_MAX_32 (R40): Non-returning 32-bit signed maximum reduction. -/
def execRedMax32 (a : BitVec 6) (b : BitVec 6) (o : BitVec 2) (c : BitVec 2) (st : State) : Out :=
  insn
    { word := fa 33#6 0#6 a b 2#4 o c, ops := [.reg a, .data b 1 false], bar := true }
    (redOp (fa 33#6 0#6 a b 2#4 o c) 32 2 a b o c) st

/-- RED_MINN_32 (R40): Non-returning 32-bit natural minimum reduction. -/
def execRedMinn32 (a : BitVec 6) (b : BitVec 6) (o : BitVec 2) (c : BitVec 2) (st : State) : Out :=
  insn
    { word := fa 33#6 0#6 a b 3#4 o c, ops := [.reg a, .data b 1 false], bar := true }
    (redOp (fa 33#6 0#6 a b 3#4 o c) 32 3 a b o c) st

/-- RED_MAXN_32 (R40): Non-returning 32-bit natural maximum reduction. -/
def execRedMaxn32 (a : BitVec 6) (b : BitVec 6) (o : BitVec 2) (c : BitVec 2) (st : State) : Out :=
  insn
    { word := fa 33#6 0#6 a b 4#4 o c, ops := [.reg a, .data b 1 false], bar := true }
    (redOp (fa 33#6 0#6 a b 4#4 o c) 32 4 a b o c) st

/-- RED_AND_32 (R40): Non-returning 32-bit AND reduction. -/
def execRedAnd32 (a : BitVec 6) (b : BitVec 6) (o : BitVec 2) (c : BitVec 2) (st : State) : Out :=
  insn
    { word := fa 33#6 0#6 a b 5#4 o c, ops := [.reg a, .data b 1 false], bar := true }
    (redOp (fa 33#6 0#6 a b 5#4 o c) 32 5 a b o c) st

/-- RED_OR_32 (R40): Non-returning 32-bit OR reduction. -/
def execRedOr32 (a : BitVec 6) (b : BitVec 6) (o : BitVec 2) (c : BitVec 2) (st : State) : Out :=
  insn
    { word := fa 33#6 0#6 a b 6#4 o c, ops := [.reg a, .data b 1 false], bar := true }
    (redOp (fa 33#6 0#6 a b 6#4 o c) 32 6 a b o c) st

/-- RED_XOR_32 (R40): Non-returning 32-bit XOR reduction. -/
def execRedXor32 (a : BitVec 6) (b : BitVec 6) (o : BitVec 2) (c : BitVec 2) (st : State) : Out :=
  insn
    { word := fa 33#6 0#6 a b 7#4 o c, ops := [.reg a, .data b 1 false], bar := true }
    (redOp (fa 33#6 0#6 a b 7#4 o c) 32 7 a b o c) st

/-- RED_FADD_32 (R40): Non-returning FP32 add reduction. -/
def execRedFadd32 (a : BitVec 6) (b : BitVec 6) (o : BitVec 2) (c : BitVec 2) (st : State) : Out :=
  insn
    { word := fa 33#6 0#6 a b 9#4 o c, ops := [.reg a, .data b 1 false], bar := true }
    (redOp (fa 33#6 0#6 a b 9#4 o c) 32 9 a b o c) st

/-- RED_FADDH_32 (R40): Non-returning paired BF16 add reduction. -/
def execRedFaddh32 (a : BitVec 6) (b : BitVec 6) (o : BitVec 2) (c : BitVec 2) (st : State) : Out :=
  insn
    { word := fa 33#6 0#6 a b 10#4 o c, ops := [.reg a, .data b 1 false], bar := true }
    (redOp (fa 33#6 0#6 a b 10#4 o c) 32 10 a b o c) st

/-- RED_ADD_64 (R40): Non-returning 64-bit add reduction. -/
def execRedAdd64 (a : BitVec 6) (b : BitVec 6) (o : BitVec 2) (c : BitVec 2) (st : State) : Out :=
  insn
    { word := fa 34#6 0#6 a b 0#4 o c, ops := [.reg a, .data b 1 false], bar := true }
    (redOp (fa 34#6 0#6 a b 0#4 o c) 64 0 a b o c) st

/-- RED_MIN_64 (R40): Non-returning 64-bit signed minimum reduction. -/
def execRedMin64 (a : BitVec 6) (b : BitVec 6) (o : BitVec 2) (c : BitVec 2) (st : State) : Out :=
  insn
    { word := fa 34#6 0#6 a b 1#4 o c, ops := [.reg a, .data b 1 false], bar := true }
    (redOp (fa 34#6 0#6 a b 1#4 o c) 64 1 a b o c) st

/-- RED_MAX_64 (R40): Non-returning 64-bit signed maximum reduction. -/
def execRedMax64 (a : BitVec 6) (b : BitVec 6) (o : BitVec 2) (c : BitVec 2) (st : State) : Out :=
  insn
    { word := fa 34#6 0#6 a b 2#4 o c, ops := [.reg a, .data b 1 false], bar := true }
    (redOp (fa 34#6 0#6 a b 2#4 o c) 64 2 a b o c) st

/-- RED_MINN_64 (R40): Non-returning 64-bit natural minimum reduction. -/
def execRedMinn64 (a : BitVec 6) (b : BitVec 6) (o : BitVec 2) (c : BitVec 2) (st : State) : Out :=
  insn
    { word := fa 34#6 0#6 a b 3#4 o c, ops := [.reg a, .data b 1 false], bar := true }
    (redOp (fa 34#6 0#6 a b 3#4 o c) 64 3 a b o c) st

/-- RED_MAXN_64 (R40): Non-returning 64-bit natural maximum reduction. -/
def execRedMaxn64 (a : BitVec 6) (b : BitVec 6) (o : BitVec 2) (c : BitVec 2) (st : State) : Out :=
  insn
    { word := fa 34#6 0#6 a b 4#4 o c, ops := [.reg a, .data b 1 false], bar := true }
    (redOp (fa 34#6 0#6 a b 4#4 o c) 64 4 a b o c) st

/-- RED_AND_64 (R40): Non-returning 64-bit AND reduction. -/
def execRedAnd64 (a : BitVec 6) (b : BitVec 6) (o : BitVec 2) (c : BitVec 2) (st : State) : Out :=
  insn
    { word := fa 34#6 0#6 a b 5#4 o c, ops := [.reg a, .data b 1 false], bar := true }
    (redOp (fa 34#6 0#6 a b 5#4 o c) 64 5 a b o c) st

/-- RED_OR_64 (R40): Non-returning 64-bit OR reduction. -/
def execRedOr64 (a : BitVec 6) (b : BitVec 6) (o : BitVec 2) (c : BitVec 2) (st : State) : Out :=
  insn
    { word := fa 34#6 0#6 a b 6#4 o c, ops := [.reg a, .data b 1 false], bar := true }
    (redOp (fa 34#6 0#6 a b 6#4 o c) 64 6 a b o c) st

/-- RED_XOR_64 (R40): Non-returning 64-bit XOR reduction. -/
def execRedXor64 (a : BitVec 6) (b : BitVec 6) (o : BitVec 2) (c : BitVec 2) (st : State) : Out :=
  insn
    { word := fa 34#6 0#6 a b 7#4 o c, ops := [.reg a, .data b 1 false], bar := true }
    (redOp (fa 34#6 0#6 a b 7#4 o c) 64 7 a b o c) st

/-- RED_FADD_64 (R40): Non-returning FP64 add reduction, on C and V. -/
def execRedFadd64 (a : BitVec 6) (b : BitVec 6) (o : BitVec 2) (c : BitVec 2) (st : State) : Out :=
  insn
    { word := fa 34#6 0#6 a b 9#4 o c, ops := [.reg a, .data b 1 false], bar := true, classes := 3, xfields := [a.toNat, b.toNat] }
    (redOp (fa 34#6 0#6 a b 9#4 o c) 64 9 a b o c) st

/-- REDUCTION_PERFORM (R297): A reduction reaches its execution place and is performed or logged as faulted. -/
def execReductionPerform (r : Reduction) (s0 : State) : Out :=
  .next (reductionPerform s0 r)

end Sys2Proof.Machine
end

