-- ==== Sys2Proof/Machine/Que.lean ====
section
/-! DEFINITION. The QUE instructions (R133-R153). -/

namespace Sys2Proof.Machine

/-- The fields of a configuration word (R135): kind, NEED and depth. -/
structure QueueWord where
  kind : Nat
  need : Nat
  depth : Nat

/-- A configuration word that keeps the limits of R135. -/
def QueueWord.of (w : Word) : Option QueueWord :=
  let k : QueueWord := ⟨(w.extractLsb' 0 3).toNat, (w.extractLsb' 12 4).toNat, (w.extractLsb' 16 11).toNat⟩
  if w.toNat / 2 ^ 27 ≠ 0 ∨ w.extractLsb' 9 3 ≠ 0 ∨ w.extractLsb' 3 5 ≠ 0 ∨ k.kind = 0 ∨ 4 < k.kind
    ∨ k.depth = 0 ∨ 1024 < k.depth ∨ k.depth < k.need + 1 then none
  else some k

/-- The slot size in bytes of a kind (R134). -/
def slotBytes (kind : Nat) : Nat := if kind = 2 ∨ kind = 3 then 256 else if kind = 0 then 0 else 8

/-- The storage that a queue costs (R134). -/
def Queue.cost (q : Queue) : Nat := q.depth * slotBytes q.kind

/-- The storage that a strand or couple may use (R134). -/
def Strand.queueBudget (t : Strand) : Nat := if t.coupled then 32768 else 16384

/-- Whether a strand is parked on queue q (R148). -/
def Strand.parkedOn (t : Strand) (q : Nat) : Bool :=
  match t.run with
  | .parked (.queueData r) => r = q
  | .parked (.queueSpace r) => r = q
  | .parked (.queueDrain r) => r = q
  | .parked .tile => match t.tile.op with
    | some o => (o.form = 0 && o.a = 32 + q) || o.b = 32 + q
    | none => false
  | _ => false

/-- The total cost of a couple's queues, with q's in place of its old one (R148). -/
def queuesCost (s : State) (u q cost : Nat) : Nat :=
  ((List.range 16).map fun r => if r = q then cost else (s.queue u r).cost).sum

/-- Configure queue q, or unconfigure it with w = 0 (R135, R148). -/
def configureQueue (q : Nat) (w : Word) : M Unit := do
  let s ← get
  let k := s.queue s.cur q
  if !k.slots.isEmpty || (s.couple s.cur).any fun u => (s.strand u).parkedOn q then trap 13 5 (BitVec.ofNat 64 (32 + q))
  if w = 0 then set (s.updQueue s.cur q fun k => { Queue.none with gen := k.gen + 1 })
  else match QueueWord.of w with
    | none => trap 13 3 w
    | some x =>
      if s.me.queueBudget < queuesCost s s.cur q (x.depth * slotBytes x.kind) then trap 13 4 w
      set (s.updQueue s.cur q fun k => ⟨w.setWidth 32, 0, [], none, k.gen + 1⟩)

/-- QCFG (R148). -/
def qcfgOp (d a : BitVec 6) : M Flow := do
  configureQueue (d.toNat - 32) (← readReg a)
  return .seq

/-- Discard n ready heads of queue q, poison ignored; what stops keeps the heads discarded so far and the number that remains
(R148). begun says whether a head has been discarded. -/
def discardHeads (q : Nat) (begun : Bool) : Nat → M Unit
  | 0 => updMe fun t => t.setPart Progress.none
  | n + 1 => do
    let s ← get
    let k := s.queue s.cur q
    let wait := do
      updMe fun t => t.setPart { Progress.none with heads := some (n + 1, begun) }
      throw (.parkAt (.queueData q))
    match k.slots with
    | x :: rest =>
      if x.ready then
        set (s.updQueue s.cur q fun k => { k with h := (k.h + 1) % 65536, slots := rest })
        discardHeads q true n
      else wait
    | [] =>
      if partnerGone s s.cur then
        updMe fun t => t.setPart { Progress.none with heads := some (n + 1, begun) }
        throw (.trapAt ⟨13, 7, BitVec.ofNat 64 (32 + q)⟩ begun)
      else wait

/-- QADV (R148). -/
def qadvOp (a b : BitVec 6) : M Flow := do
  let n := (← readReg b).toNat
  match (← me).part.heads with
  | some (k, begun) => discardHeads (a.toNat - 32) begun k
  | none => discardHeads (a.toNat - 32) false n
  return .seq

/-- QCOMMIT (R148). -/
def qcommitOp (a : BitVec 6) : M Flow := do
  modify fun s => s.updQueue s.cur (a.toNat - 32) fun k => { k with mark := some k.fill }
  return .seq

/-- QFILL (R148). -/
def qfillOp (d a : BitVec 6) : M Flow := do
  let s ← get
  writeReg d (BitVec.ofNat 64 (s.queue s.cur (a.toNat - 32)).ready)
  return .seq

/-- QFREE (R148). -/
def qfreeOp (d a : BitVec 6) : M Flow := do
  let s ← get
  let k := s.queue s.cur (a.toNat - 32)
  writeReg d (BitVec.ofNat 64 (k.depth - k.slots.length))
  return .seq

/-- QRESET (R148): fills of the slots that it discards belong to an earlier generation. -/
def qresetOp (a : BitVec 6) : M Flow := do
  modify fun s => s.updQueue s.cur (a.toNat - 32) fun k => ⟨k.cfg, 0, [], none, k.gen + 1⟩
  return .seq

/-- QDRAIN (R148). -/
def qdrainOp (a : BitVec 6) : M Flow := do
  let s ← get
  let q := a.toNat - 32
  if (s.queue s.cur q).slots.all fun x => x.ready then return .seq
  else throw (.park (.queueDrain q))

/-- The strand that XPUT addresses: the partner, or an uncoupled strand itself (R148). -/
def xputTarget (s : State) : Nat := if s.me.coupled then s.me.partner else s.cur

/-- A wait whose instruction has been issued and will write register d: that write is discarded. -/
def Wait.spare (d : Nat) : Wait → Wait
  | .ticket tk 0 e => .ticket tk 0 (if e = d then 0 else e)
  | .landing tk 0 e => .landing tk 0 (if e = d then 0 else e)
  | .barrier va p (some (dl, e, sc)) => .barrier va p (some (dl, if e = d then 0 else e, sc))
  | .shootdown die n e v => .shootdown die n (if e = d then 0 else e) v
  | .save u e => .save u (if e = d then 0 else e)
  | w => w

/-- The operations of strand p that are under way write register d no more: the value of an XPUT stands over what the partner has issued
earlier (R149). An instruction that has had no effect and issues again later writes it still (DEDUCED, log entry 116). -/
def spareReg (s : State) (p d : Nat) : State :=
  let spare := fun (e : Nat) => if e = d then 0 else e
  match (s.strand p).run with
  | .parked w =>
    let s := s.updStrand p fun t => { t with run := .parked (w.spare d) }
    match w with
    | .booth slice => s.updDie (slice / 32) fun k => { k with boothWaits := k.boothWaits.map fun x =>
        if x.1 = slice ∧ x.2.2.issuer = p then (x.1, spare x.2.1, x.2.2) else x }
    | .held f => s.updParcel f fun k => { k with held := k.held.map fun e =>
        if e.issuer = p then { e with ret := e.ret.map fun r => { r with d := spare r.d } } else e }
    | .save _ _ => { s with preempts := s.preempts.map fun x =>
        { x with waiter := x.waiter.map fun v => if v.1 = p then (v.1, spare v.2) else v } }
    | _ => s
  | _ => s

/-- XPUT (R140, R148, R149). -/
def xputOp (d a : BitVec 6) : M Flow := do
  let v ← readReg a
  if d.toNat < 32 then
    let s ← get
    let p := xputTarget s
    if (s.strand p).full.getLsbD d.toNat then
      if !s.me.coupled || partnerGone s s.cur then trap 13 7 (d.setWidth 64)
      throw (.park (.fullClear d.toNat))
    set ((spareReg s p d.toNat).updStrand p fun t =>
      { t.setReg d.toNat v with full := t.full ||| BitVec.ofNat 32 (2 ^ d.toNat) })
  else pushQueue (d.toNat - 32) (v.setWidth 2048)
  return .seq

/-- FSET and FCLR (R148). -/
def fullOp (d : BitVec 6) (on : Bool) : M Flow := do
  updMe fun t => { t with
    full := if on then t.full ||| BitVec.ofNat 32 (2 ^ d.toNat) else t.full &&& ~~~(BitVec.ofNat 32 (2 ^ d.toNat)) }
  return .seq

/-- FTEST (R148). -/
def ftestOp (d a : BitVec 6) : M Flow := do
  writeReg d (if a = 0 ∨ (← me).full.getLsbD a.toNat then 1 else 0)
  return .seq

/-- QCFG (R148): Configures or unconfigures a queue. -/
def execQcfg (d : BitVec 6) (a : BitVec 6) (st : State) : Out :=
  insn { word := fr 19#6 d a 0#6 0#5 0#2 0#1, ops := [.handle d, .reg a] } (qcfgOp d a) st

/-- QADV (R148): Discards a count of queue heads. -/
def execQadv (a : BitVec 6) (b : BitVec 6) (st : State) : Out :=
  insn { word := fr 19#6 0#6 a b 1#5 0#2 0#1, ops := [.queue a [] (some false), .reg b] } (qadvOp a b) st

/-- QCOMMIT (R148): Sets the queue's commit mark. -/
def execQcommit (a : BitVec 6) (st : State) : Out :=
  insn { word := fr 19#6 0#6 a 0#6 2#5 0#2 0#1, ops := [.queue a [] (some true)] } (qcommitOp a) st

/-- QFILL (R148): Returns the number of ready heads. -/
def execQfill (d : BitVec 6) (a : BitVec 6) (st : State) : Out :=
  insn { word := fr 19#6 d a 0#6 3#5 0#2 0#1, ops := [.reg d, .queue a [] none] } (qfillOp d a) st

/-- QFREE (R148): Returns the number of free slots. -/
def execQfree (d : BitVec 6) (a : BitVec 6) (st : State) : Out :=
  insn { word := fr 19#6 d a 0#6 4#5 0#2 0#1, ops := [.reg d, .queue a [] none] } (qfreeOp d a) st

/-- QRESET (R148): Discards all slots and resets the pointers. -/
def execQreset (a : BitVec 6) (st : State) : Out :=
  insn { word := fr 19#6 0#6 a 0#6 5#5 0#2 0#1, ops := [.queue a [] none] } (qresetOp a) st

/-- QDRAIN (R148): Waits until every allocated slot has filled. -/
def execQdrain (a : BitVec 6) (st : State) : Out :=
  insn { word := fr 19#6 0#6 a 0#6 6#5 0#2 0#1, ops := [.queue a [] none] } (qdrainOp a) st

/-- XPUT (R148): Writes a partner register and its full bit, or appends a queue slot. -/
def execXput (d : BitVec 6) (a : BitVec 6) (st : State) : Out :=
  insn
    { word := fr 19#6 d a 0#6 7#5 0#2 0#1, ops := [if d.toNat < 32 then .reg d else .queue d [1, 4] (some true), .reg a] }
    (xputOp d a) st

/-- FSET (R148): Sets a register's full bit. -/
def execFset (d : BitVec 6) (st : State) : Out :=
  insn { word := fr 19#6 d 0#6 0#6 8#5 0#2 0#1, ops := [.reg d] } (fullOp d true) st

/-- FCLR (R148): Clears a register's full bit. -/
def execFclr (d : BitVec 6) (st : State) : Out :=
  insn { word := fr 19#6 d 0#6 0#6 9#5 0#2 0#1, ops := [.reg d] } (fullOp d false) st

/-- FTEST (R148): Reads a register's full bit. -/
def execFtest (d : BitVec 6) (a : BitVec 6) (st : State) : Out :=
  insn { word := fr 19#6 d a 0#6 10#5 0#2 0#1, ops := [.reg d, .reg a] } (ftestOp d a) st

end Sys2Proof.Machine
end

