-- ==== Sys2Proof/Machine/Fps.lean ====
section
/-! DEFINITION. Scalar floating point (R127-R131). -/

namespace Sys2Proof.Machine

/-- The format of an FPS type field (R127). -/
def fpsFmt (t : BitVec 2) : Fp.Fmt :=
  if t = 0 then Fp.fp64 else if t = 1 then Fp.fp32 else if t = 2 then Fp.fp16 else Fp.bf16

/-- A value of a format in the low bits of a register (R112). -/
def fpBits (f : Fp.Fmt) (x : Word) : Nat := x.toNat % 2 ^ f.width

/-- An FPS operation of two operands: the result and its flags. -/
def fps2 (d a b : BitVec 6) (t : BitVec 2) (s : BitVec 1) (f : Fp.Fmt → Nat → Nat → Nat → Nat × Nat) : M Flow := do
  let x ← readSync a s
  let y ← readX b
  let fm := fpsFmt t
  let (r, fl) := f fm (← me).rm (fpBits fm x) (fpBits fm y)
  writeX d (BitVec.ofNat 64 r)
  raiseFlags fl
  return .seq

/-- An FPS operation of one operand. -/
def fps1 (d a : BitVec 6) (t : BitVec 2) (s : BitVec 1) (f : Fp.Fmt → Nat → Nat → Nat × Nat) : M Flow := do
  let x ← readSync a s
  let fm := fpsFmt t
  let (r, fl) := f fm (← me).rm (fpBits fm x)
  writeX d (BitVec.ofNat 64 r)
  raiseFlags fl
  return .seq

/-- FMAC and FNMAC: the accumulator is register d (R113, R128). -/
def fps3 (d a b : BitVec 6) (t : BitVec 2) (s : BitVec 1) (minus : Bool) : M Flow := do
  let x ← readSync a s
  let y ← readX b
  let z ← readReg d
  let fm := fpsFmt t
  let (r, fl) := Fp.fma fm (← me).rm minus (fpBits fm z) (fpBits fm x) (fpBits fm y)
  writeReg d (BitVec.ofNat 64 r)
  raiseFlags fl
  return .seq

/-- The rounding mode of a conversion: 0 takes RM, 1 to 4 name one (R130). -/
def convMode (rm : Nat) (m : BitVec 3) : Nat := if m = 0 then rm else m.toNat - 1

/-- The classes of an FPS form: FP64 is not on M (R127). -/
def fpsClasses (t : BitVec 2) : Nat := if t = 0 then 3 else 7

/-- The width of an integer format code (R130). -/
def intWidth (f : BitVec 3) : Nat := 8 * 2 ^ (f.toNat % 4)

/-- Whether an integer format code is natural (R130). -/
def intNatural (f : BitVec 3) : Bool := f.getLsbD 2

/-- A 0 or 1 result. -/
def bit (p : Bool × Nat) : Nat × Nat := (if p.1 then 1 else 0, p.2)

/-- FCVTI (R131). -/
def fcvtiOp (d a : BitVec 6) (m f : BitVec 3) (t : BitVec 2) (s : BitVec 1) : M Flow := do
  let x ← readSync a s
  let fm := fpsFmt t
  let w := intWidth f
  let lo : Int := if intNatural f then 0 else -((2 ^ (w - 1) : Nat) : Int)
  let hi : Int := if intNatural f then (2 ^ w : Nat) - 1 else (2 ^ (w - 1) : Nat) - 1
  let (v, fl) := Fp.toRange false lo hi (convMode (← me).rm m) (Fp.decode fm (fpBits fm x))
  writeX d (BitVec.ofInt 64 v)
  raiseFlags fl
  return .seq

/-- FCVTF (R131). -/
def fcvtfOp (d a : BitVec 6) (m f : BitVec 3) (t : BitVec 2) (s : BitVec 1) : M Flow := do
  let x ← readSync a s
  let w := intWidth f
  let n : Int := if intNatural f then (x.setWidth w).toNat else (x.setWidth w).toInt
  let (r, fl) := Fp.ofInt (fpsFmt t) (convMode (← me).rm m) n
  writeX d (BitVec.ofNat 64 r)
  raiseFlags fl
  return .seq

/-- FCVTW (R131). -/
def fcvtwOp (d a : BitVec 6) (m : BitVec 3) (f t : BitVec 2) (s : BitVec 1) : M Flow := do
  let x ← readSync a s
  let src := fpsFmt f
  let (r, fl) := Fp.convert src (fpsFmt t) (convMode (← me).rm m) (fpBits src x)
  writeX d (BitVec.ofNat 64 r)
  raiseFlags fl
  return .seq

/-- FADD (R128): Scalar floating-point add rounded in RM. -/
def execFadd (d : BitVec 6) (a : BitVec 6) (b : BitVec 6) (t : BitVec 2) (s : BitVec 1) (st : State) : Out :=
  insn
    { word := fr 16#6 d a b 0#5 t s, ops := [.data d 1 true, syncOpnd a s, .data b 1 false], classes := fpsClasses t, xfields := [d.toNat, a.toNat, b.toNat] }
    (fps2 d a b t s Fp.add) st

/-- FSUB (R128): Scalar floating-point subtract. -/
def execFsub (d : BitVec 6) (a : BitVec 6) (b : BitVec 6) (t : BitVec 2) (s : BitVec 1) (st : State) : Out :=
  insn
    { word := fr 16#6 d a b 1#5 t s, ops := [.data d 1 true, syncOpnd a s, .data b 1 false], classes := fpsClasses t, xfields := [d.toNat, a.toNat, b.toNat] }
    (fps2 d a b t s Fp.sub) st

/-- FMUL (R128): Scalar floating-point multiply. -/
def execFmul (d : BitVec 6) (a : BitVec 6) (b : BitVec 6) (t : BitVec 2) (s : BitVec 1) (st : State) : Out :=
  insn
    { word := fr 16#6 d a b 2#5 t s, ops := [.data d 1 true, syncOpnd a s, .data b 1 false], classes := fpsClasses t, xfields := [d.toNat, a.toNat, b.toNat] }
    (fps2 d a b t s Fp.mul) st

/-- FMAC (R128): Fused multiply-add into d with one rounding. -/
def execFmac (d : BitVec 6) (a : BitVec 6) (b : BitVec 6) (t : BitVec 2) (s : BitVec 1) (st : State) : Out :=
  insn
    { word := fr 16#6 d a b 3#5 t s, ops := [.reg d, syncOpnd a s, .data b 1 false], classes := fpsClasses t, xfields := [d.toNat, a.toNat, b.toNat] }
    (fps3 d a b t s false) st

/-- FNMAC (R128): Fused multiply-subtract from d with one rounding. -/
def execFnmac (d : BitVec 6) (a : BitVec 6) (b : BitVec 6) (t : BitVec 2) (s : BitVec 1) (st : State) : Out :=
  insn
    { word := fr 16#6 d a b 4#5 t s, ops := [.reg d, syncOpnd a s, .data b 1 false], classes := fpsClasses t, xfields := [d.toNat, a.toNat, b.toNat] }
    (fps3 d a b t s true) st

/-- FDIV (R128): Scalar floating-point divide, on C and V. -/
def execFdiv (d : BitVec 6) (a : BitVec 6) (b : BitVec 6) (t : BitVec 2) (s : BitVec 1) (st : State) : Out :=
  insn
    { word := fr 16#6 d a b 5#5 t s, ops := [.data d 1 true, syncOpnd a s, .data b 1 false], classes := 3, xfields := [d.toNat, a.toNat, b.toNat] }
    (fps2 d a b t s Fp.div) st

/-- FSQRT (R128): Scalar floating-point square root, on C and V. -/
def execFsqrt (d : BitVec 6) (a : BitVec 6) (t : BitVec 2) (s : BitVec 1) (st : State) : Out :=
  insn
    { word := fr 16#6 d a 0#6 6#5 t s, ops := [.data d 1 true, syncOpnd a s], classes := 3, xfields := [d.toNat, a.toNat] }
    (fps1 d a t s Fp.sqrt) st

/-- FMIN (R74): Scalar floating-point minimum. -/
def execFmin (d : BitVec 6) (a : BitVec 6) (b : BitVec 6) (t : BitVec 2) (s : BitVec 1) (st : State) : Out :=
  insn
    { word := fr 16#6 d a b 7#5 t s, ops := [.data d 1 true, syncOpnd a s, .data b 1 false], classes := fpsClasses t, xfields := [d.toNat, a.toNat, b.toNat] }
    (fps2 d a b t s (fun f _ x y => Fp.minmax f false x y)) st

/-- FMAX (R74): Scalar floating-point maximum. -/
def execFmax (d : BitVec 6) (a : BitVec 6) (b : BitVec 6) (t : BitVec 2) (s : BitVec 1) (st : State) : Out :=
  insn
    { word := fr 16#6 d a b 8#5 t s, ops := [.data d 1 true, syncOpnd a s, .data b 1 false], classes := fpsClasses t, xfields := [d.toNat, a.toNat, b.toNat] }
    (fps2 d a b t s (fun f _ x y => Fp.minmax f true x y)) st

/-- FEQ (R128): Floating-point equality compare into an integer. -/
def execFeq (d : BitVec 6) (a : BitVec 6) (b : BitVec 6) (t : BitVec 2) (s : BitVec 1) (st : State) : Out :=
  insn
    { word := fr 16#6 d a b 9#5 t s, ops := [.data d 1 true, syncOpnd a s, .data b 1 false], classes := fpsClasses t, xfields := [d.toNat, a.toNat, b.toNat] }
    (fps2 d a b t s (fun f _ x y => bit (Fp.feq f x y))) st

/-- FLT (R128): Floating-point less-than compare. -/
def execFlt (d : BitVec 6) (a : BitVec 6) (b : BitVec 6) (t : BitVec 2) (s : BitVec 1) (st : State) : Out :=
  insn
    { word := fr 16#6 d a b 10#5 t s, ops := [.data d 1 true, syncOpnd a s, .data b 1 false], classes := fpsClasses t, xfields := [d.toNat, a.toNat, b.toNat] }
    (fps2 d a b t s (fun f _ x y => bit (Fp.flt f false x y))) st

/-- FLE (R128): Floating-point less-or-equal compare. -/
def execFle (d : BitVec 6) (a : BitVec 6) (b : BitVec 6) (t : BitVec 2) (s : BitVec 1) (st : State) : Out :=
  insn
    { word := fr 16#6 d a b 11#5 t s, ops := [.data d 1 true, syncOpnd a s, .data b 1 false], classes := fpsClasses t, xfields := [d.toNat, a.toNat, b.toNat] }
    (fps2 d a b t s (fun f _ x y => bit (Fp.flt f true x y))) st

/-- FCLASS (R129): Writes the class descriptor of a floating-point value. -/
def execFclass (d : BitVec 6) (a : BitVec 6) (t : BitVec 2) (s : BitVec 1) (st : State) : Out :=
  insn
    { word := fr 16#6 d a 0#6 12#5 t s, ops := [.data d 1 true, syncOpnd a s], classes := fpsClasses t, xfields := [d.toNat, a.toNat] }
    (fps1 d a t s fun f _ x => (Fp.fclass f x, 0)) st

/-- FCVTI (R131): Converts floating point to an integer format. -/
def execFcvti (d : BitVec 6) (a : BitVec 6) (m : BitVec 3) (f : BitVec 3) (t : BitVec 2) (s : BitVec 1) (st : State) : Out :=
  insn
    { word := fr 16#6 d a (m ++ f) 13#5 t s, ops := [.data d 1 true, syncOpnd a s], classes := fpsClasses t, xfields := [d.toNat, a.toNat] }
    (fcvtiOp d a m f t s) st

/-- FCVTF (R131): Converts an integer format to floating point. -/
def execFcvtf (d : BitVec 6) (a : BitVec 6) (m : BitVec 3) (f : BitVec 3) (t : BitVec 2) (s : BitVec 1) (st : State) : Out :=
  insn
    { word := fr 16#6 d a (m ++ f) 14#5 t s, ops := [.data d 1 true, syncOpnd a s], classes := fpsClasses t, xfields := [d.toNat, a.toNat] }
    (fcvtfOp d a m f t s) st

/-- FCVTW (R131): Converts between floating-point formats. -/
def execFcvtw (d : BitVec 6) (a : BitVec 6) (m : BitVec 3) (f : BitVec 2) (t : BitVec 2) (s : BitVec 1) (st : State) : Out :=
  insn
    { word := fr 16#6 d a (m ++ 0#1 ++ f) 15#5 t s, ops := [.data d 1 true, syncOpnd a s], classes := if f = 0 then 3 else fpsClasses t, xfields := [d.toNat, a.toNat] }
    (fcvtwOp d a m f t s) st

/-- FSCPY (R128): Copies the sign of b onto a. -/
def execFscpy (d : BitVec 6) (a : BitVec 6) (b : BitVec 6) (t : BitVec 2) (s : BitVec 1) (st : State) : Out :=
  insn
    { word := fr 16#6 d a b 16#5 t s, ops := [.data d 1 true, syncOpnd a s, .data b 1 false], classes := fpsClasses t, xfields := [d.toNat, a.toNat, b.toNat] }
    (fps2 d a b t s (fun f _ x y => (Fp.withSign f x (Fp.signOf f y), 0))) st

/-- FSNEG (R128): Puts the inverse of b's sign onto a. -/
def execFsneg (d : BitVec 6) (a : BitVec 6) (b : BitVec 6) (t : BitVec 2) (s : BitVec 1) (st : State) : Out :=
  insn
    { word := fr 16#6 d a b 17#5 t s, ops := [.data d 1 true, syncOpnd a s, .data b 1 false], classes := fpsClasses t, xfields := [d.toNat, a.toNat, b.toNat] }
    (fps2 d a b t s (fun f _ x y => (Fp.withSign f x (!Fp.signOf f y), 0))) st

/-- FSXOR (R128): XORs the signs of a and b onto a. -/
def execFsxor (d : BitVec 6) (a : BitVec 6) (b : BitVec 6) (t : BitVec 2) (s : BitVec 1) (st : State) : Out :=
  insn
    { word := fr 16#6 d a b 18#5 t s, ops := [.data d 1 true, syncOpnd a s, .data b 1 false], classes := fpsClasses t, xfields := [d.toNat, a.toNat, b.toNat] }
    (fps2 d a b t s (fun f _ x y => (Fp.withSign f x (Fp.signOf f x != Fp.signOf f y), 0))) st

end Sys2Proof.Machine
end

