-- ==== Sys2Proof/Machine/Vector.lean ====
section
/-! DEFINITION. Elements, strips and masks (R154-R160), and the shapes of the vector instructions. -/

namespace Sys2Proof.Machine

/-- Element i of width w of a vector register (R154). -/
def elem (v : Vec) (w i : Nat) : Nat := v.toNat / 2 ^ (w * i) % 2 ^ w

/-- A vector register with element i of width w written. -/
def setElem (v : Vec) (w i x : Nat) : Vec :=
  (v &&& ~~~(BitVec.ofNat 2048 ((2 ^ w - 1) * 2 ^ (w * i)))) ||| BitVec.ofNat 2048 (x % 2 ^ w * 2 ^ (w * i))

/-- The element width of a ty field (R155, R163). -/
def tyWidth (t : BitVec 2) : Nat := if t = 0 then 32 else if t = 1 then 16 else if t = 2 then 8 else 64

/-- The classes of a form that has the type field t: 64-bit elements are not on M (R348). -/
def vecClasses (t : BitVec 2) : Nat := if t = 3 then 3 else 7

/-- VL.COUNT (R155). -/
def Strand.vlCount (t : Strand) : Nat := (t.vl.extractLsb' 0 9).toNat

/-- The strip length L in bits (R155). -/
def Strand.stripBits (t : Strand) : Nat := t.vlCount * tyWidth (t.vl.extractLsb' 12 2)

/-- The number of elements of width w in the strip (R155). -/
def Strand.strip (t : Strand) (w : Nat) : Nat := t.stripBits / w

/-- Whether VMS selects element i (R156). -/
def Strand.active (t : Strand) (i : Nat) : Bool :=
  t.vms.getLsbD 6 || (t.pred (t.vms.extractLsb' 0 6).toNat).getLsbD i

/-- The active elements from index lo to n - 1, ascending. -/
def Strand.lanes (t : Strand) (lo n : Nat) : List Nat :=
  (List.range n).filter fun i => decide (lo ≤ i) && t.active i

/-- VSTART (R158). -/
def Strand.vstartN (t : Strand) : Nat := (t.vstart.extractLsb' 0 9).toNat

/-- Write the elements of a list of indexes, each with its value and flags; the union of the flags. -/
def setElems (v : Vec) (w : Nat) (is : List Nat) (f : Nat → Nat × Nat) : Vec × Nat :=
  is.foldl (init := (v, 0)) fun r i => (setElem r.1 w i (f i).1, r.2 ||| (f i).2)

/-- One past the highest index of a list. -/
def topOf (is : List Nat) : Nat := is.foldl (init := 0) fun m i => max m (i + 1)

/-- A vector instruction completes: VSTART becomes 0 (R158), it is counted (R413), and it is traced on its pipe if it
enters one (R410). -/
def vecEnd (pipe : Option Nat) : M Unit := do
  updMe fun t => { t.bump 0 1 with vstart := 0 }
  match pipe with
  | some p => modify fun s => pipeRecords s s.cur p false
  | none => updMe fun t => { t with trace := { t.trace with tag := (t.trace.tag + 1) % 256 } }

/-- A vector instruction completes with results on their way: as vecEnd, but for its end record (R410). -/
def vecEndLater (pipe : Nat) (key : List Nat) : M Unit := do
  updMe fun t => { t.bump 0 1 with vstart := 0 }
  modify fun s => pipeOpen s s.cur pipe key

/-- Operand b: with X, the low w bits of a scalar register for every element (R34), else a vector operand. -/
def readB (b : BitVec 6) (x : BitVec 1) (w : Nat) : M (Nat → Nat) := do
  if x = 1 then
    let v := ((← me).reg b.toNat).toNat % 2 ^ w
    return fun _ => v
  else
    let v ← readV b
    return fun i => elem v w i

/-- The operand check of field b of a form that may have X (R34). -/
def xOpnd (b : BitVec 6) (x : BitVec 1) : Opnd := if x = 1 then .reg b else .data b 2 false

/-- The x register that field b names with X, for R358. -/
def xField (b : BitVec 6) (x : BitVec 1) : Nat := if x = 1 then b.toNat else 0

/-- An element-wise instruction of two sources (R159): f of the width, a, b and the old element, with its flags. -/
def lanes2 (d a b : BitVec 6) (x : BitVec 1) (w pipe : Nat) (f : Nat → Nat → Nat → Nat × Nat) : M Flow := do
  let t ← me
  let va ← readV a
  let vb ← readB b x w
  let old ← oldV d
  let is := t.lanes t.vstartN (t.strip w)
  let (r, fl) := setElems old w is fun i => f (elem va w i) (vb i) (elem old w i)
  raiseFlags fl
  writeV d r (topOf is * w / 8)
  vecEnd (some pipe)
  return .seq

/-- An element-wise instruction of one source. -/
def lanes1 (d a : BitVec 6) (w pipe : Nat) (f : Nat → Nat × Nat) : M Flow := do
  let t ← me
  let va ← readV a
  let old ← oldV d
  let is := t.lanes t.vstartN (t.strip w)
  let (r, fl) := setElems old w is fun i => f (elem va w i)
  raiseFlags fl
  writeV d r (topOf is * w / 8)
  vecEnd (some pipe)
  return .seq

/-- A reduction (R160, R164): f of b[0] and the active elements of a, ascending; it writes element 0 alone. -/
def reduce (d a b : BitVec 6) (w pipe : Nat) (f : (Nat → Option Nat) → Nat → Nat → Nat × Nat) : M Flow := do
  let t ← me
  let va ← readV a
  let vb ← readV b
  let old ← oldV d
  let n := t.strip w
  if n = 0 then writeV d old 0
  else
    let (r, fl) := f (fun i => if decide (i < n) && t.active i then some (elem va w i) else none) n (elem vb w 0)
    raiseFlags fl
    writeV d (setElem old w 0 r) (w / 8)
  vecEnd (some pipe)
  return .seq

/-- Fold the active elements from index 0 to n - 1 into an accumulator with flags. -/
def foldActive (g : Nat → Nat → Nat × Nat) (el : Nat → Option Nat) (n b0 : Nat) : Nat × Nat :=
  (List.range n).foldl (init := (b0, 0)) fun r i => match el i with
    | some x => ((g r.1 x).1, r.2 ||| (g r.1 x).2)
    | none => r

/-- A permute (R171): the destination elements is take values computed from the sources. -/
def permute (d : BitVec 6) (w : Nat) (is : List Nat) (f : Nat → Nat) : M Unit := do
  let old ← oldV d
  let (r, _) := setElems old w is fun i => (f i, 0)
  writeV d r (topOf is * w / 8)
  vecEnd (some 3)

end Sys2Proof.Machine
end

