-- ==== Sys2Proof/Machine/Sync.lean ====
section
/-! DEFINITION. Stream fences, barriers, value waits and accumulation spans (R298-R310, R439). -/

namespace Sys2Proof.Machine

/-! SBAR (R300). -/

/-- SBAR over the streams of a mask at a scope: kind 1 acquire, 2 release, 3 both. An acquire waits for the read points of the strand's
tile fetches and ticketed loads, for its reductions, and for its redeems (R205, R280, R338). -/
def sbarOp (m : BitVec 4) (p k : BitVec 2) : M Flow := do
  if k.getLsbD 1 then release p.toNat m.toNat
  if k.getLsbD 0 then
    let s ← get
    if fetching s s.cur m.toNat || reducing s s.cur || redeeming s s.cur m.toNat then
      throw (.park (.performed (m.toNat * 16 + 0x100 + m.toNat * 1024)))
    acquire p.toNat
  return .seq

/-! Barrier objects (R301-R304, R439). -/

/-- The leaf of a barrier object or a WAITV word of n bytes (R302, R305): home class, or for WAITV tracked class too, in tier
0 or 1. A poisoned object takes the poisoned-data fault, before its INIT or the count is looked at (R250; DESIGN CHOICE, log entry 110).
The strand's own earlier accesses to it have been performed (R124, R337). -/
def syncLeaf (va : Word) (n : Nat) (writes tracked : Bool) : M Leaf := do
  checkAligned va n
  if (apertureOffset va).isSome then trap 14 0 va
  let s ← get
  let t := s.me
  let (l, s) ← orTrap (translate s t.core t.firmware t.ctx va)
  set s
  if writes then
    match checkLeaf .store l va with
    | some x => if x.cause = 7 then throw (.trap x)
    | none => pure ()
  if !(l.cls = 2 ∨ (tracked ∧ l.cls = 3)) ∨ 2 ≤ tierOf l.pa then trap 14 0 va
  checkChannel va n
  if poisonedAt (← get) l n then trap 11 0 va
  awaitOwn va l.pa n
  return l

/-- The object at a leaf, with the log or the held writes of its parcel applied (R439). -/
def barrierAt (s : State) (l : Leaf) : Barrier :=
  Barrier.ofBytes (decrypted s l (homeRead s l.pa 16))

/-- Whether an object has been initialised. -/
def Barrier.usable (b : Barrier) : Bool := decide (b.flags % 2 = 1) && decide (b.count ≠ 0)

/-- A strand that waits with BARWT completes with a result (R302). -/
def endBarwt (s : State) (u : Nat) (r : Word) : State :=
  match (s.strand u).run with
  | .parked (.barrier _ _ (some (_, d, scope))) =>
    let s := wake s u
    let s := s.updStrand u fun t => { t.setReg d r with pc := t.pc + 4 }
    let s := selfInvalidate s (s.strand u).core scope
    if (s.strand u).firmware then s else countIssued s u 7
  | _ => s

/-- Write an object at its home as one step (R302, R439). -/
def putBarrier (l : Leaf) (va : Word) (new : Barrier) : M Unit := do
  let g ← strandGate (homeDie l.pa) 2
  modify fun s =>
    let t := s.me
    let s := touchRead s l.pa t.ctx va l.counterEnable
    let s := homePut (stampKey s l 16) l.pa new.bytes l.logEnable t.ctx va
    let s := nextRequest s (asker s t.core l)
    replayDone s s.cur (homeDie l.pa) 2 g

/-- Whether BARI or BARV is held at the home of its object (R220, R227, R439). -/
def barrierHeld (s : State) (l : Leaf) : Bool := heldAt s l.pa 0 3 l.logEnable true

/-- BARI (R302). Held at the home, it does not park its strand (R126, R439). -/
def bariOp (a b : BitVec 6) (sc : BitVec 2) : M Flow := do
  let va ← readReg a
  let n ← readReg b
  allStreams
  let l ← syncLeaf va 16 true false
  if n.toNat = 0 ∨ 2 ^ 24 < n.toNat then trap 14 2 n
  checkWatch .store va 16
  release sc.toNat 15
  if barrierHeld (← get) l then
    let g ← strandGate (homeDie l.pa) 2
    modify fun s =>
      let t := s.me
      let s := nextRequest (holdAt (stampKey s l 16) l.pa bariCode 3 n none l.logEnable t.ctx va) t.core
      replayDone s s.cur (homeDie l.pa) 2 g
  else
    let x := barrierAt (← get) l
    putBarrier l va (x.init n.toNat)
  return .seq

/-- BARV (R302). Held at the home, it delivers its phase when it is performed (R439). -/
def barvOp (d a : BitVec 6) (sc : BitVec 2) : M Flow := do
  let va ← readReg a
  allStreams
  let l ← syncLeaf va 16 true false
  if !(barrierAt (← get) l).usable then trap 14 1 va
  checkWatch .atomic va 16
  release sc.toNat 15
  if barrierHeld (← get) l then
    let g ← strandGate (homeDie l.pa) 2
    modify fun s => replayDone (stampKey s l 16) s.cur (homeDie l.pa) 2 g
    let _ ← holdReturning l va barvCode 3 0 0 d none
  let x := barrierAt (← get) l
  putBarrier l va x.arrive
  writeReg d (BitVec.ofNat 64 x.phase)
  return .seq

/-- Read an object at its home, a numbered request of the core (R217, R235, R302). -/
def readBarrier (l : Leaf) (va : Word) : M Barrier := do
  modify fun s => nextRequest (touchRead s l.pa s.me.ctx va l.counterEnable) s.me.core
  return barrierAt (← get) l

/-- BARW (R302). -/
def barwOp (a b : BitVec 6) (sc : BitVec 2) : M Flow := do
  let va ← readReg a
  let p := (← readReg b).toNat % 2 ^ 32
  allStreams
  let l ← syncLeaf va 16 false false
  let x ← readBarrier l va
  if !x.usable then trap 14 1 va
  checkWatch .load va 16
  if x.phase = p then throw (.park (.barrier va p none))
  acquire sc.toNat
  return .seq

/-- BARWT (R302). -/
def barwtOp (d a b : BitVec 6) (sc : BitVec 2) : M Flow := do
  let va ← readReg a
  let p := (← readReg b).toNat % 2 ^ 32
  let dl := (← readReg d).toNat
  allStreams
  let l ← syncLeaf va 16 false false
  let x ← readBarrier l va
  if !x.usable then trap 14 1 va
  checkWatch .load va 16
  let s ← get
  let late := s.me.part.late && s.me.part.wait == some (va, p, dl)
  if !late ∧ x.phase = p ∧ s.time < dl then throw (.park (.barrier va p (some (dl, d.toNat, sc.toNat))))
  acquire sc.toNat
  if s.me.part.wait.isSome then updMe fun t => t.setPart { t.part with wait := none, late := false }
  writeReg d (if late ∨ x.phase = p then 1 else 0)
  return .seq

/-- What a BARWT of a strand waits for: the object, the phase and the deadline, and the level. The strand is parked on it, or has been
taken from it by a trap, a move or a save and will issue it again (R302, R354, R370, R374). -/
def Strand.barwts (t : Strand) : List (Bool × Word × Nat × Nat) :=
  (match if t.run.away then t.resumeAs else t.run with
    | .parked (.barrier va p (some (dl, _, _))) => if t.run.away && t.part.late then [] else [(t.firmware, va, p, dl)]
    | _ => []) ++
  t.parts.filterMap fun p => match p.2.wait with
    | some (va, ph, dl) => if p.2.late then none else some (decide (p.1 = 1), va, ph, dl)
    | none => none

/-- Whether the deadline of a BARWT has gone by with the phase unchanged (R302). -/
def barwtOver (s : State) (u : Nat) (w : Bool × Word × Nat × Nat) : Bool :=
  decide (w.2.2.2 < s.time) && match walk s w.1 (s.strand u).ctx w.2.1 with
    | .ok l => (barrierAt s l).phase = w.2.2.1
    | .error _ => false

/-- The deadline of a BARWT that is not parked on has gone by: it completes with 1 when it is issued again (R302). -/
def Strand.missed (t : Strand) (w : Bool × Word × Nat × Nat) : Strand :=
  let t := if t.run.away then
      match t.resumeAs with
      | .parked (.barrier _ _ (some _)) => t.setPart { t.part with wait := some (w.2.1, w.2.2.1, w.2.2.2), late := true }
      | _ => t
    else t
  { t with parts := t.parts.map fun p => (p.1, if p.2.wait = some (w.2.1, w.2.2.1, w.2.2.2) then { p.2 with late := true } else p.2) }

/-- BARWT_DEADLINE: the deadline has gone by with the phase unchanged (R302) (DEDUCED, log entry 82). -/
def barwtDeadline (s : State) (u : Nat) : State :=
  match (s.strand u).barwts.find? (barwtOver s u) with
  | none => s
  | some w =>
    match (s.strand u).run with
    | .parked (.barrier va p (some (dl, _, _))) => if (va, p, dl) = w.2 then endBarwt s u 1 else s.updStrand u fun t => t.missed w
    | _ => s.updStrand u fun t => t.missed w

/-- WAITV (R305): a tracked word is read through the core's copy, a home word at its home. -/
def waitvOp (d a b : BitVec 6) (sc : BitVec 2) : M Flow := do
  let va ← readReg a
  let v ← readReg b
  allStreams
  let _ ← syncLeaf va 8 false true
  let (bs, _) ← loadBytes va 8 false sc.toNat
  let x := leWord 64 bs
  if x = v then throw (.park (.value va v))
  acquire sc.toNat
  writeReg d x
  return .seq

/-! Accumulation spans (R306-R310). -/

/-- A span of a strand. -/
def Strand.span (t : Strand) (k : Nat) : Option Span := Tab.get none t.spans k

/-- The strand with a span replaced. -/
def Strand.setSpan (t : Strand) (k : Nat) (x : Option Span) : Strand := { t with spans := Tab.set none t.spans k x }

/-- The classes of an instruction on span k: a 64-bit span is not for M-cores (R298). -/
def spanClasses (s : State) (k : Nat) : Nat :=
  match s.me.span k with
  | some x => if x.w = 64 then 3 else 7
  | none => 7

/-- ACCDECL (R306, R307). -/
def accdeclOp (k : BitVec 1) (a b : BitVec 6) (ty : BitVec 2) : M Flow := do
  let target ← readReg a
  let wd ← readReg b
  let t ← me
  let w := if ty = 0 then 32 else 64
  let len := (wd.extractLsb' 16 16).toNat
  let off := (wd.extractLsb' 0 16).toNat
  if wd.toNat / 2 ^ 33 ≠ 0 then trap 22 8 wd
  if t.parent.isSome ∨ len = 0 then trap 22 10 wd
  checkAligned target (w / 8)
  let n := t.strip w
  let bytes := n * len * (w / 8)
  if n = 0 ∨ t.allotSize < 128 * off + bytes ∨ t.windowMeets (128 * off) bytes ∨ t.spanMeets (128 * off) bytes (some k.toNat) then
    trap 22 10 wd
  updMe fun t =>
    let t := t.storeAllot (128 * off) (List.replicate bytes 0)
    t.setSpan k.toNat (some ⟨target, off, len, n, (wd.extractLsb' 32 1).toNat, w, 0, []⟩)
  return .seq

/-- The allotment byte of position j of the copy of lane c (R307). -/
def Span.place (x : Span) (c j : Nat) : Nat := 128 * x.offset + (c * x.length + j) * (x.w / 8)

/-- One addition of a span: the sum and its flags, rounded in mode rm for FADD. -/
def Span.add (x : Span) (rm old v : Nat) : Nat × Nat :=
  if x.op = 0 then ((old + v) % 2 ^ x.w, 0)
  else if x.w = 32 then Fp.add Fp.fp32 rm old v else Fp.add Fp.fp64 rm old v

/-- One element of VACC: index j, value v, element number i (R308). A sum over a poisoned word stays poisoned (R25). -/
def vaccElem (t : Strand) (k i j v : Nat) : Strand × Nat :=
  match t.span k with
  | none => (t, 0)
  | some x =>
    if x.length ≤ j then (t.setSpan k (some { x with dropped := min (x.dropped + 1) (2 ^ 32 - 1) }), 0)
    else
      let o := x.place (i % x.count) j
      let (r, fl) := x.add t.rm (leNat (allotBytes t o (x.w / 8))) v
      ({ t.storeAllot o (leBytes (x.w / 8) r) with spoiled := t.spoiled }.setSpan k (some { x with touched := Tab.set false x.touched j true }), fl)

/-- VACC (R308). It is counted and traced as a vector instruction, on the pipe of its addition; VSTART, which it ignores, stays
(DEDUCED, log entry 125). -/
def vaccOp (k : BitVec 1) (a b : BitVec 6) : M Flow := do
  match (← me).span k.toNat with
  | none => trap 22 5 (k.setWidth 64)
  | some x =>
    let va ← readV a
    let vb ← readV b
    let t ← me
    let (t', fl) := (t.lanes 0 (t.strip x.w)).foldl (init := (t, 0)) fun (t, fl) i =>
      let (t, g) := vaccElem t k.toNat i (elem va x.w i) (elem vb x.w i)
      (t, fl ||| g)
    updMe fun _ => t'.bump 0 1
    raiseFlags fl
    modify fun s => pipeRecords s s.cur (if x.op = 0 then 0 else 1) false
  return .seq

/-- The fold of the copies of position j onto a value, lane 0 first (R309). -/
def Span.fold (x : Span) (t : Strand) (j v : Nat) : Nat :=
  (List.range x.count).foldl (init := v) fun v c =>
    combine (if x.op = 0 then 1 else 9) x.w v (leNat (allotBytes t (x.place c j) (x.w / 8)))

/-- The copies of position j become 0. -/
def Span.clear (x : Span) (t : Strand) (j : Nat) : Strand :=
  (List.range x.count).foldl (init := t) fun t c => t.storeAllot (x.place c j) (List.replicate (x.w / 8) 0)

/-- Merge position j of a span (R309); a poisoned word of a copy is a load of poisoned data (R25). -/
def mergeOne (k : Nat) (x : Span) (j : Nat) : M Unit := do
  let va := x.target + BitVec.ofNat 64 (j * (x.w / 8))
  let p ← atomicPlace va (x.w / 8) (x.op = 1)
  awaitParcel p va [(0, x.w / 8)]
  let t ← me
  match (List.range x.count).find? fun c => t.spoiledAt (x.place c j) (x.w / 8) with
  | some c => trap 11 0 (BitVec.ofNat 64 (apertureBase + x.place c j))
  | none => pure ()
  let _ ← performAtomic ⟨x.w, fun v => some (x.fold t j v), none, 0, x.op = 1, none⟩ va p
  updMe fun t =>
    let t := x.clear t j
    match t.span k with
    | some y => t.setSpan k (some { y with touched := Tab.set false y.touched j false })
    | none => t

/-- An ACCMERGE that stops notes whether it has merged positions (R368). -/
def noteMerged (s : State) (part : Bool) : State :=
  if part then s.updMe fun t => t.setPart { t.part with merged := true } else s

/-- Merge positions in ascending order; what stops keeps the positions below merged (R309, R368). -/
def mergeAll (k : Nat) (x : Span) (part : Bool) : List Nat → M Unit
  | [] => pure ()
  | j :: js => fun s =>
    match mergeOne k x j s with
    | .ok _ s' => mergeAll k x true js s'
    | .error (.trap y) _ => .error (.trapAt y part) (noteMerged s part)
    | .error (.park w) _ => .error (.parkAt w) (noteMerged s part)
    | .error (.parkAt w) s' => .error (.parkAt w) (noteMerged s' part)
    | .error e s' => .error e s'

/-- ACCMERGE (R309) (DEDUCED, log entry 44). -/
def accmergeOp (d : BitVec 6) (k : BitVec 1) : M Flow := do
  match (← me).span k.toNat with
  | none => trap 22 5 (k.setWidth 64)
  | some x =>
    allStreams
    let merged := (← me).part.merged
    mergeAll k.toNat x merged (x.touched.map Prod.fst)
    if merged then updMe fun t => t.setPart Progress.none
    match (← me).span k.toNat with
    | some y => do
      writeReg d (BitVec.ofNat 64 y.dropped)
      updMe fun t => t.setSpan k.toNat (some { y with dropped := 0 })
    | none => pure ()
  return .seq

/-- ACCREL (R310). -/
def accrelOp (k : BitVec 1) : M Flow := do
  updMe fun t => t.setSpan k.toNat none
  return .seq

/-- SBAR (R300): Orders the named streams at a scope as acquire, release or both. -/
def execSbar (m : BitVec 4) (p : BitVec 2) (k : BitVec 2) (st : State) : Out :=
  insn { word := fr 35#6 (0#2 ++ m) (0#4 ++ p) (0#4 ++ k) 0#5 0#2 0#1 } (sbarOp m p k) st

/-- BARI (R302): Initialises a barrier object or starts a new phase. -/
def execBari (a : BitVec 6) (b : BitVec 6) (s : BitVec 2) (st : State) : Out :=
  insn { word := fr 35#6 0#6 a b 1#5 s 0#1, ops := [.reg a, .reg b], bar := true } (bariOp a b s) st

/-- BARV (R302): Arrives at a barrier and returns the phase. -/
def execBarv (d : BitVec 6) (a : BitVec 6) (s : BitVec 2) (st : State) : Out :=
  insn { word := fr 35#6 d a 0#6 2#5 s 0#1, ops := [.reg d, .reg a], bar := true } (barvOp d a s) st

/-- BARW (R302): Waits while the barrier phase equals the given one. -/
def execBarw (a : BitVec 6) (b : BitVec 6) (s : BitVec 2) (st : State) : Out :=
  insn { word := fr 35#6 0#6 a b 3#5 s 0#1, ops := [.reg a, .reg b], bar := true } (barwOp a b s) st

/-- BARWT (R302): Waits for a phase change or a deadline. -/
def execBarwt (d : BitVec 6) (a : BitVec 6) (b : BitVec 6) (s : BitVec 2) (st : State) : Out :=
  insn { word := fr 35#6 d a b 4#5 s 0#1, ops := [.reg d, .reg a, .reg b], bar := true } (barwtOp d a b s) st

/-- WAITV (R305): Waits while a 64-bit word equals a value, then returns it with acquire. -/
def execWaitv (d : BitVec 6) (a : BitVec 6) (b : BitVec 6) (s : BitVec 2) (st : State) : Out :=
  insn { word := fr 35#6 d a b 5#5 s 0#1, ops := [.reg d, .reg a, .reg b], bar := true } (waitvOp d a b s) st

/-- ACCDECL (R307): Declares an accumulation span with per-lane copies. -/
def execAccdecl (k : BitVec 1) (a : BitVec 6) (b : BitVec 6) (t : BitVec 2) (st : State) : Out :=
  insn
    { word := fr 35#6 (0#5 ++ k) a b 6#5 t 0#1, ops := [.reg a, .reg b], bar := true, classes := (if t = 3 then 3 else 7), xfields := [a.toNat, b.toNat] }
    (accdeclOp k a b t) st

/-- VACC (R308): Adds vector values into per-lane span copies. -/
def execVacc (k : BitVec 1) (a : BitVec 6) (b : BitVec 6) (st : State) : Out :=
  insn
    { word := fr 35#6 (0#5 ++ k) a b 7#5 0#2 0#1, ops := [.data a 2 false, .data b 2 false], bar := true, classes := (spanClasses st k.toNat) }
    (vaccOp k a b) st

/-- ACCMERGE (R309): Folds span copies into memory in lane order. -/
def execAccmerge (d : BitVec 6) (k : BitVec 1) (st : State) : Out :=
  insn
    { word := fr 35#6 d 0#6 (0#5 ++ k) 8#5 0#2 0#1, ops := [.reg d], bar := true, classes := (spanClasses st k.toNat), xfields := [d.toNat] }
    (accmergeOp d k) st

/-- ACCREL (R310): Releases a span without merging. -/
def execAccrel (k : BitVec 1) (st : State) : Out :=
  insn { word := fr 35#6 0#6 0#6 (0#5 ++ k) 9#5 0#2 0#1, bar := true } (accrelOp k) st

/-- BARWT_DEADLINE (R302): Device time reaches a BARWT deadline and the waiter completes with 1. -/
def execBarwtDeadline (u : Nat) (s0 : State) : Out :=
  .next (barwtDeadline s0 u)

end Sys2Proof.Machine
end

