-- ==== Sys2Proof/Machine/Str.lean ====
section
/-! DEFINITION. The strand instructions (R105-R111). -/

namespace Sys2Proof.Machine

/-! EXIT (R106). -/

/-- A strand's run is over: an automatic child's lanes return to its parent (R109), and its gang goes on without it (R327). -/
def endStrand (s : State) (u : Nat) : State :=
  let t := s.strand u
  let s := finishStrand s u
  match t.parent with
  | none => s
  | some p => s.updStrand p fun x =>
      if x.children.any fun c => c.uid = u && c.auto then
        { x with gvl := min 64 (x.gvl + t.gvl), children := x.children.filter fun c => c.uid != u }
      else x

/-- A member leaves its gangs (R327). -/
def leaveGang (s : State) (u : Nat) : State :=
  let t := s.strand u
  if t.gangs.isEmpty then s
  else
    let s := s.updContext t.ctx fun c => { c with gangs := c.gangs.map fun g => { g with members := g.members.filter fun m => m.1 != u } }
    s.updStrand u fun t => { t with gangs := [] }

/-- What EXIT gives back before it ends the strand: accumulators, windows, spans and the gang (R106, R310, R327). -/
def releaseAll (s : State) (u : Nat) : State :=
  let s := leaveGang (leaveWindows s u) u
  s.updStrand u fun t => { t with accs := [], spans := [] }

/-- The state after EXIT: Exited while the partner is live, else Done, with the partner that has exited (R94, R106). -/
def exitStrand (s : State) (u : Nat) : State :=
  let t := s.strand u
  if t.coupled then
    match (s.strand t.partner).run with
    | .exited => endStrand (endStrand s t.partner) u
    | .done => endStrand s u
    | _ => s.updStrand u fun t => { t with run := .exited }
  else endStrand s u

/-- EXIT (R106). Its tile fetches and ticketed loads have passed their read points too: every load is performed before it (R335,
R345). -/
def exitOp : M Flow := do
  let s ← get
  let reads := fetching s s.cur 15
  if outstanding s s.cur || reads then throw (.park (.performed (0x20F + if reads then 0xF0 else 0)))
  match heldFrame s s.cur with
  | some f => throw (.park (.parcel f))
  | none => pure ()
  modify fun s => releaseAll s s.cur
  let s ← get
  if s.me.children.any fun c => (s.strand c.uid).run.live then throw (.parkAt .children)
  set (exitStrand s s.cur)
  return .stay

/-! Hardware loops (R108). -/

/-- A hardware loop slot. -/
def Strand.loop (t : Strand) (n : Nat) : LoopSlot := Tab.get LoopSlot.zero t.loops n

/-- The strand with a loop slot replaced. -/
def Strand.setLoop (t : Strand) (n : Nat) (l : LoopSlot) : Strand := { t with loops := Tab.set LoopSlot.zero t.loops n l }

/-- LOOP (R108). -/
def loopOp (a : BitVec 6) (n : BitVec 2) : M Flow := do
  let c ← readReg a
  updMe fun t =>
    if c = 0 then { t.setLoop n.toNat { t.loop n.toNat with skip := true } with run := .skipping }
    else t.setLoop n.toNat ⟨false, true, t.pc + 4, c, 0⟩
  return .seq

/-- ENDLOOP (R108). -/
def endloopOp (n : BitVec 2) : M Flow := do
  let t ← me
  let l := t.loop n.toNat
  if l.skip then
    updMe fun t => { t.setLoop n.toNat { l with skip := false } with run := .ready }
    return .seq
  else if l.active then
    let i := l.index + 1
    if l.index.toNat + 1 < l.count.toNat then
      updMe fun t => t.setLoop n.toNat { l with index := i }
      return .jump l.start
    else
      updMe fun t => t.setLoop n.toNat { l with index := i, active := false }
      return .seq
  else return .seq

/-- LIDX (R108). -/
def lidxOp (d s : BitVec 6) : M Flow := do
  let t ← me
  let k := s.toNat
  writeReg d (if k < 4 then (t.loop k).index
    else if k < 8 then BitVec.ofNat 64 (Tab.get 0 t.levelIndex (k - 4))
    else BitVec.ofNat 64 (Tab.get 0 t.levelTrip (k - 8)))
  return .seq

/-- SIDX (R108). -/
def sidxOp (a : BitVec 6) (n : BitVec 2) : M Flow := do
  let v ← readReg a
  updMe fun t => t.setLoop n.toNat { t.loop n.toNat with index := v }
  return .seq

/-! FORKL and JOINL (R109). -/

/-- The child that FORKL makes in a slot: its scalar registers and full bits, FCSR and SRSEED are the parent's, and so are
its place in the launch and its settings (R98, R109, R359, R403). What R109 does not list is the parent's, too, where it says how the
context's strands run, and at its reset value where it is the strand's own (DESIGN CHOICE, log entry 100). -/
def Strand.child (s : State) (p : Strand) (uid slot c : Nat) (target : Word) (d : Nat) : Strand :=
  { Strand.blank with
    run := .ready
    firmware := p.firmware
    pc := target
    x := if d = 0 then p.x else Tab.set 0 p.x d 0
    full := p.full
    fcsr := p.fcsr
    srseed := p.srseed
    gvl := c
    strandId := BitVec.ofNat 64 ((slot + 1) * 2 ^ 16 + p.strandId.toNat % 2 ^ 15)
    troupeId := p.troupeId
    stageId := p.stageId
    core := p.core
    slot := slot
    ctx := p.ctx
    emuVec := p.emuVec
    travel := { p.travel with issued := 0, away := 0, emu := 0, mig := 0, credits := (s.context p.ctx).creditCap, returns := [] }
    ticketQuota := p.ticketQuota
    trapVec := p.trapVec
    saveBase := p.saveBase
    flogBase := p.flogBase
    trace := { Strand.blank.trace with admitted := p.trace.admitted, replay := p.trace.replay }
    cycleFrom := s.clock
    parent := some uid
    launch := p.launch
    levelIndex := p.levelIndex
    levelTrip := p.levelTrip }

/-- FORKL (R109): a release at scope core, then the child. -/
def forklOp (d a : BitVec 6) : M Flow := do
  let target ← readReg a
  if target.toNat % 4 ≠ 0 then trap 5 0 target
  release 0 15
  let s ← get
  let t := s.me
  match s.freeSlots t.core with
  | [] => writeReg d 0
  | slot :: _ =>
    if t.gvl < 2 then writeReg d 0
    else
      let c := t.gvl / 2
      let gen := (Tab.get 0 (s.core t.core).gens slot + 1) % 256
      let token := BitVec.ofNat 64 (gen * 256 + slot + 1)
      let child := Strand.child s t s.cur slot c target d.toNat
      let s := s.updCore t.core fun k => { k with gens := Tab.set 0 k.gens slot gen }
      let s := s.setStrand s.nextUid child
      let s := s.updMe fun t => { t with
        gvl := t.gvl - c
        children := t.children ++ [⟨s.nextUid, token, d = 0⟩] }
      set { s with nextUid := s.nextUid + 1 }
      writeReg d token
  return .seq

/-- JOINL (R109). A child whose token was discarded returns its lanes when it ends; a JOINL that waits for it, or comes later, answers 0
(DESIGN CHOICE, log entry 101). -/
def joinlOp (d a : BitVec 6) : M Flow := do
  let tk ← readReg a
  let s ← get
  match s.me.children.find? fun c => c.token = tk with
  | none => writeReg d 0
  | some c =>
    if (s.strand c.uid).run.live then throw (.park (.join c.uid))
    updMe fun t => { t with
      gvl := min 64 (t.gvl + (s.strand c.uid).gvl)
      children := t.children.filter fun x => x.uid != c.uid }
    writeReg d 1
  return .seq

/-! YIELD, HINT and MIGR (R107, R110, R111). -/

/-- YIELD (R107): the model's vector commands complete when they issue; the next opportunity goes to another strand
(DESIGN CHOICE, log entry 7). -/
def yieldOp : M Flow := do
  modify fun s => s.updCore s.me.core fun k => { k with yielded := some s.cur }
  return .seq

/-- HINT (R111): code 2 starts a new window of the instruction-mix counters (R360). -/
def hintOp (c : BitVec 6) : M Flow := do
  if c = 2 then
    modify fun s => s.updStrand (s.owner s.cur) fun t => { t with travel := { t.travel with issued := 0, away := 0 } }
  return .seq

/-- MIGR (R110): the mask in force, and a search for a core when one is needed. The first row of the table comes before the others, so a
member of a family on a core of the mask gets 0 (DEDUCED), and the search takes the place of a move of the couple that has not begun
(DESIGN CHOICE, log entry 102). -/
def migrOp (d a : BitVec 6) : M Flow := do
  let m ← readReg a
  let s ← get
  let u := s.cur
  let o := s.strand (s.owner u)
  let mask := m.toNat % 8 &&& o.travel.allowed
  let away := mask &&& (if (s.couple u).any fun v => !(s.strand v).gangs.isEmpty then 6 else 7)
  if mask.testBit (classOf s s.me.core) then
    writeReg d 0
    return .seq
  else if away = 0 ∨ o.travel.credits = 0 ∨ s.inFamily u then
    writeReg d 2
    return .seq
  else
    let v : Move := ⟨s.owner u, away, 2, s.time + (s.context s.me.ctx).waitBound, none, s.clock, some d.toNat, u, 0, []⟩
    set { s with moves := (s.moves.filter fun (x : Move) => x.uid != v.uid) ++ [v] }
    throw (.parkAt (.migrate away false))

/-- EXIT (R106): Ends the strand after its accesses are performed, unmapping windows and disabling tiles. -/
def execExit (st : State) : Out :=
  insn { word := fr 18#6 0#6 0#6 0#6 0#5 0#2 0#1 } (exitOp) st

/-- YIELD (R107): Waits for vector commands to complete and gives up the issue opportunity. -/
def execYield (st : State) : Out :=
  insn { word := fr 18#6 0#6 0#6 0#6 1#5 0#2 0#1 } (yieldOp) st

/-- FORKL (R109): Starts a child strand in a free slot with half the GVL. -/
def execForkl (d : BitVec 6) (a : BitVec 6) (st : State) : Out :=
  insn
    { word := fr 18#6 d a 0#6 2#5 0#2 0#1, ops := [.reg d, .reg a], classes := 3, xfields := [d.toNat, a.toNat] }
    (forklOp d a) st

/-- JOINL (R109): Waits for a child to finish and takes back its lanes. -/
def execJoinl (d : BitVec 6) (a : BitVec 6) (st : State) : Out :=
  insn
    { word := fr 18#6 d a 0#6 3#5 0#2 0#1, ops := [.reg d, .reg a], classes := 3, xfields := [d.toNat, a.toNat] }
    (joinlOp d a) st

/-- LOOP (R108): Starts a hardware loop, or sets the strand skipping on a zero count. -/
def execLoop (a : BitVec 6) (n : BitVec 2) (st : State) : Out :=
  insn { word := fr 18#6 0#6 a (0#4 ++ n) 4#5 0#2 0#1, ops := [.reg a] } (loopOp a n) st

/-- ENDLOOP (R108): Ends a hardware loop iteration or ends skipping. -/
def execEndloop (n : BitVec 2) (st : State) : Out :=
  insn { word := fr 18#6 0#6 0#6 (0#4 ++ n) 5#5 0#2 0#1 } (endloopOp n) st

/-- LIDX (R108): Reads a loop index, iteration index or trip count. -/
def execLidx (d : BitVec 6) (s : BitVec 6) (st : State) : Out :=
  insn { word := fr 18#6 d 0#6 s 6#5 0#2 0#1, ops := [.reg d] } (lidxOp d s) st

/-- SIDX (R108): Sets the index of a hardware loop slot. -/
def execSidx (a : BitVec 6) (n : BitVec 2) (st : State) : Out :=
  insn { word := fr 18#6 0#6 a (0#4 ++ n) 7#5 0#2 0#1, ops := [.reg a] } (sidxOp a n) st

/-- HINT (R111): Tells the device about the following code. -/
def execHint (c : BitVec 6) (st : State) : Out :=
  insn { word := fr 18#6 0#6 0#6 c 8#5 0#2 0#1 } (hintOp c) st

/-- MIGR (R110): Asks Carousel to move the strand to a core of the named classes. -/
def execMigr (d : BitVec 6) (a : BitVec 6) (st : State) : Out :=
  insn { word := fr 18#6 d a 0#6 9#5 0#2 0#1, ops := [.reg d, .reg a] } (migrOp d a) st

end Sys2Proof.Machine
end

