-- ==== Sys2Proof/Machine/Eng.lean ====
section
/-! DEFINITION. Copy engines, ports, channels and gangs (R311-R329). -/

namespace Sys2Proof.Machine

/-! The stream command (R313, R314). -/

/-- Element width in bits. -/
def Command.w (c : Command) : Nat := 8 * 2 ^ (c.ctrl.extractLsb' 0 2).toNat
/-- SKIND: 0 memory, 1 data pushes, 2 row-address pushes, 3 port. -/
def Command.skind (c : Command) : Nat := (c.ctrl.extractLsb' 2 2).toNat
/-- DKIND: 0 memory, 1 port, 2 output FIFO. -/
def Command.dkind (c : Command) : Nat := (c.ctrl.extractLsb' 4 2).toNat
def Command.sport (c : Command) : Nat := (c.ctrl.extractLsb' 6 7).toNat
def Command.dport (c : Command) : Nat := (c.ctrl.extractLsb' 13 7).toNat
/-- RED: 0 write, 1 unordered fold, 2 ordered fold, 3 ordered scalar sum. -/
def Command.red (c : Command) : Nat := (c.ctrl.extractLsb' 20 2).toNat
/-- ROP: 0 ADD, 1 FADD. -/
def Command.rop (c : Command) : Nat := (c.ctrl.extractLsb' 22 2).toNat
def Command.chan (c : Command) : Nat := (c.ctrl.extractLsb' 24 4).toNat
def Command.chen (c : Command) : Bool := c.ctrl.getLsbD 28
def Command.int (c : Command) : Bool := c.ctrl.getLsbD 29
def Command.res (c : Command) : Bool := c.ctrl.getLsbD 30
def Command.key (c : Command) : Nat := (c.ctrl.extractLsb' 32 4).toNat

/-- COUNT of a dimension. -/
def Command.dim (c : Command) (i : Nat) : Nat := (c.counts.extractLsb' (16 * i) 16).toNat

/-- The number of elements. -/
def Command.total (c : Command) : Nat := c.dim 0 * c.dim 1 * c.dim 2 * c.dim 3

/-- The pushes that the command takes (R314). -/
def Command.needed (c : Command) : Nat := if c.skind = 2 then c.dim 1 * c.dim 2 * c.dim 3 else c.total

/-- The indices of element k in stream order. -/
def Command.index (c : Command) (k : Nat) : Nat × Nat × Nat × Nat :=
  (k % c.dim 0, k / c.dim 0 % c.dim 1, k / (c.dim 0 * c.dim 1) % c.dim 2, k / (c.dim 0 * c.dim 1 * c.dim 2))

/-- The address of element k of a memory side: base and strides 1 to 3 (R314). -/
def Command.addr (c : Command) (base : Word) (st : List Word) (k : Nat) : Word :=
  let (i0, i1, i2, i3) := c.index k
  base + BitVec.ofNat 64 (i0 * (c.w / 8)) + BitVec.ofNat 64 i1 * st.getD 0 0 + BitVec.ofNat 64 i2 * st.getD 1 0
    + BitVec.ofNat 64 i3 * st.getD 2 0

/-- The source address of element k; a pushed row address replaces the base and the strides. -/
def Command.srcAddr (c : Command) (k : Nat) : Word :=
  if c.skind = 2 then c.rowBase + BitVec.ofNat 64 (k % c.dim 0 * (c.w / 8)) else c.addr c.src c.ss k

/-- The destination address of element k. -/
def Command.dstAddr (c : Command) (k : Nat) : Word := c.addr c.dst c.ds k

/-- A 32-bit stride, sign-extended. -/
def stride (n : Nat) : Word := (BitVec.ofNat 32 n).signExtend 64

/-- The fields of a command from its 64 bytes. -/
def Command.ofBytes (bs : List Byte) : Command :=
  let le := fun (o n : Nat) => leNat ((bs.drop o).take n)
  { Command.blank with
    src := BitVec.ofNat 64 (le 0 8)
    dst := BitVec.ofNat 64 (le 8 8)
    counts := BitVec.ofNat 64 (le 16 8)
    ss := [stride (le 0x18 4), stride (le 0x1C 4), stride (le 0x20 4)]
    ds := [stride (le 0x24 4), stride (le 0x28 4), stride (le 0x2C 4)]
    ctrl := BitVec.ofNat 64 (le 0x30 8)
    tag := BitVec.ofNat 32 (le 0x38 4) }

/-- Whether a field of the command is invalid by R313; tagHigh is the reserved half of TAG (DEDUCED, log entry 28). -/
def Command.invalid (c : Command) (tagHigh : Nat) : Bool :=
  c.ctrl.toNat / 2 ^ 36 != 0 || c.ctrl.getLsbD 31 || tagHigh != 0
    || c.dim 0 = 0 || c.dim 1 = 0 || c.dim 2 = 0 || c.dim 3 = 0
    || c.dkind = 3 || decide (2 ≤ c.rop) || (c.rop = 1 && c.w = 8)
    || (c.dkind != 0 && (c.red != 0 || c.chen || c.res))
    || (c.skind != 0 && (c.src != 0 || c.ss.any (· != 0)))
    || (c.dkind != 0 && (c.dst != 0 || c.ds.any (· != 0)))
    || (c.skind != 3 && c.sport != 0) || (c.dkind != 1 && c.dport != 0)

/-- Whether a stage or scale-out port can serve a strand's command (R316, R428). -/
def portServes (s : State) (t : Strand) (p : Nat) : Bool :=
  (decide (64 ≤ p ∧ p < 80) && decide (p - 64 < (Tab.get Launch.blank s.launches t.launch).dies.length))
    || (decide (80 ≤ p ∧ p < 88) && Tab.get 0 s.module.ports (p - 80) = t.ctx + 1)

/-- Whether a port is invalid for its side (R316). -/
def Command.badPort (s : State) (t : Strand) (c : Command) : Bool :=
  (c.skind = 3 && !portServes s t c.sport) || (c.dkind = 1 && !(decide (c.dport < 64) || portServes s t c.dport))

/-! Handles (R312). -/

/-- The handle of an entry. -/
def handleOf (die entry gen : Nat) : Word := BitVec.ofNat 64 (die * 2 ^ 62 + gen * 2 ^ 16 + entry)

/-- An entry of a command table. -/
def State.cmd (s : State) (die entry : Nat) : Command := Tab.get Command.blank (s.die die).cmds entry

/-- The state with a command changed. -/
def State.updCmd (s : State) (die entry : Nat) (f : Command → Command) : State :=
  s.updDie die fun d => { d with cmds := Tab.set Command.blank d.cmds entry (f (Tab.get Command.blank d.cmds entry)) }

/-- The die and the entry of a handle that is live for a context. -/
def liveHandle (s : State) (ctx : Nat) (h : Word) : Option (Nat × Nat) :=
  let die := (h.extractLsb' 62 2).toNat
  let e := (h.extractLsb' 0 8).toNat
  let c := s.cmd die e
  if c.st ≠ .free ∧ c.ctx = ctx ∧ h = handleOf die e c.gen then some (die, e) else none

/-- The state code of ESTAT and of the records (R319). -/
def CmdState.code : CmdState → Nat
  | .free => 0
  | .queued => 1
  | .running => 2
  | .done => 3
  | .cancelled => 4
  | .failed => 5

/-- Queued or Running. -/
def CmdState.active (x : CmdState) : Bool := x = .queued || x = .running

/-- The record of a command's state (R409). -/
def engineRec (s : State) (die entry : Nat) : State :=
  let c := s.cmd die entry
  if traces s (s.strand c.issuer) 3 then
    traceRec s c.ctx die (agentUnit die c.engine) ⟨0x28, c.st.code, (handleOf die entry c.gen).toNat⟩
  else s

/-- The records of a stage block (R409): what 0 announce, 1 grant, 2 pulled. -/
def blockRec (s : State) (die entry what bytes port seq : Nat) : State :=
  let c := s.cmd die entry
  if traces s (s.strand c.issuer) 3 then
    traceRec s c.ctx die (agentUnit die c.engine) ⟨0x29, what, bytes + port * 2 ^ 16 + seq % 2 ^ 32 * 2 ^ 32⟩
  else s

/-- The entry that ESTR allocates: a Free one, else the one that ended first (R311). -/
def cmdAllocatable (d : Die) : Option Nat :=
  match (List.range 256).find? fun e => (Tab.get Command.blank d.cmds e).st = .free with
  | some e => some e
  | none =>
    (List.range 256).foldl (init := none) fun best e =>
      let c := Tab.get Command.blank d.cmds e
      if c.st.active then best
      else match best with
        | none => some e
        | some b => if c.released < (Tab.get Command.blank d.cmds b).released then some e else some b

/-! Failure (R332). -/

/-- Whether a command sends into the stage queue that another takes from (R316, R328). -/
def Command.sendsTo (c x : Command) : Bool :=
  c.launch = x.launch && c.launch != 0 && c.dkind = 1 && x.skind = 3 && c.dport = 64 + x.stage && x.sport = 64 + c.stage

/-- Whether a command is an ordered fold that counts toward a channel (R325). -/
def Command.keyed (c : Command) : Bool := c.red = 2 && c.chen

/-- Whether a later ordered fold depends on a command: same channel, a higher key (R325). -/
def keyAfter (c x : Command) : Bool :=
  c.ctx = x.ctx && c.keyed && x.keyed && c.chan = x.chan && decide (c.key < x.key)

/-- The fault log entry of a command (R332). -/
def engineFault (s : State) (die entry cause sub : Nat) (va : Word) : State :=
  let c := s.cmd die entry
  faultLog s c.ctx ⟨va, handleOf die entry c.gen, cause, sub, true, c.slot, c.core⟩

/-- The active commands of the module, as die and entry. -/
def activeCmds (s : State) : List (Nat × Nat) :=
  (List.range 4).flatMap fun d => ((s.die d).cmds.filter fun c => c.2.st.active).map fun c => (d, c.1)

/-- The key of an ordered fold that has failed or been cancelled is dead for its channel: every later key fails with it (R325). -/
def killKey (s : State) (c : Command) : State :=
  if !c.keyed then s
  else s.updContext c.ctx fun x =>
    let ch := Tab.get Channel.blank x.channels c.chan
    { x with channels := Tab.set Channel.blank x.channels c.chan { ch with dead := some (min c.key (ch.dead.getD c.key)) } }

/-- The commands that fail with a command (R320, R325, R332): on the other side of the stage queue that it sends into, and of the one that it
takes from, the one whose turn it is, and every ordered fold of a later key. -/
def peersOf (s : State) (c : Command) : List (Nat × Nat) :=
  let all := activeCmds s
  let first := fun (side : Command → Bool) =>
    ((all.filter fun p => side (s.cmd p.1 p.2)).foldl (init := (none : Option (Nat × Nat))) fun best p => match best with
      | some b => if (s.cmd p.1 p.2).order < (s.cmd b.1 b.2).order then some p else best
      | none => some p).toList
  first (c.sendsTo ·) ++ first (·.sendsTo c) ++ all.filter fun p => keyAfter c (s.cmd p.1 p.2)

/-- A command fails with a sub-cause, and its peers, and theirs, with sub-cause 11 (R332). Each fails once, so that there are at most as
many as are active. -/
def failTree (s : State) : Nat → List (Nat × Nat × Nat × Word) → State
  | 0, _ => s
  | _, [] => s
  | fuel + 1, (die, entry, sub, va) :: rest =>
    let c := s.cmd die entry
    if !c.st.active || c.stop then failTree s fuel rest
    else
      let s := engineFault (s.updCmd die entry fun c => { c with stop := true, sub := sub }) die entry 19 sub va
      failTree (killKey s c) fuel (rest ++ (peersOf s c).map fun p => (p.1, p.2, 11, 0))

/-- Enough for every active command to be named by every other. -/
def failFuel (s : State) : Nat := let n := (activeCmds s).length; n * n + n + 2

/-- A command fails, and its peers with it. -/
def failCommand (s : State) (die entry sub : Nat) (va : Word) : State := failTree s (failFuel s) [(die, entry, sub, va)]

/-- The peers of a command that is cancelled fail (R320). -/
def failPeers (s : State) (die entry : Nat) : State :=
  let c := s.cmd die entry
  failTree (killKey s c) (failFuel s) ((peersOf s c).map fun p => (p.1, p.2, 11, 0))

/-! ESTR, ESTAT, ECANCEL (R318-R320). -/

/-- The wait for every earlier access of the strand at scope package, with the window write-back (R318, R321). -/
def engineRelease : M Unit := do
  if outstanding (← get) (← get).cur then throw (.park (.performed 0x20F))
  release 2 15

/-- ESTR (R318). A watch of the command's bytes traps after every other fault (R369). Only Queued and Running entries count toward the
context's share (R311; DESIGN CHOICE, log entry 114). The first ESTR of a launch that names a scale-out port starts the gang's timer
(R402). -/
def estrOp (d a : BitVec 6) : M Flow := do
  let va ← readReg a
  if va.toNat % 64 ≠ 0 then trap 5 0 va
  engineRelease
  let (bs, _) ← readBytes va 64 false 2
  let s ← get
  let t := s.me
  let c := Command.ofBytes bs
  if c.invalid (leNat (bs.drop 0x3C)) then trap 19 0 va
  if c.badPort s t then trap 19 1 va
  if (apertureOffset c.src).isSome || (apertureOffset c.dst).isSome then trap 19 2 va
  checkWatch .load va 64
  let die := dieOf s t.core
  let k := s.die die
  let share := (k.cmds.filter fun x => x.2.ctx = t.ctx && x.2.st.active).length
  match cmdAllocatable k with
  | none => writeReg d 0
  | some e =>
    if (s.context t.ctx).engineShare ≤ share then writeReg d 0
    else
      let gen := (s.cmd die e).gen % 65535 + 1
      set (s.updDie die fun k => { k with
        cmdOrder := k.cmdOrder + 1
        cmds := Tab.set Command.blank k.cmds e { c with
          st := .queued, gen := gen, ctx := t.ctx, issuer := s.cur, core := t.core, slot := t.slot, launch := t.launch
          stage := t.stageId.toNat % 256, order := k.cmdOrder } })
      let wide := (c.skind = 3 && decide (80 ≤ c.sport)) || (c.dkind = 1 && decide (80 ≤ c.dport))
      modify fun s =>
        let l := Tab.get Launch.blank s.launches t.launch
        if wide && l.members != 0 && l.timer.isNone && !l.gangDead && decide (l.announced.length + 1 < l.members) then
          { s with launches := Tab.set Launch.blank s.launches t.launch { l with timer := some (s.time + l.timeout) } }
        else s
      modify fun s => engineRec s die e
      writeReg d (handleOf die e gen)
  return .seq

/-- ESTAT (R319): the state of an ended command is an acquire at scope package. -/
def estatOp (d a : BitVec 6) : M Flow := do
  let h ← readReg a
  let s ← get
  match liveHandle s s.me.ctx h with
  | none => writeReg d 0
  | some (die, e) =>
    let c := s.cmd die e
    writeReg d (BitVec.ofNat 64 (c.rows % 2 ^ 32 * 2 ^ 32 + (if c.st = .failed then c.sub else 0) * 2 ^ 8 + c.st.code))
    if !c.st.active then acquire 2
  return .seq

/-- ECANCEL (R320). -/
def ecancelOp (d a : BitVec 6) : M Flow := do
  let h ← readReg a
  let s ← get
  match liveHandle s s.me.ctx h with
  | none => writeReg d 0
  | some (die, e) =>
    let c := s.cmd die e
    if c.st.active && !c.stop then
      set (failPeers (s.updCmd die e fun c => { c with stop := true }) die e)
      writeReg d 1
    else writeReg d (if c.st.active then 1 else 0)
  return .seq

/-! FIFOs (R321). -/

/-- Whether a command has an input FIFO, or an output FIFO. -/
def Command.hasInput (c : Command) : Bool := c.skind = 1 || c.skind = 2
def Command.hasOutput (c : Command) : Bool := c.dkind = 2 || c.res

/-- EPUSH (R321). -/
def epushOp (a b : BitVec 6) : M Flow := do
  let h ← readReg a
  let v ← readReg b
  let s ← get
  match liveHandle s s.me.ctx h with
  | none => trap 19 3 h
  | some (die, e) =>
    let c := s.cmd die e
    if !c.hasInput then trap 19 4 h
    if c.needed ≤ c.pushes then trap 19 5 h
    engineRelease
    if 64 ≤ c.input.length then throw (.park (.epush h))
    modify fun s => s.updCmd die e fun c => { c with input := c.input ++ [v], pushes := c.pushes + 1 }
    return .seq

/-- EPOP (R321): an acquire at scope package (R338). -/
def epopOp (d a : BitVec 6) : M Flow := do
  let h ← readReg a
  let s ← get
  match liveHandle s s.me.ctx h with
  | none => trap 19 3 h
  | some (die, e) =>
    let c := s.cmd die e
    if !c.hasOutput then trap 19 4 h
    match c.output with
    | [] => if c.st.active then throw (.park (.epop h)) else trap 19 5 h
    | v :: rest =>
      set (s.updCmd die e fun c => { c with output := rest })
      acquire 2
      writeReg d v
      return .seq

/-! Channels (R322, R323). -/

/-- A channel of a context. -/
def State.channel (s : State) (ctx n : Nat) : Channel := Tab.get Channel.blank (s.context ctx).channels n

/-- EWM (R323). -/
def ewmOp (d a : BitVec 6) : M Flow := do
  let n := (← readReg a).toNat % 16
  let s ← get
  let c := s.channel s.me.ctx n
  writeReg d (if c.size = 0 then 0 else BitVec.ofNat 64 c.wm)
  return .seq

/-- EWAIT (R323): a wait that a reconfiguration ends keeps the generation it began with. Its completion is an acquire at scope package
(R338). -/
def ewaitOp (a b : BitVec 6) : M Flow := do
  let n := (← readReg a).toNat % 16
  let need := (← readReg b).toNat
  let s ← get
  let c := s.channel s.me.ctx n
  let need := min need c.size
  let began := s.me.waitGen
  if c.size = 0 ∨ need ≤ c.wm ∨ (began ≠ 0 ∧ began ≠ c.gen + 1) then
    updMe fun t => { t with waitGen := 0 }
    acquire 2
    return .seq
  else
    updMe fun t => { t with waitGen := c.gen + 1 }
    throw (.parkAt (.ewait n c.gen need))

/-- The strands of a context whose accesses wait for a channel's watermark issue them again under its new settings (R324). -/
def retest (s : State) (ctx n : Nat) : State :=
  (s.strands.map Prod.fst).foldl (init := s) fun s u =>
    match (s.strand u).run with
    | .parked (.watermark c _) => if c = n ∧ (s.strand u).ctx = ctx then wake s u else s
    | _ => s

/-- The sharing class of every parcel of a channel's region (R323). -/
def channelClasses (base : Word) (size : Nat) : M (List Nat) :=
  (if size = 0 then [] else parcelStarts base size).mapM fun va => do
    if 2 ^ 64 ≤ va then trap 6 0 (BitVec.ofNat 64 va)
    return (← leafFor .load (BitVec.ofNat 64 va)).cls

/-- ECHAN (R323). -/
def echanOp (d a b : BitVec 6) : M Flow := do
  let base ← readReg a
  let w ← readReg b
  let n := (w.extractLsb' 0 4).toNat
  let size := (w.extractLsb' 16 32).toNat
  let s ← get
  let ctx := s.me.ctx
  if w.toNat / 2 ^ 48 ≠ 0 ∨ w.extractLsb' 12 4 ≠ 0 ∨ w.extractLsb' 4 4 ≠ 0 ∨ base.toNat % 128 ≠ 0 ∨ size % 128 ≠ 0 then
    writeReg d 3
    return .seq
  else if (activeCmds s).any fun (k, e) => (s.cmd k e).ctx = ctx && (s.cmd k e).chen && (s.cmd k e).chan = n then
    writeReg d 0
    return .seq
  else
    let classes ← channelClasses base size
    if classes.any fun c => c != 2 && c != 3 then writeReg d 2
    else
      let ch : Channel := ⟨if size = 0 then 0 else base, size, (w.extractLsb' 8 4).toNat + 1, 0, [], [], (s.channel ctx n).gen + 1, none⟩
      modify fun s => s.updContext ctx fun x => { x with channels := Tab.set Channel.blank x.channels n ch }
      modify fun s => retest s ctx n
      writeReg d 1
    return .seq

/-! Gangs (R326, R327). -/

/-- The gang at a port of a context on a die. -/
def findGang (s : State) (ctx die port : Nat) : Option Gang :=
  (s.context ctx).gangs.find? fun g => g.die = die && g.port = port

/-- The context's gangs with the one at a port changed. -/
def updGang (s : State) (ctx die port : Nat) (f : Gang → Gang) : State :=
  s.updContext ctx fun c => { c with gangs := c.gangs.map fun g => if g.die = die ∧ g.port = port then f g else g }

/-- COUNT and WCODE of a VL (R155, R326). -/
def vlKey (v : Word) : Nat × Nat := ((v.extractLsb' 0 9).toNat, (v.extractLsb' 12 2).toNat)

/-- EGANG (R326). -/
def egangOp (d a b : BitVec 6) : M Flow := do
  let g ← readReg a
  let x ← readReg b
  let port := (g.extractLsb' 0 7).toNat
  let n := (g.extractLsb' 8 8).toNat
  let s ← get
  let t := s.me
  let die := dieOf s t.core
  if g.toNat / 2 ^ 16 ≠ 0 ∨ g.getLsbD 7 ∨ 63 < port ∨ n = 0 ∨ 64 < n ∨ 47 < x.toNat then
    writeReg d 3
    return .seq
  else
    if 32 ≤ x.toNat then
      match queueCheck s s.cur (x.toNat - 32) [2] (some true) with
      | some k => trap 13 k x
      | none => pure ()
    let old := findGang s t.ctx die port
    let busy := match old with
      | some y => y.complete || y.size != n
      | none => false
    let other := match old with
      | some y => vlKey y.vl != vlKey t.vl
      | none => false
    if busy then writeReg d 0
    else if other then writeReg d 2
    else
      let join := fun (y : Gang) => { y with
        members := y.members ++ [(s.cur, x.toNat)]
        complete := decide (y.members.length + 1 = n) }
      set (match old with
        | some _ => updGang s t.ctx die port join
        | none => s.updContext t.ctx fun c => { c with gangs := c.gangs ++ [join ⟨die, port, n, t.vl, [], false, 0, []⟩] })
      updMe fun t => { t with gangs := t.gangs ++ [(die, port, if x.toNat < 32 then x.toNat else 32)] }
      writeReg d 1
    return .seq

/-- The strand bound no more to the gang at a port. -/
def Strand.leave (t : Strand) (die port : Nat) : Strand :=
  { t with gangs := t.gangs.filter fun g => !(g.1 = die && g.2.1 = port) }

/-- A gang dissolves: its members are bound no more (R326). Slots that a granted block had for it fill with poison (DESIGN CHOICE,
log entry 95). -/
def dissolve (s : State) (ctx die port : Nat) : State :=
  match findGang s ctx die port with
  | none => s
  | some g =>
    let s := s.updContext ctx fun c => { c with gangs := c.gangs.filter fun x => !(x.die = die && x.port = port) }
    let s := g.members.foldl (init := s) fun s m => s.updStrand m.1 fun t => t.leave die port
    g.ahead.flatten.foldl (init := s) fun s (u, q, slot, gen) =>
      if g.members.contains (u, q + 32) then s.post (.queueFillArrival u q slot gen 0 true) else s

/-! Starting (R311, R402). -/

/-- Whether a command names a port, on either side (R311). -/
def Command.names (c : Command) (port : Nat) : Bool := (c.skind = 3 && c.sport = port) || (c.dkind = 1 && c.dport = port)

/-- Whether a port is free for a command: no earlier one of the context on the die that is active names it (R311) (DEDUCED, log
entry 28). -/
def portFree (s : State) (die : Nat) (c : Command) (port : Nat) : Bool :=
  !((s.die die).cmds.any fun x => x.2.st.active && x.2.ctx = c.ctx && decide (x.2.order < c.order) && x.2.names port)

/-- Whether a command names a scale-out port. -/
def Command.scaleOut (c : Command) : Bool := (c.skind = 3 && decide (80 ≤ c.sport)) || (c.dkind = 1 && decide (80 ≤ c.dport))

/-- Whether the gang of a command's launch is incomplete (R401, R402). -/
def gangIncomplete (s : State) (c : Command) : Bool :=
  let l := Tab.get Launch.blank s.launches c.launch
  l.members != 0 && decide (l.announced.length + 1 < l.members)

/-- Whether a Queued command can start (R311): an engine has room, its ports are free, and commands without a port start in
their order. -/
def startableCmd (s : State) (die entry : Nat) : Bool :=
  let c := s.cmd die entry
  let d := s.die die
  let ported := c.skind = 3 || c.dkind = 1
  c.st = .queued && !c.stop
    && decide ((d.cmds.filter fun x => x.2.st = .running).length < 128)
    && (c.skind != 3 || portFree s die c c.sport) && (c.dkind != 1 || portFree s die c c.dport)
    && (ported || !(d.cmds.any fun x => x.2.st = .queued && x.2.skind != 3 && x.2.dkind != 1 && !x.2.stop && decide (x.2.order < c.order)))
    && !(c.scaleOut && gangIncomplete s c)

/-- The engine of lowest number that has room for a command. -/
def roomyEngine (d : Die) : Nat :=
  ((List.range 16).find? fun n => decide ((d.cmds.filter fun x => x.2.st = .running && x.2.engine = n).length < 8)).getD 0

/-- COMMAND_START (R311): the channel is checked (R332), and an ordered fold whose earlier key is dead fails (R325). -/
def commandStart (s : State) (die entry : Nat) : State :=
  if !startableCmd s die entry then s
  else
    let c := s.cmd die entry
    let ch := s.channel c.ctx c.chan
    let bad := (c.chen && ch.size = 0) || (c.red = 2 && (!c.chen || decide (ch.group ≤ c.key)))
    let s := s.updCmd die entry fun c => { c with st := .running, engine := roomyEngine (s.die die) }
    let s := engineRec s die entry
    let late := match ch.dead with
      | some k => c.keyed && decide (k < c.key)
      | none => false
    if bad then failCommand s die entry 12 0 else if late then failCommand s die entry 11 0 else s

/-! Elements (R314, R315, R325). -/

/-- The name under which an engine's operations wait at a home (R220). -/
def engineId (die entry : Nat) : Nat := 2 ^ 40 + die * 256 + entry

/-- Translate for an engine, through its die's shared cache (R214, R315), with the checks of R213: a leaf, or a sub-cause. -/
def engineLeaf (s : State) (die ctx : Nat) (k : Kind) (va : Word) (n : Nat) : Except Nat Leaf :=
  if va.toNat % n ≠ 0 ∨ (apertureOffset va).isSome ∨ !canonical va then .error 8
  else
    let fresh := walk s false ctx va
    let r : Except Trap Leaf := match tlbFind (s.die die).tlb false ctx va with
      | some e =>
        if Config.useCached s.tick && hasMemory s (e.leafAt va).pa then .ok { e.leafAt va with pa := s.movedPa (e.leafAt va).pa }
        else fresh
      | none => fresh
    match r with
    | .error _ => .error 8
    | .ok l => match checkLeaf k l va with
      | some _ => .error 9
      | none => .ok l

/-- The home records of an engine's access to a line, for the strand whose command it is, and the engine's request number (R235,
R403, R411): with own the sharers that a write invalidates, else the owners to which a read is forwarded; then the event of a fold, with
the owner that performed it. -/
def engineRecords (s : State) (die entry line : Nat) (before : Line) (own : Bool) (fold : Option (Nat × Option Nat)) : State :=
  let c := s.cmd die entry
  let a := agentUnit die c.engine
  let others := if before.code = (if own then 1 else 2) then before.sharers else []
  let s := others.foldl (init := s) fun s x => agentHomeRec s c.issuer a line (if own then 0 else 2) 0 (some x)
  nextRequest (match fold with
    | some (e, o) => agentHomeRec s c.issuer a line e 0 o
    | none => s) a

/-- Read one element at its home (R281, R315): the value, or a sub-cause. -/
def engineRead (s : State) (die entry : Nat) (va : Word) (n : Nat) : Except Nat (Nat × State) :=
  let ctx := (s.cmd die entry).ctx
  match engineLeaf s die ctx .load va n with
  | .error e => .error e
  | .ok l =>
    if poisonedAt s l n then .error 10
    else
      let line := l.pa / 128
      let before := s.line line
      let owners := if before.code = 2 then before.sharers else []
      let s := owners.foldl (init := s) fun s a => takeBack s a line false
      let s := if owners.isEmpty then s else s.updLine line fun k => { k with code := 1 }
      let s := engineRecords (touchRead (countLeaf s die l) l.pa ctx va l.counterEnable) die entry line before false none
      .ok (leNat (decrypted s l (homeRead s l.pa n)), s)

/-- Write one element at the place of its class (R294, R315): new gives the value from the old one, and op the log operation
of a fold. A fold into a line that is Poisoned takes the bytes that stand there and does not fail, since the spec names a poisoned source
alone (R332; DESIGN CHOICE, log entry 115). -/
def engineWrite (s : State) (die entry : Nat) (va : Word) (op : Option (Nat × Nat)) (new : Nat → Nat) : Except Nat State :=
  let c := s.cmd die entry
  let n := c.w / 8
  let folds := c.red = 1 || c.red = 2
  match engineLeaf s die c.ctx .atomic va n with
  | .error e => .error e
  | .ok l =>
    if c.red != 0 && c.rop = 1 && decide (2 ≤ tierOf l.pa) then .error 9
    else if keyEmpty s l || !reachable s l.pa then .ok (engineFault s die entry 11 0 va)
    else
      let line := l.pa / 128
      let before := s.line line
      let s := stampKey (touchWrite (countLeaf s die l) l c.ctx va) l n
      let log := l.logEnable && l.cls = 2
      let old := leNat (decrypted s l (homeRead s l.pa n))
      let owner := if (s.line line).code = 2 && !(s.parcel l.frame).blocked then (s.line line).sharers.head? else none
      match (if l.cls = 3 ∧ tierOf l.pa < 2 then owner else none) with
      | some o =>
        let s := ownerWrite s o l (leBytes n (new (leNat (decrypted s l (coherentBytes s l.pa n)))))
        .ok (engineRecords s die entry line Line.blank true (if folds then some (4, some o) else none))
      | none =>
        let me := s.cur
        let s := { s with cur := engineId die entry }
        let s := if l.cls = 0 then updateGuest s die line (l.pa % 128) (leBytes n (new old)) else s
        let keep := (log && tierOf l.pa = 1) || (s.parcel l.frame).blocked || lineHeld s (s.movedPa l.pa)
        let s := match op with
          | some (k, v) => if keep then homeOp s l.pa n k (BitVec.ofNat 64 v) log c.ctx va else homeOp s l.pa n 0 (BitVec.ofNat 64 (new old)) log c.ctx va
          | none => homeOp s l.pa n 0 (BitVec.ofNat 64 (new old)) log c.ctx va
        .ok { engineRecords s die entry line before true (if folds then some (3, none) else none) with cur := me }

/-- The fold of two elements (R325). -/
def Command.fold (c : Command) (a b : Nat) : Nat :=
  if c.rop = 1 then Fp.addHome c.w (a % 2 ^ c.w) (b % 2 ^ c.w) else (a + b) % 2 ^ c.w

/-- The log operation of a fold, where a log has one (R223). -/
def Command.logOf (c : Command) (v : Nat) : Option (Nat × Nat) :=
  if c.rop = 0 then some (1, v) else if 32 ≤ c.w then some (9, v) else none

/-- The watermark after counts changed (R322): at most as many bytes as have counts are added. -/
def raiseMark (ch : Channel) : Nat :=
  go ch.counts.length ch.wm
where
  /-- One byte at a time. -/
  go : Nat → Nat → Nat
    | 0, m => m
    | n + 1, m => if m < ch.size ∧ ch.group ≤ Tab.get 0 ch.counts m then go n (m + 1) else m

/-- A write of n bytes counts toward a channel (R322). -/
def countWrite (s : State) (c : Command) (va : Word) (n : Nat) : State :=
  if !c.chen then s
  else s.updContext c.ctx fun x =>
    let ch := Tab.get Channel.blank x.channels c.chan
    let offs := (List.range n).filterMap fun i =>
      let a := va.toNat + i
      if ch.base.toNat ≤ a ∧ a < ch.base.toNat + ch.size then some (a - ch.base.toNat) else none
    let ch := { ch with counts := offs.foldl (init := ch.counts) fun m o => Tab.set 0 m o (Tab.get 0 m o + 1) }
    { x with channels := Tab.set Channel.blank x.channels c.chan { ch with wm := raiseMark ch } }

/-- The keys that have been folded into an element of a channel. -/
def keysAt (s : State) (c : Command) (va : Word) : List Nat :=
  let ch := s.channel c.ctx c.chan
  Tab.get [] ch.keys va.toNat

/-- Note an element performed, and its row when it is complete (R319, R321). -/
def Command.note (c : Command) (k : Nat) : Command :=
  let r := k / c.dim 0
  let n := Tab.get 0 c.rowCount r + 1
  let full := n = c.dim 0
  { c with
    count := c.count + 1
    done := Tab.set false c.done k true
    rowCount := if full then Tab.erase c.rowCount r else Tab.set 0 c.rowCount r n
    rows := if full then c.rows + 1 else c.rows
    finished := if full && c.res then c.finished ++ [r] else c.finished }

/-- Whether the elements of a command are free of order: both sides are memory, and it is no ordered sum (R315). -/
def Command.unordered (c : Command) : Bool := c.skind = 0 && c.dkind = 0 && c.red != 3

/-- The next element: in stream order, or the first from an open place on that has not been performed. -/
def Command.pick (c : Command) (free : Nat) : Nat :=
  if c.unordered then go (c.done.length + 1) (free % c.total) else c.count
where
  /-- Elements performed are passed over. -/
  go : Nat → Nat → Nat
    | 0, k => k
    | n + 1, k => if Tab.get false c.done k then go n ((k + 1) % c.total) else k

/-- Whether element k may not start its row yet: the output FIFO of a RES command is full (R321). -/
def Command.rowHeld (c : Command) (k : Nat) : Bool :=
  c.res && Tab.get 0 c.rowCount (k / c.dim 0) = 0 && decide (64 ≤ c.output.length + c.finished.length)

/-- The stage queue that a command's port names, as source (side 0) or destination: launch, from, to (R316, R328). -/
def Command.queueKey (c : Command) (side : Nat) : Nat × Nat × Nat :=
  if side = 0 then (if 80 ≤ c.sport then (0, c.sport, 0) else (c.launch, c.sport - 64, c.stage))
  else (if 80 ≤ c.dport then (0, 0, c.dport) else (c.launch, c.stage, c.dport - 64))

/-- The stage queue under a key. -/
def stageQueue (s : State) (k : Nat × Nat × Nat) : StageQueue :=
  (s.stageQueues.find? fun q => (q.launch, q.src, q.dst) = k).getD ⟨k.1, k.2.1, k.2.2, 0, [], [], []⟩

/-- The state with a stage queue replaced. -/
def setStageQueue (s : State) (q : StageQueue) : State :=
  let k := (q.launch, q.src, q.dst)
  { s with stageQueues := (s.stageQueues.filter fun x => (x.launch, x.src, x.dst) != k) ++ [q] }

/-- What an element's source came to. -/
inductive Source where
  | value (v : Nat) (s : State)
  /-- nothing to read yet -/
  | wait
  | fail (sub : Nat) (va : Word)

/-- Read the source of element k. -/
def sourceOf (s : State) (die entry k : Nat) : Source :=
  let c := s.cmd die entry
  let n := c.w / 8
  let memory := fun (s : State) (va : Word) => match engineRead s die entry va n with
    | .ok (v, s) => Source.value v s
    | .error e => Source.fail e va
  match c.skind with
  | 0 => memory s (c.srcAddr k)
  | 1 => match c.input with
    | v :: rest => .value (v.toNat % 2 ^ c.w) (s.updCmd die entry fun c => { c with input := rest })
    | [] => .wait
  | 2 =>
    if k % c.dim 0 = 0 then
      match c.input with
      | v :: rest =>
        let s := s.updCmd die entry fun c => { c with input := rest, rowBase := v }
        memory s ((s.cmd die entry).srcAddr k)
      | [] => .wait
    else memory s (c.srcAddr k)
  | _ =>
    let q := stageQueue s (c.queueKey 0)
    let q := if 80 ≤ c.sport then { q with arrived := q.arrived ++ Config.scaleOut s.tick c.sport } else q
    if q.arrived.length < n then .wait
    else .value (leNat (q.arrived.take n)) (setStageQueue s { q with arrived := q.arrived.drop n })

/-- The bytes of a strip of the gang at a vector port, as whole elements of a command (R327). -/
def stripBytes (s : State) (die : Nat) (c : Command) (ctx port : Nat) : Nat :=
  match findGang s ctx die port with
  | some g => (vlKey g.vl).1 * tyWidth (g.vl.extractLsb' 12 2) / c.w * (c.w / 8)
  | none => 0

/-- The bytes that a command may read ahead for a port: a strip (R327), or a block, which is short enough for the destination of the command
that takes it: 4096 bytes for memory, 64 for a FIFO or a further port, a strip for a gang, and one element as long as no command takes it
(R329; DESIGN CHOICE, log entry 95). -/
def Command.ahead (s : State) (die : Nat) (c : Command) : Nat :=
  if c.dport < 64 then stripBytes s die c c.ctx c.dport
  else if 80 ≤ c.dport then 4096
  else
    match (activeCmds s).find? fun p => let x := s.cmd p.1 p.2; x.skind = 3 && x.queueKey 0 = c.queueKey 1 with
    | some p =>
      let x := s.cmd p.1 p.2
      if x.dkind = 0 then 4096
      else if x.dkind = 1 ∧ x.dport < 64 then max (c.w / 8) (stripBytes s p.1 c x.ctx x.dport)
      else 64
    | none => c.w / 8

/-- Deliver element k to its destination; the answer is none where it has to wait. -/
def deliver (s : State) (die entry k v : Nat) : Option State :=
  let c := s.cmd die entry
  let n := c.w / 8
  let note := fun (s : State) => s.updCmd die entry fun c => c.note k
  match c.dkind with
  | 0 =>
    if c.red = 3 then
      match (match c.acc with
        | some a => Except.ok (a.toNat, s)
        | none => engineRead s die entry c.dst n) with
      | .error e => some (failCommand s die entry e c.dst)
      | .ok (a, s) =>
        let x := c.fold a v
        let s := note (s.updCmd die entry fun c => { c with acc := some (BitVec.ofNat 64 x) })
        if k + 1 = c.total then
          match engineWrite s die entry c.dst none (fun _ => x) with
          | .ok s => some (countWrite s c c.dst n)
          | .error e => some (failCommand s die entry e c.dst)
        else some s
    else
      let va := c.dstAddr k
      let keys := keysAt s c va
      if c.red = 2 ∧ keys.contains c.key then some (failCommand s die entry 12 va)
      else if c.red = 2 ∧ (List.range c.key).any fun x => !keys.contains x then none
      else
        let w := if c.red = 0 then engineWrite s die entry va none (fun _ => v)
          else engineWrite s die entry va (c.logOf v) (fun old => c.fold old v)
        match w with
        | .error e => some (failCommand s die entry e va)
        | .ok s =>
          let s := countWrite (note s) c va n
          some (if c.red = 2 then s.updContext c.ctx fun x =>
              let ch := Tab.get Channel.blank x.channels c.chan
              { x with channels := Tab.set Channel.blank x.channels c.chan { ch with keys := Tab.set [] ch.keys va.toNat (keys ++ [c.key]) } }
            else s)
  | 1 =>
    if c.ahead s die < c.gather.length + n then none
    else some (note (s.updCmd die entry fun c => { c with gather := c.gather ++ leBytes n v }))
  | _ =>
    if 64 ≤ c.output.length then none
    else some (note (s.updCmd die entry fun c => { c with output := c.output ++ [BitVec.ofNat 64 v] }))

/-- One element of a Running command, if one can move (R315): with free the open choice among elements that have no order. -/
def elementMove (s : State) (die entry free : Nat) : Option State :=
  let c := s.cmd die entry
  if c.st ≠ .running ∨ c.stop ∨ c.total ≤ c.count then none
  else
    let k := c.pick free
    if c.rowHeld k then none
    else if c.dkind = 1 ∧ c.ahead s die < c.gather.length + c.w / 8 then none
    else match sourceOf s die entry k with
      | .wait => none
      | .fail e va => some (failCommand s die entry e va)
      | .value v s' => deliver s' die entry k v

/-- ENGINE_ELEMENT (R315). -/
def engineElement (s : State) (die entry : Nat) : State :=
  match elementMove s die entry (Config.choice s.tick) with
  | some s => s
  | none => s

/-- ROW_COMPLETE (R321): the result element of a completed row enters the output FIFO. -/
def rowComplete (s : State) (die entry : Nat) : State :=
  s.updCmd die entry fun c =>
    match c.finished with
    | r :: rest =>
      if c.output.length < 64 then { c with output := c.output ++ [BitVec.ofNat 64 r], finished := rest } else c
    | [] => c

/-! The end (R315, R320, R330). -/

/-- Whether an operation of a command is held at a home. -/
def heldOf (s : State) (die entry : Nat) : Bool :=
  s.parcels.any fun p => p.2.held.any fun e => e.issuer = engineId die entry

/-- Whether blocks of a command are on their way. -/
def blocksMoving (s : State) (c : Command) : Bool :=
  c.dkind = 1 && decide (64 ≤ c.dport) && !(stageQueue s (c.queueKey 1)).granted.isEmpty

/-- Whether an active command has nothing left to do, or has stopped, and nothing of it is in flight. -/
def endable (s : State) (die entry : Nat) : Bool :=
  let c := s.cmd die entry
  let q := stageQueue s (c.queueKey 1)
  let spent := c.total ≤ c.count ∧ c.finished.isEmpty ∧ c.gather.isEmpty
    ∧ !(c.dkind = 1 && decide (64 ≤ c.dport) && !q.announced.isEmpty)
  c.st.active && (c.stop || (c.st = .running && decide spent)) && !heldOf s die entry && !blocksMoving s c

/-- Record a completion for a strand (R330). -/
def recordCompletion (s : State) (u : Nat) (x : Completion) : State :=
  s.updStrand u fun t =>
    if t.run = .done then t
    else if t.completions.length < 16 then { t with completions := t.completions ++ [x] }
    else
      let lost := (t.uistat.extractLsb' 16 16).toNat
      { t with uistat := if lost < 65535 then t.uistat + 0x10000 else t.uistat }

/-- What replay makes of a command's end (R415). -/
def endGate (s : State) (die entry : Nat) : Gate :=
  replayGate s (s.cmd die entry).issuer die 4 (holdExpired s die (.commandEnd die entry))

/-- COMMAND_END (R315, R320, R330, R332): Done, Cancelled or Failed; the interrupt is recorded, and the gang of its port
dissolves. -/
def commandEnd (s : State) (die entry : Nat) : State :=
  let g := endGate s die entry
  if !endable s die entry || g = .hold then s
  else
    let c := s.cmd die entry
    let st := if c.sub ≠ 0 then CmdState.failed else if c.stop then CmdState.cancelled else CmdState.done
    let s := s.updCmd die entry fun c => { c with st := st, gather := [], released := s.tick }
    let q := stageQueue s (c.queueKey 1)
    let s := if c.stop && c.dkind = 1 && decide (64 ≤ c.dport) then setStageQueue s { q with announced := [] } else s
    let s := if c.dkind = 1 ∧ c.dport < 64 ∧ c.st = .running then dissolve s c.ctx die c.dport else s
    let s := if c.int then recordCompletion s c.issuer ⟨handleOf die entry c.gen, st.code, c.tag⟩ else s
    let s := engineRec s die entry
    dropHold (replayDone s c.issuer die 4 g) die (.commandEnd die entry)

/-! Gang delivery (R327). -/

/-- The Running command that a gang serves. -/
def gangCommand (s : State) (ctx die port : Nat) : Option Nat :=
  ((s.die die).cmds.find? fun x => x.2.st = .running && !x.2.stop && x.2.ctx = ctx && x.2.dkind = 1 && x.2.dport = port).map Prod.fst

/-- Whether the next strip of a gang is whole: its bytes are there, or the last ones are. -/
def Command.stripReady (c : Command) (size : Nat) : Bool :=
  (decide (size ≤ c.gather.length) && decide (0 < size)) || (c.total ≤ c.count && !c.gather.isEmpty)

/-- Whether every member of a gang is resident, and each queue target has n free slots (R327, R333). -/
def gangReady (s : State) (g : Gang) (n : Nat := 1) : Bool :=
  g.complete && g.members.all fun m =>
    (s.strand m.1).run.inPlay && (m.2 < 32 || (let q := s.queue m.1 (m.2 - 32); decide (q.slots.length + n ≤ q.depth)))

/-- A strip whose slots are allocated moves whatever its members do, but for one that a register waits for. -/
def aheadMoves (s : State) (g : Gang) : Bool :=
  !g.ahead.isEmpty && g.members.all fun m => 32 ≤ m.2 || (s.strand m.1).run.inPlay || (s.strand m.1).run = .draining

/-- A second strip offered to a register target (R327, R332). -/
def gangOverrun (g : Gang) : Bool := decide (0 < g.strips) && g.members.any fun m => decide (m.2 < 32)

/-- Whether a strip can be granted, or fails. -/
def stripMoves (s : State) (ctx die port : Nat) : Bool :=
  match findGang s ctx die port, gangCommand s ctx die port with
  | some g, some e =>
    let c := s.cmd die e
    g.complete && c.stripReady (c.ahead s die) && (gangOverrun g || (if g.ahead.isEmpty then gangReady s g else aheadMoves s g))
  | _, _ => false

/-- The slots of one strip: slot F of each queue target (R327), as strand, queue, slot number and generation. -/
def allocStrip (s : State) (g : Gang) : List (Nat × Nat × Nat × Nat) × State :=
  (g.members.filter fun m => decide (32 ≤ m.2)).foldl (init := ([], s)) fun (xs, s) m =>
    let q := m.2 - 32
    let k := s.queue m.1 q
    (xs ++ [(m.1, q, k.fill, k.gen)], s.updQueue m.1 q fun k => { k with slots := k.slots ++ [⟨false, false, 0, []⟩] })

/-- The members take a strip: the slots fill when the data reaches their cores, and a register is written and awaited no more. -/
def giveStrip (s : State) (g : Gang) (slots : List (Nat × Nat × Nat × Nat)) (bs : List Byte) : State :=
  let v : Vec := leWord 2048 bs
  let s := (g.members.filter fun m => decide (m.2 < 32)).foldl (init := s) fun s m => s.updStrand m.1 fun t =>
    { t.setVec m.2 v 256 with gangs := t.gangs.map fun x => if x.1 = g.die ∧ x.2.1 = g.port then (x.1, x.2.1, 32) else x }
  (slots.filter fun x => g.members.contains (x.1, x.2.1 + 32)).foldl (init := s) fun s x =>
    s.post (.queueFillArrival x.1 x.2.1 x.2.2.1 x.2.2.2 v false)

/-- GANG_STRIP_GRANT (R327): the strip takes slots that its block has been granted, or slots of its own. -/
def gangStripGrant (s : State) (ctx die port : Nat) : State :=
  if !stripMoves s ctx die port then s
  else match findGang s ctx die port, gangCommand s ctx die port with
    | some g, some e =>
      let c := s.cmd die e
      if gangOverrun g then failCommand s die e 13 0
      else
        let n := c.ahead s die
        let (slots, rest, s) := match g.ahead with
          | slots :: rest => (slots, rest, s)
          | [] => let (slots, s) := allocStrip s g; (slots, [], s)
        let s := giveStrip s g slots (c.gather.take n)
        let s := updGang s ctx die port fun g => { g with strips := g.strips + 1, ahead := rest }
        s.updCmd die e fun c => { c with gather := c.gather.drop n }
    | _, _ => s

/-! Stage queues (R328, R329). -/

/-- The Running command whose destination, or source, is a stage queue. -/
def queueCommand (s : State) (side : Nat) (k : Nat × Nat × Nat) : Option (Nat × Nat) :=
  (activeCmds s).find? fun (d, e) =>
    let c := s.cmd d e
    c.st = .running && (if side = 0 then c.skind = 3 else c.dkind = 1 && decide (64 ≤ c.dport)) && c.queueKey side = k

/-- The port under which a side's record names a queue. -/
def portOf (s : State) (side die entry : Nat) : Nat :=
  let c := s.cmd die entry
  if side = 0 then c.sport else c.dport

/-- Whether the sender can announce a block: bytes wait, and fewer than 8 blocks are announced and not granted (R329). -/
def announces (s : State) (k : Nat × Nat × Nat) : Option (Nat × Nat) :=
  match queueCommand s 1 k with
  | some (d, e) =>
    let c := s.cmd d e
    if !c.stop && !c.gather.isEmpty && decide ((stageQueue s k).announced.length < 8) then some (d, e) else none
  | none => none

/-- STAGE_BLOCK_ANNOUNCE (R329). -/
def blockAnnounce (s : State) (launch src dst : Nat) : State :=
  let k := (launch, src, dst)
  match announces s k with
  | none => s
  | some (d, e) =>
    let c := s.cmd d e
    let q := stageQueue s k
    let s := setStageQueue s { q with announced := q.announced ++ [c.gather], seq := q.seq + 1 }
    let s := s.updCmd d e fun c => { c with gather := [] }
    blockRec s d e 0 c.gather.length (portOf s 1 d e) q.seq

/-- The bytes that a receiver has been granted and has not put into its destination. -/
def pendingBytes (c : Command) (q : StageQueue) : Nat :=
  c.gather.length + q.arrived.length + (q.granted.map List.length).sum

/-- How many strips more than those with slots a receiver of a gang fills with a block of len bytes (R327, R329). -/
def blockStrips (s : State) (die : Nat) (c : Command) (g : Gang) (q : StageQueue) (len : Nat) : Nat :=
  let n := c.ahead s die
  let bytes := min (pendingBytes c q + len) (c.gather.length + (c.total - c.count) * (c.w / 8))
  (bytes + n - 1) / n - g.ahead.length

/-- Whether the receiver's destination can take the whole block (R329, R333): memory always; a gang when its members have free slots for
every strip; a FIFO, or what another port reads ahead, when it has the room. -/
def takes (s : State) (die entry : Nat) (q : StageQueue) (len : Nat) : Bool :=
  let c := s.cmd die entry
  let fits := fun (used room : Nat) => decide (used + len ≤ room)
  if c.stop then false
  else if c.dkind = 0 then true
  else if c.dkind = 1 ∧ c.dport < 64 then
    match findGang s c.ctx die c.dport with
    | some g => gangReady s g (blockStrips s die c g q len)
    | none => false
  else if c.dkind = 1 then fits (pendingBytes c q) (c.ahead s die)
  else fits (c.output.length * (c.w / 8) + pendingBytes c q) (64 * (c.w / 8))

/-- Whether the oldest announced block can be granted. -/
def grants (s : State) (k : Nat × Nat × Nat) : Bool :=
  let q := stageQueue s k
  match q.announced with
  | [] => false
  | b :: _ => decide (80 ≤ k.2.2) || (match queueCommand s 0 k with
    | some (d, e) => takes s d e q b.length
    | none => false)

/-- The record of a receiver, if there is one. -/
def receiverRec (s : State) (k : Nat × Nat × Nat) (what bytes seq : Nat) : State :=
  match queueCommand s 0 k with
  | some (d, e) => blockRec s d e what bytes (portOf s 0 d e) seq
  | none => s

/-- The slots of the strips that a block fills are allocated with its grant, where its destination is a gang (R327, R329). -/
def grantSlots (s : State) (k : Nat × Nat × Nat) (len : Nat) : State :=
  match queueCommand s 0 k with
  | none => s
  | some (d, e) =>
    let c := s.cmd d e
    if c.dkind = 1 ∧ c.dport < 64 then
      match findGang s c.ctx d c.dport with
      | none => s
      | some g => (List.range (blockStrips s d c g (stageQueue s k) len)).foldl (init := s) fun s _ =>
        let (slots, s) := allocStrip s g
        updGang s c.ctx d c.dport fun g => { g with ahead := g.ahead ++ [slots] }
    else s

/-- STAGE_BLOCK_GRANT (R329). -/
def blockGrant (s : State) (launch src dst : Nat) : State :=
  let k := (launch, src, dst)
  if !grants s k then s
  else
    let q := stageQueue s k
    match q.announced with
    | [] => s
    | b :: rest =>
      let s := grantSlots s k b.length
      let s := setStageQueue s { q with announced := rest, granted := q.granted ++ [b] }
      receiverRec s k 1 b.length (q.seq - q.announced.length)

/-- The message of a block on a scale-out port: its 16-byte header, then the data (R428). -/
def wireBlock (s : State) (port seq : Nat) (b : List Byte) : List Byte :=
  match queueCommand s 1 (0, 0, port) with
  | some (d, e) =>
    let l := Tab.get Launch.blank s.launches (s.cmd d e).launch
    leBytes 8 l.tag.toNat ++ leBytes 4 (seq % 2 ^ 32) ++ leBytes 2 b.length ++ leBytes 2 l.self ++ b
  | none => b

/-- STAGE_BLOCK_PULL (R329): the oldest granted block arrives; on a scale-out port it leaves as a message. -/
def blockPull (s : State) (launch src dst : Nat) : State :=
  let k := (launch, src, dst)
  let q := stageQueue s k
  match q.granted with
  | [] => s
  | b :: rest =>
    let seq := q.seq - q.announced.length - q.granted.length
    let bytes := if 80 ≤ dst then wireBlock s dst seq b else b
    let s := receiverRec s k 2 b.length seq
    setStageQueue s { q with granted := rest, arrived := q.arrived ++ bytes }

/-! User interrupts (R330, R331). -/

/-- UICAUSE of a record (R330). -/
def Completion.cause (x : Completion) : Word :=
  BitVec.ofNat 64 ((x.handle.extractLsb' 62 2).toNat * 2 ^ 62 + (x.handle.extractLsb' 0 8).toNat * 2 ^ 40 + x.status * 2 ^ 32 + x.tag.toNat)

/-- Whether a strand takes a completion interrupt now: at user level (DEDUCED, log entry 24), at an instruction boundary, Ready or parked
on EWAIT or EPOP; a pending cause 20 comes first (R370). -/
def takesInterrupt (t : Strand) : Bool :=
  (match t.run with
    | .ready => true
    | .parked (.ewait _ _ _) => true
    | .parked (.epop _) => true
    | _ => false)
    && t.part.fresh && t.atPlace.isNone && !t.firmware && t.uistat.getLsbD 0 && !t.uistat.getLsbD 1 && !t.completions.isEmpty && t.uivec != 0
    && (t.async20.isNone || t.trapStat.getLsbD 0)

/-- USER_INTERRUPT_ENTRY (R331). -/
def interruptEntry (s : State) (u : Nat) : State :=
  let t := s.strand u
  match t.completions with
  | [] => s
  | x :: rest =>
    if !takesInterrupt t then s
    else
      let s := (wake s u).updStrand u fun t =>
        { t.swapBank with
          uipc := t.pc
          uicause := x.cause
          completions := rest
          uistat := t.uistat ||| 2
          waitGen := 0
          pc := t.uivec }
      selfInvalidate s (s.strand u).core 2

/-- UIRET (R331). -/
def uiretOp : M Flow := do
  let t ← me
  if !t.uistat.getLsbD 1 then return .seq
  else
    if t.uipc.toNat % 4 ≠ 0 then trap 5 0 t.uipc
    updMe fun t => { t.swapBank with uistat := t.uistat &&& ~~~(2 : Word) }
    return .jump t.uipc

/-- UIEN (R331). -/
def uienOp (d a : BitVec 6) : M Flow := do
  let v ← readReg a
  let t ← me
  updMe fun t => { t with uistat := (t.uistat &&& ~~~(1 : Word)) ||| (v &&& 1) }
  writeReg d (t.uistat &&& 1)
  return .seq

/-- ESTR (R318): Reads and validates a stream command and allocates a command-table entry. -/
def execEstr (d : BitVec 6) (a : BitVec 6) (st : State) : Out :=
  insn
    { word := fr 36#6 d a 0#6 0#5 0#2 0#1, ops := [.reg d, .reg a], bar := true, classes := 1, xfields := [d.toNat, a.toNat] }
    (estrOp d a) st

/-- EPUSH (R321): Pushes a value into a command's input FIFO with release. -/
def execEpush (a : BitVec 6) (b : BitVec 6) (st : State) : Out :=
  insn { word := fr 36#6 0#6 a b 1#5 0#2 0#1, ops := [.reg a, .reg b], bar := true } (epushOp a b) st

/-- EPOP (R321): Pops the oldest element of a command's output FIFO with acquire. -/
def execEpop (d : BitVec 6) (a : BitVec 6) (st : State) : Out :=
  insn { word := fr 36#6 d a 0#6 2#5 0#2 0#1, ops := [.reg d, .reg a], bar := true } (epopOp d a) st

/-- EWM (R323): Returns a channel's watermark. -/
def execEwm (d : BitVec 6) (a : BitVec 6) (st : State) : Out :=
  insn { word := fr 36#6 d a 0#6 3#5 0#2 0#1, ops := [.reg d, .reg a] } (ewmOp d a) st

/-- EWAIT (R323): Waits until a channel's watermark covers a byte count. -/
def execEwait (a : BitVec 6) (b : BitVec 6) (st : State) : Out :=
  insn { word := fr 36#6 0#6 a b 4#5 0#2 0#1, ops := [.reg a, .reg b] } (ewaitOp a b) st

/-- ECHAN (R323): Configures or unconfigures a channel. -/
def execEchan (d : BitVec 6) (a : BitVec 6) (b : BitVec 6) (st : State) : Out :=
  insn { word := fr 36#6 d a b 5#5 0#2 0#1, ops := [.reg d, .reg a, .reg b] } (echanOp d a b) st

/-- EGANG (R326): Joins the strand to a gang on a vector port. -/
def execEgang (d : BitVec 6) (a : BitVec 6) (b : BitVec 6) (st : State) : Out :=
  insn
    { word := fr 36#6 d a b 6#5 0#2 0#1, ops := [.reg d, .reg a, .reg b], classes := 6, xfields := [d.toNat, a.toNat, b.toNat] }
    (egangOp d a b) st

/-- ECANCEL (R320): Cancels a queued or running command. -/
def execEcancel (d : BitVec 6) (a : BitVec 6) (st : State) : Out :=
  insn { word := fr 36#6 d a 0#6 7#5 0#2 0#1, ops := [.reg d, .reg a] } (ecancelOp d a) st

/-- ESTAT (R319): Reports a command's state and rows completed. -/
def execEstat (d : BitVec 6) (a : BitVec 6) (st : State) : Out :=
  insn { word := fr 36#6 d a 0#6 8#5 0#2 0#1, ops := [.reg d, .reg a] } (estatOp d a) st

/-- UIEN (R331): Sets the user-interrupt enable and returns the old one. -/
def execUien (d : BitVec 6) (a : BitVec 6) (st : State) : Out :=
  insn { word := fr 36#6 d a 0#6 9#5 0#2 0#1, ops := [.reg d, .reg a] } (uienOp d a) st

/-- UIRET (R331): Returns from a user-interrupt or emulation handler. -/
def execUiret (st : State) : Out :=
  insn { word := fr 36#6 0#6 0#6 0#6 10#5 0#2 0#1 } (uiretOp) st

/-- COMMAND_START (R311): A queued engine command starts when an engine and its ports are free. -/
def execCommandStart (die entry : Nat) (s0 : State) : Out :=
  .next (commandStart s0 die entry)

/-- ENGINE_ELEMENT (R315): An engine reads and writes or folds one element of a command. -/
def execEngineElement (die entry : Nat) (s0 : State) : Out :=
  .next (engineElement s0 die entry)

/-- ROW_COMPLETE (R321): A completed dimension-0 row enters the output FIFO. -/
def execRowComplete (die entry : Nat) (s0 : State) : Out :=
  .next (rowComplete s0 die entry)

/-- COMMAND_END (R315): A command becomes Done or Cancelled once nothing of it is in flight. -/
def execCommandEnd (die entry : Nat) (s0 : State) : Out :=
  .next (commandEnd s0 die entry)

/-- STAGE_BLOCK_ANNOUNCE (R329): A sender announces a stage-queue block. -/
def execStageBlockAnnounce (launch src dst : Nat) (s0 : State) : Out :=
  .next (blockAnnounce s0 launch src dst)

/-- STAGE_BLOCK_GRANT (R329): A receiver grants space for an announced block. -/
def execStageBlockGrant (launch src dst : Nat) (s0 : State) : Out :=
  .next (blockGrant s0 launch src dst)

/-- STAGE_BLOCK_PULL (R329): Block data arrives in granted space. -/
def execStageBlockPull (launch src dst : Nat) (s0 : State) : Out :=
  .next (blockPull s0 launch src dst)

/-- GANG_STRIP_GRANT (R327): An engine grants a strip to every gang member and allocates their slots. -/
def execGangStripGrant (ctx die port : Nat) (s0 : State) : Out :=
  .next (gangStripGrant s0 ctx die port)

/-- USER_INTERRUPT_ENTRY (R331): A pending completion record vectors the strand to UIVEC. -/
def execUserInterruptEntry (u : Nat) (s0 : State) : Out :=
  .next (interruptEntry s0 u)

end Sys2Proof.Machine
end

