-- ==== Sys2Proof/Machine/Shoot.lean ====
section
/-! DEFINITION. Shootdowns (R215, R216) and the coherence events of the homes (R236-R248). -/

namespace Sys2Proof.Machine

/-! Shootdowns. -/

/-- The agents that take part in a shootdown: every core, whose windows and tile fetch unit use the core's identifier, the
shared translation caches and the copy engines (R215, R234); a fenced one counts as having answered (R249)
(DEDUCED, log entry 77). -/
def shootAgents (s : State) : List Nat :=
  ((List.range (4 * coresPerDie s.module.blend)).filter fun c => !(s.core c).fenced) ++
    ((List.range 4).filter fun d => !(s.die d).fenced).flatMap fun d => agentDie d :: (List.range 16).map (agentUnit d)

/-- Whether a shootdown removes the translations of an address of a context. -/
def Shootdown.covers (x : Shootdown) (ctx : Nat) (va : Word) : Bool :=
  x.global || (x.ctx = ctx && (x.all || x.va.toNat / 65536 = va.toNat / 65536))

/-- Whether a shootdown removes a translation that an access of a context at an address may have used: one of a 512 MiB leaf
goes with any parcel of its page (R214, R215). -/
def Shootdown.reaches (x : Shootdown) (ctx : Nat) (va : Word) (wide : Bool) : Bool :=
  x.covers ctx va || (wide && x.ctx = ctx && vpnOf x.va 2 = vpnOf va 2)

/-- Whether a shootdown removes a cached translation. Naing's own go only with GLOBAL. -/
def Shootdown.removes (x : Shootdown) (e : TlbEntry) : Bool :=
  x.global || (!e.firmware && x.ctx = e.ctx && (x.all || vpnOf x.va e.level = e.vpn))

/-- Start a shootdown at the engine of a base die: its sequence number and the state. The shared translation caches give up
their matching translations at once, so that no agent that has acknowledged can take a removed one from them again (R216)
(DEDUCED, log entry 63). -/
def startShootdown (s : State) (die : Nat) (all global : Bool) (ctx : Nat) (va : Word) : Nat × State :=
  let n := (s.die die).shootSeq
  let x : Shootdown := ⟨n, all, global, ctx, va, shootAgents s⟩
  let s := (List.range 4).foldl (init := s) fun s d => s.updDie d fun k => { k with tlb := k.tlb.filter fun e => !x.removes e }
  (n, s.updDie die fun d => { d with shootSeq := (n + 1) % 2 ^ 32, shoots := d.shoots ++ [x] })

/-- Whether a core has accesses in flight that the acknowledgement of a shootdown waits for (R205, R215). What leaf an access
on its way used is not told, so that every access of the 512 MiB page counts. -/
def shootWaits (s : State) (x : Shootdown) (core : Nat) : Bool :=
  s.agenda.any fun e => match e with
    | .tfetchSlotFill u _ _ _ _ _ _ _ => (s.strand u).core = core
    | .elementTrain u _ _ _ elems =>
      (s.strand u).core = core && elems.any fun y => x.reaches (s.strand u).ctx (s.globalVa u y.va) true
    | .boothFill slice entry =>
      let b := Tab.get Booth.blank (s.die (slice / 32)).booths (slice % 32 * 2048 + entry)
      !b.arrived && (s.strand b.issuer).core = core && x.reaches b.ctx b.va true
    | _ => false

/-- The window lines of a strand that a shootdown covers are written back, and their valid bits cleared (R263). -/
def shootWindows (s : State) (x : Shootdown) (u : Nat) : State :=
  (s.strand u).windows.foldl (init := s) fun s w =>
    w.2.phys.foldl (init := s) fun s jp =>
      if x.reaches (s.strand u).ctx (w.2.base + BitVec.ofNat 64 (128 * jp.1)) (Tab.get false w.2.wide jp.1) then
        let s := writeBackWindow s u w.1 jp.1 true
        s.updStrand u fun t => t.updWindow w.1 fun w => w.setLine jp.1 0 0
      else s

/-- Kept storage that covers a parcel of the shootdown is released (R271). -/
def shootKept (x : Shootdown) (k : Kept) : Bool :=
  x.global || (x.ctx = k.ctx && (x.all ||
    (decide (k.win.base.toNat / 65536 ≤ x.va.toNat / 65536)
      && decide (x.va.toNat / 65536 ≤ (k.win.base.toNat + 128 * k.win.size - 1) / 65536)) ||
    k.win.wide.any fun j => x.reaches k.ctx (k.win.base + BitVec.ofNat 64 (128 * j.1)) j.2))

/-- The shootdown numbered seq of a base die, if agent has to acknowledge it next: the earlier ones of the engine come
first. -/
def nextShootdown (s : State) (die seq agent : Nat) : Option Shootdown :=
  match (s.die die).shoots.find? fun x => x.pending.contains agent with
  | some x => if x.seq = seq then some x else none
  | none => none

/-- Whether an agent may acknowledge a shootdown now. -/
def mayAcknowledge (s : State) (die seq agent : Nat) : Bool :=
  match nextShootdown s die seq agent with
  | some x => !(decide (agent < 0x4000) && shootWaits s x agent)
  | none => false

/-- SHOOTDOWN_REQUEST (R215): an agent removes the translations and acknowledges. -/
def shootdownRequest (s : State) (die seq agent : Nat) : State :=
  match nextShootdown s die seq agent with
  | none => s
  | some x =>
    if decide (agent < 0x4000) && shootWaits s x agent then s
    else
      let s :=
        if agent < 0x4000 then
          let s := (s.residents agent).foldl (init := s) fun s u => shootWindows s x u
          s.updCore agent fun c => { c with
            tlb := c.tlb.filter fun e => !x.removes e
            kept := c.kept.filter fun k => !shootKept x k }
        else if agent < 0x8000 then
          s.updDie (agent - 0x4000) fun d => { d with tlb := d.tlb.filter fun e => !x.removes e }
        else s
      s.updDie die fun d => { d with shoots := d.shoots.map fun y =>
        if y.seq = seq then { y with pending := y.pending.filter (· != agent) } else y }

/-- Whether a shootdown of a base die is still under way. -/
def shooting (s : State) (die seq : Nat) : Bool := (s.die die).shoots.any fun x => x.seq = seq

/-- The counted parcels that a shootdown covers and whose address maps another frame now, or none: they are counted no more (R217). -/
def uncountGone (s : State) (x : Shootdown) : State :=
  ((s.parcels.filter fun p => p.2.counted && !p.2.migrating && x.covers p.2.ctx p.2.va && (s.leafOfFrame p.1).isNone).map Prod.fst).foldl (init := s)
    uncount

/-- SHOOTDOWN_COMPLETE (R215): every acknowledgement has arrived. -/
def shootdownComplete (s : State) (die seq : Nat) : State :=
  let done := (s.die die).shoots.filter fun x => x.seq = seq && x.pending.isEmpty
  done.foldl (init := s.updDie die fun d => { d with shoots := d.shoots.filter fun x => !(x.seq = seq && x.pending.isEmpty) }) uncountGone

/-! The homes (R243-R248). The instructions of the strands perform these transactions as part of themselves; the events are
those of other agents, and evictions. -/

/-- A home serves a numbered request of an agent for a line and touches its memory (R217, R235). -/
def homeServes (s : State) (agent line : Nat) : State :=
  let f := line / 512
  let counts := match s.leafOfFrame f with
    | some l => l.counterEnable
    | none => false
  nextRequest (touchLine s (line * 128) (s.parcel f).ctx (s.parcel f).va counts) agent

/-- A die takes a guest copy of a line, and its last-level cache keeps to its room (R19, R244). -/
def placeGuest (s : State) (die line : Nat) (c : Copy) : State := fitSlice (s.setGuest die line c) die line

/-- HOME_READ (R243): an agent reads a tracked line and holds a clean copy. -/
def homeReadEvent (s : State) (agent line : Nat) : State :=
  if (s.line line).code = 3 then s
  else if agent < 0x4000 then
    let s := fitGuest (coreRead (homeServes s (requester s agent line) line) agent line) agent line
    if windowed s agent line ∨ (s.copyIn agent line).isSome then s
    else placeCopy s agent line ⟨coreView s agent line, 0, s.time, true, false, []⟩
  else
    let s := serveRead (homeServes s agent line) agent line
    let c : Copy := ⟨coherentLine s line, 0, s.time, true, false, []⟩
    if agent < 0x8000 then (if (s.guestIn (agent - 0x4000) line).isSome then s else placeGuest s (agent - 0x4000) line c)
    else if agent < 0xC000 then { s with hostCopies := Tab.set Copy.none s.hostCopies line c }
    else s

/-- HOME_OWN (R243): an agent owns a tracked line. -/
def homeOwnEvent (s : State) (agent line : Nat) : State :=
  if (s.line line).code = 3 then s
  else if agent < 0x4000 then
    let s := fitGuest (coreOwn (homeServes s (requester s agent line) line) agent line) agent line
    if windowed s agent line then s
    else match s.copyIn agent line with
      | some c => s.setCopy agent line { c with owned := true }
      | none => placeCopy s agent line ⟨coreView s agent line, 0, s.time, true, true, []⟩
  else
    let d := coherentLine s line
    let s := serveOwn (homeServes s agent line) agent line
    let c : Copy := ⟨d, 0, s.time, true, true, []⟩
    if agent < 0x8000 then
      (match s.guestIn (agent - 0x4000) line with
      | some g => s.setGuest (agent - 0x4000) line { g with owned := true }
      | none => placeGuest s (agent - 0x4000) line c)
    else if agent < 0xC000 then { s with hostCopies := Tab.set Copy.none s.hostCopies line c }
    else s

/-- The host evicts a line that it owns: its words are merged (R245, R247). -/
def hostWriteBack (s : State) (agent line : Nat) : State :=
  let c := Tab.get Copy.none s.hostCopies line
  if c.owned ∧ sharerBit agent = agentHost 0 then
    nextRequest (serveWriteBack { s with hostCopies := Tab.set Copy.none s.hostCopies line Copy.none } agent line c.data c.dirty) agent
  else s

/-- HOME_WRITE_BACK (R243, R247): a write-back in flight arrives and its words are merged; one of the host's is made here. -/
def homeWriteBack (s : State) (agent line seq : Nat) : State :=
  match s.writeBacks.find? fun w => w.agent = agent && w.line = line && w.seq = seq with
  | none => hostWriteBack s agent line
  | some w => serveWriteBack { s with writeBacks := s.writeBacks.filter (· != w) } agent line w.data w.dirty

/-- Whether an agent holds a clean copy of a line in a cache, which it may drop: a core keeps a pinned one (R206). -/
def holdsClean (s : State) (agent line : Nat) : Bool :=
  let clean := fun (c : Option Copy) => match c with
    | some c => c.dirty = 0 && !c.owned
    | none => false
  if agent < 0x4000 then clean (s.copyIn agent line) && !(s.pinned agent line)
  else if agent < 0x8000 then clean (s.guestIn (agent - 0x4000) line) && (match s.guestIn (agent - 0x4000) line with
    | some g => g.sharers.isEmpty
    | none => false)
  else clean (if Tab.get Copy.none s.hostCopies line = Copy.none then none else some (Tab.get Copy.none s.hostCopies line))

/-- CLEAN_COPY_DROP (R243): an agent drops a clean copy; the home of a tracked line on the agent's own die clears its bit
when no window of the core holds the line. -/
def cleanCopyDrop (s : State) (agent line : Nat) : State :=
  if !holdsClean s agent line then s
  else if agent < 0x4000 then
    evictCopy s agent line
  else if agent < 0x8000 then serveDrop (s.setGuest (agent - 0x4000) line Copy.none) agent line
  else serveDrop { s with hostCopies := Tab.set Copy.none s.hostCopies line Copy.none } agent line

/-- INVALIDATING_SNOOP (R243): an agent loses its copies and returns its dirty words, or answers that it has no copy. -/
def invalidatingSnoop (s : State) (agent line : Nat) : State :=
  let s := takeBack s agent line true
  s.updLine line fun k =>
    if k.code = 3 then k
    else
      let r := k.sharers.filter (· != agent)
      { k with code := if r.isEmpty then 0 else k.code, sharers := r }

/-- FORWARDED_READ (R243): an owner sends its dirty words to the home and keeps a clean copy. -/
def forwardedRead (s : State) (agent line : Nat) : State :=
  let l := s.line line
  if l.code = 2 ∧ l.sharers = [agent] then (takeBack s agent line false).updLine line fun k => { k with code := 1 }
  else s

/-- GONE_RESPONSE (R248): the owner has evicted the line, and the home takes the write-back that the answer names: the read that
asked for it is served from what it leaves (serveRead, takeBack). -/
def goneResponse (s : State) (agent line seq : Nat) : State := homeWriteBack s agent line seq

/-! The events. -/

/-- SHOOTDOWN_REQUEST (R215): An agent removes translations and acknowledges a shootdown sequence. -/
def execShootdownRequest (die seq agent : Nat) (s0 : State) : Out :=
  .next (shootdownRequest s0 die seq agent)

/-- SHOOTDOWN_COMPLETE (R215): All acknowledgements of a shootdown arrive. -/
def execShootdownComplete (die seq : Nat) (s0 : State) : Out :=
  .next (shootdownComplete s0 die seq)

/-- HOME_READ (R243): A home slice serves a read request for a tracked line. -/
def execHomeRead (agent line : Nat) (s0 : State) : Out :=
  .next (homeReadEvent s0 agent line)

/-- HOME_OWN (R243): A home slice serves an Own request, invalidating sharers. -/
def execHomeOwn (agent line : Nat) (s0 : State) : Out :=
  .next (homeOwnEvent s0 agent line)

/-- HOME_WRITE_BACK (R243): A home merges the dirty words of a write-back. -/
def execHomeWriteBack (agent line seq : Nat) (s0 : State) : Out :=
  .next (homeWriteBack s0 agent line seq)

/-- CLEAN_COPY_DROP (R243): A home clears a sharer bit on a drop. -/
def execCleanCopyDrop (agent line : Nat) (s0 : State) : Out :=
  .next (cleanCopyDrop s0 agent line)

/-- INVALIDATING_SNOOP (R243): An agent receives an invalidating snoop and returns dirty words or no copy. -/
def execInvalidatingSnoop (agent line : Nat) (s0 : State) : Out :=
  .next (invalidatingSnoop s0 agent line)

/-- FORWARDED_READ (R243): An owner receives a forwarded read and downgrades its copy. -/
def execForwardedRead (agent line : Nat) (s0 : State) : Out :=
  .next (forwardedRead s0 agent line)

/-- GONE_RESPONSE (R248): A home receives gone and waits for the matching write-back. -/
def execGoneResponse (agent line seq : Nat) (s0 : State) : Out :=
  .next (goneResponse s0 agent line seq)

/-- LLC_EVICTION (R238): A line leaves the last-level cache after every copy is recalled. -/
def execLlcEviction (line : Nat) (s0 : State) : Out :=
  .next (evictLine s0 line)

/-- GUEST_COPY_EVICTION (R244): A remote die evicts a guest copy, recalling local copies. -/
def execGuestCopyEviction (die line : Nat) (s0 : State) : Out :=
  .next (evictGuest s0 die line)

end Sys2Proof.Machine
end

