-- ==== Sys2Proof/Machine/Pcl.lean ====
section
/-! DEFINITION. The PCL instructions (R229-R231) and the migration of parcels (R219-R221, R226, R227). -/

namespace Sys2Proof.Machine

/-! Parcels as the instructions see them. -/

/-- The leaf of an address for the executing strand, if it is mapped (R231). -/
def parcelLeaf (s : State) (va : Word) : Option Leaf :=
  if (apertureOffset va).isSome then none
  else match walk s s.me.firmware s.me.ctx va with
    | .ok l => some l
    | .error _ => none

/-- The walk by which the executing strand finds the parcel of an address has been counted (R21, R235). -/
def parcelWalk (s : State) (va : Word) : State :=
  match parcelLeaf s va with
  | some l => countWalk s (dieOf s s.me.core) l.level
  | none => s

/-- The status word of PQRY (R230). -/
def parcelStatus (s : State) (va : Word) : Word :=
  match parcelLeaf s va with
  | none => 0
  | some l =>
    let p := s.parcel l.frame
    let bit := fun (b : Bool) (n : Nat) => if b then 2 ^ n else 0
    BitVec.ofNat 64 ((if p.counted && l.counterEnable then p.count else 0) * 2 ^ 48 + p.log.length * 2 ^ 32 + 2 ^ 15
      + bit p.migrating 14 + bit l.writeBlock 13 + bit l.logEnable 12 + bit l.counterEnable 11 + bit l.keepResident 10
      + bit l.tracePin 9 + bit l.savePin 8 + l.tier * 2 ^ 6 + l.cls * 2 ^ 4 + bit p.merge 3)

/-- The free frame that an engine uses for a migration to a tier (DESIGN CHOICE, log entry 27): a forced fetch takes it from the reserve; another
migration to tier 0 uses the reserve when no frame has come back. -/
def freeFrame (d : Die) (tier : Nat) (forced : Bool) : Option Nat :=
  let pool := Tab.get [] d.frames tier
  if forced then d.reserve.head? else if pool.isEmpty && tier = 0 then d.reserve.head? else pool.head?

/-- A base die without a frame that has been used. -/
def Die.useFrame (d : Die) (tier frame : Nat) : Die :=
  { d with
    reserve := d.reserve.filter (· != frame)
    frames := Tab.set [] d.frames tier ((Tab.get [] d.frames tier).filter (· != frame)) }

/-- Whether a migration is refused (R221). -/
def refuses (s : State) (l : Leaf) (tier : Nat) : Bool :=
  l.tracePin || (l.savePin && tier != 0) || (l.keepResident && tier != 0) || l.level = 2 || (l.logEnable && tier = 2)
    || decide (3 ≤ tier) || (freeFrame (s.die (homeDie l.pa)) tier false).isNone

/-- Request a migration of the parcel of a leaf to a tier (R219, R231): 2 already there, 0 refused, 1 accepted. -/
def requestMigration (s : State) (l : Leaf) (ctx : Nat) (va : Word) (tier : Nat) (firmware : Bool := false) : Nat × State :=
  let die := homeDie l.pa
  if l.tier = tier then (2, s)
  else if (s.parcel l.frame).migrating || refuses s l tier || decide (64 ≤ ((s.die die).migrations.filter fun m => m.phase = 0).length) then (0, s)
  else
    let s := s.updParcel l.frame fun p => { p with migrating := true }
    (1, s.updDie die fun d => { d with migrations := d.migrations ++ [⟨ctx, va, l.frame, tier, 0, 0, 0, false, firmware⟩] })

/-- PFETCH, and PMIGR to a tier that x[b] names as a natural number (R231). -/
def requestOp (d a : BitVec 6) (tier : Nat) : M Flow := do
  let va ← readReg a
  let s ← get
  match parcelLeaf s va with
  | none => writeReg d 3
  | some l =>
    let (r, s) := requestMigration (parcelWalk s va) l s.me.ctx va tier s.me.firmware
    set s
    writeReg d (BitVec.ofNat 64 r)
  return .seq

/-- The trap of a strand that is not the context's policy strand (R213, R218). -/
def delegated (word : InstrWord) : M Unit := do
  let s ← get
  if (s.context s.me.ctx).policy ≠ some s.cur then trap 7 4 (word.setWidth 64)

/-- PHINT (R231). -/
def phintOp (a c : BitVec 6) : M Flow := do
  let va ← readReg a
  let s ← get
  set (parcelWalk s va)
  match parcelLeaf s va with
  | none => pure ()
  | some l =>
    if c = 1 && (s.parcel l.frame).counted && l.counterEnable then
      modify fun s => s.updParcel l.frame fun p => { p with count := 0, notified := false }
  return .seq

/-- PLOGQ (R231). -/
def plogqOp (d a : BitVec 6) : M Flow := do
  let va ← readReg a
  let s ← get
  set (parcelWalk s va)
  writeReg d (match parcelLeaf s va with
    | none => 0
    | some l => BitVec.ofNat 64 (s.parcel l.frame).log.length)
  return .seq

/-- PNQPOP (R218, R231): the ring is read and its HEAD advanced in Naing's tables. Where the control block or the ring does not translate or
cannot be read, it writes 0 as for an empty queue (DESIGN CHOICE, log entry 123). -/
def pnqpopOp (word : InstrWord) (d : BitVec 6) : M Flow := do
  delegated word
  vecReady d.toNat
  let s ← get
  let c := s.context s.me.ctx
  match naingCount s c.ringCb, naingCount s (c.ringCb + 8) with
  | some t, some h =>
    if t = h then updMe fun x => x.setVec d.toNat 0 256
    else match walk s true 0 (c.ringBase + BitVec.ofNat 64 (32 * (h % 4096))), naingStore s (c.ringCb + 8) (leBytes 8 (h + 1)) with
      | .ok l, some s' =>
        if poisonedAt s l 32 then updMe fun x => x.setVec d.toNat 0 256
        else
          set s'
          updMe fun x => x.setVec d.toNat (leWord 2048 (decrypted s l (coherentBytes s l.pa 32))) 256
      | _, _ => updMe fun x => x.setVec d.toNat 0 256
  | _, _ => updMe fun x => x.setVec d.toNat 0 256
  return .seq

/-- The entry of a leaf written by the device, as a request of the migration engine of the parcel's die (R219, R231, R235). -/
def writeEntry (s : State) (l : Leaf) (f : Word → Word) : State :=
  homeStore (nextRequest s (agentUnit (homeDie l.pa) 16)) l.entry (leBytes 8 (f (leWord 64 (coherentBytes s l.entry 8))).toNat)

/-- An entry with one bit set or cleared. -/
def entryBit (n : Nat) (on : Bool) (e : Word) : Word :=
  if on then e ||| BitVec.ofNat 64 (2 ^ n) else e &&& ~~~(BitVec.ofNat 64 (2 ^ n))

/-- PKEEP (R231): it parks until its shootdown completes, which writes 1 to x[d]. -/
def pkeepOp (word : InstrWord) (d a b : BitVec 6) : M Flow := do
  delegated word
  let va ← readReg a
  let on := (← readReg b).getLsbD 0
  let s ← get
  match parcelLeaf s va with
  | none =>
    writeReg d 3
    return .seq
  | some l =>
    let c := s.context s.me.ctx
    let s := parcelWalk s va
    if on && !l.keepResident && decide (c.keepQuota ≤ c.keepUsed) then
      set s
      writeReg d 0
      return .seq
    else
      let used := if on == l.keepResident then c.keepUsed else if on then c.keepUsed + 1 else c.keepUsed - 1
      let s := s.updContext s.me.ctx fun c => { c with keepUsed := used }
      let s := writeEntry s l (entryBit 10 on)
      let die := dieOf s s.me.core
      let (n, s) := startShootdown s die false s.me.firmware s.me.ctx va
      set s
      throw (.parkAt (.shootdown die n d.toNat 1))

/-! The migration engine (R219). -/

/-- The leaf that a queued migration finds, if its frame still stands there and R221 does not refuse it now. -/
def migrationLeaf (s : State) (m : Migration) : Option Leaf :=
  match walk s m.firmware m.ctx m.va with
  | .error _ => none
  | .ok l =>
    let free := (freeFrame (s.die (homeDie l.pa)) m.target m.forced).isSome
    let pinned := l.tracePin || (l.savePin && m.target != 0) || (l.keepResident && m.target != 0) || l.level = 2
      || (l.logEnable && m.target = 2)
    if l.frame = m.frame && !pinned && (free || m.forced) then some l else none

/-- Whether a queued migration can start: a forced fetch waits for a frame of the reserve (R227). -/
def startable (d : Die) (m : Migration) : Bool :=
  m.phase = 0 && (!m.forced || !d.reserve.isEmpty)

/-- Running migrations of an engine. -/
def Die.running (d : Die) : Nat := (d.migrations.filter fun m => m.phase != 0).length

/-- PARCEL_MIGRATION_START (R219 step 1): the oldest queued migration that can start sets write-block, and its shootdown
begins; one that is refused now is abandoned with a notification of kind 3. -/
def parcelMigrationStart (s : State) (die : Nat) : State :=
  let d := s.die die
  if 4 ≤ d.running then s
  else match d.migrations.find? (startable d) with
    | none => s
    | some m =>
      let others := d.migrations.filter fun x => x.frame != m.frame
      match migrationLeaf s m, freeFrame d m.target m.forced with
      | some l, some g =>
        let s := s.updDie die fun d => d.useFrame m.target g
        let s := s.updParcel m.frame fun p => { p with blocked := true }
        let s := writeEntry s l (entryBit 7 true)
        let (n, s) := startShootdown s die false m.firmware m.ctx m.va
        s.updDie die fun d => { d with migrations := others ++ [{ m with dest := g, phase := 1, seq := n }] }
      | _, _ =>
        let s := s.updParcel m.frame fun p => { p with migrating := false }
        let s := s.updDie die fun d => { d with migrations := others }
        notify s m.ctx 3 m.va 0 (tierOf (m.frame * 65536)) die

/-- Copy the bytes, the poison and the keys of a frame to another (R219 step 2): the engine reads and writes each of the 512
lines (R234, R235). -/
def copyFrame (s : State) (f g : Nat) : State :=
  let s := countRequests s (agentUnit (homeDie (f * 65536)) 16) 1024
  let s := { s with mem := memStore s.mem (g * 65536) (memBytes s.mem (f * 65536) 65536) }
  (List.range 512).foldl (init := s) fun s i =>
    let l := s.line (f * 512 + i)
    s.updLine (g * 512 + i) fun _ => { Line.blank with code := if l.code = 3 then 3 else 0, key := l.key }

/-- Apply a log to a frame in append order (R226) (DEDUCED, log entry 66). -/
def applyLog (s : State) (g : Nat) (log : List LogEntry) : State :=
  log.foldl (init := s) fun s e =>
    let a := g * 65536 + e.offset
    let n := 2 ^ e.wd
    { s with mem := memStore s.mem a (leBytes n (combine e.op (8 * n) (leNat (memBytes s.mem a n)) e.value.toNat)) }

/-- The result of a returning operation that was performed at its home after waiting there, from the bytes it found (R220, R292,
R439): its strand completes it, wherever it is parked or carried, with the acquire of its order. -/
def deliverHeld (s : State) (e : LogEntry) (bs : List Byte) : State :=
  match e.ret with
  | none => s
  | some r =>
    let u := e.issuer
    let t := s.strand u
    let waits := fun (x : Run) => match x with
      | .parked (.held _) => true
      | _ => false
    if !(waits t.run) && !(waits t.resumeAs && t.run.away) then s
    else
      let v := if e.op = barvCode then BitVec.ofNat 64 (Barrier.ofBytes bs).phase
        else atomicResult (e.op - atomicCode) (8 * e.size) (leNat bs)
      let s := match r.slot with
        | some (q, slot, gen) => match (s.queue u q).place slot gen with
          | some i => s.updQueue u q fun k => k.updSlot i fun _ =>
            ⟨true, false, if k.kind = 4 then (if v = 0 then 0 else 1) else v.setWidth 2048, []⟩
          | none => s
        | none => s.updStrand u fun t => t.setReg r.d v
      let s := match r.acquire with
        | some scope => selfInvalidate s t.core scope
        | none => s
      let s := s.updStrand u fun t => t.setPc (t.pc + 4)
      let s := if t.firmware then s else countIssued s u 7
      if waits t.run then wake s u else s.updStrand u fun t => { t with resumeAs := .ready }

/-- The operations held for a parcel are performed at its new frame in their order (R219, R220). -/
def performAll (s : State) (g : Nat) (held : List LogEntry) (log : Bool) (ctx : Nat) (va : Word) : State :=
  let s' := held.foldl (init := s) fun s e =>
    let r := performHeld { s with cur := e.issuer } g e log ctx (BitVec.ofNat 64 (va.toNat / 65536 * 65536 + e.offset))
    match r.1 with
    | some bs => deliverHeld r.2 e bs
    | none => r.2
  { s' with cur := s.cur }

/-- Steps 2 to 4 of R219: dirty copies are recalled, the frame is copied, the log is applied on arrival in tier 0, and the new
entry is published with write-block clear. A log-enabled parcel that arrives in tier 0 has the operations that wait there
performed after its log, and writes from now on are plain (R222, R226, R227). Otherwise the operations held so far, and those
that still come, are held at the new frame. -/
def publishFrame (s : State) (die : Nat) (m : Migration) : State :=
  let f := m.frame
  let g := m.dest
  let s := (s.lines.filter fun x => x.1 / 512 = f && (x.2.code = 1 || x.2.code = 2)).foldl (init := s) fun s x => recallAll s x.1
  let s := copyFrame s f g
  let p := s.parcel f
  let home := homeDie (f * 65536)
  let there := homeDie (g * 65536)
  let direct := match walk s m.firmware m.ctx m.va with
    | .ok l => m.target = 0 && l.logEnable && l.cls = 2
    | .error _ => false
  let s := if m.target = 0 then applyLog s g p.log else s
  let log := if m.target = 0 then [] else p.log
  let s := s.updDie home fun d => { d with logUse := d.logUse - p.log.length }
  let s := s.updDie there fun d => { d with logUse := d.logUse + log.length }
  let s := s.updParcel g fun _ => { Parcel.blank with
    merge := p.merge, log := log, held := if direct then [] else p.held, blocked := !direct, migrating := true, ctx := m.ctx, va := m.va }
  let s := s.updParcel f fun p => { p with log := [], held := [], moved := some g }
  let s := match walk s m.firmware m.ctx m.va with
    | .error _ => s
    | .ok l => writeEntry s l fun e =>
      (e &&& ~~~(0x000FFFFFFFFF00E0 : Word)) ||| BitVec.ofNat 64 (g * 65536 + tierOf (g * 65536) * 32)
  let s := if direct then performAll s g p.held true m.ctx m.va else s
  let (n, s) := startShootdown s die false m.firmware m.ctx m.va
  s.updDie die fun d => { d with migrations := d.migrations.map fun x => if x.frame = f then { x with phase := 2, seq := n } else x }

/-- Step 5 of R219: the held operations are performed at the new frame, the old frame returns to Naing, and the notification is
made. An operation that a log could not take begins a forced fetch if the parcel is not in tier 0 (R227). -/
def finishMigration (s : State) (die : Nat) (m : Migration) : State :=
  let g := m.dest
  let held := (s.parcel g).held
  let log := match walk s m.firmware m.ctx m.va with
    | .ok l => l.logEnable
    | .error _ => false
  let s := s.updParcel g fun p => { p with held := [], blocked := false, migrating := false, count := 0, notified := false }
  let s := leaveCounter s m.frame
  let s := s.updParcel m.frame fun _ => Parcel.blank
  let s := s.updDie die fun d => { d with
    migrations := d.migrations.filter fun x => x.frame != m.frame
    frames := Tab.set [] d.frames (tierOf (m.frame * 65536)) (Tab.get [] d.frames (tierOf (m.frame * 65536)) ++ [m.frame]) }
  let s := performAll s g held log m.ctx m.va
  notify s m.ctx 2 m.va 0 (tierOf (g * 65536)) (homeDie (g * 65536))

/-- PARCEL_MIGRATION_COMPLETE (R219): what follows the end of a migration's first or second shootdown. -/
def parcelMigrationComplete (s : State) (die frame : Nat) : State :=
  match (s.die die).migrations.find? fun m => m.frame = frame && m.phase != 0 with
  | none => s
  | some m =>
    if shooting s die m.seq then s
    else if m.phase = 1 then publishFrame s die m
    else finishMigration s die m

/-- NAING_PARCEL_MIGRATION_REQUEST (R219): Naing's request, with a notification of kind 3 when it is refused. -/
def naingMigration (s : State) (ctx : Nat) (va : Word) (tier : Nat) : State :=
  match walk s false ctx va with
  | .error _ => s
  | .ok l =>
    let (r, s) := requestMigration s l ctx va tier
    if r = 0 then notify s ctx 3 va 0 l.tier (homeDie l.pa) else s

/-- RESERVE_FRAME_SUPPLY (R227): a tier-0 frame goes to the reserve, another to the free frames of its tier (DESIGN CHOICE, log entry 27). -/
def supplyFrame (s : State) (die frame : Nat) : State :=
  let tier := tierOf (frame * 65536)
  if !hasMemory s (frame * 65536) then s
  else s.updDie die fun d =>
    if tier = 0 then { d with reserve := d.reserve ++ [frame] }
    else { d with frames := Tab.set [] d.frames tier (Tab.get [] d.frames tier ++ [frame]) }

/-- COUNTER_TABLE_ENTRY_FREE (R217): that many counted tier-2 parcels of the die, the lowest frames first, are uncounted. -/
def freeCounters (s : State) (die count : Nat) : State :=
  let fs := ((s.parcels.filter fun p => p.2.counted && tierOf (p.1 * 65536) = 2 && homeDie (p.1 * 65536) = die).map Prod.fst).take count
  let s := fs.foldl (init := s) fun s f => s.updParcel f fun p => { p with counted := false, count := 0, notified := false }
  s.updDie die fun d => { d with counterUse := d.counterUse - fs.length }

/-- PENDING_LOG_APPEND (R222): a write of a naturally aligned operand to a logged parcel in tier 1 reaches its home. -/
def pendingAppend (s : State) (pa op wd : Nat) (v : Word) : State :=
  let p := s.parcel (pa / 65536)
  if tierOf pa = 1 ∧ op ≤ 10 ∧ wd ≤ 3 ∧ pa % 2 ^ wd = 0 then logAppend s pa op wd v p.ctx p.va else s

/-- PQRY (R230): Returns the state of the parcel holding an address. -/
def execPqry (d : BitVec 6) (a : BitVec 6) (st : State) : Out :=
  insn
    { word := fr 32#6 d a 0#6 0#5 0#2 0#1, ops := [.reg d, .reg a], bar := true }
    (do
      let va ← readReg a
      let s ← get
      set (parcelWalk s va)
      writeReg d (parcelStatus s va)
      return .seq) st

/-- PHINT (R231): Passes a reuse hint or resets a parcel's counter. -/
def execPhint (a : BitVec 6) (c : BitVec 6) (st : State) : Out :=
  insn { word := fr 32#6 0#6 a c 1#5 0#2 0#1, ops := [.reg a], bar := true } (phintOp a c) st

/-- PLOGQ (R231): Returns a parcel's pending log entry count. -/
def execPlogq (d : BitVec 6) (a : BitVec 6) (st : State) : Out :=
  insn { word := fr 32#6 d a 0#6 2#5 0#2 0#1, ops := [.reg d, .reg a], bar := true } (plogqOp d a) st

/-- PFETCH (R231): Requests migration of a parcel to tier 0. -/
def execPfetch (d : BitVec 6) (a : BitVec 6) (st : State) : Out :=
  insn { word := fr 32#6 d a 0#6 3#5 0#2 0#1, ops := [.reg d, .reg a], bar := true } (requestOp d a 0) st

/-- PMIGR (R231): Policy strand requests migration of a parcel to a tier. -/
def execPmigr (d : BitVec 6) (a : BitVec 6) (b : BitVec 6) (st : State) : Out :=
  insn
    { word := fr 32#6 d a b 4#5 0#2 0#1, ops := [.reg d, .reg a, .reg b], bar := true }
    (do
      delegated (fr 32#6 d a b 4#5 0#2 0#1)
      requestOp d a (← readReg b).toNat) st

/-- PNQPOP (R231): Policy strand removes the oldest notification into a vector. -/
def execPnqpop (d : BitVec 6) (st : State) : Out :=
  insn { word := fr 32#6 d 0#6 0#6 5#5 0#2 0#1, ops := [.reg d], bar := true } (pnqpopOp (fr 32#6 d 0#6 0#6 5#5 0#2 0#1) d) st

/-- PKEEP (R231): Policy strand sets or clears keep-resident on a parcel. -/
def execPkeep (d : BitVec 6) (a : BitVec 6) (b : BitVec 6) (st : State) : Out :=
  insn
    { word := fr 32#6 d a b 6#5 0#2 0#1, ops := [.reg d, .reg a, .reg b], bar := true }
    (pkeepOp (fr 32#6 d a b 6#5 0#2 0#1) d a b) st

/-- PARCEL_MIGRATION_START (R219): A migration engine starts a queued migration by setting write-block. -/
def execParcelMigrationStart (die : Nat) (s0 : State) : Out :=
  .next (parcelMigrationStart s0 die)

/-- PARCEL_MIGRATION_COMPLETE (R219): The copy ends, the new frame is published and held writes are performed. -/
def execParcelMigrationComplete (die parcel : Nat) (s0 : State) : Out :=
  .next (parcelMigrationComplete s0 die parcel)

/-- NAING_PARCEL_MIGRATION_REQUEST (R219): Naing requests a parcel migration, which enters the migration engine's queue. -/
def execNaingParcelMigrationRequest (ctx : Nat) (va : BitVec 64) (tier : Nat) (s0 : State) : Out :=
  .next (naingMigration s0 ctx va tier)

/-- RESERVE_FRAME_SUPPLY (R227): Naing supplies a tier-0 frame to a migration engine's reserve, starting a forced fetch that was waiting. -/
def execReserveFrameSupply (die frame : Nat) (s0 : State) : Out :=
  .next (supplyFrame s0 die frame)

/-- COUNTER_TABLE_ENTRY_FREE (R217): Naing frees entries of a full tier-2 counter table, so newly touched parcels are counted again and a later fill makes a new kind-6 notification. -/
def execCounterTableEntryFree (die count : Nat) (s0 : State) : Out :=
  .next (freeCounters s0 die count)

/-- PENDING_LOG_APPEND (R222): A write to a logged parcel in tier 1 is appended and compacted at the home. -/
def execPendingLogAppend (pa op wd : Nat) (value : BitVec 64) (s0 : State) : Out :=
  .next (pendingAppend s0 pa op wd value)

end Sys2Proof.Machine
end

