-- ==== Sys2Proof/Machine/Control.lean ====
section
/-! DEFINITION. The device's control operations that a register write starts: keys (R424), the dispatch port (R386, R387,
R422), the power cap (R429) and the replay mode (R418). -/

namespace Sys2Proof.Machine

/-! Keys (R423, R424). -/

/-- The key material in KEYDATA: the data key in the low half, the tweak key in the high half (R423). -/
def keyMaterial (m : Module) : BitVec 512 :=
  (List.range 8).foldl (init := 0) fun k i => k ||| ((Tab.get 0 m.keyData i).setWidth 512 <<< (64 * i))

/-- KEYCTL load: KEYDATA goes into slot KEYSEL, unless the data key equals the tweak key (R423, R424). -/
def loadKey (s : State) : State :=
  let k := keyMaterial s.module
  let n := s.module.keySel.toNat
  if k.extractLsb' 0 256 = k.extractLsb' 256 256 then s
  else s.updModule fun m =>
    { m with
      keys := Tab.set none m.keys n (some k)
      keyGens := Tab.set 0 m.keyGens n (Tab.get 0 m.keyGens n + 1) }

/-- KEYCTL erase: slot KEYSEL becomes empty (R424). -/
def eraseKey (s : State) : State :=
  s.updModule fun m => { m with keys := Tab.set none m.keys m.keySel.toNat none }

/-- Whether an access at an address uses a key slot, by its leaf (R211, R424). -/
def usesKey (k : Nat) (leaf : Word) (pa : Nat) : Bool := decide (tierOf pa < 2) && (leaf.extractLsb' 52 12).toNat = k

/-- Whether an access in flight uses a key slot: a reduction, an element train, a tile fetch or a ticketed read on its way, or an
operation held at its home, a write-back, or the fill of a window's line (R424). -/
def keyInFlight (s : State) (k : Nat) : Bool :=
  (s.agenda.any fun e => match e with
    | .reductionPerform r => (match walk s r.firmware r.ctx r.va with
      | .ok l => usesKey k l.bits l.pa
      | .error _ => false)
    | .elementTrain _ _ _ _ elems => elems.any fun e => usesKey k e.leaf e.pa
    | .tfetchSlotFill _ _ _ _ _ _ _ e => usesKey k e.leaf e.pa
    | .boothFill slice entry =>
      let b := Tab.get Booth.blank (s.die (slice / 32)).booths (slice % 32 * 2048 + entry)
      usesKey k b.leaf b.pa
    | .windowFill u i j =>
      let va := ((s.strand u).window i).base + BitVec.ofNat 64 (128 * j)
      (match walk s false (s.strand u).ctx va with
      | .ok l => usesKey k l.bits l.pa
      | .error _ => false)
    | _ => false)
  || (s.writeBacks.any fun w => (s.line w.line).key != 0 && ((s.line w.line).key - 1) / 2 ^ 32 = k)
  || s.parcels.any fun p => !p.2.held.isEmpty && (match s.leafOfFrame p.1 with
    | some l => usesKey k l.bits l.pa
    | none => false)

/-! Launch queue descriptors (R386, R387, R422). -/

/-- A descriptor as eight doublewords (R386). -/
def LaunchQueue.words (d : LaunchQueue) : Nat → Word
  | 0 => d.ring
  | 1 => d.cb
  | 2 => BitVec.ofNat 64 (d.log2n + d.tier * 2 ^ 8 + d.ctx * 2 ^ 16 + d.die * 2 ^ 32 + d.state * 2 ^ 40)
  | _ => 0

/-- Doubleword n that a commit takes: the one written since DCQSEL or the last commit, else the descriptor's
(DEDUCED, log entry 41). -/
def dcStaged (s : State) (n : Nat) : Word :=
  match Tab.get none s.module.dcWord n with
  | some w => w
  | none => (Tab.get LaunchQueue.blank s.queues s.module.dcqSel.toNat).words n

/-- The bits of doubleword n that belong to a field of the descriptor (R386). -/
def dcWordMask (n : Nat) : Word := if n < 2 then BitVec.allOnes 64 else if n = 2 then 0x0000FFFF0FFFFFFF else 0

/-- The doubleword that DCWORDn reads: its reserved bits read 0 (R5, R386). -/
def dcWordRead (s : State) (n : Nat) : Word := dcStaged s n &&& dcWordMask n

/-- A descriptor from eight doublewords, if every field is valid (R386). -/
def LaunchQueue.ofWords (w : Nat → Word) : Option LaunchQueue :=
  let b := fun lo n => ((w 2).extractLsb' lo n).toNat
  let d : LaunchQueue := ⟨w 0, w 1, b 0 8, b 8 8, b 16 12, b 32 8, b 40 8, none⟩
  if d.log2n < 4 ∨ 16 < d.log2n ∨ 7 < d.tier ∨ b 28 4 ≠ 0 ∨ 3 < d.die ∨ 1 < d.state ∨ b 48 16 ≠ 0
    ∨ (w 0).toNat % 64 ≠ 0 ∨ (w 1).toNat % 64 ≠ 0 ∨ (([3, 4, 5, 6, 7] : List Nat).any fun i => w i != 0) then none
  else some d

/-- A count of a context in its own memory, at system scope. -/
def ctxCount (s : State) (ctx n : Nat) (va : Word) : Except Trap Nat :=
  match walk s false ctx va with
  | .error t => .error t
  | .ok l => if !reachable s l.pa || keyEmpty s l then .error ⟨11, 0, va⟩ else .ok (leNat (decrypted s l (homeRead s l.pa n)))

/-- A store of a context that does nothing where it faults. -/
def ctxPut (s : State) (ctx : Nat) (va : Word) (bs : List Byte) : State :=
  match ctxStore s ctx va bs with
  | .ok s => s
  | .error _ => s

/-- Enabling a queue: HEAD = TAIL and the counts and the error are cleared (R387). -/
def enableQueue (s : State) (d : LaunchQueue) : State :=
  match ctxCount s d.ctx 8 d.cb with
  | .error _ => s
  | .ok t => ctxPut s d.ctx (d.cb + 8) (leBytes 8 t ++ leBytes 8 0 ++ leBytes 4 0 ++ leBytes 4 0)

/-- A write of DCWORD7 commits the selected descriptor; an invalid field leaves it and sets its STATE to 2 (R422). -/
def commitQueue (s : State) (v : Word) : State :=
  let q := s.module.dcqSel.toNat
  let w := fun i => if i = 7 then v else dcStaged s i
  let old := Tab.get LaunchQueue.blank s.queues q
  let s := s.updModule fun m => { m with dcWord := [] }
  match LaunchQueue.ofWords w with
  | none => { s with queues := Tab.set LaunchQueue.blank s.queues q { old with state := 2 } }
  | some d =>
    let s := { s with queues := Tab.set LaunchQueue.blank s.queues q { d with placing := old.placing } }
    if d.state = 1 then enableQueue s d else s

/-! Power and replay. -/

/-- A write of PWRCAP: bits 13 to 0, held between 1000 and 8000 (R429). -/
def setPowerCap (s : State) (v : Word) : State :=
  let n := (v.extractLsb' 0 14).toNat
  s.updModule fun m => { m with capSet := some s.clock, pwrCap := if n < 1000 then 1000 else if 8000 < n then 8000 else n }

/-- The power in W and the core-rail current in A that the module's load asks for (DESIGN CHOICE, log entry 5). -/
def powerLoad (s : State) : Nat := (Config.powerNow s.clock).toNat % 65536
def railLoad (s : State) : Nat := (Config.powerNow s.clock).toNat / 65536 % 65536

/-- The current that the core rails may carry: 11,000 A, or 16,000 A in a peak. A peak lasts no longer than 1 ms, and the next comes after
4 ms at the earliest: the first millisecond of every five may be one (R22; DESIGN CHOICE, log entry 5). -/
def railLimit (s : State) : Nat := if s.time % 5000000 < 1000000 then 16000 else 11000

/-- The module power that PWRNOW reports: never above 8000 W, nor above the cap once it has stood for 1 ms (R22, R429). Which value it has is
open (DESIGN CHOICE, log entry 5). -/
def powerWatts (s : State) : Nat :=
  min (powerLoad s) (if s.module.capSet.any fun t => decide (t + 56000000 ≤ s.clock) then min 8000 s.module.pwrCap else 8000)

/-- The core-rail current that PWRNOW reports: never above its limit (R22). -/
def railAmps (s : State) : Nat := min (railLoad s) (railLimit s)

/-- The part of the issue rate, in 64ths of the full rate, that a limit allows a load above it: never none (R23, R429). -/
def ratePart (limit load : Nat) : Nat := max 1 (64 * limit / load)

/-- The load would reach the cap, or the rails' limit would be passed. -/
def atCap (s : State) : Bool := decide (s.module.pwrCap ≤ powerLoad s)
def overRails (s : State) : Bool := decide (railLimit s < railLoad s)

/-- Whether, under a cap that Naing has set, the power controller has to lower the issue rate, or to report that the cap is reached
(R22, R23, R429). -/
def powerWanted (s : State) : Bool :=
  let m := s.module
  m.capSet.isSome &&
    ((atCap s && (!m.capReached || !m.evStat.getLsbD 4 || decide (ratePart m.pwrCap (powerLoad s) < m.throttle)))
      || (overRails s && decide (ratePart (railLimit s) (railLoad s) < m.throttle)))

/-- Whether it may lift its throttle: no limit is reached, and no junction is hot. -/
def powerEased (s : State) : Bool :=
  s.module.capSet.isSome && !atCap s && !overRails s && decide (s.module.tjMax ≤ 105) && decide (s.module.throttle < 64)

/-- A write of RPLMODE for the selected context: RPLSTAT is cleared, and a playback begins at the log's first entry (R404, R417, R418)
(DEDUCED, log entry 39). -/
def setReplayMode (s : State) (v : Word) : State :=
  s.updContext (s.module.trcSel.toNat % 4096) fun c =>
    { c with trace := { c.trace with rplMode := v &&& 3, rplStat := 0, rplPos := [] } }

end Sys2Proof.Machine
end

