-- ==== Sys2Proof/Machine/Csr.lean ====
section
/-! DEFINITION. The control registers (R41-R43, R132, R363, R404, R422) and the CSR instructions. -/

namespace Sys2Proof.Machine

/-! Tile status registers (R184, R185). -/

/-- An accumulator of a strand. -/
def Strand.acc (t : Strand) (n : Nat) : Acc := Tab.get Acc.none t.accs n

/-- The strand with an accumulator replaced. -/
def Strand.setAcc (t : Strand) (n : Nat) (a : Acc) : Strand := { t with accs := Tab.set Acc.none t.accs n a }

/-- Physical tiles that an accumulator holds: one for FP32, two for a residue format (R182). -/
def Acc.phys (a : Acc) : Nat := if a.enabled then (if a.fmt = 0 then 1 else 2) else 0

/-- Physical tiles that a strand holds (R182, R185). -/
def Strand.phys (t : Strand) : Nat := ((List.range 8).map fun n => (t.acc n).phys).sum

/-- TCFG (R184). -/
def Strand.tcfg (t : Strand) : Word :=
  BitVec.ofNat 64 (((List.range 8).map fun n =>
    let a := t.acc n
    if a.enabled then (128 + a.fmt * 32 + a.group) * 2 ^ (8 * n) else 0).sum)

/-- TSTATE (R185). -/
def Strand.tstate (t : Strand) : Word :=
  let x := t.tile
  BitVec.ofNat 64 (t.interrupted.steps * 2 ^ 36 + x.lty * 2 ^ 32 + x.lcnt * 2 ^ 27 + t.phys * 2 ^ 22
    + ((List.range 8).map fun n => if (t.acc n).enabled then 2 ^ (8 + n) else 0).sum
    + (if x.sat then 4 else 0) + (if x.inf then 2 else 0) + (if x.nan then 1 else 0))

/-! The register map. -/

/-- Whether a control register exists, and if so whether it may be written (R42, R363, R404, R422). -/
def csrAccess (n : Nat) : Option Bool :=
  if n = 0x000 ∨ n = 0x002 ∨ n = 0x003 ∨ (0x005 ≤ n ∧ n ≤ 0x008) ∨ n = 0x040 ∨ n = 0x042 ∨ n = 0x043 ∨ n = 0x048 then
    some true
  else if n = 0x001 ∨ n = 0x004 ∨ (0x010 ≤ n ∧ n ≤ 0x016) ∨ n = 0x020 ∨ n = 0x021 ∨ (0x030 ≤ n ∧ n ≤ 0x03F) ∨ n = 0x041
    ∨ (0x050 ≤ n ∧ n ≤ 0x053) then some false
  else if (0x800 ≤ n ∧ n ≤ 0x806) ∨ (0x808 ≤ n ∧ n ≤ 0x80B) ∨ (0x820 ≤ n ∧ n ≤ 0x823) then some true
  else if (0x840 ≤ n ∧ n ≤ 0x846) ∨ (0x848 ≤ n ∧ n ≤ 0x84B) ∨ (0x850 ≤ n ∧ n ≤ 0x853) ∨ (0x858 ≤ n ∧ n ≤ 0x85B) then
    some true
  else if n = 0x84C then some false
  else if (0x900 ≤ n ∧ n ≤ 0x908) ∨ n = 0x910 ∨ (0x920 ≤ n ∧ n ≤ 0x929) then some true
  else if n = 0x90A ∨ (0x911 ≤ n ∧ n ≤ 0x913) then some false
  else none

/-- Check 4 of R45: privilege, then an unassigned number, then a write of a read-only register (R41-R43). -/
def csrTrap (s : State) (w : InstrWord) (n : Nat) (writes : Bool) : Option Trap :=
  if 0x800 ≤ n ∧ !s.me.firmware then some ⟨4, 0, w.setWidth 64⟩
  else match csrAccess n with
    | none => some ⟨1, 8, w.setWidth 64⟩
    | some rw => if writes && !rw then some ⟨1, 8, w.setWidth 64⟩ else none

/-- The classes on which a register can be accessed (R42, R43). -/
def csrClasses (n : Nat) : Nat := if n = 0x020 ∨ n = 0x021 then 4 else 7

/-- QCFGn (R136). -/
def Queue.view (q : Queue) : Word :=
  BitVec.ofNat 64 (q.ready * 2 ^ 48 + q.slots.length * 2 ^ 32 + q.cfg.toNat)

/-- A vector address register reads 0 when its low bits are set (R330, R359). -/
def vecRead (w : Word) : Word := if w &&& 3 = 0 then w else 0

/-- UICAUSE is a register; UISTAT shows the pending records (R330). -/
def Strand.uistatRead (t : Strand) : Word :=
  (t.uistat &&& 0xFFFF0003) ||| BitVec.ofNat 64 (t.completions.length * 256)

/-- Whether THROT bit 7 stands (R422) (DESIGN CHOICE, log entry 72). -/
def Module.throt (m : Module) : Word := BitVec.ofNat 64 (m.throttle % 128 + (if m.capReached then 128 else 0))

/-- The value of control register n (R42). -/
def csrRead (s : State) (n : Nat) : Word :=
  let t := s.me
  let m := s.module
  let c := (s.context (m.trcSel.toNat % 4096)).trace
  if 0x030 ≤ n ∧ n ≤ 0x03F then (s.queue s.cur (n - 0x030)).view
  else if 0x808 ≤ n ∧ n ≤ 0x80B then Tab.get 0 t.trapScr (n - 0x808)
  else if 0x820 ≤ n ∧ n ≤ 0x823 then Tab.get 0 t.bpAddr (n - 0x820)
  else if 0x850 ≤ n ∧ n ≤ 0x853 then Tab.get 0 t.trace.waddr (n - 0x850)
  else if 0x858 ≤ n ∧ n ≤ 0x85B then Tab.get 0 t.trace.wctl (n - 0x858)
  else if 0x901 ≤ n ∧ n ≤ 0x908 then dcWordRead s (n - 0x901)
  else match n with
    | 0x000 => t.fcsr
    | 0x001 => t.vl
    | 0x002 => t.vms
    | 0x003 => t.vst
    | 0x004 => BitVec.ofNat 64 t.gvl
    | 0x005 => t.vstart
    | 0x006 => t.vdone
    | 0x007 => t.srseed
    | 0x008 => t.scthr
    | 0x010 => t.strandId
    | 0x011 => t.troupeId
    | 0x012 => t.stageId
    | 0x013 => BitVec.ofNat 64 (classOf s t.core)
    | 0x014 => BitVec.ofNat 64 t.core
    | 0x015 => BitVec.ofNat 64 (t.ctx % 4096)
    | 0x016 => if t.coupled then BitVec.ofNat 64 (256 + (s.strand t.partner).slot % 8) else 0
    | 0x020 => t.tstate
    | 0x021 => t.tcfg
    | 0x040 => vecRead t.uivec
    | 0x041 => t.uicause
    | 0x042 => t.uipc
    | 0x043 => t.uistatRead
    | 0x048 => vecRead t.emuVec
    | 0x050 => BitVec.ofNat 64 (s.cycles t)
    | 0x051 => t.issued
    | 0x052 => BitVec.ofNat 64 s.time
    | 0x053 => BitVec.ofNat 64 ((s.strand (s.owner s.cur)).travel.emu * 2 ^ 48 + (s.strand (s.owner s.cur)).travel.mig % 2 ^ 32)
    | 0x800 => t.trapVec
    | 0x801 => t.trapCause
    | 0x802 => t.trapPc
    | 0x803 => t.trapVal
    | 0x804 => t.trapStat
    | 0x805 => t.saveBase
    | 0x806 => t.flogBase
    | 0x840 => m.trcSel
    | 0x841 => c.base
    | 0x842 => c.cb
    | 0x843 => c.size
    | 0x844 => c.filt
    | 0x845 => c.smp
    | 0x846 => BitVec.ofNat 64 c.drop
    | 0x848 => c.rplBase
    | 0x849 => c.rplCb
    | 0x84A => c.rplSize
    | 0x84B => c.rplMode
    | 0x84C => c.rplStat
    | 0x900 => m.dcqSel
    | 0x90A => m.dbVal
    | 0x910 => BitVec.ofNat 64 m.pwrCap
    | 0x911 => BitVec.ofNat 64 (powerWatts s + railAmps s * 65536)
    | 0x912 => m.throt
    | 0x913 => BitVec.ofNat 64 (m.tjMax % 256)
    | 0x920 => m.keySel
    | _ => 0

/-- The trace settings of the selected context changed (R404). -/
def State.updTrace (s : State) (f : TraceCtx → TraceCtx) : State :=
  s.updContext (s.module.trcSel.toNat % 4096) fun c => { c with trace := f c.trace }

/-- The writable bits of a per-strand register replaced. -/
def blend (mask old new : Word) : Word := (old &&& ~~~mask) ||| (new &&& mask)

/-- A write of SAVEBASE: the save area is the unit's, so that each of its strands reads the new one (R363). -/
def setSaveBase (s : State) (v : Word) : State :=
  (s.unit s.cur).foldl (init := s.updMe fun t => { t with saveBase := v }) fun s u => s.updStrand u fun t => { t with saveBase := v }

/-- Control register n written: v for its RW fields, c for the bits of a W1C field to clear (R41). Reserved fields keep
their value (R132) (DEDUCED, log entry 40). -/
def csrWrite (s : State) (n : Nat) (v c : Word) : State :=
  if 0x808 ≤ n ∧ n ≤ 0x80B then s.updMe fun t => { t with trapScr := Tab.set 0 t.trapScr (n - 0x808) v }
  else if 0x820 ≤ n ∧ n ≤ 0x823 then s.updMe fun t => { t with bpAddr := Tab.set 0 t.bpAddr (n - 0x820) (v &&& ~~~(2 : Word)) }
  else if 0x850 ≤ n ∧ n ≤ 0x853 then
    s.updMe fun t => { t with trace := { t.trace with waddr := Tab.set 0 t.trace.waddr (n - 0x850) v } }
  else if 0x858 ≤ n ∧ n ≤ 0x85B then
    s.updMe fun t => { t with trace := { t.trace with wctl := Tab.set 0 t.trace.wctl (n - 0x858) (v &&& 0x831F) } }
  else if n = 0x908 then commitQueue s v
  else if 0x901 ≤ n ∧ n ≤ 0x907 then
    s.updModule fun m => { m with dcWord := Tab.set none m.dcWord (n - 0x901) (some v) }
  else if 0x922 ≤ n ∧ n ≤ 0x929 then s.updModule fun m => { m with keyData := Tab.set 0 m.keyData (n - 0x922) v }
  else match n with
    | 0x000 => s.updMe fun t => { t with fcsr := blend 0x3F3 t.fcsr v }
    | 0x002 => s.updMe fun t => { t with vms := blend 0x7F t.vms v }
    | 0x003 => s.updMe fun t => { t with vst := v }
    | 0x005 => s.updMe fun t => { t with vstart := blend 0x1FF t.vstart v }
    | 0x006 => s.updMe fun t => { t with vdone := v }
    | 0x007 => s.updMe fun t => { t with srseed := blend 0xFFFFFFFF t.srseed v }
    | 0x008 => s.updMe fun t => { t with scthr := blend 0x7F t.scthr v }
    | 0x040 => s.updMe fun t => { t with uivec := vecRead v }
    | 0x042 => s.updMe fun t => { t with uipc := v }
    | 0x043 => s.updMe fun t => { t with uistat := (blend 1 t.uistat v) &&& ~~~(c &&& 0xFFFF0000) }
    | 0x048 => s.updMe fun t => { t with emuVec := vecRead v }
    | 0x800 => s.updMe fun t => { t with trapVec := v &&& ~~~(3 : Word) }
    | 0x801 => s.updMe fun t => { t with trapCause := blend 0x80FF003F t.trapCause v }
    | 0x802 => s.updMe fun t => { t with trapPc := v }
    | 0x803 => s.updMe fun t => { t with trapVal := v }
    | 0x804 => s.updMe fun t => { t with trapStat := blend 0x103 t.trapStat v }
    | 0x805 => setSaveBase s v
    | 0x806 => (s.updMe fun t => { t with flogBase := v }).updContext s.me.ctx fun c => { c with faultLog := v }
    | 0x840 => s.updModule fun m => { m with trcSel := v &&& 0xFFF }
    | 0x841 => s.updTrace fun t => { t with base := v }
    | 0x842 => s.updTrace fun t => { t with cb := v }
    | 0x843 => s.updTrace fun t => { t with size := v &&& 0x1F, last := [] }
    | 0x844 => s.updTrace fun t => { t with filt := v &&& 0xFF, last := if t.filt.getLsbD 7 then t.last else [] }
    | 0x845 => s.updTrace fun t => { t with smp := v &&& 0xFFFFFFFF }
    | 0x846 => s.updTrace fun t => { t with drop := (BitVec.ofNat 64 t.drop &&& ~~~c).toNat }
    | 0x848 => s.updTrace fun t => { t with rplBase := v }
    | 0x849 => s.updTrace fun t => { t with rplCb := v }
    | 0x84A => s.updTrace fun t => { t with rplSize := v &&& 0x1F }
    | 0x84B => setReplayMode s v
    | 0x900 => s.updModule fun m => { m with dcqSel := v &&& 0x3FF, dcWord := [] }
    | 0x910 => setPowerCap s v
    | 0x920 => s.updModule fun m => { m with keySel := v &&& 0xFFF }
    | 0x921 => if v = 1 then loadKey s else if v = 2 then eraseKey s else s
    | _ => s

/-- The effect of a CSR instruction (R41): the old value goes to d. A load or erase of a key first waits for the accesses
in flight under its slot (R424); a read of THROT clears its sticky bit (R422, DEDUCED, log entry 25), and
by one of DBVAL Naing has read the doorbell (R421). -/
def csrOp (d a : BitVec 6) (n : Nat) (writes : Bool) (value : Word → Word → Word) (clear : Word → Word) : M Unit := do
  let s ← get
  let old := csrRead s n
  let x := s.me.reg a.toNat
  let v := value old x
  if writes && n = 0x921 && (v = 1 || v = 2) && keyInFlight s s.module.keySel.toNat then
    throw (.park (.keySlot s.module.keySel.toNat))
  if n = 0x90A then modify fun s => s.updModule fun m => { m with dbUnread := false }
  if n = 0x912 then modify fun s => s.updModule fun m => { m with capReached := false }
  if writes then modify fun s => csrWrite s n v (clear x)
  writeReg d old

/-- CSRRW (R41): Writes a control register from x[a] and returns the old value. -/
def execCsrrw (d : BitVec 6) (a : BitVec 6) (c : BitVec 12) (st : State) : Out :=
  insn
    { word := fs 17#6 d a c 0#2, csr := csrTrap st (fs 17#6 d a c 0#2) c.toNat (true), ops := [.reg d, .reg a], classes := csrClasses c.toNat, xfields := [d.toNat, a.toNat] }
    (seq (csrOp d a c.toNat (true) (fun _ x => x) (fun x => x))) st

/-- CSRRS (R41): Sets control-register bits from x[a] and returns the old value. -/
def execCsrrs (d : BitVec 6) (a : BitVec 6) (c : BitVec 12) (st : State) : Out :=
  insn
    { word := fs 17#6 d a c 1#2, csr := csrTrap st (fs 17#6 d a c 1#2) c.toNat (a != 0), ops := [.reg d, .reg a], classes := csrClasses c.toNat, xfields := [d.toNat, a.toNat] }
    (seq (csrOp d a c.toNat (a != 0) (fun o x => o ||| x) (fun x => x))) st

/-- CSRRC (R41): Clears control-register bits from x[a] and returns the old value. -/
def execCsrrc (d : BitVec 6) (a : BitVec 6) (c : BitVec 12) (st : State) : Out :=
  insn
    { word := fs 17#6 d a c 2#2, csr := csrTrap st (fs 17#6 d a c 2#2) c.toNat (a != 0), ops := [.reg d, .reg a], classes := csrClasses c.toNat, xfields := [d.toNat, a.toNat] }
    (seq (csrOp d a c.toNat (a != 0) (fun o x => o &&& ~~~x) (fun _ => 0))) st

/-- CSRR (R41): Reads a control register. -/
def execCsrr (d : BitVec 6) (c : BitVec 12) (st : State) : Out :=
  insn
    { word := fs 17#6 d 0#6 c 3#2, csr := csrTrap st (fs 17#6 d 0#6 c 3#2) c.toNat (false), ops := [.reg d], classes := csrClasses c.toNat, xfields := [d.toNat] }
    (seq (csrOp d 0#6 c.toNat (false) (fun o _ => o) (fun _ => 0))) st

end Sys2Proof.Machine
end

