-- ==== Sys2Proof/Machine/Tile.lean ====
section
/-! DEFINITION. Tile accumulators (R182-R202): the TILE instructions and the arithmetic of a step, a fold and a drain
(R83-R89). -/

namespace Sys2Proof.Machine

/-! Cells (R83, R86, R89, R198). -/

/-- The origin NaN of a core at a local k index (R89). -/
def originNan (core k : Nat) : Nat := 0x7FC00000 + core % 2 ^ 14 * 2 ^ 8 + k % 256

/-- Whether an FP32 bit pattern is NaN. -/
def nan32 (x : Nat) : Bool := (Fp.decode Fp.fp32 x).isNan

/-- A residue cell from three channel sums (R83). -/
def residueCell (c1 c2 c3 : Int) : Nat :=
  (c1 % 8191).toNat + (c2 % 8192).toNat * 2 ^ 13 + (c3 % 8193).toNat * 2 ^ 26

/-- The channels of a residue cell. -/
def residueChannels (x : Nat) : Nat × Nat × Nat := (x % 2 ^ 13, x / 2 ^ 13 % 2 ^ 13, x / 2 ^ 26 % 2 ^ 14)

/-- The integer that a residue cell denotes (R86). -/
def residueValue (x : Nat) : Int :=
  let (c1, c2, c3) := residueChannels x
  let t1 := ((c1 : Int) - c2) % 8191
  let u := c2 + 8192 * t1
  let t2 := ((c3 - u) * 4097) % 8193
  let u := u + 67100672 * t2
  if u < 274877902848 then u else u - 549755805696

/-- The cell at row i and column c. -/
def Acc.cell (a : Acc) (i c : Nat) : Nat := (Tab.get 0 a.cells (32 * i + c)).toNat

/-- The accumulator whose cell at row i and column c is f i c. -/
def Acc.setCells (a : Acc) (f : Nat → Nat → Nat) : Acc :=
  { a with cells := (List.range 2048).filterMap fun k =>
      let v := BitVec.ofNat 40 (f (k / 32) (k % 32))
      if v = 0 then Option.none else some (k, v) }

/-- Whether a cell is active (R191). -/
def Acc.active (a : Acc) (i c : Nat) : Bool := a.rowMask.getLsbD i && a.colMask.getLsbD c

/-- The k values of a scale group (R184). -/
def Acc.groupLength (a : Acc) : Nat := 32 * (a.group + 1)

/-- An accumulator whose cells, counts and masks TEN has just set (R190). -/
def Acc.fresh (fmt group : Nat) : Acc :=
  ⟨true, fmt, group, [], BitVec.allOnes 64, BitVec.allOnes 32, 0, 0, [], []⟩

/-! The sticky bits of TSTATE (R185): 1 NAN, 2 INF, 4 SAT. -/

/-- Set sticky bits. -/
def raiseTile (fl : Nat) : M Unit := updMe fun t => { t with tile := { t.tile with
  nan := t.tile.nan || fl.testBit 0, inf := t.tile.inf || fl.testBit 1, sat := t.tile.sat || fl.testBit 2 } }

/-- The union of the flags of every cell. -/
def cellFlags (f : Nat → Nat → Nat) : Nat :=
  (List.range 2048).foldl (init := 0) fun m k => m ||| f (k / 32) (k % 32)

/-! Checks (R188). -/

/-- An enabled accumulator of the executing strand, or cause 9 with sub-cause 0. -/
def enabledAcc (n : Nat) : M Acc := do
  let a := (← me).acc n
  if a.enabled then return a else trap 9 0 (BitVec.ofNat 64 n)

/-- The free physical tiles of a core (R182): those of strands that are on their way to it are taken (R183, R351). -/
def freeTiles (s : State) (core : Nat) : Nat :=
  16 - ((s.residents core).map fun u => (s.strand u).phys).sum
    - (s.moves.map fun m => match m.target with
        | some (c, _) => if c = core then ((s.couple m.uid).map fun u => (s.strand u).phys).sum else 0
        | none => 0).sum

/-- A tile operation has been issued: the strand parks until it completes, past the instruction (R201)
(DEDUCED, log entry 67). -/
def tileIssued (pipe : Nat) : M Flow := do
  modify fun s => park (pipeRecords s s.cur pipe false) s.cur .tile
  updMe fun t => { t with pc := t.pc + 4 }
  return .stay

/-- A tile instruction that completes at issue without entering a pipe (R201, R410). -/
def tileDone : M Flow := do
  updMe fun t => { t with trace := { t.trace with tag := (t.trace.tag + 1) % 256 } }
  return .seq

/-! Enabling, zeroing, masks and status (R190, R191, R196, R200). -/

/-- TEN (R189, R190). -/
def tenOp (d : BitVec 6) (c : BitVec 3) (b : BitVec 6) : M Flow := do
  let w ← readReg b
  let fmt := (w.extractLsb' 6 2).toNat
  let group := (w.extractLsb' 0 5).toNat
  if 256 ≤ w.toNat ∨ fmt = 3 ∨ w.getLsbD 5 ∨ (fmt = 0 ∧ group ≠ 0) then trap 9 5 w
  updMe fun t => t.setAcc c.toNat Acc.none
  let s ← get
  if freeTiles s s.me.core < (if fmt = 0 then 1 else 2) then writeReg d 0
  else
    updMe fun t => t.setAcc c.toNat (Acc.fresh fmt group)
    writeReg d 1
  tileDone

/-- TDIS (R190). -/
def tdisOp (c : BitVec 3) : M Flow := do
  updMe fun t => t.setAcc c.toNat Acc.none
  tileDone

/-- TZERO (R190). -/
def tzeroOp (c : BitVec 3) : M Flow := do
  let a ← enabledAcc c.toNat
  updMe fun t => t.setAcc c.toNat { a with cells := [], kcount := 0, kgrp := 0 }
  tileIssued 7

/-- TPRED (R191). -/
def tpredOp (d : BitVec 6) (c : BitVec 3) (b : BitVec 6) : M Flow := do
  let a ← enabledAcc c.toNat
  let r ← readReg d
  let m ← readReg b
  updMe fun t => t.setAcc c.toNat { a with rowMask := r, colMask := m.setWidth 32 }
  tileDone

/-- TSCL (R196). -/
def tsclOp (c : BitVec 3) (a : BitVec 6) : M Flow := do
  let k ← enabledAcc c.toNat
  if k.fmt = 0 then trap 9 4 (c.setWidth 64)
  let v ← readV a
  let scale := fun (lo n : Nat) => (List.range n).foldl (init := ([] : Tab (BitVec 16))) fun m i =>
    Tab.set 0x7F00 m i (v.extractLsb' (lo + 16 * i) 16)
  updMe fun t => t.setAcc c.toNat { k with rowScale := scale 0 64, colScale := scale 1024 32 }
  tileDone

/-- What TSTAT reads (R200). -/
def tstatValue (t : Strand) (a : Acc) (sel : Nat) : Word :=
  let sticky := t.tstate &&& 7
  if sel < 2 then
    if a.enabled then
      BitVec.ofNat 64 (a.kcount * 2 ^ 48 + a.kgrp * 2 ^ 32 + 2 ^ 15 + a.fmt * 2 ^ 13 + a.group * 2 ^ 8) ||| sticky
    else sticky
  else if !a.enabled then 0
  else if sel = 2 then a.rowMask
  else a.colMask.setWidth 64

/-- TSTAT (R200). -/
def tstatOp (d : BitVec 6) (c : BitVec 3) (sel : BitVec 2) : M Flow := do
  let t ← me
  writeReg d (tstatValue t (t.acc c.toNat) sel.toNat)
  if sel = 1 then updMe fun t => { t with tile := { t.tile with sat := false, inf := false, nan := false } }
  tileDone

/-! Moves (R198). -/

/-- The width in bits of a cell of an accumulator in a slice. -/
def Acc.cellWidth (a : Acc) : Nat := if a.fmt = 0 then 32 else 64

/-- The cells of a row slice, by element. -/
def rowSlice (x : Word) : List (Nat × Nat) := (List.range 32).map fun c => (x.toNat % 64, c)

/-- The cells of a column slice, by element: all rows of an FP32 accumulator, half of them of a residue one. -/
def colSlice (a : Acc) (x : Word) : List (Nat × Nat) :=
  if a.fmt = 0 then (List.range 64).map fun r => (r, x.toNat % 32)
  else (List.range 32).map fun r => (32 * (x.toNat / 32 % 2) + r, x.toNat % 32)

/-- The vector operand that a slice gives. -/
def readSlice (a : Acc) (sl : List (Nat × Nat)) : Vec :=
  sl.zipIdx.foldl (init := 0) fun v (rc, i) => setElem v a.cellWidth i (a.cell rc.1 rc.2)

/-- A cell as a slice element writes it: residue channels are reduced. -/
def slicedCell (a : Acc) (x : Nat) : Nat :=
  if a.fmt = 0 then x % 2 ^ 32
  else
    let (c1, c2, c3) := residueChannels x
    residueCell c1 c2 c3

/-- The accumulator with a slice written. -/
def writeSlice (a : Acc) (sl : List (Nat × Nat)) (v : Vec) : Acc :=
  { a with cells := sl.zipIdx.foldl (init := a.cells) fun m (rc, i) =>
      Tab.set 0 m (32 * rc.1 + rc.2) (BitVec.ofNat 40 (slicedCell a (elem v a.cellWidth i))) }

/-- TMOVR and TMOVC (R198). -/
def tmovOp (d : BitVec 6) (c : BitVec 3) (b : BitVec 6) (sl : Acc → Word → List (Nat × Nat)) : M Flow := do
  let a ← enabledAcc c.toNat
  let x ← readReg b
  writeV d (readSlice a (sl a x)) 256
  tileIssued 7

/-- TSETR and TSETC (R198). -/
def tsetOp (c : BitVec 3) (a b : BitVec 6) (sl : Acc → Word → List (Nat × Nat)) : M Flow := do
  let k ← enabledAcc c.toNat
  let x ← readReg b
  let v ← readV a
  updMe fun t => t.setAcc c.toNat (writeSlice k (sl k x) v)
  tileIssued 7

/-! Folding (R69, R87, R197). -/

/-- A BS16 scale (R69): NaN, zero, or the significand and the exponent of its value. -/
def bs16 (x : BitVec 16) : Option (Nat × Int) :=
  let e := x.toNat / 256
  if e = 255 then none
  else if e = 0 then some (0, 0)
  else some (256 + x.toNat % 256, (e : Int) - 127 - 8)

/-- One companion cell after a fold (R87), with its flags: v is the residue value, cell the companion's bits. The product is rounded
whatever the companion holds. -/
def foldCell (nan : Nat) (v : Int) (sa sb : Option (Nat × Int)) (cell : Nat) : Nat × Nat :=
  let ovf := fun (fl : Nat) => if fl &&& Fp.OF != 0 then 2 else 0
  match sa, sb with
  | some (ma, ea), some (mb, eb) =>
    let p := v * ma * mb
    let (pr, f1) := if p = 0 then (0, 0) else Fp.roundPos Fp.fp32 0 (decide (p < 0)) p.natAbs (ea + eb)
    if nan32 cell then (cell, ovf f1)
    else
      let (r, f2) := Fp.add Fp.fp32 0 cell pr
      if nan32 r then (nan, 1 ||| ovf (f1 ||| f2)) else (r, ovf (f1 ||| f2))
  | _, _ => if nan32 cell then (cell, 0) else (nan, 1)

/-- TFOLD (R197). -/
def tfoldOp (c e : BitVec 3) : M Flow := do
  let a ← enabledAcc c.toNat
  if a.fmt = 0 then trap 9 4 (c.setWidth 64)
  let k := (← me).acc e.toNat
  if !k.enabled ∨ k.fmt ≠ 0 ∨ c = e then trap 9 (if k.enabled then 4 else 0) (e.setWidth 64)
  let nan := originNan (← me).core k.kcount
  let f := fun i j => if a.active i j then
      foldCell nan (residueValue (a.cell i j)) (bs16 (Tab.get 0x7F00 a.rowScale i)) (bs16 (Tab.get 0x7F00 a.colScale j)) (k.cell i j)
    else (k.cell i j, 0)
  updMe fun t => (t.setAcc e.toNat { k.setCells (fun i j => (f i j).1) with kcount := (k.kcount + a.kgrp) % 65536 }).setAcc
    c.toNat { a with cells := [], kgrp := 0 }
  raiseTile (cellFlags fun i j => (f i j).2)
  tileIssued 7

/-! Draining (R199). -/

/-- The destination format of TDRAIN and the rows it takes. -/
def drainFmt (t : BitVec 2) : Fp.Fmt × Nat :=
  if t = 0 then (Fp.fp32, 2) else if t = 1 then (Fp.bf16, 4) else if t = 2 then (Fp.fp16, 4) else (Fp.e4, 8)

/-- One drained cell and its sticky bits (R75, R76, R185) (DEDUCED, log entry 43). -/
def drainCell (f : Fp.Fmt) (x : Nat) : Nat × Nat :=
  if f.width = 32 then (x, if nan32 x then 1 else 0)
  else
    let (r, fl) := Fp.convert Fp.fp32 f 0 x
    if nan32 x then (r, 1)
    else if f.e4 then (r, if fl &&& (Fp.OF ||| Fp.NV) != 0 then 4 else 0)
    else (r, if fl &&& Fp.OF != 0 then 2 else 0)

/-- TDRAIN (R199). -/
def tdrainOp (d : BitVec 6) (c : BitVec 3) (b : BitVec 6) (t : BitVec 2) : M Flow := do
  let a ← enabledAcc c.toNat
  if a.fmt ≠ 0 then trap 9 4 (c.setWidth 64)
  let h := (← readReg b).toNat % 64
  let (f, rows) := drainFmt t
  let out := (List.range (32 * rows)).map fun k => drainCell f (a.cell ((h + k / 32) % 64) (k % 32))
  writeV d (out.zipIdx.foldl (init := 0) fun v x => setElem v f.width x.2 x.1.1) 256
  raiseTile (out.foldl (init := 0) fun m x => m ||| x.2)
  tileIssued 7

/-- TEN (R190): Enables an accumulator with physical tiles. -/
def execTen (d : BitVec 6) (c : BitVec 3) (b : BitVec 6) (st : State) : Out :=
  insn
    { word := fr 28#6 d (0#3 ++ c) b 0#5 0#2 0#1, ops := [.reg d, .reg b], classes := 4, xfields := [d.toNat, b.toNat] }
    (tenOp d c b) st

/-- TDIS (R190): Disables an accumulator and frees its tiles. -/
def execTdis (c : BitVec 3) (st : State) : Out :=
  insn { word := fr 28#6 0#6 (0#3 ++ c) 0#6 1#5 0#2 0#1, classes := 4 } (tdisOp c) st

/-- TZERO (R190): Zeroes every cell and KCOUNT of an accumulator. -/
def execTzero (c : BitVec 3) (st : State) : Out :=
  insn { word := fr 28#6 0#6 (0#3 ++ c) 0#6 2#5 0#2 0#1, classes := 4 } (tzeroOp c) st

/-- TPRED (R191): Sets an accumulator's row and column masks. -/
def execTpred (d : BitVec 6) (c : BitVec 3) (b : BitVec 6) (st : State) : Out :=
  insn
    { word := fr 28#6 d (0#3 ++ c) b 3#5 0#2 0#1, ops := [.reg d, .reg b], classes := 4, xfields := [d.toNat, b.toNat] }
    (tpredOp d c b) st

/-- TMOVR (R198): Moves an accumulator row into a vector. -/
def execTmovr (d : BitVec 6) (c : BitVec 3) (b : BitVec 6) (st : State) : Out :=
  insn
    { word := fr 28#6 d (0#3 ++ c) b 4#5 0#2 0#1, ops := [.data d 2 true, .reg b], classes := 4, xfields := [b.toNat] }
    (tmovOp d c b fun _ x => rowSlice x) st

/-- TMOVC (R198): Moves an accumulator column into a vector. -/
def execTmovc (d : BitVec 6) (c : BitVec 3) (b : BitVec 6) (st : State) : Out :=
  insn
    { word := fr 28#6 d (0#3 ++ c) b 5#5 0#2 0#1, ops := [.data d 2 true, .reg b], classes := 4, xfields := [b.toNat] }
    (tmovOp d c b colSlice) st

/-- TSETR (R198): Writes an accumulator row from a vector. -/
def execTsetr (c : BitVec 3) (a : BitVec 6) (b : BitVec 6) (st : State) : Out :=
  insn
    { word := fr 28#6 (0#3 ++ c) a b 6#5 0#2 0#1, ops := [.data a 2 false, .reg b], classes := 4, xfields := [b.toNat] }
    (tsetOp c a b fun _ x => rowSlice x) st

/-- TSETC (R198): Writes an accumulator column from a vector. -/
def execTsetc (c : BitVec 3) (a : BitVec 6) (b : BitVec 6) (st : State) : Out :=
  insn
    { word := fr 28#6 (0#3 ++ c) a b 7#5 0#2 0#1, ops := [.data a 2 false, .reg b], classes := 4, xfields := [b.toNat] }
    (tsetOp c a b colSlice) st

/-- TFOLD (R197): Folds a residue accumulator into its FP32 companion with scales. -/
def execTfold (c : BitVec 3) (e : BitVec 3) (st : State) : Out :=
  insn { word := fr 28#6 0#6 (0#3 ++ c) (0#3 ++ e) 8#5 0#2 0#1, classes := 4 } (tfoldOp c e) st

/-- TDRAIN (R199): Converts accumulator rows to a narrower format into a vector. -/
def execTdrain (d : BitVec 6) (c : BitVec 3) (b : BitVec 6) (t : BitVec 2) (st : State) : Out :=
  insn
    { word := fr 28#6 d (0#3 ++ c) b 9#5 t 0#1, ops := [.data d 2 true, .reg b], classes := 4, xfields := [b.toNat] }
    (tdrainOp d c b t) st

/-- TSCL (R196): Loads the scale latch of a residue accumulator. -/
def execTscl (c : BitVec 3) (a : BitVec 6) (st : State) : Out :=
  insn { word := fr 28#6 (0#3 ++ c) a 0#6 11#5 0#2 0#1, ops := [.data a 2 false], classes := 4 } (tsclOp c a) st

/-- TSTAT (R200): Reads accumulator status or masks, optionally clearing sticky flags. -/
def execTstat (d : BitVec 6) (c : BitVec 3) (s : BitVec 2) (st : State) : Out :=
  insn
    { word := fr 28#6 d (0#3 ++ c) (0#4 ++ s) 12#5 0#2 0#1, ops := [.reg d], classes := 4, xfields := [d.toNat] }
    (tstatOp d c s) st

end Sys2Proof.Machine
end

