-- ==== Sys2Proof/Machine/Top.lean ====
section
/-! DEFINITION. The TOP family (R192-R195, R84, R88): steps of the matrix pipe. -/

namespace Sys2Proof.Machine

/-! Operand types (R192). -/

/-- k values per step. -/
def TopOp.kp (o : TopOp) : Nat := if o.ty < 2 then 1 else if o.ty < 4 then 2 else if o.ty = 4 then 4 else 8
/-- Element bits. -/
def TopOp.elemBits (o : TopOp) : Nat := if o.ty < 2 then 16 else if o.ty < 5 then 8 else 4
/-- Group bits. -/
def TopOp.groupBits (o : TopOp) : Nat := if o.ty < 4 then 16 else 32
/-- Steps (R193). -/
def TopOp.cnt (o : TopOp) : Nat := o.rep + 1
/-- The accumulator format that suits the type (R194). -/
def TopOp.format (o : TopOp) : Nat := if o.ty < 4 then 0 else if o.ty = 4 then 1 else 2
/-- The floating-point format of an element. -/
def TopOp.fmt (o : TopOp) : Fp.Fmt :=
  if o.ty = 0 then Fp.bf16 else if o.ty = 1 then Fp.fp16 else if o.ty = 2 then Fp.e4 else Fp.e5

/-- Element m of group g of a source (R192). -/
def TopOp.element (o : TopOp) (v g m : Nat) : Nat := v / 2 ^ (o.groupBits * g + o.elemBits * m) % 2 ^ o.elemBits

/-- A Q8 or Q4 code as an integer (R67). -/
def quant (bits x : Nat) : Int :=
  if bits = 8 then (if x = 0x80 then -127 else if x < 128 then x else (x : Int) - 256)
  else if x < 8 then x else (x : Int) - 16

/-! One cell of one step (R84, R88, R194). -/

/-- The exact sum of two products; infinities of opposite sign have none (R88). Two zeros of one sign keep it, and any other exact zero
is +0 (DESIGN CHOICE, log entry 99). -/
def pairSum (a b : Fp.Val) : Fp.Val :=
  match a, b with
  | .inf x, .inf y => if x = y then .inf x else .nan false
  | .inf x, .fin _ _ _ => .inf x
  | .fin _ _ _, .inf y => .inf y
  | .fin n1 m1 e1, .fin n2 m2 e2 =>
    if m1 = 0 ∧ m2 = 0 ∧ n1 = n2 then .fin n1 0 e1
    else
      let (v, e) := Fp.sumExact n1 m1 e1 n2 m2 e2
      .fin (decide (v < 0)) v.natAbs e
  | _, _ => .nan false

/-- The exact product of element m of a row and a column group. -/
def TopOp.product (o : TopOp) (a b i c m : Nat) : Fp.Val :=
  (Fp.mulVal (Fp.decode o.fmt (o.element a i m)) (Fp.decode o.fmt (o.element b c m))).1

/-- An FP32 cell after a step, with its sticky bits: nan is the origin NaN of the step. -/
def TopOp.fpCell (o : TopOp) (nan a b i c cell : Nat) : Nat × Nat :=
  if nan32 cell then (cell, 0)
  else
    let p := if o.kp = 1 then o.product a b i c 0 else pairSum (o.product a b i c 0) (o.product a b i c 1)
    let (r, fl) := Fp.addVal Fp.fp32 0 (Fp.decode Fp.fp32 cell) (if o.n then p.negate else p)
    if nan32 r then (nan, 1) else (r, if fl &&& Fp.OF != 0 then 2 else 0)

/-- A residue cell after a step (R84): the exact sum in each channel. -/
def TopOp.residue (o : TopOp) (a b i c cell : Nat) : Nat :=
  let sum := ((List.range o.kp).map fun m =>
    quant o.elemBits (o.element a i m) * quant o.elemBits (o.element b c m)).sum
  let d := if o.n then -sum else sum
  let (c1, c2, c3) := residueChannels cell
  residueCell (c1 + d) (c2 + d) (c3 + d)

/-- The accumulator before a step: with z, step 0 zeroes the active cells and the counts (R194). -/
def TopOp.before (o : TopOp) (k : Acc) (j : Nat) : Acc :=
  if o.z ∧ j = 0 then { k.setCells (fun i c => if k.active i c then 0 else k.cell i c) with kcount := 0, kgrp := 0 }
  else k

/-- The accumulator after a step over the operands a and b, with the sticky bits of its cells. -/
def TopOp.after (o : TopOp) (core : Nat) (k : Acc) (a b : Nat) : Acc × Nat :=
  let count := { k with kcount := (k.kcount + o.kp) % 65536, kgrp := if k.fmt = 0 then k.kgrp else k.kgrp + o.kp }
  if k.fmt = 0 then
    let f := fun i c => if k.active i c then o.fpCell (originNan core k.kcount) a b i c (k.cell i c) else (k.cell i c, 0)
    (count.setCells (fun i c => (f i c).1), cellFlags fun i c => (f i c).2)
  else
    (count.setCells (fun i c => if k.active i c then o.residue a b i c (k.cell i c) else k.cell i c), 0)

/-! Steps (R193-R195). -/

/-- A plain operand of step j: a register, or the next head of a tile queue. -/
def topSource (f j : Nat) : M Nat :=
  if f < 32 then do return ((← me).vec ((f + j) % 32)).toNat
  else do return (← popQueue (f - 32)).toNat

/-- The A operand of step j (R193). -/
def TopOp.operandA (o : TopOp) (j : Nat) : M Nat := do
  if o.form = 0 then topSource o.a j
  else
    let t ← me
    if o.form = 1 then
      return ((t.vec o.a).toNat + (t.vec ((o.a + 1) % 32)).toNat * 2 ^ 2048) / 2 ^ (o.groupBits * j) % 2 ^ (64 * o.groupBits)
    else return (Tab.get 0 t.tile.latch j).toNat

/-- Step j: it takes its heads, fills the latch and updates the accumulator (R194). -/
def TopOp.step (o : TopOp) (j : Nat) : M Unit := do
  let a ← o.operandA j
  let b ← topSource o.b j
  modify fun s => pipeBegin s s.cur 6
  let t ← me
  let (k, fl) := o.after t.core (o.before (t.acc o.acc) j) a b
  updMe fun t =>
    let t := t.setAcc o.acc k
    let t := if o.form = 2 then t else { t with tile := { t.tile with latch := Tab.set 0 t.tile.latch j (BitVec.ofNat 2048 a) } }
    (t.bump 1 1).setPart { Progress.none with steps := j + 1 }
  raiseTile fl

/-- The last step has been made: STEP becomes 0 and the strand waits for the pipe, past the instruction. -/
def topFinish : M Flow := do
  updMe fun t => { t.setPart Progress.none with tile := { t.tile with op := none } }
  tileIssued 6

/-- Step j of the instruction at the program counter, once its heads are ready (R202). The strand stays parked at the instruction,
where it can be interrupted between steps (R195), until MATRIX_PIPE_STEP makes the next one; the last step ends it. A step that
finds no heads waits for them. One that can get none, or gets poison, traps with STEP kept (R195). -/
def TopOp.enter (o : TopOp) (j : Nat) : M Flow := do
  match ← attempt (o.step j) with
  | .ok _ =>
    if j + 1 < o.cnt then
      updMe fun t => { t with tile := { t.tile with op := some o } }
      throw (.parkAt .tile)
    else topFinish
  | .error (.trap x) =>
    modify fun s => pipeStop s s.cur
    throw (.trapAt x (j != 0))
  | .error _ =>
    updMe fun t => { t with tile := { t.tile with op := some o } }
    throw (.parkAt .tile)

/-- The checks of cause 9 (R188, R194): j is STEP. -/
def TopOp.check (o : TopOp) (j : Nat) : M Unit := do
  let k ← enabledAcc o.acc
  let t ← me
  let v := BitVec.ofNat 64 o.acc
  if k.fmt ≠ o.format then trap 9 1 v
  if o.form = 2 ∧ (t.tile.lcnt < o.cnt ∨ t.tile.lty ≠ o.ty) then trap 9 2 v
  let g := if o.z ∧ j = 0 then 0 else k.kgrp
  if k.fmt ≠ 0 ∧ k.groupLength < g + o.kp * (o.cnt - j) then trap 9 3 v

/-- The vector registers that the steps read must not await a gang's strip (R327). -/
def TopOp.ready (o : TopOp) : M Unit := (List.range o.cnt).forM fun j => do
  if o.form = 0 ∧ o.a < 32 then vecReady ((o.a + j) % 32)
  if o.form = 1 then
    vecReady o.a
    vecReady ((o.a + 1) % 32)
  if o.b < 32 then vecReady ((o.b + j) % 32)

/-- TOP, TOPS and TOPL (R194): the checks, and the step at which the instruction stands. -/
def topOp (o : TopOp) : M Flow := do
  let j := (← me).part.steps
  o.check j
  o.ready
  if j = 0 ∧ o.form ≠ 2 then updMe fun t => { t with tile := { t.tile with lcnt := o.cnt, lty := o.ty } }
  updMe fun t => { t with tile := { t.tile with op := none } }
  o.enter j

/-- TOP (R194): Plain outer-product steps into an accumulator. -/
def execTop (t : BitVec 3) (a : BitVec 6) (b : BitVec 6) (r : BitVec 4) (y : BitVec 3) (n : BitVec 1) (z : BitVec 1) (st : State) : Out :=
  insn
    { word := fx 29#6 t a b r 0#2 y n z, ops := [.data a 3 false, .data b 3 false], classes := 4 }
    (topOp ⟨t.toNat, a.toNat, b.toNat, r.toNat, 0, y.toNat, n = 1, z = 1⟩) st

/-- TOPS (R194): Sliding-window outer-product steps. -/
def execTops (t : BitVec 3) (a : BitVec 6) (b : BitVec 6) (r : BitVec 4) (y : BitVec 3) (n : BitVec 1) (z : BitVec 1) (st : State) : Out :=
  insn
    { word := fx 29#6 t a b r 1#2 y n z, ops := [.reg a, .data b 3 false], classes := 4 }
    (topOp ⟨t.toNat, a.toNat, b.toNat, r.toNat, 1, y.toNat, n = 1, z = 1⟩) st

/-- TOPL (R194): Outer-product steps using the A latch. -/
def execTopl (t : BitVec 3) (b : BitVec 6) (r : BitVec 4) (y : BitVec 3) (n : BitVec 1) (z : BitVec 1) (st : State) : Out :=
  insn
    { word := fx 29#6 t 0#6 b r 2#2 y n z, ops := [.data b 3 false], classes := 4 }
    (topOp ⟨t.toNat, 0, b.toNat, r.toNat, 2, y.toNat, n = 1, z = 1⟩) st

end Sys2Proof.Machine
end

