-- ==== Sys2Proof/Machine/Tfetch.lean ====
section
/-! DEFINITION. The tile fetch unit (R203-R207), and the events of the matrix pipe (R202). -/

namespace Sys2Proof.Machine

/-- A TFETCH (R203, R204): the base address and the descriptor's fields. -/
structure Fetch where
  base : Word
  rstride : Word
  kstride : Word
  cnt : Nat
  groups : Nat
  bytes : Nat
  st : Nat

/-- A descriptor, unless a reserved bit is set (R203). -/
def Fetch.of (base w : Word) : Option Fetch :=
  if w.getLsbD 15 ∨ w.extractLsb' 0 8 ≠ 0 then none
  else
    let rows := if w.getLsbD 19 then 32 else 64
    let ng := (w.extractLsb' 8 7).toNat
    some ⟨base, (w.extractLsb' 40 24).signExtend 64, (w.extractLsb' 24 16).signExtend 64, (w.extractLsb' 20 4).toNat + 1,
      if ng = 0 ∨ rows < ng then rows else ng, if w.getLsbD 18 then 4 else 2, (w.extractLsb' 16 2).toNat⟩

/-- The address of group i of slot s (R204). -/
def Fetch.addr (f : Fetch) (s i : Nat) : Word := f.base + BitVec.ofNat 64 s * f.kstride + BitVec.ofNat 64 i * f.rstride

/-- Where a group comes from, with the faults of steps 1 to 5 of R174. -/
def fetchSource (va : Word) (n : Nat) : M TrainElem := do
  checkAligned va n
  match ← resolve .load va n with
  | .spad _ _ => return ⟨va, 0, 0, 0⟩
  | .window u i j o =>
    let w := ((← get).strand u).window i
    let l ← windowLeaf .load (w.base + BitVec.ofNat 64 (128 * j + o))
    return ⟨va, l.pa, l.bits, 0⟩
  | .mem l => return ⟨va, l.pa, l.bits, 0⟩

/-- Whether a group lies in a line that a lower group of the slot, or a group of an earlier slot of the instruction, touches: the groups
of a line are one request (R242). -/
def Fetch.shares (f : Fetch) (s i : Nat) : Bool :=
  let line := f.addr s i >>> 7
  ((List.range i).any fun k => f.addr s k >>> 7 == line)
    || (List.range s).any fun r => (List.range f.groups).any fun k => f.addr r k >>> 7 == line

/-- The sources of the groups of a slot, after its faults, watermarks and watches. The value holds the number of the TFETCH on its
core and, in bit 0, whether the group shares a request. -/
def Fetch.sources (f : Fetch) (n s : Nat) : M (List TrainElem) := do
  let xs ← (List.range f.groups).mapM fun i => do
    let x ← fetchSource (f.addr s i) f.bytes
    return { x with value := BitVec.ofNat 64 (2 * n + if f.shares s i then 1 else 0) }
  xs.forM fun x => do
    checkChannel x.va f.bytes
    let s ← get
    if trainOverlap s s.cur x.va x.pa f.bytes then throw (.park (.performed 0x10F))
  return xs

/-- The watch of the lowest watched group of a slot (R369). -/
def Fetch.watch (f : Fetch) (s : Nat) : M Unit :=
  (List.range f.groups).forM fun i => checkWatch .load (f.addr s i) f.bytes

/-- The lines that groups read through the first-level cache. -/
def cachedLines (xs : List TrainElem) : List Nat := (xs.filter groupCached).map fun x => x.pa / 128

/-- Allocate slot s and send for its groups (R204). -/
def Fetch.slot (f : Fetch) (q n s : Nat) (check : Bool) : M Unit := do
  let xs ← f.sources n s
  if check then f.watch s
  let (slot, gen) ← allocSlot q ⟨false, false, 0, List.range f.groups⟩
  modify fun s => xs.zipIdx.foldl (init := s) fun s (x, g) =>
    s.post (.tfetchSlotFill s.cur q slot gen g f.bytes f.st x)

/-- Slot j of the TFETCH numbered n has been allocated, and the instruction is in its pipe; ahead says what the other slots will read. -/
def slotTaken (s : State) (j n : Nat) (ahead : List (List Nat)) : State :=
  pipeBegin (s.updMe fun t => t.setPart { Progress.none with slots := j + 1, fetch := n, ahead := ahead }) s.cur 8

/-- The slots from s on, one for each entry of the lines ahead. What stops after a slot has been allocated keeps it, and what the
others will read (R204, R206). -/
def Fetch.slots (f : Fetch) (q n : Nat) (check : Bool) : Nat → List (List Nat) → M Unit
  | _, [] => updMe fun t => t.setPart Progress.none
  | s, _ :: ahead => do
    match ← attempt (f.slot q n s check) with
    | .ok _ =>
      modify fun st => slotTaken st s n ahead
      f.slots q n check (s + 1) ahead
    | .error (.trap x) =>
      modify fun s => pipeStop s s.cur
      throw (.trapAt x (s != 0))
    | .error (.park w) => throw (.parkAt w)
    | .error e => throw e

/-- Whether groups of the TFETCH numbered n of a strand are on their way. -/
def fetchComing (s : State) (u n : Nat) : Bool :=
  s.agenda.any fun e => match e with
    | .tfetchSlotFill v _ _ _ _ _ _ x => v = u && groupFetch x = n
    | _ => false

/-- A TFETCH takes the next number on its core. -/
def nextFetch : M Nat := do
  let s ← get
  let n := (s.core s.me.core).fetches + 1
  set (s.updCore s.me.core fun c => { c with fetches := n })
  return n

/-- TFETCH (R204, R205): at its first issue every group of every slot is checked before any slot is allocated. One that goes on at
another core, or after its strand was saved, is numbered there anew. -/
def tfetchOp (d a b : BitVec 6) : M Flow := do
  let w ← readReg b
  let base ← readReg a
  match Fetch.of base w with
  | none => trap 9 6 w
  | some f =>
    streamReady f.st
    let p := (← me).part
    let n ← if p.slots ≠ 0 ∧ p.fetch ≠ 0 then pure p.fetch else nextFetch
    if p.slots = 0 then
      let ahead ← (List.range f.cnt).mapM fun s => do return cachedLines (← f.sources n s)
      (List.range f.cnt).forM f.watch
      f.slots (d.toNat - 32) n false 0 ahead
    else f.slots (d.toNat - 32) n true p.slots ((List.range (f.cnt - p.slots)).map fun i => p.ahead.getD i [])
    modify fun s => if fetchComing s s.cur n then pipeOpen s s.cur 8 [2, n] else pipeRecords s s.cur 8 false
    return .seq

/-! Fills (R204-R206). -/

/-- A group in a window: an invalid word has its line filled, through the leaf of issue, and poison comes with the data
(R204, R205, R261, R262). -/
def fetchWindow (l : Leaf) (u i j o n : Nat) : M (List Byte × Bool) := do
  let s ← get
  let w := (s.strand u).window i
  if Tab.get 0 w.valid j &&& wordMask o n ≠ wordMask o n then
    if poisonedAt s { l with pa := l.pa / 128 * 128 } 128 then return (List.replicate n 0, true)
    fillFrom u i j false l (w.base + BitVec.ofNat 64 (128 * j + o))
  return (allotBytes ((← get).strand u) (128 * (w.offset + j) + o) n, false)

/-- Read a group: a window's words, the scratchpad, or memory through the leaf of issue; pin says that a first-level copy has to
stay. -/
def fetchGroup (x : TrainElem) (n : Nat) (pin : Bool) : M (List Byte × Bool) := do
  let s ← get
  let l : Leaf := ⟨x.leaf, x.pa, 0, 1⟩
  let stored := fun (u i j o : Nat) => fetchWindow l u i j o n
  match apertureOffset x.va with
  | some o =>
    let a := s.strand (s.allotOwner s.cur)
    match windowAt a o with
    | some (i, j, b) => stored (s.allotOwner s.cur) i j b
    | none => return (allotBytes a o n, a.spoiledAt o n)
  | none =>
    match (if s.me.firmware then none else windowOver s s.me.core s.me.ctx x.va) with
    | some (u, i, j, o) => stored u i j o
    | none => memRead l x.va n 0 (groupAgain x) pin

/-- The pins that earlier TFETCH instructions of a core have still to take: the lines of their groups that are left to read, of their
allocated slots or of those that they have not reached, without a pin (R206). -/
def pinsAhead (s : State) (core fetch : Nat) : List (Nat × Nat) :=
  let mine := (s.strands.filter fun p => p.2.core = core && p.2.run.holdsSlot).map Prod.fst
  let flying := s.agenda.filterMap fun e => match e with
    | .tfetchSlotFill v _ _ _ _ _ _ y =>
      if mine.contains v && groupCached y && decide (groupFetch y < fetch) then some (y.pa / 128, groupFetch y) else none
    | _ => none
  let coming := mine.flatMap fun v => (s.strand v).parts.flatMap fun p =>
    if p.2.fetch ≠ 0 ∧ p.2.fetch < fetch then (p.2.ahead.flatMap fun ls => ls).map fun l => (l, p.2.fetch) else []
  (flying ++ coming).eraseDups.filter fun p => !(s.livePins core).contains p

/-- A fill may use a pin: it has one, or one is free beside those that earlier TFETCH instructions of the core have still to take, so
that no fill waits on the pins of a later one (R206; DESIGN CHOICE, log entry 93). -/
def mayPin (s : State) (u : Nat) (x : TrainElem) : Bool :=
  let core := (s.strand u).core
  let pins := s.livePins core
  !groupCached x || pins.contains (x.pa / 128, groupFetch x)
    || decide (pins.length + (pinsAhead s core (groupFetch x)).length < 128)

/-- Pin a line that the core holds while groups of the TFETCH in it are left to read, and release it afterwards (R206). -/
def pinLine (s : State) (u : Nat) (x : TrainElem) : State :=
  let core := (s.strand u).core
  let me := (x.pa / 128, groupFetch x)
  if !groupCached x then s
  else
    let pins := (s.livePins core).filter (· != me)
    let pins := if groupsLeft s u (groupFetch x) me.1 && (s.copyIn core me.1).isSome && decide (pins.length < 128) then pins ++ [me] else pins
    s.updCore core fun c => { c with pins := pins }

/-- A group arrives in its slot (R143, R204). -/
def Slot.arrive (x : Slot) (g n : Nat) (bs : List Byte) (poison : Bool) : Slot :=
  let pend := x.pend.filter (· != g)
  ⟨pend.isEmpty, x.poison || poison, x.val ||| (leWord 2048 bs <<< (8 * n * g)), pend⟩

/-- A group of a slot is read and arrives; a slot that is gone takes none (R148, R204, R206). -/
def groupFill (s : State) (u q slot gen g n : Nat) (x : TrainElem) : State :=
  match (s.queue u q).place slot gen with
  | none => pinLine s u x
  | some i =>
    match runAs s u (fetchGroup x n (groupsLeft s u (groupFetch x) (x.pa / 128))) with
    | none => s
    | some ((bs, poison), s) =>
      pinLine (s.updQueue u q fun k => k.updSlot i fun y => y.arrive g n bs poison) u x

/-- TFETCH_SLOT_FILL: a group arrives, and the last one of its TFETCH ends it in its pipe (R204, R410). -/
def tfetchFill (s : State) (u q slot gen g n : Nat) (x : TrainElem) : State :=
  let s := groupFill s u q slot gen g n x
  if fetchComing s u (groupFetch x) then s else pipeClose s u [2, groupFetch x]

/-! The matrix pipe (R202). -/

/-- What a step finds at the nth slot from the head of a queue. -/
inductive Head where
  | ready
  | wait
  /-- poison, or an empty queue that nothing can fill any more (R140, R143) -/
  | stop
  deriving DecidableEq, Repr

/-- The nth head of a queue of a strand. -/
def headAt (s : State) (u q n : Nat) : Head :=
  match (s.queue u q).slots[n]? with
  | some x => if x.ready then (if x.poison then .stop else .ready) else .wait
  | none => if (s.queue u q).slots.length = n ∧ partnerGone s u then .stop else .wait

/-- What the next step of a TOP-family instruction finds, field a before field b. -/
def TopOp.heads (o : TopOp) (s : State) (u : Nat) : Head :=
  let fromA := o.form = 0 ∧ 32 ≤ o.a
  let x := if fromA then headAt s u (o.a - 32) 0 else .ready
  if x = .ready ∧ 32 ≤ o.b then headAt s u (o.b - 32) (if fromA ∧ o.a = o.b then 1 else 0) else x

/-- The instruction of a strand that is parked on its heads. -/
def waitingTop (s : State) (u : Nat) : Option TopOp :=
  if (s.strand u).run = .parked .tile then (s.strand u).tile.op else none

/-- MATRIX_PIPE_STEP: the step whose heads are ready is made; after the last one the strand is past the instruction and
waits for the pipe. -/
def matrixStep (s : State) (u : Nat) : State :=
  match waitingTop s u with
  | none => s
  | some o =>
    if o.heads s u ≠ .ready then s
    else match runAs s u (o.step (s.strand u).part.steps) with
      | none => s
      | some (_, s') =>
        if (s'.strand u).part.steps < o.cnt then s'
        else match runAs s' u topFinish with
          | some (_, s') => if (s'.strand u).firmware then s' else countIssued s' u 4
          | none => s'

/-- TILE_OP_COMPLETE: a strand whose tile operation has made its last step is Ready again (R201). -/
def tileComplete (s : State) (u : Nat) : State :=
  if (s.strand u).run = .parked .tile ∧ (s.strand u).tile.op = none then wake s u else s

/-- TFETCH (R204): Checks then fetches step operands from memory into tile-queue slots. -/
def execTfetch (d : BitVec 6) (a : BitVec 6) (b : BitVec 6) (st : State) : Out :=
  insn
    { word := fr 28#6 d a b 10#5 0#2 0#1, ops := [.queue d [3] (some true), .reg a, .reg b], bar := true, classes := 4, xfields := [a.toNat, b.toNat] }
    (tfetchOp d a b) st

/-- TFETCH_SLOT_FILL (R204): A tile-fetch slot is filled from memory with pinned lines. -/
def execTfetchSlotFill (u q slot gen g n _st : Nat) (src : TrainElem) (s0 : State) : Out :=
  .next (tfetchFill s0 u q slot gen g n src)

/-- MATRIX_PIPE_STEP (R202): A ready outer-product step enters the matrix pipe. -/
def execMatrixPipeStep (u : Nat) (s0 : State) : Out :=
  .next (matrixStep s0 u)

/-- TILE_OP_COMPLETE (R202): A tile operation completes after its last step. -/
def execTileOpComplete (u : Nat) (s0 : State) : Out :=
  .next (tileComplete s0 u)

end Sys2Proof.Machine
end

