-- ==== Sys2Proof/Machine/Keccak.lean ====
section
/-! DEFINITION. SHAKE256, which the check code of a ticket names (R273; its definition is FIPS 202's, PRESUMED, log entry 10).

The sponge is one vector of 1600 bits: five rows of 320 bits, a row being five lanes of 64 bits, lane (x, y) at bit 64 x of row y.
A row is worked on whole, so that no step goes lane by lane but the one that moves the lanes about. -/

namespace Sys2Proof.Keccak

/-- The whole sponge. -/
abbrev Sponge := BitVec 1600

/-- Five lanes that share y. -/
abbrev Row := BitVec 320

/-- Row y of the sponge. -/
def row (s : Sponge) (y : Nat) : Row := s.extractLsb' (320 * y) 320

/-- A sponge whose row y is r y. -/
def stack (r : Nat → Row) : Sponge := (r 4 ++ r 3 ++ r 2 ++ r 1 ++ r 0).cast (by decide)

/-- Bit 0 of every lane of a row. -/
def unitBits : Row := 0x00000000000000010000000000000001000000000000000100000000000000010000000000000001

/-- Every lane of a row turned left by one bit. -/
def twist (r : Row) : Row := ((r &&& ~~~(unitBits <<< 63)) <<< 1) ||| ((r >>> 63) &&& unitBits)

/-- Mix the columns: each lane takes in the parity of the column below it in x and, turned by one bit, of the column above. -/
def mixColumns (s : Sponge) : Sponge :=
  let sum := row s 0 ^^^ row s 1 ^^^ row s 2 ^^^ row s 3 ^^^ row s 4
  let d := sum.rotateLeft 64 ^^^ twist (sum.rotateRight 64)
  stack fun y => row s y ^^^ d

/-- Move the lanes: from (x, y), step k of the walk turns the lane it stands on left by k (k + 1) / 2 bits and puts it at (y, 2 x + 3 y), where it goes on. -/
def moveLanes (s : Sponge) (acc : Sponge) (x y k : Nat) : Nat → Sponge
  | 0 => acc
  | n + 1 =>
    let dest := (2 * x + 3 * y) % 5
    let moved := (s.extractLsb' (320 * y + 64 * x) 64).rotateLeft (k * (k + 1) / 2 % 64)
    moveLanes s (acc ||| (moved.setWidth 1600 <<< (320 * dest + 64 * y))) y dest (k + 1) n

/-- The nonlinear step, on one row. -/
def bend (r : Row) : Row := r ^^^ (~~~(r.rotateRight 64) &&& r.rotateRight 128)

/-- The seven bits of each of the 24 rounds, as the shift register of the standard gives them in order. -/
def roundBits : BitVec 168 := 0xe886c79cc5a452a7767bf4cd460eabe509fe178d01

/-- What round t adds to lane (0, 0): bit j of its seven stands at bit 2 ^ j - 1. -/
def roundWord (t : Nat) : Sponge :=
  [0, 1, 2, 3, 4, 5, 6].foldl (init := 0) fun w j =>
    if roundBits.getLsbD (7 * t + j) then w ||| (1#1600 <<< (2 ^ j - 1)) else w

/-- Round t. -/
def round (s : Sponge) (t : Nat) : Sponge :=
  let m := mixColumns s
  let v := moveLanes m (m &&& 0xFFFFFFFFFFFFFFFF#1600) 1 0 1 24
  stack (fun y => bend (row v y)) ^^^ roundWord t

/-- The permutation: 24 rounds. -/
def permute (s : Sponge) : Sponge := (List.range 24).foldl round s

/-- Bytes, the first in the low bits, as one number. -/
def leNumber : List Byte → Nat
  | [] => 0
  | b :: bs => b.toNat + 256 * leNumber bs

/-- The message as one number with the suffix 1F after its last byte and the last bit of its last block set, cut into blocks of 1088 bits: take in n of them. -/
def takeIn (s : Sponge) (message : Nat) : Nat → Sponge
  | 0 => s
  | n + 1 => takeIn (permute (s ^^^ BitVec.ofNat 1600 (message % 2 ^ 1088))) (message / 2 ^ 1088) n

/-- The sponge after the message bs; its low 1088 bits are the first of the output. -/
def shake256 (bs : List Byte) : Sponge :=
  let blocks := bs.length / 136 + 1
  takeIn 0 (leNumber bs ||| 0x1F <<< (8 * bs.length) ||| 1 <<< (1088 * blocks - 1)) blocks

/-- The first lane of SHAKE256 of a message. -/
def shake256Lane (bs : List Byte) : Word := (shake256 bs).setWidth 64

/-- The first 256 bits of SHAKE256 of a message. -/
def shake256Digest (bs : List Byte) : BitVec 256 := (shake256 bs).setWidth 256

end Sys2Proof.Keccak
end

