-- ==== Sys2Proof/Machine/Tkt.lean ====
section
/-! DEFINITION. Load tickets (R272-R289). -/

namespace Sys2Proof.Machine

/-! The ticket (R272, R273). -/

/-- A ticket without its check code. -/
def ticketBase (slice entry gen ctx : Nat) : Nat :=
  slice % 128 * 2 ^ 57 + entry % 2 ^ 16 * 2 ^ 41 + gen % 2 ^ 16 * 2 ^ 25 + ctx % 2 ^ 12 * 2 ^ 13

/-- The check code of a ticket under a context's key (DEDUCED, log entry 47). -/
def ticketCheck (key : BitVec 256) (t : Nat) : Nat :=
  (Keccak.shake256Lane (leBytes 32 key.toNat ++ leBytes 8 (t / 2 ^ 13 * 2 ^ 13))).toNat % 2 ^ 13

/-- The global slice number, die times 32 plus slice, of a ticket. -/
def tkSlice (t : Word) : Nat := (t.extractLsb' 57 7).toNat
/-- ENTRY. -/
def tkEntry (t : Word) : Nat := (t.extractLsb' 41 16).toNat
/-- GEN. -/
def tkGen (t : Word) : Nat := (t.extractLsb' 25 16).toNat
/-- CTX. -/
def tkCtx (t : Word) : Nat := (t.extractLsb' 13 12).toNat

/-! Booths (R274, R275). -/

/-- A booth entry, by global slice and entry number. -/
def State.booth (s : State) (slice entry : Nat) : Booth :=
  Tab.get Booth.blank (s.die (slice / 32)).booths (slice % 32 * 2048 + entry)

/-- The state with a booth entry replaced. -/
def State.setBooth (s : State) (slice entry : Nat) (b : Booth) : State :=
  s.updDie (slice / 32) fun k => { k with booths := Tab.set Booth.blank k.booths (slice % 32 * 2048 + entry) b }

/-- An entry that can be allocated after a release. -/
def BoothState.released : BoothState → Bool
  | .redeemed => true
  | .expired => true
  | .dropped => true
  | _ => false

/-- The entry that allocation takes: a Free one, else the one released longest ago (R275). -/
def allocatable (s : State) (slice : Nat) : Option Nat :=
  match (List.range 2048).find? fun e => (s.booth slice e).st = .free with
  | some e => some e
  | none => ((List.range 2048).foldl (init := (none : Option (Nat × Nat))) fun best e =>
      let b := s.booth slice e
      if b.st.released then
        match best with
        | some (_, r) => if b.released < r then some (e, b.released) else best
        | none => some (e, b.released)
      else best).map Prod.fst

/-- The strand whose quota a strand's tickets are charged to (R276) (DEDUCED, log entry 78). -/
def ticketOwner (s : State) (u : Nat) : Nat := s.familyRoot u

/-- One ticket fewer outstanding for its issuer (R276). -/
def ticketBack (s : State) (issuer : Nat) : State :=
  s.updStrand (ticketOwner s issuer) fun t => { t with tickets := t.tickets - 1 }

/-! The read point (R279-R281). -/

/-- The value that a ticket captures at the home: an owner of a tracked line is downgraded first (R281). The issuing core keeps no
untracked copy from before the read point, which a later load could still return (R342). -/
def capture (s : State) (b : Booth) : BitVec 1024 × Bool × State :=
  let l : Leaf := ⟨b.leaf, b.pa, 0, 1⟩
  let line := b.pa / 128
  if poisonedAt s l b.size then (0, true, nextRequest s (asker s b.core l))
  else
    let before := s.line line
    let owners := if before.code = 2 then before.sharers else []
    let s := owners.foldl (init := s) fun s a => takeBack s a line false
    let s := if owners.isEmpty then s else s.updLine line fun k => { k with code := 1 }
    let s := touchRead s b.pa b.ctx b.va l.counterEnable
    let s := if owners.isEmpty then s else homeRecords s b.issuer line before false 0
    let s := nextRequest (if l.cls ≤ 1 then dropUntracked s b.core line else s) (asker s b.core l)
    (leWord 1024 (decrypted s l (homeRead s b.pa b.size)), false, s)

/-- BOOTH_FILL: the read point of a Pending entry, or of one that a redeem has claimed. The read of an entry that has expired or been
dropped is made all the same, and its data discarded (R279, R286, R287). The event is kind 3 of the replay log (R415)
(DEDUCED, log entry 79). -/
def boothFill (s : State) (slice entry : Nat) : State :=
  let b := s.booth slice entry
  if b.arrived ∨ b.st = .free then s
  else
    let die := slice / 32
    let e := Instr.boothFill slice entry
    if b.st.released then
      let (_, _, s) := capture (dropHold s die e) b
      s.setBooth slice entry { b with arrived := true }
    else
      let g := replayGate s b.issuer die 3 (holdExpired s die e)
      let (d, poison, s) := capture (dropHold s die e) b
      let s := replayDone s b.issuer die 3 g
      s.setBooth slice entry { b with
        st := if b.st = .pending then .ready else b.st
        data := d, poison := poison, arrived := true }

/-- The read of an entry that was released before it arrived is over before the entry is taken again. -/
def endRead (s : State) (slice entry : Nat) : State :=
  if (s.booth slice entry).st.released && !(s.booth slice entry).arrived then
    let s := boothFill s slice entry
    { s with agenda := s.agenda.erase (.boothFill slice entry) }
  else s

/-- Allocate an entry for a request: its ticket, and the state with the entry Pending and its read on the way (R278). -/
def allocateEntry (s : State) (slice entry : Nat) (b : Booth) : Word × State :=
  let s := endRead s slice entry
  let gen := if (s.booth slice entry).gen + 1 < 65536 then (s.booth slice entry).gen + 1 else 1
  let base := ticketBase slice entry gen b.ctx
  let s := s.setBooth slice entry { b with st := .pending, gen := gen, time := s.time }
  let s := s.updStrand (ticketOwner s b.issuer) fun t => { t with tickets := t.tickets + 1 }
  (BitVec.ofNat 64 (base + ticketCheck (s.context b.ctx).ticketKey base), s.post (.boothFill slice entry))

/-! Issuing (R278). -/

/-- The request of a ticketed load of n bytes, after its faults. What lies above a watermark waits at the read point (R324). -/
def ticketRequest (va : Word) (n : Nat) (line z : Bool) (st : Nat) : M Booth := do
  if (apertureOffset va).isSome then trap 10 7 va
  checkAligned va n
  let s ← get
  let t := s.me
  let l ← leafFor .load va
  streamReady st
  checkWatch .load va n
  let s' ← get
  if trainOverlap s' s'.cur va l.pa n then throw (.park (.performed 0x10F))
  set ((windowLines s' t.core (l.pa / 128)).foldl (init := s') fun s (u, i, j) => writeBackWindow s u i j false)
  return { Booth.blank with
    ctx := t.ctx, line := line, size := n, z := z, issuer := s.cur, core := t.core, va := va, pa := l.pa, firmware := t.firmware,
    stream := st, leaf := l.bits }

/-- A request that has waited goes out under the translation of its address now: no translation that a shootdown has removed is used
(R216). -/
def refreshRequest (s : State) (b : Booth) : Except Trap Booth :=
  match walk s b.firmware b.ctx b.va with
  | .error t => .error t
  | .ok l => match checkLeaf .load l b.va with
    | some t => .error t
    | none => .ok { b with pa := l.pa, leaf := l.bits }

/-- The global slice number of the home of a physical address (R232). -/
def sliceOf (pa : Nat) : Nat := homeDie pa * 32 + homeSlice pa

/-- Whether a request at a slice is one of a strand that still waits for it. -/
def boothAsks (s : State) (slice : Nat) (w : Nat × Nat × Booth) : Bool :=
  w.1 = slice && (s.strand w.2.2.issuer).run = .parked (.booth slice)

/-- BOOTH_WAIT_ALLOCATE: the request that has waited longest at a booth takes a released entry; its TKLDW completes, or takes the
fault of its translation now. -/
def boothWaitAllocate (s : State) (slice : Nat) : State :=
  match (s.die (slice / 32)).boothWaits.find? (boothAsks s slice), allocatable s slice with
  | some (_, d, b), some e =>
    let s := s.updDie (slice / 32) fun k => { k with boothWaits := k.boothWaits.erase (slice, d, b) }
    match refreshRequest s b with
    | .error x => takeTrap (wake (s.updStrand b.issuer fun t => t.setPart Progress.none) b.issuer) b.issuer x false false
    | .ok b' =>
      if sliceOf b'.pa ≠ slice then wake s b.issuer
      else
        let (tk, s) := allocateEntry s slice e b'
        let s := wake (s.updStrand b.issuer fun t => { (t.setPart Progress.none).setReg d tk with pc := t.pc + 4 }) b.issuer
        if (s.strand b.issuer).firmware then s else countIssued s b.issuer 7
  | _, _ => s

/-- The requests that wait at a booth take the entries that have been released, before a request that comes now (R278). -/
def serveBooth (s : State) (slice : Nat) : State :=
  ((s.die (slice / 32)).boothWaits.filter fun w => w.1 = slice).foldl (init := s) fun s _ => boothWaitAllocate s slice

/-- The part of TKLD, TKLDW and TKLDV after the faults (R278): the quota, then an entry at the booth. -/
def requestEntry (d : BitVec 6) (b : Booth) (wait : Bool) : M Flow := do
  let s ← get
  let o := s.strand (ticketOwner s s.cur)
  let kept := fun (t : Strand) => t.setPart { Progress.none with request := some b }
  if o.ticketQuota ≤ o.tickets then
    if wait then
      updMe kept
      throw (.parkAt .quota)
    writeReg d 0
  else
    let slice := sliceOf b.pa
    let s := serveBooth s slice
    match allocatable s slice with
    | some e =>
      let (tk, s) := allocateEntry s slice e b
      set s
      updMe fun t => t.setPart Progress.none
      writeReg d tk
    | none =>
      set s
      if wait then
        modify fun s => s.updDie (slice / 32) fun k => { k with boothWaits := k.boothWaits ++ [(slice, d.toNat, b)] }
        updMe kept
        throw (.parkAt (.booth slice))
      writeReg d 0
  return .seq

/-- TKLD, TKLDW and TKLDV (R278): wait says whether the form waits for quota and for a full booth. A TKLDW that has waited goes on
from its quota check. -/
def tkldOp (d a : BitVec 6) (n : Nat) (line z : Bool) (st : BitVec 2) (wait : Bool) : M Flow := do
  match (← me).part.request with
  | some b =>
    match refreshRequest (← get) b with
    | .error x =>
      updMe fun t => t.setPart Progress.none
      throw (.trapAt x false)
    | .ok b => requestEntry d b wait
  | none => requestEntry d (← ticketRequest (← readReg a) n line z st.toNat) wait

/-- The size of a ticketed load (R277, R278). -/
def tkSize (t : BitVec 2) : Nat := if t = 0 then 4 else if t = 1 then 2 else if t = 2 then 1 else 8

/-! Expiry (R287, R288). -/

/-- Whether an entry has outlived its context's ticket lifetime: in the nanosecond in which it ends a redeem is still accepted (R287,
R288). -/
def boothExpired (s : State) (b : Booth) : Bool :=
  (b.st = .pending || b.st = .ready) && decide (b.time + (s.context b.ctx).lifetime < s.time)

/-- TICKET_EXPIRY (R287). A booth makes it before it looks at a claim, a test or a drop, so that none finds an entry that is over its
time. -/
def ticketExpiry (s : State) (slice entry : Nat) : State :=
  let b := s.booth slice entry
  if boothExpired s b then
    let s := s.setBooth slice entry { b with st := .expired, released := s.tick, data := 0 }
    ticketBack (s.updContext b.ctx fun c => { c with orphans := c.orphans + 1 }) b.issuer
  else s

/-! Redeeming (R282-R285). -/

/-- The local checks of a ticket on a core (R282): the sub-cause of the first that fails. -/
def ticketLocal (s : State) (ctx : Nat) (tk : Word) : Option Nat :=
  if tk = 0 then some 0
  else if tkCtx tk ≠ ctx then some 1
  else if 2047 < tkEntry tk ∨ tk.toNat % 2 ^ 13 ≠ ticketCheck (s.context ctx).ticketKey tk.toNat then some 2
  else none

/-- Whether strand u has claimed an entry for a TKRDQ that waits for its queue slot. -/
def Booth.heldBy (b : Booth) (u : Nat) : Bool := b.st = .claimed && b.claimer = u && b.dest.isNone

/-- The booth's answer to a claim of strand u (R282, R285): the sub-cause of a rejection. kind is 0 TKRD, 1 TKRDV, 2 TKRDQ
into a scalar queue, 3 TKRDQ into a vector queue. -/
def claimRejected (b : Booth) (tk : Word) (kind u : Nat) : Option Nat :=
  if b.gen ≠ tkGen tk ∨ b.ctx ≠ tkCtx tk then some 5
  else match b.st with
    | .redeemed => some 3
    | .claimed => if b.heldBy u then none else some 3
    | .expired => some 4
    | .dropped => some 5
    | .free => some 5
    | _ => if b.line != (kind = 1 ∨ kind = 3) then some 6 else none

/-- The value that a delivery writes: a scalar by its width and Z, or the line (R282). -/
def Booth.value (b : Booth) : Vec :=
  if b.line then b.data.setWidth 2048
  else
    let x := b.data.setWidth 64
    (if b.z ∨ b.size = 8 then x else (BitVec.ofNat (8 * b.size) x.toNat).signExtend 64).setWidth 2048

/-- The entry is delivered: Redeemed, and its issuer has one ticket fewer (R276, R282). -/
def redeemEntry (s : State) (slice entry : Nat) : State :=
  let b := s.booth slice entry
  ticketBack (s.setBooth slice entry { b with st := .redeemed, released := s.tick, data := 0 }) b.issuer

/-- A landing slot of a core is released (R283). -/
def releaseLanding (s : State) (core u : Nat) : State := s.updCore core fun c => { c with landing := c.landing.erase u }

/-- Write what TKRD or TKRDV delivers; TKRDV counts as a vector instruction (R413). -/
def Strand.deliver (t : Strand) (kind d : Nat) (v : Vec) : Strand :=
  if kind = 1 then { (t.setVec d v 256).bump 0 1 with vstart := 0 } else t.setReg d (v.setWidth 64)

/-- A claim is taken back: the entry returns to the state before it, and the landing slot is released (R289). -/
def unclaim (s : State) (slice entry core : Nat) : State :=
  let b := s.booth slice entry
  let s := s.setBooth slice entry { b with st := if b.arrived then .ready else .pending, claimer := 0 }
  releaseLanding s core b.claimer

/-- The claim of a redeem that holds a landing slot (R282). A Ready entry is delivered at once; else the strand waits for
delivery, or for TKRDQ its slot does. -/
def claimTicket (tk : Word) (kind d : Nat) : M Flow := do
  modify fun s => ticketExpiry s (tkSlice tk) (tkEntry tk)
  let s ← get
  let u := s.cur
  let b := s.booth (tkSlice tk) (tkEntry tk)
  match claimRejected b tk kind u with
  | some n => trap 10 n tk
  | none =>
    let entry := { b with st := BoothState.claimed, claimer := u }
    if kind ≤ 1 then
      if b.arrived then
        let s := redeemEntry s (tkSlice tk) (tkEntry tk)
        set s
        if b.poison then throw (.trapAt ⟨11, 0, b.va⟩ false)
        updMe fun t => t.deliver kind d b.value
        if kind = 1 then modify fun s => pipeRecords s u 9 false
        return .seq
      else
        set ((s.setBooth (tkSlice tk) (tkEntry tk) entry).updCore s.me.core fun c => { c with landing := c.landing ++ [u] })
        throw (.parkAt (.ticket tk kind d))
    else
      let held := if b.heldBy u then s
        else (s.setBooth (tkSlice tk) (tkEntry tk) entry).updCore s.me.core fun c => { c with landing := c.landing ++ [u] }
      set held
      match ← attempt (allocSlot d ⟨false, false, 0, []⟩) with
      | .ok (slot, gen) =>
        modify fun s => s.setBooth (tkSlice tk) (tkEntry tk) { entry with dest := some (d, slot, gen) }
        return .seq
      | .error (.park w) => throw (.parkAt w)
      | .error (.trap x) =>
        set (unclaim held (tkSlice tk) (tkEntry tk) s.me.core)
        throw (.trapAt x false)
      | .error e => throw e

/-- The redeems that wait for a landing slot of a core, first come first (R283). -/
def landQueue (s : State) (core : Nat) : List Nat :=
  (s.core core).landers.filter fun u => (s.strand u).core = core && (match (s.strand u).run with
    | .parked (.landing _ _ _) => true
    | _ => false)

/-- The booth's die is fenced: the ticket can never be redeemed (R282, R284). A claim that waits for its queue slot is taken back. -/
def fencedTicket (tk : Word) : M Unit := do
  let s ← get
  if (s.die (tkSlice tk / 32)).fenced then
    if (s.booth (tkSlice tk) (tkEntry tk)).heldBy s.cur then set (unclaim s (tkSlice tk) (tkEntry tk) s.me.core)
    throw (.trapAt ⟨11, 0, tk⟩ false)

/-- TKRD, TKRDV and TKRDQ (R282): the local checks, then the claim once a landing slot is free. -/
def redeemOp (a : BitVec 6) (kind d : Nat) : M Flow := do
  let tk ← readReg a
  let s ← get
  let t := s.me
  match ticketLocal s t.ctx tk with
  | some n => trap 10 n tk
  | none =>
    fencedTicket tk
    let kind := if kind = 2 ∧ (s.queue s.cur d).kind = 2 then 3 else kind
    if !(s.booth (tkSlice tk) (tkEntry tk)).heldBy s.cur ∧ (128 ≤ (s.core t.core).landing.length ∨ !(landQueue s t.core).isEmpty) then
      set (s.updCore t.core fun c => { c with landers := (c.landers.filter (· != s.cur)) ++ [s.cur] })
      throw (.parkAt (.landing tk kind d))
    claimTicket tk kind d

/-- BOOTH_CLAIM: the claim of the redeem that has waited longest for a landing slot (R282, R283). -/
def boothClaim (s : State) (u : Nat) : State :=
  match (s.strand u).run with
  | .parked (.landing tk kind d) =>
    if 128 ≤ (s.core (s.strand u).core).landing.length ∨ (landQueue s (s.strand u).core).head? ≠ some u then s
    else
      let s := (wake s u).updCore (s.strand u).core fun c => { c with landers := c.landers.filter (· != u) }
      match (do
        fencedTicket tk
        claimTicket tk kind d) { s with cur := u } with
      | .ok _ s =>
        let s := s.updStrand u fun t => { t with pc := t.pc + 4 }
        if (s.strand u).firmware then s else countIssued s u 7
      | .error (.trap x) _ => takeTrap s u x false false
      | .error (.trapAt x part) s' => takeTrap s' u x false part
      | .error (.park w) _ => park s u w
      | .error (.parkAt w) s' => park s' u w
  | _ => s

/-- Whether a strand is parked on a ticket that it has claimed. -/
def Strand.onTicket (t : Strand) : Bool := match t.run with
  | .parked (.ticket _ _ _) => true
  | _ => false

/-- The entries that strand u has claimed and whose data has arrived, or can never arrive from a fenced die, as global slice and
entry. -/
def deliverable (s : State) (u : Nat) : List (Nat × Nat) :=
  (List.range 4).flatMap fun d => (s.die d).booths.filterMap fun (k, b) =>
    if b.st = .claimed ∧ b.claimer = u ∧ (b.arrived ∨ (s.die d).fenced) ∧ (b.dest.isSome ∨ (s.strand u).onTicket) then some (d * 32 + k / 2048, k % 2048) else none

/-- TICKET_DELIVERY: the data of a claimed entry goes to its register or its queue slot (R282, R284). A slot that TKRDQ has allocated
from a booth whose die is fenced since then is filled with poison (DESIGN CHOICE, log entry 111). -/
def ticketDelivery (s : State) (u : Nat) : State :=
  match deliverable s u with
  | [] => s
  | (slice, entry) :: _ =>
    let lost := (s.die (slice / 32)).fenced
    let b := { s.booth slice entry with poison := (s.booth slice entry).poison || lost }
    let s := releaseLanding (redeemEntry s slice entry) (s.strand u).core u
    match b.dest with
    | some (q, slot, gen) =>
      match (s.queue u q).place slot gen with
      | some i => s.updQueue u q fun k => k.updSlot i fun _ => ⟨true, b.poison, b.value, []⟩
      | none => s
    | none =>
      match (s.strand u).run with
      | .parked (.ticket tk kind d) =>
        let s := wake s u
        if lost then takeTrap s u ⟨11, 0, tk⟩ false false
        else if b.poison then takeTrap s u ⟨11, 0, b.va⟩ false false
        else
          let s := s.updStrand u fun t => t.deliver kind d b.value
          let s := if kind = 1 then pipeRecords s u 9 false else s
          let s := s.updStrand u fun t => { t with pc := t.pc + 4 }
          if (s.strand u).firmware then s else countIssued s u 7
      | _ => s

/-- The entries that a strand has claimed for redeems that are not past their instruction, as global slice and entry. -/
def claimedBy (s : State) (u : Nat) : List (Nat × Nat) :=
  (List.range 4).flatMap fun d => (s.die d).booths.filterMap fun (k, b) =>
    if b.heldBy u then some (d * 32 + k / 2048, k % 2048) else none

/-- TICKET_WITHDRAWAL: a redeem that waits is withdrawn when its strand leaves its core: its entry returns to the state before
the claim, and the strand is at the redeem again (R289). -/
def ticketWithdrawal (s : State) (u : Nat) : State :=
  let s := (claimedBy s u).foldl (init := s) fun s e => unclaim s e.1 e.2 (s.strand u).core
  match (s.strand u).run with
  | .parked (.ticket _ _ _) => wake s u
  | _ => s

/-! Testing, dropping and expiry (R286, R287). -/

/-- The entry of a ticket that passes the local checks and whose generation and context match. R286 names these checks for TKTEST alone:
TKDROP makes them too, and answers 0 where one fails (DESIGN CHOICE, log entry 111). -/
def liveEntry (s : State) (tk : Word) : Option Booth :=
  let b := s.booth (tkSlice tk) (tkEntry tk)
  if (ticketLocal s s.me.ctx tk).isSome ∨ (s.die (tkSlice tk / 32)).fenced ∨ b.gen ≠ tkGen tk ∨ b.ctx ≠ tkCtx tk then none
  else some b

/-- What TKTEST answers for an entry. -/
def Booth.test (b : Booth) : Word :=
  match b.st with
  | .pending => 1
  | .ready => if b.poison then 3 else 2
  | .claimed => 4
  | _ => 0

/-- TKTEST (R286). -/
def tktestOp (d a : BitVec 6) : M Flow := do
  let tk ← readReg a
  let s ← get
  writeReg d (match liveEntry (ticketExpiry s (tkSlice tk) (tkEntry tk)) tk with
    | some b => b.test
    | none => 0)
  return .seq

/-- TKDROP (R286). -/
def tkdropOp (d a : BitVec 6) : M Flow := do
  let tk ← readReg a
  modify fun s => if (ticketLocal s s.me.ctx tk).isSome then s else ticketExpiry s (tkSlice tk) (tkEntry tk)
  let s ← get
  match liveEntry s tk with
  | some b =>
    if b.st = .pending ∨ b.st = .ready then
      set (ticketBack (s.setBooth (tkSlice tk) (tkEntry tk) { b with st := .dropped, released := s.tick, data := 0 }) b.issuer)
      writeReg d 1
    else writeReg d 0
  | none => writeReg d 0
  return .seq

/-- The vector load that a slot's value belongs to is over: its strand is the queue's owner or the execute strand of its couple
(R410). -/
def loadOver (s : State) (u q slot gen : Nat) : State :=
  let s := pipeClose s u (slotKey u q slot gen)
  if (s.strand u).coupled then pipeClose s (s.strand u).partner (slotKey u q slot gen) else s

/-- QUEUE_FILL_ARRIVAL: a value arrives in its slot (R137, R143); a slot that is gone takes none (R148). -/
def queueFill (s : State) (u q slot gen : Nat) (v : Vec) (poison : Bool) : State :=
  let s := loadOver s u q slot gen
  match (s.queue u q).place slot gen with
  | some i =>
    let k := s.queue u q
    s.updQueue u q fun k' => k'.updSlot i fun _ => ⟨true, poison, if k.kind = 4 then (if v = 0 then 0 else 1) else v, []⟩
  | none => s

/-- TKLD (R278): Issues a ticketed scalar load, or returns the null ticket. -/
def execTkld (d : BitVec 6) (a : BitVec 6) (s : BitVec 2) (t : BitVec 2) (z : BitVec 1) (st : State) : Out :=
  insn
    { word := fr 31#6 d a (0#4 ++ s) 0#5 t z, ops := [.reg d, .reg a], bar := true }
    (tkldOp d a (tkSize t) false (z = 1) s false) st

/-- TKLDW (R278): Issues a ticketed scalar load, waiting for quota or booth space. -/
def execTkldw (d : BitVec 6) (a : BitVec 6) (s : BitVec 2) (t : BitVec 2) (z : BitVec 1) (st : State) : Out :=
  insn
    { word := fr 31#6 d a (0#4 ++ s) 1#5 t z, ops := [.reg d, .reg a], bar := true }
    (tkldOp d a (tkSize t) false (z = 1) s true) st

/-- TKLDV (R278): Issues a ticketed load of a whole line. -/
def execTkldv (d : BitVec 6) (a : BitVec 6) (s : BitVec 2) (st : State) : Out :=
  insn
    { word := fr 31#6 d a (0#4 ++ s) 2#5 0#2 0#1, ops := [.reg d, .reg a], bar := true }
    (tkldOp d a 128 true false s false) st

/-- TKRD (R282): Redeems a scalar ticket into a register. -/
def execTkrd (d : BitVec 6) (a : BitVec 6) (st : State) : Out :=
  insn { word := fr 31#6 d a 0#6 3#5 0#2 0#1, ops := [.reg d, .reg a], bar := true } (redeemOp a 0 d.toNat) st

/-- TKRDV (R282): Redeems a line ticket into a vector register. -/
def execTkrdv (d : BitVec 6) (a : BitVec 6) (st : State) : Out :=
  insn
    { word := fr 31#6 d a 0#6 4#5 0#2 0#1, ops := [.reg d, .reg a], bar := true }
    (do
      vecReady d.toNat
      redeemOp a 1 d.toNat) st

/-- TKRDQ (R282): Redeems a ticket into a queue slot filled on delivery. -/
def execTkrdq (d : BitVec 6) (a : BitVec 6) (st : State) : Out :=
  insn
    { word := fr 31#6 d a 0#6 5#5 0#2 0#1, ops := [.queue d [1, 2] (some true), .reg a], bar := true }
    (redeemOp a 2 (d.toNat - 32)) st

/-- TKTEST (R286): Reports a ticket's booth state without faulting. -/
def execTktest (d : BitVec 6) (a : BitVec 6) (st : State) : Out :=
  insn { word := fr 31#6 d a 0#6 6#5 0#2 0#1, ops := [.reg d, .reg a], bar := true } (tktestOp d a) st

/-- TKDROP (R286): Drops a pending or ready ticket. -/
def execTkdrop (d : BitVec 6) (a : BitVec 6) (st : State) : Out :=
  insn { word := fr 31#6 d a 0#6 7#5 0#2 0#1, ops := [.reg d, .reg a], bar := true } (tkdropOp d a) st

/-- BOOTH_FILL (R279): Ticketed data arrives at the booth and the entry becomes Ready. -/
def execBoothFill (slice entry : Nat) (s0 : State) : Out :=
  .next (boothFill s0 slice entry)

/-- BOOTH_WAIT_ALLOCATE (R278): A TKLDW request waiting at a full booth is allocated a released entry. -/
def execBoothWaitAllocate (slice : Nat) (s0 : State) : Out :=
  .next (boothWaitAllocate s0 slice)

/-- BOOTH_CLAIM (R282): A booth accepts or rejects a redeem claim. -/
def execBoothClaim (u : Nat) (s0 : State) : Out :=
  .next (boothClaim s0 u)

/-- TICKET_DELIVERY (R282): Ready ticket data is delivered to the redeemer. -/
def execTicketDelivery (u : Nat) (s0 : State) : Out :=
  .next (ticketDelivery s0 u)

/-- TICKET_WITHDRAWAL (R289): A booth answers a redeem withdrawal at pre-emption or migration. -/
def execTicketWithdrawal (u : Nat) (s0 : State) : Out :=
  .next (ticketWithdrawal s0 u)

/-- TICKET_EXPIRY (R287): A booth entry outlives the ticket lifetime and becomes Expired. -/
def execTicketExpiry (slice entry : Nat) (s0 : State) : Out :=
  .next (ticketExpiry s0 slice entry)

/-- QUEUE_FILL_ARRIVAL (R137): A producer's value arrives in its queue slot and V advances. -/
def execQueueFillArrival (u q slot gen : Nat) (value : BitVec 2048) (poison : Bool) (s0 : State) : Out :=
  .next (queueFill s0 u q slot gen value poison)

end Sys2Proof.Machine
end

