-- ==== Sys2Proof/Machine/Carousel.lean ====
section
/-! DEFINITION. Carousel (R348-R362): the search for a core, a move and its carry, credits and proactive return. -/

namespace Sys2Proof.Machine

/-! Suitable cores (R351). -/

/-- The strands that hold or have been promised a core's resources, but for those named. -/
def claims (s : State) (core : Nat) (but : List Nat) : List Nat :=
  let coming := s.moves.flatMap fun m => match m.target with
    | some (c, _) => if c = core then s.couple m.uid else []
    | none => []
  (s.residents core ++ coming.filter fun u => !(s.residents core).contains u).filter fun u => !but.contains u

/-- Bytes of scratchpad that kept windows hold (R271). -/
def keptBytes (ks : List Kept) : Nat := (ks.map fun k => 128 * k.win.size).sum

/-- Whether a kept window gives way to a candidate of a tier: one that a KEEPW launch made only to an equal or higher tier
(R271, R399). -/
def Kept.givesWay (k : Kept) (tier : Nat) : Bool :=
  match k.tier with
  | some t => decide (tier ≤ t)
  | none => true

/-- The effective tier of a strand's launch. -/
def tierOfStrand (s : State) (u : Nat) : Nat := (Tab.get Launch.blank s.launches (s.strand u).launch).tier

/-- What co-resident launches have reserved on a core, in bytes of scratchpad and in descriptors (R398). -/
def promised (s : State) (core but : Nat) : Nat × Nat :=
  s.launches.foldl (init := (0, 0)) fun (b, w) (i, l) =>
    if i = but then (b, w)
    else
      let per := if l.coupled then 2 else 1
      let slots := (l.reserved.flatMap fun r => r.2.filter fun c => c.1 = core).flatMap fun c => c.2
      let bytes := ((l.record.getD 7 0).extractLsb' 16 16).toNat * 1024
      (b + slots.length * bytes, w + slots.length / per * l.windowDecls.length)

/-- Whether a core has the slots, tiles, scratchpad and descriptors that strands us need, beside those that it holds already; kept
windows give way (R271). -/
def hasRoom (s : State) (core : Nat) (us : List Nat) (slots : Nat) : Bool :=
  let others := claims s core us
  let sum := fun (f : Strand → Nat) (l : List Nat) => (l.map fun u => f (s.strand u)).sum
  let firm := (s.core core).kept.filter fun k => !us.contains k.uid && !k.givesWay (tierOfStrand s (us.headD 0))
  let cls := classOf s core
  !(s.core core).fenced && !(s.die (dieOf s core)).fenced
    && decide (slots ≤ (s.freeSlots core).length)
    && (cls != 2 || decide (sum Strand.phys (others ++ us) ≤ 16))
    && decide (sum (fun t => t.allotSize) (others ++ us) + keptBytes firm + (promised s core 0).1 ≤ allotable cls)
    && decide (sum (fun t => t.windows.length) (others ++ us) + firm.length + (promised s core 0).2 ≤ 16)

/-- The core that is preferred among some: the most free slots, then the lowest number. -/
def mostFree (s : State) (cs : List Nat) : Option Nat :=
  cs.foldl (init := none) fun best c => match best with
    | none => some c
    | some b => if (s.freeSlots b).length < (s.freeSlots c).length then some c else best

/-- The core that Carousel picks on its stage's base die for a strand or couple among the classes of a mask (R351). -/
def pickCore (s : State) (u mask : Nat) : Option Nat :=
  let us := s.couple u
  let home := (s.strand u).core
  let die := (s.strand u).stageId.toNat / 256 % 4
  let mask := if us.any fun v => !(s.strand v).gangs.isEmpty then mask &&& 6 else mask
  ((s.strand u).travel.launchClass :: [1, 0, 2]).findSome? fun cls =>
    if mask.testBit cls then mostFree s ((coresOf s die cls).filter fun c => c != home && hasRoom s c us us.length) else none

/-- Release kept windows of a core that give way to a tier, oldest first, until some bytes and descriptors fit (R271). What strands
us left there counts among their own needs: their windows take it up again. -/
def keptRoom (s : State) (core tier : Nat) (us : List Nat) (bytes wins : Nat) : State :=
  (List.range 16).foldl (init := s) fun s _ =>
    let kept := (s.core core).kept.filter fun k => !us.contains k.uid
    if allotable (classOf s core) < bytes + keptBytes kept ∨ 16 < wins + kept.length then
      match kept.find? fun k => k.givesWay tier with
      | some k => s.updCore core fun c => { c with kept := c.kept.erase k }
      | none => s
    else s

/-- Release kept windows of a core until what is claimed, and what strands us need, fits (R271). -/
def fitKept (s : State) (core tier : Nat) (us : List Nat) : State :=
  let all := claims s core us ++ us
  keptRoom s core tier us (all.map fun u => (s.strand u).allotSize).sum (all.map fun u => (s.strand u).windows.length).sum

/-! A move begins (R354 steps 1 and 2). -/

/-- How a strand that stops goes on when it resumes (R94, R354, R374): a tile operation in progress is done, or interrupted at its step
(R202); a redeem that waits is withdrawn and issues again (R289); a TKLDW waits again from its quota check (R278). -/
def Run.stopped (as : Run) : Run → Run
  | .parked .tile => .ready
  | .parked (.migrate _ _) => .ready
  | .parked (.ticket _ _ _) => .ready
  | .parked (.landing _ _ _) => .ready
  | .parked (.booth _) => .parked .quota
  | .parked (.replay _) => .ready
  | .draining => as
  | .migrating => as
  | r => r

/-- A strand of a unit stops at an instruction boundary (R354, R374): to move, or to be saved. CYCLE counts on at its core until it is
saved, and not through a move (R15). A tile fetch that goes on later does so under a new number of its core (R207). -/
def Strand.stop (s : State) (t : Strand) (as : Run) : Strand :=
  { t.countParked s with
    run := as
    resumeAs := t.run.stopped t.resumeAs
    cycleAcc := if as = .migrating then s.cycles t else t.cycleAcc
    cycleFrom := if t.run = .migrating then s.clock else t.cycleFrom
    parts := t.parts.map fun p => (p.1, { p.2 with fetch := 0 })
    tile := { t.tile with op := none } }

/-- Begin a move to a core: slots are reserved, a credit is consumed and the members stop, one whose operation replay holds at its place once
that has been performed (R303). A move whose target was fenced keeps its credit (R357) (DEDUCED, log entry 76). -/
def beginMove (s : State) (m : Move) (core : Nat) : State :=
  let us := s.couple m.uid
  let t := s.strand m.uid
  let slots := (s.freeSlots core).take us.length
  let s := s.updCore core fun c => { c with reserved := c.reserved ++ slots }
  let m := { m with target := some (core, slots), since := if t.run = .migrating then m.since else s.clock }
  let s := { s with moves := (s.moves.filter fun (x : Move) => x.uid != m.uid) ++ [m] }
  let s := fitKept s core (tierOfStrand s m.uid) us
  let s := if t.run = .migrating then s else s.updStrand m.uid fun t => { t with travel := { t.travel with
    credits := t.travel.credits - 1
    returns := t.travel.returns ++ [s.time + (s.context t.ctx).creditDelay] } }
  let s := migrationRec s m.uid 0x30 t.slot t.core core m.reason 0
  us.foldl (init := withdrawRequests s us) fun s u =>
    if (s.strand u).atPlace.isSome then s else (pipeStop s u).updStrand u fun t => t.stop s .migrating

/-- Whether a strand runs a handler of Naing (R356). -/
def Strand.inHandler (t : Strand) : Bool := t.firmware && t.trapStat.getLsbD 0

/-- Whether a move that has no target yet could begin now: a core, if so (R351-R353); a member of a family moves on Naing's order alone (R109,
R360). A search that is over its deadline is looked at
once more, before anything else happens (R352). -/
def movable (s : State) (m : Move) : Option Nat :=
  let again := (s.strand m.uid).run = .migrating
  if m.target.isSome ∨ (!again ∧ (s.strand m.uid).travel.credits = 0)
    ∨ (s.couple m.uid).any (fun u => (s.strand u).inHandler) ∨ (m.reason ≠ 4 ∧ s.inFamily m.uid)
    ∨ !((s.couple m.uid).all fun u => (s.strand u).run.holdsSlot) then none
  else pickCore s m.uid m.classes

/-- MIGRATION_CORE_FREED (R351, R352): Carousel reserves a suitable core for the move of u that waits. -/
def migrationCoreFreed (s : State) (u : Nat) : State :=
  match s.moves.find? fun m => m.uid = u with
  | some m => match movable s m with
    | some c => beginMove s m c
    | none => s
  | none => s

/-- MIGRATION_SEARCH_EXPIRY (R352): the search ends without a core. MIGR answers 2; a class-missing trap is emulated or waits
(R350); another move is dropped. A partner that waited too issues again. -/
def migrationSearchExpiry (s : State) (u : Nat) : State :=
  match s.moves.find? fun m => m.uid = u && m.target.isNone && decide (m.deadline < s.time) && (s.strand u).run != .migrating with
  | none => s
  | some m =>
    let s := { s with moves := s.moves.filter fun (x : Move) => x.uid != u }
    let waiting := (s.couple u).filter fun v => match (s.strand v).run with
      | .parked (.migrate _ _) => true
      | _ => false
    waiting.foldl (init := s) fun s v =>
      let s := wake s v
      if v ≠ m.issuer then s
      else match m.dest with
        | some d =>
          let s := s.updStrand v fun t => { t.setReg d 2 with pc := t.pc + 4 }
          if (s.strand v).firmware then s else countIssued s v 7
        | none => emulate s v m.word m.xfields 2 (some (.migrate m.classes false))

/-! The carry (R354 steps 3 to 7). -/

/-- Whether a strand waits for the result of an operation held at its home, which is delivered before a move or a save ends (R303). -/
def Strand.awaitsHome (t : Strand) : Bool := match t.resumeAs with
  | .parked (.held _) => true
  | _ => false

/-- Whether the drains that a move or a save waits for have ended for a strand: its queues have V = F, its tile fetches and
window touches have arrived, no redeem of its is outstanding, and a result that it waits for has come (R153, R207, R269, R289,
R303). -/
def drained (s : State) (u : Nat) : Bool :=
  let t := s.strand u
  (t.queues.all fun q => q.2.slots.all fun x => x.ready)
    && !(s.agenda.any fun e => match e with
      | .tfetchSlotFill v _ _ _ _ _ _ _ => v = u
      | .windowFill v _ _ => v = u
      | _ => false)
    && (claimedBy s u).isEmpty && !t.awaitsHome && t.atPlace.isNone

/-- The strand with a range of its allotment zeroed. -/
def Strand.zeroAllot (t : Strand) (o n : Nat) : Strand :=
  { t with
    allot := t.allot.filter fun b => b.1 < o || decide (o + n ≤ b.1)
    spoiled := t.spoiled.filter fun b => 4 * b.1 + 3 < o || decide (o + n ≤ 4 * b.1) }

/-- Steps 1 to 3 of R269 at a strand's core: dirty words are written back, and windows without KEEP lose their valid bits, after a save as
after a move: the first touch translates the range again, with R259's checks, and may fault for a parcel that the strand does not touch,
which R270 says of moves and R269 does not say of saves (DESIGN CHOICE, log entry 118). A KEEP window becomes kept storage there with its words, and stays bound without them (R271). The allotment keeps the bytes that are
saved or carried: outside windows, and for a save those of KEEP windows (R256, R354, R377). -/
def closeWindows (s : State) (u : Nat) (save : Bool) : State :=
  (s.strand u).windows.foldl (init := s) fun s w =>
    let s := w.2.phys.foldl (init := s) fun s jp => writeBackWindow s u w.1 jp.1 !w.2.keep
    let s := if w.2.keep then keepWindow s u w.1 else s
    let bare : Window := { w.2 with valid := [], dirty := [], phys := [], wide := [], bound := false }
    s.updStrand u fun t =>
      let t := if w.2.keep && save then t else t.zeroAllot (128 * w.2.offset) (128 * w.2.size)
      { t with windows := Tab.set Window.blank t.windows w.1 bare }

/-- Kept windows of the strand's context on its core give their words back to its bindings at their index, whose first touch translates the
range again (R270, R271). -/
def reattachWindows (s : State) (u : Nat) : State :=
  let t := s.strand u
  (s.core t.core).kept.foldl (init := s) fun s k =>
    let w := (s.strand u).window k.idx
    if k.ctx = t.ctx ∧ k.win.base = w.base ∧ k.win.size = w.size ∧ w.keep then
      let s := s.updCore t.core fun c => { c with kept := c.kept.filter (· != k) }
      let filled : Window := { w with valid := k.win.valid, phys := k.win.phys, wide := k.win.wide }
      s.updStrand u fun t =>
        let t := t.storeAllot (128 * w.offset) ((List.range (128 * w.size)).map fun i => Tab.get 0 k.bytes i)
        { t with windows := Tab.set Window.blank t.windows k.idx filled }
    else s

/-! The tile state in the save area (R355, R377). -/

/-- Bytes that the manual leaves opaque (DESIGN CHOICE, log entry 15). -/
def opaqueBytes (s : State) (u o n : Nat) : List Byte := (List.range n).map fun i => Config.opaqueByte u (s.tick * 2 ^ 24 + o + i)

/-- Whether a strand has tile state to save: an enabled accumulator, or anything else of R186 (R377). -/
def Strand.tiled (t : Strand) : Bool := t.phys != 0 || { t.tile with op := none } != TileState.zero || t.tileSave.isSome

/-- The contents of a strand's tile state as numbers (R186). -/
def Strand.tileContents (t : Strand) : List Nat :=
  (t.accs.flatMap fun a => [a.1, if a.2.enabled then 1 else 0, a.2.fmt, a.2.group, a.2.rowMask.toNat, a.2.colMask.toNat, a.2.kcount, a.2.kgrp]
      ++ (a.2.cells.flatMap fun c => [c.1, c.2.toNat]) ++ ((a.2.rowScale ++ a.2.colScale).flatMap fun c => [c.1, c.2.toNat]))
    ++ [t.tile.lty, t.tile.lcnt] ++ t.tile.latch.flatMap fun r => [r.1, r.2.toNat]

/-- The bytes of a strand's tile state in its save area: at most 136 KiB, of an open layout (R377; DESIGN CHOICE, log entry 15). -/
def tilePart (s : State) (u : Nat) : List Byte := (Config.tileImage (s.strand u).tileContents).take 139264

/-- The unit of a base die under which Carousel makes its requests (R235). -/
def carouselUnit (s : State) (u : Nat) : Nat := agentUnit (dieOf s (s.strand u).core) 49

/-- Store bytes through Naing's tables into save-pinned tier-0 parcels, parcel by parcel, under their keys, as requests of an agent. It fails
where a parcel does not translate or is no such parcel, and at a line that is poisoned or cannot be reached (R235, R378, R423). -/
def saveStore (s : State) (agent : Nat) (va : Word) (bs : List Byte) : Nat → Option State
  | 0 => if bs.isEmpty then some s else none
  | n + 1 =>
    if bs.isEmpty then some s
    else match walk s true 0 va with
      | .error _ => none
      | .ok l =>
        let k := 65536 - va.toNat % 65536
        let part := bs.take k
        if l.savePin && l.tier = 0 && !poisonedAt s l part.length then
          saveStore (homeStore (stampKey (countRequests s agent ((part.length + 127) / 128)) l part.length) l.pa part) agent (va + BitVec.ofNat 64 k)
            (bs.drop k) n
        else none

/-- Bytes read through Naing's tables; none where the address does not translate or the data is poisoned. -/
def saveLoad (s : State) (va : Word) (len : Nat) : Nat → Option (List Byte)
  | 0 => if len = 0 then some [] else none
  | n + 1 =>
    if len = 0 then some []
    else match walk s true 0 va with
      | .error _ => none
      | .ok l =>
        let k := min len (65536 - va.toNat % 65536)
        if poisonedAt s l k then none
        else (saveLoad s (va + BitVec.ofNat 64 k) (len - k) n).map fun bs => decrypted s l (coherentBytes s l.pa k) ++ bs

/-- A move from an M-core to another class writes the tile state to the strand's save area (R355), at a place that is open; where that
fails, the context is lost as for a save (R378; DESIGN CHOICE, log entry 107). -/
def parkTiles (s : State) (u target : Nat) : State :=
  let t := s.strand u
  if t.tiled ∧ classOf s t.core = 2 ∧ classOf s target ≠ 2 then
    let va := t.saveBase + Config.tilePlace s.tick u
    match saveStore s (carouselUnit s u) va (tilePart s u) 64 with
    | some s => s.updStrand u fun t => { t with tileSave := some (va, tilePart s u) }
    | none => loseContext s t.ctx 1 (some u)
  else s

/-- A strand that comes onto an M-core reloads its tile state from its save area (R355, R385): where the area cannot be read, the context is
lost as for a restore (R373); where the bytes have changed, the cells hold what they come to (DESIGN CHOICE, log entry 107). -/
def reloadTiles (s : State) (u : Nat) : State :=
  let t := s.strand u
  match t.tileSave with
  | none => s
  | some (va, bs) =>
    if classOf s t.core ≠ 2 then s
    else match saveLoad s va bs.length 64 with
      | none => loseContext s t.ctx 2 (some u)
      | some cs => (countRequests s (carouselUnit s u) ((bs.length + 127) / 128)).updStrand u fun t => { t with
          tileSave := none
          accs := if cs = bs then t.accs else t.accs.map fun a =>
            (a.1, { a.2 with cells := (List.range 2048).foldl (init := []) fun m c => Tab.set 0 m c (Config.tileCell cs a.1 c) }) }

/-- The bytes of a strand that lie outside windows, as a count (R362) (DEDUCED, log entry 46). -/
def outsideBytes (t : Strand) : Nat := t.allotSize - (t.windows.map fun w => 128 * w.2.size).sum

/-- The bytes that Carousel carries for a member (R362): the tile part of a move onto or off an M-core is open. -/
def carriedBytes (s : State) (u target : Nat) : Nat :=
  let t := s.strand u
  4096 + (t.hwm.map fun h => 32 * h.2).sum + 32 * ((List.range 64).filter t.pdirty.getLsbD).length
    + (t.queues.map fun q => q.2.slots.length * slotBytes q.2.kind).sum + outsideBytes t
    + (if t.tiled ∧ (classOf s t.core = 2 ∨ classOf s target = 2) then (tilePart s u).length else 0)

/-- The vector length that Naing grants (R101). -/
def grantGvl (s : State) (u : Nat) : Nat := Config.gvlGrant s.tick u % 64 + 1

/-- A queue as it is restored: H = 0, and the commit mark relative to it (R153). -/
def Queue.rebased (k : Queue) : Queue := { k with h := 0, mark := k.mark.map fun m => (m + 65536 - k.h) % 65536 }

/-- A strand of a context comes to a core: unless the core runs that context alone, it keeps no first-level copy of a line (R425;
DEDUCED, log entry 108). -/
def switchContext (s : State) (core ctx : Nat) : State :=
  let here := s.residents core
  if !here.isEmpty && here.all fun u => (s.strand u).ctx = ctx then s
  else dropCopies s core

/-- What resuming does to a strand that its run is given back to (R93, R101, R153). It acts as though it had issued an SBAR over all
streams: what it still has on its way comes first (R345). -/
def resumeStrand (s : State) (u core slot : Nat) : State :=
  let s := (switchContext s core (s.strand u).ctx).updStrand u fun t => { t with
    run := t.resumeAs
    core := core
    slot := slot
    gvl := grantGvl s u
    queues := t.queues.map fun q => (q.1, q.2.rebased)
    fence := unsettled s u
    parkedAt := s.clock
    cycleFrom := s.clock }
  reattachWindows (selfInvalidate s core 3) u

/-- MIGRATION_CARRY_COMPLETE (R354): the members resume at the new core. -/
def migrationCarryComplete (s : State) (u : Nat) : State :=
  match s.moves.find? fun m => m.uid = u with
  | none => s
  | some m => match m.target with
    | none => s
    | some (core, slots) =>
      let us := s.couple u
      if !(us.all fun v => drained s v) then s
      else
        let t := s.strand u
        let bytes := (us.map fun v => carriedBytes s v core).sum
        let s := us.foldl (init := s) fun s v => parkTiles (closeWindows s v false) v core
        if (s.context t.ctx).lost then s
        else
          let s := s.updCore core fun c => { c with reserved := c.reserved.filter fun k => !slots.contains k }
          let s := { s with moves := s.moves.filter fun (x : Move) => x.uid != u }
          let s := (us.zip slots).foldl (init := s) fun s (v, k) => leaveCore (resumeStrand s v core k) t.core t.ctx
          let s := us.foldl (init := s) fun s v => s.updStrand v fun t => { t with travel := { t.travel with mig := (t.travel.mig + 1) % 2 ^ 32 } }
          let s := match m.dest with
            | some d => us.foldl (init := s) fun s v =>
                if (s.strand v).resumeAs = .ready ∧ v = m.issuer then
                  let s := s.updStrand v fun t => { t.setReg d 1 with pc := t.pc + 4 }
                  if (s.strand v).firmware then s else countIssued s v 7
                else s
            | none => s
          us.foldl (init := migrationRec s u 0x31 t.slot t.core core m.reason bytes) reloadTiles

/-- A strand's credit that was consumed at a time is given back, if it has not returned by now (R353). -/
def Strand.giveCredit (t : Strand) (due : Nat) : Strand :=
  if t.travel.returns.contains due then
    { t with travel := { t.travel with credits := t.travel.credits + 1, returns := t.travel.returns.erase due } }
  else t

/-- A move is abandoned before its carry: the reservation is released, the credit returns and the record of its end says that nothing was
carried (R353, R357, R362). One whose target has been fenced names the core that the strand stays on. -/
def abandonMove (s : State) (u : Nat) : State :=
  match s.moves.find? fun m => m.uid = u with
  | none => s
  | some m =>
    let s := { s with moves := s.moves.filter fun (x : Move) => x.uid != u }
    let back := fun (s : State) (core : Nat) =>
      let s := s.updStrand u fun t => t.giveCredit (m.since / 56 + (s.context t.ctx).creditDelay)
      let t := s.strand u
      migrationRec s u 0x31 t.slot t.core core m.reason 0
    match m.target with
    | none => if (s.strand u).run = .migrating then back s (s.strand u).core else s
    | some (core, slots) => back (s.updCore core fun c => { c with reserved := c.reserved.filter fun k => !slots.contains k }) core

/-! Credits and other moves (R353, R360). -/

/-- CREDIT_RETURN: the oldest consumed credit whose delay has passed returns (R353). -/
def creditReturn (s : State) (u : Nat) : State :=
  let v := (s.strand u).travel
  match v.returns with
  | r :: rest => if r ≤ s.time then s.updStrand u fun t => { t with travel := { t.travel with credits := v.credits + 1, returns := rest } } else s
  | [] => s

/-- PROACTIVE_RETURN: a strand whose window has closed moves back to its launch class, if a core of it is free at once
(R360). -/
def proactiveReturn (s : State) (u : Nat) : State :=
  let t := s.strand u
  let v := t.travel
  let m : Move := ⟨u, 2 ^ v.launchClass, 3, s.time, none, s.clock, none, 0, 0, []⟩
  if classOf s t.core = v.launchClass ∨ v.credits < 2 ∨ !t.run.inPlay ∨ s.moves.any (fun x => x.uid = u) then s
  else match movable s m with
    | some c => beginMove s m c
    | none => s

/-- NAING_ORDERED_MOVE: Naing's order to move any strand to classes of its allowed set (R360); the search follows R351 and
R352. -/
def naingOrderedMove (s : State) (u : Nat) (classes : BitVec 3) : State :=
  let o := s.owner u
  let t := s.strand o
  let mask := classes.toNat &&& t.travel.allowed
  if mask = 0 ∨ !t.run.inPlay ∨ s.moves.any (fun x => x.uid = o) then s
  else { s with moves := s.moves ++ [⟨o, mask, 4, s.time + (s.context t.ctx).waitBound, none, s.clock, none, 0, 0, []⟩] }

/-- MIGRATION_SEARCH_EXPIRY (R352): The wait bound for a suitable core expires without one. -/
def execMigrationSearchExpiry (u : Nat) (s0 : State) : Out :=
  .next (migrationSearchExpiry s0 u)

/-- MIGRATION_CORE_FREED (R351): A suitable core frees and Carousel reserves it for a waiting strand. -/
def execMigrationCoreFreed (u : Nat) (s0 : State) : Out :=
  .next (migrationCoreFreed s0 u)

/-- MIGRATION_CARRY_COMPLETE (R354): Write-backs are acknowledged and the moved strand resumes at the new core. -/
def execMigrationCarryComplete (u : Nat) (s0 : State) : Out :=
  .next (migrationCarryComplete s0 u)

/-- CREDIT_RETURN (R353): A consumed migration credit returns after the return delay. -/
def execCreditReturn (u : Nat) (s0 : State) : Out :=
  .next (creditReturn s0 u)

/-- PROACTIVE_RETURN (R360): A 65,536-instruction window closes and the strand may move back to its launch class. -/
def execProactiveReturn (u : Nat) (s0 : State) : Out :=
  .next (proactiveReturn s0 u)

/-- NAING_ORDERED_MOVE (R360): Naing orders a strand moved through its firmware interface. -/
def execNaingOrderedMove (u : Nat) (classes : BitVec 3) (s0 : State) : Out :=
  .next (naingOrderedMove s0 u classes)

end Sys2Proof.Machine
end

