-- ==== Sys2Proof/Machine/Sys.lean ====
section
/-! DEFINITION. The SYS instructions (R379-R385), pre-emption and the save area (R374-R378). -/

namespace Sys2Proof.Machine

/-! WFI, TLBINV and LNPURGE (R381-R383). -/

/-- WFI (R381). -/
def wfiOp (d : BitVec 6) : M Flow := do
  let m := (← get).module.events
  if m = 0 then throw (.park .event)
  modify fun s => s.updModule fun k => { k with events := 0 }
  writeReg d m
  return .seq

/-- TLBINV (R382): it parks until its shootdown completes, which writes the sequence number to x[d]. -/
def tlbinvOp (d a b : BitVec 6) : M Flow := do
  let va ← readReg a
  let w ← readReg b
  let s ← get
  let die := dieOf s s.me.core
  let (n, s) := startShootdown s die (w.getLsbD 16) (w.getLsbD 17) (w.extractLsb' 0 12).toNat va
  set s
  throw (.parkAt (.shootdown die n d.toNat (BitVec.ofNat 64 n)))

/-- Every tracked copy of a line is dropped with its dirty words (R383). -/
def dropTracked (s : State) (line : Nat) : State :=
  let s := { s with
    writeBacks := s.writeBacks.filter fun w => w.line != line
    hostCopies := Tab.set Copy.none s.hostCopies line Copy.none }
  (s.line line).sharers.foldl (init := s) fun s a =>
    if a < 0x4000 then coreDrop s a line
    else if a < 0x8000 then
      let die := a - 0x4000
      let cores := match s.guestIn die line with
        | some g => g.sharers
        | none => []
      (cores.foldl (init := s) fun s c => coreDrop s c line).setGuest die line Copy.none
    else s

/-- LNPURGE (R252, R383); a line of a fenced base die takes the poisoned-data fault (R27). -/
def lnpurgeOp (d a : BitVec 6) : M Flow := do
  let pa := (← readReg a).toNat / 128 * 128
  let s ← get
  if 2 ^ 52 ≤ pa ∨ !hasMemory s pa then writeReg d 0
  else
    if !reachable s pa then trap 11 0 (BitVec.ofNat 64 pa)
    let s := dropTracked s (pa / 128)
    let s := s.updLine (pa / 128) fun k => { k with code := 0, sharers := [], key := 0 }
    set { s with mem := memStore s.mem pa (List.replicate 128 0) }
    writeReg d 1
  return .seq

/-! Stopping a unit (R374 steps 1 and 2, R357, R384). -/

/-- A member stops. With a handler active it is saved at TRAPPC, at the level before the trap, and its handler is abandoned; one that has
exited in it stays Exited (R94). -/
def Strand.preempt (s : State) (t : Strand) : Strand :=
  let t := t.stop s .draining
  if t.trapStat.getLsbD 0 then
    { t with
      pc := t.trapPc
      firmware := t.trapStat.getLsbD 1
      trapStat := t.trapStat &&& ~~~(1 : Word)
      parts := Tab.set Progress.none t.parts (partLevel true) Progress.none
      resumeAs := if t.resumeAs = .exited then .exited else if t.skips then .skipping else .ready }
  else t

/-- The members of a unit stop issuing: a move that has not been carried is abandoned (R357), and requests that wait at a booth are withdrawn. -/
def beginPreempt (s : State) (us : List Nat) (waiter : Option (Nat × Nat)) : State :=
  let s := us.foldl (init := s) fun s u => abandonMove s u
  let s := us.foldl (init := withdrawRequests s us) fun s u =>
    if (s.strand u).atPlace.isSome then s else (pipeStop s u).updStrand u fun t => t.preempt s
  { s with preempts := s.preempts ++ [⟨us, waiter⟩] }

/-- Whether a strand may be pre-empted: it is resident, its context is live, it is not being saved, and it is not parked in
WFI at firmware level (R381, R384). -/
def preemptible (s : State) (u : Nat) : Bool :=
  let t := s.strand u
  (s.context t.ctx).live && t.run.holdsSlot && !(t.firmware && t.run = .parked .event)
    && !(s.preempts.any fun p => p.members.contains u)

/-- CTXSV (R384). A unit that holds the issuing strand is saved with its PC at the next instruction and no result. -/
def ctxsvOp (d a : BitVec 6) : M Flow := do
  let w ← readReg a
  let s ← get
  match s.atSlot (w.extractLsb' 0 14).toNat (w.extractLsb' 16 4).toNat with
  | none =>
    writeReg d 0
    return .seq
  | some u =>
    let us := s.unit u
    if !(us.all fun v => preemptible s v) then
      writeReg d 0
      return .seq
    else if us.contains s.cur then
      set (beginPreempt (s.updMe fun t => { t with pc := t.pc + 4 }) us none)
      return .stay
    else
      set (beginPreempt s us (some (s.cur, d.toNat)))
      throw (.parkAt (.save u d.toNat))

/-! The save area (R375-R378). -/

/-- A member section (R377): its fixed part, then the dirty vector registers and predicates. -/
def memberSection (s : State) (u : Nat) : List Byte :=
  let t := s.strand u
  let hwm := (List.range 32).foldl (init := 0) fun n v => n + Tab.get 0 t.hwm v * 2 ^ (4 * v)
  let vecs := (List.range 32).flatMap fun v => if t.vdirty.getLsbD v then leBytes (32 * Tab.get 0 t.hwm v) (t.vec v).toNat else []
  let preds := (List.range 64).flatMap fun p => if t.pdirty.getLsbD p then leBytes 32 (t.pred p).toNat else []
  leBytes 8 t.pc.toNat ++ leBytes 8 t.strandId.toNat ++ leBytes 4 t.vdirty.toNat ++ leBytes 16 hwm ++ leBytes 8 t.pdirty.toNat
    ++ opaqueBytes s u 0 4052 ++ vecs ++ preds

/-- The allotment bytes outside windows that lack KEEP, in ascending offset (R377). -/
def allotSection (t : Strand) : List Byte :=
  ((List.range t.allotSize).filter fun o => !(t.windows.any fun w =>
    !w.2.keep && 128 * w.2.offset ≤ o && decide (o < 128 * (w.2.offset + w.2.size)))).map fun o => Tab.get 0 t.allot o

/-- Where sections of given sizes stand, from an offset on. -/
def offsetsFrom : Nat → List Nat → List Nat
  | _, [] => []
  | o, n :: ns => o :: offsetsFrom (o + n) ns

/-- The integrity tag over the used bytes with the tag field as 0 (R377). -/
def saveTag (bs : List Byte) : Word := Keccak.shake256Lane (leBytes 32 Config.saveTagKey ++ bs)

/-- A save area's bytes (R377): the kind is 0 single, 1 couple, 2 family. -/
def saveArea (s : State) (us : List Nat) : List Byte :=
  let t := s.strand (us.headD 0)
  let owner := s.strand (s.owner (us.headD 0))
  let kind := if us.any fun u => s.inFamily u then 2 else if t.coupled then 1 else 0
  let members := us.map fun u => memberSection s u
  let queues := opaqueBytes s 0 0 ((us.flatMap fun u => (s.strand u).queues.map fun q => q.2.slots.length * slotBytes q.2.kind).sum)
  let tiles := us.flatMap fun u => if (s.strand u).tiled then tilePart s u else []
  let allot := allotSection owner
  let places := offsetsFrom 4096 (members.map List.length ++ [queues.length, tiles.length, allot.length])
  let used := 4096 + (members.map List.length).sum + queues.length + tiles.length + allot.length
  let at_ := fun (i : Nat) => places.getD i 0
  let n := us.length
  let section_ := fun (i : Nat) (bs : List Byte) => leBytes 4 (at_ (n + i)) ++ leBytes 4 bs.length
  let head := fun (tag : Word) =>
    leBytes 4 0x56415351 ++ leBytes 2 1 ++ leBytes 1 s.module.step ++ leBytes 1 n ++ leBytes 2 (t.ctx % 4096) ++ leBytes 1 kind
      ++ leBytes 1 (classOf s t.core) ++ leBytes 4 used
      ++ (List.range 8).flatMap (fun i => leBytes 4 (if i < n then at_ i else 0))
      ++ section_ 0 queues ++ section_ 1 tiles ++ section_ 2 allot ++ leBytes 8 s.time ++ leBytes 8 tag.toNat ++ List.replicate 168 0
      ++ List.replicate 3840 0
  let body := members.flatten ++ queues ++ tiles ++ allot
  head (saveTag (head 0 ++ body)) ++ body

/-- The waiting CTXSV gets its result, also one whose strand has been stopped itself. -/
def endWaiter (s : State) (w : Option (Nat × Nat)) (r : Word) : State :=
  match w with
  | none => s
  | some (u, d) =>
    let t := s.strand u
    let waits := fun (x : Run) => match x with
      | .parked (.save _ _) => true
      | _ => false
    let past := fun (t : Strand) => { t.setReg d r with pc := t.pc + 4 }
    if waits t.run then (wake s u).updStrand u past
    else if t.run.away && waits t.resumeAs then s.updStrand u fun t => { past t with resumeAs := .ready }
    else s

/-- Whether the drains of a pre-emption have ended (R374 step 2); a unit that a fence ended has nothing to drain. -/
def saveReady (s : State) (p : Preempt) : Bool := p.members.all fun v => drained s v || (s.strand v).run = .done

/-- PREEMPTION_SAVE_COMPLETE (R374 steps 4 to 6, R378); poisoned words in the scratchpad end the save (R25), while a queue slot is saved
with its poison (R153). -/
def saveComplete (s : State) (u : Nat) : State :=
  match s.preempts.find? fun p => p.members.contains u with
  | none => s
  | some p =>
    if !saveReady s p then s
    else
      let us := p.members
      let s := { s with preempts := s.preempts.filter (· != p) }
      let s := us.foldl (init := s) fun s v => closeWindows s v true
      let base := (s.strand (us.headD 0)).saveBase
      let ctx := (s.strand (us.headD 0)).ctx
      let area := saveArea s us
      if (s.context ctx).lost then endWaiter s p.waiter 2
      else match (if base.toNat % 4096 = 0 && us.all (fun v => (s.strand v).spoiled.isEmpty) then saveStore s (carouselUnit s (us.headD 0)) base area 64 else none) with
      | none => endWaiter (loseContext s ctx 1 (some (us.headD 0))) p.waiter 2
      | some s =>
        let die := (s.strand (us.headD 0)).stageId.toNat / 256 % 4
        let tag := BitVec.ofNat 64 (leNat ((area.drop 0x50).take 8))
        let core := (s.strand (us.headD 0)).core
        let s := us.foldl (init := s) fun s v => s.updStrand v fun t => { t with run := .saved, cycleAcc := s.cycles t }
        let s := leaveCore s core ctx
        endWaiter { s with saved := s.saved ++ [⟨base, us, die, false, s.time, tag⟩] } p.waiter 1

/-! Resumption (R384, R385). -/

/-- Where the tile section of a save area starts, as its header says (R377). -/
def tileSection (s : State) (base : Word) : Nat :=
  match saveLoad s (base + 0x38) 4 2 with
  | some bs => leNat bs
  | none => 0

/-- Resume a saved unit on a core with room: each member gets a slot, in its saved state; gvl is 0 to keep the saved grants,
and above 64 the grant is open (DESIGN CHOICE, log entry 26). The tile state of a member stays in the area until the member is on an
M-core (R385). -/
def restoreUnit (s : State) (x : SavedUnit) (core gvl : Nat) (base : Word) : State :=
  let slots := (s.freeSlots core).take x.members.length
  let parts := x.members.map fun v => if (s.strand v).tiled then (tilePart s v).length else 0
  let places := offsetsFrom (tileSection s base) parts
  let s := fitKept { s with saved := s.saved.filter (· != x) } core (tierOfStrand s (x.members.headD 0)) x.members
  let s := ((x.members.zip slots).zip places).foldl (init := s) fun s ((v, k), o) =>
    let g := (s.strand v).gvl
    let s := resumeStrand s v core k
    s.updStrand v fun t => { t with
      gvl := if gvl = 0 then g else if gvl ≤ 64 then gvl else grantGvl s v
      saveBase := base
      tileSave := if t.tiled then some (base + BitVec.ofNat 64 o, tilePart s v) else none }
  x.members.foldl (init := s) reloadTiles

/-- The unit that was saved at an address. -/
def savedIn (s : State) (base : Word) : Option SavedUnit := s.saved.find? fun x => x.base = base

/-- The unit whose save area stands at an address, to which Naing may have copied it: its header holds the unit's integrity tag. -/
def savedAt (s : State) (base : Word) : Option SavedUnit :=
  match saveLoad s (base + 0x50) 8 2 with
  | some bs => s.saved.find? fun x => x.tag = BitVec.ofNat 64 (leNat bs)
  | none => none

/-- What a save area's header says: 0 sound, 2 a fault, 3 bad magic, version, STEP or tag (R385). -/
def saveCheck (s : State) (base : Word) : Nat :=
  match saveLoad s base 256 2 with
  | none => 2
  | some h =>
    let le := fun (o n : Nat) => leNat ((h.drop o).take n)
    if le 0 4 ≠ 0x56415351 ∨ le 4 2 ≠ 1 ∨ le 6 1 ≠ s.module.step then 3
    else match saveLoad s base (min (le 0x0C 4) (2 ^ 24)) 300 with
      | none => 2
      | some bs =>
        let blank := bs.take 0x50 ++ List.replicate 8 0 ++ bs.drop 0x58
        if saveTag blank = BitVec.ofNat 64 (le 0x50 8) then 0 else 3

/-- The context of a save area that cannot be restored: that of the unit whose area stands there, or whose was written there where its
header cannot be read. -/
def loseSaved (s : State) (base : Word) : State :=
  match (savedAt s base).or (savedIn s base) with
  | none => s
  | some x => loseContext s (s.strand (x.members.headD 0)).ctx 2 none

/-- CTXLD (R385) (DEDUCED, log entry 73). -/
def ctxldOp (d a b : BitVec 6) : M Flow := do
  let base ← readReg a
  let w ← readReg b
  let s ← get
  let core := (w.extractLsb' 0 14).toNat
  match saveCheck s base with
  | 0 =>
    match savedAt s base with
    | none => writeReg d 3
    | some x =>
      if decide (core < 4 * coresPerDie s.module.blend) && hasRoom s core x.members x.members.length then
        set (restoreUnit s x core (w.extractLsb' 16 7).toNat base)
        writeReg d 1
      else writeReg d 0
  | 2 =>
    set (loseSaved s base)
    writeReg d 2
  | r => writeReg d (BitVec.ofNat 64 r)
  return .seq

/-- RESUMPTION_MARK (R394). -/
def resumptionMark (s : State) (u : Nat) : State :=
  { s with saved := s.saved.map fun x => if x.members.contains u then { x with marked := true } else x }

/-- RETT (R380). -/
def rettOp : M Flow := do
  updMe Strand.leaveTrap
  return .stay

/-- SVC (R380): Takes the service-call trap. -/
def execSvc (c : BitVec 6) (st : State) : Out :=
  insn { word := fr 37#6 0#6 0#6 c 0#5 0#2 0#1 } (trap 15 0 (c.setWidth 64)) st

/-- BRK (R380): Takes the breakpoint trap. -/
def execBrk (c : BitVec 6) (st : State) : Out :=
  insn { word := fr 37#6 0#6 0#6 c 1#5 0#2 0#1 } (trap 16 0 (c.setWidth 64)) st

/-- RETT (R380): Returns from a firmware trap handler. -/
def execRett (st : State) : Out :=
  insn { word := fr 37#6 0#6 0#6 0#6 2#5 0#2 0#1, firmware := true } (rettOp) st

/-- WFI (R381): Waits for a firmware event and returns the pending mask. -/
def execWfi (d : BitVec 6) (st : State) : Out :=
  insn { word := fr 37#6 d 0#6 0#6 3#5 0#2 0#1, firmware := true, ops := [.reg d] } (wfiOp d) st

/-- TLBINV (R382): Starts a shootdown and waits for it to complete. -/
def execTlbinv (d : BitVec 6) (a : BitVec 6) (b : BitVec 6) (st : State) : Out :=
  insn { word := fr 37#6 d a b 4#5 0#2 0#1, firmware := true, ops := [.reg d, .reg a, .reg b] } (tlbinvOp d a b) st

/-- CTXSV (R384): Pre-empts a unit into its save area. -/
def execCtxsv (d : BitVec 6) (a : BitVec 6) (st : State) : Out :=
  insn { word := fr 37#6 d a 0#6 5#5 0#2 0#1, firmware := true, ops := [.reg d, .reg a] } (ctxsvOp d a) st

/-- CTXLD (R385): Resumes a saved unit on a core. -/
def execCtxld (d : BitVec 6) (a : BitVec 6) (b : BitVec 6) (st : State) : Out :=
  insn { word := fr 37#6 d a b 6#5 0#2 0#1, firmware := true, ops := [.reg d, .reg a, .reg b] } (ctxldOp d a b) st

/-- LNPURGE (R383): Zeroes a physical line and drops all tracked copies. -/
def execLnpurge (d : BitVec 6) (a : BitVec 6) (st : State) : Out :=
  insn { word := fr 37#6 d a 0#6 7#5 0#2 0#1, firmware := true, ops := [.reg d, .reg a] } (lnpurgeOp d a) st

/-- PREEMPTION_SAVE_COMPLETE (R374): The drains of a pre-emption end and the unit's state is written to its save area. -/
def execPreemptionSaveComplete (u : Nat) (s0 : State) : Out :=
  .next (saveComplete s0 u)

/-- RESUMPTION_MARK (R394): Naing marks a saved unit for resumption, making it a dispatch candidate with its save time as wait start. -/
def execResumptionMark (u : Nat) (s0 : State) : Out :=
  .next (resumptionMark s0 u)

end Sys2Proof.Machine
end

