-- ==== Sys2Proof/Machine/Trc.lean ====
section
/-! DEFINITION. TRC (R413), sample records (R412), the end of a replay hold (R416), and element trains (R178). -/

namespace Sys2Proof.Machine

/-- TMARK (R413): a mark record, when the strand is admitted and the filter has MARK. -/
def tmarkOp (a c : BitVec 6) : M Flow := do
  let v ← readReg a
  modify fun s => strandRec s s.cur 6 ⟨0x40 + c.toNat, s.me.slot, v.toNat⟩
  return .seq

/-- TCNT (R413). -/
def tcntOp (d : BitVec 6) (n : BitVec 3) : M Flow := do
  writeReg d (Tab.get 0 (← me).trace.counters n.toNat)
  return .seq

/-! Samples (R412). -/

/-- A strand runs a trap, interrupt or emulation handler. -/
def Strand.handling (t : Strand) : Bool := t.trapStat.getLsbD 0 || t.uistat.getLsbD 1

/-- The state code of a strand in a sample record; a strand that is being carried has none, and a parked strand that R412
names no code for has an open one (DESIGN CHOICE, log entry 29). -/
def sampleCode (s : State) (u : Nat) : Option Nat :=
  let t := s.strand u
  match t.run with
  | .ready => some (if t.handling then 6 else 0)
  | .skipping => some 5
  | .parked .tile => some 4
  | .parked (.migrate _ _) => some 7
  | .parked w => some (match w.counter with
    | some n => n - 1
    | none => Config.sampleState s.tick u % 8)
  | .exited => some (Config.sampleState s.tick u % 8)
  | _ => none

/-- The sampling interval of a strand's context, in clock units of its core; 0 when the strand is not sampled. -/
def sampleUnits (s : State) (u : Nat) : Nat :=
  let t := s.strand u
  if traces s t 5 then (s.context t.ctx).trace.smp.toNat % 2 ^ 32 * cycleUnits (classOf s t.core) else 0

/-- Whether a strand's sample is due: a multiple of the interval has passed since its last one. -/
def sampleDue (s : State) (u : Nat) : Bool :=
  let n := sampleUnits s u
  decide (0 < n) && decide ((s.strand u).trace.sampled / n < s.clock / n)

/-- TRACE_SAMPLE (R412): a core's due samples are written. -/
def traceSample (s : State) (core : Nat) : State :=
  ((s.residents core).filter (sampleDue s)).foldl (init := s) fun s u =>
    let s := match sampleCode s u with
      | some k => strandRec s u 5 ⟨0x18, (s.strand u).slot, pcField (s.strand u) + k * 2 ^ 53⟩
      | none => s
    s.updStrand u fun t => { t with trace := { t.trace with sampled := s.clock } }

/-! Holds of replay recording (R416). -/

/-- 1 ms in clock units. -/
def holdUnits : Nat := 56000000

/-- A strand whose hold at a base die in mode 2 has lasted 1 ms. -/
def expiredStrand (s : State) (die : Nat) : Option Nat :=
  ((heldStrands s die).find? fun h => stalls s h.1 && !(s.strand h.1).trace.replayFree && decide (h.2 + holdUnits ≤ s.clock)).map Prod.fst

/-- Whether a hold of an event in flight in mode 2 has lasted 1 ms and is not marked yet. -/
def holdOver (s : State) (h : Instr × Nat × Bool) : Bool :=
  !h.2.2 && stalls s (heldIssuer s h.1) && decide (h.2.1 + holdUnits ≤ s.clock)

/-- Whether a hold at a base die is over. -/
def holdExpires (s : State) (die : Nat) : Bool := (expiredStrand s die).isSome || (s.die die).replayHolds.any (holdOver s)

/-- REPLAY_HOLD_EXPIRY (R416): the events whose holds are over may be performed unrecorded. -/
def replayHoldExpiry (s : State) (die : Nat) : State :=
  let s := s.updDie die fun d => { d with replayHolds := d.replayHolds.map fun h => (h.1, h.2.1, h.2.2 || holdOver s h) }
  match expiredStrand s die with
  | some u => wake (s.updStrand u fun t => { t with trace := { t.trace with replayFree := true } }) u
  | none => s

/-! Element trains (R178). -/

/-- One element of w bits performed at its home or at its owner. An element with an empty key slot, or whose home is fenced, is
discarded and recorded (R27, R424). again says that its line's request has been made (R242). -/
def trainElem (s : State) (u w : Nat) (e : TrainElem) (again : Bool) : State :=
  let t := s.strand u
  let l : Leaf := ⟨e.leaf, s.movedPa e.pa, 0, 1⟩
  let bs := leBytes (w / 8) e.value.toNat
  let line := l.pa / 128
  if keyEmpty s l || !reachable s l.pa then faultLog s t.ctx ⟨e.va, 0, 11, 0, false, t.slot, t.core⟩
  else
    let s := stampKey s l bs.length
    let s := if again then s else touchWrite s l t.ctx e.va
    let next := fun (s : State) => if again then s else nextRequest s (asker s t.core l)
    let k := s.line line
    match (if l.cls = 3 ∧ k.code = 2 ∧ !(s.parcel l.frame).blocked then k.sharers.head? else none) with
    | some owner => next (ownerWrite s owner l bs)
    | none =>
      let me := s.cur
      let s := if l.cls = 3 then homeRecords s u line k true 0 else s
      let s := homePut { s with cur := u } l.pa bs (l.logEnable && l.cls = 2) t.ctx e.va
      let s := { s with cur := me }
      next (if l.cls = 0 then updateUntracked s t.core line (l.pa % 128) bs else s)

/-- The elements of a train in ascending order. Of elements to one place, which one's value stands is open (R177; DESIGN CHOICE, log entry 9). -/
def performTrain (s : State) (u w : Nat) (elems : List TrainElem) : State :=
  (elems.zipIdx.foldl (init := (s, ([] : List Nat))) fun (s, seen) (e, i) =>
    if seen.contains e.pa && !Config.overlapChoice s.tick i then (s, seen)
    else (trainElem s u w e (seen.any fun a => a / 128 = e.pa / 128), e.pa :: seen)).1

/-- Whether a train of a strand's stream is on its way. -/
def trainComing (s : State) (u st : Nat) : Bool :=
  s.agenda.any fun e => match e with
    | .elementTrain v _ k _ _ => v = u && k = st
    | _ => false

/-- The trains of a scatter have all been performed: its last result is written (R410). -/
def trainsOver (s : State) (u st : Nat) : State := if trainComing s u st then s else pipeClose s u [1, st]

/-- ELEMENT_TRAIN: the train is performed, and its acknowledgement leaves with the element count of its tail. -/
def elementTrain (s : State) (u st w : Nat) (die : Nat) (elems : List TrainElem) : State :=
  (trainsOver (performTrain s u w elems) u st).post (.trainAck u die st elems.length)

/-- TRAIN_ACK: one train of a stream fewer is outstanding. -/
def trainAck (s : State) (u st : Nat) : State :=
  s.updStrand u fun t => { t with trains := Tab.set 0 t.trains st (Tab.get 0 t.trains st - 1) }

/-- TMARK (R413): Writes a mark record to the trace ring. -/
def execTmark (a : BitVec 6) (c : BitVec 6) (st : State) : Out :=
  insn { word := fr 38#6 0#6 a c 0#5 0#2 0#1, ops := [.reg a] } (tmarkOp a c) st

/-- TCNT (R413): Reads one of the strand's profiling counters. -/
def execTcnt (d : BitVec 6) (s : BitVec 3) (st : State) : Out :=
  insn { word := fr 38#6 d 0#6 (0#3 ++ s) 1#5 0#2 0#1, ops := [.reg d] } (tcntOp d s) st

/-- TRACE_SAMPLE (R412): The sampling interval elapses and a sample record is written. -/
def execTraceSample (core : Nat) (s0 : State) : Out :=
  .next (traceSample s0 core)

/-- REPLAY_HOLD_EXPIRY (R416): An event held for 1 ms in mode 2 proceeds unrecorded. -/
def execReplayHoldExpiry (die : Nat) (s0 : State) : Out :=
  .next (replayHoldExpiry s0 die)

/-- ELEMENT_TRAIN (R178): A receiving die performs a VSTXR element train and acknowledges it. -/
def execElementTrain (u die st w : Nat) (elems : List TrainElem) (s0 : State) : Out :=
  .next (elementTrain s0 u st w die elems)

/-- TRAIN_ACK (R178): A train acknowledgement arrives; the last completes VSTXR. -/
def execTrainAck (u _die st _count : Nat) (s0 : State) : Out :=
  .next (trainAck s0 u st)

end Sys2Proof.Machine
end

