-- ==== Sys2Proof/Machine/Wake.lean ====
section
/-! DEFINITION. When a parked strand's condition is satisfied (R103): STRAND_WAKE. The waits that another event ends (a ticket's
delivery, a booth's claim or allocation, a tile operation's end, a save) are not among them. -/

namespace Sys2Proof.Machine

/-- A run that is parked. -/
def Run.isParked : Run → Bool
  | .parked _ => true
  | _ => false

/-- Whether a queue's commit mark has been reached: V stands at the mark or beyond it (R139). The mark is compared with H and V modulo
2^16, so that a mark which V passed long ago reads as not reached again once H has come round to it (DESIGN CHOICE, log entry 117). -/
def Queue.marked (k : Queue) : Bool :=
  match k.mark with
  | some m => let n := (m + 65536 - k.h) % 65536; decide (n ≤ k.ready) || decide (k.slots.length < n)
  | Option.none => false

/-- Whether a consumer parked on a queue re-enters: more heads than NEED are ready, or the mark is reached, or the producer
cannot go on by itself (R138-R141). -/
def dataReady (s : State) (u q : Nat) : Bool :=
  let t := s.strand u
  let k := s.queue u q
  if k.slots.isEmpty then partnerGone s u
  else decide (0 < k.ready) && (decide (k.need + 1 ≤ k.ready) || k.marked || !t.coupled || partnerGone s u
    || (s.strand t.partner).run.isParked)

/-- The phase of the object that a strand waits on is another one, or its next test will fault (R302). -/
def barrierMoved (s : State) (u : Nat) (va : Word) (phase : Nat) : Bool :=
  let t := s.strand u
  match walk s t.firmware t.ctx va with
  | .error _ => true
  | .ok l => poisonedAt s l 16 || !(barrierAt s l).usable || (barrierAt s l).phase != phase

/-- The word that WAITV watches has another value, or its next read will fault (R305). -/
def valueMoved (s : State) (u : Nat) (va v : Word) : Bool :=
  let t := s.strand u
  match walk s t.firmware t.ctx va with
  | .error _ => true
  | .ok l => poisonedAt s l 8 || leWord 64 (decrypted s l (homeRead s l.pa 8)) != v

/-- Whether nothing of a mask of Wait.performed is in flight for a strand. -/
def performedAll (s : State) (u mask : Nat) : Bool :=
  !((s.strand u).trains.any fun x => mask.testBit x.1 && x.2 != 0)
    && !fetching s u (mask / 16 % 16)
    && !redeeming s u (mask / 1024 % 16)
    && !(mask.testBit 8 && reducing s u)
    && !(mask.testBit 9 && outstanding s u)

/-- Whether an event of a strand that replay holds may go on: its turn has come, and in mode 2 no event at the place has been held
for longer (R416, R417). -/
def replayMoves (s : State) (u die : Nat) : Bool :=
  let t := s.strand u
  let since := match t.trace.heldAt with
    | some h => h.2
    | none => t.parkedAt
  t.trace.replayFree || placeGate s u die 1 false since != .hold || placeGate s u die 2 false since != .hold

/-- Whether a strand that waits for a core or a credit tries again (R350). -/
def migrateAgain (s : State) (u classes : Nat) (credit : Bool) : Bool :=
  let o := s.owner u
  !(s.moves.any fun m => m.uid = o) && (s.strand o).travel.credits != 0 && (credit || (pickCore s o classes).isSome)

/-- A cause 20 that a strand takes now (R370). -/
def Strand.called (t : Strand) : Bool := t.async20.isSome && !t.trapStat.getLsbD 0

/-- Whether a wait ends only at a home, where the operation has been issued already (R220, R416, R439). -/
def Wait.atHome : Wait → Bool
  | .held _ => true
  | .replay _ => true
  | _ => false

/-- Whether the condition of a parked strand is satisfied, or a cause 20 wakes it (R103, R370). -/
def wakeable (s : State) (u : Nat) : Bool :=
  let t := s.strand u
  match t.run with
  | .parked w => (t.called && !w.atHome) || match w with
    | .queueData q => dataReady s u q
    | .queueSpace q => (let k := s.queue u q; decide (k.slots.length < k.depth)) || partnerGone s u
    | .queueDrain q => (s.queue u q).slots.all fun x => x.ready
    | .fullSet r => t.full.getLsbD r || !t.coupled || partnerGone s u
    | .fullClear r => !((s.strand (if t.coupled then t.partner else u)).full.getLsbD r) || partnerGone s u
    | .tile => match t.tile.op with
      | some o => o.heads s u = .stop
      | none => false
    | .barrier va p _ => barrierMoved s u va p
    | .value va v => valueMoved s u va v
    | .quota => (let o := s.strand (ticketOwner s u); decide (o.tickets < o.ticketQuota))
    | .watermark c n => (let k := s.channel t.ctx c; k.size = 0 || decide (n ≤ k.wm))
    | .epush h => match liveHandle s t.ctx h with
      | some (d, e) => decide ((s.cmd d e).input.length < 64)
      | none => true
    | .epop h => match liveHandle s t.ctx h with
      | some (d, e) => !(s.cmd d e).output.isEmpty || !(s.cmd d e).st.active
      | none => true
    | .ewait c g n => (let k := s.channel t.ctx c; k.gen != g || decide (n ≤ k.wm))
    | .replay d => replayMoves s u d
    | .performed m => performedAll s u m
    | .keySlot k => !keyInFlight s k
    | .gangReg r => !(t.gangs.any fun g => g.2.2 = r)
    | .join c => !(s.strand c).run.live
    | .children => !(t.children.any fun c => (s.strand c.uid).run.live)
    | .migrate c b => migrateAgain s u c b
    | .event => s.module.events != 0
    | .shootdown d n _ _ => !shooting s d n
    | .held _ => false
    | .parcel f => (let p := s.parcel f; !p.blocked && !p.migrating)
    | .ticket _ _ _ => false
    | .landing _ _ _ => false
    | .booth _ => false
    | .save _ _ => false
  | _ => false

/-- A parked strand is Ready at its instruction, which has had no effect: what waits on its behalf is withdrawn (R370). -/
def unpark (s : State) (u : Nat) : State :=
  match (s.strand u).run with
  | .parked (.migrate _ _) =>
    let both := (s.couple u).filter fun v => match (s.strand v).run with
      | .parked (.migrate _ _) => true
      | _ => false
    wake (both.foldl (init := abandonMove s (s.owner u)) wake) u
  | _ =>
    let s := ticketWithdrawal (withdrawRequests s [u]) u
    let s := s.updStrand u fun t => match t.run with
      | .parked (.barrier va p (some (dl, _, _))) => t.setPart { t.part with wait := some (va, p, dl) }
      | _ => t
    (wake s u).updStrand u fun t => { t with tile := { t.tile with op := none }, waitGen := 0 }

/-- STRAND_WAKE (R103): the strand issues its instruction again; TLBINV and PKEEP complete (R231, R382). -/
def strandWake (s : State) (u : Nat) : State :=
  if !wakeable s u then s
  else if (s.strand u).called then unpark s u
  else match (s.strand u).run with
    | .parked (.shootdown _ _ d v) =>
      let s := (wake s u).updStrand u fun t => { t.setReg d v with pc := t.pc + 4 }
      if (s.strand u).firmware then s else countIssued s u 7
    | _ => (wake s u).updStrand u fun t => { t with tile := { t.tile with op := none } }

/-- STRAND_WAKE (R103): A parked strand's condition is satisfied and it re-enters the rotation. -/
def execStrandWake (u : Nat) (s0 : State) : Out :=
  .next (strandWake s0 u)

end Sys2Proof.Machine
end

