-- ==== Sys2Proof/Machine/Life.lean ====
section
/-! DEFINITION. Contexts begin and end (R210-R218, R228, R271, R273, R287, R297, R334). -/

namespace Sys2Proof.Machine

/-- A setting held within its hardware limits. -/
def clamp (lo hi n : Nat) : Nat := max lo (min hi n)

/-- CONTEXT_CREATION: the settings are Naing's, within the limits of R217, R287, R297, R352 and R353; the counts of the
notification ring and of the fault log start at 0 (R218, R273, R372). Times are in ns. -/
def contextCreation (s : State) (c : ContextInit) : State :=
  if (s.context c.num).live || (s.context c.num).closing.isSome then s
  else
    let s := s.updContext c.num fun _ => { Context.blank with
      live := true, root := c.root, ticketKey := c.key, ringBase := c.ringBase, ringCb := c.ringCb, faultLog := c.faultLog
      policy := c.policy, threshold := clamp 16 65535 c.threshold, keepQuota := c.keepQuota
      lifetime := clamp 1000 100000000 c.lifetime, waitBound := min 200000 c.waitBound, creditCap := clamp 1 16 c.creditCap
      creditDelay := clamp 100000 100000000 c.creditDelay, drainBound := min 10000000 c.drainBound
      engineShare := c.engineShare, gangTimeout := c.gangTimeout }
    let zero := fun (s : State) (va : Word) => match naingStore s va (leBytes 8 0 ++ leBytes 8 0) with
      | some s => s
      | none => s
    zero (zero s c.ringCb) (c.faultLog + 0x8000)

/-! Teardown. -/

/-- Whether an entry counts among its issuer's outstanding tickets (R276). -/
def BoothState.counts : BoothState → Bool
  | .pending => true
  | .ready => true
  | .claimed => true
  | _ => false

/-- The tickets of a context are outstanding no more (R276). -/
def returnTickets (s : State) (ctx : Nat) : State :=
  (List.range 4).foldl (init := s) fun s d =>
    ((s.die d).booths.filter fun b => b.2.ctx = ctx && b.2.st.counts).foldl (init := s) fun s b => ticketBack s b.2.issuer

/-- Booth entries of a context become Free and the requests that wait are gone (R287). -/
def freeBooths (s : State) (ctx : Nat) : State :=
  let mine := fun (d : Nat) (e : Instr) => match e with
    | .boothFill slice entry => slice / 32 = d && (s.booth slice entry).ctx = ctx
    | _ => false
  let s' := (List.range 4).foldl (init := returnTickets s ctx) fun s d => s.updDie d fun k => { k with
    booths := k.booths.map fun (i, b) => (i, if b.ctx = ctx then { Booth.blank with gen := b.gen } else b)
    boothWaits := k.boothWaits.filter fun w => w.2.2.ctx != ctx }
  { s' with agenda := s'.agenda.filter fun e => !((List.range 4).any fun d => mine d e) }

/-- The logs of a context's parcels are discarded (R228). -/
def discardLogs (s : State) (ctx : Nat) : State :=
  (s.parcels.filter fun p => p.2.ctx = ctx && !p.2.log.isEmpty).foldl (init := s) fun s p =>
    let s := s.updDie (homeDie (p.1 * 65536)) fun d => { d with logUse := d.logUse - p.2.log.length }
    s.updParcel p.1 fun p => { p with log := [] }

/-- The parcels of a context are counted no more (R217). -/
def dropCounters (s : State) (ctx : Nat) : State :=
  ((s.parcels.filter fun p => p.2.counted && p.2.ctx = ctx).map Prod.fst).foldl (init := s) uncount

/-- Whether reductions of a context are on their way. -/
def ctxReducing (s : State) (ctx : Nat) : Bool := s.agenda.any fun e => match e with
  | .reductionPerform r => r.ctx = ctx
  | _ => false

/-- The commands of a context become Free (R334). -/
def freeCommands (s : State) (ctx : Nat) : State :=
  (List.range 4).foldl (init := s) fun s d => s.updDie d fun k => { k with
    cmds := k.cmds.map fun (i, c) => (i, if c.ctx = ctx then { Command.blank with gen := c.gen } else c) }

/-- Whether a store or fold of a context's strands or commands is held at a home that still works. -/
def ctxHolds (s : State) (ctx : Nat) : Bool :=
  s.parcels.any fun p => reachable s (p.1 * 65536) && p.2.held.any fun e =>
    if e.issuer < engineId 0 0 then (s.strand e.issuer).ctx = ctx
    else (List.range 4).any fun d => (s.die d).cmds.any fun c => c.2.ctx = ctx && e.issuer = engineId d c.1

/-- Whether anything of a context that is torn down is still in flight: reductions, element trains, held writes, or commands that have not
ended (R297, R334). -/
def teardownWaits (s : State) (ctx : Nat) : Bool :=
  ctxReducing s ctx || ctxHolds s ctx || (s.agenda.any fun e => match e with
    | .elementTrain u _ _ _ _ => (s.strand u).ctx = ctx
    | _ => false) || (activeCmds s).any fun (d, e) => (s.cmd d e).ctx = ctx

/-- Whether the teardown of a context comes a step further: nothing is in flight, or the drain bound of a context that still exists has
passed (R297). -/
def teardownOver (s : State) (ctx : Nat) : Bool :=
  let c := s.context ctx
  match c.closing with
  | some t => (c.live && decide (t ≤ s.time)) || !teardownWaits s ctx
  | none => false

/-- REDUCTION_DRAIN_EXPIRY (R297): the context exists no more, what its last reductions have appended to logs is discarded (R228), and a
reduction that comes later goes to the orphan queue (DEDUCED, log entry 54). Its command table entries are Free, and its number can be
used again, once nothing of it is in flight (R334). -/
def drainExpiry (s : State) (ctx : Nat) : State :=
  if !teardownOver s ctx then s
  else
    let s := (discardLogs s ctx).updContext ctx fun c => { c with live := false }
    if teardownWaits s ctx then s
    else (freeCommands s ctx).updContext ctx fun c => { c with closing := none }

/-- CONTEXT_TEARDOWN: the strands of the context end; its commands are cancelled without interrupts, gangs dissolve and channels
are unconfigured (R334); booth entries, logs and kept storage are released (R228, R271, R287). -/
def contextTeardown (s : State) (ctx : Nat) : State :=
  let c := s.context ctx
  if !c.live || c.closing.isSome then s
  else
    let mine := (s.strands.filter fun p => p.2.ctx = ctx && p.2.run.live).map Prod.fst
    let moves := s.moves.filter fun m => mine.contains m.uid
    let s := moves.foldl (init := s) fun s m => abandonMove s m.uid
    let s := { s with
      saved := s.saved.filter fun x => !(x.members.any fun u => mine.contains u)
      preempts := s.preempts.filter fun p => !(p.members.any fun u => mine.contains u) }
    let s := mine.foldl (init := withdrawRequests s mine) fun s u => finishStrand s u
    let s := dropCounters (discardLogs (freeBooths (cancelCommands s ctx) ctx) ctx) ctx
    let s := { s with
      cores := s.cores.map fun (i, (k : Core)) => (i, { k with
        kept := k.kept.filter fun x => x.ctx != ctx
        landing := k.landing.filter fun u => !mine.contains u })
      launches := s.launches.map fun (i, (l : Launch)) => (i, if l.ctx = ctx then { l with ended := true } else l) }
    let s := s.updContext ctx fun c => { c with channels := [], gangs := [], closing := some (s.time + c.drainBound) }
    drainExpiry s ctx

/-- CONTEXT_CREATION (R273): Naing creates a context, setting its ticket check key and starting its notification and fault-log counts and SEQ numbers at 0. -/
def execContextCreation (c : ContextInit) (s0 : State) : Out :=
  .next (contextCreation s0 c)

/-- CONTEXT_TEARDOWN (R334): A context's commands, gangs, channels, booth entries and logs are released. -/
def execContextTeardown (ctx : Nat) (s0 : State) : Out :=
  .next (contextTeardown s0 ctx)

/-- REDUCTION_DRAIN_EXPIRY (R297): The teardown drain bound expires and late reductions are discarded. -/
def execReductionDrainExpiry (ctx : Nat) (s0 : State) : Out :=
  .next (drainExpiry s0 ctx)

end Sys2Proof.Machine
end

