-- ==== Sys2Proof/Machine/Launch.lean ====
section
/-! DEFINITION. Launch queues, the checks of a launch record, completion, and gangs (R58, R59, R61, R386-R393, R397, R401,
R402). -/

namespace Sys2Proof.Machine

/-! Reads of the dispatch unit. -/

/-- n bytes of a context, parcel by parcel: a fault is a translation or permission fault, or poison
(DEDUCED, log entry 83). -/
def ctxBytes (s : State) (ctx : Nat) (va : Word) (n : Nat) : Nat → Except Trap (List Byte)
  | 0 => if n = 0 then .ok [] else .error ⟨6, 0, va⟩
  | fuel + 1 =>
    if n = 0 then .ok []
    else match walk s false ctx va with
      | .error x => .error x
      | .ok l => match checkLeaf .load l va with
        | some x => .error x
        | none =>
          let k := min n (65536 - va.toNat % 65536)
          if poisonedAt s l k then .error ⟨11, 0, va⟩
          else match ctxBytes s ctx (va + BitVec.ofNat 64 k) (n - k) fuel with
            | .error x => .error x
            | .ok bs => .ok (decrypted s l (homeRead s l.pa k) ++ bs)

/-- n bytes of a context. -/
def ctxRead (s : State) (ctx : Nat) (va : Word) (n : Nat) : Except Trap (List Byte) := ctxBytes s ctx va n (n / 65536 + 2)

/-- A little-endian field of some bytes. -/
def fieldAt (bs : List Byte) (o n : Nat) : Nat := leNat ((bs.drop o).take n)

/-- Bytes of a ring or control block, which must lie in a home-class, writable parcel of tier 0 (R386) and be there to read: a fenced die's
memory, an empty key slot and a poisoned line fault (R27, R250, R424; DEDUCED, log entry 120). -/
def queueBytes (s : State) (ctx : Nat) (va : Word) (n : Nat) : Option (List Byte) :=
  match walk s false ctx va with
  | .error _ => none
  | .ok l => if l.cls = 2 && l.writable && l.tier = 0 && !poisonedAt s l n then some (decrypted s l (homeRead s l.pa n)) else none

/-- Whether a queue's whole ring lies in such parcels. -/
def ringSound (s : State) (d : LaunchQueue) : Bool :=
  let first := d.ring.toNat / 65536
  let last := (d.ring.toNat + 64 * 2 ^ d.log2n - 1) / 65536
  (List.range (last + 1 - first)).all fun i => (queueBytes s d.ctx (BitVec.ofNat 64 ((first + i) * 65536)) 0).isSome

/-! The image header (R58, R61). -/

/-- The loop table entries in use: kind, source, trip count slot, constant count, chunk. -/
def loopEntries (bs : List Byte) : List (Nat × Nat × Nat × Nat × Nat) :=
  (List.range (fieldAt bs 0x0C 1)).map fun k =>
    let o := 0x40 + 16 * k
    (fieldAt bs o 1, fieldAt bs (o + 1) 1, fieldAt bs (o + 2) 1, fieldAt bs (o + 4) 4, fieldAt bs (o + 8) 4)

/-- A loop table entry that breaks R58. -/
def badLoop (bs : List Byte) (k : Nat) : Bool :=
  let o := 0x40 + 16 * k
  let kind := fieldAt bs o 1
  let source := fieldAt bs (o + 1) 1
  if fieldAt bs 0x0C 1 ≤ k then fieldAt bs o 16 != 0
  else kind = 0 || decide (3 < kind) || decide (1 < source) || decide (3 < fieldAt bs (o + 2) 1) || fieldAt bs (o + 3) 1 != 0
    || fieldAt bs (o + 12) 4 != 0 || (source = 1 && fieldAt bs (o + 2) 1 != 0) || (source = 0 && fieldAt bs (o + 4) 4 != 0)
    || ((kind = 2) != (fieldAt bs (o + 8) 4 != 0))

/-- The order of the levels: at most one die-spatial level, first; core-spatial levels; temporal levels. -/
def levelsOrdered : List Nat → Bool
  | 3 :: ks => rest ks
  | ks => rest ks
where
  /-- Core-spatial levels, then temporal ones. -/
  rest : List Nat → Bool
    | 2 :: ks => rest ks
    | ks => ks.all (· = 1)

/-- The relocation entries: offset, kind, reserved bits, addend (R61). -/
def relocations (bs : List Byte) : List (Nat × Nat × Nat × Nat) :=
  (List.range (fieldAt bs 0x3C 4)).map fun k =>
    let o := fieldAt bs 0x38 4 + 16 * k
    (fieldAt bs o 4, fieldAt bs (o + 4) 2, fieldAt bs (o + 6) 2, fieldAt bs (o + 8) 8)

/-- Bytes with some of them replaced from offset o. -/
def patch (bs : List Byte) (o : Nat) (x : List Byte) : List Byte := bs.take o ++ x ++ bs.drop (o + x.length)

/-- The digest of an image as it was linked (R58, R61). -/
def imageDigest (bs : List Byte) : BitVec 256 :=
  let linked := (relocations bs).foldl (init := bs) fun bs r => patch bs r.1 (leBytes 8 r.2.2.2)
  Keccak.shake256Digest (patch linked 0xE0 (List.replicate 32 0))

/-- Where the sections end that follow one another from byte e on: each starts at the first multiple of 64 KiB at or after the end of what
precedes it, and an empty one takes no space. -/
def sectionsEnd (bs : List Byte) : List Nat → Nat → Option Nat
  | [], e => some e
  | k :: ks, e =>
    let off := fieldAt bs (0x18 + 8 * k) 4
    let n := fieldAt bs (0x1C + 8 * k) 4
    if off = (e + 65535) / 65536 * 65536 then sectionsEnd bs ks (if n = 0 then e else off + n) else none

/-- Sections, relocation table or image size that do not stand as R58 lays them out. -/
def badLayout (bs : List Byte) : Bool :=
  let size := fieldAt bs 8 4
  let count := fieldAt bs 0x3C 4
  let table := fieldAt bs 0x38 4
  match sectionsEnd bs [0, 1, 2] 256 with
  | none => true
  | some e =>
    if count = 0 then table != 0 || size != e
    else table != (e + 15) / 16 * 16 || size != table + 16 * count

/-- An image that breaks R58, or whose relocations name a doubleword that is not whole within the image (code 4 of R393; the latter
DEDUCED, log entry 48). -/
def badImage (bs : List Byte) : Bool :=
  let size := fieldAt bs 8 4
  fieldAt bs 0 4 != 0x314E4451 || fieldAt bs 4 2 != 1 || decide (1 < fieldAt bs 6 2) || decide (size < 256)
    || decide (4 < fieldAt bs 0x0C 1) || fieldAt bs 0x0D 1 = 0 || decide (7 < fieldAt bs 0x0D 1) || fieldAt bs 0x0E 2 != 0
    || (fieldAt bs 6 2 = 0 && fieldAt bs 0x14 4 != 0) || fieldAt bs 0x30 4 % 16 != 0
    || badLayout bs || (List.range 4).any (badLoop bs)
    || !levelsOrdered ((loopEntries bs).map fun x => x.1)
    || (List.range 4).any (fun k => fieldAt bs (0xC0 + 8 * k) 8 / 2 ^ 49 != 0)
    || (relocations bs).any (fun r => r.2.1 != 1 || r.2.2.1 != 0 || decide (size < r.1 + 8))
    || (imageDigest bs).toNat != fieldAt bs 0xE0 32

/-! Expansion (R96, R349). -/

/-- The core-spatial levels: count and chunk. -/
def Launch.grid (l : Launch) : List (Nat × Nat) := (l.levels.filter fun x => x.1 = 2).map fun x => (x.2.1, x.2.2)

/-- The product of a list. -/
def product (ns : List Nat) : Nat := ns.foldl (· * ·) 1

/-- A number in mixed radix, the last digit fastest. -/
def digits (radices : List Nat) (k : Nat) : List Nat :=
  (radices.foldr (fun r (x : Nat × List Nat) => (x.1 / r, x.1 % r :: x.2)) (k, [])).2

/-- Troupes along each level. -/
def Launch.troupeGrid (l : Launch) : List Nat := l.grid.map fun x => (x.1 + x.2 - 1) / x.2

/-- The coordinates of a troupe. -/
def Launch.coords (l : Launch) (k : Nat) : List Nat := digits l.troupeGrid k

/-- The iterations of a troupe along each level. -/
def Launch.sizes (l : Launch) (k : Nat) : List Nat := (l.grid.zip (l.coords k)).map fun x => min x.1.2 (x.1.1 - x.2 * x.1.2)

/-- The strands or couples of a troupe. -/
def Launch.units (l : Launch) (k : Nat) : Nat := product (l.sizes k)

/-- Slots of a unit. -/
def Launch.per (l : Launch) : Nat := if l.coupled then 2 else 1

/-- The largest slot need of a troupe (R97). -/
def Launch.largest (l : Launch) : Nat := l.per * product (l.grid.map fun x => min x.2 x.1)

/-- CTRL of the record. -/
def Launch.ctrl (l : Launch) : Word := l.record.getD 7 0

/-- The allotment of a unit in bytes (R254). -/
def Launch.bytes (l : Launch) : Nat := l.per * ((l.ctrl.extractLsb' 16 16).toNat * 1024)

/-- Slots of a class on one base die (R97). -/
def slotsOnDie (s : State) (cls : Nat) : Nat := (coresOf s 0 cls).length * slotsOfClass cls

/-- The class on which a troupe with this slot need is placed: the first of M, V and C that is allowed and can hold it (R349). -/
def Launch.classFor (s : State) (l : Launch) (need : Nat) : Option Nat :=
  [2, 1, 0].find? fun c => l.classes.testBit c && decide (need ≤ slotsOnDie s c)

/-- The trip count TCk of a record (R389). -/
def tripCount (record : List Word) (k : Nat) : Nat := ((record.getD (3 + k / 2) 0).extractLsb' (k % 2 * 32) 32).toNat

/-- The base dies of the stages (R398). -/
def stageDies (s : State) (accepting : Nat) (levels : List (Nat × Nat × Nat)) : List Nat :=
  match levels.find? fun x => x.1 = 3 with
  | none => [accepting]
  | some (_, n, _) =>
    let live := (List.range 4).filter fun d => !(s.die d).fenced
    (List.range n).map fun i => live.getD (i % live.length) accepting

/-- Units that a core of a class holds when everything on it is free (R398). -/
def Launch.perCore (l : Launch) (cls : Nat) : Nat :=
  let slots := slotsOfClass cls / l.per
  let pad := if l.bytes = 0 then slots else allotable cls / l.bytes
  let win := if l.windowDecls.isEmpty then slots else 16 / l.windowDecls.length
  min slots (min pad win)

/-- What is left of three capacities when some unit count is put into one of them. -/
def takeUnits (allowed n : Nat) (c : Nat × Nat × Nat) : List (Nat × Nat × Nat) :=
  (if allowed.testBit 0 ∧ n ≤ c.1 then [(c.1 - n, c.2.1, c.2.2)] else [])
    ++ (if allowed.testBit 1 ∧ n ≤ c.2.1 then [(c.1, c.2.1 - n, c.2.2)] else [])
    ++ (if allowed.testBit 2 ∧ n ≤ c.2.2 then [(c.1, c.2.1, c.2.2 - n)] else [])

/-- Whether a die can hold all its troupes of a co-resident launch at once (R398). -/
def Launch.capacityOn (s : State) (l : Launch) (die : Nat) : Bool :=
  let cap := fun (cls : Nat) => ((coresOf s die cls).filter fun c => !(s.core c).fenced).length * l.perCore cls
  let stages := (l.dies.filter (· = die)).length
  let troupes := (List.range stages).flatMap fun _ => (List.range l.troupes).map l.units
  !(troupes.foldl (init := [(cap 0, cap 1, cap 2)]) fun cs n => (cs.flatMap (takeUnits l.classes n)).eraseDups).isEmpty

/-! The checks of a record (R393). -/

/-- A refusal: code, cause and sub-cause. -/
abbrev Refused := Nat × Nat × Nat

/-- The gang descriptor (R401): tag, members, index and timeout in ns, 0 meaning the context's. -/
def gangDescriptor (bs : List Byte) : Option (Word × Nat × Nat × Nat) :=
  let (tag, members, self, tmo) := (fieldAt bs 0 8, fieldAt bs 8 2, fieldAt bs 0x0A 2, fieldAt bs 0x0C 4)
  if tag = 0 ∨ members < 2 ∨ 256 < members ∨ members ≤ self ∨ 1000000 < tmo ∨ fieldAt bs 0x10 16 ≠ 0 then none
  else some (BitVec.ofNat 64 tag, members, self, tmo * 1000)

/-- The first check. -/
def badRecord (r : List Word) : Bool :=
  let w := fun i => (r.getD i 0).toNat
  decide (2 ^ 53 ≤ w 7) || decide (7 < w 7 % 256) || (w 7 / 2 ^ 11) % 32 != 0 || w 0 % 65536 != 0 || w 1 % 8 != 0 || w 5 % 8 != 0

/-- A launch from a record and its image, before the later checks. -/
def Launch.ofImage (s : State) (q index : Nat) (d : LaunchQueue) (r : List Word) (bs : List Byte) (bases : List Word) : Launch :=
  let image := r.getD 0 0
  let levels := (loopEntries bs).map fun (kind, source, slot, const, chunk) =>
    (kind, if source = 0 then tripCount r slot else const, chunk)
  let pref := (r.getD 7 0).toNat / 256 % 8
  let dies := stageDies s d.die levels
  let l : Launch := { Launch.blank with
    queue := q, ctx := d.ctx, tier := max d.tier ((r.getD 7 0).toNat % 256), index := index, record := r
    coupled := fieldAt bs 6 2 = 1
    entryA := image + BitVec.ofNat 64 (fieldAt bs 0x10 4)
    entryX := image + BitVec.ofNat 64 (fieldAt bs 0x14 4)
    stack := fieldAt bs 0x30 4
    classes := if pref = 0 then fieldAt bs 0x0D 1 else fieldAt bs 0x0D 1 &&& pref
    levels := levels
    queueDecls := (List.range 16).map fun k => BitVec.ofNat 32 (fieldAt bs (0x80 + 4 * k) 4)
    windowDecls := (List.range 4).filterMap fun k =>
      let w := fieldAt bs (0xC0 + 8 * k) 8
      if w / 65536 % 65536 = 0 then none
      else some (k, bases.getD k 0, BitVec.ofNat 64 (w % 2 ^ 32 + k * 2 ^ 32), w / 2 ^ 48 % 2 = 1)
    dies := dies
    waitStart := s.time
    waits := []
    ended := false
    timeout := (s.context d.ctx).gangTimeout }
  { l with troupes := product l.troupeGrid }

/-- The 4th to the 7th check (DEDUCED, log entry 48). -/
def Launch.check (s : State) (l : Launch) : Option Refused :=
  let work := l.levels.all fun x => x.2.1 != 0
  let fits := fun (cls : Nat) => l.classes.testBit cls && decide (l.bytes ≤ allotable cls)
  if l.levels.any fun x => x.1 = 3 && decide (16 < x.2.1) then some (5, 0, 0)
  else if l.classes = 0 || (work && (l.classFor s l.largest).isNone) then some (6, 0, 0)
  else if !(fits 0 || fits 1 || fits 2) || decide (l.bytes < l.stack) then some (7, 0, 0)
  else if work && l.ctrl.getLsbD 48 && (List.range 4).any (fun d => l.dies.contains d && !l.capacityOn s d) then some (8, 0, 0)
  else none

/-- The global bases of the declared windows, from the parameter block, as they stand when the record is accepted; an offset beyond the
block's size is read all the same (R59; DESIGN CHOICE, log entry 98). -/
def windowBases (s : State) (ctx : Nat) (param : Word) (hdr : List Byte) : List Nat → Except Trap (List Word)
  | [] => .ok []
  | k :: ks =>
    let w := fieldAt hdr (0xC0 + 8 * k) 8
    match (if w / 65536 % 65536 = 0 then .ok [] else ctxRead s ctx (param + BitVec.ofNat 64 (w / 2 ^ 32 % 65536)) 8),
        windowBases s ctx param hdr ks with
    | .ok bs, .ok rest => .ok (leWord 64 bs :: rest)
    | .error x, _ => .error x
    | _, .error x => .error x

/-- The image and, with it, everything that the second check reads: the image's bytes and the bases of its windows. -/
def readImage (s : State) (ctx : Nat) (r : List Word) : Except Trap (List Byte × List Word) :=
  match ctxRead s ctx (r.getD 0 0) 256 with
  | .error x => .error x
  | .ok hdr =>
    let size := fieldAt hdr 8 4
    match (if size < 256 then .ok hdr else ctxRead s ctx (r.getD 0 0) size), ctxRead s ctx (r.getD 1 0) (fieldAt hdr 0x34 4),
        windowBases s ctx (r.getD 1 0) hdr [0, 1, 2, 3] with
    | .ok bs, .ok _, .ok bases => .ok (bs, bases)
    | .error x, _, _ => .error x
    | _, .error x, _ => .error x
    | _, _, .error x => .error x

/-- The gang of a record: a refusal, or what the launch holds of it. -/
def readGang (s : State) (ctx : Nat) (r : List Word) : Except Refused (Option (Word × Nat × Nat × Nat)) :=
  if (r.getD 7 0).getLsbD 52 then
    match ctxRead s ctx (r.getD 1 0) 32 with
    | .error x => .error (3, x.cause, x.sub)
    | .ok bs => match gangDescriptor bs with
      | none => .error (2, 0, 0)
      | some g => .ok (some g)
  else .ok none

/-- A record checked in the order of R393. -/
def checkRecord (s : State) (q index : Nat) (d : LaunchQueue) (r : List Word) : Except Refused Launch :=
  if badRecord r then .error (2, 0, 0)
  else match readGang s d.ctx r with
    | .error e => .error e
    | .ok g => match readImage s d.ctx r with
      | .error x => .error (3, x.cause, x.sub)
      | .ok (bs, bases) =>
        if badImage bs then .error (4, 0, 0)
        else
          let l := Launch.ofImage s q index d r bs bases
          match l.check s with
          | some e => .error e
          | none => match g with
            | none => .ok l
            | some (tag, members, self, tmo) => .ok { l with
                tag := tag, members := members, self := self, timeout := if tmo = 0 then l.timeout else tmo
                announced := ((s.module.heard.filter fun h => h.1 = tag && h.2 != self && decide (h.2 < members)).map Prod.snd).eraseDups }

/-! Acceptance (R388, R391, R392). -/

/-- Whether a base die's dispatch unit works (R24, R27, R430). -/
def dispatching (s : State) (die : Nat) : Bool := s.module.bootStat = 3 && !s.module.thermal && !(s.die die).fenced

/-- Whether a queue's next record can be read, or its ring be found bad. -/
def acceptable (s : State) (q : Nat) : Bool :=
  let d := s.queueDesc q
  d.state = 1 && d.placing.isNone && dispatching s d.die && !(s.context d.ctx).lost &&
    match queueBytes s d.ctx d.cb 64 with
    | none => true
    | some cb => fieldAt cb 0 8 != fieldAt cb 8 8

/-- LAUNCH_RECORD_ACCEPT (R391). -/
def acceptRecord (s : State) (q : Nat) : State :=
  let d := s.queueDesc q
  if !acceptable s q then s
  else match queueBytes s d.ctx d.cb 64 with
    | none => queueError s q 12 0 0 0 true
    | some cb =>
      let tail := fieldAt cb 0 8
      let head := fieldAt cb 8 8
      if 2 ^ d.log2n < (tail + 2 ^ 64 - head) % 2 ^ 64 then queueError s q 1 0 0 head true
      else if !ringSound s d then queueError s q 12 0 0 head true
      else match queueBytes s d.ctx (d.ring + BitVec.ofNat 64 (64 * (head % 2 ^ d.log2n))) 64 with
        | none => queueError s q 12 0 0 head true
        | some bs =>
          let r := (List.range 8).map fun i => BitVec.ofNat 64 (fieldAt bs (8 * i) 8)
          let s := ctxPut s d.ctx (d.cb + 8) (leBytes 8 (head + 1))
          match checkRecord s q head d r with
          | .error (code, cause, sub) => queueError s q code cause sub head false
          | .ok l =>
            let id := s.nextLaunch
            let work := l.levels.all fun x => x.2.1 != 0
            let l := if work then l else { l with troupes := 0, running := true }
            let s := { s with nextLaunch := id + 1, launches := Tab.set Launch.blank s.launches id l }
            let s := s.updModule fun m => { m with heard := m.heard.filter fun h => !(l.members != 0 && h.1 = l.tag) }
            if work then setPlacing s q (some id) else s

/-! Completion (R397). -/

/-- The strands of a launch whose run is not over. -/
def launchStrands (s : State) (id : Nat) : List Nat :=
  (s.strands.filter fun p => p.2.launch = id && p.2.run.live).map Prod.fst

/-- Whether a launch's gang is complete. -/
def Launch.gangComplete (l : Launch) : Bool := decide (l.members ≤ l.announced.length + 1)

/-- Whether a launch's gang timer has run out: the ns of its expiry is over, within which the gang still completes (R402). -/
def gangTimedOut (s : State) (id : Nat) : Bool :=
  let l := s.launch id
  !l.ended && !l.gangDead && !l.gangComplete && (match l.timer with
    | some t => decide (t < s.time)
    | none => false)

/-- Whether a launch is complete and its completion has not been made: one that has received cause 20 makes none (R402). -/
def completes (s : State) (id : Nat) : Bool :=
  let l := s.launch id
  l.running && !l.ended && !l.gangDead && !gangTimedOut s id && (launchStrands s id).isEmpty

/-- One more launch after its deadline, or dispatch by the starvation bound, counted in a queue's control block (R387). -/
def countQueue (s : State) (q o : Nat) : State :=
  let d := s.queueDesc q
  match ctxCount s d.ctx 4 (d.cb + BitVec.ofNat 64 o) with
  | .ok n => ctxPut s d.ctx (d.cb + BitVec.ofNat 64 o) (leBytes 4 ((n + 1) % 2 ^ 32))
  | .error _ => s

/-- LAUNCH_COMPLETION (R397). -/
def launchCompletion (s : State) (id : Nat) : State :=
  let l := s.launch id
  if !completes s id then s
  else
    let deadline := (l.record.getD 2 0).toNat
    let s := if deadline ≠ 0 ∧ deadline < s.time then countQueue s l.queue 0x18 else s
    let addr := l.record.getD 5 0
    let s := if addr = 0 then s
      else match ctxStore s l.ctx addr (leBytes 8 (l.record.getD 6 0).toNat) with
        | .ok s => s
        | .error x => faultLog s l.ctx ⟨addr, 0, x.cause, x.sub, false, 0xFF, 0⟩
    s.updLaunch id fun l => { l with ended := true }

/-! The end of strands from outside. -/

/-- Strands end where they stand: what waits on their behalf is withdrawn, and what they hold is released. -/
def terminate (s : State) (us : List Nat) : State :=
  let s := withdrawRequests s us
  let s := us.foldl (init := s) fun s u =>
    let s := ticketWithdrawal (abandonMove s u) u
    finishStrand (releaseAll s u) u
  { s with
    saved := s.saved.filter fun x => !(x.members.any fun u => us.contains u)
    preempts := s.preempts.filter fun p => !(p.members.any fun u => us.contains u) }

/-- A launch ends without a completion write: its strands are ended, and the code is written to LASTERR (R393, R402). -/
def endLaunch (s : State) (id code cause sub : Nat) : State :=
  let l := s.launch id
  let s := terminate (releaseReserved s id) (launchStrands s id)
  let s := s.updLaunch id fun l => { l with ended := true }
  let s := if (s.queueDesc l.queue).placing = some id then setPlacing s l.queue none else s
  queueError s l.queue code cause sub l.index false

/-! Gangs (R401, R402). -/

/-- Send a message to every other member of a launch's gang (R401, R402, R428). -/
def tellMembers (s : State) (l : Launch) (abort : Bool) : State :=
  let others := s.module.memberTable.filter fun m => m.tag = l.tag && m.index != l.self
  s.updModule fun m => { m with sent := m.sent ++ others.map fun x => ⟨x.port, x.endpoint, abort, l.tag, l.self⟩ }

/-- The launches of a tag that are not over. -/
def gangLaunches (s : State) (tag : Word) : List Nat :=
  (s.launches.filter fun p => p.2.members != 0 && p.2.tag = tag && !p.2.ended).map Prod.fst

/-- GANG_ANNOUNCE_RECEIVE (R401): an announcement after the expiry is ignored, and one that comes before its launch is kept. -/
def gangAnnounce (s : State) (tag : Word) (index : Nat) : State :=
  match gangLaunches s tag with
  | [] => if s.module.heard.contains (tag, index) then s else s.updModule fun m => { m with heard := m.heard ++ [(tag, index)] }
  | ids => ids.foldl (init := s) fun s id =>
    let l := s.launch id
    if l.gangDead || gangTimedOut s id || index = l.self || decide (l.members ≤ index) || l.announced.contains index then s
    else s.updLaunch id fun l =>
      let l := { l with announced := l.announced ++ [index] }
      if l.gangComplete then { l with timer := none } else l

/-- The gang of a launch fails: its commands that name a scale-out port fail with sub-cause 11, and every strand of it that has not
exited receives cause 20 (R370, R402). -/
def gangFail (s : State) (id : Nat) : State :=
  let l := s.launch id
  let s := s.updLaunch id fun l => { l with gangDead := true, timer := none }
  let s := (activeCmds s).foldl (init := s) fun s (d, e) =>
    let c := s.cmd d e
    if c.launch = id && c.scaleOut then failCommand s d e 11 0 else s
  (launchStrands s id).foldl (init := s) fun s u => s.updStrand u fun t =>
    if t.run = .exited ∨ (!t.run.inPlay ∧ t.resumeAs = .exited) then t else { t with async20 := some l.tag }

/-- GANG_TIMEOUT (R402). -/
def gangTimeout (s : State) (id : Nat) : State :=
  if gangTimedOut s id then tellMembers (gangFail s id) (s.launch id) true else s

/-- GANG_ABORT_RECEIVE (R402) (DEDUCED, log entry 49). -/
def gangAbort (s : State) (tag : Word) : State :=
  (gangLaunches s tag).foldl (init := s) fun s id => if (s.launch id).gangDead then s else gangFail s id

/-- NAING_LAUNCH_END (R402): Naing ends a launch that has received cause 20. -/
def naingLaunchEnd (s : State) (id : Nat) : State :=
  let l := s.launch id
  if l.gangDead && !l.ended then endLaunch s id 10 0 0 else s

/-- LAUNCH_RECORD_ACCEPT (R391): A dispatch unit reads, checks and accepts the next launch record. -/
def execLaunchRecordAccept (q : Nat) (s0 : State) : Out :=
  .next (acceptRecord s0 q)

/-- LAUNCH_COMPLETION (R397): All strands are Done and CVAL is written to CADDR. -/
def execLaunchCompletion (launch : Nat) (s0 : State) : Out :=
  .next (launchCompletion s0 launch)

/-- GANG_ANNOUNCE_RECEIVE (R401): An announcement from another gang member arrives. -/
def execGangAnnounceReceive (tag : BitVec 64) (index : Nat) (s0 : State) : Out :=
  .next (gangAnnounce s0 tag index)

/-- GANG_TIMEOUT (R402): The collective timer expires before the gang is complete. -/
def execGangTimeout (launch : Nat) (s0 : State) : Out :=
  .next (gangTimeout s0 launch)

/-- GANG_ABORT_RECEIVE (R402): An abort for a gang tag arrives from another member. -/
def execGangAbortReceive (tag : BitVec 64) (s0 : State) : Out :=
  .next (gangAbort s0 tag)

/-- NAING_LAUNCH_END (R402): Naing ends a launch after cause 20, writing code 10 to LASTERR without the completion write. -/
def execNaingLaunchEnd (launch : Nat) (s0 : State) : Out :=
  .next (naingLaunchEnd s0 launch)

end Sys2Proof.Machine
end

