-- ==== Sys2Proof/Machine/Place.lean ====
section
/-! DEFINITION. The dispatch unit: candidates, the choice among them, and the placement of troupes (R394-R400). -/

namespace Sys2Proof.Machine

/-! Placement (R396). -/

/-- What a core has free for a launch: slots, bytes of scratchpad, window descriptors. -/
structure Free where
  core : Nat
  slots : List Nat
  bytes : Nat
  wins : Nat

/-- What a core has free for launch id; the slots that the launch has reserved count as free, and kept windows that give way to its
tier too (R92, R271, R398, R399). -/
def freeOn (s : State) (id core : Nat) : Free :=
  let l := s.launch id
  let mine := (l.reserved.flatMap fun r => r.2.filter fun c => c.1 = core).flatMap fun c => c.2
  let others := claims s core []
  let firm := (s.core core).kept.filter fun k => !k.givesWay l.tier
  let p := promised s core id
  let free := (List.range (slotsOfClass (classOf s core))).filter fun k =>
    mine.contains k || (s.freeSlots core).contains k
  { core := core
    slots := if (s.core core).fenced then [] else free
    bytes := allotable (classOf s core) - ((others.map fun u => (s.strand u).allotSize).sum + keptBytes firm + p.1)
    wins := 16 - ((others.map fun u => (s.strand u).windows.length).sum + firm.length + p.2) }

/-- Units put on one core, as many as it can take: their slots, what is left of the core, and how many units remain. -/
def Launch.onCore (l : Launch) : Nat → Free → List (Nat × List Nat) × Free
  | 0, f => ([], f)
  | n + 1, f =>
    if l.per ≤ f.slots.length ∧ l.bytes ≤ f.bytes ∧ l.windowDecls.length ≤ f.wins then
      let (us, g) := l.onCore n { f with
        slots := f.slots.drop l.per, bytes := f.bytes - l.bytes, wins := f.wins - l.windowDecls.length }
      ((f.core, f.slots.take l.per) :: us, g)
    else ([], f)

/-- n units put on cores in their order: where they stand and what is left, or none when they do not all fit. -/
def Launch.pack (l : Launch) : Nat → List Free → Option (List (Nat × List Nat) × List Free)
  | 0, fs => some ([], fs)
  | _ + 1, [] => none
  | n + 1, f :: fs =>
    let (us, g) := l.onCore (n + 1) f
    match l.pack (n + 1 - us.length) fs with
    | some (vs, gs) => some (us ++ vs, g :: gs)
    | none => none

/-- The cores of a class on a die in the order in which a launch takes them: with KEEPW those with kept storage of its context
first, then ascending (R396, R399). -/
def coreOrder (s : State) (l : Launch) (die cls : Nat) : List Nat :=
  let cs := coresOf s die cls
  let kept := fun (c : Nat) => (s.core c).kept.any fun k => k.ctx = l.ctx
  if l.ctrl.getLsbD 49 then cs.filter kept ++ cs.filter (fun c => !kept c) else cs

/-- A troupe's place: its stage and number, its class, and the core and slots of each unit. -/
structure Plan where
  stage : Nat
  troupe : Nat
  cls : Nat
  units : List (Nat × List Nat)

/-- Troupes planned one after another on a die; what is free is given per class. -/
def planAll (s : State) (l : Launch) : List (Nat × Nat) → (Nat → List Free) → Option (List Plan)
  | [], _ => some []
  | (stage, k) :: rest, free =>
    match l.classFor s (l.per * l.units k) with
    | none => none
    | some cls => match l.pack (l.units k) (free cls) with
      | none => none
      | some (us, fs) => match planAll s l rest (fun c => if c = cls then fs else free c) with
        | none => none
        | some ps => some (⟨stage, k, cls, us⟩ :: ps)

/-- What is free on a die for a launch, per class. -/
def freeOfDie (s : State) (id die : Nat) : Nat → List Free :=
  fun cls => (coreOrder s (s.launch id) die cls).map (freeOn s id)

/-- The troupes of a launch on a die that are not placed, in troupe order. -/
def Launch.remaining (l : Launch) (die : Nat) : List (Nat × Nat) :=
  l.dies.zipIdx.flatMap fun (d, stage) =>
    if d = die then ((List.range l.troupes).drop (Tab.get 0 l.placed stage)).map fun k => (stage, k) else []

/-- Whether a launch is co-resident. -/
def Launch.together (l : Launch) : Bool := l.ctrl.getLsbD 48

/-- The troupes that the next dispatch of a launch on a die places: one, or all for a co-resident launch (R398). -/
def Launch.next (l : Launch) (die : Nat) : List (Nat × Nat) :=
  if l.together then l.remaining die else (l.remaining die).take 1

/-- The plan of a launch's next dispatch on a die, if it fits (R394). -/
def planNext (s : State) (id die : Nat) : Option (List Plan) := planAll s (s.launch id) ((s.launch id).next die) (freeOfDie s id die)

/-! Starting strands (R57, R95-R99, R254, R276, R349, R353, R403). -/

/-- The iteration index of a strand at each level: the stage, the place in the troupe grid, or 0. -/
def levelIndices (stage : Nat) : List (Nat × Nat × Nat) → List Nat → List Nat
  | [], _ => []
  | (3, _, _) :: ls, cs => stage :: levelIndices stage ls cs
  | (2, _, _) :: ls, c :: cs => c :: levelIndices stage ls cs
  | _ :: ls, cs => 0 :: levelIndices stage ls cs

/-- The iteration of unit j of a troupe along each core-spatial level (R96, R108). -/
def Launch.iteration (l : Launch) (k j : Nat) : List Nat :=
  ((l.grid.zip (l.coords k)).zip (digits (l.sizes k) j)).map fun x => x.1.2 * x.1.1.2 + x.2

/-- A strand of a launch as it starts in a slot: exec says whether it is the execute strand of a couple. TROUPEID keeps the low 32 bits
of the troupe number, so that its reserved bits stay 0 (R5, R99; DESIGN CHOICE, log entry 96). -/
def startStrand (s : State) (id : Nat) (p : Plan) (core j uid slot partner : Nat) (exec : Bool) : Strand :=
  let l := s.launch id
  let die := l.dies.getD p.stage 0
  let allot := if exec then 0 else l.bytes
  let quota := (l.ctrl.extractLsb' 32 16).toNat
  let x3 : Tab Word := Tab.set 0 [] 3 (l.record.getD 1 0)
  { Strand.blank with
    run := .ready
    pc := if exec then l.entryX else l.entryA
    x := if exec then x3 else Tab.set 0 x3 2 (BitVec.ofNat 64 (apertureBase + l.bytes))
    gvl := grantGvl s uid
    strandId := BitVec.ofNat 64 (j % 2 ^ 15 + if exec then 2 ^ 15 else 0)
    troupeId := BitVec.ofNat 64 (p.troupe % 2 ^ 32)
    stageId := BitVec.ofNat 64 (p.stage + die * 2 ^ 8)
    core := core
    slot := slot
    ctx := l.ctx
    coupled := l.coupled
    partner := partner
    allotSize := allot
    travel := { Strand.blank.travel with credits := (s.context l.ctx).creditCap, allowed := l.classes, launchClass := p.cls }
    ticketQuota := if quota = 0 then 4096 else quota
    trapVec := s.module.vec &&& ~~~(3 : Word)
    saveBase := Config.saveBase s.tick (if exec then partner else uid)
    flogBase := (s.context l.ctx).faultLog
    trace := { Strand.blank.trace with admitted := l.ctrl.getLsbD 51, replay := l.ctrl.getLsbD 50, sampled := s.clock }
    cycleFrom := s.clock
    launch := id
    levelIndex := (levelIndices p.stage l.levels (l.iteration p.troupe j)).zipIdx.foldl (init := []) fun t (v, i) => Tab.set 0 t i v
    levelTrip := l.levels.zipIdx.foldl (init := []) fun t (v, i) => Tab.set 0 t i v.2.1 }

/-- Place unit j of a troupe: kept windows give way, and its strands are there (R271, R396). A unit of the troupe that has just been placed
(fresh) holds a descriptor for each declared window, though it is not bound yet. Kept storage that a declared window will adopt counts
beside the whole allotment and all descriptors, and may be released before it is adopted (R399; DESIGN CHOICE, log entry 119). The answer
is the strand that owns the unit's queues and windows. -/
def placeUnit (s : State) (id : Nat) (p : Plan) (j core : Nat) (slots fresh : List Nat) : Nat × State :=
  let l := s.launch id
  let u := s.nextUid
  let s := switchContext s core l.ctx
  let others := claims s core []
  let s := keptRoom s core l.tier [] ((others.map fun v => (s.strand v).allotSize).sum + l.bytes)
    ((others.map fun v => if fresh.contains v then l.windowDecls.length else (s.strand v).windows.length).sum + l.windowDecls.length)
  let a := startStrand s id p core j u (slots.getD 0 0) (u + 1) false
  let x := startStrand s id p core j (u + 1) (slots.getD 1 0) u true
  let s := { s with nextUid := u + l.per }
  (u, if l.coupled then (s.setStrand u a).setStrand (u + 1) x else s.setStrand u { a with partner := 0 })

/-- Apply an image's declarations as QCFG, WMAP and WKEEP would (R59). -/
def declare (l : Launch) : M Unit := do
  l.queueDecls.zipIdx.forM fun (w, q) => if w = 0 then pure () else configureQueue q (w.setWidth 64)
  l.windowDecls.forM fun (k, base, word, keep) => do
    let _ ← bindWindow base word
    if keep then keepBound true (BitVec.ofNat 2 k)

/-- Apply the declarations of several units; the first that traps ends it (R59). -/
def declareAll (l : Launch) : List Nat → State → Except Trap State
  | [], s => .ok s
  | u :: us, s => match declare l { s with cur := u } with
    | .ok _ s' => declareAll l us { s' with cur := s.cur }
    | .error (.trap x) _ => .error x
    | .error (.trapAt x _) _ => .error x
    | .error _ _ => declareAll l us s

/-- Place a troupe (R396). The first troupe of a gang launch announces it (R401); a declaration that traps fails the launch (R59,
R393). -/
def placeTroupe (s : State) (id : Nat) (p : Plan) : State :=
  let l := s.launch id
  if l.ended then s
  else
    let s := if l.members != 0 && l.placed.isEmpty then tellMembers s l false else s
    let (us, s) := p.units.zipIdx.foldl (init := (([] : List Nat), s)) fun (us, s) (x, j) =>
      let (u, s) := placeUnit s id p j x.1 x.2 us
      (us ++ [u], s)
    let s := s.updLaunch id fun l => { l with
      placed := Tab.set 0 l.placed p.stage (p.troupe + 1)
      waits := Tab.set 0 l.waits (l.dies.getD p.stage 0) s.time }
    match declareAll l us s with
    | .ok s => s
    | .error x => endLaunch s id 9 x.cause x.sub

/-- Once its last troupe is placed, a launch is running (R391). -/
def settlePlacing (s : State) (id : Nat) : State :=
  let l := s.launch id
  if !l.ended && l.dies.zipIdx.all (fun x => Tab.get 0 l.placed x.2 = l.troupes) then
    setPlacing (s.updLaunch id fun l => { l with running := true }) l.queue none
  else s

/-! Candidates (R394). -/

/-- A candidate of a dispatch unit: a launch's next troupe, or a saved unit. -/
inductive Offer where
  | launch (id : Nat)
  | unit (x : SavedUnit)
  deriving DecidableEq, Repr

/-- A candidate with what orders it. -/
structure Candidate where
  offer : Offer
  tier : Nat
  deadline : Nat
  wait : Nat
  queue : Nat

/-- The candidates of a base die (DEDUCED, log entry 52). -/
def offers (s : State) (die : Nat) : List Candidate :=
  let deadline := fun (l : Launch) => (l.record.getD 2 0).toNat
  (s.launches.filterMap fun (id, l) =>
    if !l.ended && !l.running && !(l.remaining die).isEmpty then some ⟨.launch id, l.tier, deadline l, max l.waitStart (Tab.get 0 l.waits die), l.queue⟩ else none)
  ++ (s.saved.filterMap fun x =>
    let l := s.launch (s.strand (x.members.headD 0)).launch
    if x.die = die && x.marked then some ⟨.unit x, l.tier, deadline l, x.since, l.queue⟩ else none)

/-- The order within a tier: the deadline, none last; the wait start; the queue. -/
def Candidate.before (a b : Candidate) : Bool :=
  let key := fun (c : Candidate) => if c.deadline = 0 then 2 ^ 64 else c.deadline
  decide (key a < key b) || (key a = key b && (decide (a.wait < b.wait) || (a.wait = b.wait && decide (a.queue < b.queue))))

/-- The first of some candidates by an order. -/
def firstBy (less : Candidate → Candidate → Bool) : List Candidate → Option Candidate
  | [] => none
  | c :: cs => match firstBy less cs with
    | none => some c
    | some d => if less d c then some d else some c

/-- The core on which a saved unit can be resumed: the search of R351 among the classes that its strands may run on. -/
def unitCore (s : State) (x : SavedUnit) : Option Nat :=
  let u := x.members.headD 0
  let v := (s.strand u).travel
  let mask := if x.members.any fun m => !(s.strand m).gangs.isEmpty then v.allowed &&& 6 else v.allowed
  (v.launchClass :: [1, 0, 2]).findSome? fun cls =>
    if mask.testBit cls then mostFree s ((coresOf s x.die cls).filter fun c => hasRoom s c x.members x.members.length) else none

/-- The co-resident launch that waits to reserve a die next: every earlier die of it is reserved, and no other launch holds the
die (R398). -/
def claimant (s : State) (die : Nat) : Option Nat :=
  let held := s.launches.any fun p => !p.2.ended && !p.2.running && p.2.reserved.any fun r => r.1 = die
  if held then none
  else (s.launches.find? fun p =>
    let l := p.2
    let ds := (List.range 4).filter fun d => !(l.remaining d).isEmpty
    !l.ended && !l.running && l.together && ds.contains die
      && (ds.filter fun d => decide (d < die)).all fun d => l.reserved.any fun r => r.1 = d).map Prod.fst

/-- Whether a co-resident launch has reserved every die that it needs (DEDUCED, log entry 55). -/
def Launch.allReserved (l : Launch) : Bool := l.dies.all fun d => l.reserved.any (fun r => r.1 = d) || (l.remaining d).isEmpty

/-- Whether a candidate fits now (R394, R398). -/
def Candidate.fits (s : State) (die : Nat) (c : Candidate) : Bool :=
  match c.offer with
  | .launch id => (!(s.launch id).together || (s.launch id).allReserved) && (planNext s id die).isSome
  | .unit x => (unitCore s x).isSome

/-! The choice (R395). -/

/-- Whether a candidate has waited longer than the starvation bound. -/
def Candidate.starved (s : State) (c : Candidate) : Bool := decide (c.wait + s.module.starvation < s.time)

/-- The starved candidate that rule 2 takes. -/
def starvedFirst (s : State) (die : Nat) : Option Candidate :=
  firstBy (fun a b => decide (a.wait < b.wait) || (a.wait = b.wait && decide (a.queue < b.queue))) ((offers s die).filter (·.starved s))

/-- The tiers with a fitting candidate and a weight, as rule 3 takes them: the credits afterwards and the tier
(DEDUCED, log entry 51). -/
def creditChoice (s : State) (die : Nat) (tiers : List Nat) : Option (Nat × Tab Int) :=
  let w := fun (t : Nat) => Int.ofNat (Tab.get 0 s.module.weights t)
  let sum := (tiers.map w).foldl (· + ·) 0
  let credit := tiers.foldl (init := (s.die die).credit) fun c t => Tab.set 0 c t (Tab.get 0 c t + w t)
  let best := tiers.foldl (init := (none : Option Nat)) fun b t => match b with
    | none => some t
    | some x => if Tab.get 0 credit x < Tab.get 0 credit t then some t else some x
  best.map fun t => (t, Tab.set 0 credit t (Tab.get 0 credit t - sum))

/-- What a dispatch unit does next. -/
inductive Choice where
  | reserve (id : Nat)
  /-- the candidate, the credits afterwards, and whether the starvation bound forces it -/
  | dispatch (c : Candidate) (credit : Tab Int) (forced : Bool)

/-- The choice of a dispatch unit (R395, R398). -/
def choose (s : State) (die : Nat) : Option Choice :=
  let all := offers s die
  let ok := all.filter fun c => c.fits s die
  let credit := (s.die die).credit
  let first := fun (t : Nat) => firstBy Candidate.before (ok.filter fun c => c.tier = t)
  match (if (s.die die).n7 = 63 then first 7 else none) with
  | some c => some (.dispatch c credit false)
  | none => match claimant s die with
    | some id => if (planNext s id die).isSome then some (.reserve id) else none
    | none => match starvedFirst s die with
      | some c => if c.fits s die then some (.dispatch c credit true) else none
      | none =>
        let tiers := (List.range 8).filter fun t => (first t).isSome
        match creditChoice s die (tiers.filter fun t => Tab.get 0 s.module.weights t != 0) with
        | some (t, credit) => (first t).map fun c => .dispatch c credit false
        | none => match tiers.find? fun t => Tab.get 0 s.module.weights t = 0 with
          | some t => (first t).map fun c => .dispatch c credit false
          | none => none

/-- Whether a dispatch unit can dispatch or reserve something now. -/
def mayDispatch (s : State) (die : Nat) : Bool := dispatching s die && (choose s die).isSome

/-! DISPATCH. -/

/-- Reserve the slots of a co-resident launch on a die (R92, R398). -/
def reserveDie (s : State) (id die : Nat) : State :=
  match planNext s id die with
  | none => s
  | some ps =>
    let units := ps.flatMap fun p => p.units
    let s := units.foldl (init := s) fun s c => s.updCore c.1 fun k => { k with reserved := k.reserved ++ c.2 }
    s.updLaunch id fun l => { l with reserved := l.reserved ++ [(die, units)] }

/-- Place the next troupe of a launch, or all of a co-resident launch's on the die, whose reservation there ends. -/
def placeNext (s : State) (id die : Nat) : State :=
  match planNext s id die with
  | none => s
  | some ps =>
    let mine := (s.launch id).reserved.filter fun r => r.1 = die
    let s := mine.foldl (init := s) fun s r => r.2.foldl (init := s) fun s c =>
      s.updCore c.1 fun k => { k with reserved := k.reserved.filter fun x => !c.2.contains x }
    let s := s.updLaunch id fun l => { l with reserved := l.reserved.filter fun r => r.1 != die }
    settlePlacing (ps.foldl (init := s) fun s p => placeTroupe s id p) id

/-- Resume a saved unit; Naing grants its members a vector length (R101). A save area that cannot be restored loses the context
(R373). -/
def resumeUnit (s : State) (x : SavedUnit) : State :=
  match unitCore s x with
  | none => s
  | some core =>
    if saveCheck s x.base != 0 then loseSaved s x.base
    else
      let s := restoreUnit s x core 0 x.base
      x.members.foldl (init := s) fun s u => s.updStrand u fun t => { t with gvl := grantGvl s u }

/-- A candidate of a queue is dispatched on a die: the next one there of the launch that the queue is placing waits from now on (R394). -/
def restartWait (s : State) (q die : Nat) : State :=
  match (s.queueDesc q).placing with
  | some id => s.updLaunch id fun l => { l with waits := Tab.set 0 l.waits die s.time }
  | none => s

/-- DISPATCH (R395). N7 stops at 63, so that a tier-7 candidate that does not fit then keeps its claim. -/
def dispatch (s : State) (die : Nat) : State :=
  if !dispatching s die then s
  else match choose s die with
    | none => s
    | some (.reserve id) => reserveDie s id die
    | some (.dispatch c credit forced) =>
      let seven := (offers s die).any fun x => x.tier = 7
      let s := s.updDie die fun d => { d with
        credit := credit, n7 := if c.tier = 7 then 0 else if seven then min 63 (d.n7 + 1) else d.n7 }
      let s := if forced then countQueue s c.queue 0x1C else s
      match c.offer with
      | .launch id => placeNext s id die
      | .unit x => resumeUnit (restartWait s c.queue die) x

/-- Whether a starved candidate is held (R395, rule 2). -/
def holdsStarved (s : State) (die : Nat) : Bool :=
  dispatching s die && (match starvedFirst s die with
    | some c => !c.fits s die
    | none => false)

/-- STARVATION_BOUND_EXPIRY (R395): a held candidate raises a launch-queue event. -/
def starvationExpiry (s : State) (die : Nat) : State := if holdsStarved s die then s.raise 4 else s

/-- DISPATCH (R395): A dispatch unit chooses and dispatches one candidate. -/
def execDispatch (die : Nat) (s0 : State) : Out :=
  .next (dispatch s0 die)

/-- STARVATION_BOUND_EXPIRY (R395): A candidate's wait passes the starvation bound. -/
def execStarvationBoundExpiry (die : Nat) (s0 : State) : Out :=
  .next (starvationExpiry s0 die)

end Sys2Proof.Machine
end

