-- ==== Sys2Proof/Machine/Mod.lean ====
section
/-! DEFINITION. The module and the outside world: bring-up (R426, R430), the host's registers and accesses (R245, R421, R427), links
(R428), cooling and power (R23, R24, R429), errors and fencing (R25-R27, R249), and register writes by Naing (R41, R418, R422). -/

namespace Sys2Proof.Machine

/-! The identity page (R13, R421). -/

/-- DEVDISC (R13). -/
def State.devdisc (s : State) : Word :=
  let m := s.module
  let (c, v, t) := blendDies m.blend
  let f := ((List.range 4).map fun b => if (s.die b).fenced then 2 ^ b else 0).sum
  BitVec.ofNat 64 (m.step * 2 ^ 40 + m.blend * 2 ^ 32 + c * 2 ^ 28 + v * 2 ^ 24 + t * 2 ^ 20 + 4 * 2 ^ 16 + f * 2 ^ 12
    + 4 * coresPerDie m.blend)

/-- The doubleword at an offset of the identity page, as the host and Naing read it (R421). -/
def State.identity (s : State) (o : Nat) : Word :=
  let m := s.module
  match o with
  | 0x00 => 0x000078004C4D0001
  | 0x08 => s.devdisc
  | 0x10 => m.fwVer
  | 0x18 => BitVec.ofNat 64 m.bootStat
  | 0x20 => m.evStat
  | 0x28 => BitVec.ofNat 64 s.time
  | 0x38 => BitVec.ofNat 64 (m.qstat % 4 + m.quotes % 2 ^ 32 * 2 ^ 32)
  | _ =>
    if decide (0x100 ≤ o ∧ o < 0x200) && o % 8 = 0 then
      BitVec.ofNat 64 ((List.range 64).map fun b => Tab.get 0 m.fenceMap ((o - 0x100) * 8 + b) % 2 * 2 ^ b).sum
    else 0

/-! Bring-up (R426, R430). -/

/-- The length of the boot image's signature (R426). -/
def signatureLength : Nat := 29792

/-- The security version number of a boot image: the four bytes before its signature (R426). -/
def Boot.svn (b : Boot) : Nat := leNat ((b.image.drop (b.image.length - signatureLength - 4)).take 4)

/-- Whether the boot ROM accepts the image in flash (R426). -/
def Boot.accepted (b : Boot) : Bool :=
  let n := b.image.length - signatureLength
  decide (64 + 4 + signatureLength ≤ b.image.length)
    && Keccak.shake256Digest (b.image.take 64) = b.digest
    && Config.signatureVerifies (leNat (b.image.take n)) (leNat (b.image.drop n))
    && decide (b.minSvn ≤ b.svn)

/-- POWER_ON_BRING_UP: BOOTSTAT passes through 0, 1, 2 and 3, or stands at 4 when the image is refused. Device time is 0 when it
leaves 0 (R15). -/
def bringUp (s : State) : State :=
  let m := s.module
  match m.bootStat with
  | 0 => { s with clock := 0, module := { m with bootStat := 1 } }
  | 1 => { s with module := { m with bootStat := 2 } }
  | 2 =>
    if m.boot.accepted then
      { s with module := { m with bootStat := 3, fwVer := m.boot.version, root := m.boot.root, vec := m.boot.vec } }
    else { s with module := { m with bootStat := 4 } }.tellHost 2
  | _ => s

/-- POWER_LOSS: the volatile state is lost; the flash and the fused values stay (R13, R15, R426). -/
def powerLoss (s : State) : State :=
  let m := s.module
  { State.reset with tick := s.tick, module := { Module.reset with step := m.step, blend := m.blend, boot := m.boot } }

/-! The host's registers (R421, R427). -/

/-- A new nonce in the quote buffer and a DOORBELL write of 0x51 (R427): a quote that is under way takes the new nonce. -/
def quoteRequest (s : State) (nonce : BitVec 256) : State :=
  s.updModule fun m => { m with nonce := nonce, qstat := 1 }

/-- DOORBELL: the value is stored for Naing and WFI bit 2 is raised, once for the values that come before Naing reads the first. 0x51
goes to the attestation unit alone (R421, R427). -/
def doorbell (s : State) (v : Word) : State :=
  if v = 0x51 then quoteRequest s s.module.nonce
  else
    let unread := s.module.dbUnread
    let s := s.updModule fun m => { m with dbVal := v, dbUnread := true }
    if unread then s else s.raise 2

/-- The signed bytes 0x00 to 0x6F of a quote (R427). -/
def quoteBody (s : State) : List Byte :=
  let m := s.module
  leBytes 32 m.nonce.toNat ++ leBytes 8 s.devdisc.toNat ++ leBytes 32 (Keccak.shake256Digest m.boot.image).toNat ++ leBytes 4 m.boot.svn
    ++ List.replicate 4 0 ++ leBytes 32 (Config.measurement m.quotes).toNat

/-- QUOTE_READY: the signed quote appears; QSTAT reads 2 and its count is incremented (R427). -/
def quoteReady (s : State) : State :=
  if s.module.qstat ≠ 1 then s
  else
    let body := quoteBody s
    let q := body ++ (List.range 49856).map (Config.signatureByte (leNat body))
    s.updModule fun m => { m with qstat := 2, quotes := (m.quotes + 1) % 2 ^ 32, quote := q }

/-! The host's accesses (R245, R420, R421, R427, R430). -/

/-- A read of the host completes with its data. -/
def hostGets (s : State) (v : Word) : State := s.updModule fun m => { m with hostData := v }

/-- The byte at an offset of BAR0 as the host reads it: the identity page, the quote buffer and the quote (R421, R427). -/
def barByte (s : State) (o : Nat) : Byte :=
  if o < 0x1000 then (s.identity (o / 8 * 8)).extractLsb' (8 * (o % 8)) 8
  else if o < 0x1020 then s.module.nonce.extractLsb' (8 * (o - 0x1000)) 8
  else if 0x2000 ≤ o then s.module.quote.getD (o - 0x2000) 0
  else 0

/-- The host sets or clears its mask of MSI-X vector 0: one that waited is sent when the mask goes (R421). -/
def maskVector (s : State) (on : Bool) : State :=
  s.updModule fun m => { m with
    msixMasked := on
    msixPending := on && m.msixPending
    msixSent := if !on && m.msixPending then m.msixSent + 1 else m.msixSent }

/-- The host writes n bytes at an offset of BAR0: bits of EVSTAT are cleared, DOORBELL rings, and bytes of the quote buffer take a nonce;
other offsets ignore it (R421, R427). The offset past BAR0's 16 MiB stands for the host's mask of MSI-X vector 0 (DESIGN CHOICE, log entry
113). -/
def barWrite (s : State) (o n : Nat) (v : Word) : State :=
  let x : Word := BitVec.ofNat 64 (v.toNat % 256 ^ n)
  if 0x20 ≤ o ∧ o < 0x28 then s.updModule fun m => { m with evStat := m.evStat &&& ~~~(x <<< (8 * (o - 0x20))) }
  else if o = 0x30 then doorbell s x
  else if 0x1000 ≤ o ∧ o < 0x1020 then
    let m : BitVec 256 := BitVec.ofNat 256 (256 ^ n - 1) <<< (8 * (o - 0x1000))
    s.updModule fun k => { k with nonce := (k.nonce &&& ~~~m) ||| (x.setWidth 256 <<< (8 * (o - 0x1000)) &&& m) }
  else if o = 0x1000000 then maskVector s (x.getLsbD 0)
  else s

/-- The data of n bytes at an address of tier 0 or 1 for the host: decrypted under the key of the parcel's leaf, where the device knows
one; poisoned data is open (DEDUCED, log entry 60). -/
def hostRead (s : State) (pa n : Nat) (l : Option Leaf) : Word :=
  let x := homeRead s pa n
  match l with
  | some l => if poisonedAt s l n then (Config.errorValue s.tick).setWidth 64 else leWord 64 (decrypted s l x)
  | none => if (s.line (pa / 128)).code = 3 then (Config.errorValue s.tick).setWidth 64 else leWord 64 x

/-- HOST_MEMORY_ACCESS: a numbered request of a host link, performed at the home; a write to a log-enabled parcel is an append like any
other, and a transfer of the line counts (R217, R222, R235, R420). A read of a line that is tracked may leave the host a clean copy
(DESIGN CHOICE, log entry 17). Before BOOTSTAT 3, and where no memory answers, there is no effect and the data is all ones (R430;
DEDUCED, log entry 56). An address of 2^52 and more is one of BAR0, and bit 53 names the link (DESIGN CHOICE, log entry 113). -/
def hostAccess (s : State) (write : Bool) (pa size : Nat) (v : Word) : State :=
  let n := min size 8
  let host := agentHost (pa / 2 ^ 53 % 2)
  let pa := pa % 2 ^ 53
  if 2 ^ 52 ≤ pa then
    if write then barWrite s (pa - 2 ^ 52) n v
    else hostGets s (leWord 64 ((List.range n).map fun i => barByte s (pa - 2 ^ 52 + i)))
  else if s.module.bootStat ≠ 3 ∨ 1 < tierOf pa ∨ !hasMemory s pa ∨ !reachable s pa then hostGets s (BitVec.allOnes 64)
  else
    let line := pa / 128
    let k := s.line line
    let l := (s.leafOfFrame (s.movedPa pa / 65536)).map fun l => { l with pa := pa }
    let log := l.any fun l => l.logEnable && l.cls = 2
    let p := s.parcel (s.movedPa pa / 65536)
    let va := p.va.toNat / 65536 * 65536 + pa % 65536
    if write then
      if l.any fun l => keyEmpty s l then nextRequest (faultLog s p.ctx ⟨BitVec.ofNat 64 va, 0, 11, 0, false, 0xFF, 0⟩) host
      else
        let s := match l with
          | some l => touchWrite (stampKey s l n) l p.ctx (BitVec.ofNat 64 va)
          | none => s
        nextRequest (homePut s pa (leBytes n v.toNat) log p.ctx (BitVec.ofNat 64 va)) host
    else
      let s := hostGets s (hostRead s pa n l)
      if (k.code = 1 ∨ k.code = 2) ∧ Config.keepCopy s.tick line then homeReadEvent s host line
      else
        let s := match l with
          | some l => touchRead s pa p.ctx (BitVec.ofNat 64 va) l.counterEnable
          | none => s
        nextRequest s host

/-- A window without the clean words of a line that it holds untracked. -/
def Window.dropClean (w : Window) (line : Nat) : Window :=
  if w.cls = 3 then w
  else (w.phys.filter fun jp => jp.2 = line + 1).foldl (init := w) fun w jp =>
    w.setLine jp.1 (Tab.get 0 w.dirty jp.1) (Tab.get 0 w.dirty jp.1)

/-- The clean words of a line in untracked windows and in kept storage are discarded (R245). -/
def dropUntrackedWords (s : State) (line : Nat) : State :=
  { s with
    strands := s.strands.map fun (u, (t : Strand)) => (u, { t with windows := t.windows.map fun w => (w.1, w.2.dropClean line) })
    cores := s.cores.map fun (c, (k : Core)) => (c, { k with kept := k.kept.map fun x => { x with win := x.win.dropClean line } }) }

/-- Untracked copies of a line are discarded (R245). -/
def dropUntrackedCopies (s : State) (line : Nat) : State :=
  let s := dropUntrackedWords s line
  let s := (s.cores.map Prod.fst).foldl (init := s) fun s c => s.updCore c fun k =>
    { k with copies := k.copies.filter fun x => x.1 != line || x.2.tracked }
  (List.range 4).foldl (init := s) fun s d => s.updDie d fun k =>
    { k with guests := k.guests.filter fun x => x.1 != line || x.2.tracked }

/-- HOST_SNOOP: the home slice of a tier-2 line recalls the tracked copies and gives the line up; untracked copies are discarded
(R245). -/
def hostSnoop (s : State) (line : Nat) : State :=
  if tierOf (line * 128) ≠ 2 then s else dropUntrackedCopies (evictLine s line) line

/-! Fencing (R26, R27, R249, R400). -/

/-- Whether a core's own copies of a line may be dirty: it owns a copy, or a window of it holds dirty words. -/
def coreMayOwn (s : State) (core line : Nat) : Bool :=
  (match s.copyIn core line with
    | some c => c.owned
    | none => false)
  || (windowLines s core line).any fun (u, i, j) => Tab.get 0 ((s.strand u).window i).dirty j != 0

/-- Lines that fenced agents owned become Poisoned; their shared copies leave the sharer vectors (R249). -/
def fenceLines (s : State) (gone : List Nat) : State :=
  (s.lines.map Prod.fst).foldl (init := s) fun s line =>
    let k := s.line line
    if !(k.sharers.any gone.contains) then s
    else if k.code = 2 then poisonLine s line
    else s.updLine line fun k =>
      let r := k.sharers.filter fun a => !gone.contains a
      { k with code := if r.isEmpty then 0 else k.code, sharers := r }

/-- The guest copies of a base die lose the cores that are fenced; one that such a core may hold dirty is lost, and its home marks the
line Poisoned (R244, R249). -/
def fenceGuests (s : State) (die : Nat) (cores : List Nat) : State :=
  ((s.die die).guests.filter fun g => g.2.sharers.any cores.contains).foldl (init := s) fun s (line, g) =>
    if g.owned && g.sharers.any fun c => cores.contains c && coreMayOwn s c line then
      let s := g.sharers.foldl (init := s) fun s c => coreDrop s c line
      poisonLine (s.setGuest die line Copy.none) line
    else s.setGuest die line { g with sharers := g.sharers.filter fun c => !cores.contains c }

/-- Strands whose state is lost: their contexts take the context fault of SUB 0, and a strand of none ends (R26, R373). -/
def loseStrands (s : State) (us : List Nat) : State :=
  us.foldl (init := s) fun s u =>
    let c := (s.strand u).ctx
    let s := if (s.context c).live && !(s.context c).lost then loseContext s c 0 (some u) else s
    if (s.strand u).run.live then finishStrand s u else s

/-- Cores are fenced: the strands there are lost, their copies are gone, shootdowns wait for them no longer (R26, R249), and a move
toward one searches again with its credit kept (R357). -/
def fenceCores (s : State) (cores : List Nat) : State :=
  let cores := cores.filter fun c => !(s.core c).fenced
  let lost := (s.strands.filter fun p => cores.contains p.2.core && p.2.run.holdsSlot).map Prod.fst
  let s := (List.range 4).foldl (init := s) fun s d => fenceGuests s d cores
  let s := loseStrands (fenceLines s cores) lost
  let s := cores.foldl (init := s) fun s c => s.updCore c fun k => { Core.blank with fenced := true, gens := k.gens }
  let s := { s with moves := s.moves.map fun (v : Move) => match v.target with
    | some (c, _) => if cores.contains c then { v with target := none } else v
    | none => v }
  (List.range 4).foldl (init := s) fun s d => s.updDie d fun k =>
    { k with shoots := k.shoots.map fun (x : Shootdown) => { x with pending := x.pending.filter fun a => !cores.contains a } }

/-- The agents of a base die other than its cores. -/
def dieAgents (d : Nat) : List Nat := agentDie d :: (List.range 50).map (agentUnit d)

/-- A base die is fenced (R27, R249, R400): its cores, engines and dispatch unit stop, and contexts with a command on it or a launch
with a stage on it lose state (DEDUCED, log entry 58). -/
def fenceBaseDie (s : State) (d : Nat) : State :=
  if (s.die d).fenced then s
  else
    let n := coresPerDie s.module.blend
    let hit := ((activeCmds s).filter fun c => c.1 = d).map (fun c => (s.cmd c.1 c.2).ctx)
      ++ (s.launches.filter fun l => !l.2.ended && l.2.dies.contains d).map fun l => l.2.ctx
    let s := fenceCores s ((List.range n).map fun i => d * n + i)
    let s := fenceLines s (dieAgents d)
    let s := hit.foldl (init := s) fun s c => if (s.context c).live && !(s.context c).lost then loseContext s c 0 none else s
    let s := (List.range 4).foldl (init := s) fun s e => s.updDie e fun k =>
      { k with shoots := k.shoots.map fun (x : Shootdown) => { x with pending := x.pending.filter fun a => !(dieAgents d).contains a } }
    s.updDie d fun k => { k with
      fenced := true
      guests := []
      tlb := []
      cmds := k.cmds.map fun (i, c) => (i, if c.st.active then { c with st := .cancelled, released := s.tick } else c) }

/-- The cores of a compute die: die 0 of a base die is its C-die, then come the V-dies and the M-dies (R12). -/
def coresOfSite (s : State) (num : Nat) : List Nat :=
  let b := s.module.blend
  let (c, v, m) := blendDies b
  let sizes := List.replicate c 8 ++ List.replicate v 48 ++ List.replicate m 192
  let first := num / 4 * coresPerDie b + (sizes.take (num % 4)).sum
  (List.range (sizes.getD (num % 4) 0)).map fun i => first + i

/-- UNIT_FENCE: kind 0 a strand, 1 a core, 2 a compute die (base die times 4 plus its place), 3 a base die
(DEDUCED, log entry 57). -/
def unitFence (s : State) (kind num : Nat) : State :=
  match kind with
  | 0 => if (s.strand num).run.live then loseStrands s [num] else s
  | 1 => if num < 4 * coresPerDie s.module.blend then fenceCores s [num] else s
  | 2 => if num < 16 then fenceCores s (coresOfSite s num) else s
  | 3 => if num < 4 then fenceBaseDie s num else s
  | _ => s

/-- HOST_LINK_LOSS: for a host link, lines that the host owned behind it are Poisoned and its shared copies go (R249); for a scale-out
port, every command that uses it fails with sub-cause 11 (R428). -/
def linkLoss (s : State) (link : Nat) : State :=
  if link < 2 then
    let held := (s.lines.filter fun l => l.2.sharers.contains (sharerBit (agentHost link))).map Prod.fst
    let s := fenceLines s [sharerBit (agentHost link)]
    { s with hostCopies := s.hostCopies.filter fun c => !held.contains c.1 }
  else
    (activeCmds s).foldl (init := s) fun s (d, e) =>
      let c := s.cmd d e
      if (c.skind = 3 && c.sport = link) || (c.dkind = 1 && c.dport = link) then failCommand s d e 11 0 else s

/-- An error in word o of the scratchpad of a strand: the word is poisoned. In a window it is the line behind that is lost and Poisoned
(DESIGN CHOICE, log entry 31). -/
def spoilWord (s : State) (u o : Nat) : State :=
  let t := s.strand u
  if t.allotSize ≤ 4 * o then s
  else match windowAt t (4 * o) with
    | none => s.updStrand u fun t => { t with spoiled := Tab.set false t.spoiled o true }
    | some (i, j, _) =>
      let p := Tab.get 0 (t.window i).phys j
      if p = 0 then s else poisonLine (recallAll (dropWindowLine s u i j) (p - 1)) (p - 1)

/-- UNCORRECTED_ERROR (R25): kind 0 the line of physical address a, in memory, a cache or a tag; kind 1 slot c of queue b of strand a;
kind 2 entry b of booth slice a; kind 3 word b of the scratchpad of strand a. Of the arrays without a poison bit, kind 4 is cell c of
accumulator b of strand a, kind 5 its x register b, kind 6 its vector register b and kind 7 its predicate b: they hold a free value
(DESIGN CHOICE, log entry 31). -/
def uncorrected (s : State) (kind a b c : Nat) : State :=
  match kind with
  | 0 => poisonLine (recallAll s (a / 128)) (a / 128)
  | 1 => s.updQueue a b fun q => { q with slots := q.slots.modify c fun x => { x with poison := true } }
  | 2 => s.setBooth a b { s.booth a b with poison := true }
  | 3 => spoilWord s a b
  | 4 => s.updStrand a fun t => t.setAcc b { t.acc b with cells := Tab.set 0 (t.acc b).cells c ((Config.errorValue s.tick).setWidth 40) }
  | 5 => if b = 0 ∨ 31 < b then s else s.updStrand a fun t => { t with x := Tab.set 0 t.x b ((Config.errorValue s.tick).setWidth 64) }
  | 6 => if 31 < b then s else s.updStrand a fun t => { t with v := Tab.set 0 t.v b (Config.errorValue s.tick) }
  | 7 => if 63 < b then s else s.updStrand a fun t => { t with p := Tab.set 0 t.p b ((Config.errorValue s.tick).setWidth 256) }
  | _ => s

/-! Cooling and power (R23, R24, R429). -/

/-- The hottest junction that TJMAX reports. -/
def hotter (s : State) (tj : Nat) : State := s.updModule fun m => { m with tjMax := tj }

/-- THERMAL_THROTTLE: above 105 degrees the issue rate is lowered, by how much is open (DESIGN CHOICE, log entry 30). -/
def thermalThrottle (s : State) (tj : Nat) : State :=
  let s := hotter s tj
  if tj ≤ 105 then s
  else (s.updModule fun m => { m with throttle := if m.throttle ≤ 1 then m.throttle else 1 + Config.throttleRate s.tick % (m.throttle - 1) }).raise 3

/-- THERMAL_SHUTDOWN: above 115 degrees every compute die is fenced, the host hears of it and dispatch stops
(DEDUCED, log entry 59). -/
def thermalShutdown (s : State) (tj : Nat) : State :=
  let s := hotter s tj
  if tj ≤ 115 then s
  else
    let s := fenceCores s (List.range (4 * coresPerDie s.module.blend))
    ((s.updModule fun m => { m with thermal := true }).tellHost 0).raise 3

/-- POWER_CAP_THROTTLE: where the load would draw the cap or more, the cap is reached, and there and where the rails' limit would be
passed the issue rate is lowered, to rate or, in 64ths of the full rate, to the part of the load that the limit allows (R22, R23, R422,
R429). It never stops a core. Where the load is below both and no junction is hot, the throttle is lifted (DESIGN CHOICE, log entry
30). -/
def powerCapThrottle (s : State) (rate : Nat) : State :=
  let m := s.module
  let cap := if atCap s then ratePart m.pwrCap (powerLoad s) else 64
  let rail := if overRails s then ratePart (railLimit s) (railLoad s) else 64
  if !atCap s && !overRails s then (if m.tjMax ≤ 105 then s.updModule fun m => { m with throttle := 64 } else s)
  else
    let s := s.updModule fun m => { m with throttle := min m.throttle (max 1 (min rate (min cap rail))) }
    if atCap s then ((s.updModule fun m => { m with capReached := true }).tellHost 4).raise 3 else s

/-! Naing's register writes. -/

/-- Naing writes doubleword k of FENCEMAP; the host hears of a change. Bits beyond the cores are 0 (R14, R421). -/
def writeFenceMap (s : State) (k : Nat) (v : Word) : State :=
  let n := 4 * coresPerDie s.module.blend
  let old := s.module.fenceMap
  let new := (List.range 64).foldl (init := old) fun t b =>
    Tab.set 0 t (64 * k + b) (if v.getLsbD b && decide (64 * k + b < n) then 1 else 0)
  if new = old then s else (s.updModule fun m => { m with fenceMap := new }).tellHost 3

/-- Naing's assignment of scale-out port k to a context, or to none from 4096 on, and its entry in a gang's member table: the index in bits
15 to 0, the port in bits 31 to 16 and the endpoint above; port 0 takes the entry away (R428). -/
def assignPort (s : State) (k : Nat) (v : Word) : State :=
  s.updModule fun m => { m with ports := Tab.set 0 m.ports k (if v.toNat < 4096 then v.toNat + 1 else 0) }
def setMember (s : State) (tag v : Word) : State :=
  let x : Member := ⟨tag, v.toNat % 65536, v.toNat / 65536 % 65536, v.toNat / 2 ^ 32⟩
  s.updModule fun m => { m with
    memberTable := (m.memberTable.filter fun y => !(y.tag = tag && y.index = x.index)) ++ if x.port = 0 then [] else [x] }

/-- A write of register n by strand u (R41); one of KEYCTL that finds accesses in flight under its slot comes again (R424). The numbers
from 0xF00 on, which name no control register, stand for what only Naing does: 32 doublewords of FENCEMAP, from 0xF20 on the eight
scale-out ports, 0xF28 the member table of the gang whose tag u gives, and 0xF29 the fused minimum of the security version, which is never
lowered (R426, R428; DESIGN CHOICE, log entry 58). -/
def registerWrite (s : State) (u n : Nat) (v : Word) : State :=
  if 0xF20 ≤ n ∧ n < 0xF28 then assignPort s (n - 0xF20) v
  else if n = 0xF28 then setMember s (BitVec.ofNat 64 u) v
  else if n = 0xF29 then s.updModule fun m => { m with boot := { m.boot with minSvn := max m.boot.minSvn (v.toNat % 2 ^ 32) } }
  else if n = 0x921 ∧ (v = 1 ∨ v = 2) ∧ keyInFlight s s.module.keySel.toNat then s.post (.registerWrite u 0x921 v)
  else if 0xF00 ≤ n ∧ n < 0xF20 then writeFenceMap s (n - 0xF00) v
  else if csrAccess n = some true && (s.strand u).run.live then { csrWrite { s with cur := u } n v v with cur := s.cur } else s

/-- POWER_ON_BRING_UP (R430): After power or reset the module steps BOOTSTAT from 0 to 3. -/
def execPowerOnBringUp (s0 : State) : Out :=
  .next (bringUp s0)

/-- POWER_LOSS (R15): Module power is lost, and TIME, keys, caches and every volatile state are lost. -/
def execPowerLoss (s0 : State) : Out :=
  .next (powerLoss s0)

/-- DOORBELL (R421): A host doorbell write stores the value for Naing and raises an event. -/
def execDoorbell (v : BitVec 64) (s0 : State) : Out :=
  .next (doorbell s0 v)

/-- QUOTE_REQUEST (R427): A doorbell write of 0x51 starts an attestation quote. -/
def execQuoteRequest (nonce : BitVec 256) (s0 : State) : Out :=
  .next (quoteRequest s0 nonce)

/-- QUOTE_READY (R427): The signed quote appears and QSTAT reads 2. -/
def execQuoteReady (s0 : State) : Out :=
  .next (quoteReady s0)

/-- EVSTAT_CLEAR (R421): A host write clears EVSTAT event bits. -/
def execEvstatClear (m : BitVec 64) (s0 : State) : Out :=
  .next (s0.updModule fun k => { k with evStat := k.evStat &&& ~~~m })

/-- HOST_MEMORY_ACCESS (R245): A host CXL.mem access to tier 0 or 1 is performed at the home. -/
def execHostMemoryAccess (write : Bool) (pa size : Nat) (v : BitVec 64) (s0 : State) : Out :=
  .next (hostAccess s0 write pa size v)

/-- HOST_SNOOP (R245): A host snoop of a tier-2 line is answered by its home slice. -/
def execHostSnoop (line : Nat) (s0 : State) : Out :=
  .next (hostSnoop s0 line)

/-- HOST_LINK_LOSS (R428): A link is lost; lines it owned are poisoned and commands on it fail. -/
def execHostLinkLoss (link : Nat) (s0 : State) : Out :=
  .next (linkLoss s0 link)

/-- THERMAL_THROTTLE (R24): A junction passes 105 °C and the power controller throttles. -/
def execThermalThrottle (tj : BitVec 8) (s0 : State) : Out :=
  .next (thermalThrottle s0 tj.toNat)

/-- THERMAL_SHUTDOWN (R24): A junction passes 115 °C; compute dies are fenced and dispatch stops. -/
def execThermalShutdown (tj : BitVec 8) (s0 : State) : Out :=
  .next (thermalShutdown s0 tj.toNat)

/-- POWER_CAP_THROTTLE (R429): Module power reaches the cap and issue rates are lowered. -/
def execPowerCapThrottle (rate : BitVec 7) (s0 : State) : Out :=
  .next (powerCapThrottle s0 rate.toNat)

/-- UNCORRECTED_ERROR (R25): An uncorrected SRAM or DRAM error poisons the word read. -/
def execUncorrectedError (kind a b c : Nat) (s0 : State) : Out :=
  .next (uncorrected s0 kind a b c)

/-- CORRECTED_ERROR (R25): A single-bit error in an SRAM array or DRAM is corrected and counted in the per-unit soft-error counts reported to Naing and the host. -/
def execCorrectedError (site : Nat) (s0 : State) : Out :=
  .next (s0.updModule fun m => { m with corrected := Tab.set 0 m.corrected site (Tab.get 0 m.corrected site + 1) })

/-- UNIT_FENCE (R26): A failing strand, core, compute die or base die is fenced. -/
def execUnitFence (kind num : Nat) (s0 : State) : Out :=
  .next (unitFence s0 kind num)

/-- DCWORD7_COMMIT (R422): Writing DCWORD7 commits the selected launch-queue descriptor. -/
def execDcword7Commit (v : BitVec 64) (s0 : State) : Out :=
  .next (commitQueue s0 v)

/-- KEY_LOAD (R424): KEYCTL 1 installs key material into the selected slot. -/
def execKeyLoad (s0 : State) : Out :=
  .next (if keyInFlight s0 s0.module.keySel.toNat then s0.post .keyLoad else loadKey s0)

/-- KEY_ERASE (R424): KEYCTL 2 empties the selected key slot. -/
def execKeyErase (s0 : State) : Out :=
  .next (if keyInFlight s0 s0.module.keySel.toNat then s0.post .keyErase else eraseKey s0)

/-- PWRCAP_WRITE (R429): A PWRCAP write sets the clamped power cap within 1 ms. -/
def execPwrcapWrite (v : BitVec 64) (s0 : State) : Out :=
  .next (setPowerCap s0 v)

/-- RPLMODE_WRITE (R418): Writing RPLMODE sets the replay mode and clears RPLSTAT. -/
def execRplmodeWrite (v : BitVec 64) (s0 : State) : Out :=
  .next (setReplayMode s0 v)

/-- REGISTER_WRITE (R41): A write to any register without a row of its own. -/
def execRegisterWrite (u : Nat) (n : BitVec 12) (v : BitVec 64) (s0 : State) : Out :=
  .next (registerWrite s0 u n.toNat v)

end Sys2Proof.Machine
end

