-- ==== Sys2Proof/Machine/Due.lean ====
section
/-! DEFINITION. Which device events can happen now: the conditions under which the manual's events occur. The events of the
outside world (Naing's and the host's decisions, errors, links) have no condition here: they stand in the agenda. -/

namespace Sys2Proof.Machine

/-! Replay holds (R416, R417). -/

/-- The base die at which an event in flight is recorded, and its kind (R415). -/
def replayPlace (s : State) : Instr → Option (Nat × Nat)
  | .reductionPerform r => some (reductionDie s r, 1)
  | .boothFill slice _ => some (slice / 32, 3)
  | .commandEnd die _ => some (die, 4)
  | _ => none

/-- Whether replay holds an event in flight. -/
def holdsBack (s : State) (e : Instr) : Bool :=
  match replayPlace s e with
  | some (d, k) => replayGate s (heldIssuer s e) d k (holdExpired s d e) = .hold
  | none => false

/-- Whether an event of a context in mode 2 has to wait for those that have been held at its place for longer (R416). -/
def behindHold (s : State) (e : Instr) : Bool :=
  match replayPlace s e with
  | some (d, k) =>
    let u := heldIssuer s e
    let since := match (s.die d).replayHolds.find? fun h => h.1 = e with
      | some h => h.2.1
      | none => s.clock + 1
    !holdExpired s d e && placeGate s u d k false since = .hold
  | none => false

/-- The ends of commands that can happen, and those that replay holds. -/
def commandEnds (s : State) : List Instr :=
  ((activeCmds s).filter fun c => endable s c.1 c.2).map fun c => .commandEnd c.1 c.2

/-- The contexts in playback that have an event held at a base die. -/
def heldPlayback (s : State) (d : Nat) : List Nat :=
  (((heldStrands s d).map Prod.fst) ++ (s.die d).replayHolds.map fun h => heldIssuer s h.1).map (fun u => (s.strand u).ctx)
    |>.filter fun c => (s.context c).trace.rplMode.toNat % 4 = 3 && !(s.context c).trace.rplStat.getLsbD 63

/-! Events in flight. -/

/-- Whether an event in flight is an access of a strand. -/
def accessOf (s : State) (u : Nat) : Instr → Bool
  | .elementTrain v _ _ _ _ => v = u
  | .reductionPerform r => r.issuer = u
  | .tfetchSlotFill v _ _ _ _ _ _ _ => v = u
  | .boothFill slice entry => (let b := s.booth slice entry; b.issuer = u && !b.arrived)
  | _ => false

/-- Whether an entry of the log could be the next of a strand's: it names the strand, whose count of entries has not passed the entry's (R415). -/
def namesStrand (e : List Byte) (t : Strand) : Bool :=
  (e.drop 1).take 11 = ((replayEntry t 0).drop 1).take 11 && decide (t.trace.events ≤ leNat (e.drop 12))

/-- Whether the event that the log names next at a base die could still arrive: a strand that it names lives or has accesses or commands on
their way, or a launch of the context has strands to place (R417; DEDUCED, log entry 53). -/
def namedComes (s : State) (ctx d : Nat) : Bool :=
  match replayNext s ctx d with
  | none => false
  | some e =>
    (s.strands.any fun p => p.2.ctx = ctx && namesStrand e p.2
      && (p.2.run.live || s.agenda.any (accessOf s p.1) || (activeCmds s).any fun c => (s.cmd c.1 c.2).issuer = p.1))
    || (s.launches.any fun l => l.2.ctx = ctx && !l.2.ended && (List.range l.2.dies.length).any fun i => decide (Tab.get 0 l.2.placed i < l.2.troupes))
    || s.queues.any fun q => q.2.ctx = ctx && acceptable s q.1

/-- Whether an event in flight is a group of a TFETCH of a strand: the groups of one are unordered among themselves (R205). -/
def groupOf (u fetch : Nat) : Instr → Bool
  | .tfetchSlotFill v _ _ _ _ _ _ x => v = u && groupFetch x = fetch
  | _ => false

/-- Whether earlier accesses of a strand to n bytes are on their way: its own are performed in program order (R124, R280, R296). -/
def ownBefore (s : State) (earlier : List Instr) (u : Nat) (va : Word) (pa n : Nat) : Bool :=
  earlier.any fun x => writesBytes s u va pa n x || readsBytes s u va pa n x

/-- Whether bytes of a context lie above a watermark: a request for them is not made yet (R324). -/
def aboveMark (s : State) (firmware : Bool) (ctx : Nat) (va : Word) (n : Nat) : Bool :=
  !firmware && (apertureOffset va).isNone && (channelAbove s ctx va n).isSome

/-- The requests that an event in flight makes of the homes: the core that makes them, and the lines (R236). None is made before the
watermark of its bytes lets it go (R324), nor by a group that still waits for a pin (R206). -/
def requestsOf (s : State) (e : Instr) : Option (Nat × List Nat) :=
  match e with
  | .reductionPerform r =>
    if reductionLost s r || (apertureOffset (s.globalVa r.issuer r.va)).isSome || aboveMark s r.firmware r.ctx r.va (r.width / 8) then none
    else (reductionPa s r).map fun a => (r.core, [a / 128])
  | .elementTrain u _ _ _ elems => some ((s.strand u).core, elems.map fun x => x.pa / 128)
  | .tfetchSlotFill u _ _ _ _ _ _ x =>
    if (apertureOffset (s.globalVa u x.va)).isNone && mayPin s u x then some ((s.strand u).core, [x.pa / 128]) else none
  | .boothFill slice entry =>
    let b := s.booth slice entry
    if b.arrived || aboveMark s b.firmware b.ctx b.va b.size then none else some (b.core, [b.pa / 128])
  | _ => none

/-- Whether an earlier request of an event's core to one of its lines is on its way: a home takes the requests of one agent to one line
in sequence order (R236). -/
def lineBefore (s : State) (earlier : List Instr) (e : Instr) : Bool :=
  match requestsOf s e with
  | none => false
  | some (c, lines) => earlier.any fun x => match requestsOf s x with
    | some (c', lines') => c' = c && lines'.any lines.contains
    | none => false

/-- Whether an event in flight keeps a strand's later reductions waiting: an element train, or an acquiring reduction (R178, R338). -/
def stallsAll (u : Nat) : Instr → Bool
  | .elementTrain v _ _ _ _ => v = u
  | .reductionPerform r => r.issuer = u && r.acquire.isSome
  | _ => false

/-- Whether the nth event in flight may come to its place now. A reduction, a group of a tile fetch, a ticketed read and a window's fill wait for the
earlier accesses of their strand to their bytes, and for the earlier requests of their core to their lines (R236); a reduction waits for
its place, for the element trains and acquiring reductions of its strand (R178, R338), and one that releases for every earlier access of
its strand (R296). A group waits for a pin (R206), a ticketed read and a fill for the watermark of their bytes (R324), and the load or
erase of a key for the accesses in flight under its slot (R424). -/
def mayArrive (s : State) (n : Nat) : Bool :=
  match s.agenda[n]? with
  | none => false
  | some e =>
    let before := s.agenda.take n
    match e with
      | .reductionPerform r =>
        !(ownBefore s before r.issuer r.va ((reductionPa s r).getD (2 ^ 60)) (r.width / 8))
          && !(lineBefore s before e)
          && !(before.any (stallsAll r.issuer))
          && !(r.release && ((before.any (accessOf s r.issuer)) || (heldFrame s r.issuer).isSome))
          && !reductionWaits s r
      | .elementTrain _ _ _ _ _ => !(lineBefore s before e)
      | .windowFill u idx line =>
        let w := (s.strand u).window idx
        let va := w.base + BitVec.ofNat 64 (128 * line)
        !(ownBefore s before u va (Place.pa s (.window u idx line 0)) 128) && (channelAbove s (s.strand u).ctx va 128).isNone
      | .tfetchSlotFill u _ _ _ _ w _ x =>
        let others := before.filter fun y => !groupOf u (groupFetch x) y
        mayPin s u x && !(ownBefore s others u x.va x.pa w) && !(lineBefore s others e)
      | .boothFill slice entry =>
        let b := s.booth slice entry
        b.arrived || (!(ownBefore s before b.issuer b.va b.pa b.size) && !(lineBefore s before e)
          && (b.firmware || (channelAbove s b.ctx b.va b.size).isNone))
      | .keyLoad => !keyInFlight s s.module.keySel.toNat
      | .keyErase => !keyInFlight s s.module.keySel.toNat
      | .registerWrite _ n v => !(n = 0x921 && (v = 1 || v = 2) && keyInFlight s s.module.keySel.toNat)
      | _ => true

/-- Events that do not need Naing or dispatch, which come with BOOTSTAT 3 (R426, R430): those of the host, of power and of errors. -/
def Instr.early : Instr → Bool
  | .powerLoss => true
  | .doorbell _ => true
  | .quoteRequest _ => true
  | .evstatClear _ => true
  | .hostMemoryAccess _ _ _ _ => true
  | .hostLinkLoss _ => true
  | .thermalThrottle _ => true
  | .thermalShutdown _ => true
  | .uncorrectedError _ _ _ _ => true
  | .correctedError _ => true
  | _ => false

/-- Whether the nth event in flight may land now (mayArrive), in a module that has come up where the event needs one (R426, R430), and
which replay does not hold (R416). -/
def mayLand (s : State) (n : Nat) : Bool :=
  match s.agenda[n]? with
  | none => false
  | some e => mayArrive s n && (s.module.bootStat = 3 || Instr.early e) && !holdsBack s e && !behindHold s e

/-- Events that have come to their place and are held there are noted with their time, and holds of events that are gone end (R416). -/
def noteHolds (s : State) : State :=
  let come := (((List.range s.agenda.length).filter (mayArrive s)).filterMap fun n => s.agenda[n]?) ++ commandEnds s
  let s := if (List.range 4).all fun d => (s.die d).replayHolds.isEmpty then s
    else (List.range 4).foldl (init := s) fun s d => s.updDie d fun k =>
      { k with replayHolds := k.replayHolds.filter fun h => s.agenda.contains h.1 || (commandEnds s).contains h.1 }
  (come.filter fun e => holdsBack s e || behindHold s e).foldl (init := s) fun s e =>
    match replayPlace s e with
    | some (d, _) =>
      if (s.die d).replayHolds.any fun h => h.1 = e then s
      else s.updDie d fun k => { k with replayHolds := k.replayHolds ++ [(e, s.clock, false)] }
    | none => s

/-! Events of strands. -/

/-- The events that a strand's own state makes possible. -/
def strandDue (s : State) (u : Nat) (t : Strand) : List Instr :=
  (if wakeable s u then [Instr.strandWake u] else [])
    ++ (if takesInterrupt t then [.userInterruptEntry u] else [])
    ++ (match waitingTop s u with
      | some o => if o.heads s u = .ready then [.matrixPipeStep u] else []
      | none => [])
    ++ (match t.run with
      | .parked .tile => if t.tile.op.isNone then [.tileOpComplete u] else []
      | .parked (.landing _ _ _) =>
        if (s.core t.core).landing.length < 128 ∧ (landQueue s t.core).head? = some u then [.boothClaim u] else []
      | .draining => if (claimedBy s u).isEmpty then [] else [.ticketWithdrawal u]
      | .migrating => if (claimedBy s u).isEmpty then [] else [.ticketWithdrawal u]
      | _ => [])
    ++ (if t.barwts.any (barwtOver s u) then [.barwtDeadline u] else [])
    ++ (if (deliverable s u).isEmpty then [] else [.ticketDelivery u])
    ++ (match t.travel.returns with
      | r :: _ => if r ≤ s.time then [.creditReturn u] else []
      | [] => [])

/-- The moves whose carry the streamer of a base die has in hand: at most four, oldest first (R354)
(DEDUCED, log entry 61). -/
def carrying (s : State) (d : Nat) : List Move :=
  (s.moves.filter fun (m : Move) => match m.target with
    | some (c, _) => dieOf s c = d
    | none => false).take 4

/-- The events of a move (R351-R354). -/
def moveDue (s : State) (m : Move) : List Instr :=
  match m.target with
  | none =>
    if (movable s m).isSome then [.migrationCoreFreed m.uid]
    else if m.deadline < s.time ∧ (s.strand m.uid).run ≠ .migrating then [.migrationSearchExpiry m.uid]
    else []
  | some (c, _) =>
    if (carrying s (dieOf s c)).contains m && (s.couple m.uid).all fun v => drained s v then [.migrationCarryComplete m.uid] else []

/-! Events of base dies. -/

/-- The events of the booths of a base die (R278, R287). -/
def boothDue (s : State) (d : Nat) : List Instr :=
  ((List.range 32).filter fun i =>
      ((s.die d).boothWaits.any (boothAsks s (32 * d + i))) && (allocatable s (32 * d + i)).isSome).map (fun i => .boothWaitAllocate (32 * d + i))
    ++ ((s.die d).booths.filter fun b => boothExpired s b.2).map fun b => .ticketExpiry (32 * d + b.1 / 2048) (b.1 % 2048)

/-- The events of the shootdowns of a base die (R215). -/
def shootDue (s : State) (d : Nat) : List Instr :=
  (s.die d).shoots.flatMap fun x =>
    if x.pending.isEmpty then [.shootdownComplete d x.seq]
    else (x.pending.filter (mayAcknowledge s d x.seq)).map fun a => .shootdownRequest d x.seq a

/-- The events of the migration engine of a base die (R219). -/
def migrationDue (s : State) (d : Nat) : List Instr :=
  let k := s.die d
  (if k.running < 4 ∧ k.migrations.any (startable k) then [.parcelMigrationStart d] else [])
    ++ (k.migrations.filter fun m => m.phase != 0 && !shooting s d m.seq).map fun m => .parcelMigrationComplete d m.frame

/-- The events of a command (R311, R315, R321). -/
def commandDue (s : State) (d e : Nat) : List Instr :=
  let c := s.cmd d e
  (if startableCmd s d e then [Instr.commandStart d e] else [])
    ++ (if (elementMove s d e (Config.choice s.tick)).isSome then [.engineElement d e] else [])
    ++ (if !c.finished.isEmpty && decide (c.output.length < 64) then [.rowComplete d e] else [])
    ++ (let i := Instr.commandEnd d e; if endable s d e && !holdsBack s i && !behindHold s i then [i] else [])

/-- The stage queues that have bytes, or that a Running command sends into. -/
def stageKeys (s : State) : List (Nat × Nat × Nat) :=
  ((s.stageQueues.map fun q => (q.launch, q.src, q.dst)) ++ (activeCmds s).filterMap fun (d, e) =>
    let c := s.cmd d e
    if c.dkind = 1 ∧ 64 ≤ c.dport then some (c.queueKey 1) else none).eraseDups

/-- The events of a stage queue (R329). -/
def stageDue (s : State) (k : Nat × Nat × Nat) : List Instr :=
  (if (announces s k).isSome then [Instr.stageBlockAnnounce k.1 k.2.1 k.2.2] else [])
    ++ (if grants s k then [.stageBlockGrant k.1 k.2.1 k.2.2] else [])
    ++ (if (stageQueue s k).granted.isEmpty then [] else [.stageBlockPull k.1 k.2.1 k.2.2])

/-- The events of a base die that is not fenced. -/
def dieDue (s : State) (d : Nat) : List Instr :=
  boothDue s d ++ shootDue s d ++ migrationDue s d
    ++ ((activeCmds s).filter fun c => c.1 = d).flatMap (fun c => commandDue s c.1 c.2)
    ++ (if mayDispatch s d then [.dispatch d] else [])
    ++ (if holdsStarved s d && !s.module.events.getLsbD 4 then [.starvationBoundExpiry d] else [])
    ++ (if holdExpires s d then [.replayHoldExpiry d] else [])

/-- A write-back arrives after the earlier ones of its agent for the line (R235, R236); a home that has forwarded a read to the agent may
hear "gone" first (R248). -/
def writeBackDue (s : State) (w : WriteBack) : List Instr :=
  if s.writeBacks.any fun x => x.agent = w.agent && x.line = w.line && seqLater w.seq x.seq then []
  else [.homeWriteBack w.agent w.line w.seq, .goneResponse w.agent w.line w.seq]

/-- The rate to which the power controller lowers the issue rate, where the limit does not ask for less (DESIGN CHOICE, log entry 30). -/
def powerRate (s : State) : BitVec 7 := BitVec.ofNat 7 (1 + Config.throttleRate s.tick % 64)

/-- The events whose condition holds in a state. -/
def duties (s : State) : List Instr :=
  (s.strands.flatMap fun p => strandDue s p.1 p.2)
    ++ s.moves.flatMap (moveDue s)
    ++ (s.preempts.filter (saveReady s)).map (fun p => .preemptionSaveComplete (p.members.headD 0))
    ++ s.writeBacks.flatMap (writeBackDue s)
    ++ ((List.range 4).filter fun d => !(s.die d).fenced).flatMap (dieDue s)
    ++ (stageKeys s).flatMap (stageDue s)
    ++ (s.contexts.flatMap fun c =>
      (if teardownOver s c.1 then [Instr.reductionDrainExpiry c.1] else [])
        ++ (c.2.gangs.filter fun g => stripMoves s c.1 g.die g.port).map fun g => .gangStripGrant c.1 g.die g.port)
    ++ (s.queues.filter fun q => acceptable s q.1).map (fun q => .launchRecordAccept q.1)
    ++ (s.launches.flatMap fun l =>
      (if completes s l.1 then [Instr.launchCompletion l.1] else []) ++ (if gangTimedOut s l.1 then [.gangTimeout l.1] else []))
    ++ (if s.module.qstat = 1 then [.quoteReady] else [])
    ++ (if powerWanted s || powerEased s then [.powerCapThrottle (powerRate s)] else [])

/-- What the device and the host may do at any time: they evict lines and drop clean copies (R238, R243, R244, R245). -/
def liberties (s : State) : List Instr :=
  ((s.lines.filter fun l => l.2.cached).map fun l => .llcEviction l.1)
    ++ (s.cores.flatMap fun c => (c.2.copies.filter fun k => holdsClean s c.1 k.1).map fun k => .cleanCopyDrop c.1 k.1)
    ++ ((List.range 4).flatMap fun d =>
      ((s.die d).guests.map fun g => Instr.guestCopyEviction d g.1)
        ++ ((s.die d).guests.filter fun g => holdsClean s (agentDie d) g.1).map fun g => .cleanCopyDrop (agentDie d) g.1)
    ++ s.hostCopies.map fun c =>
      if c.2.owned then .homeWriteBack (agentHost 0) c.1 (Tab.get 0 s.agentSeq (agentHost 0)) else .cleanCopyDrop (agentHost 0) c.1

/-- The cores that write samples (R412). -/
def samples (s : State) : List Instr :=
  ((s.strands.filter fun p => p.2.run.holdsSlot && sampleDue s p.1).map fun p => Instr.traceSample p.2.core).eraseDups

/-- Every event that can happen now (DEDUCED, log entry 71). -/
def due (s : State) : List Instr :=
  if s.module.bootStat < 3 then [.powerOnBringUp] else duties s ++ liberties s ++ samples s

end Sys2Proof.Machine
end

