-- ==== Sys2Proof/Machine/Alu.lean ====
section
/-! DEFINITION. The ALU instructions (R115-R117). -/

namespace Sys2Proof.Machine

/-- The width of an ALU form: ty = 00 is 64 bits, ty = 01 is 32 (R115). -/
def aluWidth (t : BitVec 1) : Nat := if t = 0 then 64 else 32

/-- The low w bits of a result, sign-extended to 64 (R115). -/
def aluResult (w : Nat) (v : Int) : Word := BitVec.ofInt 64 (BitVec.ofInt w v).toInt

/-- A scalar operation of two data operands: a is read first, and may be a synchronised read (R34, R36). -/
def alu2 (d a b : BitVec 6) (t s : BitVec 1) (f : (w : Nat) → BitVec w → BitVec w → Int) : M Flow := do
  let x ← readSync a s
  let y ← readX b
  let w := aluWidth t
  writeX d (aluResult w (f w (x.setWidth w) (y.setWidth w)))
  return .seq

/-- A scalar operation of one data operand. -/
def alu1 (d a : BitVec 6) (t s : BitVec 1) (f : (w : Nat) → BitVec w → Int) : M Flow := do
  let x ← readSync a s
  let w := aluWidth t
  writeX d (aluResult w (f w (x.setWidth w)))
  return .seq

/-- Signed division (R116): saturating, with the end of the range on the dividend's side for a zero divisor. -/
def sdiv (w : Nat) (x y : BitVec w) : Int :=
  let a := x.toInt
  let b := y.toInt
  let top : Int := (2 ^ (w - 1) : Nat) - 1
  if b = 0 then (if 0 ≤ a then top else -((2 ^ (w - 1) : Nat) : Int))
  else if a = -((2 ^ (w - 1) : Nat) : Int) ∧ b = -1 then top
  else Int.tdiv a b

/-- Signed remainder (R116). -/
def srem (w : Nat) (x y : BitVec w) : Int :=
  let a := x.toInt
  let b := y.toInt
  if b = 0 then a
  else if a = -((2 ^ (w - 1) : Nat) : Int) ∧ b = -1 then 0
  else Int.tmod a b

/-- Natural division (R116). -/
def ndiv (w : Nat) (x y : BitVec w) : Int :=
  if y.toNat = 0 then (2 ^ w : Nat) - 1 else (x.toNat / y.toNat : Nat)

/-- Natural remainder (R116). -/
def nrem (w : Nat) (x y : BitVec w) : Int :=
  if y.toNat = 0 then x.toNat else (x.toNat % y.toNat : Nat)

/-- The number of set bits among the low n bits. -/
def popCount {w : Nat} (x : BitVec w) : Nat → Nat
  | 0 => 0
  | n + 1 => (if x.getLsbD n then 1 else 0) + popCount x n

/-- The number of leading zero bits of the low n bits. -/
def leadZeros {w : Nat} (x : BitVec w) : Nat → Nat
  | 0 => 0
  | n + 1 => if x.getLsbD n then 0 else 1 + leadZeros x n

/-- The number of trailing zero bits from bit i on, over n bits. -/
def trailZeros {w : Nat} (x : BitVec w) (i : Nat) : Nat → Nat
  | 0 => 0
  | n + 1 => if x.getLsbD i then 0 else 1 + trailZeros x (i + 1) n

/-- Bit i moved to bit w - 1 - i (R116). -/
def bitReverse (w : Nat) (x : BitVec w) : Nat :=
  (List.range w).foldl (init := 0) fun r i => 2 * r + (if x.getLsbD i then 1 else 0)

/-- Byte i moved to byte w/8 - 1 - i (R116). -/
def byteSwap (w : Nat) (x : BitVec w) : Nat :=
  (List.range (w / 8)).foldl (init := 0) fun r i => 256 * r + x.toNat / 2 ^ (8 * i) % 256

/-- Rotate right (R116). -/
def rotr (w : Nat) (x : BitVec w) (n : Nat) : Nat := (x.toNat / 2 ^ n + x.toNat * 2 ^ (w - n)) % 2 ^ w

/-- ADD (R116): Adds two scalar registers with wrap at 64 or 32 bits. -/
def execAdd (d : BitVec 6) (a : BitVec 6) (b : BitVec 6) (t : BitVec 1) (s : BitVec 1) (st : State) : Out :=
  insn
    { word := fr 1#6 d a b 0#5 (0#1 ++ t) s, ops := [.data d 1 true, syncOpnd a s, .data b 1 false] }
    (alu2 d a b t s (fun _ x y => x.toInt + y.toInt)) st

/-- SUB (R116): Subtracts scalar register b from a with wrap. -/
def execSub (d : BitVec 6) (a : BitVec 6) (b : BitVec 6) (t : BitVec 1) (s : BitVec 1) (st : State) : Out :=
  insn
    { word := fr 1#6 d a b 1#5 (0#1 ++ t) s, ops := [.data d 1 true, syncOpnd a s, .data b 1 false] }
    (alu2 d a b t s (fun _ x y => x.toInt - y.toInt)) st

/-- MUL (R116): Multiplies two scalar registers, low half. -/
def execMul (d : BitVec 6) (a : BitVec 6) (b : BitVec 6) (t : BitVec 1) (s : BitVec 1) (st : State) : Out :=
  insn
    { word := fr 1#6 d a b 2#5 (0#1 ++ t) s, ops := [.data d 1 true, syncOpnd a s, .data b 1 false] }
    (alu2 d a b t s (fun _ x y => x.toInt * y.toInt)) st

/-- MULH (R116): Writes the high half of the signed product. -/
def execMulh (d : BitVec 6) (a : BitVec 6) (b : BitVec 6) (t : BitVec 1) (s : BitVec 1) (st : State) : Out :=
  insn
    { word := fr 1#6 d a b 3#5 (0#1 ++ t) s, ops := [.data d 1 true, syncOpnd a s, .data b 1 false] }
    (alu2 d a b t s (fun w x y => (x.toInt * y.toInt) / (2 ^ w : Nat))) st

/-- MULHN (R116): Writes the high half of the natural product. -/
def execMulhn (d : BitVec 6) (a : BitVec 6) (b : BitVec 6) (t : BitVec 1) (s : BitVec 1) (st : State) : Out :=
  insn
    { word := fr 1#6 d a b 4#5 (0#1 ++ t) s, ops := [.data d 1 true, syncOpnd a s, .data b 1 false] }
    (alu2 d a b t s (fun w x y => ((x.toNat * y.toNat / 2 ^ w : Nat) : Int))) st

/-- DIV (R116): Signed division with saturating edge results, on C and V. -/
def execDiv (d : BitVec 6) (a : BitVec 6) (b : BitVec 6) (t : BitVec 1) (s : BitVec 1) (st : State) : Out :=
  insn
    { word := fr 1#6 d a b 5#5 (0#1 ++ t) s, ops := [.data d 1 true, syncOpnd a s, .data b 1 false], classes := 3, xfields := [d.toNat, a.toNat, b.toNat] }
    (alu2 d a b t s sdiv) st

/-- DIVN (R116): Natural division; division by zero gives the largest natural value. -/
def execDivn (d : BitVec 6) (a : BitVec 6) (b : BitVec 6) (t : BitVec 1) (s : BitVec 1) (st : State) : Out :=
  insn
    { word := fr 1#6 d a b 6#5 (0#1 ++ t) s, ops := [.data d 1 true, syncOpnd a s, .data b 1 false], classes := 3, xfields := [d.toNat, a.toNat, b.toNat] }
    (alu2 d a b t s ndiv) st

/-- REM (R116): Signed remainder; by zero returns the dividend. -/
def execRem (d : BitVec 6) (a : BitVec 6) (b : BitVec 6) (t : BitVec 1) (s : BitVec 1) (st : State) : Out :=
  insn
    { word := fr 1#6 d a b 7#5 (0#1 ++ t) s, ops := [.data d 1 true, syncOpnd a s, .data b 1 false], classes := 3, xfields := [d.toNat, a.toNat, b.toNat] }
    (alu2 d a b t s srem) st

/-- REMN (R116): Natural remainder; by zero returns the dividend. -/
def execRemn (d : BitVec 6) (a : BitVec 6) (b : BitVec 6) (t : BitVec 1) (s : BitVec 1) (st : State) : Out :=
  insn
    { word := fr 1#6 d a b 8#5 (0#1 ++ t) s, ops := [.data d 1 true, syncOpnd a s, .data b 1 false], classes := 3, xfields := [d.toNat, a.toNat, b.toNat] }
    (alu2 d a b t s nrem) st

/-- AND (R116): Bitwise AND of two scalar registers. -/
def execAnd (d : BitVec 6) (a : BitVec 6) (b : BitVec 6) (t : BitVec 1) (s : BitVec 1) (st : State) : Out :=
  insn
    { word := fr 1#6 d a b 9#5 (0#1 ++ t) s, ops := [.data d 1 true, syncOpnd a s, .data b 1 false] }
    (alu2 d a b t s (fun _ x y => ((x &&& y).toNat : Int))) st

/-- OR (R116): Bitwise OR of two scalar registers. -/
def execOr (d : BitVec 6) (a : BitVec 6) (b : BitVec 6) (t : BitVec 1) (s : BitVec 1) (st : State) : Out :=
  insn
    { word := fr 1#6 d a b 10#5 (0#1 ++ t) s, ops := [.data d 1 true, syncOpnd a s, .data b 1 false] }
    (alu2 d a b t s (fun _ x y => ((x ||| y).toNat : Int))) st

/-- XOR (R116): Bitwise XOR of two scalar registers. -/
def execXor (d : BitVec 6) (a : BitVec 6) (b : BitVec 6) (t : BitVec 1) (s : BitVec 1) (st : State) : Out :=
  insn
    { word := fr 1#6 d a b 11#5 (0#1 ++ t) s, ops := [.data d 1 true, syncOpnd a s, .data b 1 false] }
    (alu2 d a b t s (fun _ x y => ((x ^^^ y).toNat : Int))) st

/-- ANDN (R116): AND of a with the complement of b. -/
def execAndn (d : BitVec 6) (a : BitVec 6) (b : BitVec 6) (t : BitVec 1) (s : BitVec 1) (st : State) : Out :=
  insn
    { word := fr 1#6 d a b 12#5 (0#1 ++ t) s, ops := [.data d 1 true, syncOpnd a s, .data b 1 false] }
    (alu2 d a b t s (fun _ x y => ((x &&& ~~~y).toNat : Int))) st

/-- SLL (R116): Logical left shift by a register amount. -/
def execSll (d : BitVec 6) (a : BitVec 6) (b : BitVec 6) (t : BitVec 1) (s : BitVec 1) (st : State) : Out :=
  insn
    { word := fr 1#6 d a b 13#5 (0#1 ++ t) s, ops := [.data d 1 true, syncOpnd a s, .data b 1 false] }
    (alu2 d a b t s (fun w x y => ((x.toNat * 2 ^ (y.toNat % w) : Nat) : Int))) st

/-- SRL (R116): Logical right shift by a register amount. -/
def execSrl (d : BitVec 6) (a : BitVec 6) (b : BitVec 6) (t : BitVec 1) (s : BitVec 1) (st : State) : Out :=
  insn
    { word := fr 1#6 d a b 14#5 (0#1 ++ t) s, ops := [.data d 1 true, syncOpnd a s, .data b 1 false] }
    (alu2 d a b t s (fun w x y => ((x.toNat / 2 ^ (y.toNat % w) : Nat) : Int))) st

/-- SRA (R116): Arithmetic right shift by a register amount. -/
def execSra (d : BitVec 6) (a : BitVec 6) (b : BitVec 6) (t : BitVec 1) (s : BitVec 1) (st : State) : Out :=
  insn
    { word := fr 1#6 d a b 15#5 (0#1 ++ t) s, ops := [.data d 1 true, syncOpnd a s, .data b 1 false] }
    (alu2 d a b t s (fun w x y => x.toInt / (2 ^ (y.toNat % w) : Nat))) st

/-- SLLI (R117): Logical left shift by the immediate in b. -/
def execSlli (d : BitVec 6) (a : BitVec 6) (h : BitVec 6) (t : BitVec 1) (s : BitVec 1) (st : State) : Out :=
  insn
    { word := fr 1#6 d a h 16#5 (0#1 ++ t) s, ops := [.data d 1 true, syncOpnd a s] }
    (alu1 d a t s (fun w x => ((x.toNat * 2 ^ (h.toNat % w) : Nat) : Int))) st

/-- SRLI (R117): Logical right shift by the immediate in b. -/
def execSrli (d : BitVec 6) (a : BitVec 6) (h : BitVec 6) (t : BitVec 1) (s : BitVec 1) (st : State) : Out :=
  insn
    { word := fr 1#6 d a h 17#5 (0#1 ++ t) s, ops := [.data d 1 true, syncOpnd a s] }
    (alu1 d a t s (fun w x => ((x.toNat / 2 ^ (h.toNat % w) : Nat) : Int))) st

/-- SRAI (R117): Arithmetic right shift by the immediate in b. -/
def execSrai (d : BitVec 6) (a : BitVec 6) (h : BitVec 6) (t : BitVec 1) (s : BitVec 1) (st : State) : Out :=
  insn
    { word := fr 1#6 d a h 18#5 (0#1 ++ t) s, ops := [.data d 1 true, syncOpnd a s] }
    (alu1 d a t s (fun w x => x.toInt / (2 ^ (h.toNat % w) : Nat))) st

/-- MIN (R116): Signed minimum. -/
def execMin (d : BitVec 6) (a : BitVec 6) (b : BitVec 6) (t : BitVec 1) (s : BitVec 1) (st : State) : Out :=
  insn
    { word := fr 1#6 d a b 19#5 (0#1 ++ t) s, ops := [.data d 1 true, syncOpnd a s, .data b 1 false] }
    (alu2 d a b t s (fun _ x y => if y.toInt < x.toInt then y.toInt else x.toInt)) st

/-- MAX (R116): Signed maximum. -/
def execMax (d : BitVec 6) (a : BitVec 6) (b : BitVec 6) (t : BitVec 1) (s : BitVec 1) (st : State) : Out :=
  insn
    { word := fr 1#6 d a b 20#5 (0#1 ++ t) s, ops := [.data d 1 true, syncOpnd a s, .data b 1 false] }
    (alu2 d a b t s (fun _ x y => if x.toInt < y.toInt then y.toInt else x.toInt)) st

/-- MINN (R116): Natural minimum. -/
def execMinn (d : BitVec 6) (a : BitVec 6) (b : BitVec 6) (t : BitVec 1) (s : BitVec 1) (st : State) : Out :=
  insn
    { word := fr 1#6 d a b 21#5 (0#1 ++ t) s, ops := [.data d 1 true, syncOpnd a s, .data b 1 false] }
    (alu2 d a b t s (fun _ x y => ((if y.toNat < x.toNat then y.toNat else x.toNat : Nat) : Int))) st

/-- MAXN (R116): Natural maximum. -/
def execMaxn (d : BitVec 6) (a : BitVec 6) (b : BitVec 6) (t : BitVec 1) (s : BitVec 1) (st : State) : Out :=
  insn
    { word := fr 1#6 d a b 22#5 (0#1 ++ t) s, ops := [.data d 1 true, syncOpnd a s, .data b 1 false] }
    (alu2 d a b t s (fun _ x y => ((if x.toNat < y.toNat then y.toNat else x.toNat : Nat) : Int))) st

/-- SLT (R116): Sets 1 if a is less than b, signed. -/
def execSlt (d : BitVec 6) (a : BitVec 6) (b : BitVec 6) (t : BitVec 1) (s : BitVec 1) (st : State) : Out :=
  insn
    { word := fr 1#6 d a b 23#5 (0#1 ++ t) s, ops := [.data d 1 true, syncOpnd a s, .data b 1 false] }
    (alu2 d a b t s (fun _ x y => if x.toInt < y.toInt then 1 else 0)) st

/-- SLTN (R116): Sets 1 if a is less than b, natural. -/
def execSltn (d : BitVec 6) (a : BitVec 6) (b : BitVec 6) (t : BitVec 1) (s : BitVec 1) (st : State) : Out :=
  insn
    { word := fr 1#6 d a b 24#5 (0#1 ++ t) s, ops := [.data d 1 true, syncOpnd a s, .data b 1 false] }
    (alu2 d a b t s (fun _ x y => if x.toNat < y.toNat then 1 else 0)) st

/-- SEQ (R116): Sets 1 if a equals b. -/
def execSeq (d : BitVec 6) (a : BitVec 6) (b : BitVec 6) (t : BitVec 1) (s : BitVec 1) (st : State) : Out :=
  insn
    { word := fr 1#6 d a b 25#5 (0#1 ++ t) s, ops := [.data d 1 true, syncOpnd a s, .data b 1 false] }
    (alu2 d a b t s (fun _ x y => if x = y then 1 else 0)) st

/-- CLZ (R116): Counts leading zero bits. -/
def execClz (d : BitVec 6) (a : BitVec 6) (t : BitVec 1) (s : BitVec 1) (st : State) : Out :=
  insn
    { word := fr 1#6 d a 0#6 26#5 (0#1 ++ t) s, ops := [.data d 1 true, syncOpnd a s] }
    (alu1 d a t s (fun w x => (leadZeros x w : Int))) st

/-- CTZ (R116): Counts trailing zero bits. -/
def execCtz (d : BitVec 6) (a : BitVec 6) (t : BitVec 1) (s : BitVec 1) (st : State) : Out :=
  insn
    { word := fr 1#6 d a 0#6 27#5 (0#1 ++ t) s, ops := [.data d 1 true, syncOpnd a s] }
    (alu1 d a t s (fun w x => (trailZeros x 0 w : Int))) st

/-- POPC (R116): Counts set bits. -/
def execPopc (d : BitVec 6) (a : BitVec 6) (t : BitVec 1) (s : BitVec 1) (st : State) : Out :=
  insn
    { word := fr 1#6 d a 0#6 28#5 (0#1 ++ t) s, ops := [.data d 1 true, syncOpnd a s] }
    (alu1 d a t s (fun w x => (popCount x w : Int))) st

/-- ROTR (R116): Rotates right by a register amount. -/
def execRotr (d : BitVec 6) (a : BitVec 6) (b : BitVec 6) (t : BitVec 1) (s : BitVec 1) (st : State) : Out :=
  insn
    { word := fr 1#6 d a b 29#5 (0#1 ++ t) s, ops := [.data d 1 true, syncOpnd a s, .data b 1 false] }
    (alu2 d a b t s (fun w x y => (rotr w x (y.toNat % w) : Int))) st

/-- BREV (R116): Reverses bit order. -/
def execBrev (d : BitVec 6) (a : BitVec 6) (t : BitVec 1) (s : BitVec 1) (st : State) : Out :=
  insn
    { word := fr 1#6 d a 0#6 30#5 (0#1 ++ t) s, ops := [.data d 1 true, syncOpnd a s] }
    (alu1 d a t s (fun w x => (bitReverse w x : Int))) st

/-- BSWAP (R116): Reverses byte order. -/
def execBswap (d : BitVec 6) (a : BitVec 6) (t : BitVec 1) (s : BitVec 1) (st : State) : Out :=
  insn
    { word := fr 1#6 d a 0#6 31#5 (0#1 ++ t) s, ops := [.data d 1 true, syncOpnd a s] }
    (alu1 d a t s (fun w x => (byteSwap w x : Int))) st

end Sys2Proof.Machine
end

