-- ==== Sys2Proof/Machine/Imm.lean ====
section
/-! DEFINITION. Immediates and upper immediates (R118, R119). -/

namespace Sys2Proof.Machine

/-- An operation of a data operand and a sign-extended immediate, on 64 bits (R118). -/
def imm2 (d a : BitVec 6) (i : BitVec 14) (f : Word → Word → Word) : M Flow := do
  let x ← readX a
  writeX d (f x (i.signExtend 64))
  return .seq

/-- The 64-bit value of an upper immediate: imm20 sign-extended, times 2^14 (R119). -/
def upperImm (i : BitVec 20) : Word := i.signExtend 64 <<< 14

/-- ADDI (R118): Adds a sign-extended 14-bit immediate. -/
def execAddi (d : BitVec 6) (a : BitVec 6) (i : BitVec 14) (st : State) : Out :=
  insn { word := fi 2#6 d a i, ops := [.data d 1 true, .data a 1 false] } (imm2 d a i (fun x i => x + i)) st

/-- ANDI (R118): ANDs with a sign-extended immediate. -/
def execAndi (d : BitVec 6) (a : BitVec 6) (i : BitVec 14) (st : State) : Out :=
  insn { word := fi 3#6 d a i, ops := [.data d 1 true, .data a 1 false] } (imm2 d a i (fun x i => x &&& i)) st

/-- ORI (R118): ORs with a sign-extended immediate. -/
def execOri (d : BitVec 6) (a : BitVec 6) (i : BitVec 14) (st : State) : Out :=
  insn { word := fi 4#6 d a i, ops := [.data d 1 true, .data a 1 false] } (imm2 d a i (fun x i => x ||| i)) st

/-- XORI (R118): XORs with a sign-extended immediate. -/
def execXori (d : BitVec 6) (a : BitVec 6) (i : BitVec 14) (st : State) : Out :=
  insn { word := fi 5#6 d a i, ops := [.data d 1 true, .data a 1 false] } (imm2 d a i (fun x i => x ^^^ i)) st

/-- SLTI (R118): Signed compare with an immediate. -/
def execSlti (d : BitVec 6) (a : BitVec 6) (i : BitVec 14) (st : State) : Out :=
  insn
    { word := fi 6#6 d a i, ops := [.data d 1 true, .data a 1 false] }
    (imm2 d a i (fun x i => if x.toInt < i.toInt then 1 else 0)) st

/-- SLTNI (R118): Natural compare with an immediate. -/
def execSltni (d : BitVec 6) (a : BitVec 6) (i : BitVec 14) (st : State) : Out :=
  insn
    { word := fi 7#6 d a i, ops := [.data d 1 true, .data a 1 false] }
    (imm2 d a i (fun x i => if x.toNat < i.toNat then 1 else 0)) st

/-- LUI (R119): Loads imm20 times 2^14. -/
def execLui (d : BitVec 6) (i : BitVec 20) (st : State) : Out :=
  insn { word := fu 8#6 d i, ops := [.data d 1 true] } (seq (writeX d (upperImm i))) st

/-- AUIPC (R119): Adds imm20 times 2^14 to the PC. -/
def execAuipc (d : BitVec 6) (i : BitVec 20) (st : State) : Out :=
  insn
    { word := fu 9#6 d i, ops := [.data d 1 true] }
    (seq do
      let t ← me
      writeX d (t.pc + upperImm i)) st

end Sys2Proof.Machine
end

