-- ==== Sys2Proof/Machine/Jump.lean ====
section
/-! DEFINITION. Jumps and branches (R28, R120-R122). -/

namespace Sys2Proof.Machine

/-- A word offset in bytes, sign-extended. -/
def wordOffset {n : Nat} (i : BitVec n) : Word := i.signExtend 64 <<< 2

/-- A computed target takes the misaligned trap unless it is a multiple of 4 (R28). -/
def checkTarget (t : Word) : M Unit := if t.extractLsb' 0 2 = 0 then pure () else trap 5 0 t

/-- The flow of a branch (R121). -/
def branchTo (taken : Bool) (o : BitVec 11) : M Flow := do
  let t ← me
  return if taken then .jump (t.pc + wordOffset o) else .seq

/-- A branch on two data operands (R121). -/
def branch2 (a b : BitVec 6) (o : BitVec 11) (f : Word → Word → Bool) : M Flow := do
  let x ← readX a
  let y ← readX b
  branchTo (f x y) o

/-- A branch on the head of a branch queue, which is consumed (R122). -/
def branchQueue (a : BitVec 6) (o : BitVec 11) (want : Bool) : M Flow := do
  let v ← popQueue (a.toNat - 32)
  branchTo ((v != 0) == want) o

/-- JAL (R120): Jumps PC-relative and writes the link. -/
def execJal (d : BitVec 6) (i : BitVec 20) (st : State) : Out :=
  insn
    { word := fu 10#6 d i, ops := [.reg d] }
    (do
      let t ← me
      writeReg d (t.pc + 4)
      return .jump (t.pc + wordOffset i)) st

/-- JALR (R120): Jumps through a register plus a word offset and writes the link. -/
def execJalr (d : BitVec 6) (a : BitVec 6) (i : BitVec 14) (st : State) : Out :=
  insn
    { word := fi 11#6 d a i, ops := [.reg d, .reg a] }
    (do
      let t ← me
      let target := t.reg a.toNat + wordOffset i
      checkTarget target
      writeReg d (t.pc + 4)
      return .jump target) st

/-- BEQ (R121): Branches when two registers are equal. -/
def execBeq (a : BitVec 6) (b : BitVec 6) (o : BitVec 11) (st : State) : Out :=
  insn
    { word := fb 12#6 a b 0#3 o, ops := [.data a 1 false, .data b 1 false] }
    (branch2 a b o fun x y => decide (x = y)) st

/-- BNE (R121): Branches when two registers differ. -/
def execBne (a : BitVec 6) (b : BitVec 6) (o : BitVec 11) (st : State) : Out :=
  insn
    { word := fb 12#6 a b 1#3 o, ops := [.data a 1 false, .data b 1 false] }
    (branch2 a b o fun x y => decide (x ≠ y)) st

/-- BLT (R121): Branches on signed less-than. -/
def execBlt (a : BitVec 6) (b : BitVec 6) (o : BitVec 11) (st : State) : Out :=
  insn
    { word := fb 12#6 a b 2#3 o, ops := [.data a 1 false, .data b 1 false] }
    (branch2 a b o fun x y => decide (x.toInt < y.toInt)) st

/-- BGE (R121): Branches on signed greater-or-equal. -/
def execBge (a : BitVec 6) (b : BitVec 6) (o : BitVec 11) (st : State) : Out :=
  insn
    { word := fb 12#6 a b 3#3 o, ops := [.data a 1 false, .data b 1 false] }
    (branch2 a b o fun x y => decide (y.toInt ≤ x.toInt)) st

/-- BLTN (R121): Branches on natural less-than. -/
def execBltn (a : BitVec 6) (b : BitVec 6) (o : BitVec 11) (st : State) : Out :=
  insn
    { word := fb 12#6 a b 4#3 o, ops := [.data a 1 false, .data b 1 false] }
    (branch2 a b o fun x y => decide (x.toNat < y.toNat)) st

/-- BGEN (R121): Branches on natural greater-or-equal. -/
def execBgen (a : BitVec 6) (b : BitVec 6) (o : BitVec 11) (st : State) : Out :=
  insn
    { word := fb 12#6 a b 5#3 o, ops := [.data a 1 false, .data b 1 false] }
    (branch2 a b o fun x y => decide (y.toNat ≤ x.toNat)) st

/-- BQT (R122): Consumes a branch-queue head and branches if it is 1. -/
def execBqt (a : BitVec 6) (o : BitVec 11) (st : State) : Out :=
  insn { word := fb 12#6 a 0#6 6#3 o, ops := [.queue a [4] (some false)] } (branchQueue a o true) st

/-- BQF (R122): Consumes a branch-queue head and branches if it is 0. -/
def execBqf (a : BitVec 6) (o : BitVec 11) (st : State) : Out :=
  insn { word := fb 12#6 a 0#6 7#3 o, ops := [.queue a [4] (some false)] } (branchQueue a o false) st

end Sys2Proof.Machine
end

