-- ==== Sys2Proof/Machine/Vfp.lean ====
section
/-! DEFINITION. Floating-point vector arithmetic (R165-R168). -/

namespace Sys2Proof.Machine

/-- The format of a VFP type field (R165). -/
def vfpFmt (t : BitVec 2) : Fp.Fmt :=
  if t = 0 then Fp.fp32 else if t = 1 then Fp.bf16 else if t = 2 then Fp.fp16 else Fp.fp64

/-- The element width of a VFP type field (R165). -/
def vfpWidth (t : BitVec 2) : Nat := if t = 0 then 32 else if t = 3 then 64 else 16

/-- An element-wise operation that rounds in RM. -/
def vfp2 (d a b : BitVec 6) (x : BitVec 1) (t : BitVec 2) (f : Fp.Fmt → Nat → Nat → Nat → Nat → Nat × Nat) : M Flow := do
  let rm := (← me).rm
  lanes2 d a b x (vfpWidth t) 1 fun p q r => f (vfpFmt t) rm p q r

/-- An element-wise operation of one source that rounds in RM. -/
def vfp1 (d a : BitVec 6) (t : BitVec 2) (f : Fp.Fmt → Nat → Nat → Nat × Nat) : M Flow := do
  let rm := (← me).rm
  lanes1 d a (vfpWidth t) 1 fun p => f (vfpFmt t) rm p

/-- The sum of a reduction: to nearest even, FP32 NaNs combined by R90 (R167). -/
def redAdd (f : Fp.Fmt) (a b : Nat) : Nat × Nat := if f = Fp.fp32 then Fp.addMerge32 a b else Fp.add f 0 a b

/-- One level of the tree of VFREDT (R167): neighbours are added where both are present. -/
def treeLevel (f : Fp.Fmt) : List (Option Nat) → List (Option Nat) × Nat
  | x :: y :: rest =>
    let (r, fl) := treeLevel f rest
    match x, y with
    | some a, some b => (some (redAdd f a b).1 :: r, fl ||| (redAdd f a b).2)
    | some a, none => (some a :: r, fl)
    | none, y => (y :: r, fl)
  | _ => ([], 0)

/-- The tree of VFREDT over 2^k positions. -/
def treeSum (f : Fp.Fmt) : Nat → List (Option Nat) → Option Nat × Nat
  | 0, xs => (xs.headD none, 0)
  | k + 1, xs =>
    let (ys, fl) := treeLevel f xs
    let (r, fl') := treeSum f k ys
    (r, fl ||| fl')

/-- VFREDT (R167). -/
def treeReduce (f : Fp.Fmt) (w : Nat) (el : Nat → Option Nat) (_n b0 : Nat) : Nat × Nat :=
  let c := 2048 / w
  match treeSum f (Nat.log2 c) ((List.range c).map el) with
  | (none, fl) => (b0, fl)
  | (some x, fl) => ((redAdd f b0 x).1, fl ||| (redAdd f b0 x).2)

/-- VFSCALE (R165): a times 2^B. A shift beyond 8192 gives what 8192 gives. -/
def scaleOp (f : Fp.Fmt) (rm a : Nat) (sh : Int) : Nat × Nat :=
  let sh := if (8192 : Int) < sh then 8192 else if sh < -8192 then -8192 else sh
  match Fp.decode f a with
  | .nan s => (f.nan, Fp.snan (.nan s))
  | .inf n => (f.inf n, 0)
  | .fin n m e => if m = 0 then (a, 0) else Fp.round f rm n m (e + sh)

/-- VFSCALE: B is an element, or with X the whole register (R165). -/
def vfscaleOp (d a b : BitVec 6) (x : BitVec 1) (t : BitVec 2) : M Flow := do
  let s ← me
  let w := vfpWidth t
  let big := (s.reg b.toNat).toInt
  lanes2 d a b x w 1 fun p q _ => scaleOp (vfpFmt t) s.rm p (if x = 1 then big else (BitVec.ofNat w q).toInt)

/-- The width of a VFCVT format code (R168). -/
def cvtWidth (c : BitVec 3) : Nat :=
  if c = 0 ∨ c = 6 then 32 else if c = 1 ∨ c = 2 then 16 else if c = 3 then 64 else 8

/-- The floating-point format of a VFCVT code, if it is one. -/
def cvtFmt (c : BitVec 3) : Option Fp.Fmt :=
  if c = 0 then some Fp.fp32 else if c = 1 then some Fp.bf16 else if c = 2 then some Fp.fp16 else if c = 3 then some Fp.fp64
  else if c = 4 then some Fp.e4 else if c = 5 then some Fp.e5 else none

/-- A Q8 code as an integer: 0x80 is -127 (R78). -/
def q8Int (x : Nat) : Int := if x = 0x80 then -127 else (BitVec.ofNat 8 x).toInt

/-- One conversion in RM (R75-R78). -/
def cvtElem (dst src : BitVec 3) (rm x : Nat) : Nat × Nat :=
  match cvtFmt src, cvtFmt dst with
  | some f, some g => Fp.convert f g rm x
  | some f, none =>
    let r := if dst = 6 then Fp.toRange false (-2147483648) 2147483647 rm (Fp.decode f x)
      else Fp.toRange true (-127) 127 rm (Fp.decode f x)
    ((BitVec.ofInt (cvtWidth dst) r.1).toNat, r.2)
  | none, some g => Fp.ofInt g rm (if src = 6 then (BitVec.ofNat 32 x).toInt else q8Int x)
  | none, none => (x, 0)

/-- Stochastic conversions of the listed elements, ascending: one generator step each (R81, R82). -/
def stochastic (g : Fp.Fmt) (va : Vec) (dw : Nat) : List Nat → Vec → Nat → Vec × Nat × Nat
  | [], v, st => (v, st, 0)
  | i :: is, v, st =>
    let st := Fp.xorshift st
    let (x, fl) := Fp.convertStochastic Fp.fp32 g st (elem va 32 i)
    let (v, st, fl') := stochastic g va dw is (setElem v dw i x) st
    (v, st, fl ||| fl')

/-- VFCVT (R168): equal codes mean a stochastic conversion from FP32. -/
def vfcvtOp (d a : BitVec 6) (dst src : BitVec 3) : M Flow := do
  let t ← me
  let va ← readV a
  let old ← oldV d
  let dw := cvtWidth dst
  let sw := if dst = src then 32 else cvtWidth src
  let is := t.lanes t.vstartN (t.strip (max dw sw))
  if dst = src then
    match cvtFmt dst with
    | some g =>
      let (v, st, fl) := stochastic g va dw is old t.srseed.toNat
      raiseFlags fl
      if !is.isEmpty then updMe fun t => { t with srseed := BitVec.ofNat 64 st }
      writeV d v (topOf is * dw / 8)
    | none => writeV d old 0
  else
    let (v, fl) := setElems old dw is fun i => cvtElem dst src t.rm (elem va sw i)
    raiseFlags fl
    writeV d v (topOf is * dw / 8)
  vecEnd (some 1)
  return .seq

/-- VFADD (R165): Element-wise floating-point add. -/
def execVfadd (d : BitVec 6) (a : BitVec 6) (b : BitVec 6) (t : BitVec 2) (x : BitVec 1) (st : State) : Out :=
  insn
    { word := fr 21#6 d a b 0#5 t x, ops := [.data d 2 true, .data a 2 false, xOpnd b x], classes := vecClasses t, xfields := [xField b x] }
    (vfp2 d a b x t fun f rm p q _ => Fp.add f rm p q) st

/-- VFSUB (R165): Element-wise floating-point subtract. -/
def execVfsub (d : BitVec 6) (a : BitVec 6) (b : BitVec 6) (t : BitVec 2) (x : BitVec 1) (st : State) : Out :=
  insn
    { word := fr 21#6 d a b 1#5 t x, ops := [.data d 2 true, .data a 2 false, xOpnd b x], classes := vecClasses t, xfields := [xField b x] }
    (vfp2 d a b x t fun f rm p q _ => Fp.sub f rm p q) st

/-- VFMUL (R165): Element-wise floating-point multiply. -/
def execVfmul (d : BitVec 6) (a : BitVec 6) (b : BitVec 6) (t : BitVec 2) (x : BitVec 1) (st : State) : Out :=
  insn
    { word := fr 21#6 d a b 2#5 t x, ops := [.data d 2 true, .data a 2 false, xOpnd b x], classes := vecClasses t, xfields := [xField b x] }
    (vfp2 d a b x t fun f rm p q _ => Fp.mul f rm p q) st

/-- VFMA (R165): Element-wise fused multiply-add into d. -/
def execVfma (d : BitVec 6) (a : BitVec 6) (b : BitVec 6) (t : BitVec 2) (x : BitVec 1) (st : State) : Out :=
  insn
    { word := fr 21#6 d a b 3#5 t x, ops := [.reg d, .data a 2 false, xOpnd b x], classes := vecClasses t, xfields := [xField b x] }
    (vfp2 d a b x t fun f rm p q r => Fp.fma f rm false r p q) st

/-- VFNMA (R165): Element-wise fused multiply-subtract from d. -/
def execVfnma (d : BitVec 6) (a : BitVec 6) (b : BitVec 6) (t : BitVec 2) (x : BitVec 1) (st : State) : Out :=
  insn
    { word := fr 21#6 d a b 4#5 t x, ops := [.reg d, .data a 2 false, xOpnd b x], classes := vecClasses t, xfields := [xField b x] }
    (vfp2 d a b x t fun f rm p q r => Fp.fma f rm true r p q) st

/-- VFDIV (R165): Element-wise floating-point divide, on C and V. -/
def execVfdiv (d : BitVec 6) (a : BitVec 6) (b : BitVec 6) (t : BitVec 2) (x : BitVec 1) (st : State) : Out :=
  insn
    { word := fr 21#6 d a b 5#5 t x, ops := [.data d 2 true, .data a 2 false, xOpnd b x], classes := 3, xfields := [xField b x] }
    (vfp2 d a b x t fun f rm p q _ => Fp.div f rm p q) st

/-- VFMIN (R74): Element-wise floating-point minimum. -/
def execVfmin (d : BitVec 6) (a : BitVec 6) (b : BitVec 6) (t : BitVec 2) (x : BitVec 1) (st : State) : Out :=
  insn
    { word := fr 21#6 d a b 9#5 t x, ops := [.data d 2 true, .data a 2 false, xOpnd b x], classes := vecClasses t, xfields := [xField b x] }
    (vfp2 d a b x t fun f _ p q _ => Fp.minmax f false p q) st

/-- VFMAX (R74): Element-wise floating-point maximum. -/
def execVfmax (d : BitVec 6) (a : BitVec 6) (b : BitVec 6) (t : BitVec 2) (x : BitVec 1) (st : State) : Out :=
  insn
    { word := fr 21#6 d a b 10#5 t x, ops := [.data d 2 true, .data a 2 false, xOpnd b x], classes := vecClasses t, xfields := [xField b x] }
    (vfp2 d a b x t fun f _ p q _ => Fp.minmax f true p q) st

/-- VFSQRT (R165): Element-wise square root, on C and V. -/
def execVfsqrt (d : BitVec 6) (a : BitVec 6) (t : BitVec 2) (st : State) : Out :=
  insn
    { word := fr 21#6 d a 0#6 6#5 t 0#1, ops := [.data d 2 true, .data a 2 false], classes := 3 }
    (vfp1 d a t Fp.sqrt) st

/-- VFEXP2 (R166): Element-wise correctly rounded 2^a in FP32. -/
def execVfexp2 (d : BitVec 6) (a : BitVec 6) (st : State) : Out :=
  insn
    { word := fr 21#6 d a 0#6 7#5 0#2 0#1, ops := [.data d 2 true, .data a 2 false], classes := 3 }
    (vfp1 d a 0 fun _ rm p => Fp.exp2 rm p) st

/-- VFLOG2 (R166): Element-wise correctly rounded log2 in FP32. -/
def execVflog2 (d : BitVec 6) (a : BitVec 6) (st : State) : Out :=
  insn
    { word := fr 21#6 d a 0#6 8#5 0#2 0#1, ops := [.data d 2 true, .data a 2 false], classes := 3 }
    (vfp1 d a 0 fun _ rm p => Fp.log2 rm p) st

/-- VFABS (R165): Element-wise clears the sign bit. -/
def execVfabs (d : BitVec 6) (a : BitVec 6) (t : BitVec 2) (st : State) : Out :=
  insn
    { word := fr 21#6 d a 0#6 11#5 t 0#1, ops := [.data d 2 true, .data a 2 false], classes := vecClasses t }
    (vfp1 d a t fun f _ p => (Fp.withSign f p false, 0)) st

/-- VFNEG (R165): Element-wise inverts the sign bit. -/
def execVfneg (d : BitVec 6) (a : BitVec 6) (t : BitVec 2) (st : State) : Out :=
  insn
    { word := fr 21#6 d a 0#6 12#5 t 0#1, ops := [.data d 2 true, .data a 2 false], classes := vecClasses t }
    (vfp1 d a t fun f _ p => (Fp.withSign f p (!Fp.signOf f p), 0)) st

/-- VFCVT (R168): Element-wise format conversion, including stochastic rounding. -/
def execVfcvt (d : BitVec 6) (a : BitVec 6) (e : BitVec 3) (f : BitVec 3) (st : State) : Out :=
  insn
    { word := fr 21#6 d a (e ++ f) 13#5 0#2 0#1, ops := [.data d 2 true, .data a 2 false], classes := (if e = 3 ∨ f = 3 then 3 else 7) }
    (vfcvtOp d a e f) st

/-- VFREDO (R167): Ordered floating-point sum reduction into d[0]. -/
def execVfredo (d : BitVec 6) (a : BitVec 6) (b : BitVec 6) (t : BitVec 2) (st : State) : Out :=
  insn
    { word := fr 21#6 d a b 14#5 t 0#1, ops := [.data d 2 true, .data a 2 false, .data b 2 false], classes := vecClasses t }
    (reduce d a b (vfpWidth t) 1 (foldActive (redAdd (vfpFmt t)))) st

/-- VFREDT (R167): Tree floating-point sum reduction into d[0]. -/
def execVfredt (d : BitVec 6) (a : BitVec 6) (b : BitVec 6) (t : BitVec 2) (st : State) : Out :=
  insn
    { word := fr 21#6 d a b 15#5 t 0#1, ops := [.data d 2 true, .data a 2 false, .data b 2 false], classes := vecClasses t }
    (reduce d a b (vfpWidth t) 1 (treeReduce (vfpFmt t) (vfpWidth t))) st

/-- VFREDMAX (R165): Floating-point maximum reduction into d[0]. -/
def execVfredmax (d : BitVec 6) (a : BitVec 6) (b : BitVec 6) (t : BitVec 2) (st : State) : Out :=
  insn
    { word := fr 21#6 d a b 16#5 t 0#1, ops := [.data d 2 true, .data a 2 false, .data b 2 false], classes := vecClasses t }
    (reduce d a b (vfpWidth t) 1 (foldActive (Fp.minmax (vfpFmt t) true))) st

/-- VFREDMIN (R165): Floating-point minimum reduction into d[0]. -/
def execVfredmin (d : BitVec 6) (a : BitVec 6) (b : BitVec 6) (t : BitVec 2) (st : State) : Out :=
  insn
    { word := fr 21#6 d a b 17#5 t 0#1, ops := [.data d 2 true, .data a 2 false, .data b 2 false], classes := vecClasses t }
    (reduce d a b (vfpWidth t) 1 (foldActive (Fp.minmax (vfpFmt t) false))) st

/-- VFSCALE (R165): Element-wise multiply by a power of two. -/
def execVfscale (d : BitVec 6) (a : BitVec 6) (b : BitVec 6) (t : BitVec 2) (x : BitVec 1) (st : State) : Out :=
  insn
    { word := fr 21#6 d a b 18#5 t x, ops := [.data d 2 true, .data a 2 false, xOpnd b x], classes := vecClasses t, xfields := [xField b x] }
    (vfscaleOp d a b x t) st

end Sys2Proof.Machine
end

