-- ==== Sys2Proof/Machine/Vcmp.lean ====
section
/-! DEFINITION. Vector compares into predicates (R169). -/

namespace Sys2Proof.Machine

/-- A predicate with bit i written. -/
def setBit (p : Pred) (i : Nat) (v : Bool) : Pred :=
  if v then p ||| BitVec.ofNat 256 (2 ^ i) else p &&& ~~~(BitVec.ofNat 256 (2 ^ i))

/-- A compare (R169): the bits of active elements are written. A compare into the predicate that selects its own elements
starts at element 0 (R160). -/
def compare (d a b : BitVec 6) (x : BitVec 1) (w : Nat) (f : Nat → Nat → Bool × Nat) : M Flow := do
  let t ← me
  let va ← readV a
  let vb ← readB b x w
  let lo := if !t.vms.getLsbD 6 && t.vms.extractLsb' 0 6 = d then 0 else t.vstartN
  let is := t.lanes lo (t.strip w)
  let (p, fl) := is.foldl (init := (t.pred d.toNat, 0)) fun r i =>
    (setBit r.1 i (f (elem va w i) (vb i)).1, r.2 ||| (f (elem va w i) (vb i)).2)
  raiseFlags fl
  if !is.isEmpty then updMe fun t => t.setPred d.toNat p
  vecEnd (some 2)
  return .seq

/-- VCEQ (R169): Integer equality compare into a predicate. -/
def execVceq (d : BitVec 6) (a : BitVec 6) (b : BitVec 6) (t : BitVec 2) (x : BitVec 1) (st : State) : Out :=
  insn
    { word := fr 22#6 d a b 0#5 t x, ops := [.data a 2 false, xOpnd b x], classes := vecClasses t, xfields := [xField b x] }
    (compare d a b x (tyWidth t) fun p q => (decide (p = q), 0)) st

/-- VCNE (R169): Integer inequality compare into a predicate. -/
def execVcne (d : BitVec 6) (a : BitVec 6) (b : BitVec 6) (t : BitVec 2) (x : BitVec 1) (st : State) : Out :=
  insn
    { word := fr 22#6 d a b 1#5 t x, ops := [.data a 2 false, xOpnd b x], classes := vecClasses t, xfields := [xField b x] }
    (compare d a b x (tyWidth t) fun p q => (decide (p ≠ q), 0)) st

/-- VCLT (R169): Signed less-than compare into a predicate. -/
def execVclt (d : BitVec 6) (a : BitVec 6) (b : BitVec 6) (t : BitVec 2) (x : BitVec 1) (st : State) : Out :=
  insn
    { word := fr 22#6 d a b 2#5 t x, ops := [.data a 2 false, xOpnd b x], classes := vecClasses t, xfields := [xField b x] }
    (compare d a b x (tyWidth t) fun p q => (decide ((BitVec.ofNat (tyWidth t) p).toInt < (BitVec.ofNat (tyWidth t) q).toInt), 0)) st

/-- VCLE (R169): Signed less-or-equal compare into a predicate. -/
def execVcle (d : BitVec 6) (a : BitVec 6) (b : BitVec 6) (t : BitVec 2) (x : BitVec 1) (st : State) : Out :=
  insn
    { word := fr 22#6 d a b 3#5 t x, ops := [.data a 2 false, xOpnd b x], classes := vecClasses t, xfields := [xField b x] }
    (compare d a b x (tyWidth t) fun p q => (decide ((BitVec.ofNat (tyWidth t) p).toInt ≤ (BitVec.ofNat (tyWidth t) q).toInt), 0)) st

/-- VCLTN (R169): Natural less-than compare into a predicate. -/
def execVcltn (d : BitVec 6) (a : BitVec 6) (b : BitVec 6) (t : BitVec 2) (x : BitVec 1) (st : State) : Out :=
  insn
    { word := fr 22#6 d a b 4#5 t x, ops := [.data a 2 false, xOpnd b x], classes := vecClasses t, xfields := [xField b x] }
    (compare d a b x (tyWidth t) fun p q => (decide (p < q), 0)) st

/-- VCLEN (R169): Natural less-or-equal compare into a predicate. -/
def execVclen (d : BitVec 6) (a : BitVec 6) (b : BitVec 6) (t : BitVec 2) (x : BitVec 1) (st : State) : Out :=
  insn
    { word := fr 22#6 d a b 5#5 t x, ops := [.data a 2 false, xOpnd b x], classes := vecClasses t, xfields := [xField b x] }
    (compare d a b x (tyWidth t) fun p q => (decide (p ≤ q), 0)) st

/-- VFCEQ (R169): Floating-point equality compare into a predicate. -/
def execVfceq (d : BitVec 6) (a : BitVec 6) (b : BitVec 6) (t : BitVec 2) (x : BitVec 1) (st : State) : Out :=
  insn
    { word := fr 22#6 d a b 6#5 t x, ops := [.data a 2 false, xOpnd b x], classes := vecClasses t, xfields := [xField b x] }
    (compare d a b x (vfpWidth t) fun p q => Fp.feq (vfpFmt t) p q) st

/-- VFCLT (R169): Floating-point less-than compare into a predicate. -/
def execVfclt (d : BitVec 6) (a : BitVec 6) (b : BitVec 6) (t : BitVec 2) (x : BitVec 1) (st : State) : Out :=
  insn
    { word := fr 22#6 d a b 7#5 t x, ops := [.data a 2 false, xOpnd b x], classes := vecClasses t, xfields := [xField b x] }
    (compare d a b x (vfpWidth t) fun p q => Fp.flt (vfpFmt t) false p q) st

/-- VFCLE (R169): Floating-point less-or-equal compare into a predicate. -/
def execVfcle (d : BitVec 6) (a : BitVec 6) (b : BitVec 6) (t : BitVec 2) (x : BitVec 1) (st : State) : Out :=
  insn
    { word := fr 22#6 d a b 8#5 t x, ops := [.data a 2 false, xOpnd b x], classes := vecClasses t, xfields := [xField b x] }
    (compare d a b x (vfpWidth t) fun p q => Fp.flt (vfpFmt t) true p q) st

/-- VFCUN (R169): Sets a predicate bit where either operand is NaN. -/
def execVfcun (d : BitVec 6) (a : BitVec 6) (b : BitVec 6) (t : BitVec 2) (x : BitVec 1) (st : State) : Out :=
  insn
    { word := fr 22#6 d a b 9#5 t x, ops := [.data a 2 false, xOpnd b x], classes := vecClasses t, xfields := [xField b x] }
    (compare d a b x (vfpWidth t) fun p q => Fp.unordered (vfpFmt t) p q) st

end Sys2Proof.Machine
end

