-- ==== Sys2Proof/Machine/Pred.lean ====
section
/-! DEFINITION. Predicate instructions (R170). -/

namespace Sys2Proof.Machine

/-- A predicate result over bits 0 to N - 1, with N = VL.COUNT (R170). -/
def predOp (d : BitVec 6) (f : Strand → Nat → Nat → Bool) : M Flow := do
  let t ← me
  let n := t.vlCount
  let p := (List.range n).foldl (init := t.pred d.toNat) fun p i => setBit p i (f t n i)
  if n ≠ 0 then updMe fun t => t.setPred d.toNat p
  vecEnd (some 2)
  return .seq

/-- The lowest set bit below n, or n (R170). -/
def firstSet (p : Pred) (n : Nat) : Nat := ((List.range n).find? fun i => p.getLsbD i).getD n

/-- A scalar result of a predicate. -/
def predToX (d a : BitVec 6) (f : Pred → Nat → Word) : M Flow := do
  let t ← me
  writeX d (f (t.pred a.toNat) t.vlCount)
  vecEnd (some 2)
  return .seq

/-- PFROMX (R170). -/
def pfromxOp (d a : BitVec 6) (k : BitVec 2) : M Flow := do
  let x ← readX a
  updMe fun t =>
    let m : Pred := BitVec.ofNat 256 ((2 ^ 64 - 1) * 2 ^ (64 * k.toNat))
    t.setPred d.toNat ((t.pred d.toNat &&& ~~~m) ||| (x.setWidth 256 <<< (64 * k.toNat)))
  vecEnd (some 2)
  return .seq

/-- PAND (R170): Predicate AND. -/
def execPand (d : BitVec 6) (a : BitVec 6) (b : BitVec 6) (st : State) : Out :=
  insn
    { word := fr 23#6 d a b 0#5 0#2 0#1 }
    (predOp d fun t _ i => (t.pred a.toNat).getLsbD i && (t.pred b.toNat).getLsbD i) st

/-- POR (R170): Predicate OR. -/
def execPor (d : BitVec 6) (a : BitVec 6) (b : BitVec 6) (st : State) : Out :=
  insn
    { word := fr 23#6 d a b 1#5 0#2 0#1 }
    (predOp d fun t _ i => (t.pred a.toNat).getLsbD i || (t.pred b.toNat).getLsbD i) st

/-- PXOR (R170): Predicate XOR. -/
def execPxor (d : BitVec 6) (a : BitVec 6) (b : BitVec 6) (st : State) : Out :=
  insn
    { word := fr 23#6 d a b 2#5 0#2 0#1 }
    (predOp d fun t _ i => (t.pred a.toNat).getLsbD i != (t.pred b.toNat).getLsbD i) st

/-- PANDN (R170): Predicate AND NOT. -/
def execPandn (d : BitVec 6) (a : BitVec 6) (b : BitVec 6) (st : State) : Out :=
  insn
    { word := fr 23#6 d a b 3#5 0#2 0#1 }
    (predOp d fun t _ i => (t.pred a.toNat).getLsbD i && !(t.pred b.toNat).getLsbD i) st

/-- PNOT (R170): Predicate NOT. -/
def execPnot (d : BitVec 6) (a : BitVec 6) (st : State) : Out :=
  insn { word := fr 23#6 d a 0#6 4#5 0#2 0#1 } (predOp d fun t _ i => !(t.pred a.toNat).getLsbD i) st

/-- PSBF (R170): Sets bits before the first set bit. -/
def execPsbf (d : BitVec 6) (a : BitVec 6) (st : State) : Out :=
  insn { word := fr 23#6 d a 0#6 5#5 0#2 0#1 } (predOp d fun t n i => decide (i < firstSet (t.pred a.toNat) n)) st

/-- PSIF (R170): Sets bits up to and including the first set bit. -/
def execPsif (d : BitVec 6) (a : BitVec 6) (st : State) : Out :=
  insn { word := fr 23#6 d a 0#6 6#5 0#2 0#1 } (predOp d fun t n i => decide (i ≤ firstSet (t.pred a.toNat) n)) st

/-- PSOF (R170): Sets only the first set bit. -/
def execPsof (d : BitVec 6) (a : BitVec 6) (st : State) : Out :=
  insn { word := fr 23#6 d a 0#6 7#5 0#2 0#1 } (predOp d fun t n i => decide (i = firstSet (t.pred a.toNat) n)) st

/-- PSET (R170): Sets predicate bits below VL.COUNT. -/
def execPset (d : BitVec 6) (st : State) : Out :=
  insn { word := fr 23#6 d 0#6 0#6 10#5 0#2 0#1 } (predOp d fun _ _ _ => true) st

/-- PCLR (R170): Clears predicate bits below VL.COUNT. -/
def execPclr (d : BitVec 6) (st : State) : Out :=
  insn { word := fr 23#6 d 0#6 0#6 11#5 0#2 0#1 } (predOp d fun _ _ _ => false) st

/-- PCNT (R170): Counts set predicate bits below VL.COUNT. -/
def execPcnt (d : BitVec 6) (a : BitVec 6) (st : State) : Out :=
  insn
    { word := fr 23#6 d a 0#6 8#5 0#2 0#1, ops := [.data d 1 true] }
    (predToX d a fun p n => BitVec.ofNat 64 ((List.range n).countP fun i => p.getLsbD i)) st

/-- PFIRST (R170): Returns the index of the first set predicate bit. -/
def execPfirst (d : BitVec 6) (a : BitVec 6) (st : State) : Out :=
  insn
    { word := fr 23#6 d a 0#6 9#5 0#2 0#1, ops := [.data d 1 true] }
    (predToX d a fun p n => if firstSet p n < n then BitVec.ofNat 64 (firstSet p n) else BitVec.allOnes 64) st

/-- PFROMX (R170): Writes 64 predicate bits from a scalar register. -/
def execPfromx (d : BitVec 6) (a : BitVec 6) (k : BitVec 2) (st : State) : Out :=
  insn { word := fr 23#6 d a (0#4 ++ k) 12#5 0#2 0#1, ops := [.data a 1 false] } (pfromxOp d a k) st

/-- PTOX (R170): Reads 64 predicate bits into a scalar register. -/
def execPtox (d : BitVec 6) (a : BitVec 6) (k : BitVec 2) (st : State) : Out :=
  insn
    { word := fr 23#6 d a (0#4 ++ k) 13#5 0#2 0#1, ops := [.data d 1 true] }
    (predToX d a fun p _ => p.extractLsb' (64 * k.toNat) 64) st

end Sys2Proof.Machine
end

