-- ==== Sys2Proof/Machine/Valu.lean ====
section
/-! DEFINITION. Integer vector arithmetic (R163, R164). -/

namespace Sys2Proof.Machine

/-- An integer operation on elements of width w, cut to w bits (R163). -/
def intOp (w : Nat) (f : BitVec w → BitVec w → Int) (a b _d : Nat) : Nat × Nat :=
  ((BitVec.ofInt w (f (BitVec.ofNat w a) (BitVec.ofNat w b))).toNat, 0)

/-- A saturated result: SX when it is clamped (R63, R163). -/
def satOp (w : Nat) (f : Int → Int → Int) (a b _d : Nat) : Nat × Nat :=
  let v := f (BitVec.ofNat w a).toInt (BitVec.ofNat w b).toInt
  let hi : Int := (2 ^ (w - 1) : Nat) - 1
  let lo : Int := -((2 ^ (w - 1) : Nat) : Int)
  if hi < v then ((BitVec.ofInt w hi).toNat, Fp.SX)
  else if v < lo then ((BitVec.ofInt w lo).toNat, Fp.SX)
  else ((BitVec.ofInt w v).toNat, 0)

/-- The smaller or greater of two elements as signed integers. -/
def sPick (w : Nat) (max : Bool) (a b : Nat) : Nat :=
  if (decide ((BitVec.ofNat w a).toInt < (BitVec.ofNat w b).toInt)) = max then b else a

/-- VADD (R163): Element-wise integer add. -/
def execVadd (d : BitVec 6) (a : BitVec 6) (b : BitVec 6) (t : BitVec 2) (x : BitVec 1) (st : State) : Out :=
  insn
    { word := fr 20#6 d a b 0#5 t x, ops := [.data d 2 true, .data a 2 false, xOpnd b x], classes := vecClasses t, xfields := [xField b x] }
    (lanes2 d a b x (tyWidth t) 0 (intOp (tyWidth t) (fun x y => x.toInt + y.toInt))) st

/-- VSUB (R163): Element-wise integer subtract. -/
def execVsub (d : BitVec 6) (a : BitVec 6) (b : BitVec 6) (t : BitVec 2) (x : BitVec 1) (st : State) : Out :=
  insn
    { word := fr 20#6 d a b 1#5 t x, ops := [.data d 2 true, .data a 2 false, xOpnd b x], classes := vecClasses t, xfields := [xField b x] }
    (lanes2 d a b x (tyWidth t) 0 (intOp (tyWidth t) (fun x y => x.toInt - y.toInt))) st

/-- VMUL (R163): Element-wise integer multiply, low bits. -/
def execVmul (d : BitVec 6) (a : BitVec 6) (b : BitVec 6) (t : BitVec 2) (x : BitVec 1) (st : State) : Out :=
  insn
    { word := fr 20#6 d a b 2#5 t x, ops := [.data d 2 true, .data a 2 false, xOpnd b x], classes := vecClasses t, xfields := [xField b x] }
    (lanes2 d a b x (tyWidth t) 0 (intOp (tyWidth t) (fun x y => x.toInt * y.toInt))) st

/-- VMULH (R163): Element-wise signed high-half multiply. -/
def execVmulh (d : BitVec 6) (a : BitVec 6) (b : BitVec 6) (t : BitVec 2) (x : BitVec 1) (st : State) : Out :=
  insn
    { word := fr 20#6 d a b 3#5 t x, ops := [.data d 2 true, .data a 2 false, xOpnd b x], classes := vecClasses t, xfields := [xField b x] }
    (lanes2 d a b x (tyWidth t) 0 (intOp (tyWidth t) (fun x y => (x.toInt * y.toInt) / (2 ^ tyWidth t : Nat)))) st

/-- VDIV (R163): Element-wise signed divide, on C and V. -/
def execVdiv (d : BitVec 6) (a : BitVec 6) (b : BitVec 6) (t : BitVec 2) (x : BitVec 1) (st : State) : Out :=
  insn
    { word := fr 20#6 d a b 5#5 t x, ops := [.data d 2 true, .data a 2 false, xOpnd b x], classes := 3, xfields := [xField b x] }
    (lanes2 d a b x (tyWidth t) 0 (intOp (tyWidth t) (sdiv _))) st

/-- VDIVN (R163): Element-wise natural divide, on C and V. -/
def execVdivn (d : BitVec 6) (a : BitVec 6) (b : BitVec 6) (t : BitVec 2) (x : BitVec 1) (st : State) : Out :=
  insn
    { word := fr 20#6 d a b 6#5 t x, ops := [.data d 2 true, .data a 2 false, xOpnd b x], classes := 3, xfields := [xField b x] }
    (lanes2 d a b x (tyWidth t) 0 (intOp (tyWidth t) (ndiv _))) st

/-- VREM (R163): Element-wise signed remainder, on C and V. -/
def execVrem (d : BitVec 6) (a : BitVec 6) (b : BitVec 6) (t : BitVec 2) (x : BitVec 1) (st : State) : Out :=
  insn
    { word := fr 20#6 d a b 7#5 t x, ops := [.data d 2 true, .data a 2 false, xOpnd b x], classes := 3, xfields := [xField b x] }
    (lanes2 d a b x (tyWidth t) 0 (intOp (tyWidth t) (srem _))) st

/-- VMIN (R163): Element-wise signed minimum. -/
def execVmin (d : BitVec 6) (a : BitVec 6) (b : BitVec 6) (t : BitVec 2) (x : BitVec 1) (st : State) : Out :=
  insn
    { word := fr 20#6 d a b 8#5 t x, ops := [.data d 2 true, .data a 2 false, xOpnd b x], classes := vecClasses t, xfields := [xField b x] }
    (lanes2 d a b x (tyWidth t) 0 (intOp (tyWidth t) (fun x y => if x.toInt ≤ y.toInt then x.toInt else y.toInt))) st

/-- VMAX (R163): Element-wise signed maximum. -/
def execVmax (d : BitVec 6) (a : BitVec 6) (b : BitVec 6) (t : BitVec 2) (x : BitVec 1) (st : State) : Out :=
  insn
    { word := fr 20#6 d a b 9#5 t x, ops := [.data d 2 true, .data a 2 false, xOpnd b x], classes := vecClasses t, xfields := [xField b x] }
    (lanes2 d a b x (tyWidth t) 0 (intOp (tyWidth t) (fun x y => if x.toInt ≤ y.toInt then y.toInt else x.toInt))) st

/-- VMINN (R163): Element-wise natural minimum. -/
def execVminn (d : BitVec 6) (a : BitVec 6) (b : BitVec 6) (t : BitVec 2) (x : BitVec 1) (st : State) : Out :=
  insn
    { word := fr 20#6 d a b 10#5 t x, ops := [.data d 2 true, .data a 2 false, xOpnd b x], classes := vecClasses t, xfields := [xField b x] }
    (lanes2 d a b x (tyWidth t) 0 (intOp (tyWidth t) (fun x y => if x.toNat ≤ y.toNat then x.toNat else y.toNat))) st

/-- VMAXN (R163): Element-wise natural maximum. -/
def execVmaxn (d : BitVec 6) (a : BitVec 6) (b : BitVec 6) (t : BitVec 2) (x : BitVec 1) (st : State) : Out :=
  insn
    { word := fr 20#6 d a b 11#5 t x, ops := [.data d 2 true, .data a 2 false, xOpnd b x], classes := vecClasses t, xfields := [xField b x] }
    (lanes2 d a b x (tyWidth t) 0 (intOp (tyWidth t) (fun x y => if x.toNat ≤ y.toNat then y.toNat else x.toNat))) st

/-- VAND (R163): Element-wise AND. -/
def execVand (d : BitVec 6) (a : BitVec 6) (b : BitVec 6) (t : BitVec 2) (x : BitVec 1) (st : State) : Out :=
  insn
    { word := fr 20#6 d a b 12#5 t x, ops := [.data d 2 true, .data a 2 false, xOpnd b x], classes := vecClasses t, xfields := [xField b x] }
    (lanes2 d a b x (tyWidth t) 0 (intOp (tyWidth t) (fun x y => (x &&& y).toInt))) st

/-- VOR (R163): Element-wise OR. -/
def execVor (d : BitVec 6) (a : BitVec 6) (b : BitVec 6) (t : BitVec 2) (x : BitVec 1) (st : State) : Out :=
  insn
    { word := fr 20#6 d a b 13#5 t x, ops := [.data d 2 true, .data a 2 false, xOpnd b x], classes := vecClasses t, xfields := [xField b x] }
    (lanes2 d a b x (tyWidth t) 0 (intOp (tyWidth t) (fun x y => (x ||| y).toInt))) st

/-- VXOR (R163): Element-wise XOR. -/
def execVxor (d : BitVec 6) (a : BitVec 6) (b : BitVec 6) (t : BitVec 2) (x : BitVec 1) (st : State) : Out :=
  insn
    { word := fr 20#6 d a b 14#5 t x, ops := [.data d 2 true, .data a 2 false, xOpnd b x], classes := vecClasses t, xfields := [xField b x] }
    (lanes2 d a b x (tyWidth t) 0 (intOp (tyWidth t) (fun x y => (x ^^^ y).toInt))) st

/-- VSLL (R163): Element-wise logical left shift. -/
def execVsll (d : BitVec 6) (a : BitVec 6) (b : BitVec 6) (t : BitVec 2) (x : BitVec 1) (st : State) : Out :=
  insn
    { word := fr 20#6 d a b 15#5 t x, ops := [.data d 2 true, .data a 2 false, xOpnd b x], classes := vecClasses t, xfields := [xField b x] }
    (lanes2 d a b x (tyWidth t) 0 (intOp (tyWidth t) (fun x y => ((x.toNat * 2 ^ (y.toNat % tyWidth t) : Nat) : Int)))) st

/-- VSRL (R163): Element-wise logical right shift. -/
def execVsrl (d : BitVec 6) (a : BitVec 6) (b : BitVec 6) (t : BitVec 2) (x : BitVec 1) (st : State) : Out :=
  insn
    { word := fr 20#6 d a b 16#5 t x, ops := [.data d 2 true, .data a 2 false, xOpnd b x], classes := vecClasses t, xfields := [xField b x] }
    (lanes2 d a b x (tyWidth t) 0 (intOp (tyWidth t) (fun x y => ((x.toNat / 2 ^ (y.toNat % tyWidth t) : Nat) : Int)))) st

/-- VSRA (R163): Element-wise arithmetic right shift. -/
def execVsra (d : BitVec 6) (a : BitVec 6) (b : BitVec 6) (t : BitVec 2) (x : BitVec 1) (st : State) : Out :=
  insn
    { word := fr 20#6 d a b 17#5 t x, ops := [.data d 2 true, .data a 2 false, xOpnd b x], classes := vecClasses t, xfields := [xField b x] }
    (lanes2 d a b x (tyWidth t) 0 (intOp (tyWidth t) (fun x y => x.toInt / (2 ^ (y.toNat % tyWidth t) : Nat)))) st

/-- VMAC (R163): Element-wise multiply-accumulate into d. -/
def execVmac (d : BitVec 6) (a : BitVec 6) (b : BitVec 6) (t : BitVec 2) (x : BitVec 1) (st : State) : Out :=
  insn
    { word := fr 20#6 d a b 4#5 t x, ops := [.reg d, .data a 2 false, xOpnd b x], classes := vecClasses t, xfields := [xField b x] }
    (lanes2 d a b x (tyWidth t) 0 fun p q r => (intOp (tyWidth t) (fun x y => (BitVec.ofNat (tyWidth t) r).toInt + x.toInt * y.toInt) p q r)) st

/-- VSADD (R163): Element-wise saturating add, setting SX when clamped. -/
def execVsadd (d : BitVec 6) (a : BitVec 6) (b : BitVec 6) (t : BitVec 2) (x : BitVec 1) (st : State) : Out :=
  insn
    { word := fr 20#6 d a b 18#5 t x, ops := [.data d 2 true, .data a 2 false, xOpnd b x], classes := vecClasses t, xfields := [xField b x] }
    (lanes2 d a b x (tyWidth t) 0 (satOp (tyWidth t) (fun x y => x + y))) st

/-- VSSUB (R163): Element-wise saturating subtract. -/
def execVssub (d : BitVec 6) (a : BitVec 6) (b : BitVec 6) (t : BitVec 2) (x : BitVec 1) (st : State) : Out :=
  insn
    { word := fr 20#6 d a b 19#5 t x, ops := [.data d 2 true, .data a 2 false, xOpnd b x], classes := vecClasses t, xfields := [xField b x] }
    (lanes2 d a b x (tyWidth t) 0 (satOp (tyWidth t) (fun x y => x - y))) st

/-- VABS (R163): Element-wise absolute value. -/
def execVabs (d : BitVec 6) (a : BitVec 6) (t : BitVec 2) (st : State) : Out :=
  insn
    { word := fr 20#6 d a 0#6 20#5 t 0#1, ops := [.data d 2 true, .data a 2 false], classes := vecClasses t }
    (lanes1 d a (tyWidth t) 0 fun p => intOp (tyWidth t) (fun x _ => x.toInt.natAbs) p 0 0) st

/-- VNEG (R163): Element-wise negation. -/
def execVneg (d : BitVec 6) (a : BitVec 6) (t : BitVec 2) (st : State) : Out :=
  insn
    { word := fr 20#6 d a 0#6 21#5 t 0#1, ops := [.data d 2 true, .data a 2 false], classes := vecClasses t }
    (lanes1 d a (tyWidth t) 0 fun p => intOp (tyWidth t) (fun x _ => -x.toInt) p 0 0) st

/-- VREDSUM (R164): Sums active elements plus b[0] into d[0]. -/
def execVredsum (d : BitVec 6) (a : BitVec 6) (b : BitVec 6) (t : BitVec 2) (st : State) : Out :=
  insn
    { word := fr 20#6 d a b 22#5 t 0#1, ops := [.data d 2 true, .data a 2 false, .data b 2 false], classes := vecClasses t }
    (reduce d a b (tyWidth t) 0 (foldActive (fun p q => ((p + q) % 2 ^ tyWidth t, 0)))) st

/-- VREDMIN (R164): Signed minimum reduction into d[0]. -/
def execVredmin (d : BitVec 6) (a : BitVec 6) (b : BitVec 6) (t : BitVec 2) (st : State) : Out :=
  insn
    { word := fr 20#6 d a b 23#5 t 0#1, ops := [.data d 2 true, .data a 2 false, .data b 2 false], classes := vecClasses t }
    (reduce d a b (tyWidth t) 0 (foldActive (fun p q => (sPick (tyWidth t) false p q, 0)))) st

/-- VREDMAX (R164): Signed maximum reduction into d[0]. -/
def execVredmax (d : BitVec 6) (a : BitVec 6) (b : BitVec 6) (t : BitVec 2) (st : State) : Out :=
  insn
    { word := fr 20#6 d a b 24#5 t 0#1, ops := [.data d 2 true, .data a 2 false, .data b 2 false], classes := vecClasses t }
    (reduce d a b (tyWidth t) 0 (foldActive (fun p q => (sPick (tyWidth t) true p q, 0)))) st

end Sys2Proof.Machine
end

