-- ==== Sys2Proof/Machine/Vctl.lean ====
section
/-! DEFINITION. Strip control and strip compaction (R161, R162, R179, R180). -/

namespace Sys2Proof.Machine

/-- SETVL and SETVLI (R162): the count is cut to the granted vector length. -/
def setvlOp (d : BitVec 6) (t : BitVec 2) (req : Nat) : M Flow := do
  let s ← me
  let c := min req (s.gvl * 32 / tyWidth t)
  updMe fun s => { s with vl := BitVec.ofNat 64 (c + t.toNat * 4096) }
  writeReg d (BitVec.ofNat 64 c)
  vecEnd none
  return .seq

/-- SCPUT (R180): with SCTHR above 64 no strip is dense, not even an empty one (R179). -/
def scputOp (d a : BitVec 6) (t : BitVec 2) : M Flow := do
  let s ← me
  let w := tyWidth t
  let va ← readV a
  let n := s.strip w
  let is := s.lanes 0 n
  let c := s.compaction
  if !c.elems.isEmpty ∧ c.width ≠ w then writeReg d (-1)
  else if c.elems.isEmpty ∧ s.scthr.toNat % 128 ≤ 64 ∧ (s.scthr.toNat % 128) * n ≤ is.length * 64 then writeReg d 1
  else if 4096 < (c.elems.length + is.length) * w then writeReg d (-1)
  else
    updMe fun s => { s with compaction := ⟨w, c.elems ++ is.map fun i => BitVec.ofNat 64 (elem va w i)⟩ }
    writeReg d 0
  vecEnd (some 3)
  return .seq

/-- SCTAKE (R180): VMS is ignored (DEDUCED, log entry 36). -/
def sctakeOp (d : BitVec 6) (t : BitVec 2) : M Flow := do
  let s ← me
  let w := tyWidth t
  let n := s.strip w
  let c := s.compaction
  let wrong := !c.elems.isEmpty && c.width != w
  let k := if wrong then 0 else min n c.elems.length
  if !wrong then updMe fun s => { s with compaction := { c with elems := c.elems.drop k } }
  permute d w (List.range n) fun i => if i < k then (c.elems.getD i 0).toNat else 0
  return .seq

/-- The width code of the compaction buffer (R155, R180). -/
def widthCode (w : Nat) : Nat := if w = 16 then 1 else if w = 8 then 2 else if w = 64 then 3 else 0

/-- SETVL (R162): Sets VL from a requested count capped by GVL. -/
def execSetvl (d : BitVec 6) (a : BitVec 6) (t : BitVec 2) (st : State) : Out :=
  insn { word := fr 27#6 d a 0#6 0#5 t 0#1, ops := [.reg d, .reg a] } (do setvlOp d t ((← me).reg a.toNat).toNat) st

/-- SETVLI (R162): Sets VL from an immediate count. -/
def execSetvli (d : BitVec 6) (i : BitVec 12) (t : BitVec 2) (st : State) : Out :=
  insn
    { word := fr 27#6 d (i.extractLsb' 6 6) (i.extractLsb' 0 6) 1#5 t 0#1, ops := [.reg d] }
    (setvlOp d t i.toNat) st

/-- SETMS (R162): Selects the mask predicate or all-true. -/
def execSetms (a : BitVec 6) (m : BitVec 1) (st : State) : Out :=
  insn
    { word := fr 27#6 0#6 a (0#5 ++ m) 2#5 0#2 0#1 }
    (do
      updMe fun s => { s with vms := if m = 1 then 0x40 else a.setWidth 64 }
      vecEnd none
      return .seq) st

/-- SETST (R162): Sets the vector stride VST. -/
def execSetst (a : BitVec 6) (st : State) : Out :=
  insn
    { word := fr 27#6 0#6 a 0#6 3#5 0#2 0#1, ops := [.reg a] }
    (do
      updMe fun s => { s with vst := s.reg a.toNat }
      vecEnd none
      return .seq) st

/-- SCPUT (R180): Appends active elements to the compaction buffer or reports a dense strip. -/
def execScput (d : BitVec 6) (a : BitVec 6) (t : BitVec 2) (st : State) : Out :=
  insn { word := fr 27#6 d a 0#6 4#5 t 0#1, ops := [.reg d, .data a 2 false] } (scputOp d a t) st

/-- SCTAKE (R180): Takes a dense strip from the compaction buffer. -/
def execSctake (d : BitVec 6) (t : BitVec 2) (st : State) : Out :=
  insn { word := fr 27#6 d 0#6 0#6 5#5 t 0#1, ops := [.data d 2 true] } (sctakeOp d t) st

/-- SCFLUSH (R180): Empties the compaction buffer and returns its count. -/
def execScflush (d : BitVec 6) (st : State) : Out :=
  insn
    { word := fr 27#6 d 0#6 0#6 6#5 0#2 0#1, ops := [.reg d] }
    (do
      let c := (← me).compaction
      updMe fun s => { s with compaction := { c with elems := [] } }
      writeReg d (BitVec.ofNat 64 c.elems.length)
      vecEnd none
      return .seq) st

/-- SCSTAT (R180): Returns the compaction buffer count and width. -/
def execScstat (d : BitVec 6) (st : State) : Out :=
  insn
    { word := fr 27#6 d 0#6 0#6 7#5 0#2 0#1, ops := [.reg d] }
    (do
      let c := (← me).compaction
      writeReg d (BitVec.ofNat 64 (c.elems.length + (if c.elems.isEmpty then 0 else widthCode c.width) * 4096))
      vecEnd none
      return .seq) st

end Sys2Proof.Machine
end

