-- ==== Sys2Proof/Machine/Vmem.lean ====
section
/-! DEFINITION. Vector memory (R172-R178). -/

namespace Sys2Proof.Machine

/-- The lane group of element i: the bits of VDONE that it overlaps (R158). -/
def laneBits (w i : Nat) : Word :=
  if w = 64 then BitVec.ofNat 64 (3 * 2 ^ (2 * i)) else BitVec.ofNat 64 (2 ^ (w * i / 32))

/-- Whether VDONE marks the lane group of element i. -/
def Strand.marked (t : Strand) (w i : Nat) : Bool := t.vdone &&& laneBits w i = laneBits w i

/-- The elements that a vector memory instruction performs (R173). -/
def Strand.todo (t : Strand) (w n : Nat) : List Nat := (t.lanes t.vstartN n).filter fun i => !t.marked w i

/-- The elements at or above VSTART that are active, whether or not VDONE marks them. -/
def Strand.fromStart (t : Strand) (n : Nat) : List Nat := t.lanes t.vstartN n

/-- What a vector memory instruction is: its data width, strip, the address of each element, and whether it is unit-stride (R173). -/
structure VAccess where
  w : Nat
  n : Nat
  addr : Nat → Word
  unit : Bool

/-- The access width in bits of a wd field (R172). -/
def wdWidth (w : BitVec 2) : Nat := 8 * 2 ^ w.toNat

/-- Unit-stride addresses (R173). -/
def unitAccess (t : Strand) (b : BitVec 6) (w : BitVec 2) : VAccess :=
  ⟨wdWidth w, t.strip (wdWidth w), fun i => t.reg b.toNat + BitVec.ofNat 64 (i * (wdWidth w / 8)), true⟩

/-- Strided addresses (R173). -/
def stridedAccess (t : Strand) (b : BitVec 6) (w : BitVec 2) : VAccess :=
  ⟨wdWidth w, t.strip (wdWidth w), fun i => t.reg b.toNat + BitVec.ofNat 64 i * t.vst, false⟩

/-- Indexed addresses (R173). -/
def indexedAccess (t : Strand) (b i : BitVec 6) (w : BitVec 2) : VAccess :=
  let xw := if wdWidth w = 64 then 64 else 32
  ⟨wdWidth w, t.strip (max (wdWidth w) 32), fun k =>
    t.reg b.toNat + (BitVec.ofNat xw (elem (t.vec i.toNat) xw k)).signExtend 64, false⟩

/-- The broadcast address (R173). -/
def broadcastAccess (t : Strand) (b : BitVec 6) (w : BitVec 2) : VAccess :=
  ⟨wdWidth w, t.strip (wdWidth w), fun _ => t.reg b.toNat, false⟩

/-- Park as a whole while an active element lies above a watermark (R324). -/
def checkChannels (v : VAccess) (is : List Nat) : M Unit := is.forM fun i => checkChannel (v.addr i) (v.w / 8)

/-- Whether an element lies in a line that a lower element of the instruction touches: the elements of a line are one request
(R242). -/
def VAccess.again (v : VAccess) (t : Strand) (i : Nat) : Bool :=
  (t.todo v.w v.n).any fun k => decide (k < i) && v.addr k >>> 7 == v.addr i >>> 7

/-- Whether the line of an element lies wholly within the span of a unit-stride strip: a store to it is a full-line store (R251). -/
def VAccess.full (v : VAccess) (i : Nat) : Bool :=
  let first := v.addr 0
  let line := v.addr i / 128 * 128
  v.unit && decide ((line - first).toNat ≤ (v.addr i - first).toNat) && decide ((line - first).toNat + 128 ≤ v.n * (v.w / 8))

/-- The access of an element: poisoned data met on its way, in a window's fill too, is reported at the element's address (R174). -/
def atElem {α : Type} (va : Word) (m : M α) : M α := do
  match ← attempt m with
  | .ok a => return a
  | .error (.trap x) => throw (.trap (if x.cause = 11 then { x with val := va } else x))
  | .error e => throw e

/-- Load one element, with its faults (R174). -/
def loadElem (v : VAccess) (i : Nat) : M Nat := do
  checkAligned (v.addr i) (v.w / 8)
  let (bs, _) ← atElem (v.addr i) (loadBytes (v.addr i) (v.w / 8) false 0 (v.again (← me) i))
  return leNat bs

/-- Store one element, with its faults (R174). An element of a full line may be the one at which the line's home finds it Poisoned
(R251). -/
def storeElem (v : VAccess) (i x : Nat) : M Unit := do
  checkAligned (v.addr i) (v.w / 8)
  atElem (v.addr i) (storeBytes (v.addr i) (leBytes (v.w / 8) x) 0 (v.again (← me) i) (v.full i))

/-- Steps 1 to 5 of R174 for every element, before any is performed (R175). -/
def checkElems (k : Kind) (v : VAccess) (is : List Nat) : M Unit := is.forM fun i => do
  checkAligned (v.addr i) (v.w / 8)
  let _ ← resolve k (v.addr i) (v.w / 8)

/-- A vector memory instruction completes: VSTART and VDONE become 0 (R158). -/
def vmemEnd (pipe : Nat) : M Unit := do
  vecEnd (some pipe)
  updMe fun t => { t with vdone := 0 }

/-- A vector memory instruction completes with results on their way (R158, R410). -/
def vmemEndLater (pipe : Nat) (key : List Nat) : M Unit := do
  vecEndLater pipe key
  updMe fun t => { t with vdone := 0 }

/-- A vector load into a queue slot completes: its value is on its way to the slot (R137, R410). -/
def fillLater (q slot gen : Nat) (r : Vec) : M Unit := do
  modify fun s => s.post (.queueFillArrival (s.owner s.cur) q slot gen r false)
  let s ← get
  vmemEndLater 4 (slotKey (s.owner s.cur) q slot gen)

/-- The VDONE that a fault leaves: a lane group with active elements is marked when every one of them has completed: performed
now, below VSTART, or marked before (R158, R174) (DEDUCED, log entry 37). -/
def doneMask (t : Strand) (w n : Nat) (performed : List Nat) : Word :=
  (t.lanes 0 n).foldl (init := t.vdone) fun m i =>
    let whole := (t.lanes 0 n).all fun k =>
      laneBits w k != laneBits w i || performed.contains k || decide (k < t.vstartN) || t.marked w k
    if whole then m ||| laneBits w i else m

/-- The trap at element j with the elements performed so far kept (R174, R368, R411). -/
def stopAt (v : VAccess) (x : Trap) (j : Nat) (performed : List Nat) (pipe : Nat) : M Unit := do
  let t ← me
  let m := doneMask t v.w v.n performed
  updMe fun t => { t with vstart := BitVec.ofNat 64 j, vdone := m }
  let part := j != 0 || m != 0
  if part then
    modify fun s => elementRecords (pipeRecords s s.cur pipe true) s.cur
  throw (.trapAt x part)

/-- Perform elements in ascending order until one faults. The elements above a faulting one may have been performed
(R174, DESIGN CHOICE, log entry 8). one performs an element; early says whether element k may be performed before the lower ones of a
list. The elements performed, and the lowest fault. -/
def perform (early : Nat → List Nat → Bool) (one : Nat → M Unit) : List Nat → M (List Nat × Option (Nat × Trap))
  | [] => return ([], none)
  | i :: is => do
    match ← attempt (one i) with
    | .ok _ =>
      let (done, f) ← perform early one is
      return (i :: done, f)
    | .error (.trap x) =>
      let tick := (← get).tick
      let more ← above tick [i] is
      return (more, some (i, x))
    | .error e => throw e
where
  /-- Elements above the faulting one: each is performed or not, and its own faults are not reported. -/
  above (tick : Nat) (lower : List Nat) : List Nat → M (List Nat)
    | [] => return []
    | k :: ks => do
      if early k lower && Config.aboveDone tick k then
        match ← attempt (one k) with
        | .ok _ => return k :: (← above tick lower ks)
        | .error _ => above tick (lower ++ [k]) ks
      else above tick (lower ++ [k]) ks

/-- Whether a store of element k cannot meet those of lower elements that are still to come: their addresses differ within a line, so no
translation makes them the same bytes (R177). -/
def VAccess.apart (v : VAccess) (k : Nat) (lower : List Nat) : Bool := lower.all fun i => (v.addr i).toNat % 128 != (v.addr k).toNat % 128

/-- A load into a register, element by element: the destination is written as far as the load came (R174). -/
def loadReg (d : BitVec 6) (v : VAccess) : M Unit := do
  let t ← me
  let is := t.todo v.w v.n
  vecReady d.toNat
  checkChannels v is
  let (done, f) ← perform (fun _ _ => true) (fun i => do
    let x ← loadElem v i
    updMe fun t => t.setVec d.toNat (setElem (t.vec d.toNat) v.w i x) ((i + 1) * v.w / 8)) is
  match f with
  | some (j, x) => stopAt v x j done 4
  | none => vmemEnd 4

/-- The elements of a load that executes as a whole: the checks of all, then the values (R175). -/
def loadWhole (v : VAccess) (base : Vec) : M (Vec × Nat) := do
  let t ← me
  let is := t.todo v.w v.n
  checkElems .load v is
  checkChannels v is
  let mut r := base
  for i in is do
    let x ← loadElem v i
    r := setElem r v.w i x
  return (r, topOf is * v.w / 8)

/-- A vector load (R173-R175): into a queue, or with whole set, it executes as a whole; a queue slot fills when the value
arrives (R137). -/
def vload (d : BitVec 6) (whole : Bool) (st : BitVec 2) (v : VAccess) : M Flow := do
  streamReady st.toNat
  if d.toNat < 32 then
    if whole then
      vecReady d.toNat
      let (r, n) ← loadWhole v ((← me).vec d.toNat)
      writeV d r n
      vmemEnd 4
    else loadReg d v
  else
    let q := d.toNat - 32
    let (slot, gen) ← allocSlot q ⟨false, false, 0, []⟩
    let (r, _) ← loadWhole v 0
    fillLater q slot gen r
  return .seq

/-- The slot that a load into a queue allocates when it issues (R137) (DEDUCED, log entry 68). -/
def loadSlot (d : BitVec 6) : M (Option (Nat × Nat)) :=
  if d.toNat < 32 then pure none
  else do
    let p ← allocSlot (d.toNat - 32) ⟨false, false, 0, []⟩
    return some p

/-- A vector load hands over its value and completes: its register gets n bytes, or none at all, or the slot allocated for it gets the
value when it arrives. -/
def deliverLoad (d : BitVec 6) (place : Option (Nat × Nat)) (r : Vec) (n : Option Nat) : M Unit :=
  match place with
  | some (slot, gen) => fillLater (d.toNat - 32) slot gen r
  | none => do
    match n with
    | some n => writeV d r n
    | none => pure ()
    vmemEnd 4

/-- VLDB (R173): one access, on behalf of the lowest active element at or above VSTART, gives its value to all that VDONE does not
mark. -/
def vldbOp (d : BitVec 6) (st : BitVec 2) (v : VAccess) : M Flow := do
  streamReady st.toNat
  let t ← me
  let is := t.todo v.w v.n
  let old ← oldV d
  let place ← loadSlot d
  let low := t.fromStart v.n
  match low with
  | [] => deliverLoad d place 0 none
  | j :: _ =>
    checkChannels v [j]
    match ← attempt (loadElem v j) with
    | .ok x => deliverLoad d place (is.foldl (init := old) fun r i => setElem r v.w i x) (some (topOf is * v.w / 8))
    | .error (.trap x) => if d.toNat < 32 then stopAt v x j [] 4 else throw (.trap x)
    | .error e => throw e
  return .seq

/-- The loads of VLDFF, ascending until an element other than j, the first active one at or above VSTART, would fault at a step of R174:
the elements loaded, and where the load is cut (R176). A watch is no such step (R369). -/
def faultFirst (v : VAccess) (j : Nat) : List Nat → Vec → M (Vec × List Nat × Option (Nat × Trap))
  | [], r => return (r, [], none)
  | i :: is, r => do
    checkChannel (v.addr i) (v.w / 8)
    match ← attempt (loadElem v i) with
    | .ok x =>
      let (r, done, f) ← faultFirst v j is (setElem r v.w i x)
      return (r, i :: done, f)
    | .error (.trap x) => return (r, [], some (i, if i = j ∨ x.cause = 17 then x else ⟨0, 0, 0⟩))
    | .error e => throw e

/-- The VL width code of an element width (R155, R176). -/
def vlCode (w : Nat) : Nat := if w = 8 then 2 else if w = 16 then 1 else if w = 32 then 0 else 3

/-- VLDFF (R176): a fault beyond the first active element cuts the strip. -/
def vldffOp (d : BitVec 6) (st : BitVec 2) (v : VAccess) : M Flow := do
  streamReady st.toNat
  let t ← me
  let old ← oldV d
  let place ← loadSlot d
  let is := t.todo v.w v.n
  let (r, done, f) ← faultFirst v ((t.fromStart v.n).headD v.n) is old
  match f with
  | some (j, x) =>
    if x.cause ≠ 0 then
      if d.toNat < 32 then
        writeV d r (topOf done * v.w / 8)
        stopAt v x j done 4
      else throw (.trap x)
    else updMe fun t => { t with vl := BitVec.ofNat 64 (j + vlCode v.w * 4096) }
  | none => pure ()
  deliverLoad d place r (some (topOf done * v.w / 8))
  return .seq

/-- Whether an element touches a line. -/
def VAccess.touches (v : VAccess) (i : Nat) (line : Word) : Bool :=
  v.addr i / 128 == line || (v.addr i + BitVec.ofNat 64 (v.w / 8 - 1)) / 128 == line

/-- An element of each line of a full-line store in which no element is active: the store still reaches the line as a request of its
own (R251). -/
def VAccess.idleLines (v : VAccess) (t : Strand) : List Nat :=
  (List.range v.n).filter fun i =>
    v.full i && (i = 0 || v.addr (i - 1) / 128 != v.addr i / 128) && !((t.lanes 0 v.n).any fun k => v.touches k (v.addr i / 128))

/-- A full-line store without an active element in a line reaches the line's home, if the context's translation maps it writable there;
an inactive element takes no fault (R174, R251). -/
def idleStore (va : Word) : M Unit := do
  match ← attempt (resolve .store va 128) with
  | .ok (.mem l) =>
    awaitOwn va l.pa 128
    modify fun s =>
      let t := s.me
      if !reachable s l.pa || keyEmpty s l then s
      else
        let s := nextRequest s (if l.cls = 3 then requester s t.core (l.pa / 128) else t.core)
        let s := if (s.line (s.movedPa l.pa / 128)).code = 3 then stampKey (touchWrite s l t.ctx va) l 128 else s
        fullLineStore s l.pa (l.logEnable && l.cls = 2) t.ctx va
  | _ => pure ()

/-- The lines of a vector store in which nothing is active. -/
def idleStores (v : VAccess) : M Unit := do
  (v.idleLines (← me)).forM fun i => idleStore (v.addr i / 128 * 128)

/-- A vector store (R173-R175, R177): overlapping elements take effect in ascending order. From a queue it executes as a
whole. -/
def vstore (d : BitVec 6) (st : BitVec 2) (v : VAccess) : M Flow := do
  streamReady st.toNat
  let x ← readV d
  let t ← me
  let is := t.todo v.w v.n
  if d.toNat < 32 then
    checkChannels v is
    let (done, f) ← perform v.apart (fun i => storeElem v i (elem x v.w i)) is
    match f with
    | some (j, y) => stopAt v y j done 5
    | none =>
      idleStores v
      vmemEnd 5
  else
    checkElems .store v is
    checkChannels v is
    is.forM fun i => storeElem v i (elem x v.w i)
    idleStores v
    vmemEnd 5
  return .seq

/-- The check of R175 for an element of VSTXR: steps 1 to 5, and the poisoned data of a home on a fenced die (R178). -/
def checkRemote (v : VAccess) (is : List Nat) : M Unit := is.forM fun i => do
  checkAligned (v.addr i) (v.w / 8)
  match ← resolve .store (v.addr i) (v.w / 8) with
  | .mem l => if !reachable (← get) l.pa then trap 11 0 (v.addr i)
  | _ => pure ()

/-- VSTXR (R178): after the checks of all elements, one train leaves for each base die that homes one; elements in the
scratchpad are stored here. -/
def vstxrOp (d : BitVec 6) (st : BitVec 2) (v : VAccess) : M Flow := do
  streamReady st.toNat
  let x ← readV d
  let t ← me
  let is := t.todo v.w v.n
  checkRemote v is
  checkChannels v is
  let mut elems : List TrainElem := []
  for i in is do
    checkWatch .store (v.addr i) (v.w / 8)
    match ← resolve .store (v.addr i) (v.w / 8) with
    | .mem l =>
      awaitOwn (v.addr i) l.pa (v.w / 8)
      elems := elems ++ [⟨v.addr i, l.pa, l.bits, BitVec.ofNat 64 (elem x v.w i)⟩]
    | _ => storeElem v i (elem x v.w i)
  for die in List.range 4 do
    let mine := elems.filter fun e => homeDie e.pa = die
    if !mine.isEmpty then
      modify fun s => (s.updMe fun t => { t with
        trains := Tab.set 0 t.trains st.toNat (Tab.get 0 t.trains st.toNat + 1) }).post
          (.elementTrain s.cur die st.toNat v.w mine)
  if elems.isEmpty then vmemEnd 5 else vmemEndLater 5 [1, st.toNat]
  return .seq

/-- VLD (R173): Unit-stride vector load. -/
def execVld (d : BitVec 6) (b : BitVec 6) (w : BitVec 2) (s : BitVec 2) (h : BitVec 1) (st : State) : Out :=
  insn
    { word := fv 25#6 d b 0#6 0#3 w s h, ops := [.data d 2 true, .reg b], bar := true }
    (do vload d false s (unitAccess (← me) b w)) st

/-- VLDS (R173): Strided vector load using VST. -/
def execVlds (d : BitVec 6) (b : BitVec 6) (w : BitVec 2) (s : BitVec 2) (h : BitVec 1) (st : State) : Out :=
  insn
    { word := fv 25#6 d b 0#6 1#3 w s h, ops := [.data d 2 true, .reg b], bar := true }
    (do vload d false s (stridedAccess (← me) b w)) st

/-- VLDX (R173): Indexed vector gather, on C and V. -/
def execVldx (d : BitVec 6) (b : BitVec 6) (i : BitVec 6) (w : BitVec 2) (s : BitVec 2) (h : BitVec 1) (st : State) : Out :=
  insn
    { word := fv 25#6 d b i 2#3 w s h, ops := [.data d 2 true, .reg b, .reg i], bar := true, classes := 3, xfields := [b.toNat] }
    (do
      vecReady i.toNat
      vload d (d = i) s (indexedAccess (← me) b i w)) st

/-- VLDFF (R176): Fault-only-first vector load that truncates VL. -/
def execVldff (d : BitVec 6) (b : BitVec 6) (w : BitVec 2) (s : BitVec 2) (h : BitVec 1) (st : State) : Out :=
  insn
    { word := fv 25#6 d b 0#6 3#3 w s h, ops := [.data d 2 true, .reg b], bar := true }
    (do vldffOp d s (unitAccess (← me) b w)) st

/-- VLDB (R173): Loads one value and broadcasts it to active elements. -/
def execVldb (d : BitVec 6) (b : BitVec 6) (w : BitVec 2) (s : BitVec 2) (h : BitVec 1) (st : State) : Out :=
  insn
    { word := fv 25#6 d b 0#6 4#3 w s h, ops := [.data d 2 true, .reg b], bar := true }
    (do vldbOp d s (broadcastAccess (← me) b w)) st

/-- VST (R173): Unit-stride vector store. -/
def execVst (d : BitVec 6) (b : BitVec 6) (w : BitVec 2) (s : BitVec 2) (h : BitVec 1) (st : State) : Out :=
  insn
    { word := fv 26#6 d b 0#6 0#3 w s h, ops := [.data d 2 false, .reg b], bar := true }
    (do vstore d s (unitAccess (← me) b w)) st

/-- VSTS (R173): Strided vector store. -/
def execVsts (d : BitVec 6) (b : BitVec 6) (w : BitVec 2) (s : BitVec 2) (h : BitVec 1) (st : State) : Out :=
  insn
    { word := fv 26#6 d b 0#6 1#3 w s h, ops := [.data d 2 false, .reg b], bar := true }
    (do vstore d s (stridedAccess (← me) b w)) st

/-- VSTX (R173): Indexed vector scatter, on C and V. -/
def execVstx (d : BitVec 6) (b : BitVec 6) (i : BitVec 6) (w : BitVec 2) (s : BitVec 2) (h : BitVec 1) (st : State) : Out :=
  insn
    { word := fv 26#6 d b i 2#3 w s h, ops := [.data d 2 false, .reg b, .reg i], bar := true, classes := 3, xfields := [b.toNat] }
    (do
      vecReady i.toNat
      vstore d s (indexedAccess (← me) b i w)) st

/-- VSTXR (R178): Remote scatter sent as element trains per base die. -/
def execVstxr (d : BitVec 6) (b : BitVec 6) (i : BitVec 6) (w : BitVec 2) (s : BitVec 2) (h : BitVec 1) (st : State) : Out :=
  insn
    { word := fv 26#6 d b i 3#3 w s h, ops := [.data d 2 false, .reg b, .reg i], bar := true, classes := 3, xfields := [b.toNat] }
    (do
      vecReady i.toNat
      vstxrOp d s (indexedAccess (← me) b i w)) st

end Sys2Proof.Machine
end

