-- ==== Sys2Proof/Machine/Vperm.lean ====
section
/-! DEFINITION. Permutes (R171). -/

namespace Sys2Proof.Machine

/-- VCOMPRESS (R171). -/
def vcompressOp (d a : BitVec 6) (t : BitVec 2) : M Flow := do
  let s ← me
  let w := tyWidth t
  let va ← readV a
  let src := s.lanes 0 (s.strip w)
  permute d w (List.range src.length) fun j => elem va w (src.getD j 0)
  return .seq

/-- VEXPAND (R171). -/
def vexpandOp (d a : BitVec 6) (t : BitVec 2) : M Flow := do
  let s ← me
  let w := tyWidth t
  let va ← readV a
  let dst := s.lanes 0 (s.strip w)
  permute d w dst fun i => elem va w (dst.idxOf i)
  return .seq

/-- A permute under the destination mask: f of the source, the capacity and the index. -/
def masked (d a : BitVec 6) (t : BitVec 2) (f : Vec → Nat → Nat → Nat) : M Flow := do
  let s ← me
  let w := tyWidth t
  let va ← readV a
  permute d w (s.lanes 0 (s.strip w)) fun i => f va (2048 / w) i
  return .seq

/-- The slides (R171): the distance is a natural number of width w. -/
def slideOp (d a b : BitVec 6) (t : BitVec 2) (x : BitVec 1) (up : Bool) : M Flow := do
  let s ← me
  let w := tyWidth t
  let va ← readV a
  let sh := (← readB b x w) 0
  let is := s.lanes 0 (s.strip w)
  if up then permute d w (is.filter fun i => decide (sh ≤ i)) fun i => elem va w (i - sh)
  else permute d w is fun i => if i + sh < 2048 / w then elem va w (i + sh) else 0
  return .seq

/-- A permute of two vector sources under the destination mask. -/
def masked2 (d a b : BitVec 6) (t : BitVec 2) (f : Vec → Vec → Nat → Nat → Nat) : M Flow := do
  let s ← me
  let w := tyWidth t
  let va ← readV a
  let vb ← readV b
  let n := s.strip w
  permute d w (s.lanes 0 n) fun i => f va vb n i
  return .seq

/-- VEXTX (R171). -/
def vextxOp (d a b : BitVec 6) (t : BitVec 2) : M Flow := do
  let w := tyWidth t
  let va ← readV a
  let k := (← readX b).toNat
  writeX d (if k < 2048 / w then (BitVec.ofNat w (elem va w k)).signExtend 64 else 0)
  vecEnd (some 3)
  return .seq

/-- VINSX (R171). -/
def vinsxOp (d a b : BitVec 6) (t : BitVec 2) : M Flow := do
  let w := tyWidth t
  let x ← readX a
  let k := (← readX b).toNat
  permute d w (if k < 2048 / w then [k] else []) fun _ => x.toNat % 2 ^ w
  return .seq

/-- VIOTA (R171): the set bits of a predicate below each element (DEDUCED, log entry 32). -/
def viotaOp (d a : BitVec 6) (t : BitVec 2) : M Flow := do
  let s ← me
  let w := tyWidth t
  permute d w (s.lanes 0 (s.strip w)) fun i => (List.range i).countP fun j => (s.pred a.toNat).getLsbD j
  return .seq

/-- VCOMPRESS (R171): Packs active elements to the low end of d. -/
def execVcompress (d : BitVec 6) (a : BitVec 6) (t : BitVec 2) (st : State) : Out :=
  insn
    { word := fr 24#6 d a 0#6 0#5 t 0#1, ops := [.data d 2 true, .data a 2 false], classes := 3 }
    (vcompressOp d a t) st

/-- VEXPAND (R171): Spreads consecutive source elements to active positions. -/
def execVexpand (d : BitVec 6) (a : BitVec 6) (t : BitVec 2) (st : State) : Out :=
  insn
    { word := fr 24#6 d a 0#6 1#5 t 0#1, ops := [.data d 2 true, .data a 2 false], classes := 3 }
    (vexpandOp d a t) st

/-- VSLIDEUP (R171): Slides elements up by s. -/
def execVslideup (d : BitVec 6) (a : BitVec 6) (b : BitVec 6) (t : BitVec 2) (x : BitVec 1) (st : State) : Out :=
  insn
    { word := fr 24#6 d a b 2#5 t x, ops := [.data d 2 true, .data a 2 false, xOpnd b x], classes := vecClasses t, xfields := [xField b x] }
    (slideOp d a b t x true) st

/-- VSLIDEDN (R171): Slides elements down by s. -/
def execVslidedn (d : BitVec 6) (a : BitVec 6) (b : BitVec 6) (t : BitVec 2) (x : BitVec 1) (st : State) : Out :=
  insn
    { word := fr 24#6 d a b 3#5 t x, ops := [.data d 2 true, .data a 2 false, xOpnd b x], classes := vecClasses t, xfields := [xField b x] }
    (slideOp d a b t x false) st

/-- VPERMX (R171): Permutes elements by an index vector. -/
def execVpermx (d : BitVec 6) (a : BitVec 6) (b : BitVec 6) (t : BitVec 2) (st : State) : Out :=
  insn
    { word := fr 24#6 d a b 4#5 t 0#1, ops := [.data d 2 true, .data a 2 false, .data b 2 false], classes := 3 }
    (masked2 d a b t fun va vb _ i => if elem vb (tyWidth t) i < 2048 / tyWidth t then elem va (tyWidth t) (elem vb (tyWidth t) i) else 0) st

/-- VBCAST (R171): Broadcasts element k to the strip. -/
def execVbcast (d : BitVec 6) (a : BitVec 6) (k : BitVec 6) (t : BitVec 2) (st : State) : Out :=
  insn
    { word := fr 24#6 d a k 5#5 t 0#1, ops := [.data d 2 true, .data a 2 false], classes := vecClasses t }
    (masked d a t fun va c _ => if k.toNat < c then elem va (tyWidth t) k.toNat else 0) st

/-- VEXTX (R171): Extracts one element into a scalar register. -/
def execVextx (d : BitVec 6) (a : BitVec 6) (b : BitVec 6) (t : BitVec 2) (st : State) : Out :=
  insn
    { word := fr 24#6 d a b 6#5 t 0#1, ops := [.data d 1 true, .data a 2 false, .data b 1 false], classes := vecClasses t, xfields := [d.toNat, b.toNat] }
    (vextxOp d a b t) st

/-- VINSX (R171): Inserts a scalar into one element. -/
def execVinsx (d : BitVec 6) (a : BitVec 6) (b : BitVec 6) (t : BitVec 2) (st : State) : Out :=
  insn
    { word := fr 24#6 d a b 7#5 t 0#1, ops := [.data d 2 true, .data a 1 false, .data b 1 false], classes := vecClasses t, xfields := [a.toNat, b.toNat] }
    (vinsxOp d a b t) st

/-- VIOTA (R171): Writes prefix counts of predicate bits. -/
def execViota (d : BitVec 6) (a : BitVec 6) (b : BitVec 6) (t : BitVec 2) (st : State) : Out :=
  insn { word := fr 24#6 d a b 8#5 t 0#1, ops := [.data d 2 true], classes := vecClasses t } (viotaOp d a t) st

/-- VMOV (R171): Element-wise vector move. -/
def execVmov (d : BitVec 6) (a : BitVec 6) (t : BitVec 2) (st : State) : Out :=
  insn
    { word := fr 24#6 d a 0#6 9#5 t 0#1, ops := [.data d 2 true, .data a 2 false], classes := vecClasses t }
    (lanes1 d a (tyWidth t) 3 fun p => (p, 0)) st

/-- VZIP (R171): Interleaves two vectors. -/
def execVzip (d : BitVec 6) (a : BitVec 6) (b : BitVec 6) (t : BitVec 2) (st : State) : Out :=
  insn
    { word := fr 24#6 d a b 10#5 t 0#1, ops := [.data d 2 true, .data a 2 false, .data b 2 false], classes := vecClasses t }
    (masked2 d a b t fun va vb _ j => if j % 2 = 0 then elem va (tyWidth t) (j / 2) else elem vb (tyWidth t) (j / 2)) st

/-- VUNZIP (R171): Takes the even elements of two concatenated vectors. -/
def execVunzip (d : BitVec 6) (a : BitVec 6) (b : BitVec 6) (t : BitVec 2) (st : State) : Out :=
  insn
    { word := fr 24#6 d a b 11#5 t 0#1, ops := [.data d 2 true, .data a 2 false, .data b 2 false], classes := vecClasses t }
    (masked2 d a b t fun va vb n j => if 2 * j < n then elem va (tyWidth t) (2 * j) else elem vb (tyWidth t) (2 * j - n)) st

end Sys2Proof.Machine
end

