-- ==== Sys2Proof/Machine/Dispatch.lean ====
section
/-! DEFINITION. One arm per row of the opcode table, each a direct call of its meaning. -/

namespace Sys2Proof.Machine

/-- The effect of an instruction or device event (DEDUCED, log entry 19). -/
def exec (i : Instr) (s : State) : Host.Outcome State Fault Refusal :=
  match i with
  | .strandWake u => Sys2Proof.Machine.execStrandWake u s
  | .barwtDeadline u => Sys2Proof.Machine.execBarwtDeadline u s
  | .userInterruptEntry u => Sys2Proof.Machine.execUserInterruptEntry u s
  | .migrationSearchExpiry u => Sys2Proof.Machine.execMigrationSearchExpiry u s
  | .migrationCoreFreed u => Sys2Proof.Machine.execMigrationCoreFreed u s
  | .migrationCarryComplete u => Sys2Proof.Machine.execMigrationCarryComplete u s
  | .creditReturn u => Sys2Proof.Machine.execCreditReturn u s
  | .proactiveReturn u => Sys2Proof.Machine.execProactiveReturn u s
  | .naingOrderedMove u classes => Sys2Proof.Machine.execNaingOrderedMove u classes s
  | .preemptionSaveComplete u => Sys2Proof.Machine.execPreemptionSaveComplete u s
  | .homeRead agent line => Sys2Proof.Machine.execHomeRead agent line s
  | .homeOwn agent line => Sys2Proof.Machine.execHomeOwn agent line s
  | .homeWriteBack agent line seq => Sys2Proof.Machine.execHomeWriteBack agent line seq s
  | .cleanCopyDrop agent line => Sys2Proof.Machine.execCleanCopyDrop agent line s
  | .invalidatingSnoop agent line => Sys2Proof.Machine.execInvalidatingSnoop agent line s
  | .forwardedRead agent line => Sys2Proof.Machine.execForwardedRead agent line s
  | .goneResponse agent line seq => Sys2Proof.Machine.execGoneResponse agent line seq s
  | .llcEviction line => Sys2Proof.Machine.execLlcEviction line s
  | .guestCopyEviction die line => Sys2Proof.Machine.execGuestCopyEviction die line s
  | .shootdownRequest die seq agent => Sys2Proof.Machine.execShootdownRequest die seq agent s
  | .shootdownComplete die seq => Sys2Proof.Machine.execShootdownComplete die seq s
  | .parcelMigrationStart die => Sys2Proof.Machine.execParcelMigrationStart die s
  | .parcelMigrationComplete die parcel => Sys2Proof.Machine.execParcelMigrationComplete die parcel s
  | .pendingLogAppend pa op wd value => Sys2Proof.Machine.execPendingLogAppend pa op wd value s
  | .boothFill slice entry => Sys2Proof.Machine.execBoothFill slice entry s
  | .boothWaitAllocate slice => Sys2Proof.Machine.execBoothWaitAllocate slice s
  | .boothClaim u => Sys2Proof.Machine.execBoothClaim u s
  | .ticketDelivery u => Sys2Proof.Machine.execTicketDelivery u s
  | .ticketWithdrawal u => Sys2Proof.Machine.execTicketWithdrawal u s
  | .ticketExpiry slice entry => Sys2Proof.Machine.execTicketExpiry slice entry s
  | .queueFillArrival u q slot gen value poison => Sys2Proof.Machine.execQueueFillArrival u q slot gen value poison s
  | .windowFill u idx line => Sys2Proof.Machine.execWindowFill u idx line s
  | .matrixPipeStep u => Sys2Proof.Machine.execMatrixPipeStep u s
  | .tileOpComplete u => Sys2Proof.Machine.execTileOpComplete u s
  | .tfetchSlotFill u q slot gen g n st src => Sys2Proof.Machine.execTfetchSlotFill u q slot gen g n st src s
  | .elementTrain u die st w elems => Sys2Proof.Machine.execElementTrain u die st w elems s
  | .trainAck u die st count => Sys2Proof.Machine.execTrainAck u die st count s
  | .reductionPerform r => Sys2Proof.Machine.execReductionPerform r s
  | .reductionDrainExpiry ctx => Sys2Proof.Machine.execReductionDrainExpiry ctx s
  | .commandStart die entry => Sys2Proof.Machine.execCommandStart die entry s
  | .engineElement die entry => Sys2Proof.Machine.execEngineElement die entry s
  | .rowComplete die entry => Sys2Proof.Machine.execRowComplete die entry s
  | .commandEnd die entry => Sys2Proof.Machine.execCommandEnd die entry s
  | .stageBlockAnnounce launch src dst => Sys2Proof.Machine.execStageBlockAnnounce launch src dst s
  | .stageBlockGrant launch src dst => Sys2Proof.Machine.execStageBlockGrant launch src dst s
  | .stageBlockPull launch src dst => Sys2Proof.Machine.execStageBlockPull launch src dst s
  | .gangStripGrant ctx die port => Sys2Proof.Machine.execGangStripGrant ctx die port s
  | .contextTeardown ctx => Sys2Proof.Machine.execContextTeardown ctx s
  | .launchRecordAccept q => Sys2Proof.Machine.execLaunchRecordAccept q s
  | .dispatch die => Sys2Proof.Machine.execDispatch die s
  | .starvationBoundExpiry die => Sys2Proof.Machine.execStarvationBoundExpiry die s
  | .launchCompletion launch => Sys2Proof.Machine.execLaunchCompletion launch s
  | .gangAnnounceReceive tag index => Sys2Proof.Machine.execGangAnnounceReceive tag index s
  | .gangTimeout launch => Sys2Proof.Machine.execGangTimeout launch s
  | .gangAbortReceive tag => Sys2Proof.Machine.execGangAbortReceive tag s
  | .traceSample core => Sys2Proof.Machine.execTraceSample core s
  | .replayHoldExpiry die => Sys2Proof.Machine.execReplayHoldExpiry die s
  | .powerOnBringUp => Sys2Proof.Machine.execPowerOnBringUp s
  | .doorbell v => Sys2Proof.Machine.execDoorbell v s
  | .quoteRequest nonce => Sys2Proof.Machine.execQuoteRequest nonce s
  | .quoteReady => Sys2Proof.Machine.execQuoteReady s
  | .evstatClear m => Sys2Proof.Machine.execEvstatClear m s
  | .hostMemoryAccess write pa size v => Sys2Proof.Machine.execHostMemoryAccess write pa size v s
  | .hostSnoop line => Sys2Proof.Machine.execHostSnoop line s
  | .hostLinkLoss link => Sys2Proof.Machine.execHostLinkLoss link s
  | .thermalThrottle tj => Sys2Proof.Machine.execThermalThrottle tj s
  | .thermalShutdown tj => Sys2Proof.Machine.execThermalShutdown tj s
  | .powerCapThrottle rate => Sys2Proof.Machine.execPowerCapThrottle rate s
  | .uncorrectedError kind a b c => Sys2Proof.Machine.execUncorrectedError kind a b c s
  | .unitFence kind num => Sys2Proof.Machine.execUnitFence kind num s
  | .dcword7Commit v => Sys2Proof.Machine.execDcword7Commit v s
  | .keyLoad => Sys2Proof.Machine.execKeyLoad s
  | .keyErase => Sys2Proof.Machine.execKeyErase s
  | .pwrcapWrite v => Sys2Proof.Machine.execPwrcapWrite v s
  | .rplmodeWrite v => Sys2Proof.Machine.execRplmodeWrite v s
  | .registerWrite u n v => Sys2Proof.Machine.execRegisterWrite u n v s
  | .correctedError site => Sys2Proof.Machine.execCorrectedError site s
  | .powerLoss => Sys2Proof.Machine.execPowerLoss s
  | .contextCreation c => Sys2Proof.Machine.execContextCreation c s
  | .naingParcelMigrationRequest ctx va tier => Sys2Proof.Machine.execNaingParcelMigrationRequest ctx va tier s
  | .reserveFrameSupply die frame => Sys2Proof.Machine.execReserveFrameSupply die frame s
  | .counterTableEntryFree die count => Sys2Proof.Machine.execCounterTableEntryFree die count s
  | .resumptionMark u => Sys2Proof.Machine.execResumptionMark u s
  | .naingLaunchEnd launch => Sys2Proof.Machine.execNaingLaunchEnd launch s
  | .add d a b t sy => Sys2Proof.Machine.execAdd d a b t sy s
  | .sub d a b t sy => Sys2Proof.Machine.execSub d a b t sy s
  | .mul d a b t sy => Sys2Proof.Machine.execMul d a b t sy s
  | .mulh d a b t sy => Sys2Proof.Machine.execMulh d a b t sy s
  | .mulhn d a b t sy => Sys2Proof.Machine.execMulhn d a b t sy s
  | .div d a b t sy => Sys2Proof.Machine.execDiv d a b t sy s
  | .divn d a b t sy => Sys2Proof.Machine.execDivn d a b t sy s
  | .rem d a b t sy => Sys2Proof.Machine.execRem d a b t sy s
  | .remn d a b t sy => Sys2Proof.Machine.execRemn d a b t sy s
  | .and d a b t sy => Sys2Proof.Machine.execAnd d a b t sy s
  | .or d a b t sy => Sys2Proof.Machine.execOr d a b t sy s
  | .xor d a b t sy => Sys2Proof.Machine.execXor d a b t sy s
  | .andn d a b t sy => Sys2Proof.Machine.execAndn d a b t sy s
  | .sll d a b t sy => Sys2Proof.Machine.execSll d a b t sy s
  | .srl d a b t sy => Sys2Proof.Machine.execSrl d a b t sy s
  | .sra d a b t sy => Sys2Proof.Machine.execSra d a b t sy s
  | .slli d a h t sy => Sys2Proof.Machine.execSlli d a h t sy s
  | .srli d a h t sy => Sys2Proof.Machine.execSrli d a h t sy s
  | .srai d a h t sy => Sys2Proof.Machine.execSrai d a h t sy s
  | .min d a b t sy => Sys2Proof.Machine.execMin d a b t sy s
  | .max d a b t sy => Sys2Proof.Machine.execMax d a b t sy s
  | .minn d a b t sy => Sys2Proof.Machine.execMinn d a b t sy s
  | .maxn d a b t sy => Sys2Proof.Machine.execMaxn d a b t sy s
  | .slt d a b t sy => Sys2Proof.Machine.execSlt d a b t sy s
  | .sltn d a b t sy => Sys2Proof.Machine.execSltn d a b t sy s
  | .seq d a b t sy => Sys2Proof.Machine.execSeq d a b t sy s
  | .clz d a t sy => Sys2Proof.Machine.execClz d a t sy s
  | .ctz d a t sy => Sys2Proof.Machine.execCtz d a t sy s
  | .popc d a t sy => Sys2Proof.Machine.execPopc d a t sy s
  | .rotr d a b t sy => Sys2Proof.Machine.execRotr d a b t sy s
  | .brev d a t sy => Sys2Proof.Machine.execBrev d a t sy s
  | .bswap d a t sy => Sys2Proof.Machine.execBswap d a t sy s
  | .addi d a im => Sys2Proof.Machine.execAddi d a im s
  | .andi d a im => Sys2Proof.Machine.execAndi d a im s
  | .ori d a im => Sys2Proof.Machine.execOri d a im s
  | .xori d a im => Sys2Proof.Machine.execXori d a im s
  | .slti d a im => Sys2Proof.Machine.execSlti d a im s
  | .sltni d a im => Sys2Proof.Machine.execSltni d a im s
  | .lui d im => Sys2Proof.Machine.execLui d im s
  | .auipc d im => Sys2Proof.Machine.execAuipc d im s
  | .jal d im => Sys2Proof.Machine.execJal d im s
  | .jalr d a im => Sys2Proof.Machine.execJalr d a im s
  | .beq a b o => Sys2Proof.Machine.execBeq a b o s
  | .bne a b o => Sys2Proof.Machine.execBne a b o s
  | .blt a b o => Sys2Proof.Machine.execBlt a b o s
  | .bge a b o => Sys2Proof.Machine.execBge a b o s
  | .bltn a b o => Sys2Proof.Machine.execBltn a b o s
  | .bgen a b o => Sys2Proof.Machine.execBgen a b o s
  | .bqt a o => Sys2Proof.Machine.execBqt a o s
  | .bqf a o => Sys2Proof.Machine.execBqf a o s
  | .ld d b o w sy r c => Sys2Proof.Machine.execLd d b o w sy r c s
  | .ldz d b o w sy r c => Sys2Proof.Machine.execLdz d b o w sy r c s
  | .st d b o w sy r c => Sys2Proof.Machine.execSt d b o w sy r c s
  | .fadd d a b t sy => Sys2Proof.Machine.execFadd d a b t sy s
  | .fsub d a b t sy => Sys2Proof.Machine.execFsub d a b t sy s
  | .fmul d a b t sy => Sys2Proof.Machine.execFmul d a b t sy s
  | .fmac d a b t sy => Sys2Proof.Machine.execFmac d a b t sy s
  | .fnmac d a b t sy => Sys2Proof.Machine.execFnmac d a b t sy s
  | .fdiv d a b t sy => Sys2Proof.Machine.execFdiv d a b t sy s
  | .fsqrt d a t sy => Sys2Proof.Machine.execFsqrt d a t sy s
  | .fmin d a b t sy => Sys2Proof.Machine.execFmin d a b t sy s
  | .fmax d a b t sy => Sys2Proof.Machine.execFmax d a b t sy s
  | .feq d a b t sy => Sys2Proof.Machine.execFeq d a b t sy s
  | .flt d a b t sy => Sys2Proof.Machine.execFlt d a b t sy s
  | .fle d a b t sy => Sys2Proof.Machine.execFle d a b t sy s
  | .fclass d a t sy => Sys2Proof.Machine.execFclass d a t sy s
  | .fcvti d a m f t sy => Sys2Proof.Machine.execFcvti d a m f t sy s
  | .fcvtf d a m f t sy => Sys2Proof.Machine.execFcvtf d a m f t sy s
  | .fcvtw d a m f t sy => Sys2Proof.Machine.execFcvtw d a m f t sy s
  | .fscpy d a b t sy => Sys2Proof.Machine.execFscpy d a b t sy s
  | .fsneg d a b t sy => Sys2Proof.Machine.execFsneg d a b t sy s
  | .fsxor d a b t sy => Sys2Proof.Machine.execFsxor d a b t sy s
  | .csrrw d a c => Sys2Proof.Machine.execCsrrw d a c s
  | .csrrs d a c => Sys2Proof.Machine.execCsrrs d a c s
  | .csrrc d a c => Sys2Proof.Machine.execCsrrc d a c s
  | .csrr d c => Sys2Proof.Machine.execCsrr d c s
  | .exit => Sys2Proof.Machine.execExit s
  | .yield => Sys2Proof.Machine.execYield s
  | .forkl d a => Sys2Proof.Machine.execForkl d a s
  | .joinl d a => Sys2Proof.Machine.execJoinl d a s
  | .loop a n => Sys2Proof.Machine.execLoop a n s
  | .endloop n => Sys2Proof.Machine.execEndloop n s
  | .lidx d sy => Sys2Proof.Machine.execLidx d sy s
  | .sidx a n => Sys2Proof.Machine.execSidx a n s
  | .hint c => Sys2Proof.Machine.execHint c s
  | .migr d a => Sys2Proof.Machine.execMigr d a s
  | .qcfg d a => Sys2Proof.Machine.execQcfg d a s
  | .qadv a b => Sys2Proof.Machine.execQadv a b s
  | .qcommit a => Sys2Proof.Machine.execQcommit a s
  | .qfill d a => Sys2Proof.Machine.execQfill d a s
  | .qfree d a => Sys2Proof.Machine.execQfree d a s
  | .qreset a => Sys2Proof.Machine.execQreset a s
  | .qdrain a => Sys2Proof.Machine.execQdrain a s
  | .xput d a => Sys2Proof.Machine.execXput d a s
  | .fset d => Sys2Proof.Machine.execFset d s
  | .fclr d => Sys2Proof.Machine.execFclr d s
  | .ftest d a => Sys2Proof.Machine.execFtest d a s
  | .vadd d a b t x => Sys2Proof.Machine.execVadd d a b t x s
  | .vsub d a b t x => Sys2Proof.Machine.execVsub d a b t x s
  | .vmul d a b t x => Sys2Proof.Machine.execVmul d a b t x s
  | .vmulh d a b t x => Sys2Proof.Machine.execVmulh d a b t x s
  | .vmac d a b t x => Sys2Proof.Machine.execVmac d a b t x s
  | .vdiv d a b t x => Sys2Proof.Machine.execVdiv d a b t x s
  | .vdivn d a b t x => Sys2Proof.Machine.execVdivn d a b t x s
  | .vrem d a b t x => Sys2Proof.Machine.execVrem d a b t x s
  | .vmin d a b t x => Sys2Proof.Machine.execVmin d a b t x s
  | .vmax d a b t x => Sys2Proof.Machine.execVmax d a b t x s
  | .vminn d a b t x => Sys2Proof.Machine.execVminn d a b t x s
  | .vmaxn d a b t x => Sys2Proof.Machine.execVmaxn d a b t x s
  | .vand d a b t x => Sys2Proof.Machine.execVand d a b t x s
  | .vor d a b t x => Sys2Proof.Machine.execVor d a b t x s
  | .vxor d a b t x => Sys2Proof.Machine.execVxor d a b t x s
  | .vsll d a b t x => Sys2Proof.Machine.execVsll d a b t x s
  | .vsrl d a b t x => Sys2Proof.Machine.execVsrl d a b t x s
  | .vsra d a b t x => Sys2Proof.Machine.execVsra d a b t x s
  | .vsadd d a b t x => Sys2Proof.Machine.execVsadd d a b t x s
  | .vssub d a b t x => Sys2Proof.Machine.execVssub d a b t x s
  | .vabs d a t => Sys2Proof.Machine.execVabs d a t s
  | .vneg d a t => Sys2Proof.Machine.execVneg d a t s
  | .vredsum d a b t => Sys2Proof.Machine.execVredsum d a b t s
  | .vredmin d a b t => Sys2Proof.Machine.execVredmin d a b t s
  | .vredmax d a b t => Sys2Proof.Machine.execVredmax d a b t s
  | .vfadd d a b t x => Sys2Proof.Machine.execVfadd d a b t x s
  | .vfsub d a b t x => Sys2Proof.Machine.execVfsub d a b t x s
  | .vfmul d a b t x => Sys2Proof.Machine.execVfmul d a b t x s
  | .vfma d a b t x => Sys2Proof.Machine.execVfma d a b t x s
  | .vfnma d a b t x => Sys2Proof.Machine.execVfnma d a b t x s
  | .vfdiv d a b t x => Sys2Proof.Machine.execVfdiv d a b t x s
  | .vfsqrt d a t => Sys2Proof.Machine.execVfsqrt d a t s
  | .vfexp2 d a => Sys2Proof.Machine.execVfexp2 d a s
  | .vflog2 d a => Sys2Proof.Machine.execVflog2 d a s
  | .vfmin d a b t x => Sys2Proof.Machine.execVfmin d a b t x s
  | .vfmax d a b t x => Sys2Proof.Machine.execVfmax d a b t x s
  | .vfabs d a t => Sys2Proof.Machine.execVfabs d a t s
  | .vfneg d a t => Sys2Proof.Machine.execVfneg d a t s
  | .vfcvt d a e f => Sys2Proof.Machine.execVfcvt d a e f s
  | .vfredo d a b t => Sys2Proof.Machine.execVfredo d a b t s
  | .vfredt d a b t => Sys2Proof.Machine.execVfredt d a b t s
  | .vfredmax d a b t => Sys2Proof.Machine.execVfredmax d a b t s
  | .vfredmin d a b t => Sys2Proof.Machine.execVfredmin d a b t s
  | .vfscale d a b t x => Sys2Proof.Machine.execVfscale d a b t x s
  | .vceq d a b t x => Sys2Proof.Machine.execVceq d a b t x s
  | .vcne d a b t x => Sys2Proof.Machine.execVcne d a b t x s
  | .vclt d a b t x => Sys2Proof.Machine.execVclt d a b t x s
  | .vcle d a b t x => Sys2Proof.Machine.execVcle d a b t x s
  | .vcltn d a b t x => Sys2Proof.Machine.execVcltn d a b t x s
  | .vclen d a b t x => Sys2Proof.Machine.execVclen d a b t x s
  | .vfceq d a b t x => Sys2Proof.Machine.execVfceq d a b t x s
  | .vfclt d a b t x => Sys2Proof.Machine.execVfclt d a b t x s
  | .vfcle d a b t x => Sys2Proof.Machine.execVfcle d a b t x s
  | .vfcun d a b t x => Sys2Proof.Machine.execVfcun d a b t x s
  | .pand d a b => Sys2Proof.Machine.execPand d a b s
  | .por d a b => Sys2Proof.Machine.execPor d a b s
  | .pxor d a b => Sys2Proof.Machine.execPxor d a b s
  | .pandn d a b => Sys2Proof.Machine.execPandn d a b s
  | .pnot d a => Sys2Proof.Machine.execPnot d a s
  | .psbf d a => Sys2Proof.Machine.execPsbf d a s
  | .psif d a => Sys2Proof.Machine.execPsif d a s
  | .psof d a => Sys2Proof.Machine.execPsof d a s
  | .pcnt d a => Sys2Proof.Machine.execPcnt d a s
  | .pfirst d a => Sys2Proof.Machine.execPfirst d a s
  | .pset d => Sys2Proof.Machine.execPset d s
  | .pclr d => Sys2Proof.Machine.execPclr d s
  | .pfromx d a k => Sys2Proof.Machine.execPfromx d a k s
  | .ptox d a k => Sys2Proof.Machine.execPtox d a k s
  | .vcompress d a t => Sys2Proof.Machine.execVcompress d a t s
  | .vexpand d a t => Sys2Proof.Machine.execVexpand d a t s
  | .vslideup d a b t x => Sys2Proof.Machine.execVslideup d a b t x s
  | .vslidedn d a b t x => Sys2Proof.Machine.execVslidedn d a b t x s
  | .vpermx d a b t => Sys2Proof.Machine.execVpermx d a b t s
  | .vbcast d a k t => Sys2Proof.Machine.execVbcast d a k t s
  | .vextx d a b t => Sys2Proof.Machine.execVextx d a b t s
  | .vinsx d a b t => Sys2Proof.Machine.execVinsx d a b t s
  | .viota d a b t => Sys2Proof.Machine.execViota d a b t s
  | .vmov d a t => Sys2Proof.Machine.execVmov d a t s
  | .vzip d a b t => Sys2Proof.Machine.execVzip d a b t s
  | .vunzip d a b t => Sys2Proof.Machine.execVunzip d a b t s
  | .vld d b w sy h => Sys2Proof.Machine.execVld d b w sy h s
  | .vlds d b w sy h => Sys2Proof.Machine.execVlds d b w sy h s
  | .vldx d b im w sy h => Sys2Proof.Machine.execVldx d b im w sy h s
  | .vldff d b w sy h => Sys2Proof.Machine.execVldff d b w sy h s
  | .vldb d b w sy h => Sys2Proof.Machine.execVldb d b w sy h s
  | .vst d b w sy h => Sys2Proof.Machine.execVst d b w sy h s
  | .vsts d b w sy h => Sys2Proof.Machine.execVsts d b w sy h s
  | .vstx d b im w sy h => Sys2Proof.Machine.execVstx d b im w sy h s
  | .vstxr d b im w sy h => Sys2Proof.Machine.execVstxr d b im w sy h s
  | .setvl d a t => Sys2Proof.Machine.execSetvl d a t s
  | .setvli d im t => Sys2Proof.Machine.execSetvli d im t s
  | .setms a m => Sys2Proof.Machine.execSetms a m s
  | .setst a => Sys2Proof.Machine.execSetst a s
  | .scput d a t => Sys2Proof.Machine.execScput d a t s
  | .sctake d t => Sys2Proof.Machine.execSctake d t s
  | .scflush d => Sys2Proof.Machine.execScflush d s
  | .scstat d => Sys2Proof.Machine.execScstat d s
  | .ten d c b => Sys2Proof.Machine.execTen d c b s
  | .tdis c => Sys2Proof.Machine.execTdis c s
  | .tzero c => Sys2Proof.Machine.execTzero c s
  | .tpred d c b => Sys2Proof.Machine.execTpred d c b s
  | .tmovr d c b => Sys2Proof.Machine.execTmovr d c b s
  | .tmovc d c b => Sys2Proof.Machine.execTmovc d c b s
  | .tsetr c a b => Sys2Proof.Machine.execTsetr c a b s
  | .tsetc c a b => Sys2Proof.Machine.execTsetc c a b s
  | .tfold c e => Sys2Proof.Machine.execTfold c e s
  | .tdrain d c b t => Sys2Proof.Machine.execTdrain d c b t s
  | .tfetch d a b => Sys2Proof.Machine.execTfetch d a b s
  | .tscl c a => Sys2Proof.Machine.execTscl c a s
  | .tstat d c sy => Sys2Proof.Machine.execTstat d c sy s
  | .top t a b r y n z => Sys2Proof.Machine.execTop t a b r y n z s
  | .tops t a b r y n z => Sys2Proof.Machine.execTops t a b r y n z s
  | .topl t b r y n z => Sys2Proof.Machine.execTopl t b r y n z s
  | .wmap d a b => Sys2Proof.Machine.execWmap d a b s
  | .wunmap v n => Sys2Proof.Machine.execWunmap v n s
  | .wflush a n => Sys2Proof.Machine.execWflush a n s
  | .winv a v n => Sys2Proof.Machine.execWinv a v n s
  | .wstat d v n => Sys2Proof.Machine.execWstat d v n s
  | .wtouch a n => Sys2Proof.Machine.execWtouch a n s
  | .wkeep v n => Sys2Proof.Machine.execWkeep v n s
  | .tkld d a sy t z => Sys2Proof.Machine.execTkld d a sy t z s
  | .tkldw d a sy t z => Sys2Proof.Machine.execTkldw d a sy t z s
  | .tkldv d a sy => Sys2Proof.Machine.execTkldv d a sy s
  | .tkrd d a => Sys2Proof.Machine.execTkrd d a s
  | .tkrdv d a => Sys2Proof.Machine.execTkrdv d a s
  | .tkrdq d a => Sys2Proof.Machine.execTkrdq d a s
  | .tktest d a => Sys2Proof.Machine.execTktest d a s
  | .tkdrop d a => Sys2Proof.Machine.execTkdrop d a s
  | .pqry d a => Sys2Proof.Machine.execPqry d a s
  | .phint a c => Sys2Proof.Machine.execPhint a c s
  | .plogq d a => Sys2Proof.Machine.execPlogq d a s
  | .pfetch d a => Sys2Proof.Machine.execPfetch d a s
  | .pmigr d a b => Sys2Proof.Machine.execPmigr d a b s
  | .pnqpop d => Sys2Proof.Machine.execPnqpop d s
  | .pkeep d a b => Sys2Proof.Machine.execPkeep d a b s
  | .atmAdd d a b o c => Sys2Proof.Machine.execAtmAdd d a b o c s
  | .atmMin d a b o c => Sys2Proof.Machine.execAtmMin d a b o c s
  | .atmMax d a b o c => Sys2Proof.Machine.execAtmMax d a b o c s
  | .atmMinn d a b o c => Sys2Proof.Machine.execAtmMinn d a b o c s
  | .atmMaxn d a b o c => Sys2Proof.Machine.execAtmMaxn d a b o c s
  | .atmAnd d a b o c => Sys2Proof.Machine.execAtmAnd d a b o c s
  | .atmOr d a b o c => Sys2Proof.Machine.execAtmOr d a b o c s
  | .atmXor d a b o c => Sys2Proof.Machine.execAtmXor d a b o c s
  | .atmSwp d a b o c => Sys2Proof.Machine.execAtmSwp d a b o c s
  | .atmFadd d a b o c => Sys2Proof.Machine.execAtmFadd d a b o c s
  | .atmFaddh d a b o c => Sys2Proof.Machine.execAtmFaddh d a b o c s
  | .atmCas d a b o c => Sys2Proof.Machine.execAtmCas d a b o c s
  | .redAdd32 a b o c => Sys2Proof.Machine.execRedAdd32 a b o c s
  | .redMin32 a b o c => Sys2Proof.Machine.execRedMin32 a b o c s
  | .redMax32 a b o c => Sys2Proof.Machine.execRedMax32 a b o c s
  | .redMinn32 a b o c => Sys2Proof.Machine.execRedMinn32 a b o c s
  | .redMaxn32 a b o c => Sys2Proof.Machine.execRedMaxn32 a b o c s
  | .redAnd32 a b o c => Sys2Proof.Machine.execRedAnd32 a b o c s
  | .redOr32 a b o c => Sys2Proof.Machine.execRedOr32 a b o c s
  | .redXor32 a b o c => Sys2Proof.Machine.execRedXor32 a b o c s
  | .redFadd32 a b o c => Sys2Proof.Machine.execRedFadd32 a b o c s
  | .redFaddh32 a b o c => Sys2Proof.Machine.execRedFaddh32 a b o c s
  | .atmdAdd d a b o c => Sys2Proof.Machine.execAtmdAdd d a b o c s
  | .atmdMin d a b o c => Sys2Proof.Machine.execAtmdMin d a b o c s
  | .atmdMax d a b o c => Sys2Proof.Machine.execAtmdMax d a b o c s
  | .atmdMinn d a b o c => Sys2Proof.Machine.execAtmdMinn d a b o c s
  | .atmdMaxn d a b o c => Sys2Proof.Machine.execAtmdMaxn d a b o c s
  | .atmdAnd d a b o c => Sys2Proof.Machine.execAtmdAnd d a b o c s
  | .atmdOr d a b o c => Sys2Proof.Machine.execAtmdOr d a b o c s
  | .atmdXor d a b o c => Sys2Proof.Machine.execAtmdXor d a b o c s
  | .atmdSwp d a b o c => Sys2Proof.Machine.execAtmdSwp d a b o c s
  | .atmdFadd d a b o c => Sys2Proof.Machine.execAtmdFadd d a b o c s
  | .atmdCas d a b o c => Sys2Proof.Machine.execAtmdCas d a b o c s
  | .redAdd64 a b o c => Sys2Proof.Machine.execRedAdd64 a b o c s
  | .redMin64 a b o c => Sys2Proof.Machine.execRedMin64 a b o c s
  | .redMax64 a b o c => Sys2Proof.Machine.execRedMax64 a b o c s
  | .redMinn64 a b o c => Sys2Proof.Machine.execRedMinn64 a b o c s
  | .redMaxn64 a b o c => Sys2Proof.Machine.execRedMaxn64 a b o c s
  | .redAnd64 a b o c => Sys2Proof.Machine.execRedAnd64 a b o c s
  | .redOr64 a b o c => Sys2Proof.Machine.execRedOr64 a b o c s
  | .redXor64 a b o c => Sys2Proof.Machine.execRedXor64 a b o c s
  | .redFadd64 a b o c => Sys2Proof.Machine.execRedFadd64 a b o c s
  | .sbar m p k => Sys2Proof.Machine.execSbar m p k s
  | .bari a b sy => Sys2Proof.Machine.execBari a b sy s
  | .barv d a sy => Sys2Proof.Machine.execBarv d a sy s
  | .barw a b sy => Sys2Proof.Machine.execBarw a b sy s
  | .barwt d a b sy => Sys2Proof.Machine.execBarwt d a b sy s
  | .waitv d a b sy => Sys2Proof.Machine.execWaitv d a b sy s
  | .accdecl k a b t => Sys2Proof.Machine.execAccdecl k a b t s
  | .vacc k a b => Sys2Proof.Machine.execVacc k a b s
  | .accmerge d k => Sys2Proof.Machine.execAccmerge d k s
  | .accrel k => Sys2Proof.Machine.execAccrel k s
  | .estr d a => Sys2Proof.Machine.execEstr d a s
  | .epush a b => Sys2Proof.Machine.execEpush a b s
  | .epop d a => Sys2Proof.Machine.execEpop d a s
  | .ewm d a => Sys2Proof.Machine.execEwm d a s
  | .ewait a b => Sys2Proof.Machine.execEwait a b s
  | .echan d a b => Sys2Proof.Machine.execEchan d a b s
  | .egang d a b => Sys2Proof.Machine.execEgang d a b s
  | .ecancel d a => Sys2Proof.Machine.execEcancel d a s
  | .estat d a => Sys2Proof.Machine.execEstat d a s
  | .uien d a => Sys2Proof.Machine.execUien d a s
  | .uiret => Sys2Proof.Machine.execUiret s
  | .svc c => Sys2Proof.Machine.execSvc c s
  | .brk c => Sys2Proof.Machine.execBrk c s
  | .rett => Sys2Proof.Machine.execRett s
  | .wfi d => Sys2Proof.Machine.execWfi d s
  | .tlbinv d a b => Sys2Proof.Machine.execTlbinv d a b s
  | .ctxsv d a => Sys2Proof.Machine.execCtxsv d a s
  | .ctxld d a b => Sys2Proof.Machine.execCtxld d a b s
  | .lnpurge d a => Sys2Proof.Machine.execLnpurge d a s
  | .tmark a c => Sys2Proof.Machine.execTmark a c s
  | .tcnt d sy => Sys2Proof.Machine.execTcnt d sy s

end Sys2Proof.Machine
end

