-- ==== Sys2Proof/Machine/Run.lean ====
section
/-! DEFINITION. Running a word: decode, then exec; and the same in a form that builds no instruction, which the compiler
uses (the tags of compiled objects end at 244, below the number of rows). The two are proved equal. -/

namespace Sys2Proof.Machine

/-- A word that is not an instruction takes the illegal-instruction trap (R45, R47). -/
def illegal (w : InstrWord) (e : Illegal) (s : State) : Out :=
  .next (takeTrap s s.cur ⟨1, e.sub, w.setWidth 64⟩ false false)

/-- Run a word on the executing strand: the decoded instruction, or the illegal-instruction trap. -/
noncomputable def runWord (w : InstrWord) (s : State) : Out :=
  match decode w with
  | .ok i => exec i s
  | .error e => illegal w e s

/-- What a decoding result does (DEDUCED, log entry 33) (DEDUCED, log entry 34). -/
noncomputable abbrev fate (w : InstrWord) (s : State) (r : Except Illegal Instr) : Out :=
  match r with
  | .ok i => exec i s
  | .error e => illegal w e s

/-- The compiled form of a row. -/
def rowRun (w : InstrWord) (s : State) (ty ok : Bool) (f : State → Out) : Out :=
  if ty = false then illegal w .badType s else if ok = false then illegal w .reservedField s else f s

theorem row_run (w : InstrWord) (s : State) (ty r : Bool) (i : Instr) :
    fate w s (row ty r i) = rowRun w s ty (r && i.wf) (exec i) := by
  unfold row rowRun
  cases ty <;> cases h : (r && i.wf) <;> simp

/-- The compiled form of an FM row. -/
def fmRun (w : InstrWord) (s : State) (ok : Bool) (f : State → Out) : Out :=
  if ok = false then illegal w .badOrdering s else f s

theorem fm_run (w : InstrWord) (s : State) (i : Instr) : fate w s (rowFm i) = fmRun w s i.wf (exec i) := by
  unfold rowFm fmRun
  cases h : i.wf <;> simp

/-- The compiled form of an FX row. -/
def fxRun (w : InstrWord) (s : State) (ok r : Bool) (f : State → Out) : Out :=
  if ok = false then illegal w .badType s else if r = false then illegal w .reservedField s else f s

theorem fx_run (w : InstrWord) (s : State) (r : Bool) (i : Instr) :
    fate w s (rowFx r i) = fxRun w s i.wf r (exec i) := by
  unfold rowFx fxRun
  cases h : i.wf <;> cases r <;> simp

/-- The compiled form of the two readings of an FA word (R40). -/
def faRun (z : Bool) (s : State) (f g : State → Out) : Out := if z then f s else g s

theorem fa_run (w : InstrWord) (s : State) (z : Bool) (i j : Instr) :
    fate w s (if z then .ok i else .ok j) = faRun z s (exec i) (exec j) := by
  cases z <;> rfl

/-- Major 0x01, compiled. -/
def runAlu (w : InstrWord) (s : State) : Out :=
  match (frFn w).toNat with
  | 0 => rowRun w s (w.extractLsb' 2 1 == 0#1) (true && true) (execAdd (w.extractLsb' 20 6) (w.extractLsb' 14 6) (w.extractLsb' 8 6) (w.extractLsb' 1 1) (w.extractLsb' 0 1))
  | 1 => rowRun w s (w.extractLsb' 2 1 == 0#1) (true && true) (execSub (w.extractLsb' 20 6) (w.extractLsb' 14 6) (w.extractLsb' 8 6) (w.extractLsb' 1 1) (w.extractLsb' 0 1))
  | 2 => rowRun w s (w.extractLsb' 2 1 == 0#1) (true && true) (execMul (w.extractLsb' 20 6) (w.extractLsb' 14 6) (w.extractLsb' 8 6) (w.extractLsb' 1 1) (w.extractLsb' 0 1))
  | 3 => rowRun w s (w.extractLsb' 2 1 == 0#1) (true && true) (execMulh (w.extractLsb' 20 6) (w.extractLsb' 14 6) (w.extractLsb' 8 6) (w.extractLsb' 1 1) (w.extractLsb' 0 1))
  | 4 => rowRun w s (w.extractLsb' 2 1 == 0#1) (true && true) (execMulhn (w.extractLsb' 20 6) (w.extractLsb' 14 6) (w.extractLsb' 8 6) (w.extractLsb' 1 1) (w.extractLsb' 0 1))
  | 5 => rowRun w s (w.extractLsb' 2 1 == 0#1) (true && true) (execDiv (w.extractLsb' 20 6) (w.extractLsb' 14 6) (w.extractLsb' 8 6) (w.extractLsb' 1 1) (w.extractLsb' 0 1))
  | 6 => rowRun w s (w.extractLsb' 2 1 == 0#1) (true && true) (execDivn (w.extractLsb' 20 6) (w.extractLsb' 14 6) (w.extractLsb' 8 6) (w.extractLsb' 1 1) (w.extractLsb' 0 1))
  | 7 => rowRun w s (w.extractLsb' 2 1 == 0#1) (true && true) (execRem (w.extractLsb' 20 6) (w.extractLsb' 14 6) (w.extractLsb' 8 6) (w.extractLsb' 1 1) (w.extractLsb' 0 1))
  | 8 => rowRun w s (w.extractLsb' 2 1 == 0#1) (true && true) (execRemn (w.extractLsb' 20 6) (w.extractLsb' 14 6) (w.extractLsb' 8 6) (w.extractLsb' 1 1) (w.extractLsb' 0 1))
  | 9 => rowRun w s (w.extractLsb' 2 1 == 0#1) (true && true) (execAnd (w.extractLsb' 20 6) (w.extractLsb' 14 6) (w.extractLsb' 8 6) (w.extractLsb' 1 1) (w.extractLsb' 0 1))
  | 10 => rowRun w s (w.extractLsb' 2 1 == 0#1) (true && true) (execOr (w.extractLsb' 20 6) (w.extractLsb' 14 6) (w.extractLsb' 8 6) (w.extractLsb' 1 1) (w.extractLsb' 0 1))
  | 11 => rowRun w s (w.extractLsb' 2 1 == 0#1) (true && true) (execXor (w.extractLsb' 20 6) (w.extractLsb' 14 6) (w.extractLsb' 8 6) (w.extractLsb' 1 1) (w.extractLsb' 0 1))
  | 12 => rowRun w s (w.extractLsb' 2 1 == 0#1) (true && true) (execAndn (w.extractLsb' 20 6) (w.extractLsb' 14 6) (w.extractLsb' 8 6) (w.extractLsb' 1 1) (w.extractLsb' 0 1))
  | 13 => rowRun w s (w.extractLsb' 2 1 == 0#1) (true && true) (execSll (w.extractLsb' 20 6) (w.extractLsb' 14 6) (w.extractLsb' 8 6) (w.extractLsb' 1 1) (w.extractLsb' 0 1))
  | 14 => rowRun w s (w.extractLsb' 2 1 == 0#1) (true && true) (execSrl (w.extractLsb' 20 6) (w.extractLsb' 14 6) (w.extractLsb' 8 6) (w.extractLsb' 1 1) (w.extractLsb' 0 1))
  | 15 => rowRun w s (w.extractLsb' 2 1 == 0#1) (true && true) (execSra (w.extractLsb' 20 6) (w.extractLsb' 14 6) (w.extractLsb' 8 6) (w.extractLsb' 1 1) (w.extractLsb' 0 1))
  | 16 => rowRun w s (w.extractLsb' 2 1 == 0#1) (true && (!((w.extractLsb' 1 1) == 1 && (w.extractLsb' 8 6).getLsbD 5))) (execSlli (w.extractLsb' 20 6) (w.extractLsb' 14 6) (w.extractLsb' 8 6) (w.extractLsb' 1 1) (w.extractLsb' 0 1))
  | 17 => rowRun w s (w.extractLsb' 2 1 == 0#1) (true && (!((w.extractLsb' 1 1) == 1 && (w.extractLsb' 8 6).getLsbD 5))) (execSrli (w.extractLsb' 20 6) (w.extractLsb' 14 6) (w.extractLsb' 8 6) (w.extractLsb' 1 1) (w.extractLsb' 0 1))
  | 18 => rowRun w s (w.extractLsb' 2 1 == 0#1) (true && (!((w.extractLsb' 1 1) == 1 && (w.extractLsb' 8 6).getLsbD 5))) (execSrai (w.extractLsb' 20 6) (w.extractLsb' 14 6) (w.extractLsb' 8 6) (w.extractLsb' 1 1) (w.extractLsb' 0 1))
  | 19 => rowRun w s (w.extractLsb' 2 1 == 0#1) (true && true) (execMin (w.extractLsb' 20 6) (w.extractLsb' 14 6) (w.extractLsb' 8 6) (w.extractLsb' 1 1) (w.extractLsb' 0 1))
  | 20 => rowRun w s (w.extractLsb' 2 1 == 0#1) (true && true) (execMax (w.extractLsb' 20 6) (w.extractLsb' 14 6) (w.extractLsb' 8 6) (w.extractLsb' 1 1) (w.extractLsb' 0 1))
  | 21 => rowRun w s (w.extractLsb' 2 1 == 0#1) (true && true) (execMinn (w.extractLsb' 20 6) (w.extractLsb' 14 6) (w.extractLsb' 8 6) (w.extractLsb' 1 1) (w.extractLsb' 0 1))
  | 22 => rowRun w s (w.extractLsb' 2 1 == 0#1) (true && true) (execMaxn (w.extractLsb' 20 6) (w.extractLsb' 14 6) (w.extractLsb' 8 6) (w.extractLsb' 1 1) (w.extractLsb' 0 1))
  | 23 => rowRun w s (w.extractLsb' 2 1 == 0#1) (true && true) (execSlt (w.extractLsb' 20 6) (w.extractLsb' 14 6) (w.extractLsb' 8 6) (w.extractLsb' 1 1) (w.extractLsb' 0 1))
  | 24 => rowRun w s (w.extractLsb' 2 1 == 0#1) (true && true) (execSltn (w.extractLsb' 20 6) (w.extractLsb' 14 6) (w.extractLsb' 8 6) (w.extractLsb' 1 1) (w.extractLsb' 0 1))
  | 25 => rowRun w s (w.extractLsb' 2 1 == 0#1) (true && true) (execSeq (w.extractLsb' 20 6) (w.extractLsb' 14 6) (w.extractLsb' 8 6) (w.extractLsb' 1 1) (w.extractLsb' 0 1))
  | 26 => rowRun w s (w.extractLsb' 2 1 == 0#1) ((w.extractLsb' 8 6 == 0#6) && true) (execClz (w.extractLsb' 20 6) (w.extractLsb' 14 6) (w.extractLsb' 1 1) (w.extractLsb' 0 1))
  | 27 => rowRun w s (w.extractLsb' 2 1 == 0#1) ((w.extractLsb' 8 6 == 0#6) && true) (execCtz (w.extractLsb' 20 6) (w.extractLsb' 14 6) (w.extractLsb' 1 1) (w.extractLsb' 0 1))
  | 28 => rowRun w s (w.extractLsb' 2 1 == 0#1) ((w.extractLsb' 8 6 == 0#6) && true) (execPopc (w.extractLsb' 20 6) (w.extractLsb' 14 6) (w.extractLsb' 1 1) (w.extractLsb' 0 1))
  | 29 => rowRun w s (w.extractLsb' 2 1 == 0#1) (true && true) (execRotr (w.extractLsb' 20 6) (w.extractLsb' 14 6) (w.extractLsb' 8 6) (w.extractLsb' 1 1) (w.extractLsb' 0 1))
  | 30 => rowRun w s (w.extractLsb' 2 1 == 0#1) ((w.extractLsb' 8 6 == 0#6) && true) (execBrev (w.extractLsb' 20 6) (w.extractLsb' 14 6) (w.extractLsb' 1 1) (w.extractLsb' 0 1))
  | 31 => rowRun w s (w.extractLsb' 2 1 == 0#1) ((w.extractLsb' 8 6 == 0#6) && true) (execBswap (w.extractLsb' 20 6) (w.extractLsb' 14 6) (w.extractLsb' 1 1) (w.extractLsb' 0 1))
  | _ => illegal w .unassignedFn s

theorem alu_run (w : InstrWord) (s : State) : fate w s (decodeAlu w) = runAlu w s := by
  unfold decodeAlu runAlu
  split <;> rename_i h <;> first
    | ((try simp only [h]); exact row_run w s _ _ _)
    | rfl
    | (split <;> first | rfl | (exfalso; simp_all))

/-- Major 0x0C, compiled. -/
def runBr (w : InstrWord) (s : State) : Out :=
  match (w.extractLsb' 11 3).toNat with
  | 0 => rowRun w s true (true && true) (execBeq (w.extractLsb' 20 6) (w.extractLsb' 14 6) (w.extractLsb' 0 11))
  | 1 => rowRun w s true (true && true) (execBne (w.extractLsb' 20 6) (w.extractLsb' 14 6) (w.extractLsb' 0 11))
  | 2 => rowRun w s true (true && true) (execBlt (w.extractLsb' 20 6) (w.extractLsb' 14 6) (w.extractLsb' 0 11))
  | 3 => rowRun w s true (true && true) (execBge (w.extractLsb' 20 6) (w.extractLsb' 14 6) (w.extractLsb' 0 11))
  | 4 => rowRun w s true (true && true) (execBltn (w.extractLsb' 20 6) (w.extractLsb' 14 6) (w.extractLsb' 0 11))
  | 5 => rowRun w s true (true && true) (execBgen (w.extractLsb' 20 6) (w.extractLsb' 14 6) (w.extractLsb' 0 11))
  | 6 => rowRun w s true ((w.extractLsb' 14 6 == 0#6) && true) (execBqt (w.extractLsb' 20 6) (w.extractLsb' 0 11))
  | 7 => rowRun w s true ((w.extractLsb' 14 6 == 0#6) && true) (execBqf (w.extractLsb' 20 6) (w.extractLsb' 0 11))
  | _ => illegal w .unassignedFn s

theorem br_run (w : InstrWord) (s : State) : fate w s (decodeBr w) = runBr w s := by
  unfold decodeBr runBr
  split <;> rename_i h <;> first
    | ((try simp only [h]); exact row_run w s _ _ _)
    | rfl
    | (split <;> first | rfl | (exfalso; simp_all))

/-- Major 0x10, compiled. -/
def runFps (w : InstrWord) (s : State) : Out :=
  match (frFn w).toNat with
  | 0 => rowRun w s true (true && true) (execFadd (w.extractLsb' 20 6) (w.extractLsb' 14 6) (w.extractLsb' 8 6) (w.extractLsb' 1 2) (w.extractLsb' 0 1))
  | 1 => rowRun w s true (true && true) (execFsub (w.extractLsb' 20 6) (w.extractLsb' 14 6) (w.extractLsb' 8 6) (w.extractLsb' 1 2) (w.extractLsb' 0 1))
  | 2 => rowRun w s true (true && true) (execFmul (w.extractLsb' 20 6) (w.extractLsb' 14 6) (w.extractLsb' 8 6) (w.extractLsb' 1 2) (w.extractLsb' 0 1))
  | 3 => rowRun w s true (true && true) (execFmac (w.extractLsb' 20 6) (w.extractLsb' 14 6) (w.extractLsb' 8 6) (w.extractLsb' 1 2) (w.extractLsb' 0 1))
  | 4 => rowRun w s true (true && true) (execFnmac (w.extractLsb' 20 6) (w.extractLsb' 14 6) (w.extractLsb' 8 6) (w.extractLsb' 1 2) (w.extractLsb' 0 1))
  | 5 => rowRun w s true (true && true) (execFdiv (w.extractLsb' 20 6) (w.extractLsb' 14 6) (w.extractLsb' 8 6) (w.extractLsb' 1 2) (w.extractLsb' 0 1))
  | 6 => rowRun w s true ((w.extractLsb' 8 6 == 0#6) && true) (execFsqrt (w.extractLsb' 20 6) (w.extractLsb' 14 6) (w.extractLsb' 1 2) (w.extractLsb' 0 1))
  | 7 => rowRun w s true (true && true) (execFmin (w.extractLsb' 20 6) (w.extractLsb' 14 6) (w.extractLsb' 8 6) (w.extractLsb' 1 2) (w.extractLsb' 0 1))
  | 8 => rowRun w s true (true && true) (execFmax (w.extractLsb' 20 6) (w.extractLsb' 14 6) (w.extractLsb' 8 6) (w.extractLsb' 1 2) (w.extractLsb' 0 1))
  | 9 => rowRun w s true (true && true) (execFeq (w.extractLsb' 20 6) (w.extractLsb' 14 6) (w.extractLsb' 8 6) (w.extractLsb' 1 2) (w.extractLsb' 0 1))
  | 10 => rowRun w s true (true && true) (execFlt (w.extractLsb' 20 6) (w.extractLsb' 14 6) (w.extractLsb' 8 6) (w.extractLsb' 1 2) (w.extractLsb' 0 1))
  | 11 => rowRun w s true (true && true) (execFle (w.extractLsb' 20 6) (w.extractLsb' 14 6) (w.extractLsb' 8 6) (w.extractLsb' 1 2) (w.extractLsb' 0 1))
  | 12 => rowRun w s true ((w.extractLsb' 8 6 == 0#6) && true) (execFclass (w.extractLsb' 20 6) (w.extractLsb' 14 6) (w.extractLsb' 1 2) (w.extractLsb' 0 1))
  | 13 => rowRun w s true (true && (decide ((w.extractLsb' 11 3).toNat ≤ 4))) (execFcvti (w.extractLsb' 20 6) (w.extractLsb' 14 6) (w.extractLsb' 11 3) (w.extractLsb' 8 3) (w.extractLsb' 1 2) (w.extractLsb' 0 1))
  | 14 => rowRun w s true (true && (decide ((w.extractLsb' 11 3).toNat ≤ 4))) (execFcvtf (w.extractLsb' 20 6) (w.extractLsb' 14 6) (w.extractLsb' 11 3) (w.extractLsb' 8 3) (w.extractLsb' 1 2) (w.extractLsb' 0 1))
  | 15 => rowRun w s true ((w.extractLsb' 10 1 == 0#1) && (decide ((w.extractLsb' 11 3).toNat ≤ 4))) (execFcvtw (w.extractLsb' 20 6) (w.extractLsb' 14 6) (w.extractLsb' 11 3) (w.extractLsb' 8 2) (w.extractLsb' 1 2) (w.extractLsb' 0 1))
  | 16 => rowRun w s true (true && true) (execFscpy (w.extractLsb' 20 6) (w.extractLsb' 14 6) (w.extractLsb' 8 6) (w.extractLsb' 1 2) (w.extractLsb' 0 1))
  | 17 => rowRun w s true (true && true) (execFsneg (w.extractLsb' 20 6) (w.extractLsb' 14 6) (w.extractLsb' 8 6) (w.extractLsb' 1 2) (w.extractLsb' 0 1))
  | 18 => rowRun w s true (true && true) (execFsxor (w.extractLsb' 20 6) (w.extractLsb' 14 6) (w.extractLsb' 8 6) (w.extractLsb' 1 2) (w.extractLsb' 0 1))
  | _ => illegal w .unassignedFn s

theorem fps_run (w : InstrWord) (s : State) : fate w s (decodeFps w) = runFps w s := by
  unfold decodeFps runFps
  split <;> rename_i h <;> first
    | ((try simp only [h]); exact row_run w s _ _ _)
    | rfl
    | (split <;> first | rfl | (exfalso; simp_all))

/-- Major 0x11, compiled. -/
def runCsr (w : InstrWord) (s : State) : Out :=
  match (w.extractLsb' 0 2).toNat with
  | 0 => rowRun w s true (true && true) (execCsrrw (w.extractLsb' 20 6) (w.extractLsb' 14 6) (w.extractLsb' 2 12))
  | 1 => rowRun w s true (true && true) (execCsrrs (w.extractLsb' 20 6) (w.extractLsb' 14 6) (w.extractLsb' 2 12))
  | 2 => rowRun w s true (true && true) (execCsrrc (w.extractLsb' 20 6) (w.extractLsb' 14 6) (w.extractLsb' 2 12))
  | 3 => rowRun w s true ((w.extractLsb' 14 6 == 0#6) && true) (execCsrr (w.extractLsb' 20 6) (w.extractLsb' 2 12))
  | _ => illegal w .unassignedFn s

theorem csr_run (w : InstrWord) (s : State) : fate w s (decodeCsr w) = runCsr w s := by
  unfold decodeCsr runCsr
  split <;> rename_i h <;> first
    | ((try simp only [h]); exact row_run w s _ _ _)
    | rfl
    | (split <;> first | rfl | (exfalso; simp_all))

/-- Major 0x12, compiled. -/
def runStr (w : InstrWord) (s : State) : Out :=
  match (frFn w).toNat with
  | 0 => rowRun w s (w.extractLsb' 1 2 == 0#2) ((w.extractLsb' 20 6 == 0#6 && w.extractLsb' 14 6 == 0#6 && w.extractLsb' 8 6 == 0#6 && w.extractLsb' 0 1 == 0#1) && true) execExit
  | 1 => rowRun w s (w.extractLsb' 1 2 == 0#2) ((w.extractLsb' 20 6 == 0#6 && w.extractLsb' 14 6 == 0#6 && w.extractLsb' 8 6 == 0#6 && w.extractLsb' 0 1 == 0#1) && true) execYield
  | 2 => rowRun w s (w.extractLsb' 1 2 == 0#2) ((w.extractLsb' 8 6 == 0#6 && w.extractLsb' 0 1 == 0#1) && true) (execForkl (w.extractLsb' 20 6) (w.extractLsb' 14 6))
  | 3 => rowRun w s (w.extractLsb' 1 2 == 0#2) ((w.extractLsb' 8 6 == 0#6 && w.extractLsb' 0 1 == 0#1) && true) (execJoinl (w.extractLsb' 20 6) (w.extractLsb' 14 6))
  | 4 => rowRun w s (w.extractLsb' 1 2 == 0#2) ((w.extractLsb' 20 6 == 0#6 && w.extractLsb' 10 4 == 0#4 && w.extractLsb' 0 1 == 0#1) && true) (execLoop (w.extractLsb' 14 6) (w.extractLsb' 8 2))
  | 5 => rowRun w s (w.extractLsb' 1 2 == 0#2) ((w.extractLsb' 20 6 == 0#6 && w.extractLsb' 14 6 == 0#6 && w.extractLsb' 10 4 == 0#4 && w.extractLsb' 0 1 == 0#1) && true) (execEndloop (w.extractLsb' 8 2))
  | 6 => rowRun w s (w.extractLsb' 1 2 == 0#2) ((w.extractLsb' 14 6 == 0#6 && w.extractLsb' 0 1 == 0#1) && (decide ((w.extractLsb' 8 6).toNat ≤ 11))) (execLidx (w.extractLsb' 20 6) (w.extractLsb' 8 6))
  | 7 => rowRun w s (w.extractLsb' 1 2 == 0#2) ((w.extractLsb' 20 6 == 0#6 && w.extractLsb' 10 4 == 0#4 && w.extractLsb' 0 1 == 0#1) && true) (execSidx (w.extractLsb' 14 6) (w.extractLsb' 8 2))
  | 8 => rowRun w s (w.extractLsb' 1 2 == 0#2) ((w.extractLsb' 20 6 == 0#6 && w.extractLsb' 14 6 == 0#6 && w.extractLsb' 0 1 == 0#1) && true) (execHint (w.extractLsb' 8 6))
  | 9 => rowRun w s (w.extractLsb' 1 2 == 0#2) ((w.extractLsb' 8 6 == 0#6 && w.extractLsb' 0 1 == 0#1) && true) (execMigr (w.extractLsb' 20 6) (w.extractLsb' 14 6))
  | _ => illegal w .unassignedFn s

theorem str_run (w : InstrWord) (s : State) : fate w s (decodeStr w) = runStr w s := by
  unfold decodeStr runStr
  split <;> rename_i h <;> first
    | ((try simp only [h]); exact row_run w s _ _ _)
    | rfl
    | (split <;> first | rfl | (exfalso; simp_all))

/-- Major 0x13, compiled. -/
def runQue (w : InstrWord) (s : State) : Out :=
  match (frFn w).toNat with
  | 0 => rowRun w s (w.extractLsb' 1 2 == 0#2) ((w.extractLsb' 8 6 == 0#6 && w.extractLsb' 0 1 == 0#1) && true) (execQcfg (w.extractLsb' 20 6) (w.extractLsb' 14 6))
  | 1 => rowRun w s (w.extractLsb' 1 2 == 0#2) ((w.extractLsb' 20 6 == 0#6 && w.extractLsb' 0 1 == 0#1) && true) (execQadv (w.extractLsb' 14 6) (w.extractLsb' 8 6))
  | 2 => rowRun w s (w.extractLsb' 1 2 == 0#2) ((w.extractLsb' 20 6 == 0#6 && w.extractLsb' 8 6 == 0#6 && w.extractLsb' 0 1 == 0#1) && true) (execQcommit (w.extractLsb' 14 6))
  | 3 => rowRun w s (w.extractLsb' 1 2 == 0#2) ((w.extractLsb' 8 6 == 0#6 && w.extractLsb' 0 1 == 0#1) && true) (execQfill (w.extractLsb' 20 6) (w.extractLsb' 14 6))
  | 4 => rowRun w s (w.extractLsb' 1 2 == 0#2) ((w.extractLsb' 8 6 == 0#6 && w.extractLsb' 0 1 == 0#1) && true) (execQfree (w.extractLsb' 20 6) (w.extractLsb' 14 6))
  | 5 => rowRun w s (w.extractLsb' 1 2 == 0#2) ((w.extractLsb' 20 6 == 0#6 && w.extractLsb' 8 6 == 0#6 && w.extractLsb' 0 1 == 0#1) && true) (execQreset (w.extractLsb' 14 6))
  | 6 => rowRun w s (w.extractLsb' 1 2 == 0#2) ((w.extractLsb' 20 6 == 0#6 && w.extractLsb' 8 6 == 0#6 && w.extractLsb' 0 1 == 0#1) && true) (execQdrain (w.extractLsb' 14 6))
  | 7 => rowRun w s (w.extractLsb' 1 2 == 0#2) ((w.extractLsb' 8 6 == 0#6 && w.extractLsb' 0 1 == 0#1) && ((w.extractLsb' 20 6) != 0)) (execXput (w.extractLsb' 20 6) (w.extractLsb' 14 6))
  | 8 => rowRun w s (w.extractLsb' 1 2 == 0#2) ((w.extractLsb' 14 6 == 0#6 && w.extractLsb' 8 6 == 0#6 && w.extractLsb' 0 1 == 0#1) && ((w.extractLsb' 20 6) != 0)) (execFset (w.extractLsb' 20 6))
  | 9 => rowRun w s (w.extractLsb' 1 2 == 0#2) ((w.extractLsb' 14 6 == 0#6 && w.extractLsb' 8 6 == 0#6 && w.extractLsb' 0 1 == 0#1) && ((w.extractLsb' 20 6) != 0)) (execFclr (w.extractLsb' 20 6))
  | 10 => rowRun w s (w.extractLsb' 1 2 == 0#2) ((w.extractLsb' 8 6 == 0#6 && w.extractLsb' 0 1 == 0#1) && true) (execFtest (w.extractLsb' 20 6) (w.extractLsb' 14 6))
  | _ => illegal w .unassignedFn s

theorem que_run (w : InstrWord) (s : State) : fate w s (decodeQue w) = runQue w s := by
  unfold decodeQue runQue
  split <;> rename_i h <;> first
    | ((try simp only [h]); exact row_run w s _ _ _)
    | rfl
    | (split <;> first | rfl | (exfalso; simp_all))

/-- Major 0x14, compiled. -/
def runValu (w : InstrWord) (s : State) : Out :=
  match (frFn w).toNat with
  | 0 => rowRun w s true (true && true) (execVadd (w.extractLsb' 20 6) (w.extractLsb' 14 6) (w.extractLsb' 8 6) (w.extractLsb' 1 2) (w.extractLsb' 0 1))
  | 1 => rowRun w s true (true && true) (execVsub (w.extractLsb' 20 6) (w.extractLsb' 14 6) (w.extractLsb' 8 6) (w.extractLsb' 1 2) (w.extractLsb' 0 1))
  | 2 => rowRun w s true (true && true) (execVmul (w.extractLsb' 20 6) (w.extractLsb' 14 6) (w.extractLsb' 8 6) (w.extractLsb' 1 2) (w.extractLsb' 0 1))
  | 3 => rowRun w s true (true && true) (execVmulh (w.extractLsb' 20 6) (w.extractLsb' 14 6) (w.extractLsb' 8 6) (w.extractLsb' 1 2) (w.extractLsb' 0 1))
  | 4 => rowRun w s true (true && true) (execVmac (w.extractLsb' 20 6) (w.extractLsb' 14 6) (w.extractLsb' 8 6) (w.extractLsb' 1 2) (w.extractLsb' 0 1))
  | 5 => rowRun w s true (true && true) (execVdiv (w.extractLsb' 20 6) (w.extractLsb' 14 6) (w.extractLsb' 8 6) (w.extractLsb' 1 2) (w.extractLsb' 0 1))
  | 6 => rowRun w s true (true && true) (execVdivn (w.extractLsb' 20 6) (w.extractLsb' 14 6) (w.extractLsb' 8 6) (w.extractLsb' 1 2) (w.extractLsb' 0 1))
  | 7 => rowRun w s true (true && true) (execVrem (w.extractLsb' 20 6) (w.extractLsb' 14 6) (w.extractLsb' 8 6) (w.extractLsb' 1 2) (w.extractLsb' 0 1))
  | 8 => rowRun w s true (true && true) (execVmin (w.extractLsb' 20 6) (w.extractLsb' 14 6) (w.extractLsb' 8 6) (w.extractLsb' 1 2) (w.extractLsb' 0 1))
  | 9 => rowRun w s true (true && true) (execVmax (w.extractLsb' 20 6) (w.extractLsb' 14 6) (w.extractLsb' 8 6) (w.extractLsb' 1 2) (w.extractLsb' 0 1))
  | 10 => rowRun w s true (true && true) (execVminn (w.extractLsb' 20 6) (w.extractLsb' 14 6) (w.extractLsb' 8 6) (w.extractLsb' 1 2) (w.extractLsb' 0 1))
  | 11 => rowRun w s true (true && true) (execVmaxn (w.extractLsb' 20 6) (w.extractLsb' 14 6) (w.extractLsb' 8 6) (w.extractLsb' 1 2) (w.extractLsb' 0 1))
  | 12 => rowRun w s true (true && true) (execVand (w.extractLsb' 20 6) (w.extractLsb' 14 6) (w.extractLsb' 8 6) (w.extractLsb' 1 2) (w.extractLsb' 0 1))
  | 13 => rowRun w s true (true && true) (execVor (w.extractLsb' 20 6) (w.extractLsb' 14 6) (w.extractLsb' 8 6) (w.extractLsb' 1 2) (w.extractLsb' 0 1))
  | 14 => rowRun w s true (true && true) (execVxor (w.extractLsb' 20 6) (w.extractLsb' 14 6) (w.extractLsb' 8 6) (w.extractLsb' 1 2) (w.extractLsb' 0 1))
  | 15 => rowRun w s true (true && true) (execVsll (w.extractLsb' 20 6) (w.extractLsb' 14 6) (w.extractLsb' 8 6) (w.extractLsb' 1 2) (w.extractLsb' 0 1))
  | 16 => rowRun w s true (true && true) (execVsrl (w.extractLsb' 20 6) (w.extractLsb' 14 6) (w.extractLsb' 8 6) (w.extractLsb' 1 2) (w.extractLsb' 0 1))
  | 17 => rowRun w s true (true && true) (execVsra (w.extractLsb' 20 6) (w.extractLsb' 14 6) (w.extractLsb' 8 6) (w.extractLsb' 1 2) (w.extractLsb' 0 1))
  | 18 => rowRun w s true (true && true) (execVsadd (w.extractLsb' 20 6) (w.extractLsb' 14 6) (w.extractLsb' 8 6) (w.extractLsb' 1 2) (w.extractLsb' 0 1))
  | 19 => rowRun w s true (true && true) (execVssub (w.extractLsb' 20 6) (w.extractLsb' 14 6) (w.extractLsb' 8 6) (w.extractLsb' 1 2) (w.extractLsb' 0 1))
  | 20 => rowRun w s true ((w.extractLsb' 8 6 == 0#6 && w.extractLsb' 0 1 == 0#1) && true) (execVabs (w.extractLsb' 20 6) (w.extractLsb' 14 6) (w.extractLsb' 1 2))
  | 21 => rowRun w s true ((w.extractLsb' 8 6 == 0#6 && w.extractLsb' 0 1 == 0#1) && true) (execVneg (w.extractLsb' 20 6) (w.extractLsb' 14 6) (w.extractLsb' 1 2))
  | 22 => rowRun w s true ((w.extractLsb' 0 1 == 0#1) && true) (execVredsum (w.extractLsb' 20 6) (w.extractLsb' 14 6) (w.extractLsb' 8 6) (w.extractLsb' 1 2))
  | 23 => rowRun w s true ((w.extractLsb' 0 1 == 0#1) && true) (execVredmin (w.extractLsb' 20 6) (w.extractLsb' 14 6) (w.extractLsb' 8 6) (w.extractLsb' 1 2))
  | 24 => rowRun w s true ((w.extractLsb' 0 1 == 0#1) && true) (execVredmax (w.extractLsb' 20 6) (w.extractLsb' 14 6) (w.extractLsb' 8 6) (w.extractLsb' 1 2))
  | _ => illegal w .unassignedFn s

theorem valu_run (w : InstrWord) (s : State) : fate w s (decodeValu w) = runValu w s := by
  unfold decodeValu runValu
  split <;> rename_i h <;> first
    | ((try simp only [h]); exact row_run w s _ _ _)
    | rfl
    | (split <;> first | rfl | (exfalso; simp_all))

/-- Major 0x15, compiled. -/
def runVfp (w : InstrWord) (s : State) : Out :=
  match (frFn w).toNat with
  | 0 => rowRun w s true (true && true) (execVfadd (w.extractLsb' 20 6) (w.extractLsb' 14 6) (w.extractLsb' 8 6) (w.extractLsb' 1 2) (w.extractLsb' 0 1))
  | 1 => rowRun w s true (true && true) (execVfsub (w.extractLsb' 20 6) (w.extractLsb' 14 6) (w.extractLsb' 8 6) (w.extractLsb' 1 2) (w.extractLsb' 0 1))
  | 2 => rowRun w s true (true && true) (execVfmul (w.extractLsb' 20 6) (w.extractLsb' 14 6) (w.extractLsb' 8 6) (w.extractLsb' 1 2) (w.extractLsb' 0 1))
  | 3 => rowRun w s true (true && true) (execVfma (w.extractLsb' 20 6) (w.extractLsb' 14 6) (w.extractLsb' 8 6) (w.extractLsb' 1 2) (w.extractLsb' 0 1))
  | 4 => rowRun w s true (true && true) (execVfnma (w.extractLsb' 20 6) (w.extractLsb' 14 6) (w.extractLsb' 8 6) (w.extractLsb' 1 2) (w.extractLsb' 0 1))
  | 5 => rowRun w s true (true && true) (execVfdiv (w.extractLsb' 20 6) (w.extractLsb' 14 6) (w.extractLsb' 8 6) (w.extractLsb' 1 2) (w.extractLsb' 0 1))
  | 6 => rowRun w s true ((w.extractLsb' 8 6 == 0#6 && w.extractLsb' 0 1 == 0#1) && true) (execVfsqrt (w.extractLsb' 20 6) (w.extractLsb' 14 6) (w.extractLsb' 1 2))
  | 7 => rowRun w s (w.extractLsb' 1 2 == 0#2) ((w.extractLsb' 8 6 == 0#6 && w.extractLsb' 0 1 == 0#1) && true) (execVfexp2 (w.extractLsb' 20 6) (w.extractLsb' 14 6))
  | 8 => rowRun w s (w.extractLsb' 1 2 == 0#2) ((w.extractLsb' 8 6 == 0#6 && w.extractLsb' 0 1 == 0#1) && true) (execVflog2 (w.extractLsb' 20 6) (w.extractLsb' 14 6))
  | 9 => rowRun w s true (true && true) (execVfmin (w.extractLsb' 20 6) (w.extractLsb' 14 6) (w.extractLsb' 8 6) (w.extractLsb' 1 2) (w.extractLsb' 0 1))
  | 10 => rowRun w s true (true && true) (execVfmax (w.extractLsb' 20 6) (w.extractLsb' 14 6) (w.extractLsb' 8 6) (w.extractLsb' 1 2) (w.extractLsb' 0 1))
  | 11 => rowRun w s true ((w.extractLsb' 8 6 == 0#6 && w.extractLsb' 0 1 == 0#1) && true) (execVfabs (w.extractLsb' 20 6) (w.extractLsb' 14 6) (w.extractLsb' 1 2))
  | 12 => rowRun w s true ((w.extractLsb' 8 6 == 0#6 && w.extractLsb' 0 1 == 0#1) && true) (execVfneg (w.extractLsb' 20 6) (w.extractLsb' 14 6) (w.extractLsb' 1 2))
  | 13 => rowRun w s (w.extractLsb' 1 2 == 0#2) ((w.extractLsb' 0 1 == 0#1) && (!(((w.extractLsb' 11 3) == (w.extractLsb' 8 3) && ((w.extractLsb' 11 3) == 0 || (w.extractLsb' 11 3) == 3 || (w.extractLsb' 11 3) == 6 || (w.extractLsb' 11 3) == 7)) || ((w.extractLsb' 11 3) == 6 && (w.extractLsb' 8 3) == 7) || ((w.extractLsb' 11 3) == 7 && (w.extractLsb' 8 3) == 6)))) (execVfcvt (w.extractLsb' 20 6) (w.extractLsb' 14 6) (w.extractLsb' 11 3) (w.extractLsb' 8 3))
  | 14 => rowRun w s true ((w.extractLsb' 0 1 == 0#1) && true) (execVfredo (w.extractLsb' 20 6) (w.extractLsb' 14 6) (w.extractLsb' 8 6) (w.extractLsb' 1 2))
  | 15 => rowRun w s true ((w.extractLsb' 0 1 == 0#1) && true) (execVfredt (w.extractLsb' 20 6) (w.extractLsb' 14 6) (w.extractLsb' 8 6) (w.extractLsb' 1 2))
  | 16 => rowRun w s true ((w.extractLsb' 0 1 == 0#1) && true) (execVfredmax (w.extractLsb' 20 6) (w.extractLsb' 14 6) (w.extractLsb' 8 6) (w.extractLsb' 1 2))
  | 17 => rowRun w s true ((w.extractLsb' 0 1 == 0#1) && true) (execVfredmin (w.extractLsb' 20 6) (w.extractLsb' 14 6) (w.extractLsb' 8 6) (w.extractLsb' 1 2))
  | 18 => rowRun w s true (true && true) (execVfscale (w.extractLsb' 20 6) (w.extractLsb' 14 6) (w.extractLsb' 8 6) (w.extractLsb' 1 2) (w.extractLsb' 0 1))
  | _ => illegal w .unassignedFn s

theorem vfp_run (w : InstrWord) (s : State) : fate w s (decodeVfp w) = runVfp w s := by
  unfold decodeVfp runVfp
  split <;> rename_i h <;> first
    | ((try simp only [h]); exact row_run w s _ _ _)
    | rfl
    | (split <;> first | rfl | (exfalso; simp_all))

/-- Major 0x16, compiled. -/
def runVcmp (w : InstrWord) (s : State) : Out :=
  match (frFn w).toNat with
  | 0 => rowRun w s true (true && true) (execVceq (w.extractLsb' 20 6) (w.extractLsb' 14 6) (w.extractLsb' 8 6) (w.extractLsb' 1 2) (w.extractLsb' 0 1))
  | 1 => rowRun w s true (true && true) (execVcne (w.extractLsb' 20 6) (w.extractLsb' 14 6) (w.extractLsb' 8 6) (w.extractLsb' 1 2) (w.extractLsb' 0 1))
  | 2 => rowRun w s true (true && true) (execVclt (w.extractLsb' 20 6) (w.extractLsb' 14 6) (w.extractLsb' 8 6) (w.extractLsb' 1 2) (w.extractLsb' 0 1))
  | 3 => rowRun w s true (true && true) (execVcle (w.extractLsb' 20 6) (w.extractLsb' 14 6) (w.extractLsb' 8 6) (w.extractLsb' 1 2) (w.extractLsb' 0 1))
  | 4 => rowRun w s true (true && true) (execVcltn (w.extractLsb' 20 6) (w.extractLsb' 14 6) (w.extractLsb' 8 6) (w.extractLsb' 1 2) (w.extractLsb' 0 1))
  | 5 => rowRun w s true (true && true) (execVclen (w.extractLsb' 20 6) (w.extractLsb' 14 6) (w.extractLsb' 8 6) (w.extractLsb' 1 2) (w.extractLsb' 0 1))
  | 6 => rowRun w s true (true && true) (execVfceq (w.extractLsb' 20 6) (w.extractLsb' 14 6) (w.extractLsb' 8 6) (w.extractLsb' 1 2) (w.extractLsb' 0 1))
  | 7 => rowRun w s true (true && true) (execVfclt (w.extractLsb' 20 6) (w.extractLsb' 14 6) (w.extractLsb' 8 6) (w.extractLsb' 1 2) (w.extractLsb' 0 1))
  | 8 => rowRun w s true (true && true) (execVfcle (w.extractLsb' 20 6) (w.extractLsb' 14 6) (w.extractLsb' 8 6) (w.extractLsb' 1 2) (w.extractLsb' 0 1))
  | 9 => rowRun w s true (true && true) (execVfcun (w.extractLsb' 20 6) (w.extractLsb' 14 6) (w.extractLsb' 8 6) (w.extractLsb' 1 2) (w.extractLsb' 0 1))
  | _ => illegal w .unassignedFn s

theorem vcmp_run (w : InstrWord) (s : State) : fate w s (decodeVcmp w) = runVcmp w s := by
  unfold decodeVcmp runVcmp
  split <;> rename_i h <;> first
    | ((try simp only [h]); exact row_run w s _ _ _)
    | rfl
    | (split <;> first | rfl | (exfalso; simp_all))

/-- Major 0x17, compiled. -/
def runPred (w : InstrWord) (s : State) : Out :=
  match (frFn w).toNat with
  | 0 => rowRun w s (w.extractLsb' 1 2 == 0#2) ((w.extractLsb' 0 1 == 0#1) && true) (execPand (w.extractLsb' 20 6) (w.extractLsb' 14 6) (w.extractLsb' 8 6))
  | 1 => rowRun w s (w.extractLsb' 1 2 == 0#2) ((w.extractLsb' 0 1 == 0#1) && true) (execPor (w.extractLsb' 20 6) (w.extractLsb' 14 6) (w.extractLsb' 8 6))
  | 2 => rowRun w s (w.extractLsb' 1 2 == 0#2) ((w.extractLsb' 0 1 == 0#1) && true) (execPxor (w.extractLsb' 20 6) (w.extractLsb' 14 6) (w.extractLsb' 8 6))
  | 3 => rowRun w s (w.extractLsb' 1 2 == 0#2) ((w.extractLsb' 0 1 == 0#1) && true) (execPandn (w.extractLsb' 20 6) (w.extractLsb' 14 6) (w.extractLsb' 8 6))
  | 4 => rowRun w s (w.extractLsb' 1 2 == 0#2) ((w.extractLsb' 8 6 == 0#6 && w.extractLsb' 0 1 == 0#1) && true) (execPnot (w.extractLsb' 20 6) (w.extractLsb' 14 6))
  | 5 => rowRun w s (w.extractLsb' 1 2 == 0#2) ((w.extractLsb' 8 6 == 0#6 && w.extractLsb' 0 1 == 0#1) && true) (execPsbf (w.extractLsb' 20 6) (w.extractLsb' 14 6))
  | 6 => rowRun w s (w.extractLsb' 1 2 == 0#2) ((w.extractLsb' 8 6 == 0#6 && w.extractLsb' 0 1 == 0#1) && true) (execPsif (w.extractLsb' 20 6) (w.extractLsb' 14 6))
  | 7 => rowRun w s (w.extractLsb' 1 2 == 0#2) ((w.extractLsb' 8 6 == 0#6 && w.extractLsb' 0 1 == 0#1) && true) (execPsof (w.extractLsb' 20 6) (w.extractLsb' 14 6))
  | 8 => rowRun w s (w.extractLsb' 1 2 == 0#2) ((w.extractLsb' 8 6 == 0#6 && w.extractLsb' 0 1 == 0#1) && true) (execPcnt (w.extractLsb' 20 6) (w.extractLsb' 14 6))
  | 9 => rowRun w s (w.extractLsb' 1 2 == 0#2) ((w.extractLsb' 8 6 == 0#6 && w.extractLsb' 0 1 == 0#1) && true) (execPfirst (w.extractLsb' 20 6) (w.extractLsb' 14 6))
  | 10 => rowRun w s (w.extractLsb' 1 2 == 0#2) ((w.extractLsb' 14 6 == 0#6 && w.extractLsb' 8 6 == 0#6 && w.extractLsb' 0 1 == 0#1) && true) (execPset (w.extractLsb' 20 6))
  | 11 => rowRun w s (w.extractLsb' 1 2 == 0#2) ((w.extractLsb' 14 6 == 0#6 && w.extractLsb' 8 6 == 0#6 && w.extractLsb' 0 1 == 0#1) && true) (execPclr (w.extractLsb' 20 6))
  | 12 => rowRun w s (w.extractLsb' 1 2 == 0#2) ((w.extractLsb' 10 4 == 0#4 && w.extractLsb' 0 1 == 0#1) && true) (execPfromx (w.extractLsb' 20 6) (w.extractLsb' 14 6) (w.extractLsb' 8 2))
  | 13 => rowRun w s (w.extractLsb' 1 2 == 0#2) ((w.extractLsb' 10 4 == 0#4 && w.extractLsb' 0 1 == 0#1) && true) (execPtox (w.extractLsb' 20 6) (w.extractLsb' 14 6) (w.extractLsb' 8 2))
  | _ => illegal w .unassignedFn s

theorem pred_run (w : InstrWord) (s : State) : fate w s (decodePred w) = runPred w s := by
  unfold decodePred runPred
  split <;> rename_i h <;> first
    | ((try simp only [h]); exact row_run w s _ _ _)
    | rfl
    | (split <;> first | rfl | (exfalso; simp_all))

/-- Major 0x18, compiled. -/
def runVperm (w : InstrWord) (s : State) : Out :=
  match (frFn w).toNat with
  | 0 => rowRun w s true ((w.extractLsb' 8 6 == 0#6 && w.extractLsb' 0 1 == 0#1) && true) (execVcompress (w.extractLsb' 20 6) (w.extractLsb' 14 6) (w.extractLsb' 1 2))
  | 1 => rowRun w s true ((w.extractLsb' 8 6 == 0#6 && w.extractLsb' 0 1 == 0#1) && true) (execVexpand (w.extractLsb' 20 6) (w.extractLsb' 14 6) (w.extractLsb' 1 2))
  | 2 => rowRun w s true (true && true) (execVslideup (w.extractLsb' 20 6) (w.extractLsb' 14 6) (w.extractLsb' 8 6) (w.extractLsb' 1 2) (w.extractLsb' 0 1))
  | 3 => rowRun w s true (true && true) (execVslidedn (w.extractLsb' 20 6) (w.extractLsb' 14 6) (w.extractLsb' 8 6) (w.extractLsb' 1 2) (w.extractLsb' 0 1))
  | 4 => rowRun w s true ((w.extractLsb' 0 1 == 0#1) && true) (execVpermx (w.extractLsb' 20 6) (w.extractLsb' 14 6) (w.extractLsb' 8 6) (w.extractLsb' 1 2))
  | 5 => rowRun w s true ((w.extractLsb' 0 1 == 0#1) && true) (execVbcast (w.extractLsb' 20 6) (w.extractLsb' 14 6) (w.extractLsb' 8 6) (w.extractLsb' 1 2))
  | 6 => rowRun w s true ((w.extractLsb' 0 1 == 0#1) && true) (execVextx (w.extractLsb' 20 6) (w.extractLsb' 14 6) (w.extractLsb' 8 6) (w.extractLsb' 1 2))
  | 7 => rowRun w s true ((w.extractLsb' 0 1 == 0#1) && true) (execVinsx (w.extractLsb' 20 6) (w.extractLsb' 14 6) (w.extractLsb' 8 6) (w.extractLsb' 1 2))
  | 8 => rowRun w s true ((w.extractLsb' 0 1 == 0#1) && true) (execViota (w.extractLsb' 20 6) (w.extractLsb' 14 6) (w.extractLsb' 8 6) (w.extractLsb' 1 2))
  | 9 => rowRun w s true ((w.extractLsb' 8 6 == 0#6 && w.extractLsb' 0 1 == 0#1) && true) (execVmov (w.extractLsb' 20 6) (w.extractLsb' 14 6) (w.extractLsb' 1 2))
  | 10 => rowRun w s true ((w.extractLsb' 0 1 == 0#1) && true) (execVzip (w.extractLsb' 20 6) (w.extractLsb' 14 6) (w.extractLsb' 8 6) (w.extractLsb' 1 2))
  | 11 => rowRun w s true ((w.extractLsb' 0 1 == 0#1) && true) (execVunzip (w.extractLsb' 20 6) (w.extractLsb' 14 6) (w.extractLsb' 8 6) (w.extractLsb' 1 2))
  | _ => illegal w .unassignedFn s

theorem vperm_run (w : InstrWord) (s : State) : fate w s (decodeVperm w) = runVperm w s := by
  unfold decodeVperm runVperm
  split <;> rename_i h <;> first
    | ((try simp only [h]); exact row_run w s _ _ _)
    | rfl
    | (split <;> first | rfl | (exfalso; simp_all))

/-- Major 0x19, compiled. -/
def runVld (w : InstrWord) (s : State) : Out :=
  match (w.extractLsb' 5 3).toNat with
  | 0 => rowRun w s true ((w.extractLsb' 8 6 == 0#6) && true) (execVld (w.extractLsb' 20 6) (w.extractLsb' 14 6) (w.extractLsb' 3 2) (w.extractLsb' 1 2) (w.extractLsb' 0 1))
  | 1 => rowRun w s true ((w.extractLsb' 8 6 == 0#6) && true) (execVlds (w.extractLsb' 20 6) (w.extractLsb' 14 6) (w.extractLsb' 3 2) (w.extractLsb' 1 2) (w.extractLsb' 0 1))
  | 2 => rowRun w s true (true && true) (execVldx (w.extractLsb' 20 6) (w.extractLsb' 14 6) (w.extractLsb' 8 6) (w.extractLsb' 3 2) (w.extractLsb' 1 2) (w.extractLsb' 0 1))
  | 3 => rowRun w s true ((w.extractLsb' 8 6 == 0#6) && true) (execVldff (w.extractLsb' 20 6) (w.extractLsb' 14 6) (w.extractLsb' 3 2) (w.extractLsb' 1 2) (w.extractLsb' 0 1))
  | 4 => rowRun w s true ((w.extractLsb' 8 6 == 0#6) && true) (execVldb (w.extractLsb' 20 6) (w.extractLsb' 14 6) (w.extractLsb' 3 2) (w.extractLsb' 1 2) (w.extractLsb' 0 1))
  | _ => illegal w .unassignedFn s

theorem vld_run (w : InstrWord) (s : State) : fate w s (decodeVld w) = runVld w s := by
  unfold decodeVld runVld
  split <;> rename_i h <;> first
    | ((try simp only [h]); exact row_run w s _ _ _)
    | rfl
    | (split <;> first | rfl | (exfalso; simp_all))

/-- Major 0x1A, compiled. -/
def runVst (w : InstrWord) (s : State) : Out :=
  match (w.extractLsb' 5 3).toNat with
  | 0 => rowRun w s true ((w.extractLsb' 8 6 == 0#6) && true) (execVst (w.extractLsb' 20 6) (w.extractLsb' 14 6) (w.extractLsb' 3 2) (w.extractLsb' 1 2) (w.extractLsb' 0 1))
  | 1 => rowRun w s true ((w.extractLsb' 8 6 == 0#6) && true) (execVsts (w.extractLsb' 20 6) (w.extractLsb' 14 6) (w.extractLsb' 3 2) (w.extractLsb' 1 2) (w.extractLsb' 0 1))
  | 2 => rowRun w s true (true && true) (execVstx (w.extractLsb' 20 6) (w.extractLsb' 14 6) (w.extractLsb' 8 6) (w.extractLsb' 3 2) (w.extractLsb' 1 2) (w.extractLsb' 0 1))
  | 3 => rowRun w s true (true && true) (execVstxr (w.extractLsb' 20 6) (w.extractLsb' 14 6) (w.extractLsb' 8 6) (w.extractLsb' 3 2) (w.extractLsb' 1 2) (w.extractLsb' 0 1))
  | _ => illegal w .unassignedFn s

theorem vst_run (w : InstrWord) (s : State) : fate w s (decodeVst w) = runVst w s := by
  unfold decodeVst runVst
  split <;> rename_i h <;> first
    | ((try simp only [h]); exact row_run w s _ _ _)
    | rfl
    | (split <;> first | rfl | (exfalso; simp_all))

/-- Major 0x1B, compiled. -/
def runVctl (w : InstrWord) (s : State) : Out :=
  match (frFn w).toNat with
  | 0 => rowRun w s true ((w.extractLsb' 8 6 == 0#6 && w.extractLsb' 0 1 == 0#1) && true) (execSetvl (w.extractLsb' 20 6) (w.extractLsb' 14 6) (w.extractLsb' 1 2))
  | 1 => rowRun w s true ((w.extractLsb' 0 1 == 0#1) && true) (execSetvli (w.extractLsb' 20 6) (w.extractLsb' 8 12) (w.extractLsb' 1 2))
  | 2 => rowRun w s (w.extractLsb' 1 2 == 0#2) ((w.extractLsb' 20 6 == 0#6 && w.extractLsb' 9 5 == 0#5 && w.extractLsb' 0 1 == 0#1) && (!((w.extractLsb' 8 1) == 1 && (w.extractLsb' 14 6) != 0))) (execSetms (w.extractLsb' 14 6) (w.extractLsb' 8 1))
  | 3 => rowRun w s (w.extractLsb' 1 2 == 0#2) ((w.extractLsb' 20 6 == 0#6 && w.extractLsb' 8 6 == 0#6 && w.extractLsb' 0 1 == 0#1) && true) (execSetst (w.extractLsb' 14 6))
  | 4 => rowRun w s true ((w.extractLsb' 8 6 == 0#6 && w.extractLsb' 0 1 == 0#1) && true) (execScput (w.extractLsb' 20 6) (w.extractLsb' 14 6) (w.extractLsb' 1 2))
  | 5 => rowRun w s true ((w.extractLsb' 14 6 == 0#6 && w.extractLsb' 8 6 == 0#6 && w.extractLsb' 0 1 == 0#1) && true) (execSctake (w.extractLsb' 20 6) (w.extractLsb' 1 2))
  | 6 => rowRun w s (w.extractLsb' 1 2 == 0#2) ((w.extractLsb' 14 6 == 0#6 && w.extractLsb' 8 6 == 0#6 && w.extractLsb' 0 1 == 0#1) && true) (execScflush (w.extractLsb' 20 6))
  | 7 => rowRun w s (w.extractLsb' 1 2 == 0#2) ((w.extractLsb' 14 6 == 0#6 && w.extractLsb' 8 6 == 0#6 && w.extractLsb' 0 1 == 0#1) && true) (execScstat (w.extractLsb' 20 6))
  | _ => illegal w .unassignedFn s

theorem vctl_run (w : InstrWord) (s : State) : fate w s (decodeVctl w) = runVctl w s := by
  unfold decodeVctl runVctl
  split <;> rename_i h <;> first
    | ((try simp only [h]); exact row_run w s _ _ _)
    | rfl
    | (split <;> first | rfl | (exfalso; simp_all))

/-- Major 0x1C, compiled. -/
def runTile (w : InstrWord) (s : State) : Out :=
  match (frFn w).toNat with
  | 0 => rowRun w s (w.extractLsb' 1 2 == 0#2) ((w.extractLsb' 17 3 == 0#3 && w.extractLsb' 0 1 == 0#1) && true) (execTen (w.extractLsb' 20 6) (w.extractLsb' 14 3) (w.extractLsb' 8 6))
  | 1 => rowRun w s (w.extractLsb' 1 2 == 0#2) ((w.extractLsb' 20 6 == 0#6 && w.extractLsb' 17 3 == 0#3 && w.extractLsb' 8 6 == 0#6 && w.extractLsb' 0 1 == 0#1) && true) (execTdis (w.extractLsb' 14 3))
  | 2 => rowRun w s (w.extractLsb' 1 2 == 0#2) ((w.extractLsb' 20 6 == 0#6 && w.extractLsb' 17 3 == 0#3 && w.extractLsb' 8 6 == 0#6 && w.extractLsb' 0 1 == 0#1) && true) (execTzero (w.extractLsb' 14 3))
  | 3 => rowRun w s (w.extractLsb' 1 2 == 0#2) ((w.extractLsb' 17 3 == 0#3 && w.extractLsb' 0 1 == 0#1) && true) (execTpred (w.extractLsb' 20 6) (w.extractLsb' 14 3) (w.extractLsb' 8 6))
  | 4 => rowRun w s (w.extractLsb' 1 2 == 0#2) ((w.extractLsb' 17 3 == 0#3 && w.extractLsb' 0 1 == 0#1) && true) (execTmovr (w.extractLsb' 20 6) (w.extractLsb' 14 3) (w.extractLsb' 8 6))
  | 5 => rowRun w s (w.extractLsb' 1 2 == 0#2) ((w.extractLsb' 17 3 == 0#3 && w.extractLsb' 0 1 == 0#1) && true) (execTmovc (w.extractLsb' 20 6) (w.extractLsb' 14 3) (w.extractLsb' 8 6))
  | 6 => rowRun w s (w.extractLsb' 1 2 == 0#2) ((w.extractLsb' 23 3 == 0#3 && w.extractLsb' 0 1 == 0#1) && true) (execTsetr (w.extractLsb' 20 3) (w.extractLsb' 14 6) (w.extractLsb' 8 6))
  | 7 => rowRun w s (w.extractLsb' 1 2 == 0#2) ((w.extractLsb' 23 3 == 0#3 && w.extractLsb' 0 1 == 0#1) && true) (execTsetc (w.extractLsb' 20 3) (w.extractLsb' 14 6) (w.extractLsb' 8 6))
  | 8 => rowRun w s (w.extractLsb' 1 2 == 0#2) ((w.extractLsb' 20 6 == 0#6 && w.extractLsb' 17 3 == 0#3 && w.extractLsb' 11 3 == 0#3 && w.extractLsb' 0 1 == 0#1) && true) (execTfold (w.extractLsb' 14 3) (w.extractLsb' 8 3))
  | 9 => rowRun w s true ((w.extractLsb' 17 3 == 0#3 && w.extractLsb' 0 1 == 0#1) && true) (execTdrain (w.extractLsb' 20 6) (w.extractLsb' 14 3) (w.extractLsb' 8 6) (w.extractLsb' 1 2))
  | 10 => rowRun w s (w.extractLsb' 1 2 == 0#2) ((w.extractLsb' 0 1 == 0#1) && true) (execTfetch (w.extractLsb' 20 6) (w.extractLsb' 14 6) (w.extractLsb' 8 6))
  | 11 => rowRun w s (w.extractLsb' 1 2 == 0#2) ((w.extractLsb' 23 3 == 0#3 && w.extractLsb' 8 6 == 0#6 && w.extractLsb' 0 1 == 0#1) && true) (execTscl (w.extractLsb' 20 3) (w.extractLsb' 14 6))
  | 12 => rowRun w s (w.extractLsb' 1 2 == 0#2) ((w.extractLsb' 17 3 == 0#3 && w.extractLsb' 10 4 == 0#4 && w.extractLsb' 0 1 == 0#1) && true) (execTstat (w.extractLsb' 20 6) (w.extractLsb' 14 3) (w.extractLsb' 8 2))
  | _ => illegal w .unassignedFn s

theorem tile_run (w : InstrWord) (s : State) : fate w s (decodeTile w) = runTile w s := by
  unfold decodeTile runTile
  split <;> rename_i h <;> first
    | ((try simp only [h]); exact row_run w s _ _ _)
    | rfl
    | (split <;> first | rfl | (exfalso; simp_all))

/-- Major 0x1D, compiled. -/
def runTop (w : InstrWord) (s : State) : Out :=
  match (w.extractLsb' 5 2).toNat with
  | 0 => fxRun w s (decide ((w.extractLsb' 2 3).toNat < 6)) true (execTop (w.extractLsb' 23 3) (w.extractLsb' 17 6) (w.extractLsb' 11 6) (w.extractLsb' 7 4) (w.extractLsb' 2 3) (w.extractLsb' 1 1) (w.extractLsb' 0 1))
  | 1 => fxRun w s (decide ((w.extractLsb' 2 3).toNat < 6)) true (execTops (w.extractLsb' 23 3) (w.extractLsb' 17 6) (w.extractLsb' 11 6) (w.extractLsb' 7 4) (w.extractLsb' 2 3) (w.extractLsb' 1 1) (w.extractLsb' 0 1))
  | 2 => fxRun w s (decide ((w.extractLsb' 2 3).toNat < 6)) (w.extractLsb' 17 6 == 0#6) (execTopl (w.extractLsb' 23 3) (w.extractLsb' 11 6) (w.extractLsb' 7 4) (w.extractLsb' 2 3) (w.extractLsb' 1 1) (w.extractLsb' 0 1))
  | _ => illegal w .badType s

theorem top_run (w : InstrWord) (s : State) : fate w s (decodeTop w) = runTop w s := by
  unfold decodeTop runTop
  split <;> rename_i h <;> first
    | ((try simp only [h]); exact fx_run w s _ _)
    | rfl
    | (split <;> first | rfl | (exfalso; simp_all))

/-- Major 0x1E, compiled. -/
def runWin (w : InstrWord) (s : State) : Out :=
  match (frFn w).toNat with
  | 0 => rowRun w s (w.extractLsb' 1 2 == 0#2) ((w.extractLsb' 0 1 == 0#1) && true) (execWmap (w.extractLsb' 20 6) (w.extractLsb' 14 6) (w.extractLsb' 8 6))
  | 1 => rowRun w s (w.extractLsb' 1 2 == 0#2) ((w.extractLsb' 20 6 == 0#6 && w.extractLsb' 14 6 == 0#6 && w.extractLsb' 11 3 == 0#3 && w.extractLsb' 0 1 == 0#1) && true) (execWunmap (w.extractLsb' 10 1) (w.extractLsb' 8 2))
  | 2 => rowRun w s (w.extractLsb' 1 2 == 0#2) ((w.extractLsb' 20 6 == 0#6 && w.extractLsb' 10 4 == 0#4 && w.extractLsb' 0 1 == 0#1) && true) (execWflush (w.extractLsb' 14 6) (w.extractLsb' 8 2))
  | 3 => rowRun w s (w.extractLsb' 1 2 == 0#2) ((w.extractLsb' 20 6 == 0#6 && w.extractLsb' 11 3 == 0#3 && w.extractLsb' 0 1 == 0#1) && true) (execWinv (w.extractLsb' 14 6) (w.extractLsb' 10 1) (w.extractLsb' 8 2))
  | 4 => rowRun w s (w.extractLsb' 1 2 == 0#2) ((w.extractLsb' 14 6 == 0#6 && w.extractLsb' 11 3 == 0#3 && w.extractLsb' 0 1 == 0#1) && true) (execWstat (w.extractLsb' 20 6) (w.extractLsb' 10 1) (w.extractLsb' 8 2))
  | 5 => rowRun w s (w.extractLsb' 1 2 == 0#2) ((w.extractLsb' 20 6 == 0#6 && w.extractLsb' 10 4 == 0#4 && w.extractLsb' 0 1 == 0#1) && true) (execWtouch (w.extractLsb' 14 6) (w.extractLsb' 8 2))
  | 6 => rowRun w s (w.extractLsb' 1 2 == 0#2) ((w.extractLsb' 20 6 == 0#6 && w.extractLsb' 14 6 == 0#6 && w.extractLsb' 11 3 == 0#3 && w.extractLsb' 0 1 == 0#1) && true) (execWkeep (w.extractLsb' 10 1) (w.extractLsb' 8 2))
  | _ => illegal w .unassignedFn s

theorem win_run (w : InstrWord) (s : State) : fate w s (decodeWin w) = runWin w s := by
  unfold decodeWin runWin
  split <;> rename_i h <;> first
    | ((try simp only [h]); exact row_run w s _ _ _)
    | rfl
    | (split <;> first | rfl | (exfalso; simp_all))

/-- Major 0x1F, compiled. -/
def runTkt (w : InstrWord) (s : State) : Out :=
  match (frFn w).toNat with
  | 0 => rowRun w s true ((w.extractLsb' 10 4 == 0#4) && ((w.extractLsb' 20 6) != 0)) (execTkld (w.extractLsb' 20 6) (w.extractLsb' 14 6) (w.extractLsb' 8 2) (w.extractLsb' 1 2) (w.extractLsb' 0 1))
  | 1 => rowRun w s true ((w.extractLsb' 10 4 == 0#4) && ((w.extractLsb' 20 6) != 0)) (execTkldw (w.extractLsb' 20 6) (w.extractLsb' 14 6) (w.extractLsb' 8 2) (w.extractLsb' 1 2) (w.extractLsb' 0 1))
  | 2 => rowRun w s (w.extractLsb' 1 2 == 0#2) ((w.extractLsb' 10 4 == 0#4 && w.extractLsb' 0 1 == 0#1) && ((w.extractLsb' 20 6) != 0)) (execTkldv (w.extractLsb' 20 6) (w.extractLsb' 14 6) (w.extractLsb' 8 2))
  | 3 => rowRun w s (w.extractLsb' 1 2 == 0#2) ((w.extractLsb' 8 6 == 0#6 && w.extractLsb' 0 1 == 0#1) && true) (execTkrd (w.extractLsb' 20 6) (w.extractLsb' 14 6))
  | 4 => rowRun w s (w.extractLsb' 1 2 == 0#2) ((w.extractLsb' 8 6 == 0#6 && w.extractLsb' 0 1 == 0#1) && true) (execTkrdv (w.extractLsb' 20 6) (w.extractLsb' 14 6))
  | 5 => rowRun w s (w.extractLsb' 1 2 == 0#2) ((w.extractLsb' 8 6 == 0#6 && w.extractLsb' 0 1 == 0#1) && true) (execTkrdq (w.extractLsb' 20 6) (w.extractLsb' 14 6))
  | 6 => rowRun w s (w.extractLsb' 1 2 == 0#2) ((w.extractLsb' 8 6 == 0#6 && w.extractLsb' 0 1 == 0#1) && true) (execTktest (w.extractLsb' 20 6) (w.extractLsb' 14 6))
  | 7 => rowRun w s (w.extractLsb' 1 2 == 0#2) ((w.extractLsb' 8 6 == 0#6 && w.extractLsb' 0 1 == 0#1) && true) (execTkdrop (w.extractLsb' 20 6) (w.extractLsb' 14 6))
  | _ => illegal w .unassignedFn s

theorem tkt_run (w : InstrWord) (s : State) : fate w s (decodeTkt w) = runTkt w s := by
  unfold decodeTkt runTkt
  split <;> rename_i h <;> first
    | ((try simp only [h]); exact row_run w s _ _ _)
    | rfl
    | (split <;> first | rfl | (exfalso; simp_all))

/-- Major 0x20, compiled. -/
def runPcl (w : InstrWord) (s : State) : Out :=
  match (frFn w).toNat with
  | 0 => rowRun w s (w.extractLsb' 1 2 == 0#2) ((w.extractLsb' 8 6 == 0#6 && w.extractLsb' 0 1 == 0#1) && true) (execPqry (w.extractLsb' 20 6) (w.extractLsb' 14 6))
  | 1 => rowRun w s (w.extractLsb' 1 2 == 0#2) ((w.extractLsb' 20 6 == 0#6 && w.extractLsb' 0 1 == 0#1) && true) (execPhint (w.extractLsb' 14 6) (w.extractLsb' 8 6))
  | 2 => rowRun w s (w.extractLsb' 1 2 == 0#2) ((w.extractLsb' 8 6 == 0#6 && w.extractLsb' 0 1 == 0#1) && true) (execPlogq (w.extractLsb' 20 6) (w.extractLsb' 14 6))
  | 3 => rowRun w s (w.extractLsb' 1 2 == 0#2) ((w.extractLsb' 8 6 == 0#6 && w.extractLsb' 0 1 == 0#1) && true) (execPfetch (w.extractLsb' 20 6) (w.extractLsb' 14 6))
  | 4 => rowRun w s (w.extractLsb' 1 2 == 0#2) ((w.extractLsb' 0 1 == 0#1) && true) (execPmigr (w.extractLsb' 20 6) (w.extractLsb' 14 6) (w.extractLsb' 8 6))
  | 5 => rowRun w s (w.extractLsb' 1 2 == 0#2) ((w.extractLsb' 14 6 == 0#6 && w.extractLsb' 8 6 == 0#6 && w.extractLsb' 0 1 == 0#1) && true) (execPnqpop (w.extractLsb' 20 6))
  | 6 => rowRun w s (w.extractLsb' 1 2 == 0#2) ((w.extractLsb' 0 1 == 0#1) && true) (execPkeep (w.extractLsb' 20 6) (w.extractLsb' 14 6) (w.extractLsb' 8 6))
  | _ => illegal w .unassignedFn s

theorem pcl_run (w : InstrWord) (s : State) : fate w s (decodePcl w) = runPcl w s := by
  unfold decodePcl runPcl
  split <;> rename_i h <;> first
    | ((try simp only [h]); exact row_run w s _ _ _)
    | rfl
    | (split <;> first | rfl | (exfalso; simp_all))

/-- Major 0x21, compiled. -/
def runAtm (w : InstrWord) (s : State) : Out :=
  match (w.extractLsb' 4 4).toNat with
  | 0 => faRun (w.extractLsb' 20 6 == 0#6) s (execRedAdd32 (w.extractLsb' 14 6) (w.extractLsb' 8 6) (w.extractLsb' 2 2) (w.extractLsb' 0 2)) (execAtmAdd (w.extractLsb' 20 6) (w.extractLsb' 14 6) (w.extractLsb' 8 6) (w.extractLsb' 2 2) (w.extractLsb' 0 2))
  | 1 => faRun (w.extractLsb' 20 6 == 0#6) s (execRedMin32 (w.extractLsb' 14 6) (w.extractLsb' 8 6) (w.extractLsb' 2 2) (w.extractLsb' 0 2)) (execAtmMin (w.extractLsb' 20 6) (w.extractLsb' 14 6) (w.extractLsb' 8 6) (w.extractLsb' 2 2) (w.extractLsb' 0 2))
  | 2 => faRun (w.extractLsb' 20 6 == 0#6) s (execRedMax32 (w.extractLsb' 14 6) (w.extractLsb' 8 6) (w.extractLsb' 2 2) (w.extractLsb' 0 2)) (execAtmMax (w.extractLsb' 20 6) (w.extractLsb' 14 6) (w.extractLsb' 8 6) (w.extractLsb' 2 2) (w.extractLsb' 0 2))
  | 3 => faRun (w.extractLsb' 20 6 == 0#6) s (execRedMinn32 (w.extractLsb' 14 6) (w.extractLsb' 8 6) (w.extractLsb' 2 2) (w.extractLsb' 0 2)) (execAtmMinn (w.extractLsb' 20 6) (w.extractLsb' 14 6) (w.extractLsb' 8 6) (w.extractLsb' 2 2) (w.extractLsb' 0 2))
  | 4 => faRun (w.extractLsb' 20 6 == 0#6) s (execRedMaxn32 (w.extractLsb' 14 6) (w.extractLsb' 8 6) (w.extractLsb' 2 2) (w.extractLsb' 0 2)) (execAtmMaxn (w.extractLsb' 20 6) (w.extractLsb' 14 6) (w.extractLsb' 8 6) (w.extractLsb' 2 2) (w.extractLsb' 0 2))
  | 5 => faRun (w.extractLsb' 20 6 == 0#6) s (execRedAnd32 (w.extractLsb' 14 6) (w.extractLsb' 8 6) (w.extractLsb' 2 2) (w.extractLsb' 0 2)) (execAtmAnd (w.extractLsb' 20 6) (w.extractLsb' 14 6) (w.extractLsb' 8 6) (w.extractLsb' 2 2) (w.extractLsb' 0 2))
  | 6 => faRun (w.extractLsb' 20 6 == 0#6) s (execRedOr32 (w.extractLsb' 14 6) (w.extractLsb' 8 6) (w.extractLsb' 2 2) (w.extractLsb' 0 2)) (execAtmOr (w.extractLsb' 20 6) (w.extractLsb' 14 6) (w.extractLsb' 8 6) (w.extractLsb' 2 2) (w.extractLsb' 0 2))
  | 7 => faRun (w.extractLsb' 20 6 == 0#6) s (execRedXor32 (w.extractLsb' 14 6) (w.extractLsb' 8 6) (w.extractLsb' 2 2) (w.extractLsb' 0 2)) (execAtmXor (w.extractLsb' 20 6) (w.extractLsb' 14 6) (w.extractLsb' 8 6) (w.extractLsb' 2 2) (w.extractLsb' 0 2))
  | 8 => rowRun w s true (true && ((w.extractLsb' 20 6) != 0)) (execAtmSwp (w.extractLsb' 20 6) (w.extractLsb' 14 6) (w.extractLsb' 8 6) (w.extractLsb' 2 2) (w.extractLsb' 0 2))
  | 9 => faRun (w.extractLsb' 20 6 == 0#6) s (execRedFadd32 (w.extractLsb' 14 6) (w.extractLsb' 8 6) (w.extractLsb' 2 2) (w.extractLsb' 0 2)) (execAtmFadd (w.extractLsb' 20 6) (w.extractLsb' 14 6) (w.extractLsb' 8 6) (w.extractLsb' 2 2) (w.extractLsb' 0 2))
  | 10 => faRun (w.extractLsb' 20 6 == 0#6) s (execRedFaddh32 (w.extractLsb' 14 6) (w.extractLsb' 8 6) (w.extractLsb' 2 2) (w.extractLsb' 0 2)) (execAtmFaddh (w.extractLsb' 20 6) (w.extractLsb' 14 6) (w.extractLsb' 8 6) (w.extractLsb' 2 2) (w.extractLsb' 0 2))
  | 11 => rowRun w s true (true && ((w.extractLsb' 20 6) != 0)) (execAtmCas (w.extractLsb' 20 6) (w.extractLsb' 14 6) (w.extractLsb' 8 6) (w.extractLsb' 2 2) (w.extractLsb' 0 2))
  | _ => illegal w .unassignedFn s

theorem atm_run (w : InstrWord) (s : State) : fate w s (decodeAtm w) = runAtm w s := by
  unfold decodeAtm runAtm
  split <;> rename_i h <;> first
    | ((try simp only [h]); first | exact fa_run w s _ _ _ | exact row_run w s _ _ _)
    | rfl
    | (split <;> first | rfl | (exfalso; simp_all))

/-- Major 0x22, compiled. -/
def runAtmd (w : InstrWord) (s : State) : Out :=
  match (w.extractLsb' 4 4).toNat with
  | 0 => faRun (w.extractLsb' 20 6 == 0#6) s (execRedAdd64 (w.extractLsb' 14 6) (w.extractLsb' 8 6) (w.extractLsb' 2 2) (w.extractLsb' 0 2)) (execAtmdAdd (w.extractLsb' 20 6) (w.extractLsb' 14 6) (w.extractLsb' 8 6) (w.extractLsb' 2 2) (w.extractLsb' 0 2))
  | 1 => faRun (w.extractLsb' 20 6 == 0#6) s (execRedMin64 (w.extractLsb' 14 6) (w.extractLsb' 8 6) (w.extractLsb' 2 2) (w.extractLsb' 0 2)) (execAtmdMin (w.extractLsb' 20 6) (w.extractLsb' 14 6) (w.extractLsb' 8 6) (w.extractLsb' 2 2) (w.extractLsb' 0 2))
  | 2 => faRun (w.extractLsb' 20 6 == 0#6) s (execRedMax64 (w.extractLsb' 14 6) (w.extractLsb' 8 6) (w.extractLsb' 2 2) (w.extractLsb' 0 2)) (execAtmdMax (w.extractLsb' 20 6) (w.extractLsb' 14 6) (w.extractLsb' 8 6) (w.extractLsb' 2 2) (w.extractLsb' 0 2))
  | 3 => faRun (w.extractLsb' 20 6 == 0#6) s (execRedMinn64 (w.extractLsb' 14 6) (w.extractLsb' 8 6) (w.extractLsb' 2 2) (w.extractLsb' 0 2)) (execAtmdMinn (w.extractLsb' 20 6) (w.extractLsb' 14 6) (w.extractLsb' 8 6) (w.extractLsb' 2 2) (w.extractLsb' 0 2))
  | 4 => faRun (w.extractLsb' 20 6 == 0#6) s (execRedMaxn64 (w.extractLsb' 14 6) (w.extractLsb' 8 6) (w.extractLsb' 2 2) (w.extractLsb' 0 2)) (execAtmdMaxn (w.extractLsb' 20 6) (w.extractLsb' 14 6) (w.extractLsb' 8 6) (w.extractLsb' 2 2) (w.extractLsb' 0 2))
  | 5 => faRun (w.extractLsb' 20 6 == 0#6) s (execRedAnd64 (w.extractLsb' 14 6) (w.extractLsb' 8 6) (w.extractLsb' 2 2) (w.extractLsb' 0 2)) (execAtmdAnd (w.extractLsb' 20 6) (w.extractLsb' 14 6) (w.extractLsb' 8 6) (w.extractLsb' 2 2) (w.extractLsb' 0 2))
  | 6 => faRun (w.extractLsb' 20 6 == 0#6) s (execRedOr64 (w.extractLsb' 14 6) (w.extractLsb' 8 6) (w.extractLsb' 2 2) (w.extractLsb' 0 2)) (execAtmdOr (w.extractLsb' 20 6) (w.extractLsb' 14 6) (w.extractLsb' 8 6) (w.extractLsb' 2 2) (w.extractLsb' 0 2))
  | 7 => faRun (w.extractLsb' 20 6 == 0#6) s (execRedXor64 (w.extractLsb' 14 6) (w.extractLsb' 8 6) (w.extractLsb' 2 2) (w.extractLsb' 0 2)) (execAtmdXor (w.extractLsb' 20 6) (w.extractLsb' 14 6) (w.extractLsb' 8 6) (w.extractLsb' 2 2) (w.extractLsb' 0 2))
  | 8 => rowRun w s true (true && ((w.extractLsb' 20 6) != 0)) (execAtmdSwp (w.extractLsb' 20 6) (w.extractLsb' 14 6) (w.extractLsb' 8 6) (w.extractLsb' 2 2) (w.extractLsb' 0 2))
  | 9 => faRun (w.extractLsb' 20 6 == 0#6) s (execRedFadd64 (w.extractLsb' 14 6) (w.extractLsb' 8 6) (w.extractLsb' 2 2) (w.extractLsb' 0 2)) (execAtmdFadd (w.extractLsb' 20 6) (w.extractLsb' 14 6) (w.extractLsb' 8 6) (w.extractLsb' 2 2) (w.extractLsb' 0 2))
  | 11 => rowRun w s true (true && ((w.extractLsb' 20 6) != 0)) (execAtmdCas (w.extractLsb' 20 6) (w.extractLsb' 14 6) (w.extractLsb' 8 6) (w.extractLsb' 2 2) (w.extractLsb' 0 2))
  | _ => illegal w .unassignedFn s

theorem atmd_run (w : InstrWord) (s : State) : fate w s (decodeAtmd w) = runAtmd w s := by
  unfold decodeAtmd runAtmd
  split <;> rename_i h <;> first
    | ((try simp only [h]); first | exact fa_run w s _ _ _ | exact row_run w s _ _ _)
    | rfl
    | (split <;> first | rfl | (exfalso; simp_all))

/-- Major 0x23, compiled. -/
def runSync (w : InstrWord) (s : State) : Out :=
  match (frFn w).toNat with
  | 0 => rowRun w s (w.extractLsb' 1 2 == 0#2) ((w.extractLsb' 24 2 == 0#2 && w.extractLsb' 16 4 == 0#4 && w.extractLsb' 10 4 == 0#4 && w.extractLsb' 0 1 == 0#1) && ((w.extractLsb' 20 4) != 0 && (w.extractLsb' 8 2) != 0)) (execSbar (w.extractLsb' 20 4) (w.extractLsb' 14 2) (w.extractLsb' 8 2))
  | 1 => rowRun w s true ((w.extractLsb' 20 6 == 0#6 && w.extractLsb' 0 1 == 0#1) && true) (execBari (w.extractLsb' 14 6) (w.extractLsb' 8 6) (w.extractLsb' 1 2))
  | 2 => rowRun w s true ((w.extractLsb' 8 6 == 0#6 && w.extractLsb' 0 1 == 0#1) && true) (execBarv (w.extractLsb' 20 6) (w.extractLsb' 14 6) (w.extractLsb' 1 2))
  | 3 => rowRun w s true ((w.extractLsb' 20 6 == 0#6 && w.extractLsb' 0 1 == 0#1) && true) (execBarw (w.extractLsb' 14 6) (w.extractLsb' 8 6) (w.extractLsb' 1 2))
  | 4 => rowRun w s true ((w.extractLsb' 0 1 == 0#1) && true) (execBarwt (w.extractLsb' 20 6) (w.extractLsb' 14 6) (w.extractLsb' 8 6) (w.extractLsb' 1 2))
  | 5 => rowRun w s true ((w.extractLsb' 0 1 == 0#1) && true) (execWaitv (w.extractLsb' 20 6) (w.extractLsb' 14 6) (w.extractLsb' 8 6) (w.extractLsb' 1 2))
  | 6 => rowRun w s ((w.extractLsb' 1 2 == 0#2 || w.extractLsb' 1 2 == 3#2)) ((w.extractLsb' 21 5 == 0#5 && w.extractLsb' 0 1 == 0#1) && ((w.extractLsb' 1 2) == 0 || (w.extractLsb' 1 2) == 3)) (execAccdecl (w.extractLsb' 20 1) (w.extractLsb' 14 6) (w.extractLsb' 8 6) (w.extractLsb' 1 2))
  | 7 => rowRun w s (w.extractLsb' 1 2 == 0#2) ((w.extractLsb' 21 5 == 0#5 && w.extractLsb' 0 1 == 0#1) && true) (execVacc (w.extractLsb' 20 1) (w.extractLsb' 14 6) (w.extractLsb' 8 6))
  | 8 => rowRun w s (w.extractLsb' 1 2 == 0#2) ((w.extractLsb' 14 6 == 0#6 && w.extractLsb' 9 5 == 0#5 && w.extractLsb' 0 1 == 0#1) && true) (execAccmerge (w.extractLsb' 20 6) (w.extractLsb' 8 1))
  | 9 => rowRun w s (w.extractLsb' 1 2 == 0#2) ((w.extractLsb' 20 6 == 0#6 && w.extractLsb' 14 6 == 0#6 && w.extractLsb' 9 5 == 0#5 && w.extractLsb' 0 1 == 0#1) && true) (execAccrel (w.extractLsb' 8 1))
  | _ => illegal w .unassignedFn s

theorem sync_run (w : InstrWord) (s : State) : fate w s (decodeSync w) = runSync w s := by
  unfold decodeSync runSync
  split <;> rename_i h <;> first
    | ((try simp only [h]); exact row_run w s _ _ _)
    | rfl
    | (split <;> first | rfl | (exfalso; simp_all))

/-- Major 0x24, compiled. -/
def runEng (w : InstrWord) (s : State) : Out :=
  match (frFn w).toNat with
  | 0 => rowRun w s (w.extractLsb' 1 2 == 0#2) ((w.extractLsb' 8 6 == 0#6 && w.extractLsb' 0 1 == 0#1) && true) (execEstr (w.extractLsb' 20 6) (w.extractLsb' 14 6))
  | 1 => rowRun w s (w.extractLsb' 1 2 == 0#2) ((w.extractLsb' 20 6 == 0#6 && w.extractLsb' 0 1 == 0#1) && true) (execEpush (w.extractLsb' 14 6) (w.extractLsb' 8 6))
  | 2 => rowRun w s (w.extractLsb' 1 2 == 0#2) ((w.extractLsb' 8 6 == 0#6 && w.extractLsb' 0 1 == 0#1) && true) (execEpop (w.extractLsb' 20 6) (w.extractLsb' 14 6))
  | 3 => rowRun w s (w.extractLsb' 1 2 == 0#2) ((w.extractLsb' 8 6 == 0#6 && w.extractLsb' 0 1 == 0#1) && true) (execEwm (w.extractLsb' 20 6) (w.extractLsb' 14 6))
  | 4 => rowRun w s (w.extractLsb' 1 2 == 0#2) ((w.extractLsb' 20 6 == 0#6 && w.extractLsb' 0 1 == 0#1) && true) (execEwait (w.extractLsb' 14 6) (w.extractLsb' 8 6))
  | 5 => rowRun w s (w.extractLsb' 1 2 == 0#2) ((w.extractLsb' 0 1 == 0#1) && true) (execEchan (w.extractLsb' 20 6) (w.extractLsb' 14 6) (w.extractLsb' 8 6))
  | 6 => rowRun w s (w.extractLsb' 1 2 == 0#2) ((w.extractLsb' 0 1 == 0#1) && true) (execEgang (w.extractLsb' 20 6) (w.extractLsb' 14 6) (w.extractLsb' 8 6))
  | 7 => rowRun w s (w.extractLsb' 1 2 == 0#2) ((w.extractLsb' 8 6 == 0#6 && w.extractLsb' 0 1 == 0#1) && true) (execEcancel (w.extractLsb' 20 6) (w.extractLsb' 14 6))
  | 8 => rowRun w s (w.extractLsb' 1 2 == 0#2) ((w.extractLsb' 8 6 == 0#6 && w.extractLsb' 0 1 == 0#1) && true) (execEstat (w.extractLsb' 20 6) (w.extractLsb' 14 6))
  | 9 => rowRun w s (w.extractLsb' 1 2 == 0#2) ((w.extractLsb' 8 6 == 0#6 && w.extractLsb' 0 1 == 0#1) && true) (execUien (w.extractLsb' 20 6) (w.extractLsb' 14 6))
  | 10 => rowRun w s (w.extractLsb' 1 2 == 0#2) ((w.extractLsb' 20 6 == 0#6 && w.extractLsb' 14 6 == 0#6 && w.extractLsb' 8 6 == 0#6 && w.extractLsb' 0 1 == 0#1) && true) execUiret
  | _ => illegal w .unassignedFn s

theorem eng_run (w : InstrWord) (s : State) : fate w s (decodeEng w) = runEng w s := by
  unfold decodeEng runEng
  split <;> rename_i h <;> first
    | ((try simp only [h]); exact row_run w s _ _ _)
    | rfl
    | (split <;> first | rfl | (exfalso; simp_all))

/-- Major 0x25, compiled. -/
def runSys (w : InstrWord) (s : State) : Out :=
  match (frFn w).toNat with
  | 0 => rowRun w s (w.extractLsb' 1 2 == 0#2) ((w.extractLsb' 20 6 == 0#6 && w.extractLsb' 14 6 == 0#6 && w.extractLsb' 0 1 == 0#1) && true) (execSvc (w.extractLsb' 8 6))
  | 1 => rowRun w s (w.extractLsb' 1 2 == 0#2) ((w.extractLsb' 20 6 == 0#6 && w.extractLsb' 14 6 == 0#6 && w.extractLsb' 0 1 == 0#1) && true) (execBrk (w.extractLsb' 8 6))
  | 2 => rowRun w s (w.extractLsb' 1 2 == 0#2) ((w.extractLsb' 20 6 == 0#6 && w.extractLsb' 14 6 == 0#6 && w.extractLsb' 8 6 == 0#6 && w.extractLsb' 0 1 == 0#1) && true) execRett
  | 3 => rowRun w s (w.extractLsb' 1 2 == 0#2) ((w.extractLsb' 14 6 == 0#6 && w.extractLsb' 8 6 == 0#6 && w.extractLsb' 0 1 == 0#1) && true) (execWfi (w.extractLsb' 20 6))
  | 4 => rowRun w s (w.extractLsb' 1 2 == 0#2) ((w.extractLsb' 0 1 == 0#1) && true) (execTlbinv (w.extractLsb' 20 6) (w.extractLsb' 14 6) (w.extractLsb' 8 6))
  | 5 => rowRun w s (w.extractLsb' 1 2 == 0#2) ((w.extractLsb' 8 6 == 0#6 && w.extractLsb' 0 1 == 0#1) && true) (execCtxsv (w.extractLsb' 20 6) (w.extractLsb' 14 6))
  | 6 => rowRun w s (w.extractLsb' 1 2 == 0#2) ((w.extractLsb' 0 1 == 0#1) && true) (execCtxld (w.extractLsb' 20 6) (w.extractLsb' 14 6) (w.extractLsb' 8 6))
  | 7 => rowRun w s (w.extractLsb' 1 2 == 0#2) ((w.extractLsb' 8 6 == 0#6 && w.extractLsb' 0 1 == 0#1) && true) (execLnpurge (w.extractLsb' 20 6) (w.extractLsb' 14 6))
  | _ => illegal w .unassignedFn s

theorem sys_run (w : InstrWord) (s : State) : fate w s (decodeSys w) = runSys w s := by
  unfold decodeSys runSys
  split <;> rename_i h <;> first
    | ((try simp only [h]); exact row_run w s _ _ _)
    | rfl
    | (split <;> first | rfl | (exfalso; simp_all))

/-- Major 0x26, compiled. -/
def runTrc (w : InstrWord) (s : State) : Out :=
  match (frFn w).toNat with
  | 0 => rowRun w s (w.extractLsb' 1 2 == 0#2) ((w.extractLsb' 20 6 == 0#6 && w.extractLsb' 0 1 == 0#1) && true) (execTmark (w.extractLsb' 14 6) (w.extractLsb' 8 6))
  | 1 => rowRun w s (w.extractLsb' 1 2 == 0#2) ((w.extractLsb' 14 6 == 0#6 && w.extractLsb' 11 3 == 0#3 && w.extractLsb' 0 1 == 0#1) && true) (execTcnt (w.extractLsb' 20 6) (w.extractLsb' 8 3))
  | _ => illegal w .unassignedFn s

theorem trc_run (w : InstrWord) (s : State) : fate w s (decodeTrc w) = runTrc w s := by
  unfold decodeTrc runTrc
  split <;> rename_i h <;> first
    | ((try simp only [h]); exact row_run w s _ _ _)
    | rfl
    | (split <;> first | rfl | (exfalso; simp_all))

/-- Run a word, compiled. -/
def runWordFast (w : InstrWord) (s : State) : Out :=
  match (majorOf w).toNat with
  | 0 => if w = 0 then illegal w .zeroWord s else illegal w .majorZero s
  | 1 => runAlu w s
  | 2 => execAddi (w.extractLsb' 20 6) (w.extractLsb' 14 6) (w.extractLsb' 0 14) s
  | 3 => execAndi (w.extractLsb' 20 6) (w.extractLsb' 14 6) (w.extractLsb' 0 14) s
  | 4 => execOri (w.extractLsb' 20 6) (w.extractLsb' 14 6) (w.extractLsb' 0 14) s
  | 5 => execXori (w.extractLsb' 20 6) (w.extractLsb' 14 6) (w.extractLsb' 0 14) s
  | 6 => execSlti (w.extractLsb' 20 6) (w.extractLsb' 14 6) (w.extractLsb' 0 14) s
  | 7 => execSltni (w.extractLsb' 20 6) (w.extractLsb' 14 6) (w.extractLsb' 0 14) s
  | 8 => execLui (w.extractLsb' 20 6) (w.extractLsb' 0 20) s
  | 9 => execAuipc (w.extractLsb' 20 6) (w.extractLsb' 0 20) s
  | 10 => execJal (w.extractLsb' 20 6) (w.extractLsb' 0 20) s
  | 11 => execJalr (w.extractLsb' 20 6) (w.extractLsb' 14 6) (w.extractLsb' 0 14) s
  | 12 => runBr w s
  | 13 => fmRun w s ((w.extractLsb' 2 2) != 3 && !((w.extractLsb' 2 2) == 0 && (w.extractLsb' 0 2) != 0)) (execLd (w.extractLsb' 20 6) (w.extractLsb' 14 6) (w.extractLsb' 8 6) (w.extractLsb' 6 2) (w.extractLsb' 4 2) (w.extractLsb' 2 2) (w.extractLsb' 0 2))
  | 14 => fmRun w s ((w.extractLsb' 2 2) != 3 && !((w.extractLsb' 2 2) == 0 && (w.extractLsb' 0 2) != 0)) (execLdz (w.extractLsb' 20 6) (w.extractLsb' 14 6) (w.extractLsb' 8 6) (w.extractLsb' 6 2) (w.extractLsb' 4 2) (w.extractLsb' 2 2) (w.extractLsb' 0 2))
  | 15 => fmRun w s ((w.extractLsb' 2 2) != 3 && !((w.extractLsb' 2 2) == 0 && (w.extractLsb' 0 2) != 0)) (execSt (w.extractLsb' 20 6) (w.extractLsb' 14 6) (w.extractLsb' 8 6) (w.extractLsb' 6 2) (w.extractLsb' 4 2) (w.extractLsb' 2 2) (w.extractLsb' 0 2))
  | 16 => runFps w s
  | 17 => runCsr w s
  | 18 => runStr w s
  | 19 => runQue w s
  | 20 => runValu w s
  | 21 => runVfp w s
  | 22 => runVcmp w s
  | 23 => runPred w s
  | 24 => runVperm w s
  | 25 => runVld w s
  | 26 => runVst w s
  | 27 => runVctl w s
  | 28 => runTile w s
  | 29 => runTop w s
  | 30 => runWin w s
  | 31 => runTkt w s
  | 32 => runPcl w s
  | 33 => runAtm w s
  | 34 => runAtmd w s
  | 35 => runSync w s
  | 36 => runEng w s
  | 37 => runSys w s
  | 38 => runTrc w s
  | 63 => illegal w .reservedMajor s
  | _ => illegal w .unassignedMajor s

theorem runWord_fast (w : InstrWord) (s : State) : runWord w s = runWordFast w s := by
  show fate w s (decode w) = runWordFast w s
  unfold decode runWordFast
  split <;> rename_i h
  · try simp only [h]
    split <;> rfl
  · try simp only [h]
    exact alu_run w s
  · try simp only [h]
    exact rfl
  · try simp only [h]
    exact rfl
  · try simp only [h]
    exact rfl
  · try simp only [h]
    exact rfl
  · try simp only [h]
    exact rfl
  · try simp only [h]
    exact rfl
  · try simp only [h]
    exact rfl
  · try simp only [h]
    exact rfl
  · try simp only [h]
    exact rfl
  · try simp only [h]
    exact rfl
  · try simp only [h]
    exact br_run w s
  · try simp only [h]
    exact fm_run w s _
  · try simp only [h]
    exact fm_run w s _
  · try simp only [h]
    exact fm_run w s _
  · try simp only [h]
    exact fps_run w s
  · try simp only [h]
    exact csr_run w s
  · try simp only [h]
    exact str_run w s
  · try simp only [h]
    exact que_run w s
  · try simp only [h]
    exact valu_run w s
  · try simp only [h]
    exact vfp_run w s
  · try simp only [h]
    exact vcmp_run w s
  · try simp only [h]
    exact pred_run w s
  · try simp only [h]
    exact vperm_run w s
  · try simp only [h]
    exact vld_run w s
  · try simp only [h]
    exact vst_run w s
  · try simp only [h]
    exact vctl_run w s
  · try simp only [h]
    exact tile_run w s
  · try simp only [h]
    exact top_run w s
  · try simp only [h]
    exact win_run w s
  · try simp only [h]
    exact tkt_run w s
  · try simp only [h]
    exact pcl_run w s
  · try simp only [h]
    exact atm_run w s
  · try simp only [h]
    exact atmd_run w s
  · try simp only [h]
    exact sync_run w s
  · try simp only [h]
    exact eng_run w s
  · try simp only [h]
    exact sys_run w s
  · try simp only [h]
    exact trc_run w s
  · first | rfl | simp only [h]
  · first | rfl | (split <;> first | (rename_i hh; exact absurd hh (by assumption)) | rfl)

/-- The compiler runs words by the form that builds no instruction. -/
@[csimp] theorem runWord_eq : @runWord = @runWordFast := by
  funext w s
  exact runWord_fast w s

end Sys2Proof.Machine
end

