-- ==== Sys2Proof/Machine/Turn.lean ====
section
/-! DEFINITION. One turn of the machine: a strand issues its next instruction (R29, R45, R108, R369, R370), or a device
event happens; which of them moves is left open (R102, DESIGN CHOICE, log entry 4). -/

namespace Sys2Proof.Machine

/-! Fetch. -/

/-- The word at the program counter of the executing strand: check 1 of R45, the aperture rule of R29, and poison
(DEDUCED, log entry 23). The read is a transfer of its line like any other (R217). -/
def fetch (s : State) : Except Trap (InstrWord × State) :=
  let t := s.me
  if t.pc.toNat % 4 ≠ 0 then .error ⟨5, 0, t.pc⟩
  else if (apertureOffset t.pc).isSome then .error ⟨7, 2, t.pc⟩
  else match translate s t.core t.firmware t.ctx t.pc with
    | .error x => .error x
    | .ok (l, s) =>
      match checkLeaf .fetch l t.pc with
      | some x => .error x
      | none =>
        if poisonedAt s l 4 then .error ⟨11, 0, t.pc⟩
        else .ok (leWord 32 (decrypted s l (homeRead s l.pa 4)), touchRead s l.pa t.ctx t.pc l.counterEnable)

/-- Whether an enabled instruction breakpoint matches the program counter (R363, R369). -/
def breakpoint (t : Strand) : Bool :=
  !t.bpSkip && (List.range 4).any fun i =>
    let b := Tab.get 0 t.bpAddr i
    b.getLsbD 0 && b &&& ~~~(3 : Word) = t.pc

/-- The words that end a skipping strand's discarding: ENDLOOP of the skipping slot (R108). -/
def endsSkip (t : Strand) (w : InstrWord) : Bool :=
  (List.range 4).any fun n => (Tab.get LoopSlot.zero t.loops n).skip && w = BitVec.ofNat 32 (0x48000028 + n * 256)

/-- Run the word at the program counter. A parked instruction keeps the breakpoint suppression of RETT, since it issues
again (R369). -/
def issueWord (s : State) : Out :=
  let t := s.me
  match fetch s with
  | .error x => .next (takeTrap (s.updMe fun t => { t with bpSkip := false }) s.cur x false false)
  | .ok (w, s) =>
    match runWord w (if t.bpSkip then s.updMe fun t => { t with bpSkip := false } else s) with
    | .next s' => .next (match (s'.strand s.cur).run with
      | .parked _ => if t.bpSkip then s'.updStrand s.cur fun t => { t with bpSkip := true } else s'
      | _ => s')
    | .fault r => .fault r
    | .refused r => .refused r

/-- A skipping strand fetches a word and discards it, or executes the ENDLOOP that it looks for, which is an issued instruction like
any other (R108, R438; DEDUCED, log entry 97). -/
def skipWord (s : State) : Out :=
  let s := if s.me.bpSkip then s.updMe fun t => { t with bpSkip := false } else s
  match fetch s with
  | .error x => .next (takeTrap s s.cur x false false)
  | .ok (w, s) =>
    if endsSkip s.me w then runWord w s
    else .next (s.updMe fun t => { t with pc := t.pc + 4 })

/-- A breakpoint taken on a vector memory instruction that is partly done writes its element and VDONE records first (R411). -/
def recordElements (s : State) : State :=
  let t := s.me
  if t.vstart = 0 && t.vdone = 0 then s
  else match fetch s with
    | .error _ => s
    | .ok (w, _) => if w.toNat / 2 ^ 26 = 25 || w.toNat / 2 ^ 26 = 26 then elementRecords s s.cur else s

/-- One issue opportunity of the executing strand: a pending cause 20 first (R370), then the breakpoint (R369). A strand whose operation
replay has held at its place takes no cause 20 before it is performed (R416). -/
def issue (s : State) : Out :=
  let t := s.me
  match t.async20 with
  | some tag =>
    if t.trapStat.getLsbD 0 || t.atPlace.isSome then go s t
    else .next (takeTrap ((pipeStop s s.cur).updMe fun t => { t with async20 := none, bpSkip := false, waitGen := 0 }) s.cur ⟨20, 0, tag⟩ true t.part.begun)
  | none => go s t
where
  /-- At no pending cause, the strand issues or skips. -/
  go (s : State) (t : Strand) : Out :=
    if t.run = .skipping then skipWord s
    else if breakpoint t then .next (takeTrap (recordElements s) s.cur ⟨16, 1, t.pc⟩ false false)
    else issueWord s

/-- A strand stops for the save or the move of its unit that has begun, once an operation of its that replay held at its place has been
performed: a step of that operation stands between its instructions (R354, R374, R416). -/
def settleStop (s : State) (u : Nat) : State :=
  let t := s.strand u
  if t.atPlace.isSome || t.run.away then s
  else if s.preempts.any fun p => p.members.contains u then (pipeStop s u).updStrand u fun t => t.preempt s
  else if s.moves.any fun m => (m.target.isSome || (s.strand m.uid).run = .migrating) && (s.couple m.uid).contains u then
    (pipeStop s u).updStrand u fun t => t.stop s .migrating
  else s

/-! Candidates. -/

/-- What can move next. -/
inductive Cand where
  /-- a device event in flight, by its place in the agenda -/
  | flight (n : Nat)
  | event (i : Instr)
  | strand (u : Nat)
  deriving DecidableEq, Repr

/-- A strand that may issue: Ready or Skipping, and its context not lost (R93, R102, R373). -/
def Strand.inRotation (t : Strand) : Bool := t.run = .ready || t.run = .skipping

/-- Whether a strand's next issue opportunity passes to the others of its core: it has yielded, and another one is in the
rotation (R107). -/
def givesWay (s : State) (u : Nat) (t : Strand) : Bool :=
  (s.core t.core).yielded = some u && s.strands.any fun p => p.1 != u && p.2.core = t.core && p.2.inRotation

/-- Whether a strand that has resumed still waits for what it had issued before it stopped (R345). -/
def Strand.fenced (s : State) (u : Nat) (t : Strand) : Bool := t.fence && unsettled s u

/-- The strands that may issue. -/
def issuers (s : State) : List Nat :=
  (s.strands.filter fun p => p.2.inRotation && !takesInterrupt p.2 && !givesWay s p.1 p.2 && !p.2.fenced s p.1).map Prod.fst

/-- A strand's fence of R345 is over: nothing of its is on its way, and it has acquired at scope system. -/
def passFence (s : State) (u : Nat) : State :=
  if (s.strand u).fence then (selfInvalidate s (s.strand u).core 3).updStrand u fun t => { t with fence := false } else s

/-- A strand's turn. -/
def strandTurn (s : State) (u : Nat) : Out :=
  let out := issue { passFence (s.updCore (s.strand u).core fun c => { c with yielded := none }) u with cur := u }
  if (s.strand u).atPlace.isSome then
    match out with
    | .next s' => .next (settleStop s' u)
    | o => o
  else out

/-- Everything that can move next. -/
def candidates (s : State) : List Cand :=
  ((List.range s.agenda.length).filter (mayLand s)).map .flight
    ++ (due s).map .event
    ++ (issuers s).map .strand

/-- Whether nothing can move but evictions and samples. -/
def deviceIdle (s : State) : Bool :=
  (duties s).isEmpty && (issuers s).isEmpty && !((List.range s.agenda.length).any (mayLand s))

/-- Places where playback holds an event of a context that cannot go on: the event that the log names there cannot arrive, since nothing that it
could come from is left, or nothing at all can move (R417; DEDUCED, log entry 53). -/
def stuckPlaces (s : State) : List (Nat × Nat) :=
  let held := (List.range 4).flatMap fun d => (heldPlayback s d).map fun c => (d, c)
  if held.isEmpty then []
  else if deviceIdle s then held
  else held.filter fun h => !namedComes s h.2 h.1

/-- Playback stops where it is stuck. -/
def stopPlayback (s : State) (stuck : List (Nat × Nat)) : State := stuck.foldl (init := s) fun s h => notReplayable s h.2 h.1

/-- One candidate moves. -/
def Cand.run (s : State) : Cand → Out
  | .flight n =>
    match s.agenda[n]? with
    | some i => exec i { s with agenda := s.agenda.eraseIdx n }
    | none => .next s
  | .event i => exec i s
  | .strand u => strandTurn s u

/-- A booth entry that has outlived its lifetime, as global slice and entry: expiry falls at the end of its cycle (R287, R288). -/
def lapsed (s : State) : Option (Nat × Nat) :=
  ((List.range 4).filter fun d => !(s.die d).fenced).findSome? fun d =>
    ((s.die d).booths.find? fun b => boothExpired s b.2).map fun b => (32 * d + b.1 / 2048, b.1 % 2048)

/-- A base die at which a hold of replay has lasted 1 ms. -/
def holdLapsed (s : State) : Option Nat := (List.range 4).find? fun d => !(s.die d).fenced && holdExpires s d

/-- What is over a deadline happens before anything else: a hold of replay ends (R416), a cap that Naing set 1 ms ago is kept
(R429), a booth entry expires (R287), a BARWT answers, for which a phase that changes later is too late (R302), and a search for a core ends, or takes a core that was free by then (R352; DEDUCED, log entry 82). -/
def overdue (s : State) : Option Instr :=
  match s.strands.find? fun p => p.2.barwts.any (barwtOver s p.1) with
  | some p => some (.barwtDeadline p.1)
  | none => match holdLapsed s with
  | some d => some (.replayHoldExpiry d)
  | none =>
  if powerWanted s && s.module.capSet.any fun t => decide (t + 56000000 ≤ s.clock) then some (.powerCapThrottle (powerRate s))
  else match lapsed s with
  | some (slice, entry) => some (.ticketExpiry slice entry)
  | none => (s.moves.find? fun (m : Move) => m.target.isNone && decide (m.deadline < s.time) && (s.strand m.uid).run != .migrating).map
      fun m => if (movable s m).isSome then .migrationCoreFreed m.uid else .migrationSearchExpiry m.uid

/-- One turn. -/
def turn (s : State) : Out :=
  let s := noteHolds s
  match overdue s with
  | some i => exec i s
  | none =>
    match stuckPlaces s with
    | h :: hs => .next (stopPlayback s (h :: hs))
    | [] => match candidates s with
      | [] => .next s
      | [c] => c.run s
      | c :: cs => ((c :: cs).getD (Config.choice s.tick % (cs.length + 1)) c).run s

/-! Placing a word (DESIGN CHOICE, log entry 3). -/

/-- Whether a word is one of the firmware-only instructions (R44, R379). -/
def firmwareWord (w : Nat) : Bool := w / 2 ^ 26 = 0x25 && decide (2 ≤ w / 8 % 32)

/-- A core of base die 0 whose class executes a word (R38): core 0 for ESTR, an M-core for the tile majors, else a
V-core. -/
def coreForWord (w : Nat) : Nat :=
  let op := w / 2 ^ 26
  if op = 0x24 ∧ w / 8 % 32 = 0 then 0 else if op = 0x1C ∨ op = 0x1D then 56 else 8

/-- The physical addresses of the tables and of the code parcel that a placed word uses. -/
def placedTable (level : Nat) : Nat := 0x10000 * (4 - level)
/-- The code parcel. -/
def placedCode : Nat := 0x40000

/-- The strand that issues a placed word. -/
def placedStrand (w : Nat) : Strand :=
  { Strand.blank with
    run := .ready
    pc := 0x10000
    ctx := 1
    core := coreForWord w
    gvl := 64
    firmware := firmwareWord w
    allotSize := 4096
    ticketQuota := 4096
    travel := ⟨4, [], 7, 1, 0, 0, 0, 0⟩ }

/-- The memory that a placed word needs: three table entries and the word. -/
def placedMemory (m : List Host.Cell) (w : Nat) : List Host.Cell :=
  let e1 := memStore m (placedTable 3) (leBytes 8 (placedTable 2 + 1))
  let e2 := memStore e1 (placedTable 2) (leBytes 8 (placedTable 1 + 1))
  let e3 := memStore e2 (placedTable 1 + 8) (leBytes 8 (placedCode + 0x8000 + 8 + 4 + 1))
  memStore e3 placedCode (leBytes 4 w)

/-- The state in which strand 1 of context 1 is about to issue word w at address 0x10000. -/
def placeWord (s : State) (w : Nat) : State :=
  { s with
    strands := [(1, placedStrand w)]
    agenda := []
    nextUid := 2
    contexts := [(1, { Context.blank with live := true, root := placedTable 3 })]
    mem := placedMemory s.mem w
    module := { s.module with
      bootStat := 3
      root := placedTable 3
      keys := [(0, some 1)] } }

end Sys2Proof.Machine
end

