-- ==== Sys2Proof/Machine/Step.lean ====
section
/-! DEFINITION. The step of the machine, and the state in which a word is the next instruction (DESIGN CHOICE, log entry 3). -/

namespace Sys2Proof.Machine

/-- One step: the clock runs on (R15, DESIGN CHOICE, log entry 5), then one strand or one device event moves. -/
def step (s : State) : Host.Outcome State Fault Refusal :=
  turn { s with tick := s.tick + 1, clock := s.clock + Config.stepTime s.tick }

/-- The state with an instruction word placed where the next step fetches: the module is up, context 1 is live, its
code parcel is mapped executable, and strand 1 is Ready at the word on a core that executes it (DESIGN CHOICE, log entry 3). -/
def State.withFetchWord (s : State) (nbits w : Nat) : State := placeWord s (w % 2 ^ nbits)

end Sys2Proof.Machine
end

