-- ==== Sys2Proof/Safety.lean ====
section
/-! DEFINITION. The terms in which claims are stated: safe states, and what it is for an instruction to complete. -/

namespace Sys2Proof.Machine

/-- The state's physical memory is in canonical form, so that equal memories are equal data (DESIGN CHOICE, log entry 85). -/
def State.canonical (s : State) : Prop := Memory.wf s.mem = true

/-- A step from the state gives a next state. -/
def goesOn (s : State) : Prop := ∃ s', step s = .next s'

/-- A state is safe when its memory is canonical and the machine goes on. -/
def State.safe (s : State) : Prop := s.canonical ∧ goesOn s

/-! The step. -/

/-- The state in which a step looks for what can move next: the clock has run on, and the events that replay holds are noted. -/
def State.ticked (s : State) : State :=
  noteHolds { s with tick := s.tick + 1, clock := s.clock + Config.stepTime s.tick }

/-- The step lets strand u issue: it is the candidate that the free order picks (DESIGN CHOICE, log entry 4). -/
def letsIssue (s : State) (u : Nat) : Prop :=
  overdue s.ticked = none ∧ stuckPlaces s.ticked = [] ∧ ∃ c cs, candidates s.ticked = c :: cs ∧
    (c :: cs).getD (Config.choice s.ticked.tick % (cs.length + 1)) c = .strand u

/-- The state in which strand u issues: a resumed strand's fence is over (R345). -/
def State.issuing (s : State) (u : Nat) : State :=
  { passFence (s.ticked.updCore (s.ticked.strand u).core fun c => { c with yielded := none }) u with cur := u }

/-- What a step of strand u leaves, where t is what its issue gave: a strand whose operation stood at its place stops then for the save
or the move of its unit that has begun (R416). -/
def State.settled (s : State) (u : Nat) (t : State) : State :=
  if (s.ticked.strand u).atPlace.isSome then settleStop t u else t

/-- An effect on the state stops with a trap. -/
def stops {α : Type} (m : M α) (s : State) (x : Trap) : Prop := ∃ e, m s = .error (.trap x) e

/-- A trap with which part m of the instruction's effect, begun in s1, stops is taken, and the instruction has no effect (R46); that
trap is neither the class-missing trap nor one of cause 13. -/
def trapsWith {α : Type} (i : Instr) (s : State) (m : M α) (s1 : State) : Prop :=
  ∀ x, stops m s1 x → x.cause ≠ 3 → x.cause ≠ 13 → x.isEffect = false → exec i s = .next (takeTrap s s.cur x false false)

/-- A strand apart from its program counter and the counts that completion advances (R360, R438). -/
def Strand.uncounted (t : Strand) : Strand :=
  { t with pc := 0, issued := 0, travel := { t.travel with issued := 0, away := 0 } }

/-- The device apart from its strands and the events in flight. -/
def State.device (s : State) : State := { s with strands := [], agenda := [] }

/-- The state t is e after the instruction that strand s.cur issued in s has completed with its program counter at pc:
beside the program counter only ISSUED has advanced (R438), the counts of R360, and perhaps a proactive return is due. -/
structure Completed (s e : State) (pc : Word) (t : State) : Prop where
  pc_at : (t.strand s.cur).pc = pc
  pc_others : ∀ u, u ≠ s.cur → (t.strand u).pc = (e.strand u).pc
  strands : ∀ u, (t.strand u).uncounted = (e.strand u).uncounted
  issued : ∀ u, (t.strand u).issued =
    (e.strand u).issued + (if u = s.cur ∧ s.me.firmware = false then 1 else 0)
  device : t.device = e.device
  agenda : t.agenda = e.agenda ∨ t.agenda = e.agenda ++ [.proactiveReturn (e.owner s.cur)]

/-- The instruction completes: its effect is the state e, and its strand goes on at pc. -/
def completesWith (i : Instr) (s e : State) (pc : Word) : Prop := ∃ t, exec i s = .next t ∧ Completed s e pc t

/-- The operand fields pass checks 6 and 7 of R45 for the executing strand. -/
def admitted (s : State) (ops : List Opnd) : Prop := ∀ o ∈ ops, o.bad = none ∧ o.badQueue s s.cur = none

/-- The executing strand's core is of one of the classes of the mask: bit 0 C, bit 1 V, bit 2 M (R348). -/
def onClass (s : State) (classes : Nat) : Prop := classes.testBit (classOf s s.me.core) = true

/-- A class-missing trap is emulated for a reason: Carousel's record is written, the strand enters its handler, and MIGCNT.EMU counts
it (R358, R361, R362). -/
def emulated (s : State) (u : Nat) (w : InstrWord) (reason : Nat) : State :=
  countEmulation ((migrationRec s u 0x32 (s.strand u).slot (s.strand u).core (s.strand u).core reason 0).updStrand u fun t =>
    t.enterEmulation w reason) u

/-- What an effect on the state answers when it does not stop. -/
def answers {α : Type} (m : M α) (s : State) (a : α) (s' : State) : Prop := m s = .ok a s'

/-- A strand apart from its scalar registers, full bits and queues. -/
def Strand.sansScalar (t : Strand) : Strand := { t with x := [], full := 0, queues := [] }

/-- What reading scalar operands and writing the destination field d may change between s and e: register d of the
executing strand, full bits and queues; no other register, no byte of memory, nothing else of the device. -/
structure ScalarOnly (d : BitVec 6) (s e : State) : Prop where
  device : e.device = s.device
  agenda : e.agenda = s.agenda
  strands : ∀ u, (e.strand u).sansScalar = (s.strand u).sansScalar
  regs : ∀ u r, (u ≠ s.cur ∨ r ≠ d.toNat) → (e.strand u).reg r = (s.strand u).reg r
  memory : ∀ a, memByte e.mem a = memByte s.mem a

/-- The result of an ALU form (R115): t = 0 computes on 64 bits, t = 1 on the low 32 bits, sign-extended. -/
def aluValue (t : BitVec 1) (r64 : Word) (r32 : BitVec 32) : Word := if t = 0 then r64 else r32.signExtend 64

/-- A scalar instruction of operands a and b and destination d computes r64 or r32: it completes on every form of its
operands that passes the checks and does not wait. -/
def computes2 (i : BitVec 6 → BitVec 6 → BitVec 6 → BitVec 1 → BitVec 1 → Instr) (classes : Nat)
    (r64 : Word → Word → Word) (r32 : BitVec 32 → BitVec 32 → BitVec 32) : Prop :=
  ∀ (s s1 s2 e : State) (d a b : BitVec 6) (t sy : BitVec 1) (x y : Word),
    admitted s [.data d 1 true, syncOpnd a sy, .data b 1 false] → onClass s classes →
    answers (readSync a sy) s x s1 → answers (readX b) s1 y s2 →
    answers (writeX d (aluValue t (r64 x y) (r32 (x.setWidth 32) (y.setWidth 32)))) s2 () e →
    completesWith (i d a b t sy) s e (s.me.pc + 4) ∧ ScalarOnly d s e

/-- A scalar instruction of operand a and destination d computes r64 or r32. -/
def computes1 (i : BitVec 6 → BitVec 6 → BitVec 1 → BitVec 1 → Instr) (r64 : Word → Word)
    (r32 : BitVec 32 → BitVec 32) : Prop :=
  ∀ (s s1 e : State) (d a : BitVec 6) (t sy : BitVec 1) (x : Word),
    admitted s [.data d 1 true, syncOpnd a sy] →
    answers (readSync a sy) s x s1 →
    answers (writeX d (aluValue t (r64 x) (r32 (x.setWidth 32)))) s1 () e →
    completesWith (i d a t sy) s e (s.me.pc + 4) ∧ ScalarOnly d s e

/-- Signed division with the corners of R116. -/
def divides (w : Nat) (x y : BitVec w) : BitVec w :=
  if y = 0 then (if x.msb then BitVec.intMin w else BitVec.intMax w)
  else if x = BitVec.intMin w ∧ y = BitVec.allOnes w then BitVec.intMax w
  else x.sdiv y

/-- Signed remainder with the corners of R116. -/
def remains (w : Nat) (x y : BitVec w) : BitVec w :=
  if y = 0 then x else if x = BitVec.intMin w ∧ y = BitVec.allOnes w then 0 else x.srem y

/-- Byte i of the low n bytes moved to byte n - 1 - i. -/
def byteReverse (n x : Nat) : Word :=
  BitVec.ofNat 64 (((List.range n).map fun i => x / 256 ^ i % 256 * 256 ^ (n - 1 - i)).sum)

/-- An immediate instruction of operand a computes r of it and the sign-extended immediate (R118). -/
def computesImm (i : BitVec 6 → BitVec 6 → BitVec 14 → Instr) (r : Word → Word → Word) : Prop :=
  ∀ (s s1 e : State) (d a : BitVec 6) (m : BitVec 14) (x : Word),
    admitted s [.data d 1 true, .data a 1 false] →
    answers (readX a) s x s1 → answers (writeX d (r x (m.signExtend 64))) s1 () e →
    completesWith (i d a m) s e (s.me.pc + 4) ∧ ScalarOnly d s e

/-- A conditional branch goes to its target where the condition holds, else to the next word (R121). -/
def branchesOn (i : BitVec 6 → BitVec 6 → BitVec 11 → Instr) (p : Word → Word → Prop) : Prop :=
  ∀ (s s1 e : State) (a b : BitVec 6) (o : BitVec 11) (x y : Word),
    admitted s [.data a 1 false, .data b 1 false] →
    answers (readX a) s x s1 → answers (readX b) s1 y e →
    (p x y → completesWith (i a b o) s e (s.me.pc + (o.signExtend 64 <<< 2))) ∧
    (¬ p x y → completesWith (i a b o) s e (s.me.pc + 4)) ∧ ScalarOnly 0 s e

/-- The strand with sticky flags of FCSR raised (R70). -/
def Strand.withFlags (t : Strand) (fl : Nat) : Strand := { t with fcsr := t.fcsr ||| BitVec.ofNat 64 (fl &&& 0x3F0) }

/-- A scalar floating-point instruction of two operands: f of the format, the rounding mode and the operands gives the
result and the flags, and the flags are or-ed into FCSR (R70, R127). -/
def computesFp2 (i : BitVec 6 → BitVec 6 → BitVec 6 → BitVec 2 → BitVec 1 → Instr) (classes : BitVec 2 → Nat)
    (f : Fp.Fmt → Nat → Nat → Nat → Nat × Nat) : Prop :=
  ∀ (s s1 s2 s3 : State) (d a b : BitVec 6) (t : BitVec 2) (sy : BitVec 1) (x y : Word) (r : Nat × Nat),
    admitted s [.data d 1 true, syncOpnd a sy, .data b 1 false] → onClass s (classes t) →
    answers (readSync a sy) s x s1 → answers (readX b) s1 y s2 →
    f (fpsFmt t) s.me.rm (fpBits (fpsFmt t) x) (fpBits (fpsFmt t) y) = r →
    answers (writeX d (BitVec.ofNat 64 r.1)) s2 () s3 →
    completesWith (i d a b t sy) s (s3.updMe fun t => t.withFlags r.2) (s.me.pc + 4) ∧ ScalarOnly d s s3

/-- A scalar floating-point instruction of one operand. -/
def computesFp1 (i : BitVec 6 → BitVec 6 → BitVec 2 → BitVec 1 → Instr) (classes : BitVec 2 → Nat)
    (f : Fp.Fmt → Nat → Nat → Nat × Nat) : Prop :=
  ∀ (s s1 s2 : State) (d a : BitVec 6) (t : BitVec 2) (sy : BitVec 1) (x : Word) (r : Nat × Nat),
    admitted s [.data d 1 true, syncOpnd a sy] → onClass s (classes t) →
    answers (readSync a sy) s x s1 →
    f (fpsFmt t) s.me.rm (fpBits (fpsFmt t) x) = r →
    answers (writeX d (BitVec.ofNat 64 r.1)) s1 () s2 →
    completesWith (i d a t sy) s (s2.updMe fun t => t.withFlags r.2) (s.me.pc + 4) ∧ ScalarOnly d s s2

/-! Vector instructions. -/

/-- Element k of width w is written: it lies from VSTART on in the strip, and VMS selects it (R156, R158, R159). -/
def Strand.selects (t : Strand) (w k : Nat) : Bool :=
  decide (t.vstartN ≤ k) && decide (k < t.strip w) && t.active k

/-- The vector r holds f k in every selected element, cut to the width, and the old value in every other (R159). -/
def lanesHold (t : Strand) (w : Nat) (old r : Vec) (f : Nat → Nat) : Prop :=
  ∀ k, k < 2048 / w → elem r w k = if t.selects w k then f k % 2 ^ w else elem old w k

/-- The union of the flags of the selected elements (R70). -/
def laneFlags (t : Strand) (w : Nat) (g : Nat → Nat) : Nat :=
  (t.lanes t.vstartN (t.strip w)).foldl (fun m k => m ||| g k) 0

/-- Bytes from byte 0 to the end of the highest selected element (R375). -/
def laneBytes (t : Strand) (w : Nat) : Nat := topOf (t.lanes t.vstartN (t.strip w)) * w / 8

/-- From s3, where its operands have been read, the instruction i that was issued in s writes f to the selected elements of
d and raises the flags g; then it completes. -/
def writesLanes (i : Instr) (s s3 : State) (d : BitVec 6) (w pipe : Nat) (old : Vec) (f g : Nat → Nat) : Prop :=
  ∃ r, lanesHold s.me w old r f ∧ ∀ s4 s5 e,
    answers (raiseFlags (laneFlags s.me w g)) s3 () s4 →
    answers (writeV d r (laneBytes s.me w)) s4 () s5 →
    answers (vecEnd (some pipe)) s5 () e →
    completesWith i s e ((e.strand s.cur).pc + 4)

/-- An element-wise instruction of a, b and the old element of d, with its flags (R159, R163). -/
def computesLanes2 (i : BitVec 6 → BitVec 6 → BitVec 6 → BitVec 2 → BitVec 1 → Instr) (classes : BitVec 2 → Nat)
    (width : BitVec 2 → Nat) (pipe : Nat) (dst : BitVec 6 → Opnd)
    (f : Strand → BitVec 2 → Nat → Nat → Nat → Nat × Nat) : Prop :=
  ∀ (s s1 s2 s3 : State) (d a b : BitVec 6) (t : BitVec 2) (x : BitVec 1) (va old : Vec) (vb : Nat → Nat),
    admitted s [dst d, .data a 2 false, xOpnd b x] → onClass s (classes t) →
    answers (readV a) s va s1 → answers (readB b x (width t)) s1 vb s2 → answers (oldV d) s2 old s3 →
    writesLanes (i d a b t x) s s3 d (width t) pipe old
      (fun k => (f s.me t (elem va (width t) k) (vb k) (elem old (width t) k)).1)
      (fun k => (f s.me t (elem va (width t) k) (vb k) (elem old (width t) k)).2)

/-- An element-wise instruction of a, with its flags. -/
def computesLanes1 (i : BitVec 6 → BitVec 6 → BitVec 2 → Instr) (classes : BitVec 2 → Nat) (width : BitVec 2 → Nat)
    (pipe : Nat) (f : Strand → BitVec 2 → Nat → Nat × Nat) : Prop :=
  ∀ (s s1 s3 : State) (d a : BitVec 6) (t : BitVec 2) (va old : Vec),
    admitted s [.data d 2 true, .data a 2 false] → onClass s (classes t) →
    answers (readV a) s va s1 → answers (oldV d) s1 old s3 →
    writesLanes (i d a t) s s3 d (width t) pipe old
      (fun k => (f s.me t (elem va (width t) k)).1) (fun k => (f s.me t (elem va (width t) k)).2)

/-- An integer operation on elements as bit vectors of their width, with no flag. -/
def onBits (op : (w : Nat) → BitVec w → BitVec w → BitVec w → BitVec w) :
    Strand → BitVec 2 → Nat → Nat → Nat → Nat × Nat :=
  fun _ t x y z => ((op (tyWidth t) (BitVec.ofNat _ x) (BitVec.ofNat _ y) (BitVec.ofNat _ z)).toNat, 0)

/-- A saturated result of width w, with SX where it is clamped (R63). -/
def clamps (w : Nat) (v : Int) : Nat × Nat :=
  if (2 : Int) ^ (w - 1) - 1 < v then ((BitVec.intMax w).toNat, Fp.SX)
  else if v < -(2 : Int) ^ (w - 1) then ((BitVec.intMin w).toNat, Fp.SX)
  else ((BitVec.ofInt w v).toNat, 0)

/-- A reduction (R160, R164): element 0 of d gets f of the active elements of a in ascending order and of b[0]; no other
element changes, and a strip of no element writes nothing. -/
def computesReduction (i : BitVec 6 → BitVec 6 → BitVec 6 → BitVec 2 → Instr) (width : BitVec 2 → Nat) (pipe : Nat)
    (f : BitVec 2 → List Nat → Nat → Nat × Nat) : Prop :=
  ∀ (s s1 s2 s3 : State) (d a b : BitVec 6) (t : BitVec 2) (va vb old : Vec),
    admitted s [.data d 2 true, .data a 2 false, .data b 2 false] → onClass s (vecClasses t) →
    answers (readV a) s va s1 → answers (readV b) s1 vb s2 → answers (oldV d) s2 old s3 →
    (s.me.strip (width t) = 0 → ∀ s4 e, answers (writeV d old 0) s3 () s4 → answers (vecEnd (some pipe)) s4 () e →
      completesWith (i d a b t) s e ((e.strand s.cur).pc + 4)) ∧
    (s.me.strip (width t) ≠ 0 → ∀ p, f t (((List.range (s.me.strip (width t))).filter s.me.active).map
        (elem va (width t))) (elem vb (width t) 0) = p →
      ∃ r, elem r (width t) 0 = p.1 % 2 ^ width t ∧
        (∀ k, 0 < k → k < 2048 / width t → elem r (width t) k = elem old (width t) k) ∧
        ∀ s4 s5 e, answers (raiseFlags p.2) s3 () s4 → answers (writeV d r (width t / 8)) s4 () s5 →
          answers (vecEnd (some pipe)) s5 () e → completesWith (i d a b t) s e ((e.strand s.cur).pc + 4))

/-- A fold of an operation with flags over a list, from the left. -/
def foldFlags (g : Nat → Nat → Nat × Nat) (xs : List Nat) (b : Nat) : Nat × Nat :=
  xs.foldl (fun r x => ((g r.1 x).1, r.2 ||| (g r.1 x).2)) (b, 0)

/-- A compare (R169): bit k of predicate d becomes f of the elements for every selected k, and no other bit changes; a
compare into the predicate that selects its elements starts at element 0 (R160). -/
def computesCompare (i : BitVec 6 → BitVec 6 → BitVec 6 → BitVec 2 → BitVec 1 → Instr) (width : BitVec 2 → Nat)
    (f : BitVec 2 → Nat → Nat → Bool × Nat) : Prop :=
  ∀ (s s1 s2 : State) (d a b : BitVec 6) (t : BitVec 2) (x : BitVec 1) (va : Vec) (vb : Nat → Nat) (is : List Nat),
    admitted s [.data a 2 false, xOpnd b x] → onClass s (vecClasses t) →
    answers (readV a) s va s1 → answers (readB b x (width t)) s1 vb s2 →
    s.me.lanes (if !s.me.vms.getLsbD 6 && s.me.vms.extractLsb' 0 6 = d then 0 else s.me.vstartN)
      (s.me.strip (width t)) = is →
    ∃ p : Pred, (∀ k, k < 256 → p.getLsbD k =
        if k ∈ is then (f t (elem va (width t) k) (vb k)).1 else (s.me.pred d.toNat).getLsbD k) ∧
      ∀ s3 e, answers (raiseFlags (is.foldl (fun m k => m ||| (f t (elem va (width t) k) (vb k)).2) 0)) s2 () s3 →
        answers (vecEnd (some 2)) (if is.isEmpty then s3 else s3.updMe fun t => t.setPred d.toNat p) () e →
        completesWith (i d a b t x) s e ((e.strand s.cur).pc + 4)

/-- A predicate instruction (R170): bits 0 to N - 1 of d become f, with N = VL.COUNT, and no other bit changes. -/
def computesPred (i : Instr) (s : State) (d : BitVec 6) (f : Nat → Bool) : Prop :=
  ∃ p : Pred, (∀ k, k < 256 → p.getLsbD k = if k < s.me.vlCount then f k else (s.me.pred d.toNat).getLsbD k) ∧
    ∀ e, answers (vecEnd (some 2)) (if s.me.vlCount = 0 then s else s.updMe fun t => t.setPred d.toNat p) () e →
      completesWith i s e ((e.strand s.cur).pc + 4)

/-- A permute (R171): the elements of the list is of destination d take the values f, cut to the width. -/
def writesElems (i : Instr) (s s3 : State) (d : BitVec 6) (w : Nat) (old : Vec) (is : List Nat) (f : Nat → Nat) : Prop :=
  ∃ r, (∀ k, k < 2048 / w → elem r w k = if k ∈ is then f k % 2 ^ w else elem old w k) ∧
    ∀ s4 e, answers (writeV d r (topOf is * w / 8)) s3 () s4 → answers (vecEnd (some 3)) s4 () e →
      completesWith i s e ((e.strand s.cur).pc + 4)

/-! Atomics and reductions. -/

/-- What an atomic step does to a word: the operation on the old value and the operand, none where it makes no write. -/
abbrev AtomicStep := Nat → Nat → Option Nat

/-- A returning atomic of width w (R290-R293): where its place answers and nothing is left to wait for, the old value is read
and the new one written in one step, between a release and an acquire where its order asks for them, and d gets the old value,
sign-extended from 32 bits or, in FADD and FADDH (9 and 10), zero-extended. A misaligned address, and a fault of its place or of the
step there, traps with no effect. -/
def computesAtomic (i : BitVec 6 → BitVec 6 → BitVec 6 → BitVec 2 → BitVec 2 → Instr) (dst : BitVec 6 → Opnd)
    (classes w fn : Nat) (f : Nat → AtomicStep) : Prop :=
  ∀ (s s1 s2 s3 s4 s5 e : State) (d a b : BitVec 6) (o c : BitVec 2) (va src cmp : Word) (p : Place) (old : Nat),
    admitted s [dst d, .reg a, .data b 1 false] → onClass s classes → s.me.isExecute = false → va = s.me.reg a.toNat →
    answers allStreams s () s →
    (va.toNat % (w / 8) ≠ 0 → exec (i d a b o c) s = .next (takeTrap s s.cur ⟨5, 0, va⟩ false false)) ∧
    trapsWith (i d a b o c) s (atomicPlace va (w / 8) (decide (fn = 9 ∨ fn = 10))) s ∧
    (answers (atomicPlace va (w / 8) (decide (fn = 9 ∨ fn = 10))) s p s1 →
    cmp = s1.me.reg d.toNat → answers (readX b) s1 src s2 →
    answers (if o.getLsbD 1 then release c.toNat 15 else pure ()) s2 () s3 →
    ∀ m, m = performAtomic ⟨w, fun x => f cmp.toNat x src.toNat, none, c.toNat, decide (fn = 9 ∨ fn = 10),
      some ⟨fn, src, cmp, d, if o.getLsbD 0 then some c.toNat else none⟩⟩ va p →
    trapsWith (i d a b o c) s m s3 ∧
    (answers m s3 old s4 → answers (if o.getLsbD 0 then acquire c.toNat else pure ()) s4 () s5 →
      answers (writeX d (if w = 32 ∧ fn ≠ 9 ∧ fn ≠ 10 then (BitVec.ofNat 32 old).signExtend 64 else BitVec.ofNat 64 old)) s5 () e →
      completesWith (i d a b o c) s e ((e.strand s.cur).pc + 4)))

/-- An integer operation as an atomic step: the wrapped result of the low w bits. -/
def onWords (w : Nat) (op : BitVec w → BitVec w → BitVec w) : Nat → AtomicStep :=
  fun _ old src => some (op (BitVec.ofNat w old) (BitVec.ofNat w src)).toNat

/-- The value that function fn of R291 writes for a word of w bits. -/
def reductionValue (fn w old src : Nat) : Nat :=
  let x := BitVec.ofNat w old
  let y := BitVec.ofNat w src
  match fn with
  | 0 => (x + y).toNat
  | 1 => (if y.slt x then y else x).toNat
  | 2 => (if x.slt y then y else x).toNat
  | 3 => (if y < x then y else x).toNat
  | 4 => (if x < y then y else x).toNat
  | 5 => (x &&& y).toNat
  | 6 => (x ||| y).toNat
  | 7 => (x ^^^ y).toNat
  | 9 => Fp.addHome w x.toNat y.toNat
  | _ => Fp.addHome 16 (x.toNat % 65536) (y.toNat % 65536) +
      65536 * Fp.addHome 16 (x.toNat / 65536 % 65536) (y.toNat / 65536 % 65536)

/-- The reduction that strand s.cur issues: function fn of width w, with its word, its address, its operand and its order. -/
def State.reduction (s : State) (word : InstrWord) (fn w : Nat) (va src : Word) (o c : BitVec 2) : Reduction :=
  ⟨s.cur, s.me.ctx, s.me.core, s.me.slot, word, fn, w, va, src, s.me.firmware, o.getLsbD 1,
    if o.getLsbD 0 then some c.toNat else none⟩

/-- Nothing keeps an unordered reduction of n bytes of the aperture from being performed as it issues. -/
def State.atOnce (s : State) (va : Word) (n : Nat) (o : BitVec 2) : Prop :=
  (apertureOffset va).isSome = true ∧ o = 0 ∧ (s.me.trains.any fun x => x.2 != 0) = false ∧ acquiring s s.cur = false ∧
    trainOverlap s s.cur va 0 n = false ∧ fetchOverlap s s.cur va 0 n = false

/-- A reduction of width w (R296, R297) completes without waiting: it is performed at once in the aperture where nothing keeps it,
else it is on its way to its place. A release of it writes the dirty private window words back first. No register changes. -/
def sendsReduction (i : BitVec 6 → BitVec 6 → BitVec 2 → BitVec 2 → Instr) (classes fn w : Nat) : Prop :=
  ∀ (s s1 s2 : State) (a b : BitVec 6) (o c : BitVec 2) (va src : Word) (r : Reduction),
    admitted s [.reg a, .data b 1 false] → onClass s classes → s.me.isExecute = false → va = s.me.reg a.toNat →
    (va.toNat % (w / 8) ≠ 0 → exec (i a b o c) s = .next (takeTrap s s.cur ⟨5, 0, va⟩ false false)) ∧
    (va.toNat % (w / 8) = 0 → answers (readX b) s src s1 → ∀ n, watchHit s1.me .store va (w / 8) = some n →
      exec (i a b o c) s = .next (takeTrap s s.cur ⟨17, n, va⟩ false false)) ∧
    (va.toNat % (w / 8) = 0 → answers (readX b) s src s1 → watchHit s1.me .store va (w / 8) = none →
    s2 = (if o.getLsbD 1 = true ∧ c ≠ 0 then flushWindows s1 (s1.owner s1.cur) (fun w => w.cls = 0) false else s1) →
    r = s2.reduction (encode (i a b o c)) fn w va src o c →
    (¬ s2.atOnce va (w / 8) o →
      completesWith (i a b o c) s (s2.post (.reductionPerform r)) (((s2.post (.reductionPerform r)).strand s.cur).pc + 4)) ∧
    (s2.atOnce va (w / 8) o → ∀ e, answers (performReduction r) s2 () e →
      completesWith (i a b o c) s e ((e.strand s.cur).pc + 4)) ∧
    (s2.atOnce va (w / 8) o → ∀ x s3, performReduction r s2 = .error (.trap x) s3 →
      completesWith (i a b o c) s (reductionFault s2 r x) (((reductionFault s2 r x).strand s.cur).pc + 4)) ∧
    (s2.atOnce va (w / 8) o → ∀ x s3, performReduction r s2 = .error x s3 → (∀ y, x ≠ .trap y) →
      completesWith (i a b o c) s (s2.post (.reductionPerform r)) (((s2.post (.reductionPerform r)).strand s.cur).pc + 4)))

/-- The last-level cache holds the line of a physical address or has room for it, so that no other line has to leave (R8, R19). -/
def State.roomFor (s : State) (pa : Nat) : Prop :=
  (s.line (pa / 128)).cached = true ∨ (sliceHolds s (homeDie pa) (homeSlice pa)).length < sliceLines

/-- Home-class memory of n bytes at which an atomic step meets nothing: a naturally aligned word of 4 or 8 bytes of a line that no agent
holds and whose key matches, with room in the last-level cache, in tier 0 or 1, of a parcel neither blocked nor moved nor logged nor
counted, with no earlier access of the strand to wait for, no watch, no poison, no write-back in flight and no replay. -/
structure State.plainHome (s : State) (l : Leaf) (va : Word) (n : Nat) : Prop where
  home : l.cls = 2
  uncounted : l.logEnable = false ∧ l.counterEnable = false
  width : n = 4 ∨ n = 8
  aligned : l.pa % n = 0
  alone : trainOverlap s s.cur va l.pa n = false ∧ fetchOverlap s s.cur va l.pa n = false
  sound : poisonedAt s l n = false
  unwatched : watchHit s.me .atomic va n = none
  unheld : (s.line (l.pa / 128)).code = 0
  memory : inLogStore l.pa = false ∧ tierOf l.pa < 2
  room : s.roomFor l.pa
  key : (s.line (l.pa / 128)).key = keyId s l.keyIndex
  quiet : s.writeBacks = []
  parcel : (s.parcel l.frame).blocked = false ∧ (s.parcel l.frame).log = [] ∧ (s.parcel l.frame).held = []
  unmoved : s.movedPa l.pa = l.pa
  unreplayed : s.me.trace.replay = false ∧ s.me.trace.admitted = false

/-- Memory after n bytes at an address have become the low bytes of a value, and no other byte differs. -/
def storedBytes (m m' : List Host.Cell) (a n v : Nat) : Prop :=
  ∀ x, memByte m' x = if a ≤ x ∧ x < a + n then BitVec.ofNat 8 (v / 256 ^ (x - a)) else memByte m x

/-- A BARWT completes with a result in d: it acquires, and forgets a deadline that a trap or a move had it remember. -/
def barwtDone (e : State) (scope d : Nat) (r : Word) : State :=
  let t := selfInvalidate e e.me.core scope
  (if e.me.part.wait.isSome then t.updMe fun t => t.setPart { t.part with wait := none, late := false } else t).updMe fun t => t.setReg d r

/-! Vector memory. -/

/-- The elements of a list are loaded one after another: f gives their values, and put says what each leaves behind. -/
def loadsAll (v : VAccess) (put : Nat → Nat → State → State) : List Nat → (Nat → Nat) → State → State → Prop
  | [], _, s, s' => s' = s
  | i :: is, f, s, s' => ∃ s1, answers (loadElem v i) s (f i) s1 ∧ loadsAll v put is f (put i (f i) s1) s'

/-- The elements of a list are stored one after another with the values f. -/
def storesAll (v : VAccess) (f : Nat → Nat) : List Nat → State → State → Prop
  | [], s, s' => s' = s
  | i :: is, s, s' => ∃ s1, answers (storeElem v i (f i)) s () s1 ∧ storesAll v f is s1 s'

/-- The elements of a list written into a vector register. -/
def putElems (r : Vec) (w : Nat) (is : List Nat) (f : Nat → Nat) : Vec := is.foldl (fun r i => setElem r w i (f i)) r

/-- The elements of a list are loaded one after another, none of them above a watermark, and f gives their values (R176). -/
def loadsFirst (v : VAccess) : List Nat → (Nat → Nat) → State → State → Prop
  | [], _, s, s' => s' = s
  | i :: is, f, s, s' => answers (checkChannel (v.addr i) (v.w / 8)) s () s ∧
      ∃ s1, answers (loadElem v i) s (f i) s1 ∧ loadsFirst v is f s1 s'

/-- A vector load of the access v (R173-R175): into a register each element is written as it is loaded, or, with whole, after
all have passed their checks and have been loaded; into a queue the slot is allocated first, the rest is as with whole, and the
fill of the slot is sent on its way. Then it completes. -/
def loadsVector (i : Instr) (s : State) (d : BitVec 6) (st : BitVec 2) (v : VAccess) (whole : Bool) : Prop :=
  ∀ (s1 s2 s3 e : State) (f : Nat → Nat) (is : List Nat), is = s.me.todo v.w v.n → answers (streamReady st.toNat) s () s →
    (d.toNat < 32 → whole = false → answers (vecReady d.toNat) s () s → answers (checkChannels v is) s () s →
      loadsAll v (fun i x s => s.updMe fun t => t.setVec d.toNat (setElem (t.vec d.toNat) v.w i x) ((i + 1) * v.w / 8))
        is f s s1 →
      answers (vmemEnd 4) s1 () e → completesWith i s e ((e.strand s.cur).pc + 4)) ∧
    (d.toNat < 32 → whole = true → answers (vecReady d.toNat) s () s → answers (checkElems .load v is) s () s1 →
      answers (checkChannels v is) s1 () s1 → loadsAll v (fun _ _ s => s) is f s1 s2 →
      answers (writeV d (putElems (s.me.vec d.toNat) v.w is f) (topOf is * v.w / 8)) s2 () s3 →
      answers (vmemEnd 4) s3 () e → completesWith i s e ((e.strand s.cur).pc + 4)) ∧
    (∀ s0 slot gen, 32 ≤ d.toNat → answers (allocSlot (d.toNat - 32) ⟨false, false, 0, []⟩) s (slot, gen) s0 →
      s0.me.todo v.w v.n = is → answers (checkElems .load v is) s0 () s1 → answers (checkChannels v is) s1 () s1 →
      loadsAll v (fun _ _ s => s) is f s1 s2 →
      answers (fillLater (d.toNat - 32) slot gen (putElems 0 v.w is f)) s2 () e → completesWith i s e ((e.strand s.cur).pc + 4))

/-- A vector store of the access v (R173-R175, R177): from a register element by element in ascending order; from a queue after
all have passed their checks. Then the full lines in which no element is active reach their homes (R251). -/
def storesVector (i : Instr) (s : State) (d : BitVec 6) (st : BitVec 2) (v : VAccess) : Prop :=
  ∀ (s1 s2 s3 s4 e : State) (x : Vec) (is : List Nat), answers (streamReady st.toNat) s () s → answers (readV d) s x s1 →
    is = s1.me.todo v.w v.n →
    (d.toNat < 32 → answers (checkChannels v is) s1 () s1 → storesAll v (elem x v.w) is s1 s2 →
      answers (idleStores v) s2 () s4 → answers (vmemEnd 5) s4 () e → completesWith i s e ((e.strand s.cur).pc + 4)) ∧
    (32 ≤ d.toNat → answers (checkElems .store v is) s1 () s2 → answers (checkChannels v is) s2 () s2 →
      storesAll v (elem x v.w) is s2 s3 → answers (idleStores v) s3 () s4 → answers (vmemEnd 5) s4 () e →
      completesWith i s e ((e.strand s.cur).pc + 4))

/-- The elements of a scatter are checked one after another: those of memory are gathered for their trains, those of the
scratchpad are stored (R178). -/
def gathers (v : VAccess) (f : Nat → Nat) : List Nat → State → List TrainElem → State → Prop
  | [], s, es, s' => es = [] ∧ s' = s
  | i :: is, s, es, s' => answers (checkWatch .store (v.addr i) (v.w / 8)) s () s ∧
    ((∃ l s1 rest, answers (resolve .store (v.addr i) (v.w / 8)) s (.mem l) s1 ∧
        answers (awaitOwn (v.addr i) l.pa (v.w / 8)) s1 () s1 ∧
        gathers v f is s1 rest s' ∧ es = ⟨v.addr i, l.pa, l.bits, BitVec.ofNat 64 (f i)⟩ :: rest) ∨
      ∃ p s1 s2, answers (resolve .store (v.addr i) (v.w / 8)) s p s1 ∧ (∀ l, p ≠ .mem l) ∧
        answers (storeElem v i (f i)) s1 () s2 ∧ gathers v f is s2 es s')

/-- One train leaves for each base die that homes an element, in the order of the dies, and counts as outstanding (R178). -/
def sendTrains (s : State) (st w : Nat) (es : List TrainElem) : State :=
  (List.range 4).foldl (fun s die =>
    if (es.filter fun e => homeDie e.pa = die) = [] then s
    else (s.updMe fun t => { t with trains := Tab.set 0 t.trains st (Tab.get 0 t.trains st + 1) }).post
      (.elementTrain s.cur die st w (es.filter fun e => homeDie e.pa = die))) s

/-- Bytes of plain allotment: in the aperture, inside the allotment, under no window, at no watch, naturally aligned, not
spoiled, and with no earlier access of the strand to wait for. -/
def State.plain (s : State) (k : Kind) (va : Word) (n : Nat) : Prop := ∃ o, apertureOffset va = some o ∧ va.toNat % n = 0 ∧
  o + n ≤ (s.strand (s.allotOwner s.cur)).allotSize ∧ windowAt (s.strand (s.allotOwner s.cur)) o = none ∧
  watchHit s.me k va n = none ∧ trainOverlap s s.cur va 0 n = false ∧ fetchOverlap s s.cur va 0 n = false ∧
  (k = .load → (s.strand (s.allotOwner s.cur)).spoiledAt o n = false)

/-! Tiles. -/

/-- The strand's tag of vector and tile instructions advanced (R410). -/
def Strand.nextTag (t : Strand) : Strand := { t with trace := { t.trace with tag := (t.trace.tag + 1) % 256 } }

/-- A tile operation whose effect is s1 completes past its instruction, with the strand parked until its pipe is done (R201). -/
def tileParks (i : Instr) (s s1 : State) (pipe : Nat) : Prop :=
  ∀ e, e = park (pipeRecords s1 s1.cur pipe false) s1.cur .tile → completesWith i s e ((e.strand s.cur).pc + 4)

/-- A TOP-family instruction that passes its checks at the step where it stands (R193-R195, R202): it makes that step. Before the
last it stays at its instruction, to be given the next step; after the last it goes past the instruction and waits for the pipe.
Without the heads it needs it waits for them. -/
def runsSteps (i : Instr) (s : State) (o : TopOp) : Prop :=
  ∀ (s0 s1 : State) (j : Nat), j = s.me.part.steps → answers (o.check j) s () s → answers o.ready s () s →
    s0 = (if j = 0 ∧ o.form ≠ 2 then s.updMe fun t => { t with tile := { t.tile with lcnt := o.cnt, lty := o.ty, op := none } }
      else s.updMe fun t => { t with tile := { t.tile with op := none } }) →
    (answers (o.step j) s0 () s1 →
      (j + 1 < o.cnt → exec i s =
        .next (park (s1.updMe fun t => { t with tile := { t.tile with op := some o } }) s.cur .tile)) ∧
      (o.cnt ≤ j + 1 →
        tileParks i s (s1.updMe fun t => { t.setPart Progress.none with tile := { t.tile with op := none } }) 6)) ∧
    (∀ w e, o.step j s0 = .error (.park w) e →
      exec i s = .next (park (s0.updMe fun t => { t with tile := { t.tile with op := some o } }) s.cur .tile))

/-- The slots of a tile fetch from j on, one for each entry of ahead, are allocated and sent for (R204). -/
def fetchRuns (f : Fetch) (q n : Nat) : Nat → List (List Nat) → State → State → Prop
  | _, [], s, s' => s' = s.updMe fun t => t.setPart Progress.none
  | j, _ :: ahead, s, s' => ∃ s1, answers (f.slot q n j false) s () s1 ∧
      fetchRuns f q n (j + 1) ahead (slotTaken s1 j n ahead) s'

/-! Homes and tables. -/

/-- Memory after the words of a mask have reached the home of a line: they are the data's, and no other byte differs (R243). -/
def mergedAt (m m' : List Host.Cell) (line : Nat) (data : BitVec 1024) (dirty : BitVec 32) : Prop :=
  ∀ x, memByte m' x = if x / 128 = line ∧ dirty.getLsbD (x % 128 / 4) = true then data.extractLsb' (8 * (x % 128)) 8
    else memByte m x

/-- Memory after eight bytes at an address have become a doubleword, and no other byte differs. -/
def storedWord (m m' : List Host.Cell) (a : Nat) (w : Word) : Prop :=
  ∀ x, memByte m' x = if a ≤ x ∧ x < a + 8 then BitVec.ofNat 8 (w.toNat / 256 ^ (x - a)) else memByte m x

/-- A line that has a key has the one that its slot holds now, and the slot is not empty (R423, R424). -/
def State.keyed (s : State) (line : Nat) : Prop :=
  keyGone s line = false ∧ ((s.line line).key = 0 ∨ (s.line line).key = keyId s (((s.line line).key - 1) / 2 ^ 32))

/-- The home of a line merges words where they stand: no write-back is in flight, the parcel is neither blocked nor moved, and the line
has the key of its slot. -/
def State.homeQuiet (s : State) (line : Nat) : Prop :=
  s.writeBacks = [] ∧ (s.parcel (line / 512)).blocked = false ∧ s.movedPa (line * 128) = line * 128 ∧ s.keyed line

end Sys2Proof.Machine
end

