-- ==== Sys2Proof/Certificates/Slice0/Obligations.lean ====
section
/-! DEFINITION. The statements about the machine: one definition each, listed in OBLIGATIONS.json. -/

open Sys2Proof Sys2Proof.Machine

/-- For every form of their operands that passes the checks of R45 and whose reads answer, ADD, SUB, MUL, MULH and
MULHN complete with the wrapped sum, difference, low product half, and signed and natural high product halves of 64
bits, or of the low 32 bits sign-extended, in d; nothing but d, full bits, queue pointers and the counts of completion
changes. AND, OR, XOR and ANDN compute bit by bit; SLL, SRL, SRA and ROTR shift by the low six bits of B, or the low
five in the 32-bit form; SLLI, SRLI and SRAI shift by the amount in the b field, which is below 32 in a well-formed
32-bit form. MIN, MAX, MINN and MAXN pick by the signed or natural order; SLT, SLTN and SEQ give 1 or 0; CLZ and CTZ
count leading and trailing zero bits, POPC set bits; BREV moves bit i to bit w-1-i and BSWAP byte i to byte w/8-1-i.
On C- and V-cores DIV gives the signed quotient, 2^(w-1)-1 or -2^(w-1) for a zero divisor by the sign of the dividend,
and 2^(w-1)-1 for the one quotient that overflows; DIVN gives the natural quotient and the largest natural value for a
zero divisor; REM and REMN give the remainder and return the dividend for a zero divisor, and REM gives 0 where the
quotient overflows. (R115, R116, R117) -/
def Obligations.AluFunctions : Prop :=
  (computes2 .add 7 (· + ·) (· + ·) ∧ computes2 .sub 7 (· - ·) (· - ·) ∧ computes2 .mul 7 (· * ·) (· * ·) ∧
  computes2 .mulh 7 (fun x y => (x.signExtend 128 * y.signExtend 128).extractLsb' 64 64)
    (fun x y => (x.signExtend 64 * y.signExtend 64).extractLsb' 32 32) ∧
  computes2 .mulhn 7 (fun x y => (x.setWidth 128 * y.setWidth 128).extractLsb' 64 64)
    (fun x y => (x.setWidth 64 * y.setWidth 64).extractLsb' 32 32)) ∧
  (computes2 .and 7 (· &&& ·) (· &&& ·) ∧ computes2 .or 7 (· ||| ·) (· ||| ·) ∧ computes2 .xor 7 (· ^^^ ·) (· ^^^ ·) ∧
  computes2 .andn 7 (fun x y => x &&& ~~~y) (fun x y => x &&& ~~~y) ∧
  computes2 .sll 7 (fun x y => x <<< (y.toNat % 64)) (fun x y => x <<< (y.toNat % 32)) ∧
  computes2 .srl 7 (fun x y => x >>> (y.toNat % 64)) (fun x y => x >>> (y.toNat % 32)) ∧
  computes2 .sra 7 (fun x y => x.sshiftRight (y.toNat % 64)) (fun x y => x.sshiftRight (y.toNat % 32)) ∧
  computes2 .rotr 7 (fun x y => x.rotateRight (y.toNat % 64)) (fun x y => x.rotateRight (y.toNat % 32)) ∧
  ∀ h : BitVec 6,
    computes1 (fun d a t s => .slli d a h t s) (fun x => x <<< h.toNat) (fun x => x <<< (h.toNat % 32)) ∧
    computes1 (fun d a t s => .srli d a h t s) (fun x => x >>> h.toNat) (fun x => x >>> (h.toNat % 32)) ∧
    computes1 (fun d a t s => .srai d a h t s) (fun x => x.sshiftRight h.toNat) (fun x => x.sshiftRight (h.toNat % 32))) ∧
  (computes2 .min 7 (fun x y => if y.slt x then y else x) (fun x y => if y.slt x then y else x) ∧
  computes2 .max 7 (fun x y => if x.slt y then y else x) (fun x y => if x.slt y then y else x) ∧
  computes2 .minn 7 (fun x y => if y < x then y else x) (fun x y => if y < x then y else x) ∧
  computes2 .maxn 7 (fun x y => if x < y then y else x) (fun x y => if x < y then y else x) ∧
  computes2 .slt 7 (fun x y => if x.slt y then 1 else 0) (fun x y => if x.slt y then 1 else 0) ∧
  computes2 .sltn 7 (fun x y => if x < y then 1 else 0) (fun x y => if x < y then 1 else 0) ∧
  computes2 .seq 7 (fun x y => if x = y then 1 else 0) (fun x y => if x = y then 1 else 0) ∧
  computes1 .clz (fun x => x.clz) (fun x => x.clz) ∧ computes1 .ctz (fun x => x.reverse.clz) (fun x => x.reverse.clz) ∧
  computes1 .popc (fun x => BitVec.ofNat 64 ((List.range 64).countP x.getLsbD))
    (fun x => BitVec.ofNat 32 ((List.range 32).countP x.getLsbD)) ∧
  computes1 .brev (fun x => x.reverse) (fun x => x.reverse) ∧
  computes1 .bswap (fun x => byteReverse 8 x.toNat) (fun x => (byteReverse 4 x.toNat).setWidth 32)) ∧
  (computes2 .div 3 (divides 64) (divides 32) ∧ computes2 .rem 3 (remains 64) (remains 32) ∧
  computes2 .divn 3 (fun x y => if y = 0 then BitVec.allOnes 64 else x / y)
    (fun x y => if y = 0 then BitVec.allOnes 32 else x / y) ∧
  computes2 .remn 3 (fun x y => if y = 0 then x else x % y) (fun x y => if y = 0 then x else x % y))

/-- ADDI, ANDI, ORI, XORI, SLTI and SLTNI compute on 64 bits with the sign-extended 14-bit immediate; LUI writes
sext(imm20) times 2^14, and AUIPC adds it to the PC. (R118, R119) -/
def Obligations.Immediates : Prop :=
  computesImm .addi (· + ·) ∧ computesImm .andi (· &&& ·) ∧ computesImm .ori (· ||| ·) ∧ computesImm .xori (· ^^^ ·) ∧
  computesImm .slti (fun x m => if x.toInt < m.toInt then 1 else 0) ∧
  computesImm .sltni (fun x m => if x.toNat < m.toNat then 1 else 0) ∧
  (∀ (s e : State) (d : BitVec 6) (m : BitVec 20), admitted s [.data d 1 true] →
    (answers (writeX d (m.signExtend 64 * 16384)) s () e →
      completesWith (.lui d m) s e (s.me.pc + 4) ∧ ScalarOnly d s e) ∧
    (answers (writeX d (s.me.pc + m.signExtend 64 * 16384)) s () e →
      completesWith (.auipc d m) s e (s.me.pc + 4) ∧ ScalarOnly d s e))

/-- JAL goes to PC + 4 sext(imm20) and JALR to x[a] + 4 sext(imm14), with PC + 4 in x[d]; JALR reads x[a] before it
writes d. A target that is not a multiple of 4 takes trap cause 5 with the target in TRAPVAL, and nothing is written.
BEQ, BNE, BLT, BGE, BLTN and BGEN read both sources as 64-bit values and go to PC + 4 sext(off11) where the condition
holds, else to PC + 4. BQT and BQF consume one head of the branch queue and branch on a bit of 1 or of 0. (R28, R120,
R121, R122) -/
def Obligations.JumpsAndBranches : Prop :=
  (∀ (s : State) (d a : BitVec 6) (m : BitVec 20) (o : BitVec 14) (target : Word), d.toNat < 32 → a.toNat < 32 →
    completesWith (.jal d m) s (s.updMe fun t => t.setReg d.toNat (s.me.pc + 4)) (s.me.pc + m.signExtend 64 * 4) ∧
    (target = s.me.reg a.toNat + o.signExtend 64 * 4 →
      (target.toNat % 4 = 0 →
        completesWith (.jalr d a o) s (s.updMe fun t => t.setReg d.toNat (s.me.pc + 4)) target) ∧
      (target.toNat % 4 ≠ 0 → exec (.jalr d a o) s = .next (takeTrap s s.cur ⟨5, 0, target⟩ false false)))) ∧
  (branchesOn .beq (· = ·) ∧ branchesOn .bne (· ≠ ·) ∧ branchesOn .blt (fun x y => x.toInt < y.toInt) ∧
  branchesOn .bge (fun x y => x.toInt ≥ y.toInt) ∧ branchesOn .bltn (fun x y => x.toNat < y.toNat) ∧
  branchesOn .bgen (fun x y => x.toNat ≥ y.toNat) ∧
  (∀ (s e : State) (a : BitVec 6) (o : BitVec 11) (v : Vec), admitted s [.queue a [4] (some false)] →
    answers (popQueue (a.toNat - 32)) s v e →
    (v ≠ 0 → completesWith (.bqt a o) s e (s.me.pc + (o.signExtend 64 <<< 2)) ∧ completesWith (.bqf a o) s e (s.me.pc + 4)) ∧
    (v = 0 → completesWith (.bqt a o) s e (s.me.pc + 4) ∧
      completesWith (.bqf a o) s e (s.me.pc + (o.signExtend 64 <<< 2))) ∧ ScalarOnly 0 s e))

/-- FADD, FSUB, FMUL, FDIV, FMIN, FMAX, FEQ, FLT, FLE, FSCPY, FSNEG and FSXOR read their operands in the format of ty,
round by FCSR.RM, write their result zero-extended and or their flags into FCSR. FDIV and every FP64 form complete on
C and V; the others on every class. FSQRT, FCLASS, FCVTI, FCVTF and FCVTW complete with the result and flags of their
rule in the rounding mode of RM or of the field m; FMAC and FNMAC read the accumulator from register d, round once,
and write register d. (R70, R74, R127, R128, R129, R130, R131) -/
def Obligations.ScalarFloat : Prop :=
  (computesFp2 .fadd fpsClasses Fp.add ∧ computesFp2 .fsub fpsClasses Fp.sub ∧ computesFp2 .fmul fpsClasses Fp.mul ∧
  computesFp2 .fdiv (fun _ => 3) Fp.div ∧
  computesFp2 .fmin fpsClasses (fun f _ x y => Fp.minmax f false x y) ∧
  computesFp2 .fmax fpsClasses (fun f _ x y => Fp.minmax f true x y) ∧
  computesFp2 .feq fpsClasses (fun f _ x y => bit (Fp.feq f x y)) ∧
  computesFp2 .flt fpsClasses (fun f _ x y => bit (Fp.flt f false x y)) ∧
  computesFp2 .fle fpsClasses (fun f _ x y => bit (Fp.flt f true x y)) ∧
  computesFp2 .fscpy fpsClasses (fun f _ x y => (Fp.withSign f x (Fp.signOf f y), 0)) ∧
  computesFp2 .fsneg fpsClasses (fun f _ x y => (Fp.withSign f x (!Fp.signOf f y), 0)) ∧
  computesFp2 .fsxor fpsClasses (fun f _ x y => (Fp.withSign f x (Fp.signOf f x != Fp.signOf f y), 0))) ∧
  (computesFp1 .fsqrt (fun _ => 3) Fp.sqrt ∧ computesFp1 .fclass fpsClasses (fun f _ x => (Fp.fclass f x, 0)) ∧
  (∀ (s s1 s2 : State) (d a : BitVec 6) (m f : BitVec 3) (t : BitVec 2) (sy : BitVec 1) (x : Word) (r : Int × Nat),
    admitted s [.data d 1 true, syncOpnd a sy] → onClass s (fpsClasses t) → answers (readSync a sy) s x s1 →
    Fp.toRange false (if intNatural f then 0 else -(2 : Int) ^ (intWidth f - 1))
      (if intNatural f then (2 : Int) ^ intWidth f - 1 else (2 : Int) ^ (intWidth f - 1) - 1)
      (convMode s.me.rm m) (Fp.decode (fpsFmt t) (fpBits (fpsFmt t) x)) = r →
    answers (writeX d (BitVec.ofInt 64 r.1)) s1 () s2 →
    completesWith (.fcvti d a m f t sy) s (s2.updMe fun t => t.withFlags r.2) (s.me.pc + 4) ∧ ScalarOnly d s s2) ∧
  (∀ (s s1 s2 : State) (d a : BitVec 6) (m f : BitVec 3) (t : BitVec 2) (sy : BitVec 1) (x : Word) (r : Nat × Nat),
    admitted s [.data d 1 true, syncOpnd a sy] → onClass s (fpsClasses t) → answers (readSync a sy) s x s1 →
    Fp.ofInt (fpsFmt t) (convMode s.me.rm m)
      (if intNatural f then ((x.setWidth (intWidth f)).toNat : Int) else (x.setWidth (intWidth f)).toInt) = r →
    answers (writeX d (BitVec.ofNat 64 r.1)) s1 () s2 →
    completesWith (.fcvtf d a m f t sy) s (s2.updMe fun t => t.withFlags r.2) (s.me.pc + 4) ∧ ScalarOnly d s s2) ∧
  (∀ (s s1 s2 : State) (d a : BitVec 6) (m : BitVec 3) (f t : BitVec 2) (sy : BitVec 1) (x : Word) (r : Nat × Nat),
    admitted s [.data d 1 true, syncOpnd a sy] → onClass s (if f = 0 then 3 else fpsClasses t) →
    answers (readSync a sy) s x s1 →
    Fp.convert (fpsFmt f) (fpsFmt t) (convMode s.me.rm m) (fpBits (fpsFmt f) x) = r →
    answers (writeX d (BitVec.ofNat 64 r.1)) s1 () s2 →
    completesWith (.fcvtw d a m f t sy) s (s2.updMe fun t => t.withFlags r.2) (s.me.pc + 4) ∧ ScalarOnly d s s2) ∧
  (∀ (s s1 s2 : State) (d a b : BitVec 6) (t : BitVec 2) (sy : BitVec 1) (x y : Word) (minus : Bool) (r : Nat × Nat),
    admitted s [.reg d, syncOpnd a sy, .data b 1 false] → onClass s (fpsClasses t) →
    answers (readSync a sy) s x s1 → answers (readX b) s1 y s2 →
    Fp.fma (fpsFmt t) s.me.rm minus (fpBits (fpsFmt t) (s.me.reg d.toNat)) (fpBits (fpsFmt t) x)
      (fpBits (fpsFmt t) y) = r →
    completesWith (if minus then .fnmac d a b t sy else .fmac d a b t sy) s
      (s2.updMe fun t => (t.setReg d.toNat (BitVec.ofNat 64 r.1)).withFlags r.2) (s.me.pc + 4) ∧ ScalarOnly d s s2))

/-- An LD or LDZ that is not on an execute strand, at an aligned address x[base] + off times the size, of a stream
that has nothing to wait for, completes: a strong one first gives up the core's untracked copies, an acquire one
discards them after its bytes are read, and d gets the bytes sign- or zero-extended. Into a queue the slot is
allocated first, and its fill is sent on its way with the value and the poison: that the poison of a line goes to the
slot and does not trap is the model's choice (log entry 68, DEDUCED), and so is that a strong load gives up the core's
untracked copies from scope die on (log entry 69, DEDUCED, on R339). (R31, R37, R123, R124, R143, R339) -/
def Obligations.Loads : Prop :=
  ∀ (s s0 s1 s2 s3 : State) (d b o : BitVec 6) (w st r c : BitVec 2) (bs : List Byte) (p sg : Bool) (va v : Word)
      (slot gen : Nat),
    admitted s [.data d 1 true, .reg b] → s.me.isExecute = false →
    va = s.me.reg b.toNat + BitVec.ofNat 64 (o.toNat * 2 ^ w.toNat) → va.toNat % 2 ^ w.toNat = 0 →
    answers (streamReady st.toNat) s () s →
    answers (if r = 2 then freshen .load va (2 ^ w.toNat) c.toNat else pure ()) s () s0 →
    v = (if sg then (BitVec.ofNat (8 * bs.length) (leNat bs)).signExtend 64 else BitVec.ofNat 64 (leNat bs)) →
    answers (if r = 1 then acquire c.toNat else pure ()) s1 () s2 →
    (d.toNat < 32 → answers (loadBytes va (2 ^ w.toNat) false c.toNat) s0 (bs, p) s1 →
      completesWith (if sg then .ld d b o w st r c else .ldz d b o w st r c) s
        (s2.updMe fun t => t.setReg d.toNat v) (((s2.updMe fun t => t.setReg d.toNat v).strand s.cur).pc + 4)) ∧
    (32 ≤ d.toNat → answers (allocSlot (d.toNat - 32) ⟨false, false, 0, []⟩) s0 (slot, gen) s3 →
      answers (loadBytes va (2 ^ w.toNat) true c.toNat) s3 (bs, p) s1 →
      completesWith (if sg then .ld d b o w st r c else .ldz d b o w st r c) s
        (s2.post (.queueFillArrival (s2.owner s2.cur) (d.toNat - 32) slot gen (v.setWidth 2048) p))
        ((s2.strand s.cur).pc + 4))

/-- An ST that is not on an execute strand, at an aligned address, of a stream that has nothing to wait for, reads its
source, releases where its ordering asks for it, stores the low bytes in little-endian order and completes; a strong
store through a window is written back at once. At a misaligned address LD, LDZ and ST of a register take trap cause 5
with the address in TRAPVAL and have no effect. At an aligned one a trap of the read or of the write is taken, with no
effect: the aperture, translation, permission and class faults come first, then a poisoned word that a register load
reads or memory that takes no store (cause 11), and a watch last (cause 17). That the source of a store is read before
any of these is the model's choice (DESIGN CHOICE, log entry 103). (R27, R31, R123, R124, R125, R250, R369, R424) -/
def Obligations.Stores : Prop :=
  (∀ (s s0 s1 s2 e : State) (d b o : BitVec 6) (w st r c : BitVec 2) (v va : Word),
    admitted s [.data d 1 false, .reg b] → s.me.isExecute = false → answers (readX d) s v s0 →
    va = s.me.reg b.toNat + BitVec.ofNat 64 (o.toNat * 2 ^ w.toNat) → va.toNat % 2 ^ w.toNat = 0 →
    answers (streamReady st.toNat) s0 () s0 →
    answers (if r = 1 then release c.toNat (2 ^ st.toNat) else pure ()) s0 () s1 →
    answers (storeBytes va (leBytes (2 ^ w.toNat) v.toNat) c.toNat) s1 () s2 →
    answers (if r = 2 then publish va (2 ^ w.toNat) else pure ()) s2 () e →
    completesWith (.st d b o w st r c) s e ((e.strand s.cur).pc + 4)) ∧
  (∀ (s : State) (d b o : BitVec 6) (w st r c : BitVec 2) (va : Word), d.toNat < 32 → b.toNat < 32 →
    s.me.isExecute = false → va = s.me.reg b.toNat + BitVec.ofNat 64 (o.toNat * 2 ^ w.toNat) →
    va.toNat % 2 ^ w.toNat ≠ 0 →
    exec (.ld d b o w st r c) s = .next (takeTrap s s.cur ⟨5, 0, va⟩ false false) ∧
    exec (.ldz d b o w st r c) s = .next (takeTrap s s.cur ⟨5, 0, va⟩ false false) ∧
    exec (.st d b o w st r c) s = .next (takeTrap s s.cur ⟨5, 0, va⟩ false false)) ∧
  (∀ (s s0 s1 : State) (d b o : BitVec 6) (w st r c : BitVec 2) (va v : Word) (sg : Bool) (i : Instr) (slot gen : Nat),
    s.me.isExecute = false → va = s.me.reg b.toNat + BitVec.ofNat 64 (o.toNat * 2 ^ w.toNat) → va.toNat % 2 ^ w.toNat = 0 →
    i = (if sg then .ld d b o w st r c else .ldz d b o w st r c) →
    (admitted s [.data d 1 true, .reg b] → answers (streamReady st.toNat) s () s →
      trapsWith i s (if r = 2 then freshen .load va (2 ^ w.toNat) c.toNat else pure ()) s ∧
      (answers (if r = 2 then freshen .load va (2 ^ w.toNat) c.toNat else pure ()) s () s0 →
        (d.toNat < 32 → trapsWith i s (loadBytes va (2 ^ w.toNat) false c.toNat) s0) ∧
        (32 ≤ d.toNat → answers (allocSlot (d.toNat - 32) ⟨false, false, 0, []⟩) s0 (slot, gen) s1 →
          trapsWith i s (loadBytes va (2 ^ w.toNat) true c.toNat) s1))) ∧
    (admitted s [.data d 1 false, .reg b] → answers (readX d) s v s0 → answers (streamReady st.toNat) s0 () s0 →
      answers (if r = 1 then release c.toNat (2 ^ st.toNat) else pure ()) s0 () s1 →
      trapsWith (.st d b o w st r c) s (storeBytes va (leBytes (2 ^ w.toNat) v.toNat) c.toNat) s1)) ∧
  (∀ (s s1 : State) (va : Word) (n c : Nat) (deliver : Bool) (p : Place),
    (∀ x, stops (resolve .load va n) s x → stops (loadBytes va n deliver c) s x) ∧
    (answers (resolve .load va n) s p s1 → answers (checkChannel va n) s1 () s1 → answers (awaitPlace p va n) s1 () s1 →
      (∀ u j, p = .spad u j → (s1.strand u).spoiledAt j n = true → stops (loadBytes va n false c) s ⟨11, 0, va⟩) ∧
      (∀ l, p = .mem l → (reachable s1 l.pa = false ∨ keyEmpty s1 l = true ∨
        (l.cls = 2 ∧ inLogStore l.pa = false ∧ poisonedAt s1 l n = true)) → stops (loadBytes va n false c) s ⟨11, 0, va⟩)) ∧
    (∀ bs q s2 k, answers (readBytes va n deliver c) s (bs, q) s2 → watchHit s.me .load va n = some k →
      stops (loadBytes va n deliver c) s ⟨17, k, va⟩)) ∧
  (∀ (s s1 s2 : State) (va : Word) (bs : List Byte) (c k : Nat) (p : Place),
    (∀ x, stops (resolve .store va bs.length) s x → stops (storeBytes va bs c) s x) ∧
    (answers (resolve .store va bs.length) s p s1 → answers (checkChannel va bs.length) s1 () s1 →
      answers (awaitPlace p va bs.length) s1 () s1 →
      (∀ l, p = .mem l → reachable s1 l.pa = false → stops (storeBytes va bs c) s ⟨11, 0, va⟩) ∧
      (∀ u j, p = .spad u j → watchHit s.me .store va bs.length = some k → stops (storeBytes va bs c) s ⟨17, k, va⟩) ∧
      (∀ l, p = .mem l → answers (memStoreAt l va bs c) s1 () s2 → watchHit s.me .store va bs.length = some k →
        stops (storeBytes va bs c) s ⟨17, k, va⟩)))

/-- At an address in the scratchpad aperture, inside the allotment and under no window, with no enabled watch, no
poisoned word and no earlier access to wait for, a store of bytes answers, and so does the load after it, with those
bytes; every other byte of the allotment, every byte of physical memory, every other strand and everything else of the
device are as before. (R124, R208, R255) -/
def Obligations.ScratchpadAccess : Prop :=
  ∀ (s : State) (va : Word) (o c : Nat) (bs : List Byte), apertureOffset va = some o →
    o + bs.length ≤ (s.strand (s.allotOwner s.cur)).allotSize →
    windowAt (s.strand (s.allotOwner s.cur)) o = none →
    watchHit s.me .store va bs.length = none → watchHit s.me .load va bs.length = none →
    trainOverlap s s.cur va 0 bs.length = false → fetchOverlap s s.cur va 0 bs.length = false →
    (s.strand (s.allotOwner s.cur)).spoiledAt o bs.length = false →
    ∃ e, answers (storeBytes va bs c) s () e ∧ answers (loadBytes va bs.length false c) e (bs, false) e ∧
      (∀ k, (k < o ∨ o + bs.length ≤ k) → Tab.get 0 (e.strand (s.allotOwner s.cur)).allot k =
        Tab.get 0 (s.strand (s.allotOwner s.cur)).allot k) ∧
      (∀ a, memByte e.mem a = memByte s.mem a) ∧ e.device = s.device ∧ e.agenda = s.agenda ∧
      (∀ u, u ≠ s.allotOwner s.cur → e.strand u = s.strand u)

/-- An ST whose address translates to a leaf of sharing class home, of a parcel that is neither blocked nor moved nor
logged nor counted, of a line that no agent holds and at which no operation waits, and whose key matches, at no watch
or watermark, with no access of its own to wait for and with room in the last-level cache, completes, and afterwards
physical memory holds the stored bytes at the translated address and is unchanged at every other address. (R123, R232,
R242) -/
def Obligations.StoreToHome : Prop :=
  ∀ (s s1 s2 : State) (d b o : BitVec 6) (w st c : BitVec 2) (v va : Word) (l : Leaf),
    admitted s [.data d 1 false, .reg b] → s.me.isExecute = false → answers (readX d) s v s1 →
    va = s.me.reg b.toNat + BitVec.ofNat 64 (o.toNat * 2 ^ w.toNat) → va.toNat % 2 ^ w.toNat = 0 →
    answers (streamReady st.toNat) s1 () s1 →
    answers (resolve .store va (2 ^ w.toNat)) s1 (.mem l) s2 → s2.mem = s.mem → s2.cur = s.cur →
    answers (checkChannel va (2 ^ w.toNat)) s2 () s2 → watchHit s1.me .store va (2 ^ w.toNat) = none →
    lineHeld s2 l.pa = false →
    fetchOverlap s2 s2.cur va l.pa (2 ^ w.toNat) = false → trainOverlap s2 s2.cur va l.pa (2 ^ w.toNat) = false →
    s2.roomFor l.pa →
    l.cls = 2 → l.logEnable = false → l.counterEnable = false → l.pa % 128 + 2 ^ w.toNat ≤ 128 →
    keyEmpty s2 l = false → reachable s2 l.pa = true → (s2.line (l.pa / 128)).key = keyId s2 l.keyIndex →
    (s2.line (l.pa / 128)).code = 0 → (s2.parcel l.frame).blocked = false → s2.movedPa l.pa = l.pa →
    ∃ t, exec (.st d b o w st 0 c) s = .next t ∧ ∀ a, memByte t.mem a =
      if l.pa ≤ a ∧ a < l.pa + 2 ^ w.toNat then BitVec.ofNat 8 (v.toNat / 256 ^ (a - l.pa)) else memByte s.mem a

/-- CSRRW, CSRRS, CSRRC and CSRR on a register that the level may access and that the form may write complete with the
old value in x[d] and, where they write, with the new value: x[a], the old value or x[a], or the old value and not
x[a]; CSRRS and CSRRC of x0 and CSRR write nothing, and a read of THROT clears its sticky bit, which is the model's
choice (log entry 25, DEDUCED from the words "sticky, cap reached since last read" of R422), and a read of DBVAL notes
that the doorbell has been read (R421). A write of a per-strand register replaces its writable bits and keeps the
others, and the read gives the register back: FCSR, VMS, VST, VSTART, VDONE, SRSEED, SCTHR, UIPC, TRAPVEC with its low
bits clear, TRAPPC, TRAPVAL, TRAPCAUSE, TRAPSTAT and SAVEBASE. A firmware register takes cause 4 at user level; an
unassigned number, and a write of a read-only one, take cause 1 with sub-cause 8. (R41, R132, R421, R422, R42, R43,
R363) -/
def Obligations.ControlRegisters : Prop :=
  (∀ (s s1 s2 e : State) (d a : BitVec 6) (c : BitVec 12), d.toNat < 32 → a.toNat < 32 → onClass s (csrClasses c.toNat) →
    (c.toNat = 0x921 → keyInFlight s s.module.keySel.toNat = false) → s1 = (if c.toNat = 0x912 then s.updModule fun m => { m with capReached := false }
      else if c.toNat = 0x90A then s.updModule fun m => { m with dbUnread := false } else s) →
    (csrTrap s (fs 17#6 d a c 0#2) c.toNat true = none → s2 = csrWrite s1 c.toNat (s.me.reg a.toNat) (s.me.reg a.toNat) →
      completesWith (.csrrw d a c) s (s2.updMe fun t => t.setReg d.toNat (csrRead s c.toNat))
        (((s2.updMe fun t => t.setReg d.toNat (csrRead s c.toNat)).strand s.cur).pc + 4)) ∧
    (csrTrap s (fs 17#6 d a c 1#2) c.toNat (a != 0) = none →
      s2 = (if a = 0 then s1 else csrWrite s1 c.toNat (csrRead s c.toNat ||| s.me.reg a.toNat) (s.me.reg a.toNat)) →
      completesWith (.csrrs d a c) s (s2.updMe fun t => t.setReg d.toNat (csrRead s c.toNat))
        (((s2.updMe fun t => t.setReg d.toNat (csrRead s c.toNat)).strand s.cur).pc + 4)) ∧
    (csrTrap s (fs 17#6 d a c 2#2) c.toNat (a != 0) = none →
      s2 = (if a = 0 then s1 else csrWrite s1 c.toNat (csrRead s c.toNat &&& ~~~(s.me.reg a.toNat)) 0) →
      completesWith (.csrrc d a c) s (s2.updMe fun t => t.setReg d.toNat (csrRead s c.toNat))
        (((s2.updMe fun t => t.setReg d.toNat (csrRead s c.toNat)).strand s.cur).pc + 4)) ∧
    (csrTrap s (fs 17#6 d 0#6 c 3#2) c.toNat false = none →
      e = (s1.updMe fun t => t.setReg d.toNat (csrRead s c.toNat)) →
      completesWith (.csrr d c) s e (s.me.pc + 4))) ∧
  ((∀ (s : State) (v c : Word),
    csrRead (csrWrite s 0x000 v c) 0x000 = blend 0x3F3 (csrRead s 0x000) v ∧
    csrRead (csrWrite s 0x002 v c) 0x002 = blend 0x7F (csrRead s 0x002) v ∧
    csrRead (csrWrite s 0x003 v c) 0x003 = v ∧
    csrRead (csrWrite s 0x005 v c) 0x005 = blend 0x1FF (csrRead s 0x005) v ∧
    csrRead (csrWrite s 0x006 v c) 0x006 = v ∧
    csrRead (csrWrite s 0x007 v c) 0x007 = blend 0xFFFFFFFF (csrRead s 0x007) v ∧
    csrRead (csrWrite s 0x008 v c) 0x008 = blend 0x7F (csrRead s 0x008) v ∧
    csrRead (csrWrite s 0x042 v c) 0x042 = v ∧
    csrRead (csrWrite s 0x800 v c) 0x800 = v &&& ~~~3 ∧
    csrRead (csrWrite s 0x801 v c) 0x801 = blend 0x80FF003F (csrRead s 0x801) v ∧
    csrRead (csrWrite s 0x802 v c) 0x802 = v ∧
    csrRead (csrWrite s 0x803 v c) 0x803 = v ∧
    csrRead (csrWrite s 0x804 v c) 0x804 = blend 0x103 (csrRead s 0x804) v ∧
    csrRead (csrWrite s 0x805 v c) 0x805 = v) ∧
  (∀ (s : State) (w : InstrWord) (n : Nat) (wr : Bool),
    (0x800 ≤ n → s.me.firmware = false → csrTrap s w n wr = some ⟨4, 0, w.setWidth 64⟩) ∧
    ((n < 0x800 ∨ s.me.firmware = true) → csrAccess n = none → csrTrap s w n wr = some ⟨1, 8, w.setWidth 64⟩) ∧
    ((n < 0x800 ∨ s.me.firmware = true) → csrAccess n = some false → csrTrap s w n true = some ⟨1, 8, w.setWidth 64⟩)))

/-- A register operand reads the register, x0 reads 0, and a write to x0 is discarded; a synchronised read of a set
full bit reads the register and clears the bit, and of x0 reads 0. A queue operand takes the ready head that is not
poisoned, and its pointer H advances; a queue destination appends one ready slot at F. An append to a branch queue
keeps whether the value is non-zero. An empty queue, and a head that is not ready, park the strand while its partner
can act, and so do a full destination queue and a clear full bit; a poisoned head takes cause 11, and an empty queue
whose partner has exited cause 13 with sub-cause 7. Where an instruction passes its checks and its effect parks,
whatever the instruction, exec gives the state in which the strand is parked on that wait and nothing else has
changed: no register, no queue, no program counter. When the strand wakes it is Ready with the same program counter,
and everything but its run state, its counter of parked cycles and its mark of a replay hold is as before. (R34, R36,
R37, R112, R114, R138, R140, R142, R143, R150, R93, R103) -/
def Obligations.OperandsAndParking : Prop :=
  (∀ (s : State) (f : BitVec 6) (v : Word) (q : Nat),
    (f.toNat < 32 → answers (readX f) s (s.me.reg f.toNat) s ∧ s.me.reg 0 = 0 ∧
      answers (writeX f v) s () (s.updMe fun t => t.setReg f.toNat v) ∧
      (∀ r, (s.me.setReg f.toNat v).reg r = if r = f.toNat ∧ r ≠ 0 then v else s.me.reg r)) ∧
    (f.toNat < 32 → f ≠ 0 → s.me.full.getLsbD f.toNat = true → ∃ e, answers (readSync f 1) s (s.me.reg f.toNat) e ∧
      e.me.full.getLsbD f.toNat = false ∧ (∀ k, k ≠ f.toNat → e.me.full.getLsbD k = s.me.full.getLsbD k) ∧
      ∀ r, e.me.reg r = s.me.reg r) ∧
    answers (readSync 0 1) s 0 s ∧
    (∀ x rest, (s.queue s.cur q).slots = x :: rest → x.ready = true → x.poison = false →
      ∃ e, answers (popQueue q) s x.val e ∧ (e.queue s.cur q).slots = rest ∧
        (e.queue s.cur q).h = ((s.queue s.cur q).h + 1) % 65536 ∧
        ∀ r, r ≠ q → e.queue s.cur r = s.queue s.cur r) ∧
    ((s.queue s.cur q).slots.length < (s.queue s.cur q).depth → (s.queue s.cur q).kind ≠ 4 → ∀ x : Vec,
      ∃ e, answers (pushQueue q x) s () e ∧ (e.queue s.cur q).slots = (s.queue s.cur q).slots ++ [⟨true, false, x, []⟩] ∧
        (e.queue s.cur q).h = (s.queue s.cur q).h ∧ ∀ r, r ≠ q → e.queue s.cur r = s.queue s.cur r) ∧
    ((s.queue s.cur q).slots.length < (s.queue s.cur q).depth → (s.queue s.cur q).kind = 4 → ∀ x : Vec,
      ∃ e, answers (pushQueue q x) s () e ∧
        (e.queue s.cur q).slots = (s.queue s.cur q).slots ++ [⟨true, false, if x = 0 then 0 else 1, []⟩] ∧
        (e.queue s.cur q).h = (s.queue s.cur q).h ∧ ∀ r, r ≠ q → e.queue s.cur r = s.queue s.cur r) ∧
    (∀ x rest, (s.queue s.cur q).slots = x :: rest → x.ready = false → popQueue q s = .error (.park (.queueData q)) s) ∧
    (∀ x rest, (s.queue s.cur q).slots = x :: rest → x.ready = true → x.poison = true →
      popQueue q s = .error (.trap ⟨11, 0, BitVec.ofNat 64 (32 + q)⟩) s) ∧
    ((s.queue s.cur q).slots = [] → partnerGone s s.cur = true →
      popQueue q s = .error (.trap ⟨13, 7, BitVec.ofNat 64 (32 + q)⟩) s) ∧
    ((s.queue s.cur q).slots = [] → partnerGone s s.cur = false → popQueue q s = .error (.park (.queueData q)) s) ∧
    ((s.queue s.cur q).depth ≤ (s.queue s.cur q).slots.length → partnerGone s s.cur = false → ∀ x : Slot,
      allocSlot q x s = .error (.park (.queueSpace q)) s) ∧
    (f ≠ 0 → s.me.full.getLsbD f.toNat = false → s.me.coupled = true → partnerGone s s.cur = false →
      readSync f 1 s = .error (.park (.fullSet f.toNat)) s)) ∧
  ((∀ (i : Instr) (f : Form) (body : M Flow) (s s' : State) (w : Wait), exec i s = insn f body s → f.check s = none →
    body s = .error (.park w) s' → exec i s = .next (park s s.cur w)) ∧
  (∀ (s : State) (d a : BitVec 6) (m : BitVec 14) (w : Wait), admitted s [.data d 1 true, .data a 1 false] →
    readX a s = .error (.park w) s → exec (.addi d a m) s = .next (park s s.cur w)) ∧
  (∀ (s : State) (u : Nat) (w : Wait), ((park s u w).strand u).run = .parked w ∧
    ((wake (park s u w) u).strand u).run = .ready ∧
    ((wake (park s u w) u).strand u).pc = (s.strand u).pc ∧ (∀ r, ((wake (park s u w) u).strand u).reg r = (s.strand u).reg r) ∧
    ((wake (park s u w) u).strand u).queues = (s.strand u).queues ∧
    (wake (park s u w) u).device = s.device ∧ (∀ v, v ≠ u → (wake (park s u w) u).strand v = s.strand v)))

/-- QCFG of a queue that holds no slot and on which no strand of the couple is parked completes: with a word of 0 the
queue becomes unconfigured; with a word that keeps the limits of R135 and whose cost fits the budget of R134, beside
the other queues, the queue takes the word with its pointers at 0, no slot and no mark. A word that breaks a limit
takes cause 13 with sub-cause 3, one that does not fit sub-cause 4, and a queue that holds a slot or on which a strand
is parked sub-cause 5. (R134, R135, R148, R150) -/
def Obligations.QueueConfiguration : Prop :=
  ∀ (s : State) (d a : BitVec 6) (q : Nat) (v : Word), 32 ≤ d.toNat → d.toNat < 48 → a.toNat < 32 → q = d.toNat - 32 →
    v = s.me.reg a.toNat →
    ((s.queue s.cur q).slots = [] → ((s.couple s.cur).any fun u => (s.strand u).parkedOn q) = false →
      (v = 0 → completesWith (.qcfg d a) s
        (s.updQueue s.cur q fun k => { Queue.none with gen := k.gen + 1 }) (s.me.pc + 4)) ∧
      (v ≠ 0 → QueueWord.of v = none → exec (.qcfg d a) s = .next (takeTrap s s.cur ⟨13, 3, v⟩ false false)) ∧
      (∀ k, v ≠ 0 → QueueWord.of v = some k →
        (queuesCost s s.cur q (k.depth * slotBytes k.kind) ≤ s.me.queueBudget →
          completesWith (.qcfg d a) s
            (s.updQueue s.cur q fun x => ⟨v.setWidth 32, 0, [], none, x.gen + 1⟩) (s.me.pc + 4)) ∧
        (s.me.queueBudget < queuesCost s s.cur q (k.depth * slotBytes k.kind) →
          exec (.qcfg d a) s = .next (takeTrap s s.cur ⟨13, 4, v⟩ false false)))) ∧
    ((s.queue s.cur q).slots ≠ [] ∨ ((s.couple s.cur).any fun u => (s.strand u).parkedOn q) = true →
      exec (.qcfg d a) s = .next (takeTrap s s.cur ⟨13, 5, BitVec.ofNat 64 d.toNat⟩ false false))

/-- On a configured queue of the right direction: QADV discards x[b] ready heads; QCOMMIT sets the commit mark to F;
QFILL gives the ready slots at the front and QFREE the free slots; QRESET discards every slot, with pointers at 0 and
no mark; QDRAIN completes when every allocated slot has filled and parks before that. (R137, R148) -/
def Obligations.QueueInstructions : Prop :=
  (∀ (s : State) (d a : BitVec 6) (q : Nat), q = a.toNat - 32 → admitted s [.reg d, .queue a [] none] →
    completesWith (.qfill d a) s
      (s.updMe fun t => t.setReg d.toNat (BitVec.ofNat 64 (s.queue s.cur q).ready)) (s.me.pc + 4) ∧
    completesWith (.qfree d a) s
      (s.updMe fun t => t.setReg d.toNat (BitVec.ofNat 64 ((s.queue s.cur q).depth - (s.queue s.cur q).slots.length)))
      (s.me.pc + 4) ∧
    completesWith (.qreset a) s (s.updQueue s.cur q fun k => ⟨k.cfg, 0, [], none, k.gen + 1⟩) (s.me.pc + 4) ∧
    (((s.queue s.cur q).slots.all fun x => x.ready) = true → completesWith (.qdrain a) s s (s.me.pc + 4)) ∧
    (((s.queue s.cur q).slots.all fun x => x.ready) = false →
      exec (.qdrain a) s = .next (park s s.cur (.queueDrain q)))) ∧
  (∀ (s : State) (a : BitVec 6) (q : Nat), q = a.toNat - 32 → admitted s [.queue a [] (some true)] →
    completesWith (.qcommit a) s (s.updQueue s.cur q fun k => { k with mark := some k.fill }) (s.me.pc + 4)) ∧
  (∀ (s : State) (a b : BitVec 6) (q n : Nat), q = a.toNat - 32 → admitted s [.queue a [] (some false), .reg b] →
    s.me.part.heads = none → n = (s.me.reg b.toNat).toNat → n ≤ (s.queue s.cur q).ready →
    ∃ e, completesWith (.qadv a b) s e (s.me.pc + 4) ∧ (e.queue s.cur q).slots = (s.queue s.cur q).slots.drop n ∧
      (e.queue s.cur q).h % 65536 = ((s.queue s.cur q).h + n) % 65536 ∧ e.device = s.device ∧
      ∀ r, r ≠ q → e.queue s.cur r = s.queue s.cur r)

/-- FSET sets and FCLR clears the full bit of a register, and FTEST gives it, with 1 for x0. XPUT to a register writes
the partner's register, or an uncoupled strand's own, and sets its full bit where that bit is clear, and what the
partner has under way writes that register no more, which for operations past their issue is the model's reading (log
entry 116, DEDUCED); where it is set, the strand parks while its partner can act, and an uncoupled strand takes cause
13 with sub-cause 7. XPUT to a queue appends the value as one slot. (R114, R140, R148, R149) -/
def Obligations.FullBits : Prop :=
  (∀ (s : State) (d a : BitVec 6), d.toNat < 32 → a.toNat < 32 →
    (∃ e, completesWith (.fset d) s e (s.me.pc + 4) ∧ e.me.full.getLsbD d.toNat = true ∧ e.me.x = s.me.x ∧
      (∀ k, k ≠ d.toNat → e.me.full.getLsbD k = s.me.full.getLsbD k)) ∧
    (∃ e, completesWith (.fclr d) s e (s.me.pc + 4) ∧ e.me.full.getLsbD d.toNat = false ∧ e.me.x = s.me.x ∧
      (∀ k, k ≠ d.toNat → e.me.full.getLsbD k = s.me.full.getLsbD k)) ∧
    completesWith (.ftest d a) s
      (s.updMe fun t => t.setReg d.toNat (if a = 0 ∨ s.me.full.getLsbD a.toNat = true then 1 else 0)) (s.me.pc + 4) ∧
    (∀ p, p = xputTarget s → (s.strand p).full.getLsbD d.toNat = false →
      completesWith (.xput d a) s ((spareReg s p d.toNat).updStrand p fun t =>
        { t.setReg d.toNat (s.me.reg a.toNat) with full := t.full ||| BitVec.ofNat 32 (2 ^ d.toNat) }) (s.me.pc + 4) ∧
      ((∀ w, (s.strand p).run ≠ .parked w) → spareReg s p d.toNat = s)) ∧
    ((s.strand (xputTarget s)).full.getLsbD d.toNat = true →
      (s.me.coupled = true → partnerGone s s.cur = false → exec (.xput d a) s = .next (park s s.cur (.fullClear d.toNat))) ∧
      (s.me.coupled = false → exec (.xput d a) s = .next (takeTrap s s.cur ⟨13, 7, d.setWidth 64⟩ false false)))) ∧
  (∀ (s e : State) (d a : BitVec 6), 32 ≤ d.toNat → admitted s [.queue d [1, 4] (some true), .reg a] →
    answers (pushQueue (d.toNat - 32) ((s.me.reg a.toNat).setWidth 2048)) s () e →
    completesWith (.xput d a) s e (s.me.pc + 4))

/-- LOOP with a count above 0 arms its slot at the next word with index 0, and with a count of 0 sets the slot and the
strand skipping; ENDLOOP of an active slot goes back to the start while the next index is below the count, and past
the loop once it is not; ENDLOOP of the skipping slot ends skipping; ENDLOOP of an idle slot does nothing. LIDX reads
a slot index, an iteration index of the launch or a trip count, and SIDX sets a slot index. (R108) -/
def Obligations.Loops : Prop :=
  ∀ (s : State) (d a : BitVec 6) (n : BitVec 2) (k : BitVec 6) (l : LoopSlot), d.toNat < 32 → a.toNat < 32 →
    l = s.me.loop n.toNat →
    (s.me.reg a.toNat ≠ 0 → completesWith (.loop a n) s
      (s.updMe fun t => t.setLoop n.toNat ⟨false, true, t.pc + 4, s.me.reg a.toNat, 0⟩) (s.me.pc + 4)) ∧
    (s.me.reg a.toNat = 0 → completesWith (.loop a n) s
      (s.updMe fun t => { t.setLoop n.toNat { l with skip := true } with run := .skipping }) (s.me.pc + 4)) ∧
    (l.skip = false → l.active = true → (l.index.toNat + 1 < l.count.toNat →
      completesWith (.endloop n) s (s.updMe fun t => t.setLoop n.toNat { l with index := l.index + 1 }) l.start) ∧
      (¬ l.index.toNat + 1 < l.count.toNat → completesWith (.endloop n) s
        (s.updMe fun t => t.setLoop n.toNat { l with index := l.index + 1, active := false }) (s.me.pc + 4))) ∧
    (l.skip = true → completesWith (.endloop n) s
      (s.updMe fun t => { t.setLoop n.toNat { l with skip := false } with run := .ready }) (s.me.pc + 4)) ∧
    (l.skip = false → l.active = false → completesWith (.endloop n) s s (s.me.pc + 4)) ∧
    completesWith (.lidx d k) s (s.updMe fun t => t.setReg d.toNat
      (if k.toNat < 4 then (s.me.loop k.toNat).index
        else if k.toNat < 8 then BitVec.ofNat 64 (Tab.get 0 s.me.levelIndex (k.toNat - 4))
        else BitVec.ofNat 64 (Tab.get 0 s.me.levelTrip (k.toNat - 8)))) (s.me.pc + 4) ∧
    completesWith (.sidx a n) s (s.updMe fun t => t.setLoop n.toNat { l with index := s.me.reg a.toNat }) (s.me.pc + 4)

/-- EXIT waits while accesses of its strand are on their way or its stores are held. Then it gives back windows,
accumulators and spans, and waits for live children. Without any it ends an uncoupled strand, a child too, whose lanes
go back to its parent where its token was discarded; a strand of a couple is Exited until its partner exits, and then
both are done. YIELD passes the next issue opportunity of its core: it has nothing to wait for, since the model's
vector commands are over when they issue (log entry 7, DESIGN CHOICE). HINT completes, and code 2 starts the window of
the instruction-mix counters anew. MIGR to a mask that holds the present class completes with 0, to a member of a
family too, which is the model's choice (log entry 102, DESIGN CHOICE); one that no search can satisfy completes with
2, and another parks its strand on a search for a core of the mask, with the context's wait bound. (R93, R94, R106,
R107, R109, R110, R111, R352, R360) -/
def Obligations.StrandLife : Prop :=
  (∀ (s t : State), outstanding s s.cur = false → fetching s s.cur 15 = false → heldFrame s s.cur = none →
    t = releaseAll s s.cur → t.cur = s.cur →
    (t.me.children.any (fun c => (t.strand c.uid).run.live) = true → exec .exit s = .next (park t s.cur .children)) ∧
    (t.me.children.any (fun c => (t.strand c.uid).run.live) = false →
      (t.me.coupled = false → ∃ e, exec .exit s = .next e ∧ (e.strand s.cur).run = .done ∧ (e.strand s.cur).accs = [] ∧
        (e.strand s.cur).spans = [] ∧ (e.strand s.cur).queues = [] ∧ e.mem = t.mem ∧
        (∀ p, t.me.parent = some p → p ≠ s.cur → (e.strand p).gvl =
          if ((t.strand p).children.any fun c => c.uid = s.cur && c.auto) = true then min 64 ((t.strand p).gvl + t.me.gvl)
          else (t.strand p).gvl)) ∧
      (t.me.coupled = true → (t.strand t.me.partner).run ≠ .exited → (t.strand t.me.partner).run ≠ .done →
        ∃ e, exec .exit s = .next e ∧ (e.strand s.cur).run = .exited ∧ (e.strand s.cur).accs = [] ∧
          (e.strand s.cur).spans = [] ∧ e.mem = t.mem ∧ ∀ u, u ≠ s.cur → (e.strand u).run = (t.strand u).run) ∧
      (t.me.coupled = true → (t.strand t.me.partner).run = .exited →
        ∃ e, exec .exit s = .next e ∧ (e.strand s.cur).run = .done ∧ (e.strand t.me.partner).run = .done ∧ e.mem = t.mem))) ∧
  (∀ s : State, (outstanding s s.cur = true ∨ fetching s s.cur 15 = true → exec .exit s =
      .next (park s s.cur (.performed (0x20F + if fetching s s.cur 15 then 0xF0 else 0)))) ∧
    (∀ f, outstanding s s.cur = false → fetching s s.cur 15 = false → heldFrame s s.cur = some f →
      exec .exit s = .next (park s s.cur (.parcel f)))) ∧
  (∀ (s : State) (c d a : BitVec 6), d.toNat < 32 → a.toNat < 32 →
    completesWith .yield s (s.updCore s.me.core fun k => { k with yielded := some s.cur }) (s.me.pc + 4) ∧
    (c ≠ 2 → completesWith (.hint c) s s (s.me.pc + 4)) ∧
    (c = 2 → completesWith (.hint c) s (s.updStrand (s.owner s.cur) fun t => t.setWindow 0 0) (s.me.pc + 4)) ∧
    (((s.me.reg a.toNat).toNat % 8 &&& (s.strand (s.owner s.cur)).travel.allowed).testBit (classOf s s.me.core) = true →
      completesWith (.migr d a) s (s.updMe fun t => t.setReg d.toNat 0) (s.me.pc + 4)) ∧
    (((s.me.reg a.toNat).toNat % 8 &&& (s.strand (s.owner s.cur)).travel.allowed).testBit (classOf s s.me.core) = false →
      ((s.strand (s.owner s.cur)).travel.credits = 0 ∨ s.inFamily s.cur = true →
        completesWith (.migr d a) s (s.updMe fun t => t.setReg d.toNat 2) (s.me.pc + 4)) ∧
      (∀ away, away = (s.me.reg a.toNat).toNat % 8 &&& (s.strand (s.owner s.cur)).travel.allowed &&&
          (if (s.couple s.cur).any fun v => !(s.strand v).gangs.isEmpty then 6 else 7) →
        (away = 0 → completesWith (.migr d a) s (s.updMe fun t => t.setReg d.toNat 2) (s.me.pc + 4)) ∧
        (away ≠ 0 → (s.strand (s.owner s.cur)).travel.credits ≠ 0 → s.inFamily s.cur = false →
          exec (.migr d a) s = .next (park { s with
            moves := (s.moves.filter fun x => x.uid != s.owner s.cur) ++ [⟨s.owner s.cur, away, 2,
              s.time + (s.context s.me.ctx).waitBound, none, s.clock, some d.toNat, s.cur, 0, []⟩] } s.cur (.migrate away false))))))

/-- On a C- or V-core with a free slot and a granted length of at least 2, FORKL performs a release at scope core,
halves the granted length, starts a child in the lowest free slot at x[a] with the parent's registers, x[d] apart, and
completes with a token that is not 0 in x[d]; without a slot or lanes it completes with 0; a target that is not a
multiple of 4 takes cause 5. JOINL of the token of a child whose run is over gives the lanes back and completes with
1, and of a token that names no child with 0. (R28, R109) -/
def Obligations.ForkJoin : Prop :=
  (∀ (s s1 : State) (d a : BitVec 6) (slot c : Nat) (rest : List Nat), d.toNat < 32 → a.toNat < 32 → onClass s 3 →
    (s.me.reg a.toNat).toNat % 4 = 0 → answers (release 0 15) s () s1 → s1 = s → c = s.me.gvl / 2 →
    (s.freeSlots s.me.core = slot :: rest → 2 ≤ s.me.gvl → s.nextUid ≠ s.cur →
      ∃ e, completesWith (.forkl d a) s e (s.me.pc + 4) ∧ e.nextUid = s.nextUid + 1 ∧ e.me.gvl = s.me.gvl - c ∧
        (e.strand s.nextUid).run = .ready ∧ (e.strand s.nextUid).pc = s.me.reg a.toNat ∧
        (e.strand s.nextUid).slot = slot ∧ (e.strand s.nextUid).core = s.me.core ∧ (e.strand s.nextUid).gvl = c ∧
        (e.strand s.nextUid).parent = some s.cur ∧ (∀ r, r ≠ d.toNat → (e.strand s.nextUid).reg r = s.me.reg r) ∧
        (e.strand s.nextUid).reg d.toNat = 0 ∧ (d ≠ 0 → e.me.reg d.toNat ≠ 0) ∧
        (∀ b, memByte e.mem b = memByte s.mem b)) ∧
    (s.freeSlots s.me.core = [] ∨ s.me.gvl < 2 →
      completesWith (.forkl d a) s (s.updMe fun t => t.setReg d.toNat 0) (s.me.pc + 4))) ∧
  (∀ (s : State) (d a : BitVec 6), d.toNat < 32 → a.toNat < 32 → onClass s 3 →
    ((s.me.reg a.toNat).toNat % 4 ≠ 0 →
      exec (.forkl d a) s = .next (takeTrap s s.cur ⟨5, 0, s.me.reg a.toNat⟩ false false)) ∧
    ((s.me.children.find? fun c => c.token = s.me.reg a.toNat) = none →
      completesWith (.joinl d a) s (s.updMe fun t => t.setReg d.toNat 0) (s.me.pc + 4)) ∧
    (∀ c, (s.me.children.find? fun c => c.token = s.me.reg a.toNat) = some c → (s.strand c.uid).run.live = false →
      completesWith (.joinl d a) s (s.updMe fun t => { t with
        gvl := min 64 (t.gvl + (s.strand c.uid).gvl)
        children := t.children.filter fun x => x.uid != c.uid }.setReg d.toNat 1) (s.me.pc + 4)) ∧
    (∀ c, (s.me.children.find? fun c => c.token = s.me.reg a.toNat) = some c → (s.strand c.uid).run.live = true →
      exec (.joinl d a) s = .next (park s s.cur (.join c.uid))))

/-- VADD, VSUB, VMUL, VMULH, VMAC, VDIV, VDIVN, VREM, VMIN, VMAX, VMINN, VMAXN, VAND, VOR, VXOR, VSLL, VSRL and VSRA
compute on the elements from VSTART to the end of the strip that VMS selects, wrapped to the element width, with
operand b a vector or the low bits of a scalar register; every other element of d keeps its value, no flag is raised,
VSTART becomes 0, and the instruction completes. VSADD and VSSUB clamp the exact signed sum or difference to the range
of the width and raise SX where they clamp; VABS and VNEG wrap. VREDSUM, VREDMIN and VREDMAX fold b[0] with the active
elements of a in ascending order into element 0 of d, from element 0 whatever VSTART is; no other element changes, and
a strip of no element writes nothing. (R116, R154, R156, R158, R159, R163, R375, R63, R160, R164) -/
def Obligations.VectorInteger : Prop :=
  (computesLanes2 .vadd vecClasses tyWidth 0 (fun d => .data d 2 true) (onBits fun _ x y _ => x + y) ∧
  computesLanes2 .vsub vecClasses tyWidth 0 (fun d => .data d 2 true) (onBits fun _ x y _ => x - y) ∧
  computesLanes2 .vmul vecClasses tyWidth 0 (fun d => .data d 2 true) (onBits fun _ x y _ => x * y) ∧
  computesLanes2 .vmulh vecClasses tyWidth 0 (fun d => .data d 2 true) (onBits fun w x y _ => BitVec.ofInt w (x.toInt * y.toInt / 2 ^ w)) ∧
  computesLanes2 .vmac vecClasses tyWidth 0 .reg (onBits fun _ x y z => z + x * y) ∧
  computesLanes2 .vdiv (fun _ => 3) tyWidth 0 (fun d => .data d 2 true) (onBits fun w x y _ => divides w x y) ∧
  computesLanes2 .vdivn (fun _ => 3) tyWidth 0 (fun d => .data d 2 true) (onBits fun w x y _ => if y = 0 then BitVec.allOnes w else x / y) ∧
  computesLanes2 .vrem (fun _ => 3) tyWidth 0 (fun d => .data d 2 true) (onBits fun w x y _ => remains w x y) ∧
  computesLanes2 .vmin vecClasses tyWidth 0 (fun d => .data d 2 true) (onBits fun _ x y _ => if x.toInt ≤ y.toInt then x else y) ∧
  computesLanes2 .vmax vecClasses tyWidth 0 (fun d => .data d 2 true) (onBits fun _ x y _ => if x.toInt ≤ y.toInt then y else x) ∧
  computesLanes2 .vminn vecClasses tyWidth 0 (fun d => .data d 2 true) (onBits fun _ x y _ => if x.toNat ≤ y.toNat then x else y) ∧
  computesLanes2 .vmaxn vecClasses tyWidth 0 (fun d => .data d 2 true) (onBits fun _ x y _ => if x.toNat ≤ y.toNat then y else x) ∧
  computesLanes2 .vand vecClasses tyWidth 0 (fun d => .data d 2 true) (onBits fun _ x y _ => x &&& y) ∧
  computesLanes2 .vor vecClasses tyWidth 0 (fun d => .data d 2 true) (onBits fun _ x y _ => x ||| y) ∧
  computesLanes2 .vxor vecClasses tyWidth 0 (fun d => .data d 2 true) (onBits fun _ x y _ => x ^^^ y) ∧
  computesLanes2 .vsll vecClasses tyWidth 0 (fun d => .data d 2 true) (onBits fun w x y _ => x <<< (y.toNat % w)) ∧
  computesLanes2 .vsrl vecClasses tyWidth 0 (fun d => .data d 2 true) (onBits fun w x y _ => x >>> (y.toNat % w)) ∧
  computesLanes2 .vsra vecClasses tyWidth 0 (fun d => .data d 2 true) (onBits fun w x y _ => x.sshiftRight (y.toNat % w))) ∧
  (computesLanes2 .vsadd vecClasses tyWidth 0 (fun d => .data d 2 true) (fun _ t x y _ => clamps (tyWidth t)
    ((BitVec.ofNat (tyWidth t) x).toInt + (BitVec.ofNat (tyWidth t) y).toInt)) ∧
  computesLanes2 .vssub vecClasses tyWidth 0 (fun d => .data d 2 true) (fun _ t x y _ => clamps (tyWidth t)
    ((BitVec.ofNat (tyWidth t) x).toInt - (BitVec.ofNat (tyWidth t) y).toInt)) ∧
  computesLanes1 .vabs vecClasses tyWidth 0 (fun _ t x =>
    ((if (BitVec.ofNat (tyWidth t) x).msb then -BitVec.ofNat (tyWidth t) x else BitVec.ofNat (tyWidth t) x).toNat, 0)) ∧
  computesLanes1 .vneg vecClasses tyWidth 0 (fun _ t x => ((-BitVec.ofNat (tyWidth t) x).toNat, 0)) ∧
  computesReduction .vredsum tyWidth 0 (fun t xs b => ((b + xs.sum) % 2 ^ tyWidth t, 0)) ∧
  computesReduction .vredmin tyWidth 0 (fun t xs b => (xs.foldl (fun m x =>
    if (BitVec.ofNat (tyWidth t) m).toInt < (BitVec.ofNat (tyWidth t) x).toInt then m else x) b, 0)) ∧
  computesReduction .vredmax tyWidth 0 (fun t xs b => (xs.foldl (fun m x =>
    if (BitVec.ofNat (tyWidth t) m).toInt < (BitVec.ofNat (tyWidth t) x).toInt then x else m) b, 0)))

/-- VFADD, VFSUB, VFMUL, VFMA, VFNMA, VFDIV, VFMIN, VFMAX and VFSCALE, and VFSQRT, VFEXP2, VFLOG2, VFABS and VFNEG,
compute each selected element in the format of ty with the rounding of FCSR.RM and or the flags of the selected
elements into FCSR; VFDIV, VFSQRT, VFEXP2 and VFLOG2 run on C and V. That VFEXP2 and VFLOG2 give Fp.exp2 and Fp.log2,
a computation with 256 fraction bits rounded once, is the model's choice of a value within the bound of R71 (log entry
18, DESIGN CHOICE). (R70, R71, R74, R165, R166) -/
def Obligations.VectorFloat : Prop :=
  computesLanes2 .vfadd vecClasses vfpWidth 1 (fun d => .data d 2 true) (fun s t x y _ => Fp.add (vfpFmt t) s.rm x y) ∧
  computesLanes2 .vfsub vecClasses vfpWidth 1 (fun d => .data d 2 true) (fun s t x y _ => Fp.sub (vfpFmt t) s.rm x y) ∧
  computesLanes2 .vfmul vecClasses vfpWidth 1 (fun d => .data d 2 true) (fun s t x y _ => Fp.mul (vfpFmt t) s.rm x y) ∧
  computesLanes2 .vfma vecClasses vfpWidth 1 .reg (fun s t x y z => Fp.fma (vfpFmt t) s.rm false z x y) ∧
  computesLanes2 .vfnma vecClasses vfpWidth 1 .reg (fun s t x y z => Fp.fma (vfpFmt t) s.rm true z x y) ∧
  computesLanes2 .vfdiv (fun _ => 3) vfpWidth 1 (fun d => .data d 2 true) (fun s t x y _ => Fp.div (vfpFmt t) s.rm x y) ∧
  computesLanes2 .vfmin vecClasses vfpWidth 1 (fun d => .data d 2 true) (fun _ t x y _ => Fp.minmax (vfpFmt t) false x y) ∧
  computesLanes2 .vfmax vecClasses vfpWidth 1 (fun d => .data d 2 true) (fun _ t x y _ => Fp.minmax (vfpFmt t) true x y) ∧
  computesLanes1 .vfsqrt (fun _ => 3) vfpWidth 1 (fun s t x => Fp.sqrt (vfpFmt t) s.rm x) ∧
  computesLanes1 (fun d a _ => .vfexp2 d a) (fun _ => 3) (fun _ => 32) 1 (fun s _ x => Fp.exp2 s.rm x) ∧
  computesLanes1 (fun d a _ => .vflog2 d a) (fun _ => 3) (fun _ => 32) 1 (fun s _ x => Fp.log2 s.rm x) ∧
  computesLanes1 .vfabs vecClasses vfpWidth 1 (fun _ t x => (Fp.withSign (vfpFmt t) x false, 0)) ∧
  computesLanes1 .vfneg vecClasses vfpWidth 1 (fun _ t x => (Fp.withSign (vfpFmt t) x (!Fp.signOf (vfpFmt t) x), 0)) ∧
  (∀ (s s1 s2 s3 : State) (d a b : BitVec 6) (t : BitVec 2) (x : BitVec 1) (va old : Vec) (vb : Nat → Nat),
    admitted s [.data d 2 true, .data a 2 false, xOpnd b x] → onClass s (vecClasses t) →
    answers (readV a) s va s1 → answers (readB b x (vfpWidth t)) s1 vb s2 → answers (oldV d) s2 old s3 →
    writesLanes (.vfscale d a b t x) s s3 d (vfpWidth t) 1 old
      (fun k => (scaleOp (vfpFmt t) s.me.rm (elem va (vfpWidth t) k)
        (if x = 1 then (s.me.reg b.toNat).toInt else (BitVec.ofNat (vfpWidth t) (vb k)).toInt)).1)
      (fun k => (scaleOp (vfpFmt t) s.me.rm (elem va (vfpWidth t) k)
        (if x = 1 then (s.me.reg b.toNat).toInt else (BitVec.ofNat (vfpWidth t) (vb k)).toInt)).2))

/-- VFCVT of two different codes converts each selected element of the wider of the two widths in FCSR.RM, and VFCVT
of equal codes converts FP32 elements stochastically, stepping SRSEED once for each, in ascending order. VFREDO sums
b[0] and the active elements one after another, VFREDT along the fixed tree and then adds b[0], and VFREDMAX and
VFREDMIN fold the maximum and minimum. (R82, R160, R167, R168) -/
def Obligations.VectorConvertReduce : Prop :=
  (∀ (s s1 s3 : State) (d a : BitVec 6) (dst src : BitVec 3) (va old : Vec) (w : Nat) (is : List Nat),
    admitted s [.data d 2 true, .data a 2 false] → onClass s (if dst = 3 ∨ src = 3 then 3 else 7) →
    answers (readV a) s va s1 → answers (oldV d) s1 old s3 →
    w = max (cvtWidth dst) (if dst = src then 32 else cvtWidth src) → is = s.me.lanes s.me.vstartN (s.me.strip w) →
    (dst ≠ src → ∃ r, (∀ k, k < 2048 / cvtWidth dst → elem r (cvtWidth dst) k =
        if k ∈ is then (cvtElem dst src s.me.rm (elem va (cvtWidth src) k)).1 % 2 ^ cvtWidth dst
        else elem old (cvtWidth dst) k) ∧
      ∀ s4 s5 e, answers (raiseFlags (is.foldl (fun m k =>
            m ||| (cvtElem dst src s.me.rm (elem va (cvtWidth src) k)).2) 0)) s3 () s4 →
        answers (writeV d r (topOf is * cvtWidth dst / 8)) s4 () s5 → answers (vecEnd (some 1)) s5 () e →
        completesWith (.vfcvt d a dst src) s e ((e.strand s.cur).pc + 4)) ∧
    (∀ g r, dst = src → cvtFmt dst = some g → stochastic g va (cvtWidth dst) is old s.me.srseed.toNat = r →
      ∀ s4 s5 e, answers (raiseFlags r.2.2) s3 () s4 →
        answers (writeV d r.1 (topOf is * cvtWidth dst / 8))
          (if is.isEmpty then s4 else s4.updMe fun t => { t with srseed := BitVec.ofNat 64 r.2.1 }) () s5 →
        answers (vecEnd (some 1)) s5 () e →
        completesWith (.vfcvt d a dst src) s e ((e.strand s.cur).pc + 4))) ∧
  computesReduction .vfredo vfpWidth 1 (fun t xs b => foldFlags (redAdd (vfpFmt t)) xs b) ∧
  computesReduction .vfredmax vfpWidth 1 (fun t xs b => foldFlags (Fp.minmax (vfpFmt t) true) xs b) ∧
  computesReduction .vfredmin vfpWidth 1 (fun t xs b => foldFlags (Fp.minmax (vfpFmt t) false) xs b) ∧
  (∀ (s s1 s2 s3 : State) (d a b : BitVec 6) (t : BitVec 2) (va vb old : Vec) (p : Nat × Nat),
    admitted s [.data d 2 true, .data a 2 false, .data b 2 false] → onClass s (vecClasses t) →
    answers (readV a) s va s1 → answers (readV b) s1 vb s2 → answers (oldV d) s2 old s3 →
    s.me.strip (vfpWidth t) ≠ 0 →
    treeReduce (vfpFmt t) (vfpWidth t) (fun k => if k < s.me.strip (vfpWidth t) ∧ s.me.active k = true then
      some (elem va (vfpWidth t) k) else none) (s.me.strip (vfpWidth t)) (elem vb (vfpWidth t) 0) = p →
    ∃ r, elem r (vfpWidth t) 0 = p.1 % 2 ^ vfpWidth t ∧
      (∀ k, 0 < k → k < 2048 / vfpWidth t → elem r (vfpWidth t) k = elem old (vfpWidth t) k) ∧
      ∀ s4 s5 e, answers (raiseFlags p.2) s3 () s4 → answers (writeV d r (vfpWidth t / 8)) s4 () s5 →
        answers (vecEnd (some 1)) s5 () e → completesWith (.vfredt d a b t) s e ((e.strand s.cur).pc + 4))

/-- VCEQ, VCNE, VCLT, VCLE, VCLTN and VCLEN compare elements as integers and VFCEQ, VFCLT, VFCLE and VFCUN as
floating-point numbers; bit k of d is written for the selected elements only, and a compare into the predicate that
selects its own elements starts at element 0. That a compare of no element does not write its predicate, so that no
dirty bit of R375 is set, is the model's choice (log entry 62, DEDUCED). (R156, R160, R169, R375) -/
def Obligations.VectorCompare : Prop :=
  computesCompare .vceq tyWidth (fun _ x y => (decide (x = y), 0)) ∧
  computesCompare .vcne tyWidth (fun _ x y => (decide (x ≠ y), 0)) ∧
  computesCompare .vclt tyWidth (fun t x y =>
    ((BitVec.ofNat (tyWidth t) x).slt (BitVec.ofNat (tyWidth t) y), 0)) ∧
  computesCompare .vcle tyWidth (fun t x y =>
    ((BitVec.ofNat (tyWidth t) x).sle (BitVec.ofNat (tyWidth t) y), 0)) ∧
  computesCompare .vcltn tyWidth (fun _ x y => (decide (x < y), 0)) ∧
  computesCompare .vclen tyWidth (fun _ x y => (decide (x ≤ y), 0)) ∧
  computesCompare .vfceq vfpWidth (fun t x y => Fp.feq (vfpFmt t) x y) ∧
  computesCompare .vfclt vfpWidth (fun t x y => Fp.flt (vfpFmt t) false x y) ∧
  computesCompare .vfcle vfpWidth (fun t x y => Fp.flt (vfpFmt t) true x y) ∧
  computesCompare .vfcun vfpWidth (fun t x y => Fp.unordered (vfpFmt t) x y)

/-- PAND, POR, PXOR, PANDN, PNOT, PSBF, PSIF, PSOF, PSET and PCLR write bits 0 to VL.COUNT - 1 of d and no other; PCNT
counts the set bits below VL.COUNT, PFIRST gives the lowest or -1, PTOX reads and PFROMX writes 64 bits of a
predicate. That an instruction does not write its predicate where VL is 0, so that no dirty bit of R375 is set, is the
model's choice (log entry 62, DEDUCED). (R155, R170, R375) -/
def Obligations.Predicates : Prop :=
  (∀ (s : State) (d a b : BitVec 6) (n first : Nat), n = s.me.vlCount →
    ((∀ k, k < n → (s.me.pred a.toNat).getLsbD k = false) → first = n) →
    ((∃ k, k < n ∧ (s.me.pred a.toNat).getLsbD k = true) → first < n ∧ (s.me.pred a.toNat).getLsbD first = true ∧
      ∀ k, k < first → (s.me.pred a.toNat).getLsbD k = false) →
    computesPred (.pand d a b) s d (fun k => (s.me.pred a.toNat).getLsbD k && (s.me.pred b.toNat).getLsbD k) ∧
    computesPred (.por d a b) s d (fun k => (s.me.pred a.toNat).getLsbD k || (s.me.pred b.toNat).getLsbD k) ∧
    computesPred (.pxor d a b) s d (fun k => (s.me.pred a.toNat).getLsbD k ^^ (s.me.pred b.toNat).getLsbD k) ∧
    computesPred (.pandn d a b) s d (fun k => (s.me.pred a.toNat).getLsbD k && !(s.me.pred b.toNat).getLsbD k) ∧
    computesPred (.pnot d a) s d (fun k => !(s.me.pred a.toNat).getLsbD k) ∧
    computesPred (.psbf d a) s d (fun k => decide (k < first)) ∧
    computesPred (.psif d a) s d (fun k => decide (k ≤ first)) ∧
    computesPred (.psof d a) s d (fun k => decide (k = first)) ∧
    computesPred (.pset d) s d (fun _ => true) ∧ computesPred (.pclr d) s d (fun _ => false) ∧
    (∀ s1 e, admitted s [.data d 1 true] →
      answers (writeX d (BitVec.ofNat 64 ((List.range n).countP (s.me.pred a.toNat).getLsbD))) s () s1 →
      answers (vecEnd (some 2)) s1 () e → completesWith (.pcnt d a) s e ((e.strand s.cur).pc + 4)) ∧
    (∀ s1 e, admitted s [.data d 1 true] →
      answers (writeX d (if first < n then BitVec.ofNat 64 first else BitVec.allOnes 64)) s () s1 →
      answers (vecEnd (some 2)) s1 () e → completesWith (.pfirst d a) s e ((e.strand s.cur).pc + 4))) ∧
  (∀ (s s1 e : State) (d a : BitVec 6) (k : BitVec 2), admitted s [.data d 1 true] →
    answers (writeX d ((s.me.pred a.toNat).extractLsb' (64 * k.toNat) 64)) s () s1 → answers (vecEnd (some 2)) s1 () e →
    completesWith (.ptox d a k) s e ((e.strand s.cur).pc + 4)) ∧
  (∀ (s s1 : State) (d a : BitVec 6) (k : BitVec 2) (x : Word), admitted s [.data a 1 false] →
    answers (readX a) s x s1 → ∃ p : Pred, p.extractLsb' (64 * k.toNat) 64 = x ∧
      (∀ j, j < 256 → j / 64 ≠ k.toNat → p.getLsbD j = (s.me.pred d.toNat).getLsbD j) ∧
      ∀ e, answers (vecEnd (some 2)) (s1.updMe fun t => t.setPred d.toNat p) () e →
        completesWith (.pfromx d a k) s e ((e.strand s.cur).pc + 4))

/-- VCOMPRESS packs the active elements to the low end and VEXPAND spreads consecutive elements to the active
positions; VSLIDEUP, VSLIDEDN, VPERMX, VBCAST, VIOTA, VZIP and VUNZIP write the active elements of the strip with the
source their rule names, 0 beyond the register, and VMOV copies those from VSTART on; VINSX writes the one element its
index names and VEXTX reads it, sign-extended, with 0 beyond the register. That VIOTA ignores field b is the model's
choice (log entry 32, DEDUCED). (R171) -/
def Obligations.Permutes : Prop :=
  ∀ (s s1 s2 s3 : State) (d a b k : BitVec 6) (t : BitVec 2) (x : BitVec 1) (w c n : Nat) (va vb old : Vec) (vs : Nat → Nat)
      (act : List Nat), w = tyWidth t → c = 2048 / w → n = s.me.strip w → act = s.me.lanes 0 n →
    (onClass s 3 → admitted s [.data d 2 true, .data a 2 false] → answers (readV a) s va s1 →
      answers (oldV d) s1 old s3 →
      writesElems (.vcompress d a t) s s3 d w old (List.range act.length) (fun j => elem va w (act.getD j 0)) ∧
      writesElems (.vexpand d a t) s s3 d w old act (fun j => elem va w (act.idxOf j))) ∧
    (admitted s [.data d 2 true, .data a 2 false] → onClass s (vecClasses t) → answers (readV a) s va s1 →
      answers (oldV d) s1 old s3 →
      writesElems (.vbcast d a k t) s s3 d w old act (fun _ => if k.toNat < c then elem va w k.toNat else 0) ∧
      writesLanes (.vmov d a t) s s3 d w 3 old (fun j => elem va w j) (fun _ => 0)) ∧
    (admitted s [.data d 2 true, .data a 2 false, xOpnd b x] → onClass s (vecClasses t) → answers (readV a) s va s1 →
      answers (readB b x w) s1 vs s2 → answers (oldV d) s2 old s3 →
      writesElems (.vslideup d a b t x) s s3 d w old (act.filter fun j => decide (vs 0 ≤ j))
        (fun j => elem va w (j - vs 0)) ∧
      writesElems (.vslidedn d a b t x) s s3 d w old act (fun j => if j + vs 0 < c then elem va w (j + vs 0) else 0)) ∧
    (admitted s [.data d 2 true, .data a 2 false, .data b 2 false] → onClass s (vecClasses t) → answers (readV a) s va s1 →
      answers (readV b) s1 vb s2 → answers (oldV d) s2 old s3 →
      (onClass s 3 → writesElems (.vpermx d a b t) s s3 d w old act
        (fun j => if elem vb w j < c then elem va w (elem vb w j) else 0)) ∧
      writesElems (.vzip d a b t) s s3 d w old act
        (fun j => if j % 2 = 0 then elem va w (j / 2) else elem vb w (j / 2)) ∧
      writesElems (.vunzip d a b t) s s3 d w old act
        (fun j => if 2 * j < n then elem va w (2 * j) else elem vb w (2 * j - n))) ∧
    (admitted s [.data d 2 true] → onClass s (vecClasses t) → answers (oldV d) s old s3 →
      writesElems (.viota d a b t) s s3 d w old act
        (fun j => (List.range j).countP fun i => (s.me.pred a.toNat).getLsbD i)) ∧
    (∀ p q : Word, admitted s [.data d 2 true, .data a 1 false, .data b 1 false] → onClass s (vecClasses t) →
      answers (readX a) s p s1 → answers (readX b) s1 q s2 → answers (oldV d) s2 old s3 →
      writesElems (.vinsx d a b t) s s3 d w old (if q.toNat < c then [q.toNat] else []) (fun _ => p.toNat % 2 ^ w)) ∧
    (∀ (q : Word) (e : State), admitted s [.data d 1 true, .data a 2 false, .data b 1 false] → onClass s (vecClasses t) →
      answers (readV a) s va s1 → answers (readX b) s1 q s2 →
      answers (writeX d (if q.toNat < c then (BitVec.ofNat w (elem va w q.toNat)).signExtend 64 else 0)) s2 () s3 →
      answers (vecEnd (some 3)) s3 () e → completesWith (.vextx d a b t) s e ((e.strand s.cur).pc + 4))

/-- SETVL and SETVLI set VL to the request cut to the granted length and give the count; SETMS selects a predicate or
all-true, and SETST sets VST. SCPUT of a dense strip gives 1, of a strip that does not fit or of another width -1, and
else appends the active elements and gives 0; SCTAKE takes up to a strip of elements, with zeros after the last;
SCFLUSH empties the buffer and gives the count; SCSTAT gives the count and the width code, which for an empty buffer
is 0 by the model's choice (log entry 36, DEDUCED). (R155, R157, R162, R179, R180) -/
def Obligations.StripControl : Prop :=
  ∀ (s s1 e : State) (d a : BitVec 6) (i : BitVec 12) (m : BitVec 1) (t : BitVec 2), d.toNat < 32 → a.toNat < 32 →
    (∀ n, n = min (s.me.reg a.toNat).toNat (s.me.gvl * 32 / tyWidth t) →
      answers (vecEnd none) (s.updMe fun x => { x with vl := BitVec.ofNat 64 (n + t.toNat * 4096) }.setReg d.toNat
        (BitVec.ofNat 64 n)) () e → completesWith (.setvl d a t) s e (s.me.pc + 4)) ∧
    (∀ n, n = min i.toNat (s.me.gvl * 32 / tyWidth t) →
      answers (vecEnd none) (s.updMe fun x => { x with vl := BitVec.ofNat 64 (n + t.toNat * 4096) }.setReg d.toNat
        (BitVec.ofNat 64 n)) () e → completesWith (.setvli d i t) s e (s.me.pc + 4)) ∧
    (answers (vecEnd none) (s.updMe fun x => { x with vms := if m = 1 then 0x40 else a.setWidth 64 }) () e →
      completesWith (.setms a m) s e (s.me.pc + 4)) ∧
    (answers (vecEnd none) (s.updMe fun x => { x with vst := s.me.reg a.toNat }) () e →
      completesWith (.setst a) s e (s.me.pc + 4)) ∧
    (answers (vecEnd none) (s.updMe fun x => { x with compaction := { x.compaction with elems := [] } }.setReg d.toNat
      (BitVec.ofNat 64 s.me.compaction.elems.length)) () e → completesWith (.scflush d) s e (s.me.pc + 4)) ∧
    (answers (vecEnd none) (s.updMe fun x => x.setReg d.toNat (BitVec.ofNat 64 (s.me.compaction.elems.length
      + (if s.me.compaction.elems.isEmpty then 0 else widthCode s.me.compaction.width) * 4096))) () e →
      completesWith (.scstat d) s e (s.me.pc + 4)) ∧
    (∀ (b : BitVec 6) (va : Vec) (w n : Nat) (is : List Nat) (c : Compaction) (r : Word) (c' : Compaction),
      admitted s [.reg d, .data b 2 false] → w = tyWidth t → n = s.me.strip w → is = s.me.lanes 0 n →
      c = s.me.compaction → answers (readV b) s va s1 →
      (r, c') = (if c.elems ≠ [] ∧ c.width ≠ w then ((-1 : Word), c)
        else if c.elems = [] ∧ (s.me.scthr.toNat % 128) * n ≤ is.length * 64 then (1, c)
        else if 4096 < (c.elems.length + is.length) * w then (-1, c)
        else (0, ⟨w, c.elems ++ is.map fun k => BitVec.ofNat 64 (elem va w k)⟩)) →
      answers (vecEnd (some 3)) (s1.updMe fun x => { x with compaction := c' }.setReg d.toNat r) () e →
      completesWith (.scput d b t) s e ((e.strand s.cur).pc + 4)) ∧
    (∀ (b : BitVec 6) (old : Vec) (w n k : Nat) (c : Compaction), admitted s [.data b 2 true] → w = tyWidth t →
      n = s.me.strip w → c = s.me.compaction → (c.elems = [] ∨ c.width = w) → k = min n c.elems.length →
      answers (oldV b) (s.updMe fun x => { x with compaction := { c with elems := c.elems.drop k } }) old s1 →
      writesElems (.sctake b t) s s1 b w old (List.range n) (fun j => if j < k then (c.elems.getD j 0).toNat else 0))

/-- After reset BOOTSTAT is 0, FWVER is 0, no quote has been completed, no base die is fenced, no strand is running
and every queue is Disabled; the tier weights are 128, 64, 32, 16, 8, 4, 2, 1 and the starvation bound is 10 ms; every
dispatch credit and N7 are 0; and memory is canonical and lists nothing, so that every byte reads as the model's
default, 0 (the default, DESIGN CHOICE, log entry 1, and that queues start Disabled, DESIGN CHOICE, log entry 2, are
the model's choices). (R13, R395, R421, R427, R430) -/
def Obligations.ResetState : Prop :=
  State.reset.module.bootStat = 0 ∧ State.reset.module.fwVer = 0 ∧ State.reset.module.quotes = 0 ∧
  (∀ d, (State.reset.die d).fenced = false ∧ (State.reset.die d).n7 = 0 ∧
    ∀ t, Tab.get 0 (State.reset.die d).credit t = 0) ∧
  (∀ u, (State.reset.strand u).run = .done) ∧
  (∀ q, (Tab.get LaunchQueue.blank State.reset.queues q).state = 0) ∧
  (∀ t, t < 8 → Tab.get 0 State.reset.module.weights t = 2 ^ (7 - t)) ∧ State.reset.module.starvation = 10000000 ∧
  State.reset.canonical ∧ ∀ a, memByte State.reset.mem a = 0

/-- From every state whose physical memory is in canonical form (addresses strictly rising, no entry equal to what an
unlisted address reads as), a step that answers a next state answers one whose memory is in canonical form: no
instruction, trap or device event of the machine breaks it. (R3, R209) -/
def Obligations.StepKeepsMemoryCanonical : Prop :=
  ∀ s s' : State, s.canonical → step s = .next s' → s'.canonical

/-- For every instruction that has an encoding and is well-formed, with every operand at every value its field admits,
the decoder reads the instruction back from the word that the encoder writes. (R28, R30, R31, R38, R39, R40) -/
def Obligations.DecodeEncode : Prop :=
  ∀ i : Instr, i.encoded = true → i.wf = true → decode (encode i) = .ok i

/-- Where a word decodes, the instruction has an encoding and is well-formed, and its encoding is the word: the
decoder drops no bit, and two words never decode to one instruction. (R28, R30, R38, R47) -/
def Obligations.EncodeDecode : Prop :=
  ∀ (w : InstrWord) (i : Instr), decode w = .ok i → i.encoded = true ∧ i.wf = true ∧ encode i = w

/-- The worked encodings of the manual decode to the instructions, with the operands, that their assembly lines name;
the sample with ty = 11 and the all-zero word are illegal with sub-causes 5 and 0. (R30, R38, R47) -/
def Obligations.DecodeWords : Prop :=
  decode 0x04518700 = .ok (.add 5 6 7 0 0) ∧ decode 0x04518703 = .ok (.add 5 6 7 1 1) ∧
  decode 0x54310919 = .ok (.vfma 3 4 9 0 1) ∧ decode 0x34808395 = .ok (.ld 8 2 3 2 1 1 1) ∧
  decode 0x30500FFD = .ok (.bne 5 0 0x7FD) ∧ decode 0x750D0B81 = .ok (.top 2 6 33 7 0 0 1) ∧
  decode 0x601C8220 = .ok (.vpermx 1 50 2 0) ∧
  decode 0x04518706 = .error .badType ∧ decode 0 = .error .zeroWord

/-- Where a step lets a strand issue that is not skipping, owes no cause-20 trap that it could take, and meets no
breakpoint, and the word at its program counter is fetched: if the word decodes to an instruction, the step is exec of
that instruction with BPSKIP cleared (an instruction that parks keeps BPSKIP, since it issues again); if it does not,
the strand takes the illegal-instruction trap. A fetch that faults takes its trap, a breakpoint takes cause 16 with
sub-cause 1, a skipping strand discards a word that does not end its skipping and runs the ENDLOOP that does, and a
pending cause 20 is taken first where no handler is active, with VPART where the instruction at the program counter
has begun. That the step picks which strand issues from a free order (DESIGN CHOICE, log entry 4) and that what is
past its deadline happens before it (DEDUCED, log entry 82) are the model's choices, and so is that a strand whose
operation replay holds at its place takes cause 20, and stops for a save or a move of its unit, after that operation
(State.settled; DEDUCED, log entry 53). (R29, R45, R108, R369, R370) -/
def Obligations.StepRunsDecoded : Prop :=
  ∀ (s : State) (u : Nat) (s0 : State) (t0 : Strand), letsIssue s u → s0 = s.issuing u → t0 = s0.me →
    (t0.async20 = none ∨ t0.trapStat.getLsbD 0 = true ∨ t0.atPlace.isSome = true →
      (t0.run ≠ .skipping → breakpoint t0 = false →
        (∀ x, fetch s0 = .error x →
          step s = .next (s.settled u (takeTrap (s0.updMe fun t => { t with bpSkip := false }) u x false false))) ∧
        (∀ w s1 s2, fetch s0 = .ok (w, s1) → s1.cur = u →
          s2 = (if t0.bpSkip then s1.updMe fun t => { t with bpSkip := false } else s1) →
          (∀ i t, decode w = .ok i → exec i s2 = .next t →
            (t0.bpSkip = false ∨ (t.strand u).run.isParked = false → step s = .next (s.settled u t)) ∧
            (t0.bpSkip = true → (t.strand u).run.isParked = true →
              step s = .next (s.settled u (t.updStrand u fun t => { t with bpSkip := true })))) ∧
          (∀ e, decode w = .error e →
            step s = .next (s.settled u (takeTrap s2 u ⟨1, e.sub, w.setWidth 64⟩ false false))))) ∧
      (t0.run ≠ .skipping → breakpoint t0 = true →
        step s = .next (s.settled u (takeTrap (recordElements s0) u ⟨16, 1, t0.pc⟩ false false))) ∧
      (t0.run = .skipping → ∀ s1, s1 = (if t0.bpSkip then s0.updMe fun t => { t with bpSkip := false } else s0) →
        (∀ x, fetch s1 = .error x → step s = .next (s.settled u (takeTrap s1 u x false false))) ∧
        (∀ w s2, fetch s1 = .ok (w, s2) →
          (endsSkip s2.me w = false → step s = .next (s.settled u (s2.updMe fun t => { t with pc := t.pc + 4 }))) ∧
          (endsSkip s2.me w = true → ∀ i t, decode w = .ok i → exec i s2 = .next t → step s = .next (s.settled u t))))) ∧
    (∀ tag, t0.async20 = some tag → t0.trapStat.getLsbD 0 = false → t0.atPlace = none →
      step s = .next (s.settled u
        (takeTrap ((pipeStop s0 u).updMe fun t => { t with async20 := none, bpSkip := false, waitGen := 0 }) u
          ⟨20, 0, tag⟩ true t0.part.begun)))

/-- A fetch at a program counter that is not a multiple of 4 takes cause 5 with the address; at an aperture address
cause 7 with sub-cause 2, and no word is read; else the fault of the translation, then the permission fault of the
leaf; else, where the line is poisoned, cause 11 with the address (DEDUCED, the model's choice, log entry 23); else
the word is the four bytes at the translated address in little-endian order, and the read is a transfer of its line.
The all-zero word, every other word of major 0x00, every word of majors 0x27 to 0x3E and every word of major 0x3F are
no instruction, with sub-causes 0, 1, 2 and 3. A word that is no instruction takes the illegal-instruction trap, cause
1, with the sub-cause of its condition and the word as trap value, at either level, and has no other effect. (R28,
R29, R45, R217, R250, R46, R47) -/
def Obligations.FetchAndIllegalWords : Prop :=
  (∀ s : State,
    (s.me.pc.toNat % 4 ≠ 0 → fetch s = .error ⟨5, 0, s.me.pc⟩) ∧
    (s.me.pc.toNat % 4 = 0 →
      (apertureOffset s.me.pc ≠ none → fetch s = .error ⟨7, 2, s.me.pc⟩) ∧
      (apertureOffset s.me.pc = none →
        (∀ x, translate s s.me.core s.me.firmware s.me.ctx s.me.pc = .error x → fetch s = .error x) ∧
        (∀ l s1, translate s s.me.core s.me.firmware s.me.ctx s.me.pc = .ok (l, s1) →
          (∀ x, checkLeaf .fetch l s.me.pc = some x → fetch s = .error x) ∧
          (checkLeaf .fetch l s.me.pc = none → poisonedAt s1 l 4 = true → fetch s = .error ⟨11, 0, s.me.pc⟩) ∧
          (checkLeaf .fetch l s.me.pc = none → poisonedAt s1 l 4 = false →
            fetch s = .ok (leWord 32 (decrypted s1 l (homeRead s1 l.pa 4)),
              touchRead s1 l.pa s.me.ctx s.me.pc l.counterEnable)))))) ∧
  ((∀ w : InstrWord, w ≠ 0 → (majorOf w).toNat = 0 → decode w = .error .majorZero) ∧
  (∀ w : InstrWord, 0x27 ≤ (majorOf w).toNat → (majorOf w).toNat ≤ 0x3E → decode w = .error .unassignedMajor) ∧
  (∀ w : InstrWord, (majorOf w).toNat = 0x3F → decode w = .error .reservedMajor) ∧
  (∀ (w : InstrWord) (e : Illegal) (s : State), decode w = .error e →
    runWord w s = .next (takeTrap s s.cur ⟨1, e.sub, w.setWidth 64⟩ false false)) ∧
  [Illegal.zeroWord, .majorZero, .unassignedMajor, .reservedMajor, .unassignedFn, .badType, .reservedField, .badOrdering].map
    Illegal.sub = [0, 1, 2, 3, 4, 5, 6, 7])

/-- An instruction takes the first trap of checks 4 to 8 that applies: its control-register number, the privilege of a
firmware-only form (cause 4), its operand fields (cause 2), the bar of execute strands (cause 13, sub-cause 6), its
queues (cause 13) and the class of its core (cause 3), each with the word as trap value or, for a queue, the handle.
An instruction that such a check stops has no effect: what exec does does not depend on its meaning. The class-missing
trap is not delivered to Naing: with T the classes of the allowed set that execute the form (without C for a strand in
a gang), a family member, and a strand with T empty, is emulated with reason 4 or 3 or, where emulation is not
possible, ends its unit; a strand without a credit is emulated with reason 1 or parks for one; else it parks and a
search of T begins that waits up to the context's wait bound. Emulation is possible where EMUVEC is not 0, no handler
runs and no x field names x24 to x31; its entry sets UIPC, swaps the bank, gives the word, the program counter and the
reason, and counts in MIGCNT.EMU. That an emulation is recorded as a move to the same core is DEDUCED (log entry 45),
the join with the search of a partner DEDUCED (log entry 50), and reason 4 over 3 where both apply DESIGN CHOICE (log
entry 124): the model's choices. (R35, R45, R46, R47, R150, R350, R352, R356, R358, R361) -/
def Obligations.CheckOrder : Prop :=
  (∀ (f : Form) (s : State), let w : Word := f.word.setWidth 64
    (∀ x, f.csr = some x → f.check s = some x) ∧
    (f.csr = none → f.firmware = true → s.me.firmware = false → f.check s = some ⟨4, 0, w⟩) ∧
    (f.csr = none → (f.firmware = true → s.me.firmware = true) →
      (∀ n, f.ops.findSome? Opnd.bad = some n → f.check s = some ⟨2, n, w⟩) ∧
      (f.ops.findSome? Opnd.bad = none →
        (f.bar = true → s.me.isExecute = true → f.check s = some ⟨13, 6, w⟩) ∧
        ((f.bar = true → s.me.isExecute = false) →
          (∀ o n rest before, f.ops = before ++ o :: rest → (∀ p ∈ before, p.badQueue s s.cur = none) →
            o.badQueue s s.cur = some n → f.check s = some ⟨13, n, o.field.setWidth 64⟩) ∧
          ((∀ o ∈ f.ops, o.badQueue s s.cur = none) →
            (f.classes.testBit (classOf s s.me.core) = false → f.check s = some ⟨3, 0, w⟩) ∧
            (f.classes.testBit (classOf s s.me.core) = true → f.check s = none)))))) ∧
  (∀ (f : Form) (body : M Flow) (s : State) (x : Trap), f.check s = some x → x.cause ≠ 3 → x.isEffect = false →
    insn f body s = .next (takeTrap s s.cur x false false)) ∧
  (∀ f : BitVec 6, (Opnd.reg f).bad = (if f.toNat < 32 then none else if f.toNat < 48 then some 1 else some 0) ∧
    (Opnd.sync f).bad = (if f.toNat < 32 then none else if f.toNat < 48 then some 3 else some 0) ∧
    (Opnd.queue f [] none).bad = (if f.toNat < 32 then some 2 else if f.toNat < 48 then none else some 0)) ∧
  (∀ (f : Form) (body : M Flow) (s : State) (x : Trap), f.check s = some x → x.cause = 3 →
    insn f body s = .next (classMissing s s.cur f.word f.classes f.xfields)) ∧
  (∀ (s : State) (u : Nat) (w : InstrWord) (classes : Nat) (xs : List Nat) (t o : Strand) (mask : Nat),
    t = s.strand u → o = s.strand (s.owner u) →
    mask = ((classes &&& o.travel.allowed) &&& (if (s.couple u).any fun v => !(s.strand v).gangs.isEmpty then 6 else 7)) →
    (∀ n, (s.inFamily u = true ∧ n = 4) ∨ (s.inFamily u = false ∧ mask = 0 ∧ n = 3) →
      (t.canEmulate xs = true → classMissing s u w classes xs = emulated s u w n) ∧
      (t.canEmulate xs = false → classMissing s u w classes xs = endUnit s u w)) ∧
    (s.inFamily u = false → mask ≠ 0 → o.travel.credits = 0 →
      (t.canEmulate xs = true → classMissing s u w classes xs = emulated s u w 1) ∧
      (t.canEmulate xs = false → classMissing s u w classes xs = park s u (.migrate mask true))) ∧
    (s.inFamily u = false → mask ≠ 0 → o.travel.credits ≠ 0 →
      ∀ p e, p = park s u (.migrate mask false) → e = classMissing s u w classes xs →
        (∀ v, e.strand v = p.strand v) ∧ e.device = { p.device with moves := e.moves } ∧
        ((∀ m ∈ p.moves, m.uid ≠ s.owner u) → e.moves = p.moves ++
          [⟨s.owner u, mask, 1, p.time + (p.context t.ctx).waitBound, none, p.clock, none, u, w, xs⟩])) ∧
    (t.canEmulate xs = (decide (t.emuVec ≠ 0) && !t.uistat.getLsbD 1 && xs.all fun r => decide (r < 24 ∨ 32 ≤ r))) ∧
    (∀ n, ∀ t', t' = t.enterEmulation w n →
      t'.pc = t.emuVec ∧ t'.uipc = t.pc + 4 ∧ t'.uistat = t.uistat ||| 2 ∧ t'.run = .ready ∧
      t'.reg 24 = w.setWidth 64 ∧ t'.reg 25 = t.pc ∧ t'.reg 26 = BitVec.ofNat 64 n ∧
      (∀ r, 27 ≤ r → r < 32 → t'.reg r = Tab.get 0 t.shadow r) ∧ (∀ r, r < 24 → t'.reg r = t.reg r) ∧
      (∀ r, 24 ≤ r → r < 32 → Tab.get 0 t'.shadow r = t.reg r ∧ t'.full.getLsbD r = t.shadowFull.getLsbD r ∧
        t'.shadowFull.getLsbD r = t.full.getLsbD r) ∧
      t'.v = t.v ∧ t'.p = t.p ∧ t'.queues = t.queues ∧ t'.travel = t.travel))

/-- SVC takes trap 15 and BRK trap 16 with the value of their field, at user and at firmware level; at user level they
are counted as instructions. RETT at firmware level goes to TRAPPC at the level of PPRV, clears ACT, whether or not
ACT was set, keeps VSTART, VDONE and how far the instruction at TRAPPC had come, and no more of any other, and touches
no memory; at user level it takes the privilege trap with its word. (R380, R44, R438, R368) -/
def Obligations.SystemCalls : Prop :=
  (∀ (s : State) (c : BitVec 6),
    (s.me.firmware = true →
      exec (.svc c) s = .next (takeTrap s s.cur ⟨15, 0, c.setWidth 64⟩ false false) ∧
      exec (.brk c) s = .next (takeTrap s s.cur ⟨16, 0, c.setWidth 64⟩ false false)) ∧
    (s.me.firmware = false →
      exec (.svc c) s = .next (takeTrap (countIssued s s.cur 7) s.cur ⟨15, 0, c.setWidth 64⟩ false false) ∧
      exec (.brk c) s = .next (takeTrap (countIssued s s.cur 7) s.cur ⟨16, 0, c.setWidth 64⟩ false false))) ∧
  (∀ s : State,
    (s.me.firmware = true → ∃ t, exec .rett s = .next t ∧ (t.strand s.cur).pc = s.me.trapPc ∧
      (t.strand s.cur).firmware = s.me.trapStat.getLsbD 1 ∧ (t.strand s.cur).trapStat.getLsbD 0 = false ∧
      (t.strand s.cur).vstart = s.me.vstart ∧ (t.strand s.cur).vdone = s.me.vdone ∧ (t.strand s.cur).tile = s.me.tile ∧
      (∀ p, p = Tab.get Progress.none s.me.parts (partLevel (s.me.trapStat.getLsbD 1)) →
        (t.strand s.cur).part = if p.pc = s.me.trapPc then p else Progress.none) ∧
      (∀ r, (t.strand s.cur).reg r = s.me.reg r) ∧ t.device = s.device ∧ t.agenda = s.agenda ∧
      ∀ v, v ≠ s.cur → t.strand v = s.strand v) ∧
    (s.me.firmware = false → exec .rett s = .next (takeTrap s s.cur ⟨4, 0, 0x94000010⟩ false false)))

/-- A strand that takes a trap enters its handler: TRAPPC gets the program counter, TRAPCAUSE the cause, the sub-cause
and ASYNC, TRAPVAL the value; TRAPSTAT gets the old level in PPRV, ACT set, and VPART, UIIN, EXEC and SLOT, with
BPSKIP kept; the level becomes firmware and the program counter TRAPVEC. No scalar, vector or predicate register, no
queue, nothing of another strand and nothing else of the device changes. At firmware level with ACT set it is a double
trap: the strand is fenced, EVSTAT bit 1 is set, and a live context is lost. (R364, R365, R366, R371) -/
def Obligations.TrapEntry : Prop :=
  ∀ (s : State) (u : Nat) (x : Trap) (a part : Bool) (t t' : Strand), t = s.strand u →
    t' = (takeTrap s u x a part).strand u →
    (¬ (t.trapStat.getLsbD 0 = true ∧ t.firmware = true) →
      t'.trapPc = t.pc ∧ t'.trapVal = x.val ∧ t'.firmware = true ∧ t'.pc = t.trapVec ∧ t'.run = .ready ∧
      (t'.trapCause.extractLsb' 0 6).toNat = x.cause % 64 ∧ (t'.trapCause.extractLsb' 16 8).toNat = x.sub % 256 ∧
      t'.trapCause.getLsbD 31 = a ∧ t'.trapStat.getLsbD 0 = true ∧ t'.trapStat.getLsbD 1 = t.firmware ∧
      t'.trapStat.getLsbD 8 = t.trapStat.getLsbD 8 ∧ t'.trapStat.getLsbD 9 = part ∧
      t'.trapStat.getLsbD 10 = t.uistat.getLsbD 1 ∧ t'.trapStat.getLsbD 11 = t.isExecute ∧
      (t'.trapStat.extractLsb' 12 4).toNat = t.slot % 16 ∧
      (∀ r, t'.reg r = t.reg r) ∧ t'.v = t.v ∧ t'.p = t.p ∧ t'.queues = t.queues ∧ t'.full = t.full ∧ t'.accs = t.accs ∧
      t'.uistat = t.uistat ∧ (takeTrap s u x a part).device = s.device ∧ (takeTrap s u x a part).agenda = s.agenda ∧
      ∀ v, v ≠ u → (takeTrap s u x a part).strand v = s.strand v) ∧
    (t.trapStat.getLsbD 0 = true → t.firmware = true →
      ∀ s1, s1 = finishStrand (s.tellHost 1) u → s1.module.evStat.getLsbD 1 = true ∧
        (s1.strand u).run = .done ∧ (∀ v, v ≠ u → s1.strand v = s.strand v) ∧
        takeTrap s u x a part = if (s1.context t.ctx).live then loseContext s1 t.ctx 4 (some u) else s1)

/-- At firmware level: WFI with events pending completes with their mask and clears them, and parks with none; TLBINV
starts the shootdown of its operands, with the next sequence number of its base die, and waits for it; CTXSV of a slot
that holds no strand, or a unit that cannot be pre-empted, completes with 0, and of another unit begins its pre-
emption and waits, and of its own begins that past the instruction; CTXLD of an area that cannot be read loses the
context of the unit that was saved there and completes with 2, of a damaged one, or one of no saved unit, completes
with 3, of a sound one with 1 on a core with room and with 0 without; LNPURGE of an address with memory leaves the 128
bytes of its line 0 and every other byte as it was, the line without sharers, and completes with 1, of an address of a
fenced base die takes the poisoned-data fault, and of another address completes with 0. At user level each takes the
privilege trap. When the shared translation caches drop what TLBINV names (DEDUCED, log entry 63), the integrity tag
of a save area and that an area loaded before answers 3 (DESIGN CHOICE, log entry 15; DEDUCED, log entry 73), and what
CTXLD makes of a GVL field above 64 (DESIGN CHOICE, log entry 26) are the model's choices. (R27, R44, R252, R381,
R382, R383, R384, R385) -/
def Obligations.FirmwareInstructions : Prop :=
  (∀ (s : State) (d a b : BitVec 6), s.me.firmware = true → d.toNat < 32 → a.toNat < 32 → b.toNat < 32 →
    (s.module.events ≠ 0 → completesWith (.wfi d) s
      ((s.updModule fun k => { k with events := 0 }).updMe fun t => t.setReg d.toNat s.module.events) (s.me.pc + 4)) ∧
    (s.module.events = 0 → exec (.wfi d) s = .next (park s s.cur .event)) ∧
    (∀ n s1, startShootdown s (dieOf s s.me.core) ((s.me.reg b.toNat).getLsbD 16) ((s.me.reg b.toNat).getLsbD 17)
        ((s.me.reg b.toNat).extractLsb' 0 12).toNat (s.me.reg a.toNat) = (n, s1) →
      n = (s.die (dieOf s s.me.core)).shootSeq ∧ shooting s1 (dieOf s s.me.core) n = true ∧
      exec (.tlbinv d a b) s =
        .next (park s1 s.cur (.shootdown (dieOf s s.me.core) n d.toNat (BitVec.ofNat 64 n)))) ∧
    (∀ u, u = s.atSlot ((s.me.reg a.toNat).extractLsb' 0 14).toNat ((s.me.reg a.toNat).extractLsb' 16 4).toNat →
      (u = none → completesWith (.ctxsv d a) s (s.updMe fun t => t.setReg d.toNat 0) (s.me.pc + 4)) ∧
      (∀ v, u = some v → (s.unit v).all (fun m => preemptible s m) = false →
        completesWith (.ctxsv d a) s (s.updMe fun t => t.setReg d.toNat 0) (s.me.pc + 4)) ∧
      (∀ v, u = some v → (s.unit v).all (fun m => preemptible s m) = true → s.cur ∉ s.unit v →
        exec (.ctxsv d a) s =
          .next (park (beginPreempt s (s.unit v) (some (s.cur, d.toNat))) s.cur (.save v d.toNat))) ∧
      (∀ v, u = some v → (s.unit v).all (fun m => preemptible s m) = true → s.cur ∈ s.unit v →
        exec (.ctxsv d a) s = .next (beginPreempt (s.updMe fun t => { t with pc := t.pc + 4 }) (s.unit v) none))) ∧
    (saveCheck s (s.me.reg a.toNat) = 3 →
      completesWith (.ctxld d a b) s (s.updMe fun t => t.setReg d.toNat 3) (s.me.pc + 4)) ∧
    (saveCheck s (s.me.reg a.toNat) = 0 → savedAt s (s.me.reg a.toNat) = none →
      completesWith (.ctxld d a b) s (s.updMe fun t => t.setReg d.toNat 3) (s.me.pc + 4)) ∧
    (saveCheck s (s.me.reg a.toNat) = 2 → ∀ l, l = loseSaved s (s.me.reg a.toNat) → l.cur = s.cur →
      completesWith (.ctxld d a b) s (l.updMe fun t => t.setReg d.toNat 2) ((l.strand s.cur).pc + 4)) ∧
    (∀ x core, saveCheck s (s.me.reg a.toNat) = 0 → savedAt s (s.me.reg a.toNat) = some x →
      core = ((s.me.reg b.toNat).extractLsb' 0 14).toNat →
      (core < 4 * coresPerDie s.module.blend → hasRoom s core x.members x.members.length = true →
        ∀ r, r = restoreUnit s x core ((s.me.reg b.toNat).extractLsb' 16 7).toNat (s.me.reg a.toNat) → r.cur = s.cur →
          completesWith (.ctxld d a b) s (r.updMe fun t => t.setReg d.toNat 1) ((r.strand s.cur).pc + 4)) ∧
      (¬ (core < 4 * coresPerDie s.module.blend ∧ hasRoom s core x.members x.members.length = true) →
        completesWith (.ctxld d a b) s (s.updMe fun t => t.setReg d.toNat 0) (s.me.pc + 4))) ∧
    (∀ pa, pa = (s.me.reg a.toNat).toNat / 128 * 128 →
      (2 ^ 52 ≤ pa ∨ hasMemory s pa = false →
        completesWith (.lnpurge d a) s (s.updMe fun t => t.setReg d.toNat 0) (s.me.pc + 4)) ∧
      (pa < 2 ^ 52 → hasMemory s pa = true → reachable s pa = false →
        exec (.lnpurge d a) s = .next (takeTrap s s.cur ⟨11, 0, BitVec.ofNat 64 pa⟩ false false)) ∧
      (pa < 2 ^ 52 → hasMemory s pa = true → reachable s pa = true → ∃ e, completesWith (.lnpurge d a) s e (s.me.pc + 4) ∧
        (d ≠ 0 → e.me.reg d.toNat = 1) ∧ (e.line (pa / 128)).code = 0 ∧ (e.line (pa / 128)).sharers = [] ∧
        ∀ x, memByte e.mem x = if pa ≤ x ∧ x < pa + 128 then 0 else memByte s.mem x))) ∧
  (∀ (s : State) (d a b : BitVec 6), s.me.firmware = false →
    exec (.wfi d) s = .next (takeTrap s s.cur ⟨4, 0, (encode (.wfi d)).setWidth 64⟩ false false) ∧
    exec (.tlbinv d a b) s = .next (takeTrap s s.cur ⟨4, 0, (encode (.tlbinv d a b)).setWidth 64⟩ false false) ∧
    exec (.ctxsv d a) s = .next (takeTrap s s.cur ⟨4, 0, (encode (.ctxsv d a)).setWidth 64⟩ false false) ∧
    exec (.ctxld d a b) s = .next (takeTrap s s.cur ⟨4, 0, (encode (.ctxld d a b)).setWidth 64⟩ false false) ∧
    exec (.lnpurge d a) s = .next (takeTrap s s.cur ⟨4, 0, (encode (.lnpurge d a)).setWidth 64⟩ false false))

/-- For every form of their operands, order and scope, ADD, MIN, MAX, MINN, MAXN, AND, OR, XOR, SWP, FADD, FADDH and
CAS compute the new value of R291 from the old one and the low bits of x[b], FADD and FADDH to nearest even, and CAS
makes no write where the old value is not the low bits of x[d]; they complete with the old value in d, sign-extended
from 32 bits in the integer forms, SWP and CAS, with the upper bits 0 in 32-bit FADD and FADDH. A misaligned address
takes cause 5, and a fault of the place or of the step there is taken with no effect. (R32, R46, R290, R291, R292,
R293) -/
def Obligations.AtomicResults : Prop :=
  computesAtomic .atmAdd (fun d => .data d 1 true) 7 32 0 (onWords 32 (· + ·)) ∧
  computesAtomic .atmMin (fun d => .data d 1 true) 7 32 1 (onWords 32 (fun x y => if y.slt x then y else x)) ∧
  computesAtomic .atmMax (fun d => .data d 1 true) 7 32 2 (onWords 32 (fun x y => if x.slt y then y else x)) ∧
  computesAtomic .atmMinn (fun d => .data d 1 true) 7 32 3 (onWords 32 (fun x y => if y < x then y else x)) ∧
  computesAtomic .atmMaxn (fun d => .data d 1 true) 7 32 4 (onWords 32 (fun x y => if x < y then y else x)) ∧
  computesAtomic .atmAnd (fun d => .data d 1 true) 7 32 5 (onWords 32 (· &&& ·)) ∧
  computesAtomic .atmOr (fun d => .data d 1 true) 7 32 6 (onWords 32 (· ||| ·)) ∧
  computesAtomic .atmXor (fun d => .data d 1 true) 7 32 7 (onWords 32 (· ^^^ ·)) ∧
  computesAtomic .atmSwp (fun d => .data d 1 true) 7 32 8 (onWords 32 (fun _ y => y)) ∧
  computesAtomic .atmdAdd (fun d => .data d 1 true) 7 64 0 (onWords 64 (· + ·)) ∧
  computesAtomic .atmdMin (fun d => .data d 1 true) 7 64 1 (onWords 64 (fun x y => if y.slt x then y else x)) ∧
  computesAtomic .atmdMax (fun d => .data d 1 true) 7 64 2 (onWords 64 (fun x y => if x.slt y then y else x)) ∧
  computesAtomic .atmdMinn (fun d => .data d 1 true) 7 64 3 (onWords 64 (fun x y => if y < x then y else x)) ∧
  computesAtomic .atmdMaxn (fun d => .data d 1 true) 7 64 4 (onWords 64 (fun x y => if x < y then y else x)) ∧
  computesAtomic .atmdAnd (fun d => .data d 1 true) 7 64 5 (onWords 64 (· &&& ·)) ∧
  computesAtomic .atmdOr (fun d => .data d 1 true) 7 64 6 (onWords 64 (· ||| ·)) ∧
  computesAtomic .atmdXor (fun d => .data d 1 true) 7 64 7 (onWords 64 (· ^^^ ·)) ∧
  computesAtomic .atmdSwp (fun d => .data d 1 true) 7 64 8 (onWords 64 (fun _ y => y)) ∧
  computesAtomic .atmFadd (fun d => .data d 1 true) 7 32 9 (fun _ x y => some (Fp.addHome 32 (x % 2 ^ 32) (y % 2 ^ 32))) ∧
  computesAtomic .atmdFadd (fun d => .data d 1 true) 3 64 9 (fun _ x y => some (Fp.addHome 64 (x % 2 ^ 64) (y % 2 ^ 64))) ∧
  computesAtomic .atmFaddh (fun d => .data d 1 true) 7 32 10 (fun _ x y => some (Fp.addHome 16 (x % 65536) (y % 65536) +
    65536 * Fp.addHome 16 (x / 65536 % 65536) (y / 65536 % 65536))) ∧
  computesAtomic .atmCas .reg 7 32 11 (fun c x y => if x % 2 ^ 32 = c % 2 ^ 32 then some (y % 2 ^ 32) else none) ∧
  computesAtomic .atmdCas .reg 7 64 11 (fun c x y => if x % 2 ^ 64 = c % 2 ^ 64 then some (y % 2 ^ 64) else none)

/-- A reduction at an aligned address, at no watch, completes as soon as it is on its way to its place, with the dirty
private window words written back first where its order is a release; an unordered one to the local aperture that
nothing keeps is performed at once, or goes on its way where it must wait. A misaligned address takes cause 5, and a
watch that its write meets cause 17: that a reduction is looked at as a store is, when it issues, is the model's
choice (log entry 92, DEDUCED). At its place it is performed as an atomic step with the operation of its function, and
an acquire of its takes effect then; a fault there discards it and is recorded in the context's fault log; where its
context is gone, or the drain bound of its teardown has passed, it is reported to the orphan queue with an event; what
holds it there keeps it on its way. In plain allotment an atomic step answers the bytes that stand there and puts the
new value there, and changes nothing else. On a home-class line that no agent holds, of a parcel neither blocked nor
moved nor logged nor counted, it answers the word of physical memory at the translated address and leaves the new
value there; every other byte of memory is unchanged. Before it come, in this order, the misaligned trap, the faults
of the place (an aperture address beyond the allotment takes cause 22 with sub-cause 0, else the translation and then
the permission and class of the leaf), an unsupported floating-point type in tier 2 or 3 (cause 12 with the tier less
2), and a poisoned word (cause 11). (R290, R291, R293, R296, R297, R381, R414, R125, R250, R255, R292, R294) -/
def Obligations.Reductions : Prop :=
  (sendsReduction .redAdd32 7 0 32 ∧ sendsReduction .redMin32 7 1 32 ∧
  sendsReduction .redMax32 7 2 32 ∧ sendsReduction .redMinn32 7 3 32 ∧
  sendsReduction .redMaxn32 7 4 32 ∧ sendsReduction .redAnd32 7 5 32 ∧
  sendsReduction .redOr32 7 6 32 ∧ sendsReduction .redXor32 7 7 32 ∧
  sendsReduction .redFadd32 7 9 32 ∧ sendsReduction .redFaddh32 7 10 32 ∧
  sendsReduction .redAdd64 7 0 64 ∧ sendsReduction .redMin64 7 1 64 ∧
  sendsReduction .redMax64 7 2 64 ∧ sendsReduction .redMinn64 7 3 64 ∧
  sendsReduction .redMaxn64 7 4 64 ∧ sendsReduction .redAnd64 7 5 64 ∧
  sendsReduction .redOr64 7 6 64 ∧ sendsReduction .redXor64 7 7 64 ∧
  sendsReduction .redFadd64 3 9 64 ∧
  (∀ (r : Reduction) (x : Nat), r.fn < 11 → r.fn ≠ 8 →
    (reductionAtom r 0).new x = some (reductionValue r.fn r.width x r.src.toNat)) ∧
  (∀ (s s' : State) (r : Reduction),
    ((s.context r.ctx).live = false ∨ (∃ c, (s.context r.ctx).closing = some c ∧ c < s.time) → exec (.reductionPerform r) s =
      .next ((s.updModule fun m => { m with orphans := m.orphans ++ [(r.ctx, r.va, r.fn)] }).raise 0)) ∧
    ((s.context r.ctx).live = true → (∀ c, (s.context r.ctx).closing = some c → s.time ≤ c) →
      (answers (performReduction r) (inPlaceOf s r) () s' →
        ∃ t, exec (.reductionPerform r) s = .next (match r.acquire with
            | some sc => selfInvalidate (selfInvalidate t r.core sc) (s.strand r.issuer).core sc
            | none => t) ∧ t.mem = s'.mem ∧ t.lines = s'.lines ∧ t.parcels = s'.parcels ∧
          t.cur = s.cur ∧ (∀ u, u ≠ r.issuer → t.strand u = s'.strand u) ∧
          (t.strand r.issuer).firmware = (s.strand r.issuer).firmware ∧ (t.strand r.issuer).ctx = (s.strand r.issuer).ctx ∧
          (t.strand r.issuer).core = (s.strand r.issuer).core) ∧
      (∀ x e, performReduction r (inPlaceOf s r) = .error (.trap x) e →
        exec (.reductionPerform r) s = .next (faultLog (dropHold s (reductionDie s r) (.reductionPerform r)) r.ctx
          ⟨r.va, r.word.setWidth 64, x.cause, x.sub, false, r.slot, r.core⟩)) ∧
      (∀ x e, performReduction r (inPlaceOf s r) = .error x e → (∀ y, x ≠ .trap y) →
        exec (.reductionPerform r) s = .next (s.post (.reductionPerform r)))))) ∧
  ((∀ (s : State) (a : Atom) (va : Word) (u o old : Nat), watchHit s.me .atomic va a.n = none →
    trainOverlap s s.cur va 0 a.n = false → fetchOverlap s s.cur va 0 a.n = false → (s.strand u).spoiledAt o a.n = false → old = leNat (allotBytes (s.strand u) o a.n) →
    answers (performAtomic a va (.spad u o)) s old (match a.new old with
      | some x => s.updStrand u fun t => t.storeAllot o (leBytes a.n x)
      | none => s)) ∧
  (∀ (s : State) (a : Atom) (va : Word) (l : Leaf) (old : Nat), s.plainHome l va a.n → old = leNat (memBytes s.mem l.pa a.n) →
    ∃ e, answers (performAtomic a va (.mem l)) s old e ∧ match a.new old with
      | some v => storedBytes s.mem e.mem l.pa a.n v
      | none => ∀ x, memByte e.mem x = memByte s.mem x) ∧
  (∀ (s : State) (va : Word) (n : Nat) (fp : Bool),
    (va.toNat % n ≠ 0 → stops (atomicPlace va n fp) s ⟨5, 0, va⟩) ∧
    (va.toNat % n = 0 →
      (∀ x, stops (resolve .atomic va n) s x → stops (atomicPlace va n fp) s x) ∧
      (∀ p s1, answers (resolve .atomic va n) s p s1 →
        (∀ x, stops (placePa p) s1 x → stops (atomicPlace va n fp) s x) ∧
        (∀ lo s2, answers (placePa p) s1 lo s2 →
          (∀ l, lo = some l → fp = true → 2 ≤ tierOf l.pa → stops (atomicPlace va n fp) s ⟨12, tierOf l.pa - 2, va⟩) ∧
          ((∀ l, lo = some l → fp = false ∨ tierOf l.pa < 2) → ∀ s3, answers (checkChannel va n) s2 () s3 →
            answers (atomicPlace va n fp) s p s3))))) ∧
  (∀ (s : State) (k : Kind) (va : Word) (n : Nat),
    (∀ o, apertureOffset va = some o → (s.strand (s.allotOwner s.cur)).allotSize < o + n → stops (resolve k va n) s ⟨22, 0, va⟩) ∧
    (apertureOffset va = none → s.me.firmware = true ∨ windowOver s s.me.core s.me.ctx va = none →
      (∀ x, translate s s.me.core s.me.firmware s.me.ctx va = .error x → stops (resolve k va n) s x) ∧
      (∀ l s1, translate s s.me.core s.me.firmware s.me.ctx va = .ok (l, s1) →
        (∀ x, checkLeaf k l va = some x → stops (resolve k va n) s x) ∧
        (checkLeaf k l va = none → answers (resolve k va n) s (.mem l) s1)))) ∧
  (∀ (s : State) (a : Atom) (va : Word) (l : Leaf), poisonedAt s l a.n = true → stops (performAtomic a va (.mem l)) s ⟨11, 0, va⟩))

/-- SBAR of release kind completes once nothing of the named streams is left to perform, after it has written back
what a release of its scope writes back; of acquire kind, once no earlier read or redeem of the named streams and no
reduction is to come, it discards what an acquire of its scope discards; of both kinds it does the release first. With
a fetch, a train or a reduction of the named streams left, a release kind parks, and so does an acquire kind with a
fetch, a redeem or a reduction left. It is legal in an execute strand. WAITV of an aligned word of a home- or tracked-
class parcel in tier 0 or 1 reads it: while it is x[b] the strand parks on it, and when it is another value the
instruction completes with an acquire and that value in d. A fault of the word's place (as stated with the barrier
objects: cause 14 with sub-cause 0 in the aperture, in another class or in tier 2 or 3), or of its load, is taken with
no effect. (R124, R299, R300, R125, R305) -/
def Obligations.FencesAndValueWaits : Prop :=
  (∀ (s s1 : State) (m : BitVec 4) (p k : BitVec 2),
    (answers (if k.getLsbD 1 then release p.toNat m.toNat else pure ()) s () s1 →
      (k.getLsbD 0 = true → fetching s1 s1.cur m.toNat = false ∧ reducing s1 s1.cur = false ∧ redeeming s1 s1.cur m.toNat = false) →
      completesWith (.sbar m p k) s (if k.getLsbD 0 then selfInvalidate s1 s1.me.core p.toNat else s1)
        (((if k.getLsbD 0 then selfInvalidate s1 s1.me.core p.toNat else s1).strand s.cur).pc + 4)) ∧
    (k.getLsbD 1 = true → fetching s s.cur m.toNat = true ∨ reducing s s.cur = true ∨
        (s.me.trains.any fun x => m.toNat.testBit x.1 && x.2 != 0) = true →
      exec (.sbar m p k) s = .next (park s s.cur (.performed (m.toNat % 16 * 17 + 0x100)))) ∧
    (k = 1 → fetching s s.cur m.toNat = true ∨ reducing s s.cur = true ∨ redeeming s s.cur m.toNat = true →
      exec (.sbar m p k) s = .next (park s s.cur (.performed (m.toNat * 16 + 0x100 + m.toNat * 1024))))) ∧
  (∀ (s s1 s2 : State) (d a b : BitVec 6) (sc : BitVec 2) (va x : Word) (l : Leaf) (bs : List Byte) (p : Bool),
    s.me.isExecute = false → d.toNat < 32 → a.toNat < 32 → b.toNat < 32 → va = s.me.reg a.toNat →
    answers allStreams s () s → trapsWith (.waitv d a b sc) s (syncLeaf va 8 false true) s ∧
    (answers (syncLeaf va 8 false true) s l s1 → trapsWith (.waitv d a b sc) s (loadBytes va 8 false sc.toNat) s1) ∧
    (answers (syncLeaf va 8 false true) s l s1 → answers (loadBytes va 8 false sc.toNat) s1 (bs, p) s2 → x = BitVec.ofNat 64 (leNat bs) →
    (x = s.me.reg b.toNat → exec (.waitv d a b sc) s = .next (park s s.cur (.value va x))) ∧
    (x ≠ s.me.reg b.toNat →
      completesWith (.waitv d a b sc) s ((selfInvalidate s2 s2.me.core sc.toNat).updMe fun t => t.setReg d.toNat x)
        ((((selfInvalidate s2 s2.me.core sc.toNat).updMe fun t => t.setReg d.toNat x).strand s.cur).pc + 4))))

/-- On an initialised or a plain 16-byte home-class object in tier 0 or 1: BARI with a count from 1 to 2^24 releases
and sets COUNT to it, ARRIVED to 0, INIT, and PHASE to the next phase, or to 0 for an object without INIT, and with
another count takes cause 14 with sub-cause 2; BARV releases, counts an arrival, which at COUNT starts the next phase
with ARRIVED at 0, and writes the phase it arrived in to d; BARW waits while the phase is the low 32 bits of x[b], and
completes with an acquire; BARWT does the same with 0 in d, and completes with 1 at the deadline in x[d]. Where the
parcel or its full log makes the home hold the operation, BARI completes all the same, and BARV waits at its home for
its phase. An object that is not initialised takes cause 14 with sub-cause 1. The event of the deadline, once it has
gone by, ends a BARWT that waits with 1 in d. The object is checked in the order of R302: a misaligned address takes
cause 5, one in the aperture cause 14 with sub-cause 0, then come the translation, for BARI and BARV the permission,
and cause 14 with sub-cause 0 for a wrong class or tier; that a poisoned object then takes cause 11, before its INIT
or the count is looked at, is the model's choice (log entry 110, DESIGN CHOICE). A watch on the object traps after
these faults (R369). That a deadline ends a BARWT before anything else happens, and that a BARWT that a trap or a move
interrupted remembers a deadline that went by, are the model's choices (log entry 82, DEDUCED). (R220, R227, R250,
R301, R302, R303, R304, R369, R439) -/
def Obligations.Barriers : Prop :=
  (∀ (s s1 s2 e : State) (d a b : BitVec 6) (sc : BitVec 2) (va : Word) (n : Nat) (l : Leaf) (x : Barrier),
    s.me.isExecute = false → d.toNat < 32 → a.toNat < 32 → b.toNat < 32 → va = s.me.reg a.toNat →
    n = (s.me.reg b.toNat).toNat → answers allStreams s () s →
    trapsWith (.bari a b sc) s (syncLeaf va 16 true false) s ∧ trapsWith (.barv d a sc) s (syncLeaf va 16 true false) s ∧
    (answers (syncLeaf va 16 true false) s l s1 →
    (¬ (0 < n ∧ n ≤ 2 ^ 24) → exec (.bari a b sc) s = .next (takeTrap s s.cur ⟨14, 2, s.me.reg b.toNat⟩ false false)) ∧
    ((barrierAt s1 l).usable = false →
      exec (.barv d a sc) s = .next (takeTrap s s.cur ⟨14, 1, va⟩ false false)) ∧
    (∀ i, watchHit s1.me .store va 16 = some i → 0 < n ∧ n ≤ 2 ^ 24 →
      exec (.bari a b sc) s = .next (takeTrap s s.cur ⟨17, i, va⟩ false false)) ∧
    (∀ i, watchHit s1.me .atomic va 16 = some i → (barrierAt s1 l).usable = true →
      exec (.barv d a sc) s = .next (takeTrap s s.cur ⟨17, i, va⟩ false false)) ∧
    ((∀ k, watchHit s1.me k va 16 = none) → answers (release sc.toNat 15) s1 () s2 → x = barrierAt s2 l →
    (0 < n ∧ n ≤ 2 ^ 24 → barrierHeld s2 l = false →
      answers (putBarrier l va ⟨n, 0, if x.flags % 2 = 1 then (x.phase + 1) % 2 ^ 32 else 0, 1⟩) s2 () e →
      completesWith (.bari a b sc) s e ((e.strand s.cur).pc + 4)) ∧
    (∀ g : Gate, barrierHeld s2 l = true → answers (strandGate (homeDie l.pa) 2) s2 g s2 →
      (0 < n ∧ n ≤ 2 ^ 24 → ∃ e, completesWith (.bari a b sc) s e ((e.strand s.cur).pc + 4) ∧
        ∃ h ∈ (e.parcel (s2.movedPa l.pa / 65536)).held, h.op = bariCode ∧ h.value = s.me.reg b.toNat ∧ h.ret = none) ∧
      ((barrierAt s1 l).usable = true → ∃ t, exec (.barv d a sc) s = .next t ∧ (t.strand s.cur).run = .parked (.held l.frame) ∧
        ∃ h ∈ (t.parcel (s2.movedPa l.pa / 65536)).held, h.op = barvCode ∧ h.ret.isSome = true)) ∧
    ((barrierAt s1 l).usable = true → barrierHeld s2 l = false →
      answers (putBarrier l va
        (if x.count ≤ (x.arrived + 1) % 2 ^ 32 then ⟨x.count, 0, (x.phase + 1) % 2 ^ 32, x.flags⟩
          else ⟨x.count, (x.arrived + 1) % 2 ^ 32, x.phase, x.flags⟩)) s2 () e →
      completesWith (.barv d a sc) s (e.updMe fun t => t.setReg d.toNat (BitVec.ofNat 64 x.phase))
        ((e.me.setReg d.toNat (BitVec.ofNat 64 x.phase)).pc + 4))))) ∧
  (∀ (s s1 e : State) (d a b : BitVec 6) (sc : BitVec 2) (va : Word) (p : Nat) (l : Leaf) (x : Barrier),
    s.me.isExecute = false → d.toNat < 32 → a.toNat < 32 → b.toNat < 32 → va = s.me.reg a.toNat →
    p = (s.me.reg b.toNat).toNat % 2 ^ 32 → answers allStreams s () s →
    trapsWith (.barw a b sc) s (syncLeaf va 16 false false) s ∧ trapsWith (.barwt d a b sc) s (syncLeaf va 16 false false) s ∧
    (answers (syncLeaf va 16 false false) s l s1 → answers (readBarrier l va) s1 x e →
    (x.usable = false →
      exec (.barw a b sc) s = .next (takeTrap s s.cur ⟨14, 1, va⟩ false false) ∧
      exec (.barwt d a b sc) s = .next (takeTrap s s.cur ⟨14, 1, va⟩ false false)) ∧
    (x.usable = true → ∀ i, watchHit e.me .load va 16 = some i →
      exec (.barw a b sc) s = .next (takeTrap s s.cur ⟨17, i, va⟩ false false) ∧
      exec (.barwt d a b sc) s = .next (takeTrap s s.cur ⟨17, i, va⟩ false false)) ∧
    (x.usable = true → watchHit e.me .load va 16 = none →
      ∀ late : Bool, late = (e.me.part.late && e.me.part.wait == some (va, p, (s.me.reg d.toNat).toNat)) →
      (x.phase ≠ p →
        completesWith (.barw a b sc) s (selfInvalidate e e.me.core sc.toNat)
          (((selfInvalidate e e.me.core sc.toNat).strand s.cur).pc + 4)) ∧
      (x.phase = p → exec (.barw a b sc) s = .next (park s s.cur (.barrier va p none))) ∧
      (x.phase ≠ p → late = false →
        completesWith (.barwt d a b sc) s (barwtDone e sc.toNat d.toNat 0) (((barwtDone e sc.toNat d.toNat 0).strand s.cur).pc + 4)) ∧
      (x.phase = p → late = false → e.time < (s.me.reg d.toNat).toNat → exec (.barwt d a b sc) s =
          .next (park s s.cur (.barrier va p (some ((s.me.reg d.toNat).toNat, d.toNat, sc.toNat))))) ∧
      (late = true ∨ (x.phase = p ∧ ¬ e.time < (s.me.reg d.toNat).toNat) →
        completesWith (.barwt d a b sc) s (barwtDone e sc.toNat d.toNat 1)
          (((barwtDone e sc.toNat d.toNat 1).strand s.cur).pc + 4))))) ∧
  (∀ (s : State) (va : Word) (n : Nat) (writes tracked : Bool),
    (va.toNat % n ≠ 0 → stops (syncLeaf va n writes tracked) s ⟨5, 0, va⟩) ∧
    (va.toNat % n = 0 →
      (apertureOffset va ≠ none → stops (syncLeaf va n writes tracked) s ⟨14, 0, va⟩) ∧
      (apertureOffset va = none →
        (∀ x, translate s s.me.core s.me.firmware s.me.ctx va = .error x → stops (syncLeaf va n writes tracked) s x) ∧
        (∀ l s1, translate s s.me.core s.me.firmware s.me.ctx va = .ok (l, s1) →
          (writes = true → ∀ x, checkLeaf .store l va = some x → x.cause = 7 → stops (syncLeaf va n writes tracked) s x) ∧
          ((writes = true → ∀ x, checkLeaf .store l va = some x → x.cause ≠ 7) →
            (¬ (l.cls = 2 ∨ (tracked = true ∧ l.cls = 3)) ∨ 2 ≤ tierOf l.pa →
              stops (syncLeaf va n writes tracked) s ⟨14, 0, va⟩) ∧
            ((l.cls = 2 ∨ (tracked = true ∧ l.cls = 3)) → tierOf l.pa < 2 → answers (checkChannel va n) s1 () s1 →
              (poisonedAt s1 l n = true → stops (syncLeaf va n writes tracked) s ⟨11, 0, va⟩) ∧
              (poisonedAt s1 l n = false → answers (awaitOwn va l.pa n) s1 () s1 →
                answers (syncLeaf va n writes tracked) s l s1))))))) ∧
  (∀ (s : State) (u p dl d sc : Nat) (va : Word) (l : Leaf), (s.strand u).run = .parked (.barrier va p (some (dl, d, sc))) →
    dl < s.time → walk s (s.strand u).firmware (s.strand u).ctx va = .ok l → (barrierAt s l).phase = p →
    ∃ t, exec (.barwtDeadline u) s = .next t ∧ (t.strand u).run = .ready ∧
      (t.strand u).pc = (s.strand u).pc + 4 ∧ (∀ r, (t.strand u).reg r = if r = d ∧ r ≠ 0 then 1 else (s.strand u).reg r) ∧
      ∀ x, memByte t.mem x = memByte s.mem x)

/-- ACCDECL at an aligned target, of a span whose copies fit the allotment beside windows and the other span,
completes with the span declared, its copies 0 and nothing touched; reserved bits take cause 22 with sub-cause 8, a
length of 0, a FORKL child and a misfit sub-cause 10, and a misaligned target cause 5. VACC of a declared span adds
the active elements of b at the places that the elements of a name, each into the copy of its lane, and drops and
counts a place outside the span; of an undeclared span it takes cause 22 with sub-cause 5. VACC is counted and traced
as a vector instruction (DEDUCED, the model's choice, log entry 125). ACCMERGE folds the touched positions into memory
one after another in ascending order, and completes with the number of dropped elements in d, which becomes 0: at a
position in plain home memory one atomic step makes of the word there the fold of the copies, lane 0 first, the copies
of the position become 0, the position is touched no more, and no other byte of memory or of the allotment changes. A
fault at a position is taken with the positions below it merged, with VPART where one has been; a position that must
wait parks the strand at what it has merged. That a poisoned word at a position's place takes cause 11 is the model's
choice (log entry 44, DEDUCED). ACCREL completes with the span undeclared, and nothing is merged. (R292, R293, R306,
R307, R308, R309, R310, R368) -/
def Obligations.Spans : Prop :=
  (∀ (s : State) (k : BitVec 1) (a b : BitVec 6) (ty : BitVec 2) (x wd : Word) (w n bytes off len : Nat),
    s.me.isExecute = false → a.toNat < 32 → b.toNat < 32 → (ty = 0 ∨ ty = 3) → w = (if ty = 0 then 32 else 64) →
    onClass s (if ty = 3 then 3 else 7) → x = s.me.reg a.toNat → wd = s.me.reg b.toNat →
    len = (wd.extractLsb' 16 16).toNat → off = (wd.extractLsb' 0 16).toNat → n = s.me.strip w → bytes = n * len * (w / 8) →
    (2 ^ 33 ≤ wd.toNat → exec (.accdecl k a b ty) s = .next (takeTrap s s.cur ⟨22, 8, wd⟩ false false)) ∧
    (wd.toNat < 2 ^ 33 → s.me.parent = none → 0 < len → x.toNat % (w / 8) ≠ 0 →
      exec (.accdecl k a b ty) s = .next (takeTrap s s.cur ⟨5, 0, x⟩ false false)) ∧
    (wd.toNat < 2 ^ 33 → s.me.parent ≠ none ∨ len = 0 →
      exec (.accdecl k a b ty) s = .next (takeTrap s s.cur ⟨22, 10, wd⟩ false false)) ∧
    (wd.toNat < 2 ^ 33 → x.toNat % (w / 8) = 0 →
    (s.me.parent ≠ none ∨ len = 0 → exec (.accdecl k a b ty) s = .next (takeTrap s s.cur ⟨22, 10, wd⟩ false false)) ∧
    (s.me.parent = none → 0 < len → 0 < n ∧ 128 * off + bytes ≤ s.me.allotSize ∧ s.me.windowMeets (128 * off) bytes = false ∧
        s.me.spanMeets (128 * off) bytes (some k.toNat) = false →
      ∃ e, completesWith (.accdecl k a b ty) s e (s.me.pc + 4) ∧
        e.me.span k.toNat = some ⟨x, off, len, n, (wd.extractLsb' 32 1).toNat, w, 0, []⟩ ∧
        (∀ o, Tab.get 0 e.me.allot o = if 128 * off ≤ o ∧ o < 128 * off + bytes then 0 else Tab.get 0 s.me.allot o) ∧
        e.mem = s.mem) ∧
    (s.me.parent = none → 0 < len → ¬ (0 < n ∧ 128 * off + bytes ≤ s.me.allotSize ∧ s.me.windowMeets (128 * off) bytes = false ∧
        s.me.spanMeets (128 * off) bytes (some k.toNat) = false) →
      exec (.accdecl k a b ty) s = .next (takeTrap s s.cur ⟨22, 10, wd⟩ false false)))) ∧
  (∀ (s : State) (k : BitVec 1) (a b : BitVec 6) (x : Span), s.me.isExecute = false → a.toNat < 32 → b.toNat < 32 →
    onClass s (spanClasses s k.toNat) → s.me.span k.toNat = some x → s.me.gangs = [] →
    ∃ e, completesWith (.vacc k a b) s e (s.me.pc + 4)) ∧
  (∀ (s s1 s2 s3 : State) (k : BitVec 1) (a b : BitVec 6) (x : Span) (va vb : Vec) (r : Strand × Nat),
    s.me.isExecute = false → admitted s [.data a 2 false, .data b 2 false] → onClass s (spanClasses s k.toNat) →
    s.me.span k.toNat = some x → answers (readV a) s va s1 → answers (readV b) s1 vb s2 →
    r = (s2.me.lanes 0 (s2.me.strip x.w)).foldl (fun r i =>
      ((vaccElem r.1 k.toNat i (elem va x.w i) (elem vb x.w i)).1,
        r.2 ||| (vaccElem r.1 k.toNat i (elem va x.w i) (elem vb x.w i)).2)) (s2.me, 0) →
    answers (raiseFlags r.2) (s2.updMe fun _ => r.1.bump 0 1) () s3 →
    ∀ e, e = pipeRecords s3 s3.cur (if x.op = 0 then 0 else 1) false → completesWith (.vacc k a b) s e ((e.strand s.cur).pc + 4)) ∧
  (∀ (t : Strand) (k i j v : Nat) (x : Span), t.span k = some x →
    (x.length ≤ j → (vaccElem t k i j v).1.allot = t.allot ∧
      (vaccElem t k i j v).1.span k = some { x with dropped := min (x.dropped + 1) (2 ^ 32 - 1) }) ∧
    (j < x.length → (vaccElem t k i j v).1 = { t.storeAllot (x.place (i % x.count) j) (leBytes (x.w / 8)
        (x.add t.rm (leNat (allotBytes t (x.place (i % x.count) j) (x.w / 8))) v).1) with spoiled := t.spoiled }.setSpan k
          (some { x with touched := Tab.set false x.touched j true }))) ∧
  (∀ (s s1 : State) (d : BitVec 6) (k : BitVec 1) (x y : Span), s.me.isExecute = false → d.toNat < 32 →
    onClass s (spanClasses s k.toNat) → s.me.span k.toNat = some x → answers allStreams s () s →
    (answers (mergeAll k.toNat x s.me.part.merged (x.touched.map Prod.fst)) s () s1 → s1.me.span k.toNat = some y →
      ∃ e, completesWith (.accmerge d k) s e ((s1.strand s.cur).pc + 4) ∧ e.mem = s1.mem ∧
        (d ≠ 0 → e.me.reg d.toNat = BitVec.ofNat 64 y.dropped) ∧ e.me.span k.toNat = some { y with dropped := 0 }) ∧
    (∀ z part e, mergeAll k.toNat x s.me.part.merged (x.touched.map Prod.fst) s = .error (.trapAt z part) e → z.cause ≠ 3 →
      z.isEffect = false → exec (.accmerge d k) s = .next (takeTrap e e.cur z false part)) ∧
    (∀ w e, mergeAll k.toNat x s.me.part.merged (x.touched.map Prod.fst) s = .error (.parkAt w) e →
      exec (.accmerge d k) s = .next (park e s.cur w)) ∧
    (x.touched = [] → ∃ e, completesWith (.accmerge d k) s e (s.me.pc + 4) ∧ e.mem = s.mem ∧
      (d ≠ 0 → e.me.reg d.toNat = BitVec.ofNat 64 x.dropped) ∧ e.me.span k.toNat = some { x with dropped := 0 }) ∧
    (∀ (j : Nat) (l : Leaf) (va : Word), x.touched = [(j, true)] → va = x.target + BitVec.ofNat 64 (j * (x.w / 8)) →
      (x.w = 32 ∨ x.w = 64) → answers (atomicPlace va (x.w / 8) (x.op = 1)) s (.mem l) s1 → s1.plainHome l va (x.w / 8) →
      (∀ c, c < x.count → s1.me.spoiledAt (x.place c j) (x.w / 8) = false) →
      s1.me.span k.toNat = some x → s1.cur = s.cur →
      ∃ e, completesWith (.accmerge d k) s e ((s1.strand s.cur).pc + 4) ∧
        storedBytes s1.mem e.mem l.pa (x.w / 8) (x.fold s1.me j (leNat (memBytes s1.mem l.pa (x.w / 8)))) ∧
        (d ≠ 0 → e.me.reg d.toNat = BitVec.ofNat 64 x.dropped) ∧
        e.me.span k.toNat = some { x with touched := [], dropped := 0 } ∧
        (∀ c, c < x.count → allotBytes e.me (x.place c j) (x.w / 8) = List.replicate (x.w / 8) 0))) ∧
  (∀ (s : State) (k j : Nat) (x : Span) (l : Leaf) (va : Word) (s1 : State),
    va = x.target + BitVec.ofNat 64 (j * (x.w / 8)) → (x.w = 32 ∨ x.w = 64) →
    (∀ z, stops (atomicPlace va (x.w / 8) (x.op = 1)) s z → stops (mergeOne k x j) s z) ∧
    (answers (atomicPlace va (x.w / 8) (x.op = 1)) s (.mem l) s1 → s1.plainHome l va (x.w / 8) →
      (∀ c, c < x.count → s1.me.spoiledAt (x.place c j) (x.w / 8) = false) →
      ∃ e, answers (mergeOne k x j) s () e ∧
        storedBytes s1.mem e.mem l.pa (x.w / 8) (x.fold s1.me j (leNat (memBytes s1.mem l.pa (x.w / 8)))) ∧
        e.me.span k = (s1.me.span k).map (fun y => { y with touched := Tab.set false y.touched j false }) ∧
        (∀ c, c < x.count → allotBytes e.me (x.place c j) (x.w / 8) = List.replicate (x.w / 8) 0) ∧
        (∀ o, (∀ c, c < x.count → o < x.place c j ∨ x.place c j + x.w / 8 ≤ o) →
          Tab.get 0 e.me.allot o = Tab.get 0 s1.me.allot o) ∧
        (∀ r, e.me.reg r = s1.me.reg r) ∧ (∀ u, u ≠ s.cur → e.strand u = s1.strand u))) ∧
  (∀ (k : Nat) (x : Span) (part : Bool) (j : Nat) (js : List Nat) (s s1 : State),
    answers (mergeAll k x part []) s () s ∧
    (answers (mergeOne k x j) s () s1 → mergeAll k x part (j :: js) s = mergeAll k x true js s1) ∧
    (∀ z e, mergeOne k x j s = .error (.trap z) e →
      mergeAll k x part (j :: js) s = .error (.trapAt z part) (noteMerged s part))) ∧
  (∀ (s : State) (k : BitVec 1) (a b d : BitVec 6), s.me.isExecute = false → s.me.span k.toNat = none →
    (a.toNat < 32 → b.toNat < 32 → exec (.vacc k a b) s = .next (takeTrap s s.cur ⟨22, 5, k.setWidth 64⟩ false false)) ∧
    (d.toNat < 32 → exec (.accmerge d k) s = .next (takeTrap s s.cur ⟨22, 5, k.setWidth 64⟩ false false))) ∧
  (∀ (s : State) (k : BitVec 1), s.me.isExecute = false →
    completesWith (.accrel k) s (s.updMe fun t => t.setSpan k.toNat none) (s.me.pc + 4) ∧
    (s.me.setSpan k.toNat none).span k.toNat = none ∧ (s.me.setSpan k.toNat none).allot = s.me.allot)

/-- A vector load that passes its checks and none of whose elements faults completes with the loaded elements in its
register or on their way to its queue slot, at the unit-stride, strided or indexed addresses of its active elements
from VSTART on that VDONE does not mark; a VLDX whose destination is its index register checks and loads all before it
writes. VLDB makes one access for the lowest active element from VSTART on and gives its value to all that VDONE does
not mark. VLDFF loads in ascending order; at the lowest element that faults and is not the first active one it cuts VL
to that element, with the width code of its access, delivers the elements below, and completes. A fault of the first
active element, and a watch, trap at that element, as a fault of the access of VLDB does. That a load into a queue
allocates its slot when it issues is the model's choice (log entry 68, DEDUCED). (R137, R158, R172, R173, R174, R175,
R176, R369) -/
def Obligations.VectorLoads : Prop :=
  ∀ (s : State) (d b i : BitVec 6) (w st : BitVec 2) (h : BitVec 1), s.me.isExecute = false →
    (admitted s [.data d 2 true, .reg b] →
      loadsVector (.vld d b w st h) s d st (unitAccess s.me b w) false ∧
      loadsVector (.vlds d b w st h) s d st (stridedAccess s.me b w) false) ∧
    (admitted s [.data d 2 true, .reg b, .reg i] → onClass s 3 → answers (vecReady i.toNat) s () s →
      loadsVector (.vldx d b i w st h) s d st (indexedAccess s.me b i w) (d = i)) ∧
    (admitted s [.data d 2 true, .reg b] → answers (streamReady st.toNat) s () s →
      ∀ (v : VAccess) (is : List Nat) (old : Vec) (place : Option (Nat × Nat)) (s0 : State), is = s.me.todo v.w v.n →
        answers (oldV d) s old s → answers (loadSlot d) s place s0 → s0.me.todo v.w v.n = is →
        (v = broadcastAccess s.me b w →
          (∀ j rest, s.me.fromStart v.n = j :: rest → answers (checkChannels v [j]) s0 () s0 →
            (∀ x s1 e, answers (loadElem v j) s0 x s1 →
              answers (deliverLoad d place (putElems old v.w is fun _ => x) (some (topOf is * v.w / 8))) s1 () e →
              completesWith (.vldb d b w st h) s e ((e.strand s.cur).pc + 4)) ∧
            (∀ x part e, stops (loadElem v j) s0 x → x.cause ≠ 3 → x.isEffect = false → d.toNat < 32 →
              stopAt v x j [] 4 s0 = .error (.trapAt x part) e →
              exec (.vldb d b w st h) s = .next (takeTrap e e.cur x false part))) ∧
          (∀ e, s.me.fromStart v.n = [] → answers (deliverLoad d place 0 none) s0 () e →
            completesWith (.vldb d b w st h) s e ((e.strand s.cur).pc + 4))) ∧
        (v = unitAccess s.me b w → ∀ (s1 : State) (f : Nat → Nat),
          (∀ e, loadsFirst v is f s0 s1 → answers (deliverLoad d place (putElems old v.w is f) (some (topOf is * v.w / 8))) s1 () e →
            completesWith (.vldff d b w st h) s e ((e.strand s.cur).pc + 4)) ∧
          (∀ below j above x, is = below ++ j :: above → loadsFirst v below f s0 s1 →
            answers (checkChannel (v.addr j) (v.w / 8)) s1 () s1 → stops (loadElem v j) s1 x →
            (j ≠ (s.me.fromStart v.n).headD v.n → x.cause ≠ 17 → ∀ e,
              answers (deliverLoad d place (putElems old v.w below f) (some (topOf below * v.w / 8)))
                (s1.updMe fun t => { t with vl := BitVec.ofNat 64 (j + vlCode v.w * 4096) }) () e →
              completesWith (.vldff d b w st h) s e ((e.strand s.cur).pc + 4)) ∧
            (j = (s.me.fromStart v.n).headD v.n ∨ x.cause = 17 → x.cause ≠ 0 → x.cause ≠ 3 → x.isEffect = false → d.toNat < 32 →
              ∀ s2 part e, answers (writeV d (putElems old v.w below f) (topOf below * v.w / 8)) s1 () s2 →
                stopAt v x j below 4 s2 = .error (.trapAt x part) e →
                exec (.vldff d b w st h) s = .next (takeTrap e e.cur x false part)))))

/-- A vector store that passes its checks and none of whose elements faults stores the active elements of its register
or queue head from VSTART on in ascending order and completes; a full-line store reaches the homes of the lines in
which no element is active too (log entry 105, DEDUCED, the model's choice, on R251). VSTXR checks all its elements,
stores those of the scratchpad, sends one train of the rest to each base die that homes one and completes; each train
counts as outstanding in its stream until its acknowledgement. (R173, R174, R175, R177, R178, R251) -/
def Obligations.VectorStores : Prop :=
  ∀ (s : State) (d b i : BitVec 6) (w st : BitVec 2) (h : BitVec 1), s.me.isExecute = false →
    (admitted s [.data d 2 false, .reg b] →
      storesVector (.vst d b w st h) s d st (unitAccess s.me b w) ∧
      storesVector (.vsts d b w st h) s d st (stridedAccess s.me b w)) ∧
    (admitted s [.data d 2 false, .reg b, .reg i] → onClass s 3 → answers (vecReady i.toNat) s () s →
      storesVector (.vstx d b i w st h) s d st (indexedAccess s.me b i w) ∧
      ∀ (v : VAccess) (x : Vec) (is : List Nat) (es : List TrainElem) (s1 s2 s3 e : State),
        v = indexedAccess s.me b i w → answers (streamReady st.toNat) s () s → answers (readV d) s x s1 →
        is = s1.me.todo v.w v.n → answers (checkRemote v is) s1 () s2 → answers (checkChannels v is) s2 () s2 →
        gathers v (elem x v.w) is s2 es s3 → answers (if es.isEmpty then vmemEnd 5 else vmemEndLater 5 [1, st.toNat]) (sendTrains s3 st.toNat v.w es) () e →
        completesWith (.vstxr d b i w st h) s e ((e.strand s.cur).pc + 4))

/-- Where every element that is to be performed lies in plain allotment and tracing is off, VLD and VLDS into a
register complete with the bytes of the allotment in the elements performed, in little-endian order, every other
element, every byte of memory and the rest of the device unchanged, and VST from a register, of a strip that covers no
line in which no element is active, completes with the bytes of its elements in the allotment and every other byte as
before. VSTART and VDONE become 0. (R158, R173, R174, R208, R255) -/
def Obligations.VectorInScratchpad : Prop :=
  ∀ (s : State) (d b : BitVec 6) (w st : BitVec 2) (h : BitVec 1), d.toNat < 32 → b.toNat < 32 → s.me.isExecute = false →
    s.me.trace.admitted = false → s.me.gangs = [] → answers (streamReady st.toNat) s () s →
    (∀ (i : Instr) (v : VAccess),
      (i = .vld d b w st h ∧ v = unitAccess s.me b w ∨ i = .vlds d b w st h ∧ v = stridedAccess s.me b w) →
      (∀ k ∈ s.me.todo v.w v.n, s.plain .load (v.addr k) (v.w / 8)) →
      ∃ e, completesWith i s e (s.me.pc + 4) ∧ e.device = s.device ∧ e.agenda = s.agenda ∧ e.me.vstart = 0 ∧ e.me.vdone = 0 ∧
        (∀ k o, k < 2048 / v.w → apertureOffset (v.addr k) = some o → elem (e.me.vec d.toNat) v.w k =
          if k ∈ s.me.todo v.w v.n then leNat (allotBytes (s.strand (s.allotOwner s.cur)) o (v.w / 8))
          else elem (s.me.vec d.toNat) v.w k) ∧
        (∀ r, r ≠ d.toNat → e.me.vec r = s.me.vec r) ∧ (∀ r, e.me.reg r = s.me.reg r)) ∧
    (∀ v, v = unitAccess s.me b w → (∀ k ∈ s.me.todo v.w v.n, s.plain .store (v.addr k) (v.w / 8)) → v.idleLines s.me = [] →
      ∃ e, completesWith (.vst d b w st h) s e (s.me.pc + 4) ∧ e.device = s.device ∧ e.agenda = s.agenda ∧
        e.me.vstart = 0 ∧ e.me.vdone = 0 ∧
        (∀ k ∈ s.me.todo v.w v.n, ∀ o, apertureOffset (v.addr k) = some o → ∀ j, j < v.w / 8 →
          Tab.get 0 (e.strand (s.allotOwner s.cur)).allot (o + j) =
            BitVec.ofNat 8 (elem (s.me.vec d.toNat) v.w k / 256 ^ j)) ∧
        (∀ x, (∀ k ∈ s.me.todo v.w v.n, ∀ o, apertureOffset (v.addr k) = some o → x < o ∨ o + v.w / 8 ≤ x) →
          Tab.get 0 (e.strand (s.allotOwner s.cur)).allot x = Tab.get 0 (s.strand (s.allotOwner s.cur)).allot x) ∧
        (∀ r, e.me.vec r = s.me.vec r) ∧ (∀ r, e.me.reg r = s.me.reg r))

/-- On an M-core TSTAT completes with the counts, EN, FMT, GROUP and the sticky bits of an enabled accumulator for sel
0 and 1, of a disabled one with the sticky bits alone; with its row mask for sel 2 and its column mask for sel 3, 0
where it is disabled; sel 1 then clears the sticky bits. It never traps on accumulator state. (R200) -/
def Obligations.TileStatus : Prop :=
  ∀ (s : State) (d : BitVec 6) (c : BitVec 3) (sel : BitVec 2) (a : Acc) (v : Word), d.toNat < 32 → onClass s 4 →
    a = s.me.acc c.toNat →
    v = (if sel.toNat < 2 then
        (if a.enabled then BitVec.ofNat 64 (a.kcount * 2 ^ 48 + a.kgrp * 2 ^ 32 + 2 ^ 15 + a.fmt * 2 ^ 13 + a.group * 2 ^ 8)
          else 0) ||| (s.me.tstate &&& 7)
      else if a.enabled then (if sel = 2 then a.rowMask else a.colMask.setWidth 64) else 0) →
    completesWith (.tstat d c sel) s
      (s.updMe fun t => (if sel = 1 then { t.setReg d.toNat v with
          tile := { t.tile with sat := false, inf := false, nan := false } } else t.setReg d.toNat v).nextTag)
      (s.me.pc + 4)

/-- On an M-core: TEN with a legal format word disables the accumulator and, where the core has one free physical tile
for FP32 or two for a residue format, enables it afresh with 1 in d, else leaves it disabled with 0 in d; a word with
a reserved bit, format 3, or a group for FP32 takes cause 9 with sub-cause 5. TDIS disables; TPRED sets the masks from
x[d] and x[b]; TSCL loads 64 row and 32 column scales of a residue accumulator; TZERO makes every cell and the counts
0 and waits for the pipe. On a disabled accumulator TPRED, TSCL and TZERO take cause 9 with sub-cause 0. (R182, R188,
R189, R190, R191, R196, R201) -/
def Obligations.TileControl : Prop :=
  ∀ (s : State) (d a b : BitVec 6) (c : BitVec 3) (k : Acc), d.toNat < 32 → b.toNat < 32 → onClass s 4 →
    k = s.me.acc c.toNat →
    (∀ w fmt group, w = s.me.reg b.toNat → fmt = (w.extractLsb' 6 2).toNat → group = (w.extractLsb' 0 5).toNat →
      (256 ≤ w.toNat ∨ fmt = 3 ∨ w.getLsbD 5 = true ∨ (fmt = 0 ∧ group ≠ 0) →
        exec (.ten d c b) s = .next (takeTrap s s.cur ⟨9, 5, w⟩ false false)) ∧
      (w.toNat < 256 → fmt ≠ 3 → w.getLsbD 5 = false → (fmt = 0 → group = 0) →
        ∀ s1, s1 = (s.updMe fun t => t.setAcc c.toNat Acc.none) →
          (freeTiles s1 s1.me.core < (if fmt = 0 then 1 else 2) →
            completesWith (.ten d c b) s ((s1.updMe fun t => t.setReg d.toNat 0).updMe Strand.nextTag) (s.me.pc + 4)) ∧
          ((if fmt = 0 then 1 else 2) ≤ freeTiles s1 s1.me.core →
            completesWith (.ten d c b) s (((s1.updMe fun t => t.setAcc c.toNat
              ⟨true, fmt, group, [], BitVec.allOnes 64, BitVec.allOnes 32, 0, 0, [], []⟩).updMe fun t =>
                t.setReg d.toNat 1).updMe Strand.nextTag) (s.me.pc + 4)))) ∧
    completesWith (.tdis c) s ((s.updMe fun t => t.setAcc c.toNat Acc.none).updMe Strand.nextTag) (s.me.pc + 4) ∧
    (k.enabled = true →
      completesWith (.tpred d c b) s ((s.updMe fun t => t.setAcc c.toNat
        { k with rowMask := s.me.reg d.toNat, colMask := (s.me.reg b.toNat).setWidth 32 }).updMe Strand.nextTag)
        (s.me.pc + 4) ∧
      tileParks (.tzero c) s (s.updMe fun t => t.setAcc c.toNat { k with cells := [], kcount := 0, kgrp := 0 }) 7) ∧
    (k.enabled = true → k.fmt ≠ 0 → admitted s [.data a 2 false] → ∀ v s1, answers (readV a) s v s1 →
      ∃ rs cs, (∀ i, Tab.get 0x7F00 rs i = if i < 64 then v.extractLsb' (16 * i) 16 else 0x7F00) ∧
        (∀ i, Tab.get 0x7F00 cs i = if i < 32 then v.extractLsb' (1024 + 16 * i) 16 else 0x7F00) ∧
        ∀ e, e = ((s1.updMe fun t => t.setAcc c.toNat { k with rowScale := rs, colScale := cs }).updMe Strand.nextTag) →
          completesWith (.tscl c a) s e ((e.strand s.cur).pc + 4)) ∧
    (k.enabled = false →
      exec (.tpred d c b) s = .next (takeTrap s s.cur ⟨9, 0, c.setWidth 64⟩ false false) ∧
      exec (.tzero c) s = .next (takeTrap s s.cur ⟨9, 0, c.setWidth 64⟩ false false) ∧
      (a.toNat < 32 → exec (.tscl c a) s = .next (takeTrap s s.cur ⟨9, 0, c.setWidth 64⟩ false false)))

/-- On an M-core, of an enabled accumulator: TMOVR gives the cells of the row that x[b] names and TMOVC those of the
column as elements of 32 bits, or of 64 for a residue accumulator, whose column comes in two halves; TSETR and TSETC
write those cells from the elements, residue channels reduced, and no other cell. TDRAIN gives the rows from x[b] on,
converted to its format, and TFOLD adds to every active cell of the FP32 accumulator the value of the residue cell
times its two scales, then zeroes the residue cells and its group count. Each then waits for the pipe, past its
instruction. That a NaN cell drained as FP32 raises the sticky NaN bit (log entry 43, DEDUCED), and that a tile
operation writes its record when it issues (log entry 67, DEDUCED), are the model's choices. (R69, R87, R197, R198,
R199, R201) -/
def Obligations.TileMoves : Prop :=
  ∀ (s : State) (d a b : BitVec 6) (c e : BitVec 3) (k : Acc) (x w : Nat), b.toNat < 32 → onClass s 4 →
    k = s.me.acc c.toNat → k.enabled = true → x = (s.me.reg b.toNat).toNat → w = (if k.fmt = 0 then 32 else 64) →
    (admitted s [.data d 2 true] → ∃ r r', (∀ i, i < 2048 / w → elem r w i = if i < 32 then k.cell (x % 64) i % 2 ^ w else 0) ∧
      (∀ i, i < 2048 / w → elem r' w i =
        k.cell (if k.fmt = 0 then i else 32 * (x / 32 % 2) + i) (x % 32) % 2 ^ w) ∧
      (∀ s1, answers (writeV d r 256) s () s1 → tileParks (.tmovr d c b) s s1 7) ∧
      (∀ s1, answers (writeV d r' 256) s () s1 → tileParks (.tmovc d c b) s s1 7)) ∧
    (admitted s [.data a 2 false] → ∀ v s1, answers (readV a) s v s1 → ∃ m m' : Tab (BitVec 40),
      (∀ i j, i < 64 → j < 32 → (Tab.get 0 m (32 * i + j)).toNat =
        if i = x % 64 then slicedCell k (elem v w j) else k.cell i j) ∧
      (∀ i j, i < 64 → j < 32 → (Tab.get 0 m' (32 * i + j)).toNat =
        if j = x % 32 ∧ (k.fmt = 0 ∨ i / 32 = x / 32 % 2) then slicedCell k (elem v w (if k.fmt = 0 then i else i % 32))
        else k.cell i j) ∧
      tileParks (.tsetr c a b) s (s1.updMe fun t => t.setAcc c.toNat { k with cells := m }) 7 ∧
      tileParks (.tsetc c a b) s (s1.updMe fun t => t.setAcc c.toNat { k with cells := m' }) 7) ∧
    (∀ (t : BitVec 2) (f : Fp.Fmt) (rows : Nat), drainFmt t = (f, rows) → k.fmt = 0 → admitted s [.data d 2 true] →
      ∃ r fl, (∀ j, j < 32 * rows → elem r f.width j =
          (drainCell f (k.cell ((x % 64 + j / 32) % 64) (j % 32))).1 % 2 ^ f.width) ∧
        fl = (List.range (32 * rows)).foldl (fun m j => m ||| (drainCell f (k.cell ((x % 64 + j / 32) % 64) (j % 32))).2) 0 ∧
        ∀ s1 s2, answers (writeV d r 256) s () s1 → answers (raiseTile fl) s1 () s2 → tileParks (.tdrain d c b t) s s2 7) ∧
    (∀ k' g, k' = s.me.acc e.toNat → k.fmt ≠ 0 → k'.enabled = true → k'.fmt = 0 → c ≠ e →
      (g = fun i j => if k.active i j then foldCell (originNan s.me.core k'.kcount) (residueValue (k.cell i j))
        (bs16 (Tab.get 0x7F00 k.rowScale i)) (bs16 (Tab.get 0x7F00 k.colScale j)) (k'.cell i j) else (k'.cell i j, 0)) →
      ∃ m : Acc, (∀ i j, i < 64 → j < 32 → m.cell i j = (g i j).1 % 2 ^ 40) ∧
        { m with cells := [] } = { k' with cells := [], kcount := (k'.kcount + k.kgrp) % 65536 } ∧
        ∀ s1, answers (raiseTile (cellFlags fun i j => (g i j).2))
          (s.updMe fun t => (t.setAcc e.toNat m).setAcc c.toNat { k with cells := [], kgrp := 0 }) () s1 →
          tileParks (.tfold c e) s s1 7)

/-- A TOP-family instruction whose checks pass makes the step at which it stands, which takes its heads and updates
the accumulator: after the last step it waits for the pipe past its instruction, before that it stays at its
instruction for the event of the next ready step; where a head is not ready it waits with its step kept. A step
changes the active cells alone: an FP32 cell gets the once-rounded sum with the exact products, the origin NaN where
that is a NaN, and a NaN cell stays; a residue cell gets in each channel the sum of products added modulo its modulus.
The event of a ready step makes it, and after the last one the strand is past the instruction; the event of the pipe's
end makes the strand Ready. The sign of an exact zero sum, which R88 does not give, is the model's choice (log entry
99, DESIGN CHOICE). (R84, R88, R192, R193, R194, R195, R201, R202) -/
def Obligations.OuterProducts : Prop :=
  (∀ (s : State) (t : BitVec 3) (a b : BitVec 6) (r : BitVec 4) (y : BitVec 3) (n z : BitVec 1), onClass s 4 →
    (admitted s [.data a 3 false, .data b 3 false] →
      runsSteps (.top t a b r y n z) s ⟨t.toNat, a.toNat, b.toNat, r.toNat, 0, y.toNat, n = 1, z = 1⟩) ∧
    (admitted s [.reg a, .data b 3 false] →
      runsSteps (.tops t a b r y n z) s ⟨t.toNat, a.toNat, b.toNat, r.toNat, 1, y.toNat, n = 1, z = 1⟩) ∧
    (admitted s [.data b 3 false] →
      runsSteps (.topl t b r y n z) s ⟨t.toNat, 0, b.toNat, r.toNat, 2, y.toNat, n = 1, z = 1⟩)) ∧
  (∀ (o : TopOp) (core a b i c : Nat) (k : Acc), i < 64 → c < 32 →
    (k.active i c = false → (o.after core k a b).1.cell i c = k.cell i c) ∧
    (k.active i c = true → k.fmt = 0 →
      (nan32 (k.cell i c) = true → (o.after core k a b).1.cell i c = k.cell i c) ∧
      (nan32 (k.cell i c) = false → ∀ p x, p = (if o.kp = 1 then o.product a b i c 0
          else pairSum (o.product a b i c 0) (o.product a b i c 1)) →
        x = (Fp.addVal Fp.fp32 0 (Fp.decode Fp.fp32 (k.cell i c)) (if o.n then p.negate else p)).1 →
        (o.after core k a b).1.cell i c = (if nan32 x then originNan core k.kcount else x) % 2 ^ 40)) ∧
    (k.active i c = true → k.fmt ≠ 0 → ∀ (v d : Int), v = ((List.range o.kp).map fun m =>
        quant o.elemBits (o.element a i m) * quant o.elemBits (o.element b c m)).sum → d = (if o.n then -v else v) →
      residueChannels ((o.after core k a b).1.cell i c) =
        ((((residueChannels (k.cell i c)).1 + d) % 8191).toNat, (((residueChannels (k.cell i c)).2.1 + d) % 8192).toNat,
          (((residueChannels (k.cell i c)).2.2 + d) % 8193).toNat)) ∧
    (o.after core k a b).1.kcount = (k.kcount + o.kp) % 65536) ∧
  (∀ (s s' : State) (u : Nat) (o : TopOp), waitingTop s u = some o → o.heads s u = .ready →
    answers (o.step (s.strand u).part.steps) { s with cur := u } () s' →
    ((s'.strand u).part.steps < o.cnt → exec (.matrixPipeStep u) s = .next { s' with cur := s.cur }) ∧
    (o.cnt ≤ (s'.strand u).part.steps → ∀ e, answers topFinish { s' with cur := u } .stay e →
      exec (.matrixPipeStep u) s = .next (if (e.strand u).firmware then { e with cur := s.cur }
        else countIssued { e with cur := s.cur } u 4) ∧
      (e.strand u).pc = (s'.strand u).pc + 4 ∧ (e.strand u).run = .parked .tile ∧ (e.strand u).tile.op = none)) ∧
  (∀ (s : State) (u : Nat), (s.strand u).run = .parked .tile → (s.strand u).tile.op = none →
    exec (.tileOpComplete u) s = .next (wake s u) ∧ ((wake s u).strand u).run = .ready ∧
    ((wake s u).strand u).pc = (s.strand u).pc)

/-- The descriptor in x[b] gives the strides, the count of steps, the groups and their bytes; a reserved bit takes
cause 9 with sub-cause 6. At its first issue every group of every slot is checked, at base + slot times the K stride +
group times the row stride; then slot after slot is allocated in the queue and each of its groups is on its way, and
the instruction completes. A group that arrives puts its bytes at its place in the slot, which is ready once all have
arrived; the last group of the instruction ends it in its pipe. That a fill of an earlier TFETCH need not wait for the
pins of a later one is arranged as the model chooses (log entry 93, DESIGN CHOICE). (R203, R204, R205, R206, R410) -/
def Obligations.TileFetch : Prop :=
  (∀ (s : State) (d a b : BitVec 6) (w : Word), admitted s [.queue d [3] (some true), .reg a, .reg b] →
    s.me.isExecute = false → onClass s 4 → w = s.me.reg b.toNat →
    (w.getLsbD 15 = true ∨ w.extractLsb' 0 8 ≠ 0 → exec (.tfetch d a b) s = .next (takeTrap s s.cur ⟨9, 6, w⟩ false false)) ∧
    (∀ (f : Fetch) (n : Nat) (ahead : List (List Nat)) (s1 s2 s3 : State), Fetch.of (s.me.reg a.toNat) w = some f →
      answers (streamReady f.st) s () s → s.me.part.slots = 0 → answers nextFetch s n s1 →
      answers ((List.range f.cnt).mapM fun j => do return cachedLines (← f.sources n j)) s1 ahead s2 →
      answers ((List.range f.cnt).forM f.watch) s2 () s2 → fetchRuns f (d.toNat - 32) n 0 ahead s2 s3 →
      ∀ e, e = (if fetchComing s3 s3.cur n then pipeOpen s3 s3.cur 8 [2, n] else pipeRecords s3 s3.cur 8 false) →
        completesWith (.tfetch d a b) s e ((e.strand s.cur).pc + 4))) ∧
  (∀ (base w : Word) (f : Fetch) (j i : Nat), Fetch.of base w = some f →
    f.addr j i = base + BitVec.ofNat 64 j * (w.extractLsb' 24 16).signExtend 64
      + BitVec.ofNat 64 i * (w.extractLsb' 40 24).signExtend 64 ∧
    f.cnt = (w.extractLsb' 20 4).toNat + 1 ∧ f.bytes = (if w.getLsbD 18 then 4 else 2) ∧
    f.st = (w.extractLsb' 16 2).toNat ∧ f.groups ≤ 64) ∧
  (∀ (s s1 s2 : State) (f : Fetch) (q m j n gen : Nat) (xs : List TrainElem), answers (f.sources m j) s xs s1 →
    answers (allocSlot q ⟨false, false, 0, List.range f.groups⟩) s1 (n, gen) s2 →
    answers (f.slot q m j false) s () (xs.zipIdx.foldl (fun s x =>
      s.post (.tfetchSlotFill s.cur q n gen x.2 f.bytes f.st x.1)) s2)) ∧
  (∀ (s s' : State) (u q slot gen g n st i : Nat) (x : TrainElem) (bs : List Byte) (p : Bool),
    (s.queue u q).place slot gen = some i →
    answers (fetchGroup x n (groupsLeft s u (groupFetch x) (x.pa / 128))) { s with cur := u } (bs, p) s' →
    ∀ t, t = (pinLine ({ s' with cur := s.cur }.updQueue u q fun k =>
      k.updSlot i fun y => ⟨(y.pend.filter (· != g)).isEmpty, y.poison || p, y.val ||| (leWord 2048 bs <<< (8 * n * g)),
        y.pend.filter (· != g)⟩) u x) →
    exec (.tfetchSlotFill u q slot gen g n st x) s =
      .next (if fetchComing t u (groupFetch x) then t else pipeClose t u [2, groupFetch x]))

/-- WMAP of a free index, a range of the allotment outside windows and spans and a line-aligned global range of one
cached class that no other window covers completes with 1 and the window bound, without valid words, or with those of
kept storage of the same range, KEEP clear then (DEDUCED, the model's choice, log entry 42); without a free descriptor
it completes with 0. Its checks take cause 22 with sub-causes 8, 11, 4, 1, 2 in that order. Of a bound window, WUNMAP
unbinds it, its dirty words written back or, with the discard bit, dropped without a change of memory, and the local
bytes stay; WFLUSH writes back the dirty words of its range; both wait for the strand's trains and acquiring
reductions and for its own earlier accesses to the lines, and WUNMAP for all that a release follows, which R335 asks
without saying what WUNMAP does about it (DESIGN CHOICE, the model's, log entry 109); WINV drops the clean words of
its range, or all of them, and leaves memory; WTOUCH starts a fill for each line with an invalid word; WKEEP sets
KEEP, or clears it and releases what an earlier stay left as kept storage, and setting it takes cause 22 with sub-
cause 7 where the class is not read-only. WSTAT gives the status word or the base, and 0 for an unbound index; the
other forms take cause 22 with sub-cause 5 there. A range word that leaves the window takes sub-cause 6. A write-back
of a private window, under the key of its line, puts the dirty words, and no other byte, at the line's home. (R32,
R124, R257, R258, R259, R260, R263, R266, R267, R271, R335) -/
def Obligations.Windows : Prop :=
  (∀ (s s1 : State) (d a b : BitVec 6) (g w : Word) (idx size off : Nat) (cls : List Nat), s.me.isExecute = false →
    d.toNat < 32 → a.toNat < 32 → b.toNat < 32 → g = s.me.reg a.toNat → w = s.me.reg b.toNat →
    idx = (w.extractLsb' 32 2).toNat → size = (w.extractLsb' 16 16).toNat → off = (w.extractLsb' 0 16).toNat →
    (2 ^ 34 ≤ w.toNat ∨ g.toNat % 128 ≠ 0 ∨ (apertureOffset g).isSome = true →
      exec (.wmap d a b) s = .next (takeTrap s s.cur ⟨22, 8, w⟩ false false)) ∧
    (w.toNat < 2 ^ 34 → g.toNat % 128 = 0 → apertureOffset g = none →
      (s.me.parent ≠ none → exec (.wmap d a b) s = .next (takeTrap s s.cur ⟨22, 11, w⟩ false false)) ∧
      (s.me.parent = none →
        (s.me.window? idx ≠ none → exec (.wmap d a b) s = .next (takeTrap s s.cur ⟨22, 4, w⟩ false false)) ∧
        (s.me.window? idx = none →
          (size = 0 ∨ s.me.allotSize < 128 * (off + size) →
            exec (.wmap d a b) s = .next (takeTrap s s.cur ⟨22, 1, w⟩ false false)) ∧
          (0 < size → 128 * (off + size) ≤ s.me.allotSize →
            (s.me.windowMeets (128 * off) (128 * size) = true ∨ s.me.spanMeets (128 * off) (128 * size) none = true →
              exec (.wmap d a b) s = .next (takeTrap s s.cur ⟨22, 2, w⟩ false false)) ∧
            (s.me.windowMeets (128 * off) (128 * size) = false → s.me.spanMeets (128 * off) (128 * size) none = false →
              answers (rangeClasses g (128 * size)) s cls s1 →
              (cls.any (· != cls.headD 0) = true →
                exec (.wmap d a b) s = .next (takeTrap s s.cur ⟨22, 9, g⟩ false false)) ∧
              (cls.any (· != cls.headD 0) = false → ∀ kept, kept = keptFor (s1.core s.me.core) s.me.ctx g size →
                (globalMeets s1 s.me.core s.me.ctx g (128 * size) kept = true →
                  exec (.wmap d a b) s = .next (takeTrap s s.cur ⟨22, 3, g⟩ false false)) ∧
                (globalMeets s1 s.me.core s.me.ctx g (128 * size) kept = false →
                  (kept = none → 16 ≤ descriptorsUsed s1 s.me.core → ∀ e, e = (s1.updMe fun t => t.setReg d.toNat 0) →
                    completesWith (.wmap d a b) s e ((e.strand s.cur).pc + 4)) ∧
                  (kept = none → descriptorsUsed s1 s.me.core < 16 →
                    ∀ e, e = (((dropRangeCopies s1 s.me.core s.me.ctx g size).updMe fun t => { t with
                      windows := Tab.set Window.blank t.windows idx ⟨g, off, size, cls.headD 0, false, [], [], [], [], true⟩ }).updMe
                        fun t => t.setReg d.toNat 1) →
                      completesWith (.wmap d a b) s e ((e.strand s.cur).pc + 4)) ∧
                  (∀ k, kept = some k → ∀ e, e = ((((dropRangeCopies s1 s.me.core s.me.ctx g size).updCore s.me.core fun c => { c with
                      kept := c.kept.filter (· != k) }).updMe fun t =>
                        { t.storeAllot (128 * off) ((List.range (128 * size)).map fun i => Tab.get 0 k.bytes i) with
                          windows := Tab.set Window.blank t.windows idx
                            { k.win with offset := off, cls := cls.headD 0, keep := false, bound := true } }).updMe
                        fun t => t.setReg d.toNat 1) →
                      completesWith (.wmap d a b) s e ((e.strand s.cur).pc + 4)))))))))) ∧
  (∀ (s : State) (d a : BitVec 6) (v : BitVec 1) (n : BitVec 2) (w : Window), s.me.isExecute = false → d.toNat < 32 →
    a.toNat < 32 → s.me.window? n.toNat = some w →
    (∀ e, e = unmapWindow s s.cur n.toNat (v = 1) →
      (answers (awaitLines w) s () s → answers (release 0 15) s () s → completesWith (.wunmap v n) s e ((e.strand s.cur).pc + 4)) ∧
      (e.strand s.cur).window? n.toNat = none ∧ (e.strand s.cur).allot = s.me.allot ∧
      (v = 1 → ∀ x, memByte e.mem x = memByte s.mem x)) ∧
    (∀ js, answers (windowRange w a) s js s →
      (∀ e, e = js.foldl (fun s j => writeBackWindow s s.cur n.toNat j false) s →
        answers (awaitLines w) s () s → completesWith (.wflush a n) s e ((e.strand s.cur).pc + 4)) ∧
      (∃ e, completesWith (.winv a v n) s e (s.me.pc + 4) ∧ (∀ x, memByte e.mem x = memByte s.mem x) ∧
        e.me.allot = s.me.allot ∧ (∀ r, e.me.reg r = s.me.reg r) ∧
        ∀ j ∈ js, Tab.get 0 (e.me.window n.toNat).valid j = (if v = 1 then 0 else Tab.get 0 (s.me.window n.toNat).dirty j) ∧
          Tab.get 0 (e.me.window n.toNat).dirty j = (if v = 1 then 0 else Tab.get 0 (s.me.window n.toNat).dirty j)) ∧
      completesWith (.wtouch a n) s (js.foldl (fun s j => if Tab.get 0 w.valid j = BitVec.allOnes 32 then s
        else s.post (.windowFill s.cur n.toNat j)) s) (s.me.pc + 4)) ∧
    (completesWith (.wstat d v n) s (s.updMe fun t => t.setReg d.toNat (if v = 1 then w.base else
      BitVec.ofNat 64 (w.dirty.length * 2 ^ 51 + w.valid.length * 2 ^ 38 + w.cls * 2 ^ 36 + (if w.keep then 2 ^ 35 else 0)
        + 2 ^ 34 + w.size * 2 ^ 16 + w.offset))) (s.me.pc + 4)) ∧
    (v = 0 ∨ w.cls = 1 → ∀ e, e = ((if v = 0 then releaseKept s s.cur n.toNat else s).updMe fun t =>
        t.updWindow n.toNat fun w => { w with keep := decide (v = 1) }) → completesWith (.wkeep v n) s e (s.me.pc + 4)) ∧
    (v = 1 → w.cls ≠ 1 → exec (.wkeep v n) s = .next (takeTrap s s.cur ⟨22, 7, n.setWidth 64⟩ false false))) ∧
  (∀ (s : State) (a : BitVec 6) (w : Window) (r : Word), r = s.me.reg a.toNat →
    (a = 0 → answers (windowRange w a) s (List.range w.size) s) ∧
    (a ≠ 0 → ∀ first count, first = (r.extractLsb' 0 16).toNat → count = (r.extractLsb' 16 16).toNat →
      (r.toNat < 2 ^ 32 → first < w.size → first + count ≤ w.size → answers (windowRange w a) s
        ((List.range (if count = 0 then w.size - first else count)).map (· + first)) s) ∧
      (¬ (r.toNat < 2 ^ 32 ∧ first < w.size ∧ first + count ≤ w.size) →
        windowRange w a s = .error (.trap ⟨22, 6, r⟩) s))) ∧
  (∀ (s : State) (d a : BitVec 6) (v : BitVec 1) (n : BitVec 2), s.me.isExecute = false → d.toNat < 32 → a.toNat < 32 →
    s.me.window? n.toNat = none →
    completesWith (.wstat d v n) s (s.updMe fun t => t.setReg d.toNat 0) (s.me.pc + 4) ∧
    ∀ i ∈ [Instr.wunmap v n, .wflush a n, .winv a v n, .wtouch a n, .wkeep v n],
      exec i s = .next (takeTrap s s.cur ⟨22, 5, n.setWidth 64⟩ false false)) ∧
  (∀ (s : State) (u i j p : Nat) (cv : Bool) (t : Strand) (w : Window), t = s.strand u → w = t.window i →
    Tab.get 0 w.phys j = p + 1 → w.cls ≠ 3 →
    (∀ l, walk s false t.ctx (w.base + BitVec.ofNat 64 (128 * j)) = .ok l → l.logEnable = false ∧ l.counterEnable = false ∧
      keyEmpty s { l with pa := p * 128 } = false ∧ (s.line p).key = keyId s l.keyIndex) → reachable s (p * 128) = true →
    (s.parcel (p / 512)).blocked = false → s.movedPa (p * 128) = p * 128 → (s.line p).code = 0 →
    s.roomFor (p * 128) → lineHeld s (p * 128) = false →
    (∀ x, memByte (writeBackWindow s u i j cv).mem x =
      if x / 128 = p ∧ (Tab.get 0 w.dirty j).getLsbD (x % 128 / 4) = true
        then Tab.get 0 t.allot (128 * (w.offset + j) + x % 128) else memByte s.mem x) ∧
    Tab.get 0 (((writeBackWindow s u i j cv).strand u).window i).dirty j = 0)

/-- A ticketed load whose request passes its faults, whose quota has room and whose booth has an entry completes, once
the requests that wait at the booth have been served, with the ticket of the allocated entry, Pending and with its
read on the way; without quota or entry TKLD and TKLDV complete with the null ticket 0 and TKLDW waits, keeping its
request. The ticket names the slice, the entry, a generation that is not 0 and the context, and carries their check
code under the context's key. A request that waits is allocated the next released entry under the translation of its
address then, and its TKLDW completes with the ticket. An address in the aperture takes cause 10 with sub-cause 7, a
misaligned one cause 5, and a fault of the request is taken with no effect. The function that computes the check code
(log entry 47, DEDUCED), and that the tickets of a family are charged to its root (log entry 78, DEDUCED), are the
model's choices. (R272, R273, R274, R275, R276, R277, R278) -/
def Obligations.TicketIssue : Prop :=
  (∀ (s s1 s2 : State) (d a : BitVec 6) (st t : BitVec 2) (z : BitVec 1) (b : Booth) (i : Instr) (line wait : Bool),
    s.me.isExecute = false → d.toNat < 32 → a.toNat < 32 →
    (i = .tkld d a st t z ∧ line = false ∧ wait = false ∨ i = .tkldw d a st t z ∧ line = false ∧ wait = true ∨
      i = .tkldv d a st ∧ line = true ∧ wait = false) →
    s.me.part.request = none →
    ((apertureOffset (s.me.reg a.toNat)).isSome = true → exec i s = .next (takeTrap s s.cur ⟨10, 7, s.me.reg a.toNat⟩ false false)) ∧
    (apertureOffset (s.me.reg a.toNat) = none → (s.me.reg a.toNat).toNat % (if line then 128 else tkSize t) ≠ 0 →
      exec i s = .next (takeTrap s s.cur ⟨5, 0, s.me.reg a.toNat⟩ false false)) ∧
    trapsWith i s (ticketRequest (s.me.reg a.toNat) (if line then 128 else tkSize t) line (!line && decide (z = 1)) st.toNat) s ∧
    (answers (ticketRequest (s.me.reg a.toNat) (if line then 128 else tkSize t) line (!line && decide (z = 1)) st.toNat) s b s1 →
    ((s1.strand (ticketOwner s1 s1.cur)).tickets < (s1.strand (ticketOwner s1 s1.cur)).ticketQuota →
      ∀ s0, s0 = serveBooth s1 (sliceOf b.pa) →
      (∀ e tk, allocatable s0 (sliceOf b.pa) = some e → allocateEntry s0 (sliceOf b.pa) e b = (tk, s2) →
        ∀ r, r = ((s2.updMe fun t => t.setPart Progress.none).updMe fun t => t.setReg d.toNat tk) →
          completesWith i s r ((r.strand s.cur).pc + 4)) ∧
      (allocatable s0 (sliceOf b.pa) = none → wait = false →
        ∀ r, r = (s0.updMe fun t => t.setReg d.toNat 0) → completesWith i s r ((r.strand s.cur).pc + 4)) ∧
      (allocatable s0 (sliceOf b.pa) = none → wait = true →
        exec i s = .next (park ((s0.updDie (sliceOf b.pa / 32) fun k => { k with
          boothWaits := k.boothWaits ++ [(sliceOf b.pa, d.toNat, b)] }).updMe fun t =>
            t.setPart { Progress.none with request := some b }) s.cur (.booth (sliceOf b.pa))))) ∧
    ((s1.strand (ticketOwner s1 s1.cur)).ticketQuota ≤ (s1.strand (ticketOwner s1 s1.cur)).tickets →
      (wait = false → ∀ r, r = (s1.updMe fun t => t.setReg d.toNat 0) → completesWith i s r ((r.strand s.cur).pc + 4)) ∧
      (wait = true → exec i s =
        .next (park (s1.updMe fun t => t.setPart { Progress.none with request := some b }) s.cur .quota))))) ∧
  (∀ (s s1 : State) (slice entry : Nat) (b : Booth) (tk : Word), slice < 128 → entry < 2048 → b.ctx < 4096 →
    (s.booth slice entry).gen < 65536 → ((s.booth slice entry).st.released = true → (s.booth slice entry).arrived = true) →
    allocateEntry s slice entry b = (tk, s1) →
    tkSlice tk = slice ∧ tkEntry tk = entry ∧ tkCtx tk = b.ctx ∧ tkGen tk ≠ 0 ∧ (s1.booth slice entry).gen = tkGen tk ∧
    tk.toNat % 2 ^ 13 = ticketCheck (s.context b.ctx).ticketKey tk.toNat ∧ (s1.booth slice entry).st = .pending ∧
    s1.agenda = s.agenda ++ [.boothFill slice entry] ∧ (∀ x, memByte s1.mem x = memByte s.mem x)) ∧
  (∀ (s s0 s1 : State) (slice d e : Nat) (b b' : Booth) (tk : Word) (q : Nat × Nat × Booth), q = (slice, d, b) →
    (s.die (slice / 32)).boothWaits.find? (boothAsks s slice) = some q → allocatable s slice = some e →
    s0 = (s.updDie (slice / 32) fun k => { k with boothWaits := k.boothWaits.erase q }) → refreshRequest s0 b = .ok b' →
    sliceOf b'.pa = slice → allocateEntry s0 slice e b' = (tk, s1) → (s1.strand b.issuer).run = .parked (.booth slice) →
    ∃ t, exec (.boothWaitAllocate slice) s = .next t ∧ (t.strand b.issuer).run = .ready ∧
      (t.strand b.issuer).pc = (s1.strand b.issuer).pc + 4 ∧
      (∀ r, (t.strand b.issuer).reg r = if r = d ∧ r ≠ 0 then tk else (s1.strand b.issuer).reg r) ∧ t.mem = s1.mem)

/-- A ticket that fails the local checks or is refused by its booth takes cause 10 with the sub-cause and the ticket.
One of a fenced die takes cause 11, and one that has outlived its lifetime cause 10 with sub-cause 4. A claim of a
Ready entry delivers the value at once and completes; a poisoned value is redeemed and takes cause 11 with the address
instead; of an entry whose data has not arrived it marks the entry Claimed, takes a landing slot and waits; TKRDQ then
has a slot of its queue and completes, to be filled on delivery. TKTEST gives 1 Pending, 2 Ready, 3 Ready and
poisoned, 4 Claimed, and 0 otherwise; TKDROP drops a Pending or Ready entry with 1, and completes with 0 otherwise;
that TKDROP makes the local checks of R282 and answers 0 where one fails is the model's choice (log entry 111, DESIGN
CHOICE). (R282, R283, R284, R285, R286) -/
def Obligations.TicketRedeem : Prop :=
  ∀ (s : State) (d a : BitVec 6) (tk : Word) (slice entry : Nat) (b : Booth), s.me.isExecute = false → a.toNat < 32 →
    tk = s.me.reg a.toNat → slice = tkSlice tk → entry = tkEntry tk → b = s.booth slice entry →
    (d.toNat < 32 →
      (∀ n, ticketLocal s s.me.ctx tk = some n →
        exec (.tkrd d a) s = .next (takeTrap s s.cur ⟨10, n, tk⟩ false false) ∧
        ((∀ g ∈ s.me.gangs, g.2.2 ≠ d.toNat) → exec (.tkrdv d a) s = .next (takeTrap s s.cur ⟨10, n, tk⟩ false false))) ∧
      (ticketLocal s s.me.ctx tk = none → (s.die (slice / 32)).fenced = true →
        exec (.tkrd d a) s = .next (takeTrap (if b.heldBy s.cur then unclaim s slice entry s.me.core else s)
          s.cur ⟨11, 0, tk⟩ false false)) ∧
      (ticketLocal s s.me.ctx tk = none → (s.die (slice / 32)).fenced = false → landQueue s s.me.core = [] →
        (s.core s.me.core).landing.length < 128 → boothExpired s b = true → b.gen = tkGen tk → b.ctx = tkCtx tk →
        exec (.tkrd d a) s = .next (takeTrap s s.cur ⟨10, 4, tk⟩ false false) ∧
        completesWith (.tktest d a) s (s.updMe fun t => t.setReg d.toNat 0) (s.me.pc + 4)) ∧
      (ticketLocal s s.me.ctx tk = none → (s.die (slice / 32)).fenced = false → landQueue s s.me.core = [] →
        (s.core s.me.core).landing.length < 128 → boothExpired s b = false →
        (∀ n, claimRejected b tk 0 s.cur = some n → exec (.tkrd d a) s = .next (takeTrap s s.cur ⟨10, n, tk⟩ false false)) ∧
        (claimRejected b tk 0 s.cur = none → b.arrived = true → b.poison = false →
          ∀ e, e = ((redeemEntry s slice entry).updMe fun t => t.setReg d.toNat (b.value.setWidth 64)) →
            completesWith (.tkrd d a) s e ((e.strand s.cur).pc + 4)) ∧
        (claimRejected b tk 0 s.cur = none → b.arrived = true → b.poison = true →
          exec (.tkrd d a) s = .next (takeTrap (redeemEntry s slice entry) s.cur ⟨11, 0, b.va⟩ false false)) ∧
        (claimRejected b tk 0 s.cur = none → b.arrived = false →
          exec (.tkrd d a) s = .next (park ((s.setBooth slice entry { b with st := .claimed, claimer := s.cur }).updCore
            s.me.core fun c => { c with landing := c.landing ++ [s.cur] }) s.cur (.ticket tk 0 d.toNat))) ∧
        ((∀ g ∈ s.me.gangs, g.2.2 ≠ d.toNat) → claimRejected b tk 1 s.cur = none → b.arrived = true → b.poison = false →
          ∀ s1 e, s1 = ((redeemEntry s slice entry).updMe fun t => { (t.setVec d.toNat b.value 256).bump 0 1 with vstart := 0 }) →
            e = pipeRecords s1 s1.cur 9 false → completesWith (.tkrdv d a) s e ((e.strand s.cur).pc + 4)))) ∧
    (admitted s [.queue d [1, 2] (some true)] → ticketLocal s s.me.ctx tk = none → (s.die (slice / 32)).fenced = false →
      landQueue s s.me.core = [] → (s.core s.me.core).landing.length < 128 → boothExpired s b = false →
      claimRejected b tk (if (s.queue s.cur (d.toNat - 32)).kind = 2 then 3 else 2) s.cur = none → b.heldBy s.cur = false →
      ∀ s1 s2 slot gen, s1 = ((s.setBooth slice entry { b with st := .claimed, claimer := s.cur }).updCore s.me.core fun c =>
          { c with landing := c.landing ++ [s.cur] }) →
        answers (allocSlot (d.toNat - 32) ⟨false, false, 0, []⟩) s1 (slot, gen) s2 →
        ∀ e, e = s2.setBooth slice entry { b with st := .claimed, claimer := s.cur, dest := some (d.toNat - 32, slot, gen) } →
          completesWith (.tkrdq d a) s e ((e.strand s.cur).pc + 4)) ∧
    (d.toNat < 32 → boothExpired s b = false →
      (liveEntry s tk = none →
        completesWith (.tktest d a) s (s.updMe fun t => t.setReg d.toNat 0) (s.me.pc + 4) ∧
        completesWith (.tkdrop d a) s (s.updMe fun t => t.setReg d.toNat 0) (s.me.pc + 4)) ∧
      (liveEntry s tk = some b →
        completesWith (.tktest d a) s (s.updMe fun t => t.setReg d.toNat
          (if b.st = .pending then 1 else if b.st = .ready then (if b.poison then 3 else 2)
            else if b.st = .claimed then 4 else 0)) (s.me.pc + 4) ∧
        (b.st = .pending ∨ b.st = .ready → ∃ e, completesWith (.tkdrop d a) s e (s.me.pc + 4) ∧
          (d ≠ 0 → e.me.reg d.toNat = 1) ∧ (e.booth slice entry).st = .dropped ∧
          (∀ x, memByte e.mem x = memByte s.mem x)) ∧
        (b.st ≠ .pending → b.st ≠ .ready →
          completesWith (.tkdrop d a) s (s.updMe fun t => t.setReg d.toNat 0) (s.me.pc + 4))))

/-- The read point of an entry captures the bytes of its home and makes a Pending entry Ready, while the read of an
entry that has been dropped or has expired is made for nothing; a claimed entry whose data has arrived is delivered:
its register or its queue slot gets the value, the entry is Redeemed and a waiting redeem completes. The redeem that
has waited longest for a landing slot claims when one is free; a redeem that is withdrawn leaves its entry as before
the claim, and its strand is at the redeem again; an entry that outlives its context's ticket lifetime expires. A fill
makes its slot ready with its value and its poison, one for a slot that is gone puts its value nowhere, and either
ends a vector load in its pipe, and a window fill leaves every word of its line valid. That the read point is an event
of kind 3 of the replay log (log entry 79, DEDUCED), and what a slot receives whose booth's die is fenced before
delivery (log entry 111, DESIGN CHOICE; this statement says nothing of it), are the model's choices. (R137, R143,
R148, R262, R279, R281, R282, R284, R287, R289, R410) -/
def Obligations.TicketEvents : Prop :=
  (∀ (s s1 : State) (slice entry : Nat) (b : Booth) (g : Gate) (v : BitVec 1024) (p : Bool), b = s.booth slice entry →
    b.arrived = false → (b.st = .pending ∨ b.st = .claimed) →
    g = replayGate s b.issuer (slice / 32) 3 (holdExpired s (slice / 32) (.boothFill slice entry)) →
    capture (dropHold s (slice / 32) (.boothFill slice entry)) b = (v, p, s1) →
    exec (.boothFill slice entry) s = .next ((replayDone s1 b.issuer (slice / 32) 3 g).setBooth slice entry { b with
      st := if b.st = .pending then .ready else .claimed, data := v, poison := p, arrived := true })) ∧
  (∀ (s : State) (slice entry : Nat) (b : Booth), b = s.booth slice entry → b.arrived = false → b.st.released = true →
    ∃ t, exec (.boothFill slice entry) s = .next t ∧ t.booth slice entry = { b with arrived := true }) ∧
  (∀ (s : State) (b : Booth), inLogStore b.pa = false → s.roomFor b.pa → poisonedAt s ⟨b.leaf, b.pa, 0, 1⟩ b.size = false → (s.line (b.pa / 128)).code = 0 →
    s.writeBacks = [] → tierOf b.pa < 2 → (s.line (b.pa / 128)).key = keyId s (b.leaf.extractLsb' 52 12).toNat →
    (s.parcel (b.pa / 65536)).log = [] → (s.parcel (b.pa / 65536)).held = [] → s.movedPa b.pa = b.pa →
    b.leaf.getLsbD 9 = false → b.pa % 128 + b.size ≤ 128 →
    (capture s b).1 = BitVec.ofNat 1024 (leNat (memBytes s.mem b.pa b.size)) ∧ (capture s b).2.1 = false) ∧
  (∀ (s : State) (u slice entry kind d : Nat) (tk : Word) (rest : List (Nat × Nat)) (b : Booth),
    deliverable s u = (slice, entry) :: rest → b = s.booth slice entry → (s.die (slice / 32)).fenced = false →
    (b.dest = none → (s.strand u).run = .parked (.ticket tk kind d) → b.poison = false → kind = 0 →
      ∃ t, exec (.ticketDelivery u) s = .next t ∧ (t.strand u).run = .ready ∧ (t.strand u).pc = (s.strand u).pc + 4 ∧
        (∀ r, (t.strand u).reg r = if r = d ∧ r ≠ 0 then b.value.setWidth 64 else (s.strand u).reg r) ∧
        (t.booth slice entry).st = .redeemed ∧ (∀ x, memByte t.mem x = memByte s.mem x)) ∧
    (∀ q slot gen i, b.dest = some (q, slot, gen) → (s.queue u q).place slot gen = some i →
      ∃ t, exec (.ticketDelivery u) s = .next t ∧ (t.booth slice entry).st = .redeemed ∧
        t.queue u q = (s.queue u q).updSlot i fun _ => ⟨true, b.poison, b.value, []⟩)) ∧
  (∀ (s s' : State) (u kind d : Nat) (tk : Word), (s.strand u).run = .parked (.landing tk kind d) →
    (s.core (s.strand u).core).landing.length < 128 → (landQueue s (s.strand u).core).head? = some u →
    (s.die (tkSlice tk / 32)).fenced = false →
    answers (claimTicket tk kind d) { (wake s u).updCore (s.strand u).core fun c => { c with
      landers := c.landers.filter (· != u) } with cur := u } .seq s' → (s'.strand u).firmware = true →
    exec (.boothClaim u) s = .next (s'.updStrand u fun t => { t with pc := t.pc + 4 })) ∧
  (∀ (s : State) (u kind d slice entry : Nat) (tk : Word) (b : Booth), (s.strand u).run = .parked (.ticket tk kind d) →
    claimedBy s u = [(slice, entry)] → b = s.booth slice entry →
    ∃ t, exec (.ticketWithdrawal u) s = .next t ∧ (t.strand u).run = .ready ∧ (t.strand u).pc = (s.strand u).pc ∧
      (∀ r, (t.strand u).reg r = (s.strand u).reg r) ∧
      t.booth slice entry = { b with st := if b.arrived then .ready else .pending, claimer := 0 }) ∧
  (∀ (s : State) (slice entry : Nat), boothExpired s (s.booth slice entry) = true →
    ∃ t, exec (.ticketExpiry slice entry) s = .next t ∧ (t.booth slice entry).st = .expired ∧
      (t.context (s.booth slice entry).ctx).orphans = (s.context (s.booth slice entry).ctx).orphans + 1 ∧
      (∀ x, memByte t.mem x = memByte s.mem x)) ∧
  (∀ (s : State) (u q slot gen : Nat) (v : BitVec 2048) (p : Bool),
    ((s.queue u q).place slot gen = none → exec (.queueFillArrival u q slot gen v p) s = .next (loadOver s u q slot gen)) ∧
    (∀ i, (s.queue u q).place slot gen = some i → exec (.queueFillArrival u q slot gen v p) s =
      .next ((loadOver s u q slot gen).updQueue u q fun k => k.updSlot i fun _ =>
        ⟨true, p, if (s.queue u q).kind = 4 then (if v = 0 then 0 else 1) else v, []⟩))) ∧
  (∀ (s s' : State) (u idx line : Nat) (w : Window), (s.strand u).window? idx = some w → line < w.size →
    Tab.get 0 w.valid line ≠ BitVec.allOnes 32 → (s.strand u).run.holdsSlot = true →
    answers (do rebindWindow u idx; fillWindowLine u idx line false (w.base + BitVec.ofNat 64 (128 * line)))
      { s with cur := u } () s' →
    exec (.windowFill u idx line) s = .next { s' with cur := s.cur } ∧
    Tab.get 0 ((s'.strand u).window idx).valid line = BitVec.allOnes 32)

/-- PQRY gives the status word of the parcel, 0 where the address does not translate; PHINT of code 1 sets a counted
parcel's counter to 0; PLOGQ gives the number of its pending log entries; PFETCH and PMIGR give 3 for an unmapped
address, 2 where the parcel is in the tier already, 0 where R221 refuses, the queue is full or a migration is under
way, and otherwise 1, with the request at the end of the engine's queue. PMIGR, PNQPOP and PKEEP trap in a strand that
is not the policy strand. PNQPOP gives 0 for an empty ring, or the oldest entry, with HEAD advanced. PKEEP gives 3 for
an unmapped address and 0 at the quota; otherwise it sets or clears keep-resident in the entry and waits for its
shootdown, whose completion gives 1. Which frame a request finds free (log entry 27, DESIGN CHOICE), when the shared
caches drop what PKEEP's shootdown names (log entry 63, DEDUCED), and how the walk that finds the parcel is numbered
(log entry 88, DEDUCED) are the model's choices. (R218, R219, R221, R229, R230, R231) -/
def Obligations.ParcelInstructions : Prop :=
  (∀ (s : State) (d a b c : BitVec 6) (va : Word), s.me.isExecute = false → d.toNat < 32 → a.toNat < 32 → b.toNat < 32 →
    va = s.me.reg a.toNat → completesWith (.pqry d a) s ((parcelWalk s va).updMe fun t => t.setReg d.toNat (parcelStatus s va)) (s.me.pc + 4) ∧
    completesWith (.plogq d a) s ((parcelWalk s va).updMe fun t => t.setReg d.toNat
      (BitVec.ofNat 64 (((parcelLeaf s va).map fun l => (s.parcel l.frame).log.length).getD 0))) (s.me.pc + 4) ∧
    (∀ l, parcelLeaf s va = some l → c = 1 → (s.parcel l.frame).counted = true → l.counterEnable = true →
      completesWith (.phint a c) s ((parcelWalk s va).updParcel l.frame fun p => { p with count := 0, notified := false }) (s.me.pc + 4)) ∧
    (parcelLeaf s va = none ∨ c ≠ 1 ∨
        (∀ l, parcelLeaf s va = some l → (s.parcel l.frame).counted = false ∨ l.counterEnable = false) → completesWith (.phint a c) s (parcelWalk s va) (s.me.pc + 4)) ∧
    ((s.context s.me.ctx).policy ≠ some s.cur → ∀ i ∈ [Instr.pmigr d a b, .pnqpop d, .pkeep d a b],
      exec i s = .next (takeTrap s s.cur ⟨7, 4, (encode i).setWidth 64⟩ false false)) ∧
    (∀ (i : Instr) (tier : Nat), (i = .pfetch d a ∧ tier = 0 ∨ i = .pmigr d a b ∧ tier = (s.me.reg b.toNat).toNat ∧
        (s.context s.me.ctx).policy = some s.cur) →
      (parcelLeaf s va = none → completesWith i s (s.updMe fun t => t.setReg d.toNat 3) (s.me.pc + 4)) ∧
      ∀ l stop, parcelLeaf s va = some l →
        stop = ((s.parcel l.frame).migrating || l.tracePin || l.savePin && tier != 0 || l.keepResident && tier != 0 ||
          decide (l.level = 2) || l.logEnable && decide (tier = 2) || decide (3 ≤ tier) ||
          (freeFrame (s.die (homeDie l.pa)) tier false).isNone ||
          decide (64 ≤ ((s.die (homeDie l.pa)).migrations.filter fun m => m.phase = 0).length)) →
        (l.tier = tier → completesWith i s ((parcelWalk s va).updMe fun t => t.setReg d.toNat 2) (s.me.pc + 4)) ∧
        (l.tier ≠ tier → stop = true → completesWith i s ((parcelWalk s va).updMe fun t => t.setReg d.toNat 0) (s.me.pc + 4)) ∧
        (l.tier ≠ tier → stop = false → completesWith i s
          ((((parcelWalk s va).updParcel l.frame fun p => { p with migrating := true }).updDie (homeDie l.pa) fun k => { k with
            migrations := k.migrations ++ [⟨s.me.ctx, va, l.frame, tier, 0, 0, 0, false, s.me.firmware⟩] }).updMe fun t => t.setReg d.toNat 1)
          (s.me.pc + 4))) ∧
    ((s.context s.me.ctx).policy = some s.cur → answers (vecReady d.toNat) s () s →
      ∀ (cx : Context) (tail head : Nat), cx = s.context s.me.ctx → naingCount s cx.ringCb = some tail →
        naingCount s (cx.ringCb + 8) = some head →
        (tail = head → ∀ e, e = (s.updMe fun t => t.setVec d.toNat 0 256) →
          completesWith (.pnqpop d) s e ((e.strand s.cur).pc + 4)) ∧
        (tail ≠ head → ∀ l s1 e, walk s true 0 (cx.ringBase + BitVec.ofNat 64 (32 * (head % 4096))) = .ok l → poisonedAt s l 32 = false →
          naingStore s (cx.ringCb + 8) (leBytes 8 (head + 1)) = some s1 →
          e = (s1.updMe fun t => t.setVec d.toNat (leWord 2048 (decrypted s l (coherentBytes s l.pa 32))) 256) →
          completesWith (.pnqpop d) s e ((e.strand s.cur).pc + 4))) ∧
    ((s.context s.me.ctx).policy = some s.cur → ∀ (on : Bool) (cx : Context), on = (s.me.reg b.toNat).getLsbD 0 →
      cx = s.context s.me.ctx →
      (parcelLeaf s va = none → completesWith (.pkeep d a b) s (s.updMe fun t => t.setReg d.toNat 3) (s.me.pc + 4)) ∧
      ∀ l, parcelLeaf s va = some l →
        (on = true → l.keepResident = false → cx.keepQuota ≤ cx.keepUsed →
          completesWith (.pkeep d a b) s ((parcelWalk s va).updMe fun t => t.setReg d.toNat 0) (s.me.pc + 4)) ∧
        (¬ (on = true ∧ l.keepResident = false ∧ cx.keepQuota ≤ cx.keepUsed) → ∀ used s1 s2 n,
          used = (if on = l.keepResident then cx.keepUsed else if on = true then cx.keepUsed + 1 else cx.keepUsed - 1) →
          s1 = writeEntry ((parcelWalk s va).updContext s.me.ctx fun k => { k with keepUsed := used }) l (entryBit 10 on) →
          startShootdown s1 (dieOf s1 s1.me.core) false s.me.firmware s.me.ctx va = (n, s2) →
          exec (.pkeep d a b) s = .next (park s2 s.cur (.shootdown (dieOf s1 s1.me.core) n d.toNat 1))))) ∧
  (∀ (s : State) (va : Word) (w : Word), w = parcelStatus s va → (parcelLeaf s va = none → w = 0) ∧
    ∀ l p, parcelLeaf s va = some l → p = s.parcel l.frame → p.count < 2 ^ 16 → p.log.length < 2 ^ 16 →
      w.extractLsb' 48 16 = BitVec.ofNat 16 (if p.counted = true ∧ l.counterEnable = true then p.count else 0) ∧
      w.extractLsb' 32 16 = BitVec.ofNat 16 p.log.length ∧ w.extractLsb' 16 16 = 0 ∧ w.getLsbD 15 = true ∧
      w.getLsbD 14 = p.migrating ∧ w.getLsbD 13 = l.writeBlock ∧ w.getLsbD 12 = l.logEnable ∧
      w.getLsbD 11 = l.counterEnable ∧ w.getLsbD 10 = l.keepResident ∧ w.getLsbD 9 = l.tracePin ∧ w.getLsbD 8 = l.savePin ∧
      w.extractLsb' 6 2 = BitVec.ofNat 2 l.tier ∧ w.extractLsb' 4 2 = BitVec.ofNat 2 l.cls ∧ w.getLsbD 3 = p.merge ∧
      w.extractLsb' 0 3 = 0) ∧
  (∀ (s : State) (l : Leaf) (f : Word → Word), l.entry % 8 = 0 → (s.line (l.entry / 128)).code = 0 →
    storedWord s.mem (writeEntry s l f).mem l.entry (f (leWord 64 (coherentBytes s l.entry 8))))

/-- The start of a queued migration sets write-block in the entry and at the home, takes a free frame and begins a
shootdown. When its shootdown has ended, the new frame gets the old one's bytes, with the log applied on arrival in
tier 0, and the entry names the new frame and its tier with write-block clear; after the second shootdown the parcel
is unblocked, the old frame is free and a notification of kind 2 is made. Naing's request enters the queue or is
refused with a notification of kind 3. A supplied frame joins the reserve or the free frames of its tier (DESIGN
CHOICE, log entry 27); freed counters are uncounted. An append of an operation that no entry overlaps, and that finds
none waiting at its line, becomes a log entry and leaves memory. An agent that acknowledges a shootdown holds no
translation that it removes; a shootdown ends when every agent has acknowledged, and then the TLBINV or PKEEP that
waits for it completes. Which frame a migration takes (log entry 27, DESIGN CHOICE), how a log is applied (log entry
66, DEDUCED), and which agents acknowledge a shootdown (log entry 77, DEDUCED) are the model's choices. (R214, R215,
R216, R217, R219, R220, R221, R222, R224, R226, R227, R382) -/
def Obligations.ParcelMigration : Prop :=
  (∀ (s : State) (die : Nat) (m : Migration) (l : Leaf) (g : Nat), (s.die die).running < 4 →
    (s.die die).migrations.find? (startable (s.die die)) = some m →
    migrationLeaf s m = some l → freeFrame (s.die die) m.target m.forced = some g → l.entry % 8 = 0 →
    (s.line (l.entry / 128)).code = 0 →
    ∃ t, exec (.parcelMigrationStart die) s = .next t ∧ (t.parcel m.frame).blocked = true ∧
      storedWord s.mem t.mem l.entry (leWord 64 (coherentBytes s l.entry 8) ||| 0x80) ∧
      (t.die die).migrations = ((s.die die).migrations.filter fun x => x.frame != m.frame) ++
        [{ m with dest := g, phase := 1, seq := (s.die die).shootSeq }] ∧
      (∃ x ∈ (t.die die).shoots, x.seq = (s.die die).shootSeq ∧ x.ctx = m.ctx ∧ x.va = m.va ∧ x.pending = shootAgents s) ∧
      g ∉ (t.die die).reserve ∧ g ∉ Tab.get [] (t.die die).frames m.target) ∧
  (∀ (s : State) (die : Nat), 4 ≤ (s.die die).running ∨ (s.die die).migrations.find? (startable (s.die die)) = none →
    exec (.parcelMigrationStart die) s = .next s) ∧
  (∀ (s : State) (die frame : Nat) (m : Migration),
    (s.die die).migrations.find? (fun m => m.frame = frame && m.phase != 0) = some m →
    (shooting s die m.seq = true → exec (.parcelMigrationComplete die frame) s = .next s) ∧
    (shooting s die m.seq = false → m.phase = 1 →
      (s.lines.any fun x => x.1 / 512 = m.frame && (x.2.code = 1 || x.2.code = 2)) = false → (s.parcel m.frame).held = [] →
      ∀ s1 l, s1 = (if m.target = 0 then applyLog (copyFrame s m.frame m.dest) m.dest (s.parcel m.frame).log
          else copyFrame s m.frame m.dest) →
        walk s1 m.firmware m.ctx m.va = .ok l → l.entry % 8 = 0 → (s1.line (l.entry / 128)).code = 0 → m.dest ≠ m.frame →
        ∃ t, exec (.parcelMigrationComplete die frame) s = .next t ∧ (t.parcel m.frame).moved = some m.dest ∧
          (t.parcel m.frame).log = [] ∧ (t.parcel m.dest).log = (if m.target = 0 then [] else (s.parcel m.frame).log) ∧
          storedWord s1.mem t.mem l.entry ((leWord 64 (coherentBytes s1 l.entry 8) &&& ~~~(0x000FFFFFFFFF00E0 : Word)) |||
            BitVec.ofNat 64 (m.dest * 65536 + tierOf (m.dest * 65536) * 32))) ∧
    (shooting s die m.seq = false → m.phase = 2 → (s.parcel m.dest).held = [] → m.dest ≠ m.frame →
      ∃ s1, exec (.parcelMigrationComplete die frame) s =
          .next (notify s1 m.ctx 2 m.va 0 (tierOf (m.dest * 65536)) (homeDie (m.dest * 65536))) ∧
        (s1.parcel m.dest).blocked = false ∧ (s1.parcel m.dest).migrating = false ∧ s1.parcel m.frame = Parcel.blank ∧
        m.frame ∈ Tab.get [] (s1.die die).frames (tierOf (m.frame * 65536)) ∧
        (s1.die die).migrations = (s.die die).migrations.filter (fun x => x.frame != m.frame) ∧ s1.mem = s.mem)) ∧
  (∀ (s : State) (f g x : Nat), memByte (copyFrame s f g).mem x =
    if g * 65536 ≤ x ∧ x < g * 65536 + 65536 then memByte s.mem (x - g * 65536 + f * 65536) else memByte s.mem x) ∧
  (∀ (s : State) (ctx tier : Nat) (va : Word),
    (∀ x, walk s false ctx va = .error x → exec (.naingParcelMigrationRequest ctx va tier) s = .next s) ∧
    (∀ l s1 r, walk s false ctx va = .ok l → requestMigration s l ctx va tier = (r, s1) →
      exec (.naingParcelMigrationRequest ctx va tier) s =
        .next (if r = 0 then notify s1 ctx 3 va 0 l.tier (homeDie l.pa) else s1))) ∧
  (∀ (s : State) (die frame : Nat), (hasMemory s (frame * 65536) = false → exec (.reserveFrameSupply die frame) s = .next s) ∧
    (hasMemory s (frame * 65536) = true → ∃ t, exec (.reserveFrameSupply die frame) s = .next t ∧ t.mem = s.mem ∧
      (t.die die).reserve = (s.die die).reserve ++ (if tierOf (frame * 65536) = 0 then [frame] else []) ∧
      ∀ k, Tab.get [] (t.die die).frames k = Tab.get [] (s.die die).frames k ++
        (if k = tierOf (frame * 65536) ∧ k ≠ 0 then [frame] else []))) ∧
  (∀ (s : State) (die count : Nat), ∃ (t : State) (fs : List Nat), exec (.counterTableEntryFree die count) s = .next t ∧
    fs = ((s.parcels.filter fun p => p.2.counted && tierOf (p.1 * 65536) = 2 && homeDie (p.1 * 65536) = die).map
      Prod.fst).take count ∧
    (∀ f, t.parcel f = if f ∈ fs then { s.parcel f with counted := false, count := 0, notified := false } else s.parcel f) ∧
    (t.die die).counterUse = (s.die die).counterUse - fs.length ∧ t.mem = s.mem) ∧
  (∀ (s : State) (pa op wd : Nat) (v : Word) (p : Parcel) (k : Die), p = s.parcel (pa / 65536) → k = s.die (homeDie pa) →
    (¬ (tierOf pa = 1 ∧ op ≤ 10 ∧ wd ≤ 3 ∧ pa % 2 ^ wd = 0) → exec (.pendingLogAppend pa op wd v) s = .next s) ∧
    (tierOf pa = 1 → 1 ≤ op → op ≤ 10 → wd ≤ 3 → pa % 2 ^ wd = 0 → p.log.length < 4096 →
      latestOverlap p.log (pa % 65536) (2 ^ wd) = none → lineHeld s pa = false → k.logUse + 1 < logCapacity * 9 / 10 →
      ∃ t, exec (.pendingLogAppend pa op wd v) s = .next t ∧ t.mem = s.mem ∧
        (t.parcel (pa / 65536)).log = p.log ++ [⟨k.logSeq, op, wd, pa % 65536, v, s.cur, none⟩] ∧
        (t.die (homeDie pa)).logSeq = (k.logSeq + 1) % 2 ^ 40)) ∧
  (∀ (s : State) (die seq agent : Nat),
    (nextShootdown s die seq agent = none → exec (.shootdownRequest die seq agent) s = .next s) ∧
    (∀ x, nextShootdown s die seq agent = some x → agent < 0x8000 → (agent < 0x4000 → shootWaits s x agent = false) →
      ∃ t, exec (.shootdownRequest die seq agent) s = .next t ∧
        (agent < 0x4000 → ∀ e ∈ (t.core agent).tlb, x.removes e = false) ∧
        (0x4000 ≤ agent → ∀ e ∈ (t.die (agent - 0x4000)).tlb, x.removes e = false) ∧
        ∀ y ∈ (t.die die).shoots, y.seq = seq → agent ∉ y.pending)) ∧
  (∀ (s : State) (die seq : Nat),
    ((∀ y ∈ (s.die die).shoots, y.seq = seq → y.pending = []) → ∃ t, exec (.shootdownComplete die seq) s = .next t ∧
      shooting t die seq = false ∧ t.mem = s.mem ∧ ∀ y ∈ (s.die die).shoots, y.seq ≠ seq → y ∈ (t.die die).shoots) ∧
    ((∀ y ∈ (s.die die).shoots, y.seq = seq → y.pending ≠ []) → ∃ t, exec (.shootdownComplete die seq) s = .next t ∧
      (t.die die).shoots = (s.die die).shoots)) ∧
  (∀ (s : State) (u die n d : Nat) (v : Word), (s.strand u).run = .parked (.shootdown die n d v) →
    (s.strand u).called = false → shooting s die n = false →
    ∃ t, exec (.strandWake u) s = .next t ∧ (t.strand u).run = .ready ∧ (t.strand u).pc = (s.strand u).pc + 4 ∧
      (∀ r, (t.strand u).reg r = if r = d ∧ r ≠ 0 then v else (s.strand u).reg r) ∧ t.mem = s.mem)

/-- For a core on a line's own die, where the last-level cache has room, the parcel is not counted and the key of the
line is the one that its slot holds: a read of a line without an owner leaves it Shared with the reader among its
sharers and memory unchanged; a read of another core's line, a claim of it, an invalidating snoop and a forwarded read
of the owner, and an eviction from the last-level cache put the owner's dirty words, and no other byte, at the home; a
claim leaves the core the only owner, and other cores without a copy; a forwarded read leaves the owner a clean copy;
an eviction leaves no copies. A poisoned line is neither read nor owned. A write-back in flight is merged when it
arrives, as is the one that a gone answer names; the host's write-back of a line that it owns is merged as it is made.
A core that drops a clean copy leaves the sharers. A remote die that evicts a guest copy that it owns sends its dirty
words as a write-back. (R236, R238, R239, R243, R244, R247, R248, R249) -/
def Obligations.HomeEvents : Prop :=
  (∀ (s : State) (a line : Nat), a < 0x4000 → requester s a line = a → s.homeQuiet line →
    s.roomFor (line * 128) → (∀ l, s.leafOfFrame (line / 512) = some l → l.counterEnable = false) →
    ((s.line line).code = 3 → exec (.homeRead a line) s = .next s ∧ exec (.homeOwn a line) s = .next s) ∧
    ((s.line line).code ≤ 1 →
      (∃ t, exec (.homeRead a line) s = .next t ∧ (t.line line).code = 1 ∧ t.mem = s.mem ∧
        (∀ b, b ∈ (t.line line).sharers ↔ b = a ∨ b ∈ (s.line line).sharers) ∧
        (windowed s a line = false → (t.copyIn a line).isSome = true)) ∧
      ∃ t, exec (.homeOwn a line) s = .next t ∧ (t.line line).code = 2 ∧ (t.line line).sharers = [a] ∧
        ∀ b ∈ (s.line line).sharers, b ≠ a → b < 0x4000 → t.copyIn b line = none) ∧
    (∀ o, o < 0x4000 → o ≠ a → (s.line line).code = 2 → (s.line line).sharers = [o] →
      (∃ t, exec (.homeRead a line) s = .next t ∧ (t.line line).code = 1 ∧ a ∈ (t.line line).sharers ∧
        mergedAt s.mem t.mem line (agentDirty s o line 0) (dirtyWords s o line)) ∧
      ∃ t, exec (.homeOwn a line) s = .next t ∧ (t.line line).code = 2 ∧ (t.line line).sharers = [a] ∧
        t.copyIn o line = none ∧ mergedAt s.mem t.mem line (agentDirty s o line 0) (dirtyWords s o line)) ∧
    (∃ t, exec (.invalidatingSnoop a line) s = .next t ∧ t.copyIn a line = none ∧
      mergedAt s.mem t.mem line (agentDirty s a line 0) (dirtyWords s a line) ∧
      ((s.line line).code ≠ 3 → (t.line line).sharers = (s.line line).sharers.filter (· != a))) ∧
    ((s.line line).code = 2 → (s.line line).sharers = [a] →
      ∃ t, exec (.forwardedRead a line) s = .next t ∧ (t.line line).code = 1 ∧ (t.line line).sharers = [a] ∧
        mergedAt s.mem t.mem line (agentDirty s a line 0) (dirtyWords s a line) ∧
        ∀ c, s.copyIn a line = some c → c.tracked = true →
          t.copyIn a line = some { c with dirty := 0, owned := false }) ∧
    (¬ ((s.line line).code = 2 ∧ (s.line line).sharers = [a]) → exec (.forwardedRead a line) s = .next s) ∧
    (holdsClean s a line = false → exec (.cleanCopyDrop a line) s = .next s) ∧
    (holdsClean s a line = true → windowed s a line = false → ∃ t, exec (.cleanCopyDrop a line) s = .next t ∧
      t.copyIn a line = none ∧ t.mem = s.mem ∧ ((∀ c, s.copyIn a line = some c → c.tracked = true) → (s.line line).code = 1 →
        (t.line line).sharers = (s.line line).sharers.filter (· ≠ a) ∧
        (t.line line).code = if (t.line line).sharers = [] then 0 else 1)) ∧
    ((s.line line).code = 2 → (s.line line).sharers = [a] → (∀ l, ((recallAll s line).updLine line fun k =>
        { k with cached := false, dirty := false }).leafOfFrame (line / 512) = some l → l.counterEnable = false) →
      ∃ t, exec (.llcEviction line) s = .next t ∧
      (t.line line).code = 0 ∧ (t.line line).sharers = [] ∧ (t.line line).cached = false ∧ t.copyIn a line = none ∧
      mergedAt s.mem t.mem line (agentDirty s a line 0) (dirtyWords s a line)) ∧
    ((s.line line).code ≠ 1 → (s.line line).code ≠ 2 → (s.line line).dirty = false →
      exec (.llcEviction line) s = .next (s.updLine line fun k => { k with cached := false, dirty := false }))) ∧
  (∀ (s : State) (a line n : Nat),
    (s.writeBacks.find? (fun w => w.agent = a && w.line = line && w.seq = n) = none →
      ∀ c, c = Tab.get Copy.none s.hostCopies line →
      (¬ (c.owned = true ∧ sharerBit a = agentHost 0) →
        exec (.homeWriteBack a line n) s = .next s ∧ exec (.goneResponse a line n) s = .next s) ∧
      (c.owned = true → sharerBit a = agentHost 0 → s.keyed line → (s.parcel (line / 512)).blocked = false →
        s.movedPa (line * 128) = line * 128 → ∃ t, exec (.homeWriteBack a line n) s = .next t ∧
          mergedAt s.mem t.mem line c.data c.dirty ∧ Tab.get Copy.none t.hostCopies line = Copy.none)) ∧
    (∀ w, s.writeBacks.find? (fun w => w.agent = a && w.line = line && w.seq = n) = some w →
      s.keyed line → (s.parcel (line / 512)).blocked = false → s.movedPa (line * 128) = line * 128 →
      ∃ t, exec (.homeWriteBack a line n) s = .next t ∧ exec (.goneResponse a line n) s = .next t ∧
        mergedAt s.mem t.mem line w.data w.dirty ∧ t.writeBacks = s.writeBacks.filter (· != w) ∧
        ((s.line line).code = 2 → (s.line line).sharers = [sharerBit a] → (t.line line).code = 0 ∧ (t.line line).sharers = []))) ∧
  (∀ (s : State) (d line : Nat), (s.guestIn d line = none → exec (.guestCopyEviction d line) s = .next s) ∧
    (∀ g, s.guestIn d line = some g → ∃ t, exec (.guestCopyEviction d line) s = .next t ∧ t.guestIn d line = none ∧
      t.mem = s.mem ∧
      (g.owned = true → g.tracked = true → t.writeBacks = s.writeBacks ++ [⟨agentDie d, line, Tab.get 0 s.agentSeq (agentDie d),
        agentDirty s (agentDie d) line 0, dirtyWords s (agentDie d) line⟩]) ∧
      (g.owned = false ∨ g.tracked = false → t.writeBacks = s.writeBacks)))

/-- ESTR on a C-core takes cause 5 for an address that is not a multiple of 64, and cause 19 with sub-cause 0, 1 or 2
for an invalid field, port or aperture address; a fault of the read of the command comes before these, a watch that
meets it after them. It gives 0 without an entry or at the context's share of Queued and Running entries (that ended
ones do not count is a DESIGN CHOICE, log entry 114), and otherwise the handle of an entry that holds the command,
Queued. ESTAT gives the state, sub-cause and rows, and acquires at package scope where the command has ended; ECANCEL
gives 1 for an active command, which stops, and else 0; both give 0 for a handle that is not live. EPUSH and EPOP take
cause 19 with sub-causes 3, 4 and 5, wait for space and for an element, and append a push after a release or remove
the oldest element and acquire. EWM gives a channel's watermark, EWAIT waits for it and then acquires, and ECHAN gives
3 for a bad operand, 0 for a channel in use, 2 for a parcel that is neither home nor tracked, and otherwise 1 with the
channel as configured and its watermark 0. EGANG on a V- or M-core gives 3 for a bad operand, 0 for a complete gang or
another size, 2 for another vector length, and 1 where the strand joins; at its size the gang is complete. (R311,
R312, R313, R316, R318, R319, R320, R321, R322, R323, R326) -/
def Obligations.EngineInstructions : Prop :=
  (∀ (s s1 s2 : State) (d a : BitVec 6) (va : Word) (bs : List Byte) (p : Bool) (c : Command), s.me.isExecute = false →
    d.toNat < 32 → a.toNat < 32 → onClass s 1 → va = s.me.reg a.toNat →
    (va.toNat % 64 ≠ 0 → exec (.estr d a) s = .next (takeTrap s s.cur ⟨5, 0, va⟩ false false)) ∧
    (va.toNat % 64 = 0 → answers engineRelease s () s1 → trapsWith (.estr d a) s (readBytes va 64 false 2) s1 ∧ (answers (readBytes va 64 false 2) s1 (bs, p) s2 →
      c = Command.ofBytes bs →
      (c.invalid (leNat (bs.drop 0x3C)) = true → exec (.estr d a) s = .next (takeTrap s s.cur ⟨19, 0, va⟩ false false)) ∧
      (c.invalid (leNat (bs.drop 0x3C)) = false → c.badPort s2 s2.me = true →
        exec (.estr d a) s = .next (takeTrap s s.cur ⟨19, 1, va⟩ false false)) ∧
      (c.invalid (leNat (bs.drop 0x3C)) = false → c.badPort s2 s2.me = false →
        ((apertureOffset c.src).isSome = true ∨ (apertureOffset c.dst).isSome = true →
          exec (.estr d a) s = .next (takeTrap s s.cur ⟨19, 2, va⟩ false false)) ∧
        (∀ n, apertureOffset c.src = none → apertureOffset c.dst = none → watchHit s2.me .load va 64 = some n →
          exec (.estr d a) s = .next (takeTrap s s.cur ⟨17, n, va⟩ false false)) ∧
        (apertureOffset c.src = none → apertureOffset c.dst = none → watchHit s2.me .load va 64 = none → ∀ k share, k = s2.die (dieOf s2 s2.me.core) →
          share = (k.cmds.filter fun x => x.2.ctx = s2.me.ctx && x.2.st.active).length →
          (cmdAllocatable k = none ∨ (s2.context s2.me.ctx).engineShare ≤ share →
            ∀ e, e = (s2.updMe fun t => t.setReg d.toNat 0) → completesWith (.estr d a) s e ((e.strand s.cur).pc + 4)) ∧
          (∀ n gen, cmdAllocatable k = some n → share < (s2.context s2.me.ctx).engineShare →
            gen = (s2.cmd (dieOf s2 s2.me.core) n).gen % 65535 + 1 →
            ∃ e, completesWith (.estr d a) s e ((e.strand s.cur).pc + 4) ∧
              (d ≠ 0 → e.me.reg d.toNat = handleOf (dieOf s2 s2.me.core) n gen) ∧
              e.cmd (dieOf s2 s2.me.core) n = { c with
                st := .queued, gen := gen, ctx := s2.me.ctx, issuer := s2.cur, core := s2.me.core, slot := s2.me.slot
                launch := s2.me.launch, stage := s2.me.stageId.toNat % 256, order := k.cmdOrder })))))) ∧
  (∀ (s : State) (d a b : BitVec 6) (h : Word), d.toNat < 32 → a.toNat < 32 → b.toNat < 32 → h = s.me.reg a.toNat →
    (liveHandle s s.me.ctx h = none →
      completesWith (.estat d a) s (s.updMe fun t => t.setReg d.toNat 0) (s.me.pc + 4) ∧
      completesWith (.ecancel d a) s (s.updMe fun t => t.setReg d.toNat 0) (s.me.pc + 4) ∧
      (s.me.isExecute = false → exec (.epush a b) s = .next (takeTrap s s.cur ⟨19, 3, h⟩ false false) ∧
        exec (.epop d a) s = .next (takeTrap s s.cur ⟨19, 3, h⟩ false false))) ∧
    (∀ die n c, liveHandle s s.me.ctx h = some (die, n) → c = s.cmd die n →
      (∀ e, e = (s.updMe fun t => t.setReg d.toNat (BitVec.ofNat 64 (c.rows % 2 ^ 32 * 2 ^ 32 +
          (if c.st = .failed then c.sub else 0) * 2 ^ 8 + c.st.code))) →
        (c.st.active = true → completesWith (.estat d a) s e (s.me.pc + 4)) ∧
        (c.st.active = false → completesWith (.estat d a) s (selfInvalidate e e.me.core 2)
          (((selfInvalidate e e.me.core 2).strand s.cur).pc + 4))) ∧
      (c.st.active = true → c.stop = false → ∀ e,
        e = ((failPeers (s.updCmd die n fun c => { c with stop := true }) die n).updMe fun t => t.setReg d.toNat 1) →
        completesWith (.ecancel d a) s e ((e.strand s.cur).pc + 4)) ∧
      (c.st.active = false ∨ c.stop = true → completesWith (.ecancel d a) s
        (s.updMe fun t => t.setReg d.toNat (if c.st.active then 1 else 0)) (s.me.pc + 4)) ∧
      (s.me.isExecute = false →
        (c.hasInput = false → exec (.epush a b) s = .next (takeTrap s s.cur ⟨19, 4, h⟩ false false)) ∧
        (c.hasInput = true → c.needed ≤ c.pushes →
          exec (.epush a b) s = .next (takeTrap s s.cur ⟨19, 5, h⟩ false false)) ∧
        (∀ s1, c.hasInput = true → c.pushes < c.needed → answers engineRelease s () s1 →
          (64 ≤ c.input.length → exec (.epush a b) s = .next (park s s.cur (.epush h))) ∧
          (c.input.length < 64 → ∀ e, e = (s1.updCmd die n fun c => { c with
              input := c.input ++ [s.me.reg b.toNat], pushes := c.pushes + 1 }) →
            completesWith (.epush a b) s e ((e.strand s.cur).pc + 4))) ∧
        (c.hasOutput = false → exec (.epop d a) s = .next (takeTrap s s.cur ⟨19, 4, h⟩ false false)) ∧
        (c.hasOutput = true → c.output = [] → c.st.active = true → exec (.epop d a) s = .next (park s s.cur (.epop h))) ∧
        (c.hasOutput = true → c.output = [] → c.st.active = false →
          exec (.epop d a) s = .next (takeTrap s s.cur ⟨19, 5, h⟩ false false)) ∧
        (∀ v rest, c.hasOutput = true → c.output = v :: rest → ∃ e, completesWith (.epop d a) s e (s.me.pc + 4) ∧
          (d ≠ 0 → e.me.reg d.toNat = v) ∧ (e.cmd die n).output = rest ∧ e.mem = s.mem)))) ∧
  (∀ (s : State) (d a b : BitVec 6) (n need : Nat) (ch : Channel), d.toNat < 32 → a.toNat < 32 → b.toNat < 32 →
    n = (s.me.reg a.toNat).toNat % 16 → ch = s.channel s.me.ctx n → need = min (s.me.reg b.toNat).toNat ch.size →
    completesWith (.ewm d a) s (s.updMe fun t => t.setReg d.toNat (if ch.size = 0 then 0 else BitVec.ofNat 64 ch.wm))
      (s.me.pc + 4) ∧
    (ch.size = 0 ∨ need ≤ ch.wm ∨ (s.me.waitGen ≠ 0 ∧ s.me.waitGen ≠ ch.gen + 1) →
      ∀ e, e = selfInvalidate (s.updMe fun t => { t with waitGen := 0 }) s.me.core 2 →
        completesWith (.ewait a b) s e ((e.strand s.cur).pc + 4)) ∧
    (¬ (ch.size = 0 ∨ need ≤ ch.wm ∨ (s.me.waitGen ≠ 0 ∧ s.me.waitGen ≠ ch.gen + 1)) → exec (.ewait a b) s =
      .next (park (s.updMe fun t => { t with waitGen := ch.gen + 1 }) s.cur (.ewait n ch.gen need)))) ∧
  (∀ (s s1 : State) (d a b : BitVec 6) (base w : Word) (n size : Nat) (cls : List Nat) (used : Bool), d.toNat < 32 →
    a.toNat < 32 → b.toNat < 32 → base = s.me.reg a.toNat → w = s.me.reg b.toNat → n = (w.extractLsb' 0 4).toNat →
    size = (w.extractLsb' 16 32).toNat →
    used = (activeCmds s).any (fun k => (s.cmd k.1 k.2).ctx = s.me.ctx && (s.cmd k.1 k.2).chen && (s.cmd k.1 k.2).chan = n) →
    (w.toNat / 2 ^ 48 ≠ 0 ∨ w.extractLsb' 12 4 ≠ 0 ∨ w.extractLsb' 4 4 ≠ 0 ∨ base.toNat % 128 ≠ 0 ∨ size % 128 ≠ 0 →
      completesWith (.echan d a b) s (s.updMe fun t => t.setReg d.toNat 3) (s.me.pc + 4)) ∧
    (w.toNat / 2 ^ 48 = 0 → w.extractLsb' 12 4 = 0 → w.extractLsb' 4 4 = 0 → base.toNat % 128 = 0 → size % 128 = 0 →
      (used = true → completesWith (.echan d a b) s (s.updMe fun t => t.setReg d.toNat 0) (s.me.pc + 4)) ∧
      (used = false → answers (channelClasses base size) s cls s1 →
        ((∃ c ∈ cls, c ≠ 2 ∧ c ≠ 3) → ∀ e, e = (s1.updMe fun t => t.setReg d.toNat 2) →
          completesWith (.echan d a b) s e ((e.strand s.cur).pc + 4)) ∧
        ((∀ c ∈ cls, c = 2 ∨ c = 3) → ∃ e, completesWith (.echan d a b) s e ((e.strand s.cur).pc + 4) ∧
          (d ≠ 0 → e.me.reg d.toNat = 1) ∧ e.mem = s1.mem ∧ e.channel s.me.ctx n =
            ⟨if size = 0 then 0 else base, size, (w.extractLsb' 8 4).toNat + 1, 0, [], [], (s.channel s.me.ctx n).gen + 1, none⟩)))) ∧
  (∀ (s : State) (d a b : BitVec 6) (g x : Word) (port n : Nat) (old : Option Gang), d.toNat < 32 → a.toNat < 32 →
    b.toNat < 32 → onClass s 6 → g = s.me.reg a.toNat → x = s.me.reg b.toNat → port = (g.extractLsb' 0 7).toNat →
    n = (g.extractLsb' 8 8).toNat → old = findGang s s.me.ctx (dieOf s s.me.core) port →
    (g.toNat / 2 ^ 16 ≠ 0 ∨ g.getLsbD 7 = true ∨ 63 < port ∨ n = 0 ∨ 64 < n ∨ 47 < x.toNat →
      completesWith (.egang d a b) s (s.updMe fun t => t.setReg d.toNat 3) (s.me.pc + 4)) ∧
    (¬ (g.toNat / 2 ^ 16 ≠ 0 ∨ g.getLsbD 7 = true ∨ 63 < port ∨ n = 0 ∨ 64 < n ∨ 47 < x.toNat) →
      (∀ k, 32 ≤ x.toNat → queueCheck s s.cur (x.toNat - 32) [2] (some true) = some k →
        exec (.egang d a b) s = .next (takeTrap s s.cur ⟨13, k, x⟩ false false)) ∧
      (32 ≤ x.toNat → queueCheck s s.cur (x.toNat - 32) [2] (some true) = none) →
      ((∃ y, old = some y ∧ (y.complete = true ∨ y.size ≠ n)) →
        completesWith (.egang d a b) s (s.updMe fun t => t.setReg d.toNat 0) (s.me.pc + 4)) ∧
      ((∃ y, old = some y ∧ y.complete = false ∧ y.size = n ∧ vlKey y.vl ≠ vlKey s.me.vl) →
        completesWith (.egang d a b) s (s.updMe fun t => t.setReg d.toNat 2) (s.me.pc + 4)) ∧
      ((∀ y, old = some y → y.complete = false ∧ y.size = n ∧ vlKey y.vl = vlKey s.me.vl) →
        ∃ e y, completesWith (.egang d a b) s e (s.me.pc + 4) ∧ (d ≠ 0 → e.me.reg d.toNat = 1) ∧ e.mem = s.mem ∧
          e.me.gangs = s.me.gangs ++ [(dieOf s s.me.core, port, if x.toNat < 32 then x.toNat else 32)] ∧ y ∈ (e.context s.me.ctx).gangs ∧ y.die = dieOf s s.me.core ∧ y.port = port ∧ y.size = n ∧
          y.members = ((old.map fun o => o.members).getD []) ++ [(s.cur, x.toNat)] ∧
          y.complete = decide (y.members.length = n))))

/-- A command that can start is Running on the engine of lowest number with room, one whose channel does not fit fails
with sub-cause 12, and an ordered fold after the failure of an earlier key with 11. An element of a plain or
unordered-fold command from memory to memory is read at its source, written or folded at its destination, noted and
counted for its channel; a read that faults fails the command, and a write of a command without reduction changes the
bytes of the element and no others. A completed row enters an output FIFO that has room. At its end a command is
Failed, Cancelled or Done; its interrupt is recorded, and its port's gang dissolves. A block is announced with the
bytes gathered, granted in order, and arrives in order; a strip is given to a gang's members, in the slots that a
granted block has for it or in new ones. A teardown ends the context's strands, frees its booth entries, releases its
kept storage, and unconfigures its channels and gangs; at the end of the drain the context exists no more and its logs
are empty, and its commands are Free once nothing of it is in flight. The model's choices here: when a device part
moves (DESIGN CHOICE, log entry 4), the order of the moves of an engine (DEDUCED, log entry 28), the size of a block
(DESIGN CHOICE, log entry 95), what a scale-out source port gives (DESIGN CHOICE, log entry 94), a fold into a
poisoned destination, which does not fail (DESIGN CHOICE, log entry 115), and the time at which the context ends
(DEDUCED, log entry 54). (R287, R297, R311, R315, R320, R321, R322, R325, R327, R329, R330, R334) -/
def Obligations.EngineEvents : Prop :=
  (∀ (s : State) (die n : Nat) (c : Command) (ch : Channel), c = s.cmd die n → ch = s.channel c.ctx c.chan →
    (startableCmd s die n = false → exec (.commandStart die n) s = .next s) ∧
    (startableCmd s die n = true → ∃ t, exec (.commandStart die n) s = .next t ∧
      ((c.chen = true ∧ ch.size = 0) ∨ (c.red = 2 ∧ (c.chen = false ∨ ch.group ≤ c.key)) →
        (t.cmd die n).stop = true ∧ (t.cmd die n).sub = 12) ∧
      (¬ ((c.chen = true ∧ ch.size = 0) ∨ (c.red = 2 ∧ (c.chen = false ∨ ch.group ≤ c.key))) →
        (∀ k, ch.dead = some k → c.keyed = true → k < c.key → (t.cmd die n).stop = true ∧ (t.cmd die n).sub = 11) ∧
        ((∀ k, ch.dead = some k → c.keyed = true → c.key ≤ k) →
          t.cmd die n = { c with st := .running, engine := roomyEngine (s.die die) })))) ∧
  (∀ (s : State) (die n k : Nat) (c : Command), c = s.cmd die n → k = c.pick (Config.choice s.tick) →
    (c.st ≠ .running ∨ c.stop = true ∨ c.total ≤ c.count → exec (.engineElement die n) s = .next s) ∧
    (c.st = .running → c.stop = false → c.count < c.total → c.skind = 0 → c.dkind = 0 → c.red ≤ 1 → c.rowHeld k = false →
      (∀ e, engineRead s die n (c.srcAddr k) (c.w / 8) = .error e →
        exec (.engineElement die n) s = .next (failCommand s die n e (c.srcAddr k))) ∧
      (∀ v s1, engineRead s die n (c.srcAddr k) (c.w / 8) = .ok (v, s1) → s1.cmd die n = c → ∀ w,
        w = (if c.red = 0 then engineWrite s1 die n (c.dstAddr k) none (fun _ => v)
          else engineWrite s1 die n (c.dstAddr k) (c.logOf v) (fun old => c.fold old v)) →
        (∀ e, w = .error e → exec (.engineElement die n) s = .next (failCommand s1 die n e (c.dstAddr k))) ∧
        (∀ s2, w = .ok s2 → exec (.engineElement die n) s =
          .next (countWrite (s2.updCmd die n fun c => c.note k) c (c.dstAddr k) (c.w / 8)))))) ∧
  (∀ (s s1 : State) (die n v : Nat) (va : Word) (l : Leaf) (c : Command), c = s.cmd die n → c.red = 0 →
    engineLeaf s die c.ctx .atomic va (c.w / 8) = .ok l → l.cls = 2 → l.logEnable = false → l.counterEnable = false →
    keyEmpty s l = false → reachable s l.pa = true → l.pa % (c.w / 8) = 0 → (s.line (l.pa / 128)).code = 0 →
    (s.line (l.pa / 128)).key = keyId s l.keyIndex → (s.parcel l.frame).blocked = false → s.movedPa l.pa = l.pa → lineHeld s l.pa = false → s.roomFor l.pa →
    engineWrite s die n va none (fun _ => v) = .ok s1 →
    ∀ x, memByte s1.mem x = if l.pa ≤ x ∧ x < l.pa + c.w / 8 then BitVec.ofNat 8 (v / 256 ^ (x - l.pa)) else memByte s.mem x) ∧
  (∀ (s : State) (die n : Nat) (c : Command), c = s.cmd die n → ∃ t, exec (.rowComplete die n) s = .next t ∧
    t.mem = s.mem ∧
    (∀ r rest, c.finished = r :: rest → c.output.length < 64 →
      t.cmd die n = { c with output := c.output ++ [BitVec.ofNat 64 r], finished := rest }) ∧
    (c.finished = [] ∨ 64 ≤ c.output.length → t.cmd die n = c)) ∧
  (∀ (s : State) (die n : Nat) (c : Command), c = s.cmd die n →
    (endable s die n = false ∨ endGate s die n = .hold → exec (.commandEnd die n) s = .next s) ∧
    (endable s die n = true → endGate s die n ≠ .hold → ∃ t st, exec (.commandEnd die n) s = .next t ∧
      st = (if c.sub ≠ 0 then CmdState.failed else if c.stop = true then .cancelled else .done) ∧
      (t.cmd die n).st = st ∧ (t.cmd die n).gather = [] ∧
      (c.dkind = 1 → c.dport < 64 → c.st = .running → findGang t c.ctx die c.dport = none) ∧
      (c.int = true → (s.strand c.issuer).run ≠ .done → (s.strand c.issuer).completions.length < 16 →
        (t.strand c.issuer).completions = (s.strand c.issuer).completions ++ [⟨handleOf die n c.gen, st.code, c.tag⟩]))) ∧
  (∀ (s : State) (launch src dst : Nat) (q : StageQueue), q = stageQueue s (launch, src, dst) →
    (announces s (launch, src, dst) = none → exec (.stageBlockAnnounce launch src dst) s = .next s) ∧
    (∀ d e, announces s (launch, src, dst) = some (d, e) → ∃ t, exec (.stageBlockAnnounce launch src dst) s = .next t ∧
      (t.cmd d e).gather = [] ∧ stageQueue t (launch, src, dst) =
        { q with announced := q.announced ++ [(s.cmd d e).gather], seq := q.seq + 1 }) ∧
    (grants s (launch, src, dst) = false → exec (.stageBlockGrant launch src dst) s = .next s) ∧
    (∀ b rest, grants s (launch, src, dst) = true → q.announced = b :: rest →
      ∃ t, exec (.stageBlockGrant launch src dst) s = .next t ∧
        stageQueue t (launch, src, dst) = { q with announced := rest, granted := q.granted ++ [b] }) ∧
    (q.granted = [] → exec (.stageBlockPull launch src dst) s = .next s) ∧
    (∀ b rest, q.granted = b :: rest → dst < 80 → ∃ t, exec (.stageBlockPull launch src dst) s = .next t ∧
      stageQueue t (launch, src, dst) = { q with granted := rest, arrived := q.arrived ++ b })) ∧
  (∀ (s : State) (ctx die port : Nat),
    (stripMoves s ctx die port = false → exec (.gangStripGrant ctx die port) s = .next s) ∧
    (∀ g e n c, stripMoves s ctx die port = true → findGang s ctx die port = some g → gangCommand s ctx die port = some e →
      c = s.cmd die e → n = c.ahead s die →
      (gangOverrun g = true → exec (.gangStripGrant ctx die port) s = .next (failCommand s die e 13 0)) ∧
      (gangOverrun g = false → ∃ t, exec (.gangStripGrant ctx die port) s = .next t ∧ t.mem = s.mem ∧
        (t.cmd die e).gather = c.gather.drop n ∧ findGang t ctx die port = some { g with strips := g.strips + 1, ahead := g.ahead.tail } ∧
        (∀ u r, g.members = [(u, r)] → r < 32 → (t.strand u).vec r = leWord 2048 (c.gather.take n) ∧ t.agenda = s.agenda) ∧
        (∀ u r slot gen rest, g.members = [(u, r)] → 32 ≤ r → g.ahead = [(u, r - 32, slot, gen)] :: rest →
          t.queue u (r - 32) = s.queue u (r - 32) ∧
          t.agenda = s.agenda ++ [.queueFillArrival u (r - 32) slot gen (leWord 2048 (c.gather.take n)) false]) ∧
        (∀ u r, g.members = [(u, r)] → 32 ≤ r → g.ahead = [] → (t.queue u (r - 32)).slots.length = (s.queue u (r - 32)).slots.length + 1 ∧
          t.agenda = s.agenda ++ [.queueFillArrival u (r - 32) (s.queue u (r - 32)).fill (s.queue u (r - 32)).gen
            (leWord 2048 (c.gather.take n)) false])))) ∧
  (∀ (s : State) (ctx : Nat),
    ((s.context ctx).live = false ∨ (s.context ctx).closing.isSome = true → exec (.contextTeardown ctx) s = .next s) ∧
    ((s.context ctx).live = true → (s.context ctx).closing = none → ∃ t, exec (.contextTeardown ctx) s = .next t ∧
      (∀ u, (s.strand u).ctx = ctx → (s.strand u).run.live = true → (t.strand u).run = .done) ∧
      (t.context ctx).channels = [] ∧ (t.context ctx).gangs = [] ∧
      ((t.context ctx).live = false ∨ (t.context ctx).closing.isSome = true) ∧
      (∀ c, ∀ k ∈ (t.core c).kept, k.ctx ≠ ctx) ∧
      ∀ slice entry, slice < 128 → (s.booth slice entry).ctx = ctx → (t.booth slice entry).st = .free) ∧
    (teardownOver s ctx = false → exec (.reductionDrainExpiry ctx) s = .next s) ∧
    (teardownOver s ctx = true → ∃ t, exec (.reductionDrainExpiry ctx) s = .next t ∧ (t.context ctx).live = false ∧
      t.mem = s.mem ∧ (∀ f, (s.parcel f).ctx = ctx → (t.parcel f).log = []) ∧
      (teardownWaits s ctx = true → (t.context ctx).closing = (s.context ctx).closing) ∧
      (teardownWaits s ctx = false → (t.context ctx).closing = none ∧
        ∀ d n, d < 4 → (s.cmd d n).ctx = ctx → (t.cmd d n).st = .free)))

/-- UIEN sets UISTAT.EN from bit 0 of x[a] and gives the old bit. A completion interrupt that a strand takes swaps x24
to x31 and their full bits with the shadow bank, saves the pc in UIPC, sets UICAUSE and UISTAT.IN, drops the record
and goes to UIVEC; UIRET outside a handler does nothing, and in one swaps back, clears IN and returns to UIPC, with
cause 5 where it is misaligned. TMARK writes a record only where the filter and the admission let it; TCNT reads the
counter. A sample leaves every strand where it is; the end of a replay hold lets its strand go on. A train performs
its elements and sends its acknowledgement, which leaves one train fewer outstanding; an element of a home-class line
changes its bytes and no others. That no interrupt is taken at firmware level is DEDUCED (log entry 24), and so is
that one pending is at a fresh instruction; which of several overlapping elements stands is open (DESIGN CHOICE, log
entry 9); the rest follows the rules. (R178, R330, R331, R403, R405, R412, R413, R416) -/
def Obligations.InterruptsAndTrace : Prop :=
  (∀ (s : State) (d a c : BitVec 6) (n : BitVec 3), d.toNat < 32 → a.toNat < 32 →
    completesWith (.uien d a) s (s.updMe fun t =>
      ({ t with uistat := (t.uistat &&& ~~~(1 : Word)) ||| (s.me.reg a.toNat &&& 1) }).setReg d.toNat (s.me.uistat &&& 1))
      (s.me.pc + 4) ∧
    (s.me.uistat.getLsbD 1 = false → completesWith .uiret s s (s.me.pc + 4)) ∧
    (s.me.uistat.getLsbD 1 = true → s.me.uipc.toNat % 4 ≠ 0 →
      exec .uiret s = .next (takeTrap s s.cur ⟨5, 0, s.me.uipc⟩ false false)) ∧
    (s.me.uistat.getLsbD 1 = true → s.me.uipc.toNat % 4 = 0 → completesWith .uiret s
      (s.updMe fun t => { t.swapBank with uistat := t.uistat &&& ~~~(2 : Word) }) s.me.uipc) ∧
    completesWith (.tcnt d n) s (s.updMe fun t => t.setReg d.toNat (Tab.get 0 t.trace.counters n.toNat)) (s.me.pc + 4) ∧
    (∀ e, e = strandRec s s.cur 6 ⟨0x40 + c.toNat, s.me.slot, (s.me.reg a.toNat).toNat⟩ →
      completesWith (.tmark a c) s e (s.me.pc + 4)) ∧
    (traces s s.me 6 = false → completesWith (.tmark a c) s s (s.me.pc + 4))) ∧
  (∀ (t : Strand) (r : Nat), r < 32 →
    Tab.get 0 t.swapBank.x r = (if 24 ≤ r then Tab.get 0 t.shadow r else Tab.get 0 t.x r) ∧
    Tab.get 0 t.swapBank.shadow r = (if 24 ≤ r then Tab.get 0 t.x r else Tab.get 0 t.shadow r) ∧
    t.swapBank.full.getLsbD r = (if 24 ≤ r then t.shadowFull.getLsbD r else t.full.getLsbD r) ∧
    t.swapBank.shadowFull.getLsbD r = (if 24 ≤ r then t.full.getLsbD r else t.shadowFull.getLsbD r)) ∧
  (∀ (s : State) (u : Nat),
    ((s.strand u).completions = [] ∨ takesInterrupt (s.strand u) = false → exec (.userInterruptEntry u) s = .next s) ∧
    (∀ x rest, (s.strand u).completions = x :: rest → takesInterrupt (s.strand u) = true →
      ∃ t, exec (.userInterruptEntry u) s = .next t ∧ (t.strand u).run = .ready ∧ (t.strand u).pc = (s.strand u).uivec ∧
        (t.strand u).uipc = (s.strand u).pc ∧ (t.strand u).uicause = x.cause ∧ (t.strand u).completions = rest ∧
        (t.strand u).uistat = (s.strand u).uistat ||| 2 ∧ (t.strand u).x = (s.strand u).swapBank.x ∧ t.mem = s.mem)) ∧
  (∀ (s : State) (core : Nat), ∃ t, exec (.traceSample core) s = .next t ∧ t.clock = s.clock ∧
    (∀ u, (t.strand u).pc = (s.strand u).pc ∧ (t.strand u).run = (s.strand u).run ∧ (t.strand u).x = (s.strand u).x) ∧
    (∀ u ∈ s.residents core, sampleDue s u = true → (t.strand u).trace.sampled = s.clock)) ∧
  (∀ (s : State) (die : Nat), ∃ t, exec (.replayHoldExpiry die) s = .next t ∧ t.mem = s.mem ∧
    (t.die die).replayHolds = (s.die die).replayHolds.map (fun h => (h.1, h.2.1, h.2.2 || holdOver s h)) ∧
    (∀ u, expiredStrand s die = some u → (s.strand u).run = .parked (.replay die) → (t.strand u).run = .ready ∧ (t.strand u).trace.replayFree = true ∧
      (t.strand u).pc = (s.strand u).pc)) ∧
  (∀ (s : State) (u die st w : Nat) (es : List TrainElem), ∃ t, exec (.elementTrain u die st w es) s = .next t ∧
    t = (performTrain s u w es).post (.trainAck u die st es.length) ∧
    ∀ e l, es = [e] → l = ⟨e.leaf, e.pa, 0, 1⟩ → s.movedPa e.pa = e.pa → l.cls = 2 → l.logEnable = false →
      l.counterEnable = false → keyEmpty s l = false → reachable s e.pa = true → w ∈ [8, 16, 32, 64] → e.pa % (w / 8) = 0 →
      (s.line (e.pa / 128)).code = 0 → (s.line (e.pa / 128)).key = keyId s l.keyIndex → s.roomFor e.pa →
      (s.parcel (e.pa / 65536)).blocked = false →
      ∀ x, memByte t.mem x = if e.pa ≤ x ∧ x < e.pa + w / 8 then BitVec.ofNat 8 (e.value.toNat / 256 ^ (x - e.pa))
        else memByte s.mem x) ∧
  (∀ (s : State) (u die st n : Nat), ∃ t, exec (.trainAck u die st n) s = .next t ∧ t.mem = s.mem ∧
    (∀ k, Tab.get 0 (t.strand u).trains k = Tab.get 0 (s.strand u).trains k - (if k = st then 1 else 0)) ∧
    (t.strand u).pc = (s.strand u).pc ∧ (t.strand u).x = (s.strand u).x)

/-- A strand whose condition is not met stays parked; otherwise it is Ready at the instruction it parked on, and a
pending cause 20 wakes it too, unless its operation is held at its home. A move that finds a core reserves slots,
consumes a credit and stops the strand; when its drains have ended it resumes in the reserved slot with MIGCNT.MIG
advanced, and a MIGR then gives 1. A search that ends without a core gives a MIGR 2 and enters the emulation handler
of a class-missing strand that has one. A credit returns when its delay has passed; a proactive return begins a move
or does nothing; Naing's order begins a search. A pre-emption whose drains have ended leaves its members Saved, and
the waiting CTXSV with 1; a mark makes a saved unit a candidate. A strand whose operation replay holds at its place
stops once that is performed. The model's choices here: the vector length at a resumption (DESIGN CHOICE, log entry
26), the first touch of a window after a save (DESIGN CHOICE, log entry 118), the state of a strand that moves
(DEDUCED, log entry 76), an emulation's record (DEDUCED, log entry 45), the opaque parts of a save area (DESIGN
CHOICE, log entry 15), and the tile state of a move off an M-core, whose failing save loses the context and ends the
move (DESIGN CHOICE, log entry 107). (R93, R103, R350, R351, R352, R353, R354, R358, R360, R374, R384, R394) -/
def Obligations.MovesAndWakes : Prop :=
  (∀ (s : State) (u : Nat), (wakeable s u = false → exec (.strandWake u) s = .next s) ∧
    (∀ w, (s.strand u).run = .parked w → (∀ a b c d, w ≠ .shootdown a b c d) → wakeable s u = true →
      (s.strand u).called = false → ∃ t, exec (.strandWake u) s = .next t ∧ (t.strand u).run = .ready ∧
        (t.strand u).pc = (s.strand u).pc ∧ (t.strand u).x = (s.strand u).x ∧ t.mem = s.mem) ∧
    (∀ w, (s.strand u).run = .parked w → w.atHome = false → (s.strand u).called = true → ∃ t, exec (.strandWake u) s = .next t ∧
      (t.strand u).run = .ready ∧ (t.strand u).pc = (s.strand u).pc ∧ (t.strand u).x = (s.strand u).x)) ∧
  (∀ (s : State) (u : Nat) (m : Move), s.moves.find? (fun m => m.uid = u) = some m →
    (movable s m = none → exec (.migrationCoreFreed u) s = .next s) ∧
    (∀ c, movable s m = some c → (∀ v ∈ s.couple u, (s.strand v).atPlace = none) → ∃ t slots, exec (.migrationCoreFreed u) s = .next t ∧
      slots = (s.freeSlots c).take (s.couple u).length ∧ (t.core c).reserved = (s.core c).reserved ++ slots ∧
      (∀ v ∈ s.couple u, (t.strand v).run = .migrating ∧ (t.strand v).pc = (s.strand v).pc) ∧
      { m with target := some (c, slots), since := if (s.strand u).run = .migrating then m.since else s.clock } ∈ t.moves ∧
      ((s.strand u).run ≠ .migrating → (t.strand u).travel.credits = (s.strand u).travel.credits - 1 ∧
        (t.strand u).travel.returns = (s.strand u).travel.returns ++
          [s.time + (s.context (s.strand u).ctx).creditDelay])) ∧
    (s.moves.find? (fun m => m.uid = u && m.target.isNone && decide (m.deadline < s.time) && (s.strand u).run != .migrating) =
      none → exec (.migrationSearchExpiry u) s = .next s) ∧
    (∀ classes cr, m.target = none → m.deadline < s.time → (s.strand u).coupled = false → m.issuer = u →
      (s.strand u).run = .parked (.migrate classes cr) →
      (∀ d, m.dest = some d → ∃ t, exec (.migrationSearchExpiry u) s = .next t ∧ (t.strand u).run = .ready ∧
        (t.strand u).pc = (s.strand u).pc + 4 ∧ ∀ r, (t.strand u).reg r = if r = d ∧ r ≠ 0 then 2 else (s.strand u).reg r) ∧
      (m.dest = none → (s.strand u).canEmulate m.xfields = true → ∃ t, exec (.migrationSearchExpiry u) s = .next t ∧
        (t.strand u).run = .ready ∧ (t.strand u).pc = (s.strand u).emuVec ∧ (t.strand u).uipc = (s.strand u).pc + 4 ∧
        (t.strand u).reg 24 = m.word.setWidth 64 ∧ (t.strand u).reg 25 = (s.strand u).pc ∧ (t.strand u).reg 26 = 2)) ∧
    (∀ core slots, m.target = some (core, slots) →
      ((s.couple u).any (fun v => !drained s v) = true → exec (.migrationCarryComplete u) s = .next s) ∧
      (∀ s1, (s.strand u).coupled = false → drained s u = true → s1 = parkTiles (closeWindows s u false) u core →
        (s1.context (s.strand u).ctx).lost = true → exec (.migrationCarryComplete u) s = .next s1) ∧
      (∀ s1 k, (s.strand u).coupled = false → drained s u = true → slots = [k] → s1 = parkTiles (closeWindows s u false) u core →
        (s1.context (s.strand u).ctx).lost = false → ((s.strand u).tileSave = none ∨ classOf s core ≠ 2) →
        ∃ t, exec (.migrationCarryComplete u) s = .next t ∧ (t.strand u).run = (s.strand u).resumeAs ∧
          (t.strand u).core = core ∧ (t.strand u).slot = k ∧
          (t.strand u).travel.mig = ((s.strand u).travel.mig + 1) % 2 ^ 32 ∧
          (m.dest = none → (t.strand u).pc = (s.strand u).pc ∧ ∀ r, (t.strand u).reg r = (s.strand u).reg r) ∧
          (∀ d, m.dest = some d → (s.strand u).resumeAs = .ready → m.issuer = u → (t.strand u).pc = (s.strand u).pc + 4 ∧
            ∀ r, (t.strand u).reg r = if r = d ∧ r ≠ 0 then 1 else (s.strand u).reg r)))) ∧
  (∀ (s : State) (u : Nat) (v : Travel), v = (s.strand u).travel →
    (v.returns = [] ∨ (∃ r rest, v.returns = r :: rest ∧ s.time < r) → exec (.creditReturn u) s = .next s) ∧
    (∀ r rest, v.returns = r :: rest → r ≤ s.time → ∃ t, exec (.creditReturn u) s = .next t ∧
      (t.strand u).travel.credits = v.credits + 1 ∧ (t.strand u).travel.returns = rest ∧ t.mem = s.mem)) ∧
  (∀ (s : State) (u : Nat) (m : Move),
    m = ⟨u, 2 ^ (s.strand u).travel.launchClass, 3, s.time, none, s.clock, none, 0, 0, []⟩ →
    (classOf s (s.strand u).core = (s.strand u).travel.launchClass ∨ (s.strand u).travel.credits < 2 ∨
        (s.strand u).run.inPlay = false ∨ s.moves.any (fun x => x.uid = u) = true ∨ movable s m = none →
      exec (.proactiveReturn u) s = .next s) ∧
    (∀ c, ¬ (classOf s (s.strand u).core = (s.strand u).travel.launchClass ∨ (s.strand u).travel.credits < 2 ∨
        (s.strand u).run.inPlay = false ∨ s.moves.any (fun x => x.uid = u) = true) → movable s m = some c →
      (∀ v ∈ s.couple u, (s.strand v).atPlace = none) → ∃ t, exec (.proactiveReturn u) s = .next t ∧ (∀ v ∈ s.couple u, (t.strand v).run = .migrating) ∧
        (t.core c).reserved = (s.core c).reserved ++ (s.freeSlots c).take (s.couple u).length)) ∧
  (∀ (s : State) (u mask : Nat) (classes : BitVec 3), mask = classes.toNat &&& (s.strand (s.owner u)).travel.allowed →
    (mask = 0 ∨ (s.strand (s.owner u)).run.inPlay = false ∨
        s.moves.any (fun x => x.uid = s.owner u) = true → exec (.naingOrderedMove u classes) s = .next s) ∧
    (¬ (mask = 0 ∨ (s.strand (s.owner u)).run.inPlay = false ∨
        s.moves.any (fun x => x.uid = s.owner u) = true) → exec (.naingOrderedMove u classes) s = .next { s with
      moves := s.moves ++ [⟨s.owner u, mask, 4, s.time + (s.context (s.strand (s.owner u)).ctx).waitBound, none, s.clock, none, 0,
        0, []⟩] })) ∧
  (∀ (s : State) (u : Nat) (p : Preempt), s.preempts.find? (fun p => p.members.contains u) = some p →
    (saveReady s p = false → exec (.preemptionSaveComplete u) s = .next s) ∧
    (saveReady s p = true → ∀ s1 s2 v, v = s1.strand (p.members.headD 0) →
      s1 = p.members.foldl (fun s v => closeWindows s v true) { s with preempts := s.preempts.filter (· != p) } →
      (s1.context v.ctx).lost = false → v.saveBase.toNat % 4096 = 0 → (∀ v ∈ p.members, (s1.strand v).spoiled = []) →
      saveStore s1 (carouselUnit s1 (p.members.headD 0)) v.saveBase (saveArea s1 p.members) 64 = some s2 →
      ∃ t, exec (.preemptionSaveComplete u) s = .next t ∧ (∀ v ∈ p.members, (t.strand v).run = .saved) ∧ t.mem = s2.mem ∧
        (∃ x ∈ t.saved, x.base = v.saveBase ∧ x.members = p.members ∧ x.marked = false) ∧
        ∀ w d a b, p.waiter = some (w, d) → w ∉ p.members → (s2.strand w).run = .parked (.save a b) →
          (t.strand w).run = .ready ∧ (t.strand w).pc = (s2.strand w).pc + 4 ∧ (d ≠ 0 → (t.strand w).reg d = 1))) ∧
  (∀ (s : State) (u : Nat), ∃ t, exec (.resumptionMark u) s = .next t ∧ t.mem = s.mem ∧ t.strands = s.strands ∧
    t.saved.length = s.saved.length ∧ (∀ x ∈ t.saved, u ∈ x.members → x.marked = true) ∧
    ∀ x ∈ s.saved, u ∉ x.members → x ∈ t.saved)

/-- A queue whose ring or control block cannot be read where R386 wants it, or whose ring holds more records than it
has entries, enters Error with code 12 or 1; otherwise HEAD advances, a record that fails a check leaves its code in
LASTERR, and one that passes all of them becomes a launch. The checks stand in the order of their codes. A dispatch of
a troupe of one strand starts it at the image's entry in its slot, with x2 at the top of its allotment and x3 at the
parameter block, and sets the tier's credits and N7. A held starved candidate raises a launch-queue event. A complete
launch stores CVAL at CADDR, or logs the fault. An announcement is counted, or kept for a launch to come; a gang whose
timer runs out, or that is told of an abort, is dead and its strands have cause 20 pending, and the timeout is told to
the other members. A gang completes up to the ns in which its timer runs out, and a launch that has received cause 20
makes no completion. Naing's end of a launch ends its strands. The model's choices here: a ring or control block that
cannot be read (DEDUCED, log entry 120), what does not refuse a launch (DEDUCED, log entry 48), the time at which the
bases of declared windows are read (DESIGN CHOICE, log entry 98), the candidates that saved units are (DEDUCED, log
entry 52), N7, which stops at 63 (DEDUCED, log entry 51), kept storage at a placement (DESIGN CHOICE, log entry 119),
and aborts and early announcements (DEDUCED, log entry 49). (R57, R254, R370, R387, R391, R392, R393, R395, R396,
R397, R401, R402) -/
def Obligations.LaunchEvents : Prop :=
  (∀ (s : State) (q : Nat) (d : LaunchQueue), d = s.queueDesc q →
    (acceptable s q = false → exec (.launchRecordAccept q) s = .next s) ∧
    (acceptable s q = true → queueBytes s d.ctx d.cb 64 = none →
      exec (.launchRecordAccept q) s = .next (queueError s q 12 0 0 0 true)) ∧
    (∀ cb tail head, acceptable s q = true → queueBytes s d.ctx d.cb 64 = some cb → tail = fieldAt cb 0 8 →
      head = fieldAt cb 8 8 →
      (2 ^ d.log2n < (tail + 2 ^ 64 - head) % 2 ^ 64 →
        exec (.launchRecordAccept q) s = .next (queueError s q 1 0 0 head true)) ∧
      (¬ 2 ^ d.log2n < (tail + 2 ^ 64 - head) % 2 ^ 64 → ringSound s d = false →
        exec (.launchRecordAccept q) s = .next (queueError s q 12 0 0 head true)) ∧
      (¬ 2 ^ d.log2n < (tail + 2 ^ 64 - head) % 2 ^ 64 → ringSound s d = true → ∀ bs s1 r,
        queueBytes s d.ctx (d.ring + BitVec.ofNat 64 (64 * (head % 2 ^ d.log2n))) 64 = some bs →
        r = (List.range 8).map (fun i => BitVec.ofNat 64 (fieldAt bs (8 * i) 8)) →
        s1 = ctxPut s d.ctx (d.cb + 8) (leBytes 8 (head + 1)) →
        (∀ code cause sub, checkRecord s1 q head d r = .error (code, cause, sub) →
          exec (.launchRecordAccept q) s = .next (queueError s1 q code cause sub head false)) ∧
        (∀ l, checkRecord s1 q head d r = .ok l → ∃ t, exec (.launchRecordAccept q) s = .next t ∧ t.mem = s1.mem ∧
          t.nextLaunch = s1.nextLaunch + 1 ∧
          ((l.levels.all fun x => x.2.1 != 0) = true → t.launch s1.nextLaunch = l ∧
            (t.queueDesc q).placing = some s1.nextLaunch) ∧
          ((l.levels.all fun x => x.2.1 != 0) = false →
            t.launch s1.nextLaunch = { l with troupes := 0, running := true }))))) ∧
  (∀ (s : State) (q i : Nat) (d : LaunchQueue) (r : List Word), (badRecord r = true → checkRecord s q i d r = .error (2, 0, 0)) ∧
    (badRecord r = false → (∀ e, readGang s d.ctx r = .error e → checkRecord s q i d r = .error e) ∧
      ∀ g, readGang s d.ctx r = .ok g →
        (∀ x, readImage s d.ctx r = .error x → checkRecord s q i d r = .error (3, x.cause, x.sub)) ∧
        ∀ bs bases, readImage s d.ctx r = .ok (bs, bases) → (badImage bs = true → checkRecord s q i d r = .error (4, 0, 0)) ∧
          (badImage bs = false → ∀ e, (Launch.ofImage s q i d r bs bases).check s = some e →
            checkRecord s q i d r = .error e))) ∧
  (∀ (s : State) (die : Nat), (dispatching s die = false ∨ (choose s die).isNone = true → exec (.dispatch die) s = .next s) ∧
    (∀ id l stage k cls core slot c credit, dispatching s die = true → choose s die = some (.dispatch c credit false) →
      c.offer = .launch id → l = s.launch id → l.together = false → l.reserved = [] → l.ended = false → l.coupled = false →
      l.queueDecls = [] → l.windowDecls = [] → l.members = 0 →
      planNext s id die = some [⟨stage, k, cls, [(core, [slot])]⟩] →
      ∃ t, exec (.dispatch die) s = .next t ∧ (t.strand s.nextUid).run = .ready ∧ (t.strand s.nextUid).pc = l.entryA ∧
        (t.strand s.nextUid).core = core ∧ (t.strand s.nextUid).slot = slot ∧ (t.strand s.nextUid).ctx = l.ctx ∧
        (t.strand s.nextUid).reg 2 = BitVec.ofNat 64 (apertureBase + l.bytes) ∧
        (t.strand s.nextUid).reg 3 = l.record.getD 1 0 ∧ (t.strand s.nextUid).allotSize = l.bytes ∧
        Tab.get 0 (t.launch id).placed stage = k + 1 ∧ (t.die die).credit = credit ∧
        (t.die die).n7 = if c.tier = 7 then 0 else if (offers s die).any (fun x => x.tier = 7) then min 63 ((s.die die).n7 + 1)
          else (s.die die).n7) ∧
    (∃ t, exec (.starvationBoundExpiry die) s = .next t ∧ t.mem = s.mem ∧ t.strands = s.strands ∧
      t.module.events.getLsbD 4 = (holdsStarved s die || s.module.events.getLsbD 4))) ∧
  (∀ (s : State) (id : Nat) (l : Launch), l = s.launch id → (completes s id = false → exec (.launchCompletion id) s = .next s) ∧
    (completes s id = true → ((l.record.getD 2 0).toNat = 0 ∨ s.time ≤ (l.record.getD 2 0).toNat) →
      (l.record.getD 5 0 = 0 → ∃ t, exec (.launchCompletion id) s = .next t ∧ (t.launch id).ended = true ∧ t.mem = s.mem) ∧
      (l.record.getD 5 0 ≠ 0 →
        (∀ s1, ctxStore s l.ctx (l.record.getD 5 0) (leBytes 8 (l.record.getD 6 0).toNat) = .ok s1 →
          ∃ t, exec (.launchCompletion id) s = .next t ∧ (t.launch id).ended = true ∧ t.mem = s1.mem) ∧
        (∀ x, ctxStore s l.ctx (l.record.getD 5 0) (leBytes 8 (l.record.getD 6 0).toNat) = .error x →
          ∃ t, exec (.launchCompletion id) s = .next t ∧ (t.launch id).ended = true ∧
            t.mem = (faultLog s l.ctx ⟨l.record.getD 5 0, 0, x.cause, x.sub, false, 0xFF, 0⟩).mem)))) ∧
  (∀ (s : State) (tag : Word) (i : Nat),
    (gangLaunches s tag = [] → ∃ t, exec (.gangAnnounceReceive tag i) s = .next t ∧ (tag, i) ∈ t.module.heard ∧ t.mem = s.mem) ∧
    (∀ id l, gangLaunches s tag = [id] → l = s.launch id → l.gangDead = false →
      (gangTimedOut s id = true ∨ i = l.self ∨ l.members ≤ i ∨ i ∈ l.announced → exec (.gangAnnounceReceive tag i) s = .next s) ∧
      (gangTimedOut s id = false → i ≠ l.self → i < l.members → i ∉ l.announced → ∃ t, exec (.gangAnnounceReceive tag i) s = .next t ∧
        (t.launch id).announced = l.announced ++ [i] ∧ t.mem = s.mem ∧
        (l.members ≤ l.announced.length + 2 → (t.launch id).timer = none) ∧
        (l.announced.length + 2 < l.members → (t.launch id).timer = l.timer)))) ∧
  (∀ (s : State) (id : Nat) (l : Launch), l = s.launch id →
    (gangTimedOut s id = false → exec (.gangTimeout id) s = .next s) ∧
    (∀ e, l.timer = some e → s.time ≤ e → exec (.gangTimeout id) s = .next s) ∧
    (l.gangDead = true ∨ gangTimedOut s id = true → exec (.launchCompletion id) s = .next s) ∧
    (gangTimedOut s id = true → ∃ t, exec (.gangTimeout id) s = .next t ∧ (t.launch id).gangDead = true ∧
      (t.launch id).timer = none ∧
      (∀ u ∈ launchStrands s id, (s.strand u).run.inPlay = true → (s.strand u).run ≠ .exited →
        (t.strand u).async20 = some l.tag) ∧
      t.module.sent = s.module.sent ++ (s.module.memberTable.filter fun m => m.tag = l.tag && m.index != l.self).map
        fun m => ⟨m.port, m.endpoint, true, l.tag, l.self⟩) ∧
    (gangLaunches s l.tag = [id] → l.gangDead = false → ∃ t, exec (.gangAbortReceive l.tag) s = .next t ∧
      (t.launch id).gangDead = true ∧ t.module.sent = s.module.sent ∧
      ∀ u ∈ launchStrands s id, (s.strand u).run.inPlay = true → (s.strand u).run ≠ .exited →
        (t.strand u).async20 = some l.tag) ∧
    (l.gangDead = false ∨ l.ended = true → exec (.naingLaunchEnd id) s = .next s) ∧
    (l.gangDead = true → l.ended = false → ∃ t, exec (.naingLaunchEnd id) s = .next t ∧ (t.launch id).ended = true ∧
      ∀ u ∈ launchStrands s id, (t.strand u).run = .done))

/-- Bring-up steps BOOTSTAT through 1, 2, 3, with device time 0 as it leaves 0, or to 4 with an event where the image
is refused. A power loss leaves empty memory, no strands, no keys. A doorbell stores its value and raises a firmware
event, once until Naing has read DBVAL; 0x51 and a quote request start a quote, which is then ready with signed fields
and counted; the host clears bits of EVSTAT. A host write puts its bytes, and no others, at the home; a read gives the
bytes and leaves memory (what its cache keeps: DESIGN CHOICE, log entry 17); an access turned away reads as all ones
(DEDUCED, log entries 56, 60). Through BAR0 the host reads the identity page, clears EVSTAT, rings the doorbell,
writes a nonce (BAR0's place and the MSI-X mask: DESIGN CHOICE, log entry 113); a bit of EVSTAT that comes to be set
sends vector 0 unless masked. A snoop of a tier-2 line takes its owner's dirty words home. A lost host link poisons
the lines owned behind it. Junction temperatures, power cap and rails lower the issue rate and raise events (how much
more is open, DESIGN CHOICE, log entry 30; load and peaks free, log entry 5); no core is stopped by the cap; above 115
degrees every core is fenced and dispatch stops. An uncorrected error poisons a line, queue slot, booth entry or
scratchpad word, or frees one cell or register (DESIGN CHOICE, log entry 31); a corrected one is counted. A fence ends
strands and marks cores and dies. A commit replaces a queue's descriptor or puts it in Error, and lets the launch go
on that it was placing (DEDUCED, log entry 41); keys are loaded, unless both halves are equal, and erased, once no
access under the slot is in flight; the cap keeps its range; a write of the replay mode clears its status; the fence
map, ports, member tables and minimum SVN take what Naing writes (by numbers of DESIGN CHOICE, log entry 58), other
registers are written as by their strand. A new context has Naing's settings within their limits. (R13, R15, R24, R25,
R26, R245, R249, R421, R422, R424, R427, R429) -/
def Obligations.ModuleEvents : Prop :=
  (∀ (s : State) (m : Module), m = s.module →
    (m.bootStat = 0 → ∃ t, exec .powerOnBringUp s = .next t ∧ t.module.bootStat = 1 ∧ t.time = 0) ∧
    (m.bootStat = 1 → ∃ t, exec .powerOnBringUp s = .next t ∧ t.module.bootStat = 2 ∧ t.clock = s.clock) ∧
    (m.bootStat = 2 → ∃ t, exec .powerOnBringUp s = .next t ∧ t.module.bootStat = (if m.boot.accepted then 3 else 4) ∧
      t.module.fwVer = (if m.boot.accepted then m.boot.version else m.fwVer) ∧
      t.module.evStat = (if m.boot.accepted then m.evStat else m.evStat ||| 4)) ∧
    (2 < m.bootStat → exec .powerOnBringUp s = .next s) ∧
    (∃ t, exec .powerLoss s = .next t ∧ t.mem = [] ∧ t.strands = [] ∧ t.contexts = [] ∧ t.module.keys = [] ∧ t.time = 0 ∧
      t.module.bootStat = 0 ∧ t.module.boot = m.boot) ∧
    (∀ v, v ≠ 0x51 → ∃ t, exec (.doorbell v) s = .next t ∧ t.module.dbVal = v ∧ t.module.dbUnread = true ∧
      (m.dbUnread = false → t.module.events.getLsbD 2 = true) ∧ (m.dbUnread = true → t.module.events = m.events) ∧
      t.module.qstat = m.qstat ∧ t.mem = s.mem) ∧
    (∃ t, exec (.doorbell 0x51) s = .next t ∧ t.module.dbVal = m.dbVal ∧ t.module.events = m.events ∧ t.module.qstat = 1) ∧
    (∀ nonce, ∃ t, exec (.quoteRequest nonce) s = .next t ∧ t.module.qstat = 1 ∧ t.module.nonce = nonce ∧ t.mem = s.mem) ∧
    (m.qstat ≠ 1 → exec .quoteReady s = .next s) ∧
    (m.qstat = 1 → ∃ t, exec .quoteReady s = .next t ∧ t.module.qstat = 2 ∧ t.module.quotes = (m.quotes + 1) % 2 ^ 32 ∧
      t.module.quote.take 112 = quoteBody s ∧ t.module.quote.length = 49968) ∧
    (∀ (k : Word) (i : Nat), ∃ t, exec (.evstatClear k) s = .next t ∧
      t.module.evStat.getLsbD i = (m.evStat.getLsbD i && !k.getLsbD i)) ∧
    (∀ tj : BitVec 8, (tj.toNat ≤ 105 → exec (.thermalThrottle tj) s = .next (s.updModule fun m => { m with tjMax := tj.toNat })) ∧
      (105 < tj.toNat → ∃ t, exec (.thermalThrottle tj) s = .next t ∧ t.module.tjMax = tj.toNat ∧
        t.module.events.getLsbD 3 = true ∧ (1 < m.throttle → 0 < t.module.throttle ∧ t.module.throttle < m.throttle)) ∧
      (tj.toNat ≤ 115 → exec (.thermalShutdown tj) s = .next (s.updModule fun m => { m with tjMax := tj.toNat })) ∧
      (115 < tj.toNat → ∃ t, exec (.thermalShutdown tj) s = .next t ∧ t.module.thermal = true ∧
        t.module.evStat.getLsbD 0 = true ∧ t.module.events.getLsbD 3 = true ∧
        ∀ c, c < 4 * coresPerDie m.blend → (t.core c).fenced = true)) ∧
    (∀ (rate : BitVec 7), ∃ t, exec (.powerCapThrottle rate) s = .next t ∧ t.mem = s.mem ∧ t.strands = s.strands ∧
      (0 < m.throttle → 0 < t.module.throttle) ∧
      (atCap s = true ∨ overRails s = true → t.module.throttle ≤ m.throttle) ∧
      (atCap s = true → t.module.capReached = true ∧ t.module.evStat.getLsbD 4 = true ∧ t.module.events.getLsbD 3 = true ∧
        t.module.throttle ≤ max 1 (64 * m.pwrCap / powerLoad s)) ∧
      (overRails s = true → t.module.throttle ≤ max 1 (64 * railLimit s / railLoad s)) ∧
      (atCap s = false → t.module.capReached = m.capReached ∧ t.module.evStat = m.evStat) ∧
      (atCap s = false → overRails s = false → t.module.throttle = if m.tjMax ≤ 105 then 64 else m.throttle)) ∧
    (∀ site, ∃ t, exec (.correctedError site) s = .next t ∧ Tab.get 0 t.module.corrected site = Tab.get 0 m.corrected site + 1 ∧
      t.mem = s.mem ∧ t.lines = s.lines) ∧
    (∀ (q : Nat) (v : Word) (w : Nat → Word), q = m.dcqSel.toNat → w = (fun i => if i = 7 then v else dcWordRead s i) →
      ∃ t, exec (.dcword7Commit v) s = .next t ∧ t.module.dcWord = [] ∧
        (LaunchQueue.ofWords w = none → t.queueDesc q = { s.queueDesc q with state := 2 }) ∧
        (∀ d, LaunchQueue.ofWords w = some d → t.queueDesc q = { d with placing := (s.queueDesc q).placing })) ∧
    (keyInFlight s m.keySel.toNat = true → exec .keyLoad s = .next (s.post .keyLoad) ∧ exec .keyErase s = .next (s.post .keyErase) ∧
      ∀ u v, v = 1 ∨ v = 2 → exec (.registerWrite u 0x921 v) s = .next (s.post (.registerWrite u 0x921 v))) ∧
    (keyInFlight s m.keySel.toNat = false →
      ((keyMaterial m).extractLsb' 0 256 = (keyMaterial m).extractLsb' 256 256 → exec .keyLoad s = .next s) ∧
      ((keyMaterial m).extractLsb' 0 256 ≠ (keyMaterial m).extractLsb' 256 256 → ∃ t, exec .keyLoad s = .next t ∧
        Tab.get none t.module.keys m.keySel.toNat = some (keyMaterial m) ∧
        (∀ k, k ≠ m.keySel.toNat → Tab.get none t.module.keys k = Tab.get none m.keys k) ∧ t.mem = s.mem) ∧
      ∃ t, exec .keyErase s = .next t ∧ Tab.get none t.module.keys m.keySel.toNat = none ∧
        (∀ k, k ≠ m.keySel.toNat → Tab.get none t.module.keys k = Tab.get none m.keys k) ∧ t.mem = s.mem) ∧
    (∀ v : Word, ∃ t, exec (.pwrcapWrite v) s = .next t ∧ 1000 ≤ t.module.pwrCap ∧ t.module.pwrCap ≤ 8000 ∧
      t.module.capSet = some s.clock ∧
      (1000 ≤ v.toNat % 2 ^ 14 → v.toNat % 2 ^ 14 ≤ 8000 → t.module.pwrCap = v.toNat % 2 ^ 14)) ∧
    (∀ v : Word, ∃ t, exec (.rplmodeWrite v) s = .next t ∧
      (t.context (m.trcSel.toNat % 4096)).trace.rplMode = v &&& 3 ∧ (t.context (m.trcSel.toNat % 4096)).trace.rplStat = 0) ∧
    (∀ (u k : Nat) (n : BitVec 12) (v : Word), n.toNat = 0xF00 + k → k < 32 → ∃ t, exec (.registerWrite u n v) s = .next t ∧
      t.strands = s.strands ∧ t.mem = s.mem ∧ (∀ b, b < 64 → Tab.get 0 t.module.fenceMap (64 * k + b) =
        if v.getLsbD b = true ∧ 64 * k + b < 4 * coresPerDie m.blend then 1 else 0) ∧
      (t.module.fenceMap ≠ m.fenceMap → t.module.evStat.getLsbD 3 = true)) ∧
    (∀ (u k : Nat) (n : BitVec 12) (v : Word), n.toNat = 0xF20 + k → k < 8 → exec (.registerWrite u n v) s = .next (s.updModule fun m =>
      { m with ports := Tab.set 0 m.ports k (if v.toNat < 4096 then v.toNat + 1 else 0) })) ∧
    (∀ (u : Nat) (v : Word), (∃ t, exec (.registerWrite u 0xF29 v) s = .next t ∧ t.mem = s.mem ∧
        t.module.boot.minSvn = max m.boot.minSvn (v.toNat % 2 ^ 32)) ∧
      ∃ t, exec (.registerWrite u 0xF28 v) s = .next t ∧ t.mem = s.mem ∧ ∀ x, x ∈ t.module.memberTable ↔
        (x ∈ m.memberTable ∧ ¬ (x.tag = BitVec.ofNat 64 u ∧ x.index = v.toNat % 65536)) ∨ (v.toNat / 65536 % 65536 ≠ 0 ∧
          x = ⟨BitVec.ofNat 64 u, v.toNat % 65536, v.toNat / 65536 % 65536, v.toNat / 2 ^ 32⟩)) ∧
    (∀ (u : Nat) (n : BitVec 12) (v : Word), n.toNat < 0xF00 → (n = 0x921 → v ≠ 1 ∧ v ≠ 2 ∨ keyInFlight s m.keySel.toNat = false) →
      (csrAccess n.toNat ≠ some true ∨ (s.strand u).run.live = false → exec (.registerWrite u n v) s = .next s) ∧
      ((s.strand u).run.live = true → n = 0x003 → ∃ t, exec (.registerWrite u n v) s = .next t ∧ (t.strand u).vst = v ∧
        (t.strand u).x = (s.strand u).x ∧ t.mem = s.mem ∧ t.cur = s.cur))) ∧
  (∀ (s : State) (pa k size : Nat) (v : Word) (n : Nat), n = min size 8 → pa < 2 ^ 52 → k < 2 →
    (s.module.bootStat ≠ 3 ∨ 1 < tierOf pa ∨ hasMemory s pa = false ∨ reachable s pa = false →
      ∀ w, exec (.hostMemoryAccess w (pa + 2 ^ 53 * k) size v) s =
        .next (s.updModule fun m => { m with hostData := BitVec.allOnes 64 })) ∧
    (s.module.bootStat = 3 → tierOf pa ≤ 1 → hasMemory s pa = true → reachable s pa = true → inLogStore pa = false →
      (s.line (pa / 128)).code = 0 → s.movedPa pa = pa → pa % 128 + n ≤ 128 → s.roomFor pa → s.writeBacks = [] →
      (s.parcel (pa / 65536)).log = [] → (s.parcel (pa / 65536)).held = [] → (s.parcel (pa / 65536)).blocked = false →
      (∀ l, s.leafOfFrame (pa / 65536) = some l → l.logEnable = false ∧ l.counterEnable = false ∧ keyEmpty s { l with pa := pa } = false ∧
        (s.line (pa / 128)).key = keyId s l.keyIndex) →
      (∃ t, exec (.hostMemoryAccess false (pa + 2 ^ 53 * k) size v) s = .next t ∧ t.mem = s.mem ∧ t.strands = s.strands ∧
        (∀ i, i < n → t.module.hostData.extractLsb' (8 * i) 8 = memByte s.mem (pa + i)) ∧
        ∀ x, (t.line x).code = (s.line x).code ∧ (t.line x).sharers = (s.line x).sharers) ∧
      ∃ t, exec (.hostMemoryAccess true (pa + 2 ^ 53 * k) size v) s = .next t ∧ ∀ x, memByte t.mem x =
        if pa ≤ x ∧ x < pa + n then BitVec.ofNat 8 (v.toNat / 256 ^ (x - pa)) else memByte s.mem x)) ∧
  (∀ (s : State) (k o i : Nat) (v : Word), k < 2 →
    (o + 8 ≤ 0x1000 → o % 8 = 0 → exec (.hostMemoryAccess false (2 ^ 52 + o + 2 ^ 53 * k) 8 v) s =
      .next (s.updModule fun m => { m with hostData := s.identity o })) ∧
    exec (.hostMemoryAccess true (2 ^ 52 + 0x20 + 2 ^ 53 * k) 8 v) s = exec (.evstatClear v) s ∧
    exec (.hostMemoryAccess true (2 ^ 52 + 0x30 + 2 ^ 53 * k) 8 v) s = exec (.doorbell v) s ∧
    (i < 4 → ∃ t, exec (.hostMemoryAccess true (2 ^ 52 + 0x1000 + 8 * i + 2 ^ 53 * k) 8 v) s = .next t ∧ t.module.qstat = s.module.qstat ∧
      ∀ j, j < 4 → t.module.nonce.extractLsb' (64 * j) 64 = if j = i then v else s.module.nonce.extractLsb' (64 * j) 64) ∧
    (∃ t, exec (.hostMemoryAccess true (2 ^ 52 + 0x1000000 + 2 ^ 53 * k) 8 v) s = .next t ∧ t.module.msixMasked = v.getLsbD 0 ∧
      (v.getLsbD 0 = false → t.module.msixPending = false ∧
        t.module.msixSent = s.module.msixSent + if s.module.msixPending = true then 1 else 0) ∧
      (v.getLsbD 0 = true → t.module.msixPending = s.module.msixPending ∧ t.module.msixSent = s.module.msixSent)) ∧
    ∀ t bit, bit < 64 → t = s.tellHost bit → t.module.evStat.getLsbD bit = true ∧
      (s.module.evStat.getLsbD bit = true → t.module.msixSent = s.module.msixSent ∧ t.module.msixPending = s.module.msixPending) ∧
      (s.module.evStat.getLsbD bit = false → s.module.msixMasked = false → t.module.msixSent = s.module.msixSent + 1) ∧
      (s.module.evStat.getLsbD bit = false → s.module.msixMasked = true → t.module.msixPending = true ∧
        t.module.msixSent = s.module.msixSent)) ∧
  (∀ (s : State) (line a : Nat), (tierOf (line * 128) ≠ 2 → exec (.hostSnoop line) s = .next s) ∧
    (tierOf (line * 128) = 2 → a < 0x4000 → s.homeQuiet line → (s.line line).code = 2 → (s.line line).sharers = [a] →
      (∀ l, ((recallAll s line).updLine line fun k =>
        { k with cached := false, dirty := false }).leafOfFrame (line / 512) = some l → l.counterEnable = false) →
      ∃ t, exec (.hostSnoop line) s = .next t ∧ (t.line line).code = 0 ∧ (t.line line).cached = false ∧
        mergedAt s.mem t.mem line (agentDirty s a line 0) (dirtyWords s a line))) ∧
  (∀ (s : State) (k line pa : Nat),
    (k < 2 → (s.line line).code = 2 → (s.line line).sharers = [sharerBit (agentHost k)] → ∃ t, exec (.hostLinkLoss k) s = .next t ∧
      (t.line line).code = 3 ∧ t.mem = s.mem) ∧
    (∀ d e, 2 ≤ k → d < 4 → (s.cmd d e).st.active = true → (s.cmd d e).stop = false →
      ((s.cmd d e).skind = 3 ∧ (s.cmd d e).sport = k ∨ (s.cmd d e).dkind = 1 ∧ (s.cmd d e).dport = k) →
      ∃ t, exec (.hostLinkLoss k) s = .next t ∧ (t.cmd d e).stop = true ∧ (t.cmd d e).sub = 11) ∧
    (∃ t, exec (.uncorrectedError 0 pa 0 0) s = .next t ∧ (t.line (pa / 128)).code = 3 ∧ (t.line (pa / 128)).sharers = []) ∧
    (∀ u q i x, (s.queue u q).slots[i]? = some x → ∃ t, exec (.uncorrectedError 1 u q i) s = .next t ∧
      (t.queue u q).slots[i]? = some { x with poison := true } ∧ t.mem = s.mem) ∧
    (∀ slice e, ∃ t, exec (.uncorrectedError 2 slice e 0) s = .next t ∧
      t.booth slice e = { s.booth slice e with poison := true } ∧ t.mem = s.mem) ∧
    (∀ u o, ((s.strand u).allotSize ≤ 4 * o → exec (.uncorrectedError 3 u o 0) s = .next s) ∧
      (4 * o < (s.strand u).allotSize → windowAt (s.strand u) (4 * o) = none → ∃ t, exec (.uncorrectedError 3 u o 0) s = .next t ∧
        Tab.get false (t.strand u).spoiled o = true ∧ t.mem = s.mem ∧ t.lines = s.lines ∧ ∀ v, v ≠ u → t.strand v = s.strand v)) ∧
    (∀ (u b i kind : Nat), kind ∈ [4, 5, 6, 7] → ∃ t, exec (.uncorrectedError kind u b i) s = .next t ∧ t.mem = s.mem ∧
      t.lines = s.lines ∧ (∀ v, v ≠ u → t.strand v = s.strand v) ∧ (t.strand u).pc = (s.strand u).pc ∧
      (kind ≠ 5 → (t.strand u).x = (s.strand u).x) ∧ (kind ≠ 6 → (t.strand u).v = (s.strand u).v) ∧
      (kind ≠ 7 → (t.strand u).p = (s.strand u).p) ∧ (kind ≠ 4 → (t.strand u).accs = (s.strand u).accs) ∧
      (∀ r, (kind = 5 → r ≠ b → (t.strand u).reg r = (s.strand u).reg r) ∧ (kind = 6 → r ≠ b → (t.strand u).vec r = (s.strand u).vec r) ∧
        (kind = 7 → r ≠ b → (t.strand u).pred r = (s.strand u).pred r))) ∧
    ∀ n a b c, 7 < n → exec (.uncorrectedError n a b c) s = .next s) ∧
  (∀ (s : State) (n : Nat),
    ((s.strand n).run.live = true → ∃ t, exec (.unitFence 0 n) s = .next t ∧ (t.strand n).run = .done) ∧
    (n < 4 * coresPerDie s.module.blend → ∃ t, exec (.unitFence 1 n) s = .next t ∧ (t.core n).fenced = true ∧
      ((s.core n).fenced = false → ∀ u ∈ s.residents n, (t.strand u).run = .done)) ∧
    (n < 16 → ∃ t, exec (.unitFence 2 n) s = .next t ∧ ∀ c ∈ coresOfSite s n, (t.core c).fenced = true) ∧
    (n < 4 → ∃ t, exec (.unitFence 3 n) s = .next t ∧ (t.die n).fenced = true) ∧
    ∀ k, 3 < k → exec (.unitFence k n) s = .next s) ∧
  (∀ (s : State) (c : ContextInit), ((s.context c.num).live = true ∨ (s.context c.num).closing.isSome = true →
      exec (.contextCreation c) s = .next s) ∧
    ((s.context c.num).live = false → (s.context c.num).closing = none → ∃ t k, exec (.contextCreation c) s = .next t ∧ k = t.context c.num ∧ k.live = true ∧
      k.lost = false ∧ k.root = c.root ∧ k.ticketKey = c.key ∧ k.policy = c.policy ∧ 16 ≤ k.threshold ∧ k.threshold ≤ 65535 ∧
      1000 ≤ k.lifetime ∧ k.lifetime ≤ 100000000 ∧ k.waitBound ≤ 200000 ∧ 1 ≤ k.creditCap ∧ k.creditCap ≤ 16 ∧
      100000 ≤ k.creditDelay ∧ k.creditDelay ≤ 100000000 ∧ k.drainBound ≤ 10000000 ∧ k.noteSeq = 0 ∧ k.faultSeq = 0))
end

