-- ==== Sys2Proof/Laws/Tab.lean ====
section
/-! SUPPORT. Sparse tables: read after write, and the canonical form. -/

namespace Sys2Proof.Machine

variable {α : Type}

@[simp] theorem Tab.get_nil (d : α) (k : Nat) : Tab.get d [] k = d := rfl

theorem Tab.get_erase_self (d : α) (t : List (Nat × α)) (k : Nat) : Tab.get d (Tab.erase t k) k = d := by
  induction t with
  | nil => rfl
  | cons p t ih =>
    simp only [Tab.erase]
    split
    · exact ih
    · simp [Tab.get, *]

theorem Tab.get_erase_ne (d : α) (t : List (Nat × α)) {k k' : Nat} (h : k' ≠ k) :
    Tab.get d (Tab.erase t k) k' = Tab.get d t k' := by
  induction t with
  | nil => rfl
  | cons p t ih =>
    simp only [Tab.erase, Tab.get]
    split
    · rename_i e; rw [ih, if_neg]; omega
    · simp only [Tab.get]; split <;> simp_all

theorem Tab.get_insert_ne (d : α) (t : List (Nat × α)) {k k' : Nat} (v : α) (h : k' ≠ k) :
    Tab.get d (Tab.insert t k v) k' = Tab.get d t k' := by
  induction t with
  | nil => simp [Tab.insert, Tab.get, h.symm]
  | cons p t ih =>
    simp only [Tab.insert]
    split
    · simp [Tab.get, h.symm]
    · simp only [Tab.get]; split <;> simp_all

theorem Tab.get_insert_self (d : α) (t : List (Nat × α)) (k : Nat) (v : α) :
    Tab.get d (Tab.insert (Tab.erase t k) k v) k = v := by
  induction t with
  | nil => simp [Tab.insert, Tab.erase, Tab.get]
  | cons p t ih =>
    simp only [Tab.erase]
    split
    · exact ih
    · rename_i e
      simp only [Tab.insert]
      split
      · simp [Tab.get]
      · simp only [Tab.get, if_neg e]; exact ih

theorem Tab.erase_erase (t : List (Nat × α)) (k : Nat) : Tab.erase (Tab.erase t k) k = Tab.erase t k := by
  induction t with
  | nil => rfl
  | cons p t ih =>
    simp only [Tab.erase]
    split
    · exact ih
    · simp [Tab.erase, *]

theorem Tab.erase_insert (t : List (Nat × α)) (k : Nat) (v : α) :
    Tab.erase (Tab.insert (Tab.erase t k) k v) k = Tab.erase t k := by
  induction t with
  | nil => simp [Tab.insert, Tab.erase]
  | cons p t ih =>
    simp only [Tab.erase]
    split
    · exact ih
    · rename_i e
      simp only [Tab.insert]
      split
      · simp [Tab.erase, e, Tab.erase_erase]
      · simp only [Tab.erase, if_neg e, ih]

/-- The last write of a key counts. -/
theorem Tab.set_set [DecidableEq α] (d : α) (t : List (Nat × α)) (k : Nat) (v w : α) :
    Tab.set d (Tab.set d t k v) k w = Tab.set d t k w := by
  have h : Tab.erase (Tab.set d t k v) k = Tab.erase t k := by
    unfold Tab.set
    split
    · exact Tab.erase_erase t k
    · exact Tab.erase_insert t k v
  unfold Tab.set at h ⊢
  rw [h]

/-- Read after write. -/
theorem Tab.get_set [DecidableEq α] (d : α) (t : List (Nat × α)) (k k' : Nat) (v : α) :
    Tab.get d (Tab.set d t k v) k' = if k' = k then v else Tab.get d t k' := by
  unfold Tab.set
  by_cases hk : k' = k
  · subst hk
    rw [if_pos rfl]
    by_cases hv : v = d
    · rw [if_pos hv, hv]; exact Tab.get_erase_self ..
    · rw [if_neg hv]; exact Tab.get_insert_self ..
  · rw [if_neg hk]
    by_cases hv : v = d
    · rw [if_pos hv]; exact Tab.get_erase_ne d t hk
    · rw [if_neg hv, Tab.get_insert_ne d _ v hk]; exact Tab.get_erase_ne d t hk

@[simp] theorem Tab.get_set_self [DecidableEq α] (d : α) (t : List (Nat × α)) (k : Nat) (v : α) :
    Tab.get d (Tab.set d t k v) k = v := by simp [Tab.get_set]

theorem Tab.get_set_ne [DecidableEq α] (d : α) (t : List (Nat × α)) {k k' : Nat} (v : α) (h : k' ≠ k) :
    Tab.get d (Tab.set d t k v) k' = Tab.get d t k' := by simp [Tab.get_set, h]

theorem Tab.above_erase (b : Nat) (t : List (Nat × α)) (k : Nat) (h : Tab.above b t = true) :
    Tab.above b (Tab.erase t k) = true := by
  induction t with
  | nil => rfl
  | cons p t ih =>
    simp only [Tab.above, Bool.and_eq_true] at h
    simp only [Tab.erase]
    split
    · exact ih h.2
    · simp only [Tab.above, Bool.and_eq_true]; exact ⟨h.1, ih h.2⟩

theorem Tab.above_insert (b : Nat) (t : List (Nat × α)) (k : Nat) (v : α) (h : Tab.above b t = true) (hb : b < k) :
    Tab.above b (Tab.insert t k v) = true := by
  induction t with
  | nil => simp [Tab.insert, Tab.above, hb]
  | cons p t ih =>
    simp only [Tab.above, Bool.and_eq_true] at h
    simp only [Tab.insert]
    split
    · simp only [Tab.above, Bool.and_eq_true]; exact ⟨by simpa using hb, h⟩
    · simp only [Tab.above, Bool.and_eq_true]; exact ⟨h.1, ih h.2⟩

theorem Tab.above_mono {b b' : Nat} (t : List (Nat × α)) (h : Tab.above b t = true) (hb : b' ≤ b) :
    Tab.above b' t = true := by
  induction t with
  | nil => rfl
  | cons p t ih =>
    simp only [Tab.above, Bool.and_eq_true, decide_eq_true_eq] at h ⊢
    exact ⟨by omega, ih h.2⟩

theorem Tab.wf_erase [DecidableEq α] (d : α) (t : List (Nat × α)) (k : Nat) (h : Tab.wf d t = true) :
    Tab.wf d (Tab.erase t k) = true := by
  induction t with
  | nil => rfl
  | cons p t ih =>
    simp only [Tab.wf, Bool.and_eq_true] at h
    simp only [Tab.erase]
    split
    · exact ih h.2
    · simp only [Tab.wf, Bool.and_eq_true]; exact ⟨⟨h.1.1, Tab.above_erase _ _ _ h.1.2⟩, ih h.2⟩

theorem Tab.wf_insert [DecidableEq α] (d : α) (t : List (Nat × α)) (k : Nat) (v : α) (h : Tab.wf d t = true)
    (hv : v ≠ d) (hk : k ∉ Tab.keys t) : Tab.wf d (Tab.insert t k v) = true := by
  induction t with
  | nil => simp [Tab.insert, Tab.wf, Tab.above, hv]
  | cons p t ih =>
    simp only [Tab.wf, Bool.and_eq_true] at h
    simp only [Tab.keys, List.map_cons, List.mem_cons, not_or] at hk
    simp only [Tab.insert]
    split
    · rename_i e
      simp only [Tab.wf, Tab.above, Bool.and_eq_true, decide_eq_true_eq]
      exact ⟨⟨hv, e, Tab.above_mono t h.1.2 (by omega)⟩, ⟨by simpa using h.1.1, h.1.2⟩, h.2⟩
    · simp only [Tab.wf, Bool.and_eq_true]
      exact ⟨⟨h.1.1, Tab.above_insert _ _ _ _ h.1.2 (by omega)⟩, ih h.2 hk.2⟩

theorem Tab.keys_erase (t : List (Nat × α)) (k : Nat) : k ∉ Tab.keys (Tab.erase t k) := by
  induction t with
  | nil => simp [Tab.erase, Tab.keys]
  | cons p t ih =>
    simp only [Tab.erase]
    split
    · exact ih
    · rename_i e
      simp only [Tab.keys, List.map_cons, List.mem_cons, not_or]
      exact ⟨fun x => e x.symm, ih⟩

/-- A write keeps the canonical form. -/
theorem Tab.wf_set [DecidableEq α] (d : α) (t : List (Nat × α)) (k : Nat) (v : α) (h : Tab.wf d t = true) :
    Tab.wf d (Tab.set d t k v) = true := by
  unfold Tab.set
  split
  · exact Tab.wf_erase d t k h
  · exact Tab.wf_insert d _ k v (Tab.wf_erase d t k h) ‹_› (Tab.keys_erase t k)

end Sys2Proof.Machine
end

