-- ==== Sys2Proof/Laws/State.lean ====
section
/-! SUPPORT. One lemma per field of State and update, and read after write for the tables. -/

namespace Sys2Proof.Machine

@[simp] theorem State.setStrand_clock (s : State) (u : Nat) (t : Strand) : (s.setStrand u t).clock = s.clock := rfl
@[simp] theorem State.setStrand_tick (s : State) (u : Nat) (t : Strand) : (s.setStrand u t).tick = s.tick := rfl
@[simp] theorem State.setStrand_cur (s : State) (u : Nat) (t : Strand) : (s.setStrand u t).cur = s.cur := rfl
@[simp] theorem State.setStrand_nextUid (s : State) (u : Nat) (t : Strand) : (s.setStrand u t).nextUid = s.nextUid := rfl
@[simp] theorem State.setStrand_strands (s : State) (u : Nat) (t : Strand) : (s.setStrand u t).strands = Tab.set Strand.blank s.strands u t := rfl
@[simp] theorem State.setStrand_cores (s : State) (u : Nat) (t : Strand) : (s.setStrand u t).cores = s.cores := rfl
@[simp] theorem State.setStrand_dies (s : State) (u : Nat) (t : Strand) : (s.setStrand u t).dies = s.dies := rfl
@[simp] theorem State.setStrand_contexts (s : State) (u : Nat) (t : Strand) : (s.setStrand u t).contexts = s.contexts := rfl
@[simp] theorem State.setStrand_mem (s : State) (u : Nat) (t : Strand) : (s.setStrand u t).mem = s.mem := rfl
@[simp] theorem State.setStrand_lines (s : State) (u : Nat) (t : Strand) : (s.setStrand u t).lines = s.lines := rfl
@[simp] theorem State.setStrand_parcels (s : State) (u : Nat) (t : Strand) : (s.setStrand u t).parcels = s.parcels := rfl
@[simp] theorem State.setStrand_writeBacks (s : State) (u : Nat) (t : Strand) : (s.setStrand u t).writeBacks = s.writeBacks := rfl
@[simp] theorem State.setStrand_agentSeq (s : State) (u : Nat) (t : Strand) : (s.setStrand u t).agentSeq = s.agentSeq := rfl
@[simp] theorem State.setStrand_hostCopies (s : State) (u : Nat) (t : Strand) : (s.setStrand u t).hostCopies = s.hostCopies := rfl
@[simp] theorem State.setStrand_saved (s : State) (u : Nat) (t : Strand) : (s.setStrand u t).saved = s.saved := rfl
@[simp] theorem State.setStrand_preempts (s : State) (u : Nat) (t : Strand) : (s.setStrand u t).preempts = s.preempts := rfl
@[simp] theorem State.setStrand_moves (s : State) (u : Nat) (t : Strand) : (s.setStrand u t).moves = s.moves := rfl
@[simp] theorem State.setStrand_stageQueues (s : State) (u : Nat) (t : Strand) : (s.setStrand u t).stageQueues = s.stageQueues := rfl
@[simp] theorem State.setStrand_queues (s : State) (u : Nat) (t : Strand) : (s.setStrand u t).queues = s.queues := rfl
@[simp] theorem State.setStrand_launches (s : State) (u : Nat) (t : Strand) : (s.setStrand u t).launches = s.launches := rfl
@[simp] theorem State.setStrand_nextLaunch (s : State) (u : Nat) (t : Strand) : (s.setStrand u t).nextLaunch = s.nextLaunch := rfl
@[simp] theorem State.setStrand_module (s : State) (u : Nat) (t : Strand) : (s.setStrand u t).module = s.module := rfl
@[simp] theorem State.setStrand_agenda (s : State) (u : Nat) (t : Strand) : (s.setStrand u t).agenda = s.agenda := rfl

@[simp] theorem State.updStrand_clock (s : State) (u : Nat) (f : Strand → Strand) : (s.updStrand u f).clock = s.clock := rfl
@[simp] theorem State.updStrand_tick (s : State) (u : Nat) (f : Strand → Strand) : (s.updStrand u f).tick = s.tick := rfl
@[simp] theorem State.updStrand_cur (s : State) (u : Nat) (f : Strand → Strand) : (s.updStrand u f).cur = s.cur := rfl
@[simp] theorem State.updStrand_nextUid (s : State) (u : Nat) (f : Strand → Strand) : (s.updStrand u f).nextUid = s.nextUid := rfl
@[simp] theorem State.updStrand_strands (s : State) (u : Nat) (f : Strand → Strand) : (s.updStrand u f).strands = Tab.set Strand.blank s.strands u (f (s.strand u)) := rfl
@[simp] theorem State.updStrand_cores (s : State) (u : Nat) (f : Strand → Strand) : (s.updStrand u f).cores = s.cores := rfl
@[simp] theorem State.updStrand_dies (s : State) (u : Nat) (f : Strand → Strand) : (s.updStrand u f).dies = s.dies := rfl
@[simp] theorem State.updStrand_contexts (s : State) (u : Nat) (f : Strand → Strand) : (s.updStrand u f).contexts = s.contexts := rfl
@[simp] theorem State.updStrand_mem (s : State) (u : Nat) (f : Strand → Strand) : (s.updStrand u f).mem = s.mem := rfl
@[simp] theorem State.updStrand_lines (s : State) (u : Nat) (f : Strand → Strand) : (s.updStrand u f).lines = s.lines := rfl
@[simp] theorem State.updStrand_parcels (s : State) (u : Nat) (f : Strand → Strand) : (s.updStrand u f).parcels = s.parcels := rfl
@[simp] theorem State.updStrand_writeBacks (s : State) (u : Nat) (f : Strand → Strand) : (s.updStrand u f).writeBacks = s.writeBacks := rfl
@[simp] theorem State.updStrand_agentSeq (s : State) (u : Nat) (f : Strand → Strand) : (s.updStrand u f).agentSeq = s.agentSeq := rfl
@[simp] theorem State.updStrand_hostCopies (s : State) (u : Nat) (f : Strand → Strand) : (s.updStrand u f).hostCopies = s.hostCopies := rfl
@[simp] theorem State.updStrand_saved (s : State) (u : Nat) (f : Strand → Strand) : (s.updStrand u f).saved = s.saved := rfl
@[simp] theorem State.updStrand_preempts (s : State) (u : Nat) (f : Strand → Strand) : (s.updStrand u f).preempts = s.preempts := rfl
@[simp] theorem State.updStrand_moves (s : State) (u : Nat) (f : Strand → Strand) : (s.updStrand u f).moves = s.moves := rfl
@[simp] theorem State.updStrand_stageQueues (s : State) (u : Nat) (f : Strand → Strand) : (s.updStrand u f).stageQueues = s.stageQueues := rfl
@[simp] theorem State.updStrand_queues (s : State) (u : Nat) (f : Strand → Strand) : (s.updStrand u f).queues = s.queues := rfl
@[simp] theorem State.updStrand_launches (s : State) (u : Nat) (f : Strand → Strand) : (s.updStrand u f).launches = s.launches := rfl
@[simp] theorem State.updStrand_nextLaunch (s : State) (u : Nat) (f : Strand → Strand) : (s.updStrand u f).nextLaunch = s.nextLaunch := rfl
@[simp] theorem State.updStrand_module (s : State) (u : Nat) (f : Strand → Strand) : (s.updStrand u f).module = s.module := rfl
@[simp] theorem State.updStrand_agenda (s : State) (u : Nat) (f : Strand → Strand) : (s.updStrand u f).agenda = s.agenda := rfl

@[simp] theorem State.updMe_clock (s : State) (f : Strand → Strand) : (s.updMe f).clock = s.clock := rfl
@[simp] theorem State.updMe_tick (s : State) (f : Strand → Strand) : (s.updMe f).tick = s.tick := rfl
@[simp] theorem State.updMe_cur (s : State) (f : Strand → Strand) : (s.updMe f).cur = s.cur := rfl
@[simp] theorem State.updMe_nextUid (s : State) (f : Strand → Strand) : (s.updMe f).nextUid = s.nextUid := rfl
@[simp] theorem State.updMe_strands (s : State) (f : Strand → Strand) : (s.updMe f).strands = Tab.set Strand.blank s.strands s.cur (f s.me) := rfl
@[simp] theorem State.updMe_cores (s : State) (f : Strand → Strand) : (s.updMe f).cores = s.cores := rfl
@[simp] theorem State.updMe_dies (s : State) (f : Strand → Strand) : (s.updMe f).dies = s.dies := rfl
@[simp] theorem State.updMe_contexts (s : State) (f : Strand → Strand) : (s.updMe f).contexts = s.contexts := rfl
@[simp] theorem State.updMe_mem (s : State) (f : Strand → Strand) : (s.updMe f).mem = s.mem := rfl
@[simp] theorem State.updMe_lines (s : State) (f : Strand → Strand) : (s.updMe f).lines = s.lines := rfl
@[simp] theorem State.updMe_parcels (s : State) (f : Strand → Strand) : (s.updMe f).parcels = s.parcels := rfl
@[simp] theorem State.updMe_writeBacks (s : State) (f : Strand → Strand) : (s.updMe f).writeBacks = s.writeBacks := rfl
@[simp] theorem State.updMe_agentSeq (s : State) (f : Strand → Strand) : (s.updMe f).agentSeq = s.agentSeq := rfl
@[simp] theorem State.updMe_hostCopies (s : State) (f : Strand → Strand) : (s.updMe f).hostCopies = s.hostCopies := rfl
@[simp] theorem State.updMe_saved (s : State) (f : Strand → Strand) : (s.updMe f).saved = s.saved := rfl
@[simp] theorem State.updMe_preempts (s : State) (f : Strand → Strand) : (s.updMe f).preempts = s.preempts := rfl
@[simp] theorem State.updMe_moves (s : State) (f : Strand → Strand) : (s.updMe f).moves = s.moves := rfl
@[simp] theorem State.updMe_stageQueues (s : State) (f : Strand → Strand) : (s.updMe f).stageQueues = s.stageQueues := rfl
@[simp] theorem State.updMe_queues (s : State) (f : Strand → Strand) : (s.updMe f).queues = s.queues := rfl
@[simp] theorem State.updMe_launches (s : State) (f : Strand → Strand) : (s.updMe f).launches = s.launches := rfl
@[simp] theorem State.updMe_nextLaunch (s : State) (f : Strand → Strand) : (s.updMe f).nextLaunch = s.nextLaunch := rfl
@[simp] theorem State.updMe_module (s : State) (f : Strand → Strand) : (s.updMe f).module = s.module := rfl
@[simp] theorem State.updMe_agenda (s : State) (f : Strand → Strand) : (s.updMe f).agenda = s.agenda := rfl

@[simp] theorem State.updCore_clock (s : State) (c : Nat) (f : Core → Core) : (s.updCore c f).clock = s.clock := rfl
@[simp] theorem State.updCore_tick (s : State) (c : Nat) (f : Core → Core) : (s.updCore c f).tick = s.tick := rfl
@[simp] theorem State.updCore_cur (s : State) (c : Nat) (f : Core → Core) : (s.updCore c f).cur = s.cur := rfl
@[simp] theorem State.updCore_nextUid (s : State) (c : Nat) (f : Core → Core) : (s.updCore c f).nextUid = s.nextUid := rfl
@[simp] theorem State.updCore_strands (s : State) (c : Nat) (f : Core → Core) : (s.updCore c f).strands = s.strands := rfl
@[simp] theorem State.updCore_cores (s : State) (c : Nat) (f : Core → Core) : (s.updCore c f).cores = Tab.set Core.blank s.cores c (f (s.core c)) := rfl
@[simp] theorem State.updCore_dies (s : State) (c : Nat) (f : Core → Core) : (s.updCore c f).dies = s.dies := rfl
@[simp] theorem State.updCore_contexts (s : State) (c : Nat) (f : Core → Core) : (s.updCore c f).contexts = s.contexts := rfl
@[simp] theorem State.updCore_mem (s : State) (c : Nat) (f : Core → Core) : (s.updCore c f).mem = s.mem := rfl
@[simp] theorem State.updCore_lines (s : State) (c : Nat) (f : Core → Core) : (s.updCore c f).lines = s.lines := rfl
@[simp] theorem State.updCore_parcels (s : State) (c : Nat) (f : Core → Core) : (s.updCore c f).parcels = s.parcels := rfl
@[simp] theorem State.updCore_writeBacks (s : State) (c : Nat) (f : Core → Core) : (s.updCore c f).writeBacks = s.writeBacks := rfl
@[simp] theorem State.updCore_agentSeq (s : State) (c : Nat) (f : Core → Core) : (s.updCore c f).agentSeq = s.agentSeq := rfl
@[simp] theorem State.updCore_hostCopies (s : State) (c : Nat) (f : Core → Core) : (s.updCore c f).hostCopies = s.hostCopies := rfl
@[simp] theorem State.updCore_saved (s : State) (c : Nat) (f : Core → Core) : (s.updCore c f).saved = s.saved := rfl
@[simp] theorem State.updCore_preempts (s : State) (c : Nat) (f : Core → Core) : (s.updCore c f).preempts = s.preempts := rfl
@[simp] theorem State.updCore_moves (s : State) (c : Nat) (f : Core → Core) : (s.updCore c f).moves = s.moves := rfl
@[simp] theorem State.updCore_stageQueues (s : State) (c : Nat) (f : Core → Core) : (s.updCore c f).stageQueues = s.stageQueues := rfl
@[simp] theorem State.updCore_queues (s : State) (c : Nat) (f : Core → Core) : (s.updCore c f).queues = s.queues := rfl
@[simp] theorem State.updCore_launches (s : State) (c : Nat) (f : Core → Core) : (s.updCore c f).launches = s.launches := rfl
@[simp] theorem State.updCore_nextLaunch (s : State) (c : Nat) (f : Core → Core) : (s.updCore c f).nextLaunch = s.nextLaunch := rfl
@[simp] theorem State.updCore_module (s : State) (c : Nat) (f : Core → Core) : (s.updCore c f).module = s.module := rfl
@[simp] theorem State.updCore_agenda (s : State) (c : Nat) (f : Core → Core) : (s.updCore c f).agenda = s.agenda := rfl

@[simp] theorem State.updDie_clock (s : State) (d : Nat) (f : Die → Die) : (s.updDie d f).clock = s.clock := rfl
@[simp] theorem State.updDie_tick (s : State) (d : Nat) (f : Die → Die) : (s.updDie d f).tick = s.tick := rfl
@[simp] theorem State.updDie_cur (s : State) (d : Nat) (f : Die → Die) : (s.updDie d f).cur = s.cur := rfl
@[simp] theorem State.updDie_nextUid (s : State) (d : Nat) (f : Die → Die) : (s.updDie d f).nextUid = s.nextUid := rfl
@[simp] theorem State.updDie_strands (s : State) (d : Nat) (f : Die → Die) : (s.updDie d f).strands = s.strands := rfl
@[simp] theorem State.updDie_cores (s : State) (d : Nat) (f : Die → Die) : (s.updDie d f).cores = s.cores := rfl
@[simp] theorem State.updDie_dies (s : State) (d : Nat) (f : Die → Die) : (s.updDie d f).dies = Tab.set Die.blank s.dies d (f (s.die d)) := rfl
@[simp] theorem State.updDie_contexts (s : State) (d : Nat) (f : Die → Die) : (s.updDie d f).contexts = s.contexts := rfl
@[simp] theorem State.updDie_mem (s : State) (d : Nat) (f : Die → Die) : (s.updDie d f).mem = s.mem := rfl
@[simp] theorem State.updDie_lines (s : State) (d : Nat) (f : Die → Die) : (s.updDie d f).lines = s.lines := rfl
@[simp] theorem State.updDie_parcels (s : State) (d : Nat) (f : Die → Die) : (s.updDie d f).parcels = s.parcels := rfl
@[simp] theorem State.updDie_writeBacks (s : State) (d : Nat) (f : Die → Die) : (s.updDie d f).writeBacks = s.writeBacks := rfl
@[simp] theorem State.updDie_agentSeq (s : State) (d : Nat) (f : Die → Die) : (s.updDie d f).agentSeq = s.agentSeq := rfl
@[simp] theorem State.updDie_hostCopies (s : State) (d : Nat) (f : Die → Die) : (s.updDie d f).hostCopies = s.hostCopies := rfl
@[simp] theorem State.updDie_saved (s : State) (d : Nat) (f : Die → Die) : (s.updDie d f).saved = s.saved := rfl
@[simp] theorem State.updDie_preempts (s : State) (d : Nat) (f : Die → Die) : (s.updDie d f).preempts = s.preempts := rfl
@[simp] theorem State.updDie_moves (s : State) (d : Nat) (f : Die → Die) : (s.updDie d f).moves = s.moves := rfl
@[simp] theorem State.updDie_stageQueues (s : State) (d : Nat) (f : Die → Die) : (s.updDie d f).stageQueues = s.stageQueues := rfl
@[simp] theorem State.updDie_queues (s : State) (d : Nat) (f : Die → Die) : (s.updDie d f).queues = s.queues := rfl
@[simp] theorem State.updDie_launches (s : State) (d : Nat) (f : Die → Die) : (s.updDie d f).launches = s.launches := rfl
@[simp] theorem State.updDie_nextLaunch (s : State) (d : Nat) (f : Die → Die) : (s.updDie d f).nextLaunch = s.nextLaunch := rfl
@[simp] theorem State.updDie_module (s : State) (d : Nat) (f : Die → Die) : (s.updDie d f).module = s.module := rfl
@[simp] theorem State.updDie_agenda (s : State) (d : Nat) (f : Die → Die) : (s.updDie d f).agenda = s.agenda := rfl

@[simp] theorem State.updContext_clock (s : State) (c : Nat) (f : Context → Context) : (s.updContext c f).clock = s.clock := rfl
@[simp] theorem State.updContext_tick (s : State) (c : Nat) (f : Context → Context) : (s.updContext c f).tick = s.tick := rfl
@[simp] theorem State.updContext_cur (s : State) (c : Nat) (f : Context → Context) : (s.updContext c f).cur = s.cur := rfl
@[simp] theorem State.updContext_nextUid (s : State) (c : Nat) (f : Context → Context) : (s.updContext c f).nextUid = s.nextUid := rfl
@[simp] theorem State.updContext_strands (s : State) (c : Nat) (f : Context → Context) : (s.updContext c f).strands = s.strands := rfl
@[simp] theorem State.updContext_cores (s : State) (c : Nat) (f : Context → Context) : (s.updContext c f).cores = s.cores := rfl
@[simp] theorem State.updContext_dies (s : State) (c : Nat) (f : Context → Context) : (s.updContext c f).dies = s.dies := rfl
@[simp] theorem State.updContext_contexts (s : State) (c : Nat) (f : Context → Context) : (s.updContext c f).contexts = Tab.set Context.blank s.contexts c (f (s.context c)) := rfl
@[simp] theorem State.updContext_mem (s : State) (c : Nat) (f : Context → Context) : (s.updContext c f).mem = s.mem := rfl
@[simp] theorem State.updContext_lines (s : State) (c : Nat) (f : Context → Context) : (s.updContext c f).lines = s.lines := rfl
@[simp] theorem State.updContext_parcels (s : State) (c : Nat) (f : Context → Context) : (s.updContext c f).parcels = s.parcels := rfl
@[simp] theorem State.updContext_writeBacks (s : State) (c : Nat) (f : Context → Context) : (s.updContext c f).writeBacks = s.writeBacks := rfl
@[simp] theorem State.updContext_agentSeq (s : State) (c : Nat) (f : Context → Context) : (s.updContext c f).agentSeq = s.agentSeq := rfl
@[simp] theorem State.updContext_hostCopies (s : State) (c : Nat) (f : Context → Context) : (s.updContext c f).hostCopies = s.hostCopies := rfl
@[simp] theorem State.updContext_saved (s : State) (c : Nat) (f : Context → Context) : (s.updContext c f).saved = s.saved := rfl
@[simp] theorem State.updContext_preempts (s : State) (c : Nat) (f : Context → Context) : (s.updContext c f).preempts = s.preempts := rfl
@[simp] theorem State.updContext_moves (s : State) (c : Nat) (f : Context → Context) : (s.updContext c f).moves = s.moves := rfl
@[simp] theorem State.updContext_stageQueues (s : State) (c : Nat) (f : Context → Context) : (s.updContext c f).stageQueues = s.stageQueues := rfl
@[simp] theorem State.updContext_queues (s : State) (c : Nat) (f : Context → Context) : (s.updContext c f).queues = s.queues := rfl
@[simp] theorem State.updContext_launches (s : State) (c : Nat) (f : Context → Context) : (s.updContext c f).launches = s.launches := rfl
@[simp] theorem State.updContext_nextLaunch (s : State) (c : Nat) (f : Context → Context) : (s.updContext c f).nextLaunch = s.nextLaunch := rfl
@[simp] theorem State.updContext_module (s : State) (c : Nat) (f : Context → Context) : (s.updContext c f).module = s.module := rfl
@[simp] theorem State.updContext_agenda (s : State) (c : Nat) (f : Context → Context) : (s.updContext c f).agenda = s.agenda := rfl

@[simp] theorem State.updLine_clock (s : State) (l : Nat) (f : Line → Line) : (s.updLine l f).clock = s.clock := rfl
@[simp] theorem State.updLine_tick (s : State) (l : Nat) (f : Line → Line) : (s.updLine l f).tick = s.tick := rfl
@[simp] theorem State.updLine_cur (s : State) (l : Nat) (f : Line → Line) : (s.updLine l f).cur = s.cur := rfl
@[simp] theorem State.updLine_nextUid (s : State) (l : Nat) (f : Line → Line) : (s.updLine l f).nextUid = s.nextUid := rfl
@[simp] theorem State.updLine_strands (s : State) (l : Nat) (f : Line → Line) : (s.updLine l f).strands = s.strands := rfl
@[simp] theorem State.updLine_cores (s : State) (l : Nat) (f : Line → Line) : (s.updLine l f).cores = s.cores := rfl
@[simp] theorem State.updLine_dies (s : State) (l : Nat) (f : Line → Line) : (s.updLine l f).dies = s.dies := rfl
@[simp] theorem State.updLine_contexts (s : State) (l : Nat) (f : Line → Line) : (s.updLine l f).contexts = s.contexts := rfl
@[simp] theorem State.updLine_mem (s : State) (l : Nat) (f : Line → Line) : (s.updLine l f).mem = s.mem := rfl
@[simp] theorem State.updLine_lines (s : State) (l : Nat) (f : Line → Line) : (s.updLine l f).lines = Tab.set Line.blank s.lines l (f (s.line l)) := rfl
@[simp] theorem State.updLine_parcels (s : State) (l : Nat) (f : Line → Line) : (s.updLine l f).parcels = s.parcels := rfl
@[simp] theorem State.updLine_writeBacks (s : State) (l : Nat) (f : Line → Line) : (s.updLine l f).writeBacks = s.writeBacks := rfl
@[simp] theorem State.updLine_agentSeq (s : State) (l : Nat) (f : Line → Line) : (s.updLine l f).agentSeq = s.agentSeq := rfl
@[simp] theorem State.updLine_hostCopies (s : State) (l : Nat) (f : Line → Line) : (s.updLine l f).hostCopies = s.hostCopies := rfl
@[simp] theorem State.updLine_saved (s : State) (l : Nat) (f : Line → Line) : (s.updLine l f).saved = s.saved := rfl
@[simp] theorem State.updLine_preempts (s : State) (l : Nat) (f : Line → Line) : (s.updLine l f).preempts = s.preempts := rfl
@[simp] theorem State.updLine_moves (s : State) (l : Nat) (f : Line → Line) : (s.updLine l f).moves = s.moves := rfl
@[simp] theorem State.updLine_stageQueues (s : State) (l : Nat) (f : Line → Line) : (s.updLine l f).stageQueues = s.stageQueues := rfl
@[simp] theorem State.updLine_queues (s : State) (l : Nat) (f : Line → Line) : (s.updLine l f).queues = s.queues := rfl
@[simp] theorem State.updLine_launches (s : State) (l : Nat) (f : Line → Line) : (s.updLine l f).launches = s.launches := rfl
@[simp] theorem State.updLine_nextLaunch (s : State) (l : Nat) (f : Line → Line) : (s.updLine l f).nextLaunch = s.nextLaunch := rfl
@[simp] theorem State.updLine_module (s : State) (l : Nat) (f : Line → Line) : (s.updLine l f).module = s.module := rfl
@[simp] theorem State.updLine_agenda (s : State) (l : Nat) (f : Line → Line) : (s.updLine l f).agenda = s.agenda := rfl

@[simp] theorem State.updParcel_clock (s : State) (p : Nat) (f : Parcel → Parcel) : (s.updParcel p f).clock = s.clock := rfl
@[simp] theorem State.updParcel_tick (s : State) (p : Nat) (f : Parcel → Parcel) : (s.updParcel p f).tick = s.tick := rfl
@[simp] theorem State.updParcel_cur (s : State) (p : Nat) (f : Parcel → Parcel) : (s.updParcel p f).cur = s.cur := rfl
@[simp] theorem State.updParcel_nextUid (s : State) (p : Nat) (f : Parcel → Parcel) : (s.updParcel p f).nextUid = s.nextUid := rfl
@[simp] theorem State.updParcel_strands (s : State) (p : Nat) (f : Parcel → Parcel) : (s.updParcel p f).strands = s.strands := rfl
@[simp] theorem State.updParcel_cores (s : State) (p : Nat) (f : Parcel → Parcel) : (s.updParcel p f).cores = s.cores := rfl
@[simp] theorem State.updParcel_dies (s : State) (p : Nat) (f : Parcel → Parcel) : (s.updParcel p f).dies = s.dies := rfl
@[simp] theorem State.updParcel_contexts (s : State) (p : Nat) (f : Parcel → Parcel) : (s.updParcel p f).contexts = s.contexts := rfl
@[simp] theorem State.updParcel_mem (s : State) (p : Nat) (f : Parcel → Parcel) : (s.updParcel p f).mem = s.mem := rfl
@[simp] theorem State.updParcel_lines (s : State) (p : Nat) (f : Parcel → Parcel) : (s.updParcel p f).lines = s.lines := rfl
@[simp] theorem State.updParcel_parcels (s : State) (p : Nat) (f : Parcel → Parcel) : (s.updParcel p f).parcels = Tab.set Parcel.blank s.parcels p (f (s.parcel p)) := rfl
@[simp] theorem State.updParcel_writeBacks (s : State) (p : Nat) (f : Parcel → Parcel) : (s.updParcel p f).writeBacks = s.writeBacks := rfl
@[simp] theorem State.updParcel_agentSeq (s : State) (p : Nat) (f : Parcel → Parcel) : (s.updParcel p f).agentSeq = s.agentSeq := rfl
@[simp] theorem State.updParcel_hostCopies (s : State) (p : Nat) (f : Parcel → Parcel) : (s.updParcel p f).hostCopies = s.hostCopies := rfl
@[simp] theorem State.updParcel_saved (s : State) (p : Nat) (f : Parcel → Parcel) : (s.updParcel p f).saved = s.saved := rfl
@[simp] theorem State.updParcel_preempts (s : State) (p : Nat) (f : Parcel → Parcel) : (s.updParcel p f).preempts = s.preempts := rfl
@[simp] theorem State.updParcel_moves (s : State) (p : Nat) (f : Parcel → Parcel) : (s.updParcel p f).moves = s.moves := rfl
@[simp] theorem State.updParcel_stageQueues (s : State) (p : Nat) (f : Parcel → Parcel) : (s.updParcel p f).stageQueues = s.stageQueues := rfl
@[simp] theorem State.updParcel_queues (s : State) (p : Nat) (f : Parcel → Parcel) : (s.updParcel p f).queues = s.queues := rfl
@[simp] theorem State.updParcel_launches (s : State) (p : Nat) (f : Parcel → Parcel) : (s.updParcel p f).launches = s.launches := rfl
@[simp] theorem State.updParcel_nextLaunch (s : State) (p : Nat) (f : Parcel → Parcel) : (s.updParcel p f).nextLaunch = s.nextLaunch := rfl
@[simp] theorem State.updParcel_module (s : State) (p : Nat) (f : Parcel → Parcel) : (s.updParcel p f).module = s.module := rfl
@[simp] theorem State.updParcel_agenda (s : State) (p : Nat) (f : Parcel → Parcel) : (s.updParcel p f).agenda = s.agenda := rfl

@[simp] theorem State.updModule_clock (s : State) (f : Module → Module) : (s.updModule f).clock = s.clock := rfl
@[simp] theorem State.updModule_tick (s : State) (f : Module → Module) : (s.updModule f).tick = s.tick := rfl
@[simp] theorem State.updModule_cur (s : State) (f : Module → Module) : (s.updModule f).cur = s.cur := rfl
@[simp] theorem State.updModule_nextUid (s : State) (f : Module → Module) : (s.updModule f).nextUid = s.nextUid := rfl
@[simp] theorem State.updModule_strands (s : State) (f : Module → Module) : (s.updModule f).strands = s.strands := rfl
@[simp] theorem State.updModule_cores (s : State) (f : Module → Module) : (s.updModule f).cores = s.cores := rfl
@[simp] theorem State.updModule_dies (s : State) (f : Module → Module) : (s.updModule f).dies = s.dies := rfl
@[simp] theorem State.updModule_contexts (s : State) (f : Module → Module) : (s.updModule f).contexts = s.contexts := rfl
@[simp] theorem State.updModule_mem (s : State) (f : Module → Module) : (s.updModule f).mem = s.mem := rfl
@[simp] theorem State.updModule_lines (s : State) (f : Module → Module) : (s.updModule f).lines = s.lines := rfl
@[simp] theorem State.updModule_parcels (s : State) (f : Module → Module) : (s.updModule f).parcels = s.parcels := rfl
@[simp] theorem State.updModule_writeBacks (s : State) (f : Module → Module) : (s.updModule f).writeBacks = s.writeBacks := rfl
@[simp] theorem State.updModule_agentSeq (s : State) (f : Module → Module) : (s.updModule f).agentSeq = s.agentSeq := rfl
@[simp] theorem State.updModule_hostCopies (s : State) (f : Module → Module) : (s.updModule f).hostCopies = s.hostCopies := rfl
@[simp] theorem State.updModule_saved (s : State) (f : Module → Module) : (s.updModule f).saved = s.saved := rfl
@[simp] theorem State.updModule_preempts (s : State) (f : Module → Module) : (s.updModule f).preempts = s.preempts := rfl
@[simp] theorem State.updModule_moves (s : State) (f : Module → Module) : (s.updModule f).moves = s.moves := rfl
@[simp] theorem State.updModule_stageQueues (s : State) (f : Module → Module) : (s.updModule f).stageQueues = s.stageQueues := rfl
@[simp] theorem State.updModule_queues (s : State) (f : Module → Module) : (s.updModule f).queues = s.queues := rfl
@[simp] theorem State.updModule_launches (s : State) (f : Module → Module) : (s.updModule f).launches = s.launches := rfl
@[simp] theorem State.updModule_nextLaunch (s : State) (f : Module → Module) : (s.updModule f).nextLaunch = s.nextLaunch := rfl
@[simp] theorem State.updModule_module (s : State) (f : Module → Module) : (s.updModule f).module = f s.module := rfl
@[simp] theorem State.updModule_agenda (s : State) (f : Module → Module) : (s.updModule f).agenda = s.agenda := rfl

@[simp] theorem State.post_clock (s : State) (e : Instr) : (s.post e).clock = s.clock := rfl
@[simp] theorem State.post_tick (s : State) (e : Instr) : (s.post e).tick = s.tick := rfl
@[simp] theorem State.post_cur (s : State) (e : Instr) : (s.post e).cur = s.cur := rfl
@[simp] theorem State.post_nextUid (s : State) (e : Instr) : (s.post e).nextUid = s.nextUid := rfl
@[simp] theorem State.post_strands (s : State) (e : Instr) : (s.post e).strands = s.strands := rfl
@[simp] theorem State.post_cores (s : State) (e : Instr) : (s.post e).cores = s.cores := rfl
@[simp] theorem State.post_dies (s : State) (e : Instr) : (s.post e).dies = s.dies := rfl
@[simp] theorem State.post_contexts (s : State) (e : Instr) : (s.post e).contexts = s.contexts := rfl
@[simp] theorem State.post_mem (s : State) (e : Instr) : (s.post e).mem = s.mem := rfl
@[simp] theorem State.post_lines (s : State) (e : Instr) : (s.post e).lines = s.lines := rfl
@[simp] theorem State.post_parcels (s : State) (e : Instr) : (s.post e).parcels = s.parcels := rfl
@[simp] theorem State.post_writeBacks (s : State) (e : Instr) : (s.post e).writeBacks = s.writeBacks := rfl
@[simp] theorem State.post_agentSeq (s : State) (e : Instr) : (s.post e).agentSeq = s.agentSeq := rfl
@[simp] theorem State.post_hostCopies (s : State) (e : Instr) : (s.post e).hostCopies = s.hostCopies := rfl
@[simp] theorem State.post_saved (s : State) (e : Instr) : (s.post e).saved = s.saved := rfl
@[simp] theorem State.post_preempts (s : State) (e : Instr) : (s.post e).preempts = s.preempts := rfl
@[simp] theorem State.post_moves (s : State) (e : Instr) : (s.post e).moves = s.moves := rfl
@[simp] theorem State.post_stageQueues (s : State) (e : Instr) : (s.post e).stageQueues = s.stageQueues := rfl
@[simp] theorem State.post_queues (s : State) (e : Instr) : (s.post e).queues = s.queues := rfl
@[simp] theorem State.post_launches (s : State) (e : Instr) : (s.post e).launches = s.launches := rfl
@[simp] theorem State.post_nextLaunch (s : State) (e : Instr) : (s.post e).nextLaunch = s.nextLaunch := rfl
@[simp] theorem State.post_module (s : State) (e : Instr) : (s.post e).module = s.module := rfl
@[simp] theorem State.post_agenda (s : State) (e : Instr) : (s.post e).agenda = s.agenda ++ [e] := rfl

@[simp] theorem State.raise_clock (s : State) (k : Nat) : (s.raise k).clock = s.clock := rfl
@[simp] theorem State.raise_tick (s : State) (k : Nat) : (s.raise k).tick = s.tick := rfl
@[simp] theorem State.raise_cur (s : State) (k : Nat) : (s.raise k).cur = s.cur := rfl
@[simp] theorem State.raise_nextUid (s : State) (k : Nat) : (s.raise k).nextUid = s.nextUid := rfl
@[simp] theorem State.raise_strands (s : State) (k : Nat) : (s.raise k).strands = s.strands := rfl
@[simp] theorem State.raise_cores (s : State) (k : Nat) : (s.raise k).cores = s.cores := rfl
@[simp] theorem State.raise_dies (s : State) (k : Nat) : (s.raise k).dies = s.dies := rfl
@[simp] theorem State.raise_contexts (s : State) (k : Nat) : (s.raise k).contexts = s.contexts := rfl
@[simp] theorem State.raise_mem (s : State) (k : Nat) : (s.raise k).mem = s.mem := rfl
@[simp] theorem State.raise_lines (s : State) (k : Nat) : (s.raise k).lines = s.lines := rfl
@[simp] theorem State.raise_parcels (s : State) (k : Nat) : (s.raise k).parcels = s.parcels := rfl
@[simp] theorem State.raise_writeBacks (s : State) (k : Nat) : (s.raise k).writeBacks = s.writeBacks := rfl
@[simp] theorem State.raise_agentSeq (s : State) (k : Nat) : (s.raise k).agentSeq = s.agentSeq := rfl
@[simp] theorem State.raise_hostCopies (s : State) (k : Nat) : (s.raise k).hostCopies = s.hostCopies := rfl
@[simp] theorem State.raise_saved (s : State) (k : Nat) : (s.raise k).saved = s.saved := rfl
@[simp] theorem State.raise_preempts (s : State) (k : Nat) : (s.raise k).preempts = s.preempts := rfl
@[simp] theorem State.raise_moves (s : State) (k : Nat) : (s.raise k).moves = s.moves := rfl
@[simp] theorem State.raise_stageQueues (s : State) (k : Nat) : (s.raise k).stageQueues = s.stageQueues := rfl
@[simp] theorem State.raise_queues (s : State) (k : Nat) : (s.raise k).queues = s.queues := rfl
@[simp] theorem State.raise_launches (s : State) (k : Nat) : (s.raise k).launches = s.launches := rfl
@[simp] theorem State.raise_nextLaunch (s : State) (k : Nat) : (s.raise k).nextLaunch = s.nextLaunch := rfl
@[simp] theorem State.raise_module (s : State) (k : Nat) : (s.raise k).module = { s.module with events := s.module.events ||| BitVec.ofNat 64 (2 ^ k) } := rfl
@[simp] theorem State.raise_agenda (s : State) (k : Nat) : (s.raise k).agenda = s.agenda := rfl

/-! Reading a table after an update. -/

@[simp] theorem State.updCore_strand (s : State) (c : Nat) (f : Core → Core) (n : Nat) : (s.updCore c f).strand n = s.strand n := rfl
@[simp] theorem State.updDie_strand (s : State) (d : Nat) (f : Die → Die) (n : Nat) : (s.updDie d f).strand n = s.strand n := rfl
@[simp] theorem State.updContext_strand (s : State) (c : Nat) (f : Context → Context) (n : Nat) : (s.updContext c f).strand n = s.strand n := rfl
@[simp] theorem State.updLine_strand (s : State) (l : Nat) (f : Line → Line) (n : Nat) : (s.updLine l f).strand n = s.strand n := rfl
@[simp] theorem State.updParcel_strand (s : State) (p : Nat) (f : Parcel → Parcel) (n : Nat) : (s.updParcel p f).strand n = s.strand n := rfl
@[simp] theorem State.updModule_strand (s : State) (f : Module → Module) (n : Nat) : (s.updModule f).strand n = s.strand n := rfl
@[simp] theorem State.post_strand (s : State) (e : Instr) (n : Nat) : (s.post e).strand n = s.strand n := rfl
@[simp] theorem State.raise_strand (s : State) (k : Nat) (n : Nat) : (s.raise k).strand n = s.strand n := rfl
@[simp] theorem State.setStrand_core (s : State) (u : Nat) (t : Strand) (n : Nat) : (s.setStrand u t).core n = s.core n := rfl
@[simp] theorem State.updStrand_core (s : State) (u : Nat) (f : Strand → Strand) (n : Nat) : (s.updStrand u f).core n = s.core n := rfl
@[simp] theorem State.updMe_core (s : State) (f : Strand → Strand) (n : Nat) : (s.updMe f).core n = s.core n := rfl
@[simp] theorem State.updDie_core (s : State) (d : Nat) (f : Die → Die) (n : Nat) : (s.updDie d f).core n = s.core n := rfl
@[simp] theorem State.updContext_core (s : State) (c : Nat) (f : Context → Context) (n : Nat) : (s.updContext c f).core n = s.core n := rfl
@[simp] theorem State.updLine_core (s : State) (l : Nat) (f : Line → Line) (n : Nat) : (s.updLine l f).core n = s.core n := rfl
@[simp] theorem State.updParcel_core (s : State) (p : Nat) (f : Parcel → Parcel) (n : Nat) : (s.updParcel p f).core n = s.core n := rfl
@[simp] theorem State.updModule_core (s : State) (f : Module → Module) (n : Nat) : (s.updModule f).core n = s.core n := rfl
@[simp] theorem State.post_core (s : State) (e : Instr) (n : Nat) : (s.post e).core n = s.core n := rfl
@[simp] theorem State.raise_core (s : State) (k : Nat) (n : Nat) : (s.raise k).core n = s.core n := rfl
@[simp] theorem State.setStrand_die (s : State) (u : Nat) (t : Strand) (n : Nat) : (s.setStrand u t).die n = s.die n := rfl
@[simp] theorem State.updStrand_die (s : State) (u : Nat) (f : Strand → Strand) (n : Nat) : (s.updStrand u f).die n = s.die n := rfl
@[simp] theorem State.updMe_die (s : State) (f : Strand → Strand) (n : Nat) : (s.updMe f).die n = s.die n := rfl
@[simp] theorem State.updCore_die (s : State) (c : Nat) (f : Core → Core) (n : Nat) : (s.updCore c f).die n = s.die n := rfl
@[simp] theorem State.updContext_die (s : State) (c : Nat) (f : Context → Context) (n : Nat) : (s.updContext c f).die n = s.die n := rfl
@[simp] theorem State.updLine_die (s : State) (l : Nat) (f : Line → Line) (n : Nat) : (s.updLine l f).die n = s.die n := rfl
@[simp] theorem State.updParcel_die (s : State) (p : Nat) (f : Parcel → Parcel) (n : Nat) : (s.updParcel p f).die n = s.die n := rfl
@[simp] theorem State.updModule_die (s : State) (f : Module → Module) (n : Nat) : (s.updModule f).die n = s.die n := rfl
@[simp] theorem State.post_die (s : State) (e : Instr) (n : Nat) : (s.post e).die n = s.die n := rfl
@[simp] theorem State.raise_die (s : State) (k : Nat) (n : Nat) : (s.raise k).die n = s.die n := rfl
@[simp] theorem State.setStrand_context (s : State) (u : Nat) (t : Strand) (n : Nat) : (s.setStrand u t).context n = s.context n := rfl
@[simp] theorem State.updStrand_context (s : State) (u : Nat) (f : Strand → Strand) (n : Nat) : (s.updStrand u f).context n = s.context n := rfl
@[simp] theorem State.updMe_context (s : State) (f : Strand → Strand) (n : Nat) : (s.updMe f).context n = s.context n := rfl
@[simp] theorem State.updCore_context (s : State) (c : Nat) (f : Core → Core) (n : Nat) : (s.updCore c f).context n = s.context n := rfl
@[simp] theorem State.updDie_context (s : State) (d : Nat) (f : Die → Die) (n : Nat) : (s.updDie d f).context n = s.context n := rfl
@[simp] theorem State.updLine_context (s : State) (l : Nat) (f : Line → Line) (n : Nat) : (s.updLine l f).context n = s.context n := rfl
@[simp] theorem State.updParcel_context (s : State) (p : Nat) (f : Parcel → Parcel) (n : Nat) : (s.updParcel p f).context n = s.context n := rfl
@[simp] theorem State.updModule_context (s : State) (f : Module → Module) (n : Nat) : (s.updModule f).context n = s.context n := rfl
@[simp] theorem State.post_context (s : State) (e : Instr) (n : Nat) : (s.post e).context n = s.context n := rfl
@[simp] theorem State.raise_context (s : State) (k : Nat) (n : Nat) : (s.raise k).context n = s.context n := rfl
@[simp] theorem State.setStrand_line (s : State) (u : Nat) (t : Strand) (n : Nat) : (s.setStrand u t).line n = s.line n := rfl
@[simp] theorem State.updStrand_line (s : State) (u : Nat) (f : Strand → Strand) (n : Nat) : (s.updStrand u f).line n = s.line n := rfl
@[simp] theorem State.updMe_line (s : State) (f : Strand → Strand) (n : Nat) : (s.updMe f).line n = s.line n := rfl
@[simp] theorem State.updCore_line (s : State) (c : Nat) (f : Core → Core) (n : Nat) : (s.updCore c f).line n = s.line n := rfl
@[simp] theorem State.updDie_line (s : State) (d : Nat) (f : Die → Die) (n : Nat) : (s.updDie d f).line n = s.line n := rfl
@[simp] theorem State.updContext_line (s : State) (c : Nat) (f : Context → Context) (n : Nat) : (s.updContext c f).line n = s.line n := rfl
@[simp] theorem State.updParcel_line (s : State) (p : Nat) (f : Parcel → Parcel) (n : Nat) : (s.updParcel p f).line n = s.line n := rfl
@[simp] theorem State.updModule_line (s : State) (f : Module → Module) (n : Nat) : (s.updModule f).line n = s.line n := rfl
@[simp] theorem State.post_line (s : State) (e : Instr) (n : Nat) : (s.post e).line n = s.line n := rfl
@[simp] theorem State.raise_line (s : State) (k : Nat) (n : Nat) : (s.raise k).line n = s.line n := rfl
@[simp] theorem State.setStrand_parcel (s : State) (u : Nat) (t : Strand) (n : Nat) : (s.setStrand u t).parcel n = s.parcel n := rfl
@[simp] theorem State.updStrand_parcel (s : State) (u : Nat) (f : Strand → Strand) (n : Nat) : (s.updStrand u f).parcel n = s.parcel n := rfl
@[simp] theorem State.updMe_parcel (s : State) (f : Strand → Strand) (n : Nat) : (s.updMe f).parcel n = s.parcel n := rfl
@[simp] theorem State.updCore_parcel (s : State) (c : Nat) (f : Core → Core) (n : Nat) : (s.updCore c f).parcel n = s.parcel n := rfl
@[simp] theorem State.updDie_parcel (s : State) (d : Nat) (f : Die → Die) (n : Nat) : (s.updDie d f).parcel n = s.parcel n := rfl
@[simp] theorem State.updContext_parcel (s : State) (c : Nat) (f : Context → Context) (n : Nat) : (s.updContext c f).parcel n = s.parcel n := rfl
@[simp] theorem State.updLine_parcel (s : State) (l : Nat) (f : Line → Line) (n : Nat) : (s.updLine l f).parcel n = s.parcel n := rfl
@[simp] theorem State.updModule_parcel (s : State) (f : Module → Module) (n : Nat) : (s.updModule f).parcel n = s.parcel n := rfl
@[simp] theorem State.post_parcel (s : State) (e : Instr) (n : Nat) : (s.post e).parcel n = s.parcel n := rfl
@[simp] theorem State.raise_parcel (s : State) (k : Nat) (n : Nat) : (s.raise k).parcel n = s.parcel n := rfl
@[simp] theorem State.updCore_me (s : State) (c : Nat) (f : Core → Core) : (s.updCore c f).me = s.me := rfl
@[simp] theorem State.updDie_me (s : State) (d : Nat) (f : Die → Die) : (s.updDie d f).me = s.me := rfl
@[simp] theorem State.updContext_me (s : State) (c : Nat) (f : Context → Context) : (s.updContext c f).me = s.me := rfl
@[simp] theorem State.updLine_me (s : State) (l : Nat) (f : Line → Line) : (s.updLine l f).me = s.me := rfl
@[simp] theorem State.updParcel_me (s : State) (p : Nat) (f : Parcel → Parcel) : (s.updParcel p f).me = s.me := rfl
@[simp] theorem State.updModule_me (s : State) (f : Module → Module) : (s.updModule f).me = s.me := rfl
@[simp] theorem State.post_me (s : State) (e : Instr) : (s.post e).me = s.me := rfl
@[simp] theorem State.raise_me (s : State) (k : Nat) : (s.raise k).me = s.me := rfl

@[simp] theorem State.setStrand_strand (s : State) (u : Nat) (t : Strand) (n : Nat) :
    (s.setStrand u t).strand n = if n = u then t else s.strand n := Tab.get_set ..
@[simp] theorem State.updStrand_strand (s : State) (u : Nat) (f : Strand → Strand) (n : Nat) :
    (s.updStrand u f).strand n = if n = u then f (s.strand u) else s.strand n := Tab.get_set ..
@[simp] theorem State.updMe_strand (s : State) (f : Strand → Strand) (n : Nat) :
    (s.updMe f).strand n = if n = s.cur then f s.me else s.strand n := Tab.get_set ..
@[simp] theorem State.updMe_me (s : State) (f : Strand → Strand) : (s.updMe f).me = f s.me := Tab.get_set_self ..
@[simp] theorem State.updStrand_me (s : State) (u : Nat) (f : Strand → Strand) :
    (s.updStrand u f).me = if s.cur = u then f (s.strand u) else s.me := Tab.get_set ..
@[simp] theorem State.updCore_core (s : State) (c : Nat) (f : Core → Core) (n : Nat) :
    (s.updCore c f).core n = if n = c then f (s.core c) else s.core n := Tab.get_set ..
@[simp] theorem State.updDie_die (s : State) (d : Nat) (f : Die → Die) (n : Nat) :
    (s.updDie d f).die n = if n = d then f (s.die d) else s.die n := Tab.get_set ..
@[simp] theorem State.updContext_context (s : State) (c : Nat) (f : Context → Context) (n : Nat) :
    (s.updContext c f).context n = if n = c then f (s.context c) else s.context n := Tab.get_set ..
@[simp] theorem State.updLine_line (s : State) (l : Nat) (f : Line → Line) (n : Nat) :
    (s.updLine l f).line n = if n = l then f (s.line l) else s.line n := Tab.get_set ..
@[simp] theorem State.updParcel_parcel (s : State) (p : Nat) (f : Parcel → Parcel) (n : Nat) :
    (s.updParcel p f).parcel n = if n = p then f (s.parcel p) else s.parcel n := Tab.get_set ..

/-- Two updates of one strand are one. -/
theorem State.updStrand_updStrand (s : State) (u : Nat) (f g : Strand → Strand) :
    (s.updStrand u f).updStrand u g = s.updStrand u fun t => g (f t) := by
  unfold State.updStrand State.setStrand State.strand
  rw [Tab.get_set_self, Tab.set_set]

theorem State.updMe_updMe (s : State) (f g : Strand → Strand) : (s.updMe f).updMe g = s.updMe fun t => g (f t) :=
  State.updStrand_updStrand s s.cur f g

end Sys2Proof.Machine
end

