-- ==== Sys2Proof/Laws/Memory.lean ====
section
/-! SUPPORT. Physical memory: read after write, and every operation keeps the canonical form. -/

namespace Sys2Proof.Machine

/-- Reading a byte after writing a byte. -/
theorem memByte_memSet (m : List Host.Cell) (a a' : Nat) (b : Byte) :
    memByte (memSet m a b) a' = if a' = a then b else memByte m a' := Tab.get_set ..

theorem memSet_wf (m : List Host.Cell) (a : Nat) (b : Byte) (h : Memory.wf m = true) :
    Memory.wf (memSet m a b) = true := Tab.wf_set _ _ _ _ h

theorem memStore_wf (bs : List Byte) : ∀ (m : List Host.Cell) (a : Nat), Memory.wf m = true →
    Memory.wf (memStore m a bs) = true := by
  induction bs with
  | nil => intro m a h; exact h
  | cons b bs ih => intro m a h; exact ih _ _ (memSet_wf m a b h)

theorem memMerge_go_wf (data : BitVec 1024) (dirty : BitVec 32) (line : Nat) : ∀ (n : Nat) (m : List Host.Cell),
    Memory.wf m = true → Memory.wf (memMerge.go line data dirty n m) = true := by
  intro n
  induction n with
  | zero => intro m h; exact h
  | succ n ih =>
    intro m h
    unfold memMerge.go
    apply ih
    split
    · exact memSet_wf _ _ _ h
    · exact h

theorem memMerge_wf (m : List Host.Cell) (line : Nat) (data : BitVec 1024) (dirty : BitVec 32)
    (h : Memory.wf m = true) : Memory.wf (memMerge m line data dirty) = true := memMerge_go_wf data dirty line 128 m h

/-- A store leaves every byte outside the stored ones alone. -/
theorem memByte_memStore_out (bs : List Byte) : ∀ (m : List Host.Cell) (a x : Nat), (x < a ∨ a + bs.length ≤ x) →
    memByte (memStore m a bs) x = memByte m x := by
  induction bs with
  | nil => intro m a x _; rfl
  | cons b bs ih =>
    intro m a x h
    simp only [List.length_cons] at h
    unfold memStore
    rw [ih _ _ _ (by omega), memByte_memSet, if_neg (by omega)]

/-- A store puts its bytes in ascending order from its address. -/
theorem memByte_memStore_in (bs : List Byte) : ∀ (m : List Host.Cell) (a i : Nat) (h : i < bs.length),
    memByte (memStore m a bs) (a + i) = bs[i] := by
  induction bs with
  | nil => intro m a i h; exact absurd h (by simp)
  | cons b bs ih =>
    intro m a i h
    unfold memStore
    cases i with
    | zero => rw [memByte_memStore_out _ _ _ _ (by omega), memByte_memSet]; simp
    | succ i =>
      have := ih (memSet m a b) (a + 1) i (by simpa using h)
      rw [show a + (i + 1) = a + 1 + i by omega, this]; rfl

theorem memBytes_length (m : List Host.Cell) : ∀ (n a : Nat), (memBytes m a n).length = n := by
  intro n
  induction n with
  | zero => intro a; rfl
  | succ n ih => intro a; simp [memBytes, ih]

theorem memBytes_get (m : List Host.Cell) : ∀ (n a i : Nat) (h : i < (memBytes m a n).length),
    (memBytes m a n)[i] = memByte m (a + i) := by
  intro n
  induction n with
  | zero => intro a i h; simp [memBytes] at h
  | succ n ih =>
    intro a i h
    cases i with
    | zero => rfl
    | succ i =>
      have h' : i < (memBytes m (a + 1) n).length := by simp [memBytes] at h; exact h
      have := ih (a + 1) i h'
      simp only [memBytes, List.getElem_cons_succ]
      rw [this, show a + 1 + i = a + (i + 1) by omega]

end Sys2Proof.Machine
end

