-- ==== Sys2Proof/Laws/Ops.lean ====
section
/-! SUPPORT. How an instruction runs: its checks, its completion, its trap. -/

namespace Sys2Proof.Machine

/-- Checks 4 to 8 pass exactly when each of them does (R45). -/
theorem Form.check_none (f : Form) (s : State) : f.check s = none ↔
    f.csr = none ∧ (f.firmware = true → s.me.firmware = true) ∧ admitted s f.ops ∧
      (f.bar = true → s.me.isExecute = false) ∧ onClass s f.classes := by
  unfold Form.check admitted onClass
  cases hc : f.csr with
  | some x => simp
  | none =>
    simp only [true_and]
    by_cases hf : f.firmware = true ∧ s.me.firmware = false
    · simp [hf.1, hf.2]
    · have hf' : (f.firmware && !s.me.firmware) = false := by
        cases h1 : f.firmware <;> cases h2 : s.me.firmware <;> simp_all
      have hf'' : f.firmware = true → s.me.firmware = true := by
        cases h1 : f.firmware <;> cases h2 : s.me.firmware <;> simp_all
      rw [if_neg (by simp [hf'])]
      cases ho : f.ops.findSome? Opnd.bad with
      | some n =>
        obtain ⟨o, hm, hb⟩ := List.exists_of_findSome?_eq_some ho
        simp only [reduceCtorEq, false_iff]
        rintro ⟨-, h, -⟩
        have := (h o hm).1
        simp [hb] at this
      | none =>
        rw [List.findSome?_eq_none_iff] at ho
        by_cases hb : f.bar = true ∧ s.me.isExecute = true
        · simp [hb.1, hb.2]
        · have hb' : (f.bar && s.me.isExecute) = false := by
            cases h1 : f.bar <;> cases h2 : s.me.isExecute <;> simp_all
          have hb'' : f.bar = true → s.me.isExecute = false := by
            cases h1 : f.bar <;> cases h2 : s.me.isExecute <;> simp_all
          simp only [hb', Bool.false_eq_true, if_false]
          cases hq : f.ops.findSome? (fun o => (o.badQueue s s.cur).map fun n => (o, n)) with
          | some p =>
            obtain ⟨o, hm, hp⟩ := List.exists_of_findSome?_eq_some hq
            simp only [reduceCtorEq, false_iff]
            rintro ⟨-, h, -⟩
            have := (h o hm).2
            simp [this] at hp
          | none =>
            rw [List.findSome?_eq_none_iff] at hq
            have ha : ∀ o ∈ f.ops, o.bad = none ∧ o.badQueue s s.cur = none := fun o h =>
              ⟨ho o h, by simpa using hq o h⟩
            cases ht : f.classes.testBit (classOf s s.me.core)
            · simp
            · simp only [if_true, true_iff]; exact ⟨hf'', ha, hb'', trivial⟩

/-- An instruction whose checks pass and whose effect goes through completes. -/
theorem insn_ok {f : Form} {body : M Flow} {s s' : State} {flow : Flow} (hc : f.check s = none)
    (hb : body s = .ok flow s') : insn f body s = .next (complete f s flow s') := by
  simp only [insn, hc, hb]

/-- A failed check is a trap (R366, R350). -/
theorem insn_check {f : Form} {body : M Flow} {s : State} {x : Trap} (hc : f.check s = some x) :
    insn f body s = .next (stopTrap f s x false) := by simp only [insn, hc]

/-- A trap of another cause than 13/7 stands as it is. -/
@[simp] theorem Form.firstStuck_of_ne {f : Form} {s : State} {x : Trap} (h : ¬(x.cause = 13 ∧ x.sub = 7)) : f.firstStuck s x = x :=
  if_neg h

/-- An effect that traps leaves no effect (R46). -/
theorem insn_trap {f : Form} {body : M Flow} {s s' : State} {x : Trap} (hc : f.check s = none)
    (hb : body s = .error (.trap x) s') : insn f body s = .next (stopTrap f s (f.firstStuck s x) false) := by
  simp only [insn, hc, hb]

/-- An effect that parks leaves no effect (R103). -/
theorem insn_park {f : Form} {body : M Flow} {s s' : State} {w : Wait} (hc : f.check s = none)
    (hb : body s = .error (.park w) s') : insn f body s = .next (park s s.cur w) := by
  simp only [insn, hc, hb]

@[simp] theorem State.device_updStrand (s : State) (u : Nat) (f : Strand → Strand) :
    (s.updStrand u f).device = s.device := rfl
@[simp] theorem State.device_updMe (s : State) (f : Strand → Strand) : (s.updMe f).device = s.device := rfl
@[simp] theorem State.device_post (s : State) (e : Instr) : (s.post e).device = s.device := rfl
@[simp] theorem State.device_cur (s : State) : s.device.cur = s.cur := rfl
@[simp] theorem Strand.setPc_pc (t : Strand) (pc : Word) : (t.setPc pc).pc = pc := rfl
@[simp] theorem Strand.setPc_issued (t : Strand) (pc : Word) : (t.setPc pc).issued = t.issued := rfl
@[simp] theorem Strand.setPc_uncounted (t : Strand) (pc : Word) : (t.setPc pc).uncounted = t.uncounted := rfl
@[simp] theorem Strand.addIssued_issued (t : Strand) : t.addIssued.issued = t.issued + 1 := rfl

/-- A field that every step of a chain of strand updates leaves alone. -/
theorem State.updStrand_keeps {β : Type} (p : Strand → β) (s : State) (u : Nat) (g : Strand → Strand)
    (hg : ∀ t, p (g t) = p t) (v : Nat) : p ((s.updStrand u g).strand v) = p (s.strand v) := by
  rw [State.updStrand_strand]
  split
  · rename_i h; rw [hg, h]
  · rfl

/-- The two updates of the counts of a completed instruction. -/
theorem countIssued_eq (s : State) (u c : Nat) : ∃ g : Strand → Strand,
    (∀ t, (g t).uncounted = t.uncounted) ∧ (∀ t, (g t).pc = t.pc) ∧ (∀ t, (g t).issued = t.issued) ∧
    (countIssued s u c = (s.updStrand u Strand.addIssued).updStrand (s.owner u) g ∨
     countIssued s u c = ((s.updStrand u Strand.addIssued).updStrand (s.owner u) g).post
       (.proactiveReturn (s.owner u))) := by
  have ho : (s.updStrand u Strand.addIssued).owner u = s.owner u := by
    unfold State.owner
    rw [State.updStrand_strand, if_pos rfl]
    rfl
  unfold countIssued
  simp only [ho]
  refine dite (65536 ≤ ((s.updStrand u Strand.addIssued).strand (s.owner u)).travel.issued + 1) (fun h => ?_) (fun h => ?_)
  · rw [if_pos h]
    refine ⟨fun t => t.setWindow 0 0, fun _ => rfl, fun _ => rfl, fun _ => rfl, ?_⟩
    exact (ite_eq_or_eq _ _ _).symm
  · rw [if_neg h]
    exact ⟨fun t => t.setWindow (((s.updStrand u Strand.addIssued).strand (s.owner u)).travel.issued + 1) _,
      fun _ => rfl, fun _ => rfl, fun _ => rfl, .inl rfl⟩

/-- What the counts of a completed instruction change (R360, R438). -/
theorem countIssued_spec (s : State) (u c : Nat) :
    (∀ v, ((countIssued s u c).strand v).uncounted = (s.strand v).uncounted) ∧
    (∀ v, ((countIssued s u c).strand v).pc = (s.strand v).pc) ∧
    (∀ v, ((countIssued s u c).strand v).issued = (s.strand v).issued + (if v = u then 1 else 0)) ∧
    (countIssued s u c).device = s.device ∧
    ((countIssued s u c).agenda = s.agenda ∨
      (countIssued s u c).agenda = s.agenda ++ [.proactiveReturn (s.owner u)]) := by
  obtain ⟨g, hg1, hg2, hg3, he⟩ := countIssued_eq s u c
  have h1 : ∀ v, (((s.updStrand u Strand.addIssued).updStrand (s.owner u) g).strand v).uncounted
      = (s.strand v).uncounted := fun v =>
    (State.updStrand_keeps _ _ _ _ hg1 v).trans (State.updStrand_keeps Strand.uncounted _ _ Strand.addIssued (fun _ => rfl) v)
  have h2 : ∀ v, (((s.updStrand u Strand.addIssued).updStrand (s.owner u) g).strand v).pc
      = (s.strand v).pc := fun v =>
    (State.updStrand_keeps Strand.pc _ _ _ hg2 v).trans (State.updStrand_keeps Strand.pc _ _ Strand.addIssued (fun _ => rfl) v)
  have h3 : ∀ v, (((s.updStrand u Strand.addIssued).updStrand (s.owner u) g).strand v).issued
      = (s.strand v).issued + (if v = u then 1 else 0) := by
    intro v
    rw [State.updStrand_keeps Strand.issued _ _ _ hg3 v, State.updStrand_strand]
    by_cases h : v = u
    · rw [if_pos h, if_pos h, h]; rfl
    · rw [if_neg h, if_neg h]; exact (BitVec.add_zero _).symm
  rcases he with he | he <;> rw [he]
  · exact ⟨h1, h2, h3, by simp only [State.device_updStrand], .inl (by simp only [State.updStrand_agenda])⟩
  · exact ⟨h1, h2, h3, by simp only [State.device_updStrand, State.device_post],
      .inr (by simp only [State.post_agenda, State.updStrand_agenda])⟩

/-- Completion from any state that differs from the effect in counts only. -/
theorem completed_setPc (s e c : State) (pc : Word) (g : Strand → Word)
    (h1 : ∀ v, (c.strand v).uncounted = (e.strand v).uncounted) (h2 : ∀ v, (c.strand v).pc = (e.strand v).pc)
    (h3 : ∀ v, (c.strand v).issued = (e.strand v).issued + (if v = s.cur ∧ s.me.firmware = false then 1 else 0))
    (h4 : c.device = e.device) (h5 : c.agenda = e.agenda ∨ c.agenda = e.agenda ++ [.proactiveReturn (e.owner s.cur)])
    (hg : g (c.strand s.cur) = pc) :
    Completed s e pc (c.updStrand s.cur fun t => t.setPc (g t)) := by
  refine ⟨?_, ?_, ?_, ?_, ?_, ?_⟩
  · rw [State.updStrand_strand, if_pos rfl, Strand.setPc_pc, hg]
  · intro u hu
    rw [State.updStrand_strand, if_neg hu, h2]
  · intro u
    rw [State.updStrand_strand]
    by_cases hu : u = s.cur
    · rw [if_pos hu, hu, Strand.setPc_uncounted, h1]
    · rw [if_neg hu, h1]
  · intro u
    rw [State.updStrand_strand]
    by_cases hu : u = s.cur
    · rw [if_pos hu, hu, Strand.setPc_issued, h3]
    · rw [if_neg hu, h3]
  · rw [State.device_updStrand, h4]
  · rw [State.updStrand_agenda]; exact h5

/-- Completion, for an instruction that goes on to pc. -/
theorem complete_completed (f : Form) (s e : State) (flow : Flow) (pc : Word)
    (hf : (flow = .seq ∧ pc = (e.strand s.cur).pc + 4) ∨ flow = .jump pc) :
    Completed s e pc (complete f s flow e) := by
  obtain ⟨h1, h2, h3, h4, h5⟩ := countIssued_spec e s.cur f.classes
  have key : ∀ g : Strand → Word, (∀ t : Strand, t.pc = (e.strand s.cur).pc → g t = pc) →
      Completed s e pc ((if s.me.firmware then e else countIssued e s.cur f.classes).updStrand s.cur
        fun t => t.setPc (g t)) := by
    intro g hp
    cases hfw : s.me.firmware
    · rw [if_neg (by simp)]
      refine completed_setPc s e _ pc g h1 h2 ?_ h4 h5 (hp _ (h2 _))
      intro v; rw [h3 v]; simp only [hfw, and_true]
    · rw [if_pos rfl]
      refine completed_setPc s e _ pc g (fun _ => rfl) (fun _ => rfl) ?_ rfl (.inl rfl) (hp _ rfl)
      intro v; rw [if_neg (by simp [hfw])]; exact (BitVec.add_zero _).symm
  unfold complete
  rcases hf with ⟨rfl, rfl⟩ | rfl
  · exact key (fun t => t.pc + 4) (fun t h => by rw [h])
  · exact key (fun _ => pc) (fun _ _ => rfl)

/-- The completion statement of an instruction whose meaning is `insn f body`. -/
theorem insn_completes {i : Instr} {f : Form} {body : M Flow} {s e : State} {flow : Flow} {pc : Word}
    (hx : exec i s = insn f body s) (hc : f.check s = none) (hb : body s = .ok flow e)
    (hf : (flow = .seq ∧ pc = (e.strand s.cur).pc + 4) ∨ flow = .jump pc) : completesWith i s e pc :=
  ⟨_, hx.trans (insn_ok hc hb), complete_completed f s e flow pc hf⟩

end Sys2Proof.Machine
end

