-- ==== Sys2Proof/Laws/Operands.lean ====
section
/-! SUPPORT. The operand forms: what each read and write answers and what it can change. -/

namespace Sys2Proof.Machine

/-! The monad of effects. -/

theorem run_pure {α : Type} (a : α) (s : State) : (pure a : M α) s = .ok a s := rfl
theorem run_get (s : State) : (get : M State) s = .ok s s := rfl
theorem run_set (s' s : State) : (set s' : M PUnit) s = .ok ⟨⟩ s' := rfl
theorem run_modify (f : State → State) (s : State) : (modify f : M PUnit) s = .ok ⟨⟩ (f s) := rfl
theorem run_throw {α : Type} (e : Stop) (s : State) : (throw e : M α) s = .error e s := rfl
theorem run_me (s : State) : me s = .ok s.me s := rfl
theorem run_updMe (f : Strand → Strand) (s : State) : updMe f s = .ok ⟨⟩ (s.updMe f) := rfl
theorem run_trap {α : Type} (c n : Nat) (v : Word) (s : State) : (trap c n v : M α) s = .error (.trap ⟨c, n, v⟩) s := rfl

theorem run_bind {α β : Type} (m : M α) (f : α → M β) (s : State) :
    (m >>= f) s = match m s with
      | .ok a s' => f a s'
      | .error e s' => .error e s' := by
  show EStateM.bind m f s = _
  unfold EStateM.bind
  cases m s <;> rfl

theorem run_ite {α : Type} (c : Prop) [Decidable c] (m m' : M α) (s : State) :
    (if c then m else m') s = if c then m s else m' s := by split <;> rfl

/-- A sequence goes through when its first part does. -/
theorem run_bind_ok {α β : Type} {m : M α} {f : α → M β} {s s' : State} {a : α} (h : m s = .ok a s') :
    (m >>= f) s = f a s' := by rw [run_bind, h]

theorem run_bind_error {α β : Type} {m : M α} {f : α → M β} {s s' : State} {e : Stop} (h : m s = .error e s') :
    (m >>= f) s = .error e s' := by rw [run_bind, h]

/-- A sequence that goes through has a first part that does. -/
theorem of_bind_ok {α β : Type} {m : M α} {f : α → M β} {s s'' : State} {b : β} (h : (m >>= f) s = .ok b s'') :
    ∃ a s', m s = .ok a s' ∧ f a s' = .ok b s'' := by
  rw [run_bind] at h
  cases hm : m s with
  | ok a s' => rw [hm] at h; exact ⟨a, s', rfl, h⟩
  | error e s' => rw [hm] at h; cases h

/-! Scalar registers. -/

@[simp] theorem Strand.setReg_zero (t : Strand) (v : Word) : t.setReg 0 v = t := rfl

theorem Strand.reg_setReg (t : Strand) (r r' : Nat) (v : Word) :
    (t.setReg r v).reg r' = if r' = r ∧ r ≠ 0 then v else t.reg r' := by
  unfold Strand.setReg Strand.reg
  by_cases hr : r = 0
  · simp [hr]
  · simp only [hr, if_false, ne_eq, not_false_eq_true, and_true, Tab.get_set]
    by_cases h : r' = r
    · simp [h, hr]
    · simp [h]

@[simp] theorem Strand.reg_zero (t : Strand) : t.reg 0 = 0 := rfl

theorem Strand.setReg_sansScalar (t : Strand) (r : Nat) (v : Word) : (t.setReg r v).sansScalar = t.sansScalar := by
  unfold Strand.setReg; split <;> rfl

/-! What operands can change. -/

theorem ScalarOnly.refl (d : BitVec 6) (s : State) : ScalarOnly d s s :=
  ⟨rfl, rfl, fun _ => rfl, fun _ _ _ => rfl, fun _ => rfl⟩

theorem ScalarOnly.trans {d : BitVec 6} {s e f : State} (h : ScalarOnly d s e) (g : ScalarOnly d e f) : ScalarOnly d s f := by
  have hc : e.cur = s.cur := (congrArg State.cur h.device : e.device.cur = s.device.cur)
  refine ⟨g.device.trans h.device, g.agenda.trans h.agenda, fun u => (g.strands u).trans (h.strands u), ?_,
    fun a => (g.memory a).trans (h.memory a)⟩
  intro u r hu
  rw [g.regs u r (by rw [hc]; exact hu), h.regs u r hu]

theorem ScalarOnly.cur {d : BitVec 6} {s e : State} (h : ScalarOnly d s e) : e.cur = s.cur :=
  (congrArg State.cur h.device : e.device.cur = s.device.cur)

theorem Strand.pc_of_sansScalar {t t' : Strand} (h : t.sansScalar = t'.sansScalar) : t.pc = t'.pc :=
  (congrArg Strand.pc h : t.sansScalar.pc = t'.sansScalar.pc)

theorem ScalarOnly.pc {d : BitVec 6} {s e : State} (h : ScalarOnly d s e) : e.me.pc = s.me.pc := by
  rw [State.me, State.me, h.cur]; exact Strand.pc_of_sansScalar (h.strands _)

/-- A strand update that touches scalar state only, and registers only of d in the executing strand. -/
theorem ScalarOnly.upd (d : BitVec 6) (s : State) (u : Nat) (g : Strand → Strand)
    (h1 : (g (s.strand u)).sansScalar = (s.strand u).sansScalar)
    (h2 : ∀ r, (u ≠ s.cur ∨ r ≠ d.toNat) → (g (s.strand u)).reg r = (s.strand u).reg r) :
    ScalarOnly d s (s.updStrand u g) := by
  refine ⟨rfl, rfl, ?_, ?_, fun _ => rfl⟩
  · intro v
    rw [State.updStrand_strand]
    by_cases hv : v = u
    · rw [if_pos hv, hv, h1]
    · rw [if_neg hv]
  · intro v r hr
    rw [State.updStrand_strand]
    by_cases hv : v = u
    · rw [if_pos hv, hv]; exact h2 r (hv ▸ hr)
    · rw [if_neg hv]

theorem ScalarOnly.updQueue (d : BitVec 6) (s : State) (u q : Nat) (f : Queue → Queue) :
    ScalarOnly d s (s.updQueue u q f) := ScalarOnly.upd d s _ _ rfl (fun _ _ => rfl)

theorem popQueue_only {d : BitVec 6} {q : Nat} {s e : State} {v : Vec} (h : popQueue q s = .ok v e) : ScalarOnly d s e := by
  unfold popQueue at h
  rw [run_bind_ok (run_get s)] at h
  cases hq : (s.queue s.cur q).slots with
  | nil =>
    simp only [hq, run_ite] at h
    split at h <;> cases h
  | cons x rest =>
    simp only [hq, run_ite] at h
    split at h
    · split at h
      · cases h
      · rw [run_bind_ok (run_set _ s)] at h
        cases h
        exact ScalarOnly.updQueue ..
    · cases h

theorem allocSlot_only {d : BitVec 6} {q : Nat} {x : Slot} {s e : State} {p : Nat × Nat}
    (h : allocSlot q x s = .ok p e) : ScalarOnly d s e := by
  unfold allocSlot at h
  rw [run_bind_ok (run_get s)] at h
  simp only [run_ite] at h
  split at h
  · split at h <;> cases h
  · rw [run_bind_ok (run_set _ s)] at h
    cases h
    exact ScalarOnly.updQueue ..

theorem pushQueue_only {d : BitVec 6} {q : Nat} {v : Vec} {s e : State} {p : Unit}
    (h : pushQueue q v s = .ok p e) : ScalarOnly d s e := by
  unfold pushQueue at h
  rw [run_bind_ok (run_get s)] at h
  obtain ⟨a, s', h1, h2⟩ := of_bind_ok h
  cases h2
  exact allocSlot_only h1

theorem readX_only {d f : BitVec 6} {s e : State} {v : Word} (h : readX f s = .ok v e) : ScalarOnly d s e := by
  unfold readX at h
  split at h
  · cases h; exact ScalarOnly.refl d s
  · obtain ⟨a, s', h1, h2⟩ := of_bind_ok h
    cases h2
    exact popQueue_only h1

theorem readSync_only {d f : BitVec 6} {sy : BitVec 1} {s e : State} {v : Word} (h : readSync f sy s = .ok v e) :
    ScalarOnly d s e := by
  unfold readSync at h
  split at h
  · exact readX_only h
  · rw [run_bind_ok (run_get s)] at h
    simp only [run_ite] at h
    split at h
    · cases h; exact ScalarOnly.refl d s
    · split at h
      · rw [run_bind_ok (run_updMe _ s)] at h
        cases h
        exact ScalarOnly.upd d s s.cur _ rfl (fun _ _ => rfl)
      · split at h <;> cases h

theorem writeX_only {d : BitVec 6} {v : Word} {s e : State} {p : Unit} (h : writeX d v s = .ok p e) : ScalarOnly d s e := by
  unfold writeX at h
  split at h
  · cases h
    refine ScalarOnly.upd d s s.cur _ (Strand.setReg_sansScalar ..) ?_
    intro r hr
    rw [Strand.reg_setReg, if_neg]
    rintro ⟨h1, -⟩
    rcases hr with hr | hr
    · exact hr rfl
    · exact hr h1
  · exact pushQueue_only h

theorem classOfLocal_le (b l : Nat) : classOfLocal b l ≤ 2 := by
  unfold classOfLocal
  simp only
  split
  · omega
  · split <;> omega

/-- Every core is of one of the three classes. -/
theorem onClass_all (s : State) : onClass s 7 := by
  unfold onClass classOf
  have h := classOfLocal_le s.module.blend (s.me.core % coresPerDie s.module.blend)
  generalize classOfLocal s.module.blend (s.me.core % coresPerDie s.module.blend) = n at h
  interval_cases n <;> rfl

end Sys2Proof.Machine
end

