-- ==== Sys2Proof/Laws/PerInstr.lean ====
section
/-! SUPPORT. Facts about every instruction, one lemma per constructor. The family Encoding: the word of an instruction has its
group's major opcode in bits 31 to 26 (R28, R38). -/

namespace Sys2Proof

/-- The major opcode of an instruction, from the opcode table; a device event has none (R28, R38). -/
def Instr.major : Instr → Option (BitVec 6)
  | .strandWake _ => none
  | .barwtDeadline _ => none
  | .userInterruptEntry _ => none
  | .migrationSearchExpiry _ => none
  | .migrationCoreFreed _ => none
  | .migrationCarryComplete _ => none
  | .creditReturn _ => none
  | .proactiveReturn _ => none
  | .naingOrderedMove _ _ => none
  | .preemptionSaveComplete _ => none
  | .homeRead _ _ => none
  | .homeOwn _ _ => none
  | .homeWriteBack _ _ _ => none
  | .cleanCopyDrop _ _ => none
  | .invalidatingSnoop _ _ => none
  | .forwardedRead _ _ => none
  | .goneResponse _ _ _ => none
  | .llcEviction _ => none
  | .guestCopyEviction _ _ => none
  | .shootdownRequest _ _ _ => none
  | .shootdownComplete _ _ => none
  | .parcelMigrationStart _ => none
  | .parcelMigrationComplete _ _ => none
  | .pendingLogAppend _ _ _ _ => none
  | .boothFill _ _ => none
  | .boothWaitAllocate _ => none
  | .boothClaim _ => none
  | .ticketDelivery _ => none
  | .ticketWithdrawal _ => none
  | .ticketExpiry _ _ => none
  | .queueFillArrival _ _ _ _ _ _ => none
  | .windowFill _ _ _ => none
  | .matrixPipeStep _ => none
  | .tileOpComplete _ => none
  | .tfetchSlotFill _ _ _ _ _ _ _ _ => none
  | .elementTrain _ _ _ _ _ => none
  | .trainAck _ _ _ _ => none
  | .reductionPerform _ => none
  | .reductionDrainExpiry _ => none
  | .commandStart _ _ => none
  | .engineElement _ _ => none
  | .rowComplete _ _ => none
  | .commandEnd _ _ => none
  | .stageBlockAnnounce _ _ _ => none
  | .stageBlockGrant _ _ _ => none
  | .stageBlockPull _ _ _ => none
  | .gangStripGrant _ _ _ => none
  | .contextTeardown _ => none
  | .launchRecordAccept _ => none
  | .dispatch _ => none
  | .starvationBoundExpiry _ => none
  | .launchCompletion _ => none
  | .gangAnnounceReceive _ _ => none
  | .gangTimeout _ => none
  | .gangAbortReceive _ => none
  | .traceSample _ => none
  | .replayHoldExpiry _ => none
  | .powerOnBringUp => none
  | .doorbell _ => none
  | .quoteRequest _ => none
  | .quoteReady => none
  | .evstatClear _ => none
  | .hostMemoryAccess _ _ _ _ => none
  | .hostSnoop _ => none
  | .hostLinkLoss _ => none
  | .thermalThrottle _ => none
  | .thermalShutdown _ => none
  | .powerCapThrottle _ => none
  | .uncorrectedError _ _ _ _ => none
  | .unitFence _ _ => none
  | .dcword7Commit _ => none
  | .keyLoad => none
  | .keyErase => none
  | .pwrcapWrite _ => none
  | .rplmodeWrite _ => none
  | .registerWrite _ _ _ => none
  | .correctedError _ => none
  | .powerLoss => none
  | .contextCreation _ => none
  | .naingParcelMigrationRequest _ _ _ => none
  | .reserveFrameSupply _ _ => none
  | .counterTableEntryFree _ _ => none
  | .resumptionMark _ => none
  | .naingLaunchEnd _ => none
  | .add _ _ _ _ _ => some 0x01
  | .sub _ _ _ _ _ => some 0x01
  | .mul _ _ _ _ _ => some 0x01
  | .mulh _ _ _ _ _ => some 0x01
  | .mulhn _ _ _ _ _ => some 0x01
  | .div _ _ _ _ _ => some 0x01
  | .divn _ _ _ _ _ => some 0x01
  | .rem _ _ _ _ _ => some 0x01
  | .remn _ _ _ _ _ => some 0x01
  | .and _ _ _ _ _ => some 0x01
  | .or _ _ _ _ _ => some 0x01
  | .xor _ _ _ _ _ => some 0x01
  | .andn _ _ _ _ _ => some 0x01
  | .sll _ _ _ _ _ => some 0x01
  | .srl _ _ _ _ _ => some 0x01
  | .sra _ _ _ _ _ => some 0x01
  | .slli _ _ _ _ _ => some 0x01
  | .srli _ _ _ _ _ => some 0x01
  | .srai _ _ _ _ _ => some 0x01
  | .min _ _ _ _ _ => some 0x01
  | .max _ _ _ _ _ => some 0x01
  | .minn _ _ _ _ _ => some 0x01
  | .maxn _ _ _ _ _ => some 0x01
  | .slt _ _ _ _ _ => some 0x01
  | .sltn _ _ _ _ _ => some 0x01
  | .seq _ _ _ _ _ => some 0x01
  | .clz _ _ _ _ => some 0x01
  | .ctz _ _ _ _ => some 0x01
  | .popc _ _ _ _ => some 0x01
  | .rotr _ _ _ _ _ => some 0x01
  | .brev _ _ _ _ => some 0x01
  | .bswap _ _ _ _ => some 0x01
  | .addi _ _ _ => some 0x02
  | .andi _ _ _ => some 0x03
  | .ori _ _ _ => some 0x04
  | .xori _ _ _ => some 0x05
  | .slti _ _ _ => some 0x06
  | .sltni _ _ _ => some 0x07
  | .lui _ _ => some 0x08
  | .auipc _ _ => some 0x09
  | .jal _ _ => some 0x0A
  | .jalr _ _ _ => some 0x0B
  | .beq _ _ _ => some 0x0C
  | .bne _ _ _ => some 0x0C
  | .blt _ _ _ => some 0x0C
  | .bge _ _ _ => some 0x0C
  | .bltn _ _ _ => some 0x0C
  | .bgen _ _ _ => some 0x0C
  | .bqt _ _ => some 0x0C
  | .bqf _ _ => some 0x0C
  | .ld _ _ _ _ _ _ _ => some 0x0D
  | .ldz _ _ _ _ _ _ _ => some 0x0E
  | .st _ _ _ _ _ _ _ => some 0x0F
  | .fadd _ _ _ _ _ => some 0x10
  | .fsub _ _ _ _ _ => some 0x10
  | .fmul _ _ _ _ _ => some 0x10
  | .fmac _ _ _ _ _ => some 0x10
  | .fnmac _ _ _ _ _ => some 0x10
  | .fdiv _ _ _ _ _ => some 0x10
  | .fsqrt _ _ _ _ => some 0x10
  | .fmin _ _ _ _ _ => some 0x10
  | .fmax _ _ _ _ _ => some 0x10
  | .feq _ _ _ _ _ => some 0x10
  | .flt _ _ _ _ _ => some 0x10
  | .fle _ _ _ _ _ => some 0x10
  | .fclass _ _ _ _ => some 0x10
  | .fcvti _ _ _ _ _ _ => some 0x10
  | .fcvtf _ _ _ _ _ _ => some 0x10
  | .fcvtw _ _ _ _ _ _ => some 0x10
  | .fscpy _ _ _ _ _ => some 0x10
  | .fsneg _ _ _ _ _ => some 0x10
  | .fsxor _ _ _ _ _ => some 0x10
  | .csrrw _ _ _ => some 0x11
  | .csrrs _ _ _ => some 0x11
  | .csrrc _ _ _ => some 0x11
  | .csrr _ _ => some 0x11
  | .exit => some 0x12
  | .yield => some 0x12
  | .forkl _ _ => some 0x12
  | .joinl _ _ => some 0x12
  | .loop _ _ => some 0x12
  | .endloop _ => some 0x12
  | .lidx _ _ => some 0x12
  | .sidx _ _ => some 0x12
  | .hint _ => some 0x12
  | .migr _ _ => some 0x12
  | .qcfg _ _ => some 0x13
  | .qadv _ _ => some 0x13
  | .qcommit _ => some 0x13
  | .qfill _ _ => some 0x13
  | .qfree _ _ => some 0x13
  | .qreset _ => some 0x13
  | .qdrain _ => some 0x13
  | .xput _ _ => some 0x13
  | .fset _ => some 0x13
  | .fclr _ => some 0x13
  | .ftest _ _ => some 0x13
  | .vadd _ _ _ _ _ => some 0x14
  | .vsub _ _ _ _ _ => some 0x14
  | .vmul _ _ _ _ _ => some 0x14
  | .vmulh _ _ _ _ _ => some 0x14
  | .vmac _ _ _ _ _ => some 0x14
  | .vdiv _ _ _ _ _ => some 0x14
  | .vdivn _ _ _ _ _ => some 0x14
  | .vrem _ _ _ _ _ => some 0x14
  | .vmin _ _ _ _ _ => some 0x14
  | .vmax _ _ _ _ _ => some 0x14
  | .vminn _ _ _ _ _ => some 0x14
  | .vmaxn _ _ _ _ _ => some 0x14
  | .vand _ _ _ _ _ => some 0x14
  | .vor _ _ _ _ _ => some 0x14
  | .vxor _ _ _ _ _ => some 0x14
  | .vsll _ _ _ _ _ => some 0x14
  | .vsrl _ _ _ _ _ => some 0x14
  | .vsra _ _ _ _ _ => some 0x14
  | .vsadd _ _ _ _ _ => some 0x14
  | .vssub _ _ _ _ _ => some 0x14
  | .vabs _ _ _ => some 0x14
  | .vneg _ _ _ => some 0x14
  | .vredsum _ _ _ _ => some 0x14
  | .vredmin _ _ _ _ => some 0x14
  | .vredmax _ _ _ _ => some 0x14
  | .vfadd _ _ _ _ _ => some 0x15
  | .vfsub _ _ _ _ _ => some 0x15
  | .vfmul _ _ _ _ _ => some 0x15
  | .vfma _ _ _ _ _ => some 0x15
  | .vfnma _ _ _ _ _ => some 0x15
  | .vfdiv _ _ _ _ _ => some 0x15
  | .vfsqrt _ _ _ => some 0x15
  | .vfexp2 _ _ => some 0x15
  | .vflog2 _ _ => some 0x15
  | .vfmin _ _ _ _ _ => some 0x15
  | .vfmax _ _ _ _ _ => some 0x15
  | .vfabs _ _ _ => some 0x15
  | .vfneg _ _ _ => some 0x15
  | .vfcvt _ _ _ _ => some 0x15
  | .vfredo _ _ _ _ => some 0x15
  | .vfredt _ _ _ _ => some 0x15
  | .vfredmax _ _ _ _ => some 0x15
  | .vfredmin _ _ _ _ => some 0x15
  | .vfscale _ _ _ _ _ => some 0x15
  | .vceq _ _ _ _ _ => some 0x16
  | .vcne _ _ _ _ _ => some 0x16
  | .vclt _ _ _ _ _ => some 0x16
  | .vcle _ _ _ _ _ => some 0x16
  | .vcltn _ _ _ _ _ => some 0x16
  | .vclen _ _ _ _ _ => some 0x16
  | .vfceq _ _ _ _ _ => some 0x16
  | .vfclt _ _ _ _ _ => some 0x16
  | .vfcle _ _ _ _ _ => some 0x16
  | .vfcun _ _ _ _ _ => some 0x16
  | .pand _ _ _ => some 0x17
  | .por _ _ _ => some 0x17
  | .pxor _ _ _ => some 0x17
  | .pandn _ _ _ => some 0x17
  | .pnot _ _ => some 0x17
  | .psbf _ _ => some 0x17
  | .psif _ _ => some 0x17
  | .psof _ _ => some 0x17
  | .pcnt _ _ => some 0x17
  | .pfirst _ _ => some 0x17
  | .pset _ => some 0x17
  | .pclr _ => some 0x17
  | .pfromx _ _ _ => some 0x17
  | .ptox _ _ _ => some 0x17
  | .vcompress _ _ _ => some 0x18
  | .vexpand _ _ _ => some 0x18
  | .vslideup _ _ _ _ _ => some 0x18
  | .vslidedn _ _ _ _ _ => some 0x18
  | .vpermx _ _ _ _ => some 0x18
  | .vbcast _ _ _ _ => some 0x18
  | .vextx _ _ _ _ => some 0x18
  | .vinsx _ _ _ _ => some 0x18
  | .viota _ _ _ _ => some 0x18
  | .vmov _ _ _ => some 0x18
  | .vzip _ _ _ _ => some 0x18
  | .vunzip _ _ _ _ => some 0x18
  | .vld _ _ _ _ _ => some 0x19
  | .vlds _ _ _ _ _ => some 0x19
  | .vldx _ _ _ _ _ _ => some 0x19
  | .vldff _ _ _ _ _ => some 0x19
  | .vldb _ _ _ _ _ => some 0x19
  | .vst _ _ _ _ _ => some 0x1A
  | .vsts _ _ _ _ _ => some 0x1A
  | .vstx _ _ _ _ _ _ => some 0x1A
  | .vstxr _ _ _ _ _ _ => some 0x1A
  | .setvl _ _ _ => some 0x1B
  | .setvli _ _ _ => some 0x1B
  | .setms _ _ => some 0x1B
  | .setst _ => some 0x1B
  | .scput _ _ _ => some 0x1B
  | .sctake _ _ => some 0x1B
  | .scflush _ => some 0x1B
  | .scstat _ => some 0x1B
  | .ten _ _ _ => some 0x1C
  | .tdis _ => some 0x1C
  | .tzero _ => some 0x1C
  | .tpred _ _ _ => some 0x1C
  | .tmovr _ _ _ => some 0x1C
  | .tmovc _ _ _ => some 0x1C
  | .tsetr _ _ _ => some 0x1C
  | .tsetc _ _ _ => some 0x1C
  | .tfold _ _ => some 0x1C
  | .tdrain _ _ _ _ => some 0x1C
  | .tfetch _ _ _ => some 0x1C
  | .tscl _ _ => some 0x1C
  | .tstat _ _ _ => some 0x1C
  | .top _ _ _ _ _ _ _ => some 0x1D
  | .tops _ _ _ _ _ _ _ => some 0x1D
  | .topl _ _ _ _ _ _ => some 0x1D
  | .wmap _ _ _ => some 0x1E
  | .wunmap _ _ => some 0x1E
  | .wflush _ _ => some 0x1E
  | .winv _ _ _ => some 0x1E
  | .wstat _ _ _ => some 0x1E
  | .wtouch _ _ => some 0x1E
  | .wkeep _ _ => some 0x1E
  | .tkld _ _ _ _ _ => some 0x1F
  | .tkldw _ _ _ _ _ => some 0x1F
  | .tkldv _ _ _ => some 0x1F
  | .tkrd _ _ => some 0x1F
  | .tkrdv _ _ => some 0x1F
  | .tkrdq _ _ => some 0x1F
  | .tktest _ _ => some 0x1F
  | .tkdrop _ _ => some 0x1F
  | .pqry _ _ => some 0x20
  | .phint _ _ => some 0x20
  | .plogq _ _ => some 0x20
  | .pfetch _ _ => some 0x20
  | .pmigr _ _ _ => some 0x20
  | .pnqpop _ => some 0x20
  | .pkeep _ _ _ => some 0x20
  | .atmAdd _ _ _ _ _ => some 0x21
  | .atmMin _ _ _ _ _ => some 0x21
  | .atmMax _ _ _ _ _ => some 0x21
  | .atmMinn _ _ _ _ _ => some 0x21
  | .atmMaxn _ _ _ _ _ => some 0x21
  | .atmAnd _ _ _ _ _ => some 0x21
  | .atmOr _ _ _ _ _ => some 0x21
  | .atmXor _ _ _ _ _ => some 0x21
  | .atmSwp _ _ _ _ _ => some 0x21
  | .atmFadd _ _ _ _ _ => some 0x21
  | .atmFaddh _ _ _ _ _ => some 0x21
  | .atmCas _ _ _ _ _ => some 0x21
  | .redAdd32 _ _ _ _ => some 0x21
  | .redMin32 _ _ _ _ => some 0x21
  | .redMax32 _ _ _ _ => some 0x21
  | .redMinn32 _ _ _ _ => some 0x21
  | .redMaxn32 _ _ _ _ => some 0x21
  | .redAnd32 _ _ _ _ => some 0x21
  | .redOr32 _ _ _ _ => some 0x21
  | .redXor32 _ _ _ _ => some 0x21
  | .redFadd32 _ _ _ _ => some 0x21
  | .redFaddh32 _ _ _ _ => some 0x21
  | .atmdAdd _ _ _ _ _ => some 0x22
  | .atmdMin _ _ _ _ _ => some 0x22
  | .atmdMax _ _ _ _ _ => some 0x22
  | .atmdMinn _ _ _ _ _ => some 0x22
  | .atmdMaxn _ _ _ _ _ => some 0x22
  | .atmdAnd _ _ _ _ _ => some 0x22
  | .atmdOr _ _ _ _ _ => some 0x22
  | .atmdXor _ _ _ _ _ => some 0x22
  | .atmdSwp _ _ _ _ _ => some 0x22
  | .atmdFadd _ _ _ _ _ => some 0x22
  | .atmdCas _ _ _ _ _ => some 0x22
  | .redAdd64 _ _ _ _ => some 0x22
  | .redMin64 _ _ _ _ => some 0x22
  | .redMax64 _ _ _ _ => some 0x22
  | .redMinn64 _ _ _ _ => some 0x22
  | .redMaxn64 _ _ _ _ => some 0x22
  | .redAnd64 _ _ _ _ => some 0x22
  | .redOr64 _ _ _ _ => some 0x22
  | .redXor64 _ _ _ _ => some 0x22
  | .redFadd64 _ _ _ _ => some 0x22
  | .sbar _ _ _ => some 0x23
  | .bari _ _ _ => some 0x23
  | .barv _ _ _ => some 0x23
  | .barw _ _ _ => some 0x23
  | .barwt _ _ _ _ => some 0x23
  | .waitv _ _ _ _ => some 0x23
  | .accdecl _ _ _ _ => some 0x23
  | .vacc _ _ _ => some 0x23
  | .accmerge _ _ => some 0x23
  | .accrel _ => some 0x23
  | .estr _ _ => some 0x24
  | .epush _ _ => some 0x24
  | .epop _ _ => some 0x24
  | .ewm _ _ => some 0x24
  | .ewait _ _ => some 0x24
  | .echan _ _ _ => some 0x24
  | .egang _ _ _ => some 0x24
  | .ecancel _ _ => some 0x24
  | .estat _ _ => some 0x24
  | .uien _ _ => some 0x24
  | .uiret => some 0x24
  | .svc _ => some 0x25
  | .brk _ => some 0x25
  | .rett => some 0x25
  | .wfi _ => some 0x25
  | .tlbinv _ _ _ => some 0x25
  | .ctxsv _ _ => some 0x25
  | .ctxld _ _ _ => some 0x25
  | .lnpurge _ _ => some 0x25
  | .tmark _ _ => some 0x26
  | .tcnt _ _ => some 0x26

/-- Bits 31 to 26 of a word in format FR. -/
theorem fr_major (op d a b : BitVec 6) (fn : BitVec 5) (ty : BitVec 2) (s : BitVec 1) :
    (fr op d a b fn ty s).extractLsb' 26 6 = op := by
  apply BitVec.eq_of_getLsbD_eq
  intro i hi
  rw [BitVec.getLsbD_extractLsb']
  simp only [hi, decide_true, Bool.true_and]
  unfold fr
  simp only [BitVec.getLsbD_append]
  repeat' (split <;> first | omega | skip)
  congr 1; omega

/-- Bits 31 to 26 of a word in format FI. -/
theorem fi_major (op d a : BitVec 6) (imm : BitVec 14) :
    (fi op d a imm).extractLsb' 26 6 = op := by
  apply BitVec.eq_of_getLsbD_eq
  intro i hi
  rw [BitVec.getLsbD_extractLsb']
  simp only [hi, decide_true, Bool.true_and]
  unfold fi
  simp only [BitVec.getLsbD_append]
  repeat' (split <;> first | omega | skip)
  congr 1; omega

/-- Bits 31 to 26 of a word in format FU. -/
theorem fu_major (op d : BitVec 6) (imm : BitVec 20) :
    (fu op d imm).extractLsb' 26 6 = op := by
  apply BitVec.eq_of_getLsbD_eq
  intro i hi
  rw [BitVec.getLsbD_extractLsb']
  simp only [hi, decide_true, Bool.true_and]
  unfold fu
  simp only [BitVec.getLsbD_append]
  repeat' (split <;> first | omega | skip)
  congr 1; omega

/-- Bits 31 to 26 of a word in format FB. -/
theorem fb_major (op a b : BitVec 6) (cond : BitVec 3) (off : BitVec 11) :
    (fb op a b cond off).extractLsb' 26 6 = op := by
  apply BitVec.eq_of_getLsbD_eq
  intro i hi
  rw [BitVec.getLsbD_extractLsb']
  simp only [hi, decide_true, Bool.true_and]
  unfold fb
  simp only [BitVec.getLsbD_append]
  repeat' (split <;> first | omega | skip)
  congr 1; omega

/-- Bits 31 to 26 of a word in format FM. -/
theorem fm_major (op d base off : BitVec 6) (wd st ord sc : BitVec 2) :
    (fm op d base off wd st ord sc).extractLsb' 26 6 = op := by
  apply BitVec.eq_of_getLsbD_eq
  intro i hi
  rw [BitVec.getLsbD_extractLsb']
  simp only [hi, decide_true, Bool.true_and]
  unfold fm
  simp only [BitVec.getLsbD_append]
  repeat' (split <;> first | omega | skip)
  congr 1; omega

/-- Bits 31 to 26 of a word in format FV. -/
theorem fv_major (op d base i : BitVec 6) (mode : BitVec 3) (wd st : BitVec 2) (h : BitVec 1) :
    (fv op d base i mode wd st h).extractLsb' 26 6 = op := by
  apply BitVec.eq_of_getLsbD_eq
  intro i hi
  rw [BitVec.getLsbD_extractLsb']
  simp only [hi, decide_true, Bool.true_and]
  unfold fv
  simp only [BitVec.getLsbD_append]
  repeat' (split <;> first | omega | skip)
  congr 1; omega

/-- Bits 31 to 26 of a word in format FX. -/
theorem fx_major (op : BitVec 6) (t : BitVec 3) (a b : BitVec 6) (rep : BitVec 4) (form : BitVec 2) (ty : BitVec 3) (n z : BitVec 1) :
    (fx op t a b rep form ty n z).extractLsb' 26 6 = op := by
  apply BitVec.eq_of_getLsbD_eq
  intro i hi
  rw [BitVec.getLsbD_extractLsb']
  simp only [hi, decide_true, Bool.true_and]
  unfold fx
  simp only [BitVec.getLsbD_append]
  repeat' (split <;> first | omega | skip)
  congr 1; omega

/-- Bits 31 to 26 of a word in format FA. -/
theorem fa_major (op d base b : BitVec 6) (fn : BitVec 4) (ord sc : BitVec 2) :
    (fa op d base b fn ord sc).extractLsb' 26 6 = op := by
  apply BitVec.eq_of_getLsbD_eq
  intro i hi
  rw [BitVec.getLsbD_extractLsb']
  simp only [hi, decide_true, Bool.true_and]
  unfold fa
  simp only [BitVec.getLsbD_append]
  repeat' (split <;> first | omega | skip)
  congr 1; omega

/-- Bits 31 to 26 of a word in format FS. -/
theorem fs_major (op d a : BitVec 6) (csr : BitVec 12) (fn : BitVec 2) :
    (fs op d a csr fn).extractLsb' 26 6 = op := by
  apply BitVec.eq_of_getLsbD_eq
  intro i hi
  rw [BitVec.getLsbD_extractLsb']
  simp only [hi, decide_true, Bool.true_and]
  unfold fs
  simp only [BitVec.getLsbD_append]
  repeat' (split <;> first | omega | skip)
  congr 1; omega

namespace Laws.Encoding

/-- The word of the instruction has the instruction's major opcode (R28, R38). -/
def Statement (i : Instr) : Prop := ∀ m, i.major = some m → (encode i).extractLsb' 26 6 = m

theorem strandWake (u : Nat) : Statement (.strandWake u) := fun _ h => nomatch h
theorem barwtDeadline (u : Nat) : Statement (.barwtDeadline u) := fun _ h => nomatch h
theorem userInterruptEntry (u : Nat) : Statement (.userInterruptEntry u) := fun _ h => nomatch h
theorem migrationSearchExpiry (u : Nat) : Statement (.migrationSearchExpiry u) := fun _ h => nomatch h
theorem migrationCoreFreed (u : Nat) : Statement (.migrationCoreFreed u) := fun _ h => nomatch h
theorem migrationCarryComplete (u : Nat) : Statement (.migrationCarryComplete u) := fun _ h => nomatch h
theorem creditReturn (u : Nat) : Statement (.creditReturn u) := fun _ h => nomatch h
theorem proactiveReturn (u : Nat) : Statement (.proactiveReturn u) := fun _ h => nomatch h
theorem naingOrderedMove (u : Nat) (classes : BitVec 3) : Statement (.naingOrderedMove u classes) := fun _ h => nomatch h
theorem preemptionSaveComplete (u : Nat) : Statement (.preemptionSaveComplete u) := fun _ h => nomatch h
theorem homeRead (agent line : Nat) : Statement (.homeRead agent line) := fun _ h => nomatch h
theorem homeOwn (agent line : Nat) : Statement (.homeOwn agent line) := fun _ h => nomatch h
theorem homeWriteBack (agent line seq : Nat) : Statement (.homeWriteBack agent line seq) := fun _ h => nomatch h
theorem cleanCopyDrop (agent line : Nat) : Statement (.cleanCopyDrop agent line) := fun _ h => nomatch h
theorem invalidatingSnoop (agent line : Nat) : Statement (.invalidatingSnoop agent line) := fun _ h => nomatch h
theorem forwardedRead (agent line : Nat) : Statement (.forwardedRead agent line) := fun _ h => nomatch h
theorem goneResponse (agent line seq : Nat) : Statement (.goneResponse agent line seq) := fun _ h => nomatch h
theorem llcEviction (line : Nat) : Statement (.llcEviction line) := fun _ h => nomatch h
theorem guestCopyEviction (die line : Nat) : Statement (.guestCopyEviction die line) := fun _ h => nomatch h
theorem shootdownRequest (die seq agent : Nat) : Statement (.shootdownRequest die seq agent) := fun _ h => nomatch h
theorem shootdownComplete (die seq : Nat) : Statement (.shootdownComplete die seq) := fun _ h => nomatch h
theorem parcelMigrationStart (die : Nat) : Statement (.parcelMigrationStart die) := fun _ h => nomatch h
theorem parcelMigrationComplete (die parcel : Nat) : Statement (.parcelMigrationComplete die parcel) := fun _ h => nomatch h
theorem pendingLogAppend (pa op wd : Nat) (value : BitVec 64) : Statement (.pendingLogAppend pa op wd value) := fun _ h => nomatch h
theorem boothFill (slice entry : Nat) : Statement (.boothFill slice entry) := fun _ h => nomatch h
theorem boothWaitAllocate (slice : Nat) : Statement (.boothWaitAllocate slice) := fun _ h => nomatch h
theorem boothClaim (u : Nat) : Statement (.boothClaim u) := fun _ h => nomatch h
theorem ticketDelivery (u : Nat) : Statement (.ticketDelivery u) := fun _ h => nomatch h
theorem ticketWithdrawal (u : Nat) : Statement (.ticketWithdrawal u) := fun _ h => nomatch h
theorem ticketExpiry (slice entry : Nat) : Statement (.ticketExpiry slice entry) := fun _ h => nomatch h
theorem queueFillArrival (u q slot gen : Nat) (value : BitVec 2048) (poison : Bool) : Statement (.queueFillArrival u q slot gen value poison) := fun _ h => nomatch h
theorem windowFill (u idx line : Nat) : Statement (.windowFill u idx line) := fun _ h => nomatch h
theorem matrixPipeStep (u : Nat) : Statement (.matrixPipeStep u) := fun _ h => nomatch h
theorem tileOpComplete (u : Nat) : Statement (.tileOpComplete u) := fun _ h => nomatch h
theorem tfetchSlotFill (u q slot gen g n st : Nat) (src : TrainElem) : Statement (.tfetchSlotFill u q slot gen g n st src) := fun _ h => nomatch h
theorem elementTrain (u die st w : Nat) (elems : List TrainElem) : Statement (.elementTrain u die st w elems) := fun _ h => nomatch h
theorem trainAck (u die st count : Nat) : Statement (.trainAck u die st count) := fun _ h => nomatch h
theorem reductionPerform (r : Reduction) : Statement (.reductionPerform r) := fun _ h => nomatch h
theorem reductionDrainExpiry (ctx : Nat) : Statement (.reductionDrainExpiry ctx) := fun _ h => nomatch h
theorem commandStart (die entry : Nat) : Statement (.commandStart die entry) := fun _ h => nomatch h
theorem engineElement (die entry : Nat) : Statement (.engineElement die entry) := fun _ h => nomatch h
theorem rowComplete (die entry : Nat) : Statement (.rowComplete die entry) := fun _ h => nomatch h
theorem commandEnd (die entry : Nat) : Statement (.commandEnd die entry) := fun _ h => nomatch h
theorem stageBlockAnnounce (launch src dst : Nat) : Statement (.stageBlockAnnounce launch src dst) := fun _ h => nomatch h
theorem stageBlockGrant (launch src dst : Nat) : Statement (.stageBlockGrant launch src dst) := fun _ h => nomatch h
theorem stageBlockPull (launch src dst : Nat) : Statement (.stageBlockPull launch src dst) := fun _ h => nomatch h
theorem gangStripGrant (ctx die port : Nat) : Statement (.gangStripGrant ctx die port) := fun _ h => nomatch h
theorem contextTeardown (ctx : Nat) : Statement (.contextTeardown ctx) := fun _ h => nomatch h
theorem launchRecordAccept (q : Nat) : Statement (.launchRecordAccept q) := fun _ h => nomatch h
theorem dispatch (die : Nat) : Statement (.dispatch die) := fun _ h => nomatch h
theorem starvationBoundExpiry (die : Nat) : Statement (.starvationBoundExpiry die) := fun _ h => nomatch h
theorem launchCompletion (launch : Nat) : Statement (.launchCompletion launch) := fun _ h => nomatch h
theorem gangAnnounceReceive (tag : BitVec 64) (index : Nat) : Statement (.gangAnnounceReceive tag index) := fun _ h => nomatch h
theorem gangTimeout (launch : Nat) : Statement (.gangTimeout launch) := fun _ h => nomatch h
theorem gangAbortReceive (tag : BitVec 64) : Statement (.gangAbortReceive tag) := fun _ h => nomatch h
theorem traceSample (core : Nat) : Statement (.traceSample core) := fun _ h => nomatch h
theorem replayHoldExpiry (die : Nat) : Statement (.replayHoldExpiry die) := fun _ h => nomatch h
theorem powerOnBringUp : Statement .powerOnBringUp := fun _ h => nomatch h
theorem doorbell (v : BitVec 64) : Statement (.doorbell v) := fun _ h => nomatch h
theorem quoteRequest (nonce : BitVec 256) : Statement (.quoteRequest nonce) := fun _ h => nomatch h
theorem quoteReady : Statement .quoteReady := fun _ h => nomatch h
theorem evstatClear (m : BitVec 64) : Statement (.evstatClear m) := fun _ h => nomatch h
theorem hostMemoryAccess (write : Bool) (pa size : Nat) (v : BitVec 64) : Statement (.hostMemoryAccess write pa size v) := fun _ h => nomatch h
theorem hostSnoop (line : Nat) : Statement (.hostSnoop line) := fun _ h => nomatch h
theorem hostLinkLoss (link : Nat) : Statement (.hostLinkLoss link) := fun _ h => nomatch h
theorem thermalThrottle (tj : BitVec 8) : Statement (.thermalThrottle tj) := fun _ h => nomatch h
theorem thermalShutdown (tj : BitVec 8) : Statement (.thermalShutdown tj) := fun _ h => nomatch h
theorem powerCapThrottle (rate : BitVec 7) : Statement (.powerCapThrottle rate) := fun _ h => nomatch h
theorem uncorrectedError (kind a b c : Nat) : Statement (.uncorrectedError kind a b c) := fun _ h => nomatch h
theorem unitFence (kind num : Nat) : Statement (.unitFence kind num) := fun _ h => nomatch h
theorem dcword7Commit (v : BitVec 64) : Statement (.dcword7Commit v) := fun _ h => nomatch h
theorem keyLoad : Statement .keyLoad := fun _ h => nomatch h
theorem keyErase : Statement .keyErase := fun _ h => nomatch h
theorem pwrcapWrite (v : BitVec 64) : Statement (.pwrcapWrite v) := fun _ h => nomatch h
theorem rplmodeWrite (v : BitVec 64) : Statement (.rplmodeWrite v) := fun _ h => nomatch h
theorem registerWrite (u : Nat) (n : BitVec 12) (v : BitVec 64) : Statement (.registerWrite u n v) := fun _ h => nomatch h
theorem correctedError (site : Nat) : Statement (.correctedError site) := fun _ h => nomatch h
theorem powerLoss : Statement .powerLoss := fun _ h => nomatch h
theorem contextCreation (c : ContextInit) : Statement (.contextCreation c) := fun _ h => nomatch h
theorem naingParcelMigrationRequest (ctx : Nat) (va : BitVec 64) (tier : Nat) : Statement (.naingParcelMigrationRequest ctx va tier) := fun _ h => nomatch h
theorem reserveFrameSupply (die frame : Nat) : Statement (.reserveFrameSupply die frame) := fun _ h => nomatch h
theorem counterTableEntryFree (die count : Nat) : Statement (.counterTableEntryFree die count) := fun _ h => nomatch h
theorem resumptionMark (u : Nat) : Statement (.resumptionMark u) := fun _ h => nomatch h
theorem naingLaunchEnd (launch : Nat) : Statement (.naingLaunchEnd launch) := fun _ h => nomatch h
theorem add (d : BitVec 6) (a : BitVec 6) (b : BitVec 6) (t : BitVec 1) (s : BitVec 1) : Statement (.add d a b t s) := fun _ h => Option.some.inj h ▸ fr_major _ _ _ _ _ _ _
theorem sub (d : BitVec 6) (a : BitVec 6) (b : BitVec 6) (t : BitVec 1) (s : BitVec 1) : Statement (.sub d a b t s) := fun _ h => Option.some.inj h ▸ fr_major _ _ _ _ _ _ _
theorem mul (d : BitVec 6) (a : BitVec 6) (b : BitVec 6) (t : BitVec 1) (s : BitVec 1) : Statement (.mul d a b t s) := fun _ h => Option.some.inj h ▸ fr_major _ _ _ _ _ _ _
theorem mulh (d : BitVec 6) (a : BitVec 6) (b : BitVec 6) (t : BitVec 1) (s : BitVec 1) : Statement (.mulh d a b t s) := fun _ h => Option.some.inj h ▸ fr_major _ _ _ _ _ _ _
theorem mulhn (d : BitVec 6) (a : BitVec 6) (b : BitVec 6) (t : BitVec 1) (s : BitVec 1) : Statement (.mulhn d a b t s) := fun _ h => Option.some.inj h ▸ fr_major _ _ _ _ _ _ _
theorem div (d : BitVec 6) (a : BitVec 6) (b : BitVec 6) (t : BitVec 1) (s : BitVec 1) : Statement (.div d a b t s) := fun _ h => Option.some.inj h ▸ fr_major _ _ _ _ _ _ _
theorem divn (d : BitVec 6) (a : BitVec 6) (b : BitVec 6) (t : BitVec 1) (s : BitVec 1) : Statement (.divn d a b t s) := fun _ h => Option.some.inj h ▸ fr_major _ _ _ _ _ _ _
theorem rem (d : BitVec 6) (a : BitVec 6) (b : BitVec 6) (t : BitVec 1) (s : BitVec 1) : Statement (.rem d a b t s) := fun _ h => Option.some.inj h ▸ fr_major _ _ _ _ _ _ _
theorem remn (d : BitVec 6) (a : BitVec 6) (b : BitVec 6) (t : BitVec 1) (s : BitVec 1) : Statement (.remn d a b t s) := fun _ h => Option.some.inj h ▸ fr_major _ _ _ _ _ _ _
theorem and (d : BitVec 6) (a : BitVec 6) (b : BitVec 6) (t : BitVec 1) (s : BitVec 1) : Statement (.and d a b t s) := fun _ h => Option.some.inj h ▸ fr_major _ _ _ _ _ _ _
theorem or (d : BitVec 6) (a : BitVec 6) (b : BitVec 6) (t : BitVec 1) (s : BitVec 1) : Statement (.or d a b t s) := fun _ h => Option.some.inj h ▸ fr_major _ _ _ _ _ _ _
theorem xor (d : BitVec 6) (a : BitVec 6) (b : BitVec 6) (t : BitVec 1) (s : BitVec 1) : Statement (.xor d a b t s) := fun _ h => Option.some.inj h ▸ fr_major _ _ _ _ _ _ _
theorem andn (d : BitVec 6) (a : BitVec 6) (b : BitVec 6) (t : BitVec 1) (s : BitVec 1) : Statement (.andn d a b t s) := fun _ h => Option.some.inj h ▸ fr_major _ _ _ _ _ _ _
theorem sll (d : BitVec 6) (a : BitVec 6) (b : BitVec 6) (t : BitVec 1) (s : BitVec 1) : Statement (.sll d a b t s) := fun _ h => Option.some.inj h ▸ fr_major _ _ _ _ _ _ _
theorem srl (d : BitVec 6) (a : BitVec 6) (b : BitVec 6) (t : BitVec 1) (s : BitVec 1) : Statement (.srl d a b t s) := fun _ h => Option.some.inj h ▸ fr_major _ _ _ _ _ _ _
theorem sra (d : BitVec 6) (a : BitVec 6) (b : BitVec 6) (t : BitVec 1) (s : BitVec 1) : Statement (.sra d a b t s) := fun _ h => Option.some.inj h ▸ fr_major _ _ _ _ _ _ _
theorem slli (d : BitVec 6) (a : BitVec 6) (h : BitVec 6) (t : BitVec 1) (s : BitVec 1) : Statement (.slli d a h t s) := fun _ h => Option.some.inj h ▸ fr_major _ _ _ _ _ _ _
theorem srli (d : BitVec 6) (a : BitVec 6) (h : BitVec 6) (t : BitVec 1) (s : BitVec 1) : Statement (.srli d a h t s) := fun _ h => Option.some.inj h ▸ fr_major _ _ _ _ _ _ _
theorem srai (d : BitVec 6) (a : BitVec 6) (h : BitVec 6) (t : BitVec 1) (s : BitVec 1) : Statement (.srai d a h t s) := fun _ h => Option.some.inj h ▸ fr_major _ _ _ _ _ _ _
theorem min (d : BitVec 6) (a : BitVec 6) (b : BitVec 6) (t : BitVec 1) (s : BitVec 1) : Statement (.min d a b t s) := fun _ h => Option.some.inj h ▸ fr_major _ _ _ _ _ _ _
theorem max (d : BitVec 6) (a : BitVec 6) (b : BitVec 6) (t : BitVec 1) (s : BitVec 1) : Statement (.max d a b t s) := fun _ h => Option.some.inj h ▸ fr_major _ _ _ _ _ _ _
theorem minn (d : BitVec 6) (a : BitVec 6) (b : BitVec 6) (t : BitVec 1) (s : BitVec 1) : Statement (.minn d a b t s) := fun _ h => Option.some.inj h ▸ fr_major _ _ _ _ _ _ _
theorem maxn (d : BitVec 6) (a : BitVec 6) (b : BitVec 6) (t : BitVec 1) (s : BitVec 1) : Statement (.maxn d a b t s) := fun _ h => Option.some.inj h ▸ fr_major _ _ _ _ _ _ _
theorem slt (d : BitVec 6) (a : BitVec 6) (b : BitVec 6) (t : BitVec 1) (s : BitVec 1) : Statement (.slt d a b t s) := fun _ h => Option.some.inj h ▸ fr_major _ _ _ _ _ _ _
theorem sltn (d : BitVec 6) (a : BitVec 6) (b : BitVec 6) (t : BitVec 1) (s : BitVec 1) : Statement (.sltn d a b t s) := fun _ h => Option.some.inj h ▸ fr_major _ _ _ _ _ _ _
theorem seq (d : BitVec 6) (a : BitVec 6) (b : BitVec 6) (t : BitVec 1) (s : BitVec 1) : Statement (.seq d a b t s) := fun _ h => Option.some.inj h ▸ fr_major _ _ _ _ _ _ _
theorem clz (d : BitVec 6) (a : BitVec 6) (t : BitVec 1) (s : BitVec 1) : Statement (.clz d a t s) := fun _ h => Option.some.inj h ▸ fr_major _ _ _ _ _ _ _
theorem ctz (d : BitVec 6) (a : BitVec 6) (t : BitVec 1) (s : BitVec 1) : Statement (.ctz d a t s) := fun _ h => Option.some.inj h ▸ fr_major _ _ _ _ _ _ _
theorem popc (d : BitVec 6) (a : BitVec 6) (t : BitVec 1) (s : BitVec 1) : Statement (.popc d a t s) := fun _ h => Option.some.inj h ▸ fr_major _ _ _ _ _ _ _
theorem rotr (d : BitVec 6) (a : BitVec 6) (b : BitVec 6) (t : BitVec 1) (s : BitVec 1) : Statement (.rotr d a b t s) := fun _ h => Option.some.inj h ▸ fr_major _ _ _ _ _ _ _
theorem brev (d : BitVec 6) (a : BitVec 6) (t : BitVec 1) (s : BitVec 1) : Statement (.brev d a t s) := fun _ h => Option.some.inj h ▸ fr_major _ _ _ _ _ _ _
theorem bswap (d : BitVec 6) (a : BitVec 6) (t : BitVec 1) (s : BitVec 1) : Statement (.bswap d a t s) := fun _ h => Option.some.inj h ▸ fr_major _ _ _ _ _ _ _
theorem addi (d : BitVec 6) (a : BitVec 6) (i : BitVec 14) : Statement (.addi d a i) := fun _ h => Option.some.inj h ▸ fi_major _ _ _ _
theorem andi (d : BitVec 6) (a : BitVec 6) (i : BitVec 14) : Statement (.andi d a i) := fun _ h => Option.some.inj h ▸ fi_major _ _ _ _
theorem ori (d : BitVec 6) (a : BitVec 6) (i : BitVec 14) : Statement (.ori d a i) := fun _ h => Option.some.inj h ▸ fi_major _ _ _ _
theorem xori (d : BitVec 6) (a : BitVec 6) (i : BitVec 14) : Statement (.xori d a i) := fun _ h => Option.some.inj h ▸ fi_major _ _ _ _
theorem slti (d : BitVec 6) (a : BitVec 6) (i : BitVec 14) : Statement (.slti d a i) := fun _ h => Option.some.inj h ▸ fi_major _ _ _ _
theorem sltni (d : BitVec 6) (a : BitVec 6) (i : BitVec 14) : Statement (.sltni d a i) := fun _ h => Option.some.inj h ▸ fi_major _ _ _ _
theorem lui (d : BitVec 6) (i : BitVec 20) : Statement (.lui d i) := fun _ h => Option.some.inj h ▸ fu_major _ _ _
theorem auipc (d : BitVec 6) (i : BitVec 20) : Statement (.auipc d i) := fun _ h => Option.some.inj h ▸ fu_major _ _ _
theorem jal (d : BitVec 6) (i : BitVec 20) : Statement (.jal d i) := fun _ h => Option.some.inj h ▸ fu_major _ _ _
theorem jalr (d : BitVec 6) (a : BitVec 6) (i : BitVec 14) : Statement (.jalr d a i) := fun _ h => Option.some.inj h ▸ fi_major _ _ _ _
theorem beq (a : BitVec 6) (b : BitVec 6) (o : BitVec 11) : Statement (.beq a b o) := fun _ h => Option.some.inj h ▸ fb_major _ _ _ _ _
theorem bne (a : BitVec 6) (b : BitVec 6) (o : BitVec 11) : Statement (.bne a b o) := fun _ h => Option.some.inj h ▸ fb_major _ _ _ _ _
theorem blt (a : BitVec 6) (b : BitVec 6) (o : BitVec 11) : Statement (.blt a b o) := fun _ h => Option.some.inj h ▸ fb_major _ _ _ _ _
theorem bge (a : BitVec 6) (b : BitVec 6) (o : BitVec 11) : Statement (.bge a b o) := fun _ h => Option.some.inj h ▸ fb_major _ _ _ _ _
theorem bltn (a : BitVec 6) (b : BitVec 6) (o : BitVec 11) : Statement (.bltn a b o) := fun _ h => Option.some.inj h ▸ fb_major _ _ _ _ _
theorem bgen (a : BitVec 6) (b : BitVec 6) (o : BitVec 11) : Statement (.bgen a b o) := fun _ h => Option.some.inj h ▸ fb_major _ _ _ _ _
theorem bqt (a : BitVec 6) (o : BitVec 11) : Statement (.bqt a o) := fun _ h => Option.some.inj h ▸ fb_major _ _ _ _ _
theorem bqf (a : BitVec 6) (o : BitVec 11) : Statement (.bqf a o) := fun _ h => Option.some.inj h ▸ fb_major _ _ _ _ _
theorem ld (d : BitVec 6) (b : BitVec 6) (o : BitVec 6) (w : BitVec 2) (s : BitVec 2) (r : BitVec 2) (c : BitVec 2) : Statement (.ld d b o w s r c) := fun _ h => Option.some.inj h ▸ fm_major _ _ _ _ _ _ _ _
theorem ldz (d : BitVec 6) (b : BitVec 6) (o : BitVec 6) (w : BitVec 2) (s : BitVec 2) (r : BitVec 2) (c : BitVec 2) : Statement (.ldz d b o w s r c) := fun _ h => Option.some.inj h ▸ fm_major _ _ _ _ _ _ _ _
theorem st (d : BitVec 6) (b : BitVec 6) (o : BitVec 6) (w : BitVec 2) (s : BitVec 2) (r : BitVec 2) (c : BitVec 2) : Statement (.st d b o w s r c) := fun _ h => Option.some.inj h ▸ fm_major _ _ _ _ _ _ _ _
theorem fadd (d : BitVec 6) (a : BitVec 6) (b : BitVec 6) (t : BitVec 2) (s : BitVec 1) : Statement (.fadd d a b t s) := fun _ h => Option.some.inj h ▸ fr_major _ _ _ _ _ _ _
theorem fsub (d : BitVec 6) (a : BitVec 6) (b : BitVec 6) (t : BitVec 2) (s : BitVec 1) : Statement (.fsub d a b t s) := fun _ h => Option.some.inj h ▸ fr_major _ _ _ _ _ _ _
theorem fmul (d : BitVec 6) (a : BitVec 6) (b : BitVec 6) (t : BitVec 2) (s : BitVec 1) : Statement (.fmul d a b t s) := fun _ h => Option.some.inj h ▸ fr_major _ _ _ _ _ _ _
theorem fmac (d : BitVec 6) (a : BitVec 6) (b : BitVec 6) (t : BitVec 2) (s : BitVec 1) : Statement (.fmac d a b t s) := fun _ h => Option.some.inj h ▸ fr_major _ _ _ _ _ _ _
theorem fnmac (d : BitVec 6) (a : BitVec 6) (b : BitVec 6) (t : BitVec 2) (s : BitVec 1) : Statement (.fnmac d a b t s) := fun _ h => Option.some.inj h ▸ fr_major _ _ _ _ _ _ _
theorem fdiv (d : BitVec 6) (a : BitVec 6) (b : BitVec 6) (t : BitVec 2) (s : BitVec 1) : Statement (.fdiv d a b t s) := fun _ h => Option.some.inj h ▸ fr_major _ _ _ _ _ _ _
theorem fsqrt (d : BitVec 6) (a : BitVec 6) (t : BitVec 2) (s : BitVec 1) : Statement (.fsqrt d a t s) := fun _ h => Option.some.inj h ▸ fr_major _ _ _ _ _ _ _
theorem fmin (d : BitVec 6) (a : BitVec 6) (b : BitVec 6) (t : BitVec 2) (s : BitVec 1) : Statement (.fmin d a b t s) := fun _ h => Option.some.inj h ▸ fr_major _ _ _ _ _ _ _
theorem fmax (d : BitVec 6) (a : BitVec 6) (b : BitVec 6) (t : BitVec 2) (s : BitVec 1) : Statement (.fmax d a b t s) := fun _ h => Option.some.inj h ▸ fr_major _ _ _ _ _ _ _
theorem feq (d : BitVec 6) (a : BitVec 6) (b : BitVec 6) (t : BitVec 2) (s : BitVec 1) : Statement (.feq d a b t s) := fun _ h => Option.some.inj h ▸ fr_major _ _ _ _ _ _ _
theorem flt (d : BitVec 6) (a : BitVec 6) (b : BitVec 6) (t : BitVec 2) (s : BitVec 1) : Statement (.flt d a b t s) := fun _ h => Option.some.inj h ▸ fr_major _ _ _ _ _ _ _
theorem fle (d : BitVec 6) (a : BitVec 6) (b : BitVec 6) (t : BitVec 2) (s : BitVec 1) : Statement (.fle d a b t s) := fun _ h => Option.some.inj h ▸ fr_major _ _ _ _ _ _ _
theorem fclass (d : BitVec 6) (a : BitVec 6) (t : BitVec 2) (s : BitVec 1) : Statement (.fclass d a t s) := fun _ h => Option.some.inj h ▸ fr_major _ _ _ _ _ _ _
theorem fcvti (d : BitVec 6) (a : BitVec 6) (m : BitVec 3) (f : BitVec 3) (t : BitVec 2) (s : BitVec 1) : Statement (.fcvti d a m f t s) := fun _ h => Option.some.inj h ▸ fr_major _ _ _ _ _ _ _
theorem fcvtf (d : BitVec 6) (a : BitVec 6) (m : BitVec 3) (f : BitVec 3) (t : BitVec 2) (s : BitVec 1) : Statement (.fcvtf d a m f t s) := fun _ h => Option.some.inj h ▸ fr_major _ _ _ _ _ _ _
theorem fcvtw (d : BitVec 6) (a : BitVec 6) (m : BitVec 3) (f : BitVec 2) (t : BitVec 2) (s : BitVec 1) : Statement (.fcvtw d a m f t s) := fun _ h => Option.some.inj h ▸ fr_major _ _ _ _ _ _ _
theorem fscpy (d : BitVec 6) (a : BitVec 6) (b : BitVec 6) (t : BitVec 2) (s : BitVec 1) : Statement (.fscpy d a b t s) := fun _ h => Option.some.inj h ▸ fr_major _ _ _ _ _ _ _
theorem fsneg (d : BitVec 6) (a : BitVec 6) (b : BitVec 6) (t : BitVec 2) (s : BitVec 1) : Statement (.fsneg d a b t s) := fun _ h => Option.some.inj h ▸ fr_major _ _ _ _ _ _ _
theorem fsxor (d : BitVec 6) (a : BitVec 6) (b : BitVec 6) (t : BitVec 2) (s : BitVec 1) : Statement (.fsxor d a b t s) := fun _ h => Option.some.inj h ▸ fr_major _ _ _ _ _ _ _
theorem csrrw (d : BitVec 6) (a : BitVec 6) (c : BitVec 12) : Statement (.csrrw d a c) := fun _ h => Option.some.inj h ▸ fs_major _ _ _ _ _
theorem csrrs (d : BitVec 6) (a : BitVec 6) (c : BitVec 12) : Statement (.csrrs d a c) := fun _ h => Option.some.inj h ▸ fs_major _ _ _ _ _
theorem csrrc (d : BitVec 6) (a : BitVec 6) (c : BitVec 12) : Statement (.csrrc d a c) := fun _ h => Option.some.inj h ▸ fs_major _ _ _ _ _
theorem csrr (d : BitVec 6) (c : BitVec 12) : Statement (.csrr d c) := fun _ h => Option.some.inj h ▸ fs_major _ _ _ _ _
theorem exit : Statement .exit := fun _ h => Option.some.inj h ▸ fr_major _ _ _ _ _ _ _
theorem yield : Statement .yield := fun _ h => Option.some.inj h ▸ fr_major _ _ _ _ _ _ _
theorem forkl (d : BitVec 6) (a : BitVec 6) : Statement (.forkl d a) := fun _ h => Option.some.inj h ▸ fr_major _ _ _ _ _ _ _
theorem joinl (d : BitVec 6) (a : BitVec 6) : Statement (.joinl d a) := fun _ h => Option.some.inj h ▸ fr_major _ _ _ _ _ _ _
theorem loop (a : BitVec 6) (n : BitVec 2) : Statement (.loop a n) := fun _ h => Option.some.inj h ▸ fr_major _ _ _ _ _ _ _
theorem endloop (n : BitVec 2) : Statement (.endloop n) := fun _ h => Option.some.inj h ▸ fr_major _ _ _ _ _ _ _
theorem lidx (d : BitVec 6) (s : BitVec 6) : Statement (.lidx d s) := fun _ h => Option.some.inj h ▸ fr_major _ _ _ _ _ _ _
theorem sidx (a : BitVec 6) (n : BitVec 2) : Statement (.sidx a n) := fun _ h => Option.some.inj h ▸ fr_major _ _ _ _ _ _ _
theorem hint (c : BitVec 6) : Statement (.hint c) := fun _ h => Option.some.inj h ▸ fr_major _ _ _ _ _ _ _
theorem migr (d : BitVec 6) (a : BitVec 6) : Statement (.migr d a) := fun _ h => Option.some.inj h ▸ fr_major _ _ _ _ _ _ _
theorem qcfg (d : BitVec 6) (a : BitVec 6) : Statement (.qcfg d a) := fun _ h => Option.some.inj h ▸ fr_major _ _ _ _ _ _ _
theorem qadv (a : BitVec 6) (b : BitVec 6) : Statement (.qadv a b) := fun _ h => Option.some.inj h ▸ fr_major _ _ _ _ _ _ _
theorem qcommit (a : BitVec 6) : Statement (.qcommit a) := fun _ h => Option.some.inj h ▸ fr_major _ _ _ _ _ _ _
theorem qfill (d : BitVec 6) (a : BitVec 6) : Statement (.qfill d a) := fun _ h => Option.some.inj h ▸ fr_major _ _ _ _ _ _ _
theorem qfree (d : BitVec 6) (a : BitVec 6) : Statement (.qfree d a) := fun _ h => Option.some.inj h ▸ fr_major _ _ _ _ _ _ _
theorem qreset (a : BitVec 6) : Statement (.qreset a) := fun _ h => Option.some.inj h ▸ fr_major _ _ _ _ _ _ _
theorem qdrain (a : BitVec 6) : Statement (.qdrain a) := fun _ h => Option.some.inj h ▸ fr_major _ _ _ _ _ _ _
theorem xput (d : BitVec 6) (a : BitVec 6) : Statement (.xput d a) := fun _ h => Option.some.inj h ▸ fr_major _ _ _ _ _ _ _
theorem fset (d : BitVec 6) : Statement (.fset d) := fun _ h => Option.some.inj h ▸ fr_major _ _ _ _ _ _ _
theorem fclr (d : BitVec 6) : Statement (.fclr d) := fun _ h => Option.some.inj h ▸ fr_major _ _ _ _ _ _ _
theorem ftest (d : BitVec 6) (a : BitVec 6) : Statement (.ftest d a) := fun _ h => Option.some.inj h ▸ fr_major _ _ _ _ _ _ _
theorem vadd (d : BitVec 6) (a : BitVec 6) (b : BitVec 6) (t : BitVec 2) (x : BitVec 1) : Statement (.vadd d a b t x) := fun _ h => Option.some.inj h ▸ fr_major _ _ _ _ _ _ _
theorem vsub (d : BitVec 6) (a : BitVec 6) (b : BitVec 6) (t : BitVec 2) (x : BitVec 1) : Statement (.vsub d a b t x) := fun _ h => Option.some.inj h ▸ fr_major _ _ _ _ _ _ _
theorem vmul (d : BitVec 6) (a : BitVec 6) (b : BitVec 6) (t : BitVec 2) (x : BitVec 1) : Statement (.vmul d a b t x) := fun _ h => Option.some.inj h ▸ fr_major _ _ _ _ _ _ _
theorem vmulh (d : BitVec 6) (a : BitVec 6) (b : BitVec 6) (t : BitVec 2) (x : BitVec 1) : Statement (.vmulh d a b t x) := fun _ h => Option.some.inj h ▸ fr_major _ _ _ _ _ _ _
theorem vmac (d : BitVec 6) (a : BitVec 6) (b : BitVec 6) (t : BitVec 2) (x : BitVec 1) : Statement (.vmac d a b t x) := fun _ h => Option.some.inj h ▸ fr_major _ _ _ _ _ _ _
theorem vdiv (d : BitVec 6) (a : BitVec 6) (b : BitVec 6) (t : BitVec 2) (x : BitVec 1) : Statement (.vdiv d a b t x) := fun _ h => Option.some.inj h ▸ fr_major _ _ _ _ _ _ _
theorem vdivn (d : BitVec 6) (a : BitVec 6) (b : BitVec 6) (t : BitVec 2) (x : BitVec 1) : Statement (.vdivn d a b t x) := fun _ h => Option.some.inj h ▸ fr_major _ _ _ _ _ _ _
theorem vrem (d : BitVec 6) (a : BitVec 6) (b : BitVec 6) (t : BitVec 2) (x : BitVec 1) : Statement (.vrem d a b t x) := fun _ h => Option.some.inj h ▸ fr_major _ _ _ _ _ _ _
theorem vmin (d : BitVec 6) (a : BitVec 6) (b : BitVec 6) (t : BitVec 2) (x : BitVec 1) : Statement (.vmin d a b t x) := fun _ h => Option.some.inj h ▸ fr_major _ _ _ _ _ _ _
theorem vmax (d : BitVec 6) (a : BitVec 6) (b : BitVec 6) (t : BitVec 2) (x : BitVec 1) : Statement (.vmax d a b t x) := fun _ h => Option.some.inj h ▸ fr_major _ _ _ _ _ _ _
theorem vminn (d : BitVec 6) (a : BitVec 6) (b : BitVec 6) (t : BitVec 2) (x : BitVec 1) : Statement (.vminn d a b t x) := fun _ h => Option.some.inj h ▸ fr_major _ _ _ _ _ _ _
theorem vmaxn (d : BitVec 6) (a : BitVec 6) (b : BitVec 6) (t : BitVec 2) (x : BitVec 1) : Statement (.vmaxn d a b t x) := fun _ h => Option.some.inj h ▸ fr_major _ _ _ _ _ _ _
theorem vand (d : BitVec 6) (a : BitVec 6) (b : BitVec 6) (t : BitVec 2) (x : BitVec 1) : Statement (.vand d a b t x) := fun _ h => Option.some.inj h ▸ fr_major _ _ _ _ _ _ _
theorem vor (d : BitVec 6) (a : BitVec 6) (b : BitVec 6) (t : BitVec 2) (x : BitVec 1) : Statement (.vor d a b t x) := fun _ h => Option.some.inj h ▸ fr_major _ _ _ _ _ _ _
theorem vxor (d : BitVec 6) (a : BitVec 6) (b : BitVec 6) (t : BitVec 2) (x : BitVec 1) : Statement (.vxor d a b t x) := fun _ h => Option.some.inj h ▸ fr_major _ _ _ _ _ _ _
theorem vsll (d : BitVec 6) (a : BitVec 6) (b : BitVec 6) (t : BitVec 2) (x : BitVec 1) : Statement (.vsll d a b t x) := fun _ h => Option.some.inj h ▸ fr_major _ _ _ _ _ _ _
theorem vsrl (d : BitVec 6) (a : BitVec 6) (b : BitVec 6) (t : BitVec 2) (x : BitVec 1) : Statement (.vsrl d a b t x) := fun _ h => Option.some.inj h ▸ fr_major _ _ _ _ _ _ _
theorem vsra (d : BitVec 6) (a : BitVec 6) (b : BitVec 6) (t : BitVec 2) (x : BitVec 1) : Statement (.vsra d a b t x) := fun _ h => Option.some.inj h ▸ fr_major _ _ _ _ _ _ _
theorem vsadd (d : BitVec 6) (a : BitVec 6) (b : BitVec 6) (t : BitVec 2) (x : BitVec 1) : Statement (.vsadd d a b t x) := fun _ h => Option.some.inj h ▸ fr_major _ _ _ _ _ _ _
theorem vssub (d : BitVec 6) (a : BitVec 6) (b : BitVec 6) (t : BitVec 2) (x : BitVec 1) : Statement (.vssub d a b t x) := fun _ h => Option.some.inj h ▸ fr_major _ _ _ _ _ _ _
theorem vabs (d : BitVec 6) (a : BitVec 6) (t : BitVec 2) : Statement (.vabs d a t) := fun _ h => Option.some.inj h ▸ fr_major _ _ _ _ _ _ _
theorem vneg (d : BitVec 6) (a : BitVec 6) (t : BitVec 2) : Statement (.vneg d a t) := fun _ h => Option.some.inj h ▸ fr_major _ _ _ _ _ _ _
theorem vredsum (d : BitVec 6) (a : BitVec 6) (b : BitVec 6) (t : BitVec 2) : Statement (.vredsum d a b t) := fun _ h => Option.some.inj h ▸ fr_major _ _ _ _ _ _ _
theorem vredmin (d : BitVec 6) (a : BitVec 6) (b : BitVec 6) (t : BitVec 2) : Statement (.vredmin d a b t) := fun _ h => Option.some.inj h ▸ fr_major _ _ _ _ _ _ _
theorem vredmax (d : BitVec 6) (a : BitVec 6) (b : BitVec 6) (t : BitVec 2) : Statement (.vredmax d a b t) := fun _ h => Option.some.inj h ▸ fr_major _ _ _ _ _ _ _
theorem vfadd (d : BitVec 6) (a : BitVec 6) (b : BitVec 6) (t : BitVec 2) (x : BitVec 1) : Statement (.vfadd d a b t x) := fun _ h => Option.some.inj h ▸ fr_major _ _ _ _ _ _ _
theorem vfsub (d : BitVec 6) (a : BitVec 6) (b : BitVec 6) (t : BitVec 2) (x : BitVec 1) : Statement (.vfsub d a b t x) := fun _ h => Option.some.inj h ▸ fr_major _ _ _ _ _ _ _
theorem vfmul (d : BitVec 6) (a : BitVec 6) (b : BitVec 6) (t : BitVec 2) (x : BitVec 1) : Statement (.vfmul d a b t x) := fun _ h => Option.some.inj h ▸ fr_major _ _ _ _ _ _ _
theorem vfma (d : BitVec 6) (a : BitVec 6) (b : BitVec 6) (t : BitVec 2) (x : BitVec 1) : Statement (.vfma d a b t x) := fun _ h => Option.some.inj h ▸ fr_major _ _ _ _ _ _ _
theorem vfnma (d : BitVec 6) (a : BitVec 6) (b : BitVec 6) (t : BitVec 2) (x : BitVec 1) : Statement (.vfnma d a b t x) := fun _ h => Option.some.inj h ▸ fr_major _ _ _ _ _ _ _
theorem vfdiv (d : BitVec 6) (a : BitVec 6) (b : BitVec 6) (t : BitVec 2) (x : BitVec 1) : Statement (.vfdiv d a b t x) := fun _ h => Option.some.inj h ▸ fr_major _ _ _ _ _ _ _
theorem vfsqrt (d : BitVec 6) (a : BitVec 6) (t : BitVec 2) : Statement (.vfsqrt d a t) := fun _ h => Option.some.inj h ▸ fr_major _ _ _ _ _ _ _
theorem vfexp2 (d : BitVec 6) (a : BitVec 6) : Statement (.vfexp2 d a) := fun _ h => Option.some.inj h ▸ fr_major _ _ _ _ _ _ _
theorem vflog2 (d : BitVec 6) (a : BitVec 6) : Statement (.vflog2 d a) := fun _ h => Option.some.inj h ▸ fr_major _ _ _ _ _ _ _
theorem vfmin (d : BitVec 6) (a : BitVec 6) (b : BitVec 6) (t : BitVec 2) (x : BitVec 1) : Statement (.vfmin d a b t x) := fun _ h => Option.some.inj h ▸ fr_major _ _ _ _ _ _ _
theorem vfmax (d : BitVec 6) (a : BitVec 6) (b : BitVec 6) (t : BitVec 2) (x : BitVec 1) : Statement (.vfmax d a b t x) := fun _ h => Option.some.inj h ▸ fr_major _ _ _ _ _ _ _
theorem vfabs (d : BitVec 6) (a : BitVec 6) (t : BitVec 2) : Statement (.vfabs d a t) := fun _ h => Option.some.inj h ▸ fr_major _ _ _ _ _ _ _
theorem vfneg (d : BitVec 6) (a : BitVec 6) (t : BitVec 2) : Statement (.vfneg d a t) := fun _ h => Option.some.inj h ▸ fr_major _ _ _ _ _ _ _
theorem vfcvt (d : BitVec 6) (a : BitVec 6) (e : BitVec 3) (f : BitVec 3) : Statement (.vfcvt d a e f) := fun _ h => Option.some.inj h ▸ fr_major _ _ _ _ _ _ _
theorem vfredo (d : BitVec 6) (a : BitVec 6) (b : BitVec 6) (t : BitVec 2) : Statement (.vfredo d a b t) := fun _ h => Option.some.inj h ▸ fr_major _ _ _ _ _ _ _
theorem vfredt (d : BitVec 6) (a : BitVec 6) (b : BitVec 6) (t : BitVec 2) : Statement (.vfredt d a b t) := fun _ h => Option.some.inj h ▸ fr_major _ _ _ _ _ _ _
theorem vfredmax (d : BitVec 6) (a : BitVec 6) (b : BitVec 6) (t : BitVec 2) : Statement (.vfredmax d a b t) := fun _ h => Option.some.inj h ▸ fr_major _ _ _ _ _ _ _
theorem vfredmin (d : BitVec 6) (a : BitVec 6) (b : BitVec 6) (t : BitVec 2) : Statement (.vfredmin d a b t) := fun _ h => Option.some.inj h ▸ fr_major _ _ _ _ _ _ _
theorem vfscale (d : BitVec 6) (a : BitVec 6) (b : BitVec 6) (t : BitVec 2) (x : BitVec 1) : Statement (.vfscale d a b t x) := fun _ h => Option.some.inj h ▸ fr_major _ _ _ _ _ _ _
theorem vceq (d : BitVec 6) (a : BitVec 6) (b : BitVec 6) (t : BitVec 2) (x : BitVec 1) : Statement (.vceq d a b t x) := fun _ h => Option.some.inj h ▸ fr_major _ _ _ _ _ _ _
theorem vcne (d : BitVec 6) (a : BitVec 6) (b : BitVec 6) (t : BitVec 2) (x : BitVec 1) : Statement (.vcne d a b t x) := fun _ h => Option.some.inj h ▸ fr_major _ _ _ _ _ _ _
theorem vclt (d : BitVec 6) (a : BitVec 6) (b : BitVec 6) (t : BitVec 2) (x : BitVec 1) : Statement (.vclt d a b t x) := fun _ h => Option.some.inj h ▸ fr_major _ _ _ _ _ _ _
theorem vcle (d : BitVec 6) (a : BitVec 6) (b : BitVec 6) (t : BitVec 2) (x : BitVec 1) : Statement (.vcle d a b t x) := fun _ h => Option.some.inj h ▸ fr_major _ _ _ _ _ _ _
theorem vcltn (d : BitVec 6) (a : BitVec 6) (b : BitVec 6) (t : BitVec 2) (x : BitVec 1) : Statement (.vcltn d a b t x) := fun _ h => Option.some.inj h ▸ fr_major _ _ _ _ _ _ _
theorem vclen (d : BitVec 6) (a : BitVec 6) (b : BitVec 6) (t : BitVec 2) (x : BitVec 1) : Statement (.vclen d a b t x) := fun _ h => Option.some.inj h ▸ fr_major _ _ _ _ _ _ _
theorem vfceq (d : BitVec 6) (a : BitVec 6) (b : BitVec 6) (t : BitVec 2) (x : BitVec 1) : Statement (.vfceq d a b t x) := fun _ h => Option.some.inj h ▸ fr_major _ _ _ _ _ _ _
theorem vfclt (d : BitVec 6) (a : BitVec 6) (b : BitVec 6) (t : BitVec 2) (x : BitVec 1) : Statement (.vfclt d a b t x) := fun _ h => Option.some.inj h ▸ fr_major _ _ _ _ _ _ _
theorem vfcle (d : BitVec 6) (a : BitVec 6) (b : BitVec 6) (t : BitVec 2) (x : BitVec 1) : Statement (.vfcle d a b t x) := fun _ h => Option.some.inj h ▸ fr_major _ _ _ _ _ _ _
theorem vfcun (d : BitVec 6) (a : BitVec 6) (b : BitVec 6) (t : BitVec 2) (x : BitVec 1) : Statement (.vfcun d a b t x) := fun _ h => Option.some.inj h ▸ fr_major _ _ _ _ _ _ _
theorem pand (d : BitVec 6) (a : BitVec 6) (b : BitVec 6) : Statement (.pand d a b) := fun _ h => Option.some.inj h ▸ fr_major _ _ _ _ _ _ _
theorem por (d : BitVec 6) (a : BitVec 6) (b : BitVec 6) : Statement (.por d a b) := fun _ h => Option.some.inj h ▸ fr_major _ _ _ _ _ _ _
theorem pxor (d : BitVec 6) (a : BitVec 6) (b : BitVec 6) : Statement (.pxor d a b) := fun _ h => Option.some.inj h ▸ fr_major _ _ _ _ _ _ _
theorem pandn (d : BitVec 6) (a : BitVec 6) (b : BitVec 6) : Statement (.pandn d a b) := fun _ h => Option.some.inj h ▸ fr_major _ _ _ _ _ _ _
theorem pnot (d : BitVec 6) (a : BitVec 6) : Statement (.pnot d a) := fun _ h => Option.some.inj h ▸ fr_major _ _ _ _ _ _ _
theorem psbf (d : BitVec 6) (a : BitVec 6) : Statement (.psbf d a) := fun _ h => Option.some.inj h ▸ fr_major _ _ _ _ _ _ _
theorem psif (d : BitVec 6) (a : BitVec 6) : Statement (.psif d a) := fun _ h => Option.some.inj h ▸ fr_major _ _ _ _ _ _ _
theorem psof (d : BitVec 6) (a : BitVec 6) : Statement (.psof d a) := fun _ h => Option.some.inj h ▸ fr_major _ _ _ _ _ _ _
theorem pcnt (d : BitVec 6) (a : BitVec 6) : Statement (.pcnt d a) := fun _ h => Option.some.inj h ▸ fr_major _ _ _ _ _ _ _
theorem pfirst (d : BitVec 6) (a : BitVec 6) : Statement (.pfirst d a) := fun _ h => Option.some.inj h ▸ fr_major _ _ _ _ _ _ _
theorem pset (d : BitVec 6) : Statement (.pset d) := fun _ h => Option.some.inj h ▸ fr_major _ _ _ _ _ _ _
theorem pclr (d : BitVec 6) : Statement (.pclr d) := fun _ h => Option.some.inj h ▸ fr_major _ _ _ _ _ _ _
theorem pfromx (d : BitVec 6) (a : BitVec 6) (k : BitVec 2) : Statement (.pfromx d a k) := fun _ h => Option.some.inj h ▸ fr_major _ _ _ _ _ _ _
theorem ptox (d : BitVec 6) (a : BitVec 6) (k : BitVec 2) : Statement (.ptox d a k) := fun _ h => Option.some.inj h ▸ fr_major _ _ _ _ _ _ _
theorem vcompress (d : BitVec 6) (a : BitVec 6) (t : BitVec 2) : Statement (.vcompress d a t) := fun _ h => Option.some.inj h ▸ fr_major _ _ _ _ _ _ _
theorem vexpand (d : BitVec 6) (a : BitVec 6) (t : BitVec 2) : Statement (.vexpand d a t) := fun _ h => Option.some.inj h ▸ fr_major _ _ _ _ _ _ _
theorem vslideup (d : BitVec 6) (a : BitVec 6) (b : BitVec 6) (t : BitVec 2) (x : BitVec 1) : Statement (.vslideup d a b t x) := fun _ h => Option.some.inj h ▸ fr_major _ _ _ _ _ _ _
theorem vslidedn (d : BitVec 6) (a : BitVec 6) (b : BitVec 6) (t : BitVec 2) (x : BitVec 1) : Statement (.vslidedn d a b t x) := fun _ h => Option.some.inj h ▸ fr_major _ _ _ _ _ _ _
theorem vpermx (d : BitVec 6) (a : BitVec 6) (b : BitVec 6) (t : BitVec 2) : Statement (.vpermx d a b t) := fun _ h => Option.some.inj h ▸ fr_major _ _ _ _ _ _ _
theorem vbcast (d : BitVec 6) (a : BitVec 6) (k : BitVec 6) (t : BitVec 2) : Statement (.vbcast d a k t) := fun _ h => Option.some.inj h ▸ fr_major _ _ _ _ _ _ _
theorem vextx (d : BitVec 6) (a : BitVec 6) (b : BitVec 6) (t : BitVec 2) : Statement (.vextx d a b t) := fun _ h => Option.some.inj h ▸ fr_major _ _ _ _ _ _ _
theorem vinsx (d : BitVec 6) (a : BitVec 6) (b : BitVec 6) (t : BitVec 2) : Statement (.vinsx d a b t) := fun _ h => Option.some.inj h ▸ fr_major _ _ _ _ _ _ _
theorem viota (d : BitVec 6) (a : BitVec 6) (b : BitVec 6) (t : BitVec 2) : Statement (.viota d a b t) := fun _ h => Option.some.inj h ▸ fr_major _ _ _ _ _ _ _
theorem vmov (d : BitVec 6) (a : BitVec 6) (t : BitVec 2) : Statement (.vmov d a t) := fun _ h => Option.some.inj h ▸ fr_major _ _ _ _ _ _ _
theorem vzip (d : BitVec 6) (a : BitVec 6) (b : BitVec 6) (t : BitVec 2) : Statement (.vzip d a b t) := fun _ h => Option.some.inj h ▸ fr_major _ _ _ _ _ _ _
theorem vunzip (d : BitVec 6) (a : BitVec 6) (b : BitVec 6) (t : BitVec 2) : Statement (.vunzip d a b t) := fun _ h => Option.some.inj h ▸ fr_major _ _ _ _ _ _ _
theorem vld (d : BitVec 6) (b : BitVec 6) (w : BitVec 2) (s : BitVec 2) (h : BitVec 1) : Statement (.vld d b w s h) := fun _ h => Option.some.inj h ▸ fv_major _ _ _ _ _ _ _ _
theorem vlds (d : BitVec 6) (b : BitVec 6) (w : BitVec 2) (s : BitVec 2) (h : BitVec 1) : Statement (.vlds d b w s h) := fun _ h => Option.some.inj h ▸ fv_major _ _ _ _ _ _ _ _
theorem vldx (d : BitVec 6) (b : BitVec 6) (i : BitVec 6) (w : BitVec 2) (s : BitVec 2) (h : BitVec 1) : Statement (.vldx d b i w s h) := fun _ h => Option.some.inj h ▸ fv_major _ _ _ _ _ _ _ _
theorem vldff (d : BitVec 6) (b : BitVec 6) (w : BitVec 2) (s : BitVec 2) (h : BitVec 1) : Statement (.vldff d b w s h) := fun _ h => Option.some.inj h ▸ fv_major _ _ _ _ _ _ _ _
theorem vldb (d : BitVec 6) (b : BitVec 6) (w : BitVec 2) (s : BitVec 2) (h : BitVec 1) : Statement (.vldb d b w s h) := fun _ h => Option.some.inj h ▸ fv_major _ _ _ _ _ _ _ _
theorem vst (d : BitVec 6) (b : BitVec 6) (w : BitVec 2) (s : BitVec 2) (h : BitVec 1) : Statement (.vst d b w s h) := fun _ h => Option.some.inj h ▸ fv_major _ _ _ _ _ _ _ _
theorem vsts (d : BitVec 6) (b : BitVec 6) (w : BitVec 2) (s : BitVec 2) (h : BitVec 1) : Statement (.vsts d b w s h) := fun _ h => Option.some.inj h ▸ fv_major _ _ _ _ _ _ _ _
theorem vstx (d : BitVec 6) (b : BitVec 6) (i : BitVec 6) (w : BitVec 2) (s : BitVec 2) (h : BitVec 1) : Statement (.vstx d b i w s h) := fun _ h => Option.some.inj h ▸ fv_major _ _ _ _ _ _ _ _
theorem vstxr (d : BitVec 6) (b : BitVec 6) (i : BitVec 6) (w : BitVec 2) (s : BitVec 2) (h : BitVec 1) : Statement (.vstxr d b i w s h) := fun _ h => Option.some.inj h ▸ fv_major _ _ _ _ _ _ _ _
theorem setvl (d : BitVec 6) (a : BitVec 6) (t : BitVec 2) : Statement (.setvl d a t) := fun _ h => Option.some.inj h ▸ fr_major _ _ _ _ _ _ _
theorem setvli (d : BitVec 6) (i : BitVec 12) (t : BitVec 2) : Statement (.setvli d i t) := fun _ h => Option.some.inj h ▸ fr_major _ _ _ _ _ _ _
theorem setms (a : BitVec 6) (m : BitVec 1) : Statement (.setms a m) := fun _ h => Option.some.inj h ▸ fr_major _ _ _ _ _ _ _
theorem setst (a : BitVec 6) : Statement (.setst a) := fun _ h => Option.some.inj h ▸ fr_major _ _ _ _ _ _ _
theorem scput (d : BitVec 6) (a : BitVec 6) (t : BitVec 2) : Statement (.scput d a t) := fun _ h => Option.some.inj h ▸ fr_major _ _ _ _ _ _ _
theorem sctake (d : BitVec 6) (t : BitVec 2) : Statement (.sctake d t) := fun _ h => Option.some.inj h ▸ fr_major _ _ _ _ _ _ _
theorem scflush (d : BitVec 6) : Statement (.scflush d) := fun _ h => Option.some.inj h ▸ fr_major _ _ _ _ _ _ _
theorem scstat (d : BitVec 6) : Statement (.scstat d) := fun _ h => Option.some.inj h ▸ fr_major _ _ _ _ _ _ _
theorem ten (d : BitVec 6) (c : BitVec 3) (b : BitVec 6) : Statement (.ten d c b) := fun _ h => Option.some.inj h ▸ fr_major _ _ _ _ _ _ _
theorem tdis (c : BitVec 3) : Statement (.tdis c) := fun _ h => Option.some.inj h ▸ fr_major _ _ _ _ _ _ _
theorem tzero (c : BitVec 3) : Statement (.tzero c) := fun _ h => Option.some.inj h ▸ fr_major _ _ _ _ _ _ _
theorem tpred (d : BitVec 6) (c : BitVec 3) (b : BitVec 6) : Statement (.tpred d c b) := fun _ h => Option.some.inj h ▸ fr_major _ _ _ _ _ _ _
theorem tmovr (d : BitVec 6) (c : BitVec 3) (b : BitVec 6) : Statement (.tmovr d c b) := fun _ h => Option.some.inj h ▸ fr_major _ _ _ _ _ _ _
theorem tmovc (d : BitVec 6) (c : BitVec 3) (b : BitVec 6) : Statement (.tmovc d c b) := fun _ h => Option.some.inj h ▸ fr_major _ _ _ _ _ _ _
theorem tsetr (c : BitVec 3) (a : BitVec 6) (b : BitVec 6) : Statement (.tsetr c a b) := fun _ h => Option.some.inj h ▸ fr_major _ _ _ _ _ _ _
theorem tsetc (c : BitVec 3) (a : BitVec 6) (b : BitVec 6) : Statement (.tsetc c a b) := fun _ h => Option.some.inj h ▸ fr_major _ _ _ _ _ _ _
theorem tfold (c : BitVec 3) (e : BitVec 3) : Statement (.tfold c e) := fun _ h => Option.some.inj h ▸ fr_major _ _ _ _ _ _ _
theorem tdrain (d : BitVec 6) (c : BitVec 3) (b : BitVec 6) (t : BitVec 2) : Statement (.tdrain d c b t) := fun _ h => Option.some.inj h ▸ fr_major _ _ _ _ _ _ _
theorem tfetch (d : BitVec 6) (a : BitVec 6) (b : BitVec 6) : Statement (.tfetch d a b) := fun _ h => Option.some.inj h ▸ fr_major _ _ _ _ _ _ _
theorem tscl (c : BitVec 3) (a : BitVec 6) : Statement (.tscl c a) := fun _ h => Option.some.inj h ▸ fr_major _ _ _ _ _ _ _
theorem tstat (d : BitVec 6) (c : BitVec 3) (s : BitVec 2) : Statement (.tstat d c s) := fun _ h => Option.some.inj h ▸ fr_major _ _ _ _ _ _ _
theorem top (t : BitVec 3) (a : BitVec 6) (b : BitVec 6) (r : BitVec 4) (y : BitVec 3) (n : BitVec 1) (z : BitVec 1) : Statement (.top t a b r y n z) := fun _ h => Option.some.inj h ▸ fx_major _ _ _ _ _ _ _ _ _
theorem tops (t : BitVec 3) (a : BitVec 6) (b : BitVec 6) (r : BitVec 4) (y : BitVec 3) (n : BitVec 1) (z : BitVec 1) : Statement (.tops t a b r y n z) := fun _ h => Option.some.inj h ▸ fx_major _ _ _ _ _ _ _ _ _
theorem topl (t : BitVec 3) (b : BitVec 6) (r : BitVec 4) (y : BitVec 3) (n : BitVec 1) (z : BitVec 1) : Statement (.topl t b r y n z) := fun _ h => Option.some.inj h ▸ fx_major _ _ _ _ _ _ _ _ _
theorem wmap (d : BitVec 6) (a : BitVec 6) (b : BitVec 6) : Statement (.wmap d a b) := fun _ h => Option.some.inj h ▸ fr_major _ _ _ _ _ _ _
theorem wunmap (v : BitVec 1) (n : BitVec 2) : Statement (.wunmap v n) := fun _ h => Option.some.inj h ▸ fr_major _ _ _ _ _ _ _
theorem wflush (a : BitVec 6) (n : BitVec 2) : Statement (.wflush a n) := fun _ h => Option.some.inj h ▸ fr_major _ _ _ _ _ _ _
theorem winv (a : BitVec 6) (v : BitVec 1) (n : BitVec 2) : Statement (.winv a v n) := fun _ h => Option.some.inj h ▸ fr_major _ _ _ _ _ _ _
theorem wstat (d : BitVec 6) (v : BitVec 1) (n : BitVec 2) : Statement (.wstat d v n) := fun _ h => Option.some.inj h ▸ fr_major _ _ _ _ _ _ _
theorem wtouch (a : BitVec 6) (n : BitVec 2) : Statement (.wtouch a n) := fun _ h => Option.some.inj h ▸ fr_major _ _ _ _ _ _ _
theorem wkeep (v : BitVec 1) (n : BitVec 2) : Statement (.wkeep v n) := fun _ h => Option.some.inj h ▸ fr_major _ _ _ _ _ _ _
theorem tkld (d : BitVec 6) (a : BitVec 6) (s : BitVec 2) (t : BitVec 2) (z : BitVec 1) : Statement (.tkld d a s t z) := fun _ h => Option.some.inj h ▸ fr_major _ _ _ _ _ _ _
theorem tkldw (d : BitVec 6) (a : BitVec 6) (s : BitVec 2) (t : BitVec 2) (z : BitVec 1) : Statement (.tkldw d a s t z) := fun _ h => Option.some.inj h ▸ fr_major _ _ _ _ _ _ _
theorem tkldv (d : BitVec 6) (a : BitVec 6) (s : BitVec 2) : Statement (.tkldv d a s) := fun _ h => Option.some.inj h ▸ fr_major _ _ _ _ _ _ _
theorem tkrd (d : BitVec 6) (a : BitVec 6) : Statement (.tkrd d a) := fun _ h => Option.some.inj h ▸ fr_major _ _ _ _ _ _ _
theorem tkrdv (d : BitVec 6) (a : BitVec 6) : Statement (.tkrdv d a) := fun _ h => Option.some.inj h ▸ fr_major _ _ _ _ _ _ _
theorem tkrdq (d : BitVec 6) (a : BitVec 6) : Statement (.tkrdq d a) := fun _ h => Option.some.inj h ▸ fr_major _ _ _ _ _ _ _
theorem tktest (d : BitVec 6) (a : BitVec 6) : Statement (.tktest d a) := fun _ h => Option.some.inj h ▸ fr_major _ _ _ _ _ _ _
theorem tkdrop (d : BitVec 6) (a : BitVec 6) : Statement (.tkdrop d a) := fun _ h => Option.some.inj h ▸ fr_major _ _ _ _ _ _ _
theorem pqry (d : BitVec 6) (a : BitVec 6) : Statement (.pqry d a) := fun _ h => Option.some.inj h ▸ fr_major _ _ _ _ _ _ _
theorem phint (a : BitVec 6) (c : BitVec 6) : Statement (.phint a c) := fun _ h => Option.some.inj h ▸ fr_major _ _ _ _ _ _ _
theorem plogq (d : BitVec 6) (a : BitVec 6) : Statement (.plogq d a) := fun _ h => Option.some.inj h ▸ fr_major _ _ _ _ _ _ _
theorem pfetch (d : BitVec 6) (a : BitVec 6) : Statement (.pfetch d a) := fun _ h => Option.some.inj h ▸ fr_major _ _ _ _ _ _ _
theorem pmigr (d : BitVec 6) (a : BitVec 6) (b : BitVec 6) : Statement (.pmigr d a b) := fun _ h => Option.some.inj h ▸ fr_major _ _ _ _ _ _ _
theorem pnqpop (d : BitVec 6) : Statement (.pnqpop d) := fun _ h => Option.some.inj h ▸ fr_major _ _ _ _ _ _ _
theorem pkeep (d : BitVec 6) (a : BitVec 6) (b : BitVec 6) : Statement (.pkeep d a b) := fun _ h => Option.some.inj h ▸ fr_major _ _ _ _ _ _ _
theorem atmAdd (d : BitVec 6) (a : BitVec 6) (b : BitVec 6) (o : BitVec 2) (c : BitVec 2) : Statement (.atmAdd d a b o c) := fun _ h => Option.some.inj h ▸ fa_major _ _ _ _ _ _ _
theorem atmMin (d : BitVec 6) (a : BitVec 6) (b : BitVec 6) (o : BitVec 2) (c : BitVec 2) : Statement (.atmMin d a b o c) := fun _ h => Option.some.inj h ▸ fa_major _ _ _ _ _ _ _
theorem atmMax (d : BitVec 6) (a : BitVec 6) (b : BitVec 6) (o : BitVec 2) (c : BitVec 2) : Statement (.atmMax d a b o c) := fun _ h => Option.some.inj h ▸ fa_major _ _ _ _ _ _ _
theorem atmMinn (d : BitVec 6) (a : BitVec 6) (b : BitVec 6) (o : BitVec 2) (c : BitVec 2) : Statement (.atmMinn d a b o c) := fun _ h => Option.some.inj h ▸ fa_major _ _ _ _ _ _ _
theorem atmMaxn (d : BitVec 6) (a : BitVec 6) (b : BitVec 6) (o : BitVec 2) (c : BitVec 2) : Statement (.atmMaxn d a b o c) := fun _ h => Option.some.inj h ▸ fa_major _ _ _ _ _ _ _
theorem atmAnd (d : BitVec 6) (a : BitVec 6) (b : BitVec 6) (o : BitVec 2) (c : BitVec 2) : Statement (.atmAnd d a b o c) := fun _ h => Option.some.inj h ▸ fa_major _ _ _ _ _ _ _
theorem atmOr (d : BitVec 6) (a : BitVec 6) (b : BitVec 6) (o : BitVec 2) (c : BitVec 2) : Statement (.atmOr d a b o c) := fun _ h => Option.some.inj h ▸ fa_major _ _ _ _ _ _ _
theorem atmXor (d : BitVec 6) (a : BitVec 6) (b : BitVec 6) (o : BitVec 2) (c : BitVec 2) : Statement (.atmXor d a b o c) := fun _ h => Option.some.inj h ▸ fa_major _ _ _ _ _ _ _
theorem atmSwp (d : BitVec 6) (a : BitVec 6) (b : BitVec 6) (o : BitVec 2) (c : BitVec 2) : Statement (.atmSwp d a b o c) := fun _ h => Option.some.inj h ▸ fa_major _ _ _ _ _ _ _
theorem atmFadd (d : BitVec 6) (a : BitVec 6) (b : BitVec 6) (o : BitVec 2) (c : BitVec 2) : Statement (.atmFadd d a b o c) := fun _ h => Option.some.inj h ▸ fa_major _ _ _ _ _ _ _
theorem atmFaddh (d : BitVec 6) (a : BitVec 6) (b : BitVec 6) (o : BitVec 2) (c : BitVec 2) : Statement (.atmFaddh d a b o c) := fun _ h => Option.some.inj h ▸ fa_major _ _ _ _ _ _ _
theorem atmCas (d : BitVec 6) (a : BitVec 6) (b : BitVec 6) (o : BitVec 2) (c : BitVec 2) : Statement (.atmCas d a b o c) := fun _ h => Option.some.inj h ▸ fa_major _ _ _ _ _ _ _
theorem redAdd32 (a : BitVec 6) (b : BitVec 6) (o : BitVec 2) (c : BitVec 2) : Statement (.redAdd32 a b o c) := fun _ h => Option.some.inj h ▸ fa_major _ _ _ _ _ _ _
theorem redMin32 (a : BitVec 6) (b : BitVec 6) (o : BitVec 2) (c : BitVec 2) : Statement (.redMin32 a b o c) := fun _ h => Option.some.inj h ▸ fa_major _ _ _ _ _ _ _
theorem redMax32 (a : BitVec 6) (b : BitVec 6) (o : BitVec 2) (c : BitVec 2) : Statement (.redMax32 a b o c) := fun _ h => Option.some.inj h ▸ fa_major _ _ _ _ _ _ _
theorem redMinn32 (a : BitVec 6) (b : BitVec 6) (o : BitVec 2) (c : BitVec 2) : Statement (.redMinn32 a b o c) := fun _ h => Option.some.inj h ▸ fa_major _ _ _ _ _ _ _
theorem redMaxn32 (a : BitVec 6) (b : BitVec 6) (o : BitVec 2) (c : BitVec 2) : Statement (.redMaxn32 a b o c) := fun _ h => Option.some.inj h ▸ fa_major _ _ _ _ _ _ _
theorem redAnd32 (a : BitVec 6) (b : BitVec 6) (o : BitVec 2) (c : BitVec 2) : Statement (.redAnd32 a b o c) := fun _ h => Option.some.inj h ▸ fa_major _ _ _ _ _ _ _
theorem redOr32 (a : BitVec 6) (b : BitVec 6) (o : BitVec 2) (c : BitVec 2) : Statement (.redOr32 a b o c) := fun _ h => Option.some.inj h ▸ fa_major _ _ _ _ _ _ _
theorem redXor32 (a : BitVec 6) (b : BitVec 6) (o : BitVec 2) (c : BitVec 2) : Statement (.redXor32 a b o c) := fun _ h => Option.some.inj h ▸ fa_major _ _ _ _ _ _ _
theorem redFadd32 (a : BitVec 6) (b : BitVec 6) (o : BitVec 2) (c : BitVec 2) : Statement (.redFadd32 a b o c) := fun _ h => Option.some.inj h ▸ fa_major _ _ _ _ _ _ _
theorem redFaddh32 (a : BitVec 6) (b : BitVec 6) (o : BitVec 2) (c : BitVec 2) : Statement (.redFaddh32 a b o c) := fun _ h => Option.some.inj h ▸ fa_major _ _ _ _ _ _ _
theorem atmdAdd (d : BitVec 6) (a : BitVec 6) (b : BitVec 6) (o : BitVec 2) (c : BitVec 2) : Statement (.atmdAdd d a b o c) := fun _ h => Option.some.inj h ▸ fa_major _ _ _ _ _ _ _
theorem atmdMin (d : BitVec 6) (a : BitVec 6) (b : BitVec 6) (o : BitVec 2) (c : BitVec 2) : Statement (.atmdMin d a b o c) := fun _ h => Option.some.inj h ▸ fa_major _ _ _ _ _ _ _
theorem atmdMax (d : BitVec 6) (a : BitVec 6) (b : BitVec 6) (o : BitVec 2) (c : BitVec 2) : Statement (.atmdMax d a b o c) := fun _ h => Option.some.inj h ▸ fa_major _ _ _ _ _ _ _
theorem atmdMinn (d : BitVec 6) (a : BitVec 6) (b : BitVec 6) (o : BitVec 2) (c : BitVec 2) : Statement (.atmdMinn d a b o c) := fun _ h => Option.some.inj h ▸ fa_major _ _ _ _ _ _ _
theorem atmdMaxn (d : BitVec 6) (a : BitVec 6) (b : BitVec 6) (o : BitVec 2) (c : BitVec 2) : Statement (.atmdMaxn d a b o c) := fun _ h => Option.some.inj h ▸ fa_major _ _ _ _ _ _ _
theorem atmdAnd (d : BitVec 6) (a : BitVec 6) (b : BitVec 6) (o : BitVec 2) (c : BitVec 2) : Statement (.atmdAnd d a b o c) := fun _ h => Option.some.inj h ▸ fa_major _ _ _ _ _ _ _
theorem atmdOr (d : BitVec 6) (a : BitVec 6) (b : BitVec 6) (o : BitVec 2) (c : BitVec 2) : Statement (.atmdOr d a b o c) := fun _ h => Option.some.inj h ▸ fa_major _ _ _ _ _ _ _
theorem atmdXor (d : BitVec 6) (a : BitVec 6) (b : BitVec 6) (o : BitVec 2) (c : BitVec 2) : Statement (.atmdXor d a b o c) := fun _ h => Option.some.inj h ▸ fa_major _ _ _ _ _ _ _
theorem atmdSwp (d : BitVec 6) (a : BitVec 6) (b : BitVec 6) (o : BitVec 2) (c : BitVec 2) : Statement (.atmdSwp d a b o c) := fun _ h => Option.some.inj h ▸ fa_major _ _ _ _ _ _ _
theorem atmdFadd (d : BitVec 6) (a : BitVec 6) (b : BitVec 6) (o : BitVec 2) (c : BitVec 2) : Statement (.atmdFadd d a b o c) := fun _ h => Option.some.inj h ▸ fa_major _ _ _ _ _ _ _
theorem atmdCas (d : BitVec 6) (a : BitVec 6) (b : BitVec 6) (o : BitVec 2) (c : BitVec 2) : Statement (.atmdCas d a b o c) := fun _ h => Option.some.inj h ▸ fa_major _ _ _ _ _ _ _
theorem redAdd64 (a : BitVec 6) (b : BitVec 6) (o : BitVec 2) (c : BitVec 2) : Statement (.redAdd64 a b o c) := fun _ h => Option.some.inj h ▸ fa_major _ _ _ _ _ _ _
theorem redMin64 (a : BitVec 6) (b : BitVec 6) (o : BitVec 2) (c : BitVec 2) : Statement (.redMin64 a b o c) := fun _ h => Option.some.inj h ▸ fa_major _ _ _ _ _ _ _
theorem redMax64 (a : BitVec 6) (b : BitVec 6) (o : BitVec 2) (c : BitVec 2) : Statement (.redMax64 a b o c) := fun _ h => Option.some.inj h ▸ fa_major _ _ _ _ _ _ _
theorem redMinn64 (a : BitVec 6) (b : BitVec 6) (o : BitVec 2) (c : BitVec 2) : Statement (.redMinn64 a b o c) := fun _ h => Option.some.inj h ▸ fa_major _ _ _ _ _ _ _
theorem redMaxn64 (a : BitVec 6) (b : BitVec 6) (o : BitVec 2) (c : BitVec 2) : Statement (.redMaxn64 a b o c) := fun _ h => Option.some.inj h ▸ fa_major _ _ _ _ _ _ _
theorem redAnd64 (a : BitVec 6) (b : BitVec 6) (o : BitVec 2) (c : BitVec 2) : Statement (.redAnd64 a b o c) := fun _ h => Option.some.inj h ▸ fa_major _ _ _ _ _ _ _
theorem redOr64 (a : BitVec 6) (b : BitVec 6) (o : BitVec 2) (c : BitVec 2) : Statement (.redOr64 a b o c) := fun _ h => Option.some.inj h ▸ fa_major _ _ _ _ _ _ _
theorem redXor64 (a : BitVec 6) (b : BitVec 6) (o : BitVec 2) (c : BitVec 2) : Statement (.redXor64 a b o c) := fun _ h => Option.some.inj h ▸ fa_major _ _ _ _ _ _ _
theorem redFadd64 (a : BitVec 6) (b : BitVec 6) (o : BitVec 2) (c : BitVec 2) : Statement (.redFadd64 a b o c) := fun _ h => Option.some.inj h ▸ fa_major _ _ _ _ _ _ _
theorem sbar (m : BitVec 4) (p : BitVec 2) (k : BitVec 2) : Statement (.sbar m p k) := fun _ h => Option.some.inj h ▸ fr_major _ _ _ _ _ _ _
theorem bari (a : BitVec 6) (b : BitVec 6) (s : BitVec 2) : Statement (.bari a b s) := fun _ h => Option.some.inj h ▸ fr_major _ _ _ _ _ _ _
theorem barv (d : BitVec 6) (a : BitVec 6) (s : BitVec 2) : Statement (.barv d a s) := fun _ h => Option.some.inj h ▸ fr_major _ _ _ _ _ _ _
theorem barw (a : BitVec 6) (b : BitVec 6) (s : BitVec 2) : Statement (.barw a b s) := fun _ h => Option.some.inj h ▸ fr_major _ _ _ _ _ _ _
theorem barwt (d : BitVec 6) (a : BitVec 6) (b : BitVec 6) (s : BitVec 2) : Statement (.barwt d a b s) := fun _ h => Option.some.inj h ▸ fr_major _ _ _ _ _ _ _
theorem waitv (d : BitVec 6) (a : BitVec 6) (b : BitVec 6) (s : BitVec 2) : Statement (.waitv d a b s) := fun _ h => Option.some.inj h ▸ fr_major _ _ _ _ _ _ _
theorem accdecl (k : BitVec 1) (a : BitVec 6) (b : BitVec 6) (t : BitVec 2) : Statement (.accdecl k a b t) := fun _ h => Option.some.inj h ▸ fr_major _ _ _ _ _ _ _
theorem vacc (k : BitVec 1) (a : BitVec 6) (b : BitVec 6) : Statement (.vacc k a b) := fun _ h => Option.some.inj h ▸ fr_major _ _ _ _ _ _ _
theorem accmerge (d : BitVec 6) (k : BitVec 1) : Statement (.accmerge d k) := fun _ h => Option.some.inj h ▸ fr_major _ _ _ _ _ _ _
theorem accrel (k : BitVec 1) : Statement (.accrel k) := fun _ h => Option.some.inj h ▸ fr_major _ _ _ _ _ _ _
theorem estr (d : BitVec 6) (a : BitVec 6) : Statement (.estr d a) := fun _ h => Option.some.inj h ▸ fr_major _ _ _ _ _ _ _
theorem epush (a : BitVec 6) (b : BitVec 6) : Statement (.epush a b) := fun _ h => Option.some.inj h ▸ fr_major _ _ _ _ _ _ _
theorem epop (d : BitVec 6) (a : BitVec 6) : Statement (.epop d a) := fun _ h => Option.some.inj h ▸ fr_major _ _ _ _ _ _ _
theorem ewm (d : BitVec 6) (a : BitVec 6) : Statement (.ewm d a) := fun _ h => Option.some.inj h ▸ fr_major _ _ _ _ _ _ _
theorem ewait (a : BitVec 6) (b : BitVec 6) : Statement (.ewait a b) := fun _ h => Option.some.inj h ▸ fr_major _ _ _ _ _ _ _
theorem echan (d : BitVec 6) (a : BitVec 6) (b : BitVec 6) : Statement (.echan d a b) := fun _ h => Option.some.inj h ▸ fr_major _ _ _ _ _ _ _
theorem egang (d : BitVec 6) (a : BitVec 6) (b : BitVec 6) : Statement (.egang d a b) := fun _ h => Option.some.inj h ▸ fr_major _ _ _ _ _ _ _
theorem ecancel (d : BitVec 6) (a : BitVec 6) : Statement (.ecancel d a) := fun _ h => Option.some.inj h ▸ fr_major _ _ _ _ _ _ _
theorem estat (d : BitVec 6) (a : BitVec 6) : Statement (.estat d a) := fun _ h => Option.some.inj h ▸ fr_major _ _ _ _ _ _ _
theorem uien (d : BitVec 6) (a : BitVec 6) : Statement (.uien d a) := fun _ h => Option.some.inj h ▸ fr_major _ _ _ _ _ _ _
theorem uiret : Statement .uiret := fun _ h => Option.some.inj h ▸ fr_major _ _ _ _ _ _ _
theorem svc (c : BitVec 6) : Statement (.svc c) := fun _ h => Option.some.inj h ▸ fr_major _ _ _ _ _ _ _
theorem brk (c : BitVec 6) : Statement (.brk c) := fun _ h => Option.some.inj h ▸ fr_major _ _ _ _ _ _ _
theorem rett : Statement .rett := fun _ h => Option.some.inj h ▸ fr_major _ _ _ _ _ _ _
theorem wfi (d : BitVec 6) : Statement (.wfi d) := fun _ h => Option.some.inj h ▸ fr_major _ _ _ _ _ _ _
theorem tlbinv (d : BitVec 6) (a : BitVec 6) (b : BitVec 6) : Statement (.tlbinv d a b) := fun _ h => Option.some.inj h ▸ fr_major _ _ _ _ _ _ _
theorem ctxsv (d : BitVec 6) (a : BitVec 6) : Statement (.ctxsv d a) := fun _ h => Option.some.inj h ▸ fr_major _ _ _ _ _ _ _
theorem ctxld (d : BitVec 6) (a : BitVec 6) (b : BitVec 6) : Statement (.ctxld d a b) := fun _ h => Option.some.inj h ▸ fr_major _ _ _ _ _ _ _
theorem lnpurge (d : BitVec 6) (a : BitVec 6) : Statement (.lnpurge d a) := fun _ h => Option.some.inj h ▸ fr_major _ _ _ _ _ _ _
theorem tmark (a : BitVec 6) (c : BitVec 6) : Statement (.tmark a c) := fun _ h => Option.some.inj h ▸ fr_major _ _ _ _ _ _ _
theorem tcnt (d : BitVec 6) (s : BitVec 3) : Statement (.tcnt d s) := fun _ h => Option.some.inj h ▸ fr_major _ _ _ _ _ _ _

end Laws.Encoding

end Sys2Proof
end

