-- ==== Sys2Proof/Laws/Vector.lean ====
section
/-! SUPPORT. Elements of vector registers and bits of predicates: read after write. -/

namespace Sys2Proof.Machine

theorem elem_eq (v : Vec) (w i : Nat) : elem v w i = (v.toNat >>> (w * i)) % 2 ^ w := by
  rw [elem, Nat.shiftRight_eq_div_pow]

theorem elem_testBit (v : Vec) (w i j : Nat) : (elem v w i).testBit j = (decide (j < w) && v.getLsbD (w * i + j)) := by
  rw [elem_eq, Nat.testBit_mod_two_pow, Nat.testBit_shiftRight, BitVec.getLsbD]

theorem setElem_getLsbD (v : Vec) (w i x b : Nat) (hb : b < 2048) :
    (setElem v w i x).getLsbD b =
      if w * i ≤ b ∧ b < w * i + w then x.testBit (b - w * i) else v.getLsbD b := by
  unfold setElem
  have h1 : (BitVec.ofNat 2048 ((2 ^ w - 1) * 2 ^ (w * i))).getLsbD b = decide (w * i ≤ b ∧ b < w * i + w) := by
    rw [BitVec.getLsbD_ofNat, ← Nat.shiftLeft_eq, Nat.testBit_shiftLeft, Nat.testBit_two_pow_sub_one]
    by_cases h : w * i ≤ b
    · simp only [hb, decide_true, Bool.true_and, ge_iff_le, h, true_and, decide_eq_decide]
      omega
    · simp [h]
  have h2 : (BitVec.ofNat 2048 (x % 2 ^ w * 2 ^ (w * i))).getLsbD b =
      (decide (w * i ≤ b ∧ b < w * i + w) && x.testBit (b - w * i)) := by
    rw [BitVec.getLsbD_ofNat, ← Nat.shiftLeft_eq, Nat.testBit_shiftLeft, Nat.testBit_mod_two_pow]
    by_cases h : w * i ≤ b
    · by_cases h' : b < w * i + w
      · simp [hb, h, h', show b - w * i < w by omega]
      · simp [h, h', show ¬ b - w * i < w by omega]
    · simp [h]
  rw [BitVec.getLsbD_or, BitVec.getLsbD_and, BitVec.getLsbD_not, h1, h2]
  by_cases h : w * i ≤ b ∧ b < w * i + w
  · simp [h]
  · simp [h, hb]

/-- Reading an element after writing one: widths that divide a register do not overlap. -/
theorem elem_setElem (v : Vec) (w i k x : Nat) (hk : w * k + w ≤ 2048) :
    elem (setElem v w i x) w k = if k = i then x % 2 ^ w else elem v w k := by
  apply Nat.eq_of_testBit_eq
  intro j
  rw [elem_testBit]
  by_cases hj : j < w
  · rw [setElem_getLsbD _ _ _ _ _ (by omega)]
    by_cases hki : k = i
    · subst hki
      simp [hj, Nat.testBit_mod_two_pow]
    · rw [if_neg hki, elem_testBit, if_neg]
      rintro ⟨ha, hb⟩
      apply hki
      rcases Nat.lt_trichotomy k i with h | h | h
      · have := Nat.mul_le_mul_left w (show k + 1 ≤ i from h)
        rw [Nat.mul_add] at this; omega
      · exact h
      · have := Nat.mul_le_mul_left w (show i + 1 ≤ k from h)
        rw [Nat.mul_add] at this; omega
  · simp only [hj, decide_false, Bool.false_and]
    split
    · simp [Nat.testBit_mod_two_pow, hj]
    · simp [elem_testBit, hj]

/-- Writing a list of elements, with their flags. -/
theorem setElems_spec (w : Nat) (f : Nat → Nat × Nat) (is : List Nat) : ∀ (v : Vec) (fl : Nat),
    (∀ k, w * k + w ≤ 2048 → elem (is.foldl (fun r i => (setElem r.1 w i (f i).1, r.2 ||| (f i).2)) (v, fl)).1 w k =
      if k ∈ is then (f k).1 % 2 ^ w else elem v w k) ∧
    (is.foldl (fun r i => (setElem r.1 w i (f i).1, r.2 ||| (f i).2)) (v, fl)).2 =
      is.foldl (fun m k => m ||| (f k).2) fl := by
  induction is with
  | nil => intro v fl; exact ⟨fun k _ => by simp, rfl⟩
  | cons i is ih =>
    intro v fl
    obtain ⟨h1, h2⟩ := ih (setElem v w i (f i).1) (fl ||| (f i).2)
    refine ⟨fun k hk => ?_, h2⟩
    rw [List.foldl_cons, h1 k hk, elem_setElem _ _ _ _ _ hk]
    by_cases h : k ∈ is
    · simp [h]
    · by_cases h' : k = i
      · simp [h']
      · simp [h, h']

theorem setElems_elem (v : Vec) (w : Nat) (is : List Nat) (f : Nat → Nat × Nat) (k : Nat) (hk : w * k + w ≤ 2048) :
    elem (setElems v w is f).1 w k = if k ∈ is then (f k).1 % 2 ^ w else elem v w k := (setElems_spec w f is v 0).1 k hk

theorem setElems_flags (v : Vec) (w : Nat) (is : List Nat) (f : Nat → Nat × Nat) :
    (setElems v w is f).2 = is.foldl (fun m k => m ||| (f k).2) 0 := (setElems_spec w f is v 0).2

/-- An element index below the capacity lies inside the register. -/
theorem elem_inside {w k : Nat} (hk : k < 2048 / w) : w * k + w ≤ 2048 := by
  have h := Nat.mul_le_mul_left w (show k + 1 ≤ 2048 / w from hk)
  have h' := Nat.mul_div_le 2048 w
  rw [Nat.mul_add] at h; omega

theorem Strand.mem_lanes (t : Strand) (lo n k : Nat) : k ∈ t.lanes lo n ↔ k < n ∧ lo ≤ k ∧ t.active k = true := by
  simp [Strand.lanes]

/-- Bit k of a predicate after bit i has been written. -/
theorem setBit_getLsbD (p : Pred) (i k : Nat) (v : Bool) (hk : k < 256) :
    (setBit p i v).getLsbD k = if k = i then v else p.getLsbD k := by
  have h : (BitVec.ofNat 256 (2 ^ i)).getLsbD k = decide (k = i) := by
    rw [BitVec.getLsbD_ofNat, Nat.testBit_two_pow]
    simp [hk, eq_comm]
  unfold setBit
  cases v
  · rw [if_neg (by simp), BitVec.getLsbD_and, BitVec.getLsbD_not, h]
    by_cases hki : k = i <;> simp [hki, hk]
  · rw [if_pos rfl, BitVec.getLsbD_or, h]
    by_cases hki : k = i <;> simp [hki]

end Sys2Proof.Machine
end

