-- ==== Sys2Proof/Tests/Slice0.lean ====
section
/-! SUPPORT. Tests of the model: which terms are ill formed, what the words of the manual decode to, and a witness for the
hypotheses of every statement. -/

namespace Sys2Proof.Tests

set_option Elab.async false

open Sys2Proof.Machine

/-! A small state. -/

/-- An effect that answers, with an answer and a state as they should be. -/
def reaches {α : Type} (m : M α) (s : State) (p : α → State → Bool) : Bool := match m s with
  | .ok a s' => p a s'
  | .error _ _ => false

/-- An effect that does not stop. -/
def runs {α : Type} (m : M α) (s : State) : Bool := reaches m s fun _ _ => true

/-- An effect that answers with the state as it was. -/
def stays (m : M Unit) (s : State) : Bool := reaches m s fun _ s' => decide (s' = s)

/-- Room for a line, as a Bool. -/
def roomy (s : State) (pa : Nat) : Bool :=
  (s.line (pa / 128)).cached || decide ((sliceHolds s (homeDie pa) (homeSlice pa)).length < sliceLines)

/-- It is the room that the statements ask for. -/
theorem roomy_roomFor {s : State} {pa : Nat} (h : roomy s pa = true) : s.roomFor pa := by
  simpa [roomy, State.roomFor] using h

/-- Plain home memory, as a Bool. -/
def plainAt (s : State) (l : Leaf) (va : Word) (n : Nat) : Bool :=
  (l.cls == 2 && !l.logEnable && !l.counterEnable && (n == 4 || n == 8) && l.pa % n == 0)
    && (!trainOverlap s s.cur va l.pa n && !fetchOverlap s s.cur va l.pa n && !poisonedAt s l n && (watchHit s.me .atomic va n).isNone)
    && ((s.line (l.pa / 128)).code == 0 && !inLogStore l.pa && decide (tierOf l.pa < 2) && roomy s l.pa
      && (s.line (l.pa / 128)).key == keyId s l.keyIndex && s.writeBacks.isEmpty)
    && (!(s.parcel l.frame).blocked && (s.parcel l.frame).log.isEmpty && (s.parcel l.frame).held.isEmpty && s.movedPa l.pa == l.pa
      && !s.me.trace.replay && !s.me.trace.admitted)

/-- It is what the statements ask for. -/
theorem plainAt_plainHome {s : State} {l : Leaf} {va : Word} {n : Nat} (h : plainAt s l va n = true) : s.plainHome l va n := by
  simp only [plainAt, Bool.and_eq_true, Bool.or_eq_true, Bool.not_eq_true', beq_iff_eq, decide_eq_true_eq, Option.isNone_iff_eq_none,
    List.isEmpty_iff] at h
  obtain ⟨⟨⟨⟨⟨⟨⟨c, g⟩, u⟩, w⟩, a⟩, ⟨⟨t, f⟩, p⟩, x⟩, ⟨⟨⟨⟨⟨k, i⟩, r⟩, m⟩, y⟩, q⟩⟩, ⟨⟨⟨⟨b, o⟩, e⟩, v⟩, z⟩, d⟩ := h
  exact ⟨c, ⟨g, u⟩, w, a, ⟨t, f⟩, p, x, k, ⟨i, r⟩, roomy_roomFor m, y, q, ⟨b, o, e⟩, v, ⟨z, d⟩⟩

/-- An effect that answers as it should. -/
theorem reaches_answers {α : Type} {m : M α} {s : State} {p : α → State → Bool} (h : reaches m s p = true) :
    ∃ a s', answers m s a s' ∧ p a s' = true := by
  unfold reaches at h
  unfold answers
  split at h
  · next a s' e => exact ⟨a, s', e, h⟩
  · cases h

/-- An effect that stops with a trap. -/
def halts {α : Type} (m : M α) (s : State) (p : Trap → Bool) : Bool := match m s with
  | .error (.trap x) _ => p x
  | _ => false

/-- It is what the statements call stopping. -/
theorem halts_stops {α : Type} {m : M α} {s : State} {p : Trap → Bool} (h : halts m s p = true) : ∃ x, stops m s x ∧ p x = true := by
  unfold halts at h
  unfold stops
  split at h
  · next x e q => exact ⟨x, ⟨e, q⟩, h⟩
  · cases h

/-- Operands that pass checks 6 and 7. -/
def opsPass (s : State) (ops : List Opnd) : Bool := ops.all fun o => o.bad.isNone && (o.badQueue s s.cur).isNone

/-- Operands that pass are admitted. -/
theorem opsPass_admitted {s : State} {ops : List Opnd} (h : opsPass s ops = true) : admitted s ops := by
  intro o ho
  simpa [opsPass] using List.all_eq_true.mp h o ho

/-- The table entries of eight parcels: code, home, tracked, private, read-only, save-pinned, logged in tier 1, counted in
tier 1. -/
def entries : List Nat :=
  [0x4800D, 0x58013, 0x6801B, 0x78003, 0x88009, 0x99013, 0x1000000008133, 0x1000000018233]

/-- Memory with a root table, a middle table and the entries. -/
def tables : List Host.Cell :=
  memStore (memStore (memStore [] 0x10000 (leBytes 8 0x20001)) 0x20000 (leBytes 8 0x30001)) 0x30000 (entries.flatMap (leBytes 8))

/-- A strand with some registers: the five data parcels in x5 to x9, the aperture in x10, small numbers from x11 on. -/
def demo : Strand := { placedStrand 0 with
  x := [(5, 0x10000), (6, 0x20000), (7, 0x30000), (8, 0x40000), (9, 0x50000), (10, 0x7FF000000000), (11, 1), (12, 2), (13, 3)]
  full := 0x0000FFFE
  trapVec := 0x4000
  pc := 0x100 }

/-- The state: strand 1 of context 1 on a V-core, with keys for its lines. -/
def world : State := { State.reset with
  cur := 1
  nextUid := 2
  clock := 5600
  strands := [(1, demo)]
  contexts := [(1, { Context.blank with live := true, root := 0x10000, ticketKey := 5, policy := some 1, keepQuota := 1 })]
  mem := tables
  lines := [(2560, { Line.blank with key := 1 }), (2561, { Line.blank with key := 1 }), (3072, { Line.blank with key := 1 }),
    (3584, { Line.blank with key := 1 })]
  module := { Module.reset with bootStat := 3, root := 0x10000, keys := [(0, some 1)] } }

/-- The state with the executing strand changed. -/
abbrev world' (f : Strand → Strand) : State := world.updMe f

/-- The strand on another core. -/
abbrev onCore (c : Nat) : State := world' fun t => { t with core := c }

/-- At firmware level. -/
abbrev firm : State := world' fun t => { t with firmware := true }


/-- With queues: q0 scalar with two ready heads, q1 scalar and empty, q2 vector with one, q3 tile with one, q4 branch with
one, all of depth 4. -/
abbrev queued : State := world' fun t => { t with queues :=
  [(0, ⟨0x40001, 0, [⟨true, false, 7, []⟩, ⟨true, false, 9, []⟩], none, 0⟩), (1, ⟨0x40001, 0, [], none, 0⟩),
   (2, ⟨0x40002, 0, [⟨true, false, 5, []⟩], none, 0⟩), (3, ⟨0x40003, 0, [⟨true, false, 5, []⟩], none, 0⟩),
   (4, ⟨0x40004, 0, [⟨true, false, 1, []⟩], none, 0⟩)] }

/-- The strand as the access strand of a couple with strand 2, and all full bits clear. -/
abbrev coupled : State := { queued with strands :=
  [(1, { queued.me with coupled := true, partner := 2, full := 0 }),
   (2, { demo with coupled := true, partner := 1, strandId := 0x8000, full := 0 })] }

/-- The elements of a list are loaded one after another, each with the value f gives it; put says what each leaves behind. -/
def loadsWith (v : VAccess) (put : Nat → Nat → State → State) (f : Nat → Nat) : List Nat → State → Option State
  | [], s => some s
  | i :: is, s => match loadElem v i s with
    | .ok x s1 => if x = f i then loadsWith v put f is (put i (f i) s1) else none
    | .error _ _ => none

/-- Elements that are loaded one after another. -/
theorem loadsWith_all (v : VAccess) (put : Nat → Nat → State → State) (f : Nat → Nat) (is : List Nat) :
    ∀ s s', loadsWith v put f is s = some s' → loadsAll v put is f s s' := by
  induction is with
  | nil => intro s s' h; exact (Option.some.inj h).symm
  | cons i is ih =>
    intro s s' h
    unfold loadsWith at h
    split at h
    · next x s1 e =>
      split at h
      · next q => exact ⟨s1, q ▸ e, ih _ _ h⟩
      · cases h
    · cases h

/-- The elements of a list are loaded one after another, none of them above a watermark. -/
def firstWith (v : VAccess) (f : Nat → Nat) : List Nat → State → Option State
  | [], s => some s
  | i :: is, s =>
    if stays (checkChannel (v.addr i) (v.w / 8)) s then
      match loadElem v i s with
      | .ok x s1 => if x = f i then firstWith v f is s1 else none
      | .error _ _ => none
    else none

/-- An effect that stays answers with the state as it was. -/
theorem stays_answers {m : M Unit} {s : State} (h : stays m s = true) : answers m s () s := by
  obtain ⟨a, s', e, q⟩ := reaches_answers h
  simp only [decide_eq_true_eq] at q
  exact q ▸ e

/-- Elements that are loaded one after another below a watermark. -/
theorem firstWith_first (v : VAccess) (f : Nat → Nat) (is : List Nat) :
    ∀ s s', firstWith v f is s = some s' → loadsFirst v is f s s' := by
  induction is with
  | nil => intro s s' h; exact (Option.some.inj h).symm
  | cons i is ih =>
    intro s s' h
    unfold firstWith at h
    split at h
    · next k =>
      split at h
      · next x s1 e =>
        split at h
        · next q => exact ⟨stays_answers k, s1, q ▸ e, ih _ _ h⟩
        · cases h
      · cases h
    · cases h

/-- The elements of a list are stored one after another. -/
def storesWith (v : VAccess) (f : Nat → Nat) : List Nat → State → Option State
  | [], s => some s
  | i :: is, s => match storeElem v i (f i) s with
    | .ok _ s1 => storesWith v f is s1
    | .error _ _ => none

/-- Elements that are stored one after another. -/
theorem storesWith_all (v : VAccess) (f : Nat → Nat) (is : List Nat) :
    ∀ s s', storesWith v f is s = some s' → storesAll v f is s s' := by
  induction is with
  | nil => intro s s' h; exact (Option.some.inj h).symm
  | cons i is ih =>
    intro s s' h
    unfold storesWith at h
    split at h
    · next s1 e => exact ⟨s1, e, ih _ _ h⟩
    · cases h

/-- With windows: 0 over eight tracked lines with all words of the first valid, 1 over eight private lines with dirty words in
its first, 2 over eight read-only lines. -/
abbrev framed : State := { queued with strands := [(1, { queued.me with windows :=
  [(0, ⟨0x20000, 0, 8, 3, false, [(0, BitVec.allOnes 32)], [], [(0, 3073)], [], true⟩),
   (1, ⟨0x30000, 8, 8, 0, false, [(0, BitVec.allOnes 32)], [(0, 1)], [(0, 3585)], [], true⟩),
   (2, ⟨0x40000, 16, 8, 1, false, [], [], [], [], true⟩)] })] }

/-- A strip of 4 elements of 64 bits from VSTART 1 under a predicate, with vectors in v1 to v3 and the queue q2. -/
abbrev strip : State := { queued with strands := [(1, { queued.me with
  scthr := 64, vl := 4 + 3 * 4096, vstart := 1, vms := 2, p := [(2, 0xB)], v := [(1, 0x7000000000000000200000000000000010000000000000003), (2, 9)] })] }
/-! Witnesses: the hypotheses of the statements hold together somewhere. -/

theorem witness_AluFunctions : opsPass world [.data 14 1 true, syncOpnd 11 1, .data 12 1 false] = true ∧
    onClass world 7 ∧ onClass world 3 ∧
    runs (do let x ← readSync 11 1; let y ← readX 12; writeX 14 (x + y)) world = true := by
  unfold onClass; decide +kernel

theorem witness_AluFunctions' : onClass (onCore 0) 3 ∧
    opsPass queued [.data 33 1 true, syncOpnd 32 0, .data 13 1 false] = true ∧
    runs (do let x ← readSync 32 0; let y ← readX 13; writeX 33 (aluValue 1 (x * y) 0)) queued = true ∧
    opsPass world [.data 14 1 true, syncOpnd 0 1] = true ∧ runs (do let x ← readSync 0 1; writeX 14 x) world = true := by
  unfold onClass; decide +kernel

theorem witness_Immediates : opsPass queued [.data 33 1 true, .data 32 1 false] = true ∧
    runs (do let x ← readX 32; writeX 33 (x + 5)) queued = true ∧ runs (writeX 33 16384) queued = true := by
  decide +kernel

/-- A target that is a multiple of 4 and one that is not, two equal and two different operands, and a head of 1 and of 0. -/
theorem witness_JumpsAndBranches : (world.me.reg 5 + (0x3FFF : BitVec 14).signExtend 64 * 4).toNat % 4 = 0 ∧
    (world.me.reg 11 + (1 : BitVec 14).signExtend 64 * 4).toNat % 4 ≠ 0 ∧
    opsPass queued [.data 32 1 false, .data 12 1 false] = true ∧
    reaches (do let x ← readX 32; let y ← readX 12; return (x, y)) queued (fun p _ => decide (¬ p.1 = p.2)) = true ∧
    reaches (do let x ← readX 11; let y ← readX 11; return (x, y)) queued (fun p _ => decide (p.1 = p.2)) = true ∧
    opsPass queued [.queue 36 [4] (some false)] = true ∧ reaches (popQueue 4) queued (fun v _ => decide (v ≠ 0)) = true ∧
    reaches (popQueue 4) (queued.updQueue 1 4 fun k => { k with slots := [⟨true, false, 0, []⟩] })
      (fun v _ => decide (v = 0)) = true := by
  decide +kernel

theorem witness_ScalarFloat : opsPass world [.data 14 1 true, syncOpnd 11 1, .data 12 1 false] = true ∧
    opsPass world [.reg 14, syncOpnd 11 0, .data 12 1 false] = true ∧
    onClass (onCore 0) (fpsClasses 1) ∧ onClass world 3 ∧ onClass world (if (0 : BitVec 2) = 0 then 3 else fpsClasses 0) ∧
    runs (do let x ← readSync 11 1; let y ← readX 12; writeX 14 (x + y)) world = true := by
  unfold onClass; decide +kernel

/-- A load to a register and one to a queue, plain, acquire and strong; the address is the last doubleword of a line. -/
theorem witness_Loads : opsPass queued [.data 14 1 true, .reg 5] = true ∧ opsPass queued [.data 33 1 true, .reg 5] = true ∧
    queued.me.isExecute = false ∧ (queued.me.reg 5 + BitVec.ofNat 64 (15 * 2 ^ 3)).toNat % 2 ^ 3 = 0 ∧
    stays (streamReady 3) queued = true ∧
    runs (do freshen .load 0x7FF000000078 8 3; loadBytes 0x7FF000000078 8 false 3) queued = true ∧
    runs (do let r ← loadBytes 0x10078 8 false 3; acquire 3; return r) queued = true ∧
    runs (do let r ← loadBytes 0x10078 8 false 3; return r) queued = true ∧
    runs (do let _ ← allocSlot 1 ⟨false, false, 0, []⟩; loadBytes 0x10078 8 true 3) queued = true := by
  decide +kernel

/-- With the home parcel on die 1, which is fenced. -/
abbrev farFenced : State := { world with mem := memStore tables 0x30008 (leBytes 8 0x4000058013) }.updDie 1 fun d => { d with fenced := true }

/-- With a spoiled word of the scratchpad, with a poisoned line, and with a watch of the home parcel's first line. -/
abbrev spoiltWord : State := world' fun t => { t with spoiled := [(0, true)] }
abbrev poisonedLine : State := world.updLine 2560 fun k => { k with code := 3 }
abbrev watched : State := world' fun t => { t with trace := { t.trace with wctl := [(0, 0x8307)], waddr := [(0, 0x10000)] } }

theorem witness_Stores : opsPass queued [.data 32 1 false, .reg 5] = true ∧
    reaches (readX 32) queued (fun _ s => stays (streamReady 3) s) = true ∧
    runs (do let _ ← readX 32; release 3 8; storeBytes 0x10078 (leBytes 8 7) 3) queued = true ∧
    runs (do let _ ← readX 32; storeBytes 0x7FF000000078 (leBytes 8 7) 3; publish 0x7FF000000078 8) queued = true ∧
    (queued.me.reg 11 + BitVec.ofNat 64 (0 * 2 ^ 1)).toNat % 2 ^ 1 ≠ 0 ∧
    halts (freshen .load 0x80000 8 3) queued (fun x => x.cause = 6) = true ∧
    halts (loadBytes 0x80000 8 false 3) queued (fun x => x.cause = 6 && !x.isEffect) = true ∧
    reaches (allocSlot 1 ⟨false, false, 0, []⟩) queued (fun _ s => halts (loadBytes 0x80000 8 true 3) s (fun x => x.cause = 6)) = true ∧
    halts (storeBytes 0x40000 (leBytes 8 7) 3) queued (fun x => x.cause = 7 && !x.isEffect) = true ∧
    halts (resolve .load 0x7FF000001000 8) queued (fun x => x.cause = 22) = true ∧
    halts (resolve .store 0x7FF000001000 8) queued (fun x => x.cause = 22) = true ∧
    reaches (resolve .load 0x7FF000000000 8) spoiltWord (fun p s => stays (checkChannel 0x7FF000000000 8) s && stays (awaitPlace p 0x7FF000000000 8) s
      && (match p with | .spad u j => (s.strand u).spoiledAt j 8 | _ => false)) = true ∧
    reaches (resolve .load 0x10000 8) poisonedLine (fun p s => stays (checkChannel 0x10000 8) s && stays (awaitPlace p 0x10000 8) s
      && (match p with | .mem l => l.cls == 2 && !inLogStore l.pa && poisonedAt s l 8 | _ => false)) = true ∧
    reaches (resolve .store 0x10000 8) farFenced (fun p s => stays (checkChannel 0x10000 8) s && stays (awaitPlace p 0x10000 8) s
      && (match p with | .mem l => !reachable s l.pa | _ => false)) = true ∧
    reaches (readBytes 0x10000 8 false 3) watched (fun _ _ => (watchHit watched.me .load 0x10000 8).isSome) = true ∧
    reaches (resolve .store 0x10000 8) watched (fun p s => stays (awaitPlace p 0x10000 8) s && (watchHit watched.me .store 0x10000 8).isSome &&
      (match p with | .mem l => runs (memStoreAt l 0x10000 (leBytes 8 7) 3) s | _ => false)) = true := by
  decide +kernel

/-- The first and the last bytes of the allotment. -/
theorem witness_ScratchpadAccess : apertureOffset 0x7FF000000000 = some 0 ∧ apertureOffset 0x7FF000000FF8 = some 4088 ∧
    4088 + 8 ≤ (world.strand (world.allotOwner world.cur)).allotSize ∧
    windowAt (world.strand (world.allotOwner world.cur)) 4088 = none ∧
    windowAt (world.strand (world.allotOwner world.cur)) 0 = none ∧
    watchHit world.me .store 0x7FF000000FF8 8 = none ∧ watchHit world.me .load 0x7FF000000FF8 8 = none ∧
    watchHit world.me .store 0x7FF000000000 8 = none ∧ watchHit world.me .load 0x7FF000000000 8 = none ∧
    fetchOverlap world world.cur 0x7FF000000FF8 0 8 = false ∧ fetchOverlap world world.cur 0x7FF000000000 0 8 = false ∧
    trainOverlap world world.cur 0x7FF000000FF8 0 8 = false ∧ trainOverlap world world.cur 0x7FF000000000 0 8 = false ∧
    world.me.spoiledAt 4088 8 = false ∧ world.me.spoiledAt 0 8 = false := by
  decide +kernel

theorem witness_StoreToHome : opsPass world [.data 11 1 false, .reg 5] = true ∧ runs (readX 11) world = true ∧ stays (streamReady 3) world = true ∧
    reaches (resolve .store 0x10000 8) world (fun p s2 => match p with
      | .mem l => decide (s2.mem = world.mem) && decide (s2.cur = world.cur) && runs (checkChannel 0x10000 8) s2
          && decide (watchHit s2.me .store 0x10000 8 = none) && !fetchOverlap s2 s2.cur 0x10000 0 8
          && !fetchOverlap s2 s2.cur 0x10000 l.pa 8 && !trainOverlap s2 s2.cur 0x10000 l.pa 8 && roomy s2 l.pa && !lineHeld s2 l.pa
          && l.cls == 2 && !l.logEnable && !l.counterEnable && decide (l.pa % 128 + 8 ≤ 128) && !keyEmpty s2 l
          && reachable s2 l.pa && (s2.line (l.pa / 128)).key == keyId s2 l.keyIndex && (s2.line (l.pa / 128)).code == 0
          && !(s2.parcel l.frame).blocked && s2.movedPa l.pa == l.pa
      | _ => false) = true := by
  decide +kernel

/-- The writable bits of a per-strand register, a firmware register at firmware level, a register that level 0 may not
access, an unassigned number and a write of a read-only register. -/
theorem witness_ControlRegisters : onClass world (csrClasses 0x000) ∧ csrTrap world (fs 17#6 14#6 11#6 0x000#12 0#2) 0x000 true = none ∧
    csrTrap world (fs 17#6 14#6 11#6 0x000#12 1#2) 0x000 true = none ∧ csrTrap world (fs 17#6 14#6 11#6 0x000#12 2#2) 0x000 true = none ∧
    csrTrap world (fs 17#6 14#6 0#6 0x000#12 3#2) 0x000 false = none ∧
    onClass firm (csrClasses 0x921) ∧ keyInFlight firm firm.module.keySel.toNat = false ∧
    csrTrap firm (fs 17#6 14#6 11#6 0x921#12 0#2) 0x921 true = none ∧
    csrTrap firm (fs 17#6 14#6 0#6 0x912#12 3#2) 0x912 false = none ∧ csrTrap firm (fs 17#6 14#6 0#6 0x90A#12 3#2) 0x90A false = none ∧
    csrAccess 0x009 = none ∧ csrAccess 0x010 = some false ∧ world.me.firmware = false ∧ firm.me.firmware = true := by
  unfold onClass; decide +kernel

/-- With a head that is not ready, and one that is poisoned. -/
abbrev unready : State := queued.updQueue 1 0 fun k => { k with slots := [⟨false, false, 0, []⟩] }
abbrev poisoned : State := queued.updQueue 1 0 fun k => { k with slots := [⟨true, true, 0, []⟩] }

/-- The last register, and x0; a head; a free slot; an empty and a full queue; a clear full bit of a couple. -/
theorem witness_OperandsAndParking : (31 : BitVec 6).toNat < 32 ∧ world.me.full.getLsbD 15 = true ∧
    queued.queue 1 1 = ⟨0x40001, 0, [], none, 0⟩ ∧
    ((queued.queue queued.cur 0).slots.head?.map fun x => (x.ready, x.poison)) = some (true, false) ∧
    (queued.queue queued.cur 0).slots.length < (queued.queue queued.cur 0).depth ∧ (queued.queue queued.cur 0).kind ≠ 4 ∧
    partnerGone queued queued.cur = false ∧ partnerGone coupled coupled.cur = false ∧ coupled.me.coupled = true ∧
    coupled.me.full.getLsbD 14 = false ∧
    (world.queue world.cur 15).depth ≤ (world.queue world.cur 15).slots.length ∧
    opsPass queued [.data 14 1 true, .data 33 1 false] = true ∧
    (match readX 33 queued with | .error (.park (.queueData 1)) s' => decide (s' = queued) | _ => false) = true ∧
    (queued.queue queued.cur 4).slots.length < (queued.queue queued.cur 4).depth ∧ (queued.queue queued.cur 4).kind = 4 ∧
    ((unready.queue unready.cur 0).slots.head?.map fun x => x.ready) = some false ∧
    ((poisoned.queue poisoned.cur 0).slots.head?.map fun x => (x.ready, x.poison)) = some (true, true) ∧
    (coupled.queue coupled.cur 1).slots = [] ∧ partnerGone (coupled.updStrand 2 fun t => { t with run := .exited }) 1 = true := by
  decide +kernel

/-- An instruction whose effect parks. -/
theorem witness_OperandsAndParking' : ∃ f body s', exec (.addi 14 33 0) queued = insn f body queued ∧ f.check queued = none ∧
    body queued = .error (.park (.queueData 1)) s' :=
  ⟨{ word := fi 2#6 14#6 33#6 0#14, ops := [.data 14 1 true, .data 33 1 false] }, imm2 14 33 0 fun x i => x + i, _, rfl,
    by decide +kernel, rfl⟩

/-- The least depth, the largest depth that fits, one slot too many, a word that breaks a limit, and a queue that holds a slot. -/
theorem witness_QueueConfiguration : (queued.queue 1 1).slots = [] ∧
    ((queued.couple 1).any fun u => (queued.strand u).parkedOn 1) = false ∧
    ((QueueWord.of 0x10001).map fun k => queuesCost queued 1 1 (k.depth * slotBytes k.kind)) = some 2120 ∧
    ((QueueWord.of 0x4000001).map fun k => decide (queuesCost queued 1 1 (k.depth * slotBytes k.kind) ≤ queued.me.queueBudget)) =
      some true ∧
    ((QueueWord.of 0x400002).map fun k => decide (queued.me.queueBudget < queuesCost queued 1 1 (k.depth * slotBytes k.kind))) =
      some true ∧
    (QueueWord.of 5).isNone = true ∧ (queued.queue 1 0).slots ≠ [] ∧
    ((queued.couple 1).any fun u => ((queued.updMe fun t => { t with run := .parked (.queueData 1) }).strand u).parkedOn 1) = true := by
  decide +kernel

theorem witness_QueueInstructions : opsPass queued [.reg 14, .queue 33 [] none] = true ∧
    ((queued.queue 1 1).slots.all fun x => x.ready) = true ∧
    ((queued.updQueue 1 1 fun k => { k with slots := [⟨false, false, 0, []⟩] }).queue 1 1).slots.all (fun x => x.ready) = false ∧
    opsPass queued [.queue 33 [] (some true)] = true ∧ opsPass queued [.queue 32 [] (some false), .reg 12] = true ∧
    queued.me.part.heads = none ∧ (queued.me.reg 12).toNat ≤ (queued.queue 1 0).ready := by
  decide +kernel

theorem witness_FullBits : (31 : BitVec 6).toNat < 32 ∧ (world.strand (xputTarget world)).full.getLsbD 16 = false ∧
    (world.strand (xputTarget world)).full.getLsbD 15 = true ∧ world.me.coupled = false ∧
    (world.strand (xputTarget world)).run = .ready ∧
    ((coupled.updStrand 2 fun t => { t with full := 2 }).strand (xputTarget coupled)).full.getLsbD 1 = true ∧
    opsPass queued [.queue 33 [1, 4] (some true), .reg 11] = true ∧ runs (pushQueue 1 1) queued = true := by
  decide +kernel

/-- A slot that is idle, one that is active before and after its last trip, and one that is skipping. -/
theorem witness_Loops : world.me.reg 11 ≠ 0 ∧ world.me.reg 0 = 0 ∧ (world.me.loop 3).skip = false ∧ (world.me.loop 3).active = false ∧
    ((world' fun t => t.setLoop 3 ⟨false, true, 0x80, 2, 0⟩).me.loop 3).index + 1
      < ((world' fun t => t.setLoop 3 ⟨false, true, 0x80, 2, 0⟩).me.loop 3).count ∧
    ¬ ((world' fun t => t.setLoop 3 ⟨false, true, 0x80, 2, 1⟩).me.loop 3).index + 1
      < ((world' fun t => t.setLoop 3 ⟨false, true, 0x80, 2, 1⟩).me.loop 3).count ∧
    ((world' fun t => t.setLoop 3 ⟨true, false, 0, 0, 0⟩).me.loop 3).skip = true := by
  decide +kernel

/-- The parent of a child whose run is over and of one that is live. -/
abbrev parent : State := { world' (fun t => { t with children := [⟨5, 77, false⟩, ⟨6, 78, false⟩] }) with
  strands := [(1, { demo with children := [⟨5, 77, false⟩, ⟨6, 78, false⟩] }), (5, { demo with run := .done, gvl := 8 }), (6, demo)] }

/-- A child with a discarded token, with its parent; a strand whose store is held. -/
abbrev youngest : State := { world with strands :=
  [(1, { demo with parent := some 5, gvl := 8 }), (5, { demo with run := .parked .children, gvl := 8, children := [⟨1, 77, true⟩] })] }
abbrev stuck : State := world.updParcel 5 fun p => { p with held := [⟨0, 0, 3, 0, 7, 1, none⟩] }

/-- A strand that can exit, with a live child, uncoupled, a child and of a couple whose partner runs or has exited; one with a train on
its way, with a ticketed read, and with a held store; a class in the mask; no credit, a member of a family, no class to go to, and one. -/
theorem witness_StrandLife : (∀ s ∈ [world, parent, youngest, coupled, coupled.updStrand 2 fun t => { t with run := .exited }],
      outstanding s s.cur = false ∧ fetching s s.cur 15 = false ∧ heldFrame s s.cur = none ∧ (releaseAll s s.cur).cur = s.cur) ∧
    (releaseAll parent parent.cur).me.children.any (fun c => ((releaseAll parent parent.cur).strand c.uid).run.live) = true ∧
    (releaseAll world world.cur).me.children.any (fun c => ((releaseAll world world.cur).strand c.uid).run.live) = false ∧
    (releaseAll world world.cur).me.coupled = false ∧ (releaseAll youngest youngest.cur).me.coupled = false ∧
    (releaseAll youngest youngest.cur).me.parent = some 5 ∧ (releaseAll coupled coupled.cur).me.coupled = true ∧
    ((releaseAll coupled coupled.cur).strand 2).run = .ready ∧ (releaseAll coupled coupled.cur).me.partner = 2 ∧
    outstanding (world' fun t => { t with trains := [(3, 1)] }) 1 = true ∧ heldFrame stuck stuck.cur = some 5 ∧
    outstanding stuck stuck.cur = false ∧ fetching stuck stuck.cur 15 = false ∧
    ((world.me.reg 12).toNat % 8 &&& (world.strand (world.owner world.cur)).travel.allowed).testBit (classOf world world.me.core) = true ∧
    ((world.me.reg 11).toNat % 8 &&& (world.strand (world.owner world.cur)).travel.allowed).testBit (classOf world world.me.core) = false ∧
    (world' fun t => { t with travel := { t.travel with credits := 0 } }).me.travel.credits = 0 ∧ parent.inFamily parent.cur = true ∧
    (world.me.reg 11).toNat % 8 &&& (world.strand (world.owner world.cur)).travel.allowed &&&
      (if (world.couple world.cur).any fun v => !(world.strand v).gangs.isEmpty then 6 else 7) = 1 ∧
    (world.me.reg 0).toNat % 8 &&& (world.strand (world.owner world.cur)).travel.allowed = 0 ∧
    (world.strand (world.owner world.cur)).travel.credits ≠ 0 ∧ world.inFamily world.cur = false := by
  decide +kernel

/-- The least granted length that can be halved, no free slot, a target that is no word address, and both children. -/
theorem witness_ForkJoin : onClass world 3 ∧ (world.me.reg 5).toNat % 4 = 0 ∧
    (match release 0 15 world with | .ok () s1 => decide (s1 = world) | _ => false) = true ∧
    (world.freeSlots world.me.core).head?.isSome = true ∧ (world' fun t => { t with gvl := 2 }).me.gvl = 2 ∧ world.nextUid ≠ world.cur ∧
    (onCore 56).freeSlots 57 ≠ [] ∧ (world' fun t => { t with gvl := 1 }).me.gvl < 2 ∧ (world.me.reg 11).toNat % 4 ≠ 0 ∧
    (world.me.children.find? fun c => c.token = world.me.reg 11) = none ∧
    ((parent.me.children.find? fun c => c.token = 77).map fun c => (parent.strand c.uid).run.live) = some false ∧
    ((parent.me.children.find? fun c => c.token = 78).map fun c => (parent.strand c.uid).run.live) = some true := by
  unfold onClass; decide +kernel

theorem witness_VectorInteger : opsPass strip [.data 3 2 true, .data 34 2 false, xOpnd 11 1] = true ∧
    opsPass strip [.reg 3, .data 1 2 false, xOpnd 2 0] = true ∧ opsPass strip [.data 3 2 true, .data 1 2 false, .data 34 2 false] = true ∧
    onClass strip (vecClasses 3) ∧ onClass (onCore 56) (vecClasses 0) ∧ onClass strip 3 ∧
    runs (do let v ← readV 34; let _ ← readB 11 1 64; let _ ← oldV 3; raiseFlags 0; writeV 3 v 32; vecEnd (some 0)) strip = true ∧
    runs (do let v ← readV 1; let _ ← readV 34; let _ ← oldV 3; raiseFlags 0; writeV 3 v 8; vecEnd (some 0)) strip = true ∧
    strip.me.strip 64 ≠ 0 ∧ world.me.strip 64 = 0 ∧ runs (do writeV 3 0 0; vecEnd (some 0)) world = true := by
  unfold onClass; decide +kernel

theorem witness_VectorFloat : opsPass strip [.data 3 2 true, .data 1 2 false, xOpnd 34 0] = true ∧ onClass strip (vecClasses 2) ∧
    runs (do let v ← readV 1; let _ ← readB 34 0 64; let _ ← oldV 3; raiseFlags 0x10; writeV 3 v 32; vecEnd (some 1)) strip = true := by
  unfold onClass; decide +kernel

theorem witness_VectorConvertReduce : opsPass strip [.data 3 2 true, .data 1 2 false] = true ∧
    onClass strip (if (3 : BitVec 3) = 3 ∨ (0 : BitVec 3) = 3 then 3 else 7) ∧
    runs (do let v ← readV 1; let _ ← oldV 3; raiseFlags 0; writeV 3 v 32; vecEnd (some 1)) strip = true ∧
    (cvtFmt 1).isSome = true ∧ (strip.me.lanes strip.me.vstartN (strip.me.strip 32)).isEmpty = false ∧
    (world.me.lanes world.me.vstartN (world.me.strip 32)).isEmpty = true ∧ strip.me.strip (vfpWidth 2) ≠ 0 := by
  unfold onClass; decide +kernel

theorem witness_VectorCompare : opsPass strip [.data 1 2 false, xOpnd 2 0] = true ∧ onClass strip (vecClasses 3) ∧
    runs (do let _ ← readV 1; let _ ← readB 2 0 64; raiseFlags 0; modify (fun s => s.updMe fun t => t.setPred 2 1); vecEnd (some 2)) strip = true ∧
    (strip.me.lanes 0 (strip.me.strip 64)).isEmpty = false ∧ (world.me.lanes 0 (world.me.strip 64)).isEmpty = true := by
  unfold onClass; decide +kernel

/-- A predicate with a set bit below VL.COUNT and one without. -/
theorem witness_Predicates : (strip.me.pred 2).getLsbD 0 = true ∧ strip.me.vlCount = 4 ∧ (∀ k, k < 4 → (strip.me.pred 3).getLsbD k = false) ∧
    opsPass strip [.data 33 1 true] = true ∧ runs (do writeX 33 2; vecEnd (some 2)) strip = true ∧
    opsPass strip [.data 32 1 false] = true ∧ runs (do let _ ← readX 32; vecEnd (some 2)) strip = true ∧ runs (vecEnd (some 2)) world = true := by
  decide +kernel

/-- An index inside the register and one beyond it. -/
theorem witness_Permutes : onClass strip 3 ∧ onClass strip (vecClasses 3) ∧ opsPass strip [.data 3 2 true, .data 1 2 false, xOpnd 2 0] = true ∧
    opsPass strip [.data 3 2 true, .data 34 2 false, .data 2 2 false] = true ∧ opsPass strip [.data 3 2 true, .data 32 1 false, .data 12 1 false] = true ∧
    opsPass strip [.data 33 1 true, .data 1 2 false, .data 12 1 false] = true ∧
    runs (do let v ← readV 34; let _ ← readV 2; let _ ← oldV 3; writeV 3 v 32; vecEnd (some 3)) strip = true ∧
    runs (do let v ← readV 34; let _ ← readB 2 0 64; let _ ← oldV 3; writeV 3 v 32; vecEnd (some 3)) strip = true ∧
    runs (do let _ ← readX 32; let _ ← readX 12; let _ ← oldV 3; writeV 3 0 32; vecEnd (some 3)) strip = true ∧
    runs (do let _ ← readV 1; let _ ← readX 12; writeX 33 2; vecEnd (some 3)) strip = true ∧
    (strip.me.reg 12).toNat < 2048 / tyWidth 3 ∧ ¬ (strip.me.reg 5).toNat < 2048 / tyWidth 3 := by
  unfold onClass; decide +kernel

/-- A buffer of another width, an empty one, a full one and one that can take the strip. -/
theorem witness_StripControl : runs (vecEnd none) strip = true ∧ opsPass strip [.reg 14, .data 1 2 false] = true ∧
    opsPass strip [.data 3 2 true] = true ∧ runs (do let _ ← readV 1; vecEnd (some 3)) strip = true ∧
    runs (do let _ ← oldV 3; writeV 3 0 32; vecEnd (some 3)) strip = true ∧ strip.me.compaction.elems = [] ∧
    ¬ (strip.me.scthr.toNat % 128) * 4 ≤ 3 * 64 ∧ (world.me.scthr.toNat % 128) * 4 ≤ 3 * 64 ∧ (⟨64, List.replicate 64 0⟩ : Compaction).elems ≠ [] ∧
    4096 < ((⟨64, List.replicate 64 0⟩ : Compaction).elems.length + 3) * 64 := by
  decide +kernel

theorem witness_SystemCalls : firm.me.firmware = true ∧ world.me.firmware = false := by decide +kernel

/-- A first trap at each level, and a trap at firmware level with ACT set. -/
theorem witness_TrapEntry : ¬ (world.me.trapStat.getLsbD 0 = true ∧ world.me.firmware = true) ∧
    ¬ (firm.me.trapStat.getLsbD 0 = true ∧ firm.me.firmware = true) ∧
    (world' fun t => { t with firmware := true, trapStat := 1 }).me.trapStat.getLsbD 0 = true := by
  decide +kernel

/-- At firmware level, beside a strand in slot 1 of the same core and one in slot 2 that waits for events. -/
abbrev jailer : State := { world with strands :=
  [(1, { demo with firmware := true }), (5, { demo with slot := 1 }), (6, { demo with slot := 2, firmware := true, run := .parked .event })] }

/-- With and without an event; an empty slot, one whose unit cannot be pre-empted and one whose unit can; an area that cannot be
read and one whose magic is wrong; an address with memory and one without. -/
theorem witness_FirmwareInstructions : jailer.me.firmware = true ∧ (jailer.updModule fun m => { m with events := 1 }).module.events ≠ 0 ∧
    jailer.module.events = 0 ∧ shooting (startShootdown jailer 0 false false 1 0x10000).2 0 0 = true ∧ jailer.atSlot 9 0 = none ∧
    jailer.atSlot 8 2 = some 6 ∧ (jailer.unit 6).all (fun m => preemptible jailer m) = false ∧
    jailer.atSlot 8 1 = some 5 ∧ (jailer.unit 5).all (fun m => preemptible jailer m) = true ∧ jailer.cur ∉ jailer.unit 5 ∧
    jailer.atSlot 8 0 = some 1 ∧ (jailer.unit 1).all (fun m => preemptible jailer m) = true ∧ jailer.cur ∈ jailer.unit 1 ∧
    saveCheck jailer 0x80000 = 2 ∧ (loseSaved jailer 0x80000).cur = jailer.cur ∧ saveCheck jailer 0x10000 = 3 ∧
    hasMemory jailer 0x10000 = true ∧ reachable jailer 0x10000 = true ∧ hasMemory jailer (2 ^ 51) = false ∧
    hasMemory jailer (2 ^ 38) = true ∧ reachable (jailer.updDie 1 fun d => { d with fenced := true }) (2 ^ 38) = false := by
  decide +kernel

theorem witness_AtomicResults : opsPass queued [.data 33 1 true, .reg 5, .data 32 1 false] = true ∧
    opsPass queued [.reg 14, .reg 5, .data 32 1 false] = true ∧ onClass queued 7 ∧ queued.me.isExecute = false ∧
    runs allStreams queued = true ∧
    runs (do
      let p ← atomicPlace 0x10000 8 false; let v ← readX 32; release 1 15
      let old ← performAtomic ⟨64, fun x => onWords 64 (· + ·) 0 x v.toNat, none, 1, false, some ⟨0, v, 0, 33, some 1⟩⟩ 0x10000 p
      acquire 1; writeX 33 (BitVec.ofNat 64 old)) queued = true ∧
    runs (do
      let p ← atomicPlace 0x7FF000000000 4 true; let v ← readX 12
      let old ← performAtomic ⟨32, fun x => some (Fp.addHome 32 (x % 2 ^ 32) (v.toNat % 2 ^ 32)), none, 0, true, some ⟨9, v, 0, 33, none⟩⟩
        0x7FF000000000 p
      writeX 33 (BitVec.ofNat 64 old)) queued = true ∧ (queued.me.reg 11).toNat % 8 ≠ 0 ∧
    halts (atomicPlace 0x80000 8 false) queued (fun x => x.cause == 6 && !x.isEffect) = true ∧
    reaches (atomicPlace 0x10000 8 false) poisonedLine (fun p s => halts (performAtomic ⟨64, fun x => some x, none, 0, false, none⟩ 0x10000 p) s
      fun x => x.cause == 11 && !x.isEffect) = true := by
  unfold onClass; decide +kernel

/-- With a window over the aperture's first bytes whose range has gone above a watermark. -/
abbrev halted : State := { framed with contexts := [(1, { framed.context 1 with channels := [(0, ⟨0x20000, 1024, 1, 0, [], [], 1, none⟩)] })] }

/-- A reduction of 64 bits in home memory. -/
def red : Reduction := framed.reduction 0 0 64 0x10000 7 0 0

/-- A place in memory and one in the aperture, misaligned and at a watch; a reduction of a context that is live, of one that is not and of
one whose drain bound has passed; one that faults and one that has to wait. -/
theorem witness_Reductions : opsPass queued [.reg 5, .data 32 1 false] = true ∧ onClass queued 7 ∧ onClass queued 3 ∧
    queued.me.isExecute = false ∧ (queued.me.reg 5).toNat % 8 = 0 ∧ (queued.me.reg 11).toNat % 8 ≠ 0 ∧
    reaches (readX 32) queued (fun _ s => decide (watchHit s.me .store 0x10000 8 = none)
      && decide (watchHit s.me .store 0x7FF000000000 8 = none)) = true ∧ apertureOffset 0x10000 = none ∧
    (watchHit watched.me .store 0x10000 8).isSome = true ∧
    queued.atOnce 0x7FF000000000 8 0 ∧ ¬ queued.atOnce 0x10000 8 0 ∧
    runs (performReduction (queued.reduction 0 0 64 0x7FF000000000 7 0 0)) queued = true ∧
    halts (performReduction (queued.reduction 0 0 64 0x7FF0000FFFF8 7 0 0)) queued (fun x => x.cause = 22) = true ∧
    framed.atOnce 0x7FF000000000 8 0 ∧
    halted.atOnce 0x7FF000000000 8 0 ∧
    (queued.context red.ctx).live = true ∧ (queued.context red.ctx).closing = none ∧ (queued.context 9).live = false ∧
    runs (performReduction red) (inPlaceOf queued red) = true ∧
    halts (performReduction { red with va := 0x40000 }) (inPlaceOf queued { red with va := 0x40000 }) (fun x => x.cause = 7) = true := by
  unfold onClass State.atOnce; decide +kernel

/-- Through a window above a watermark, whether or not a cached translation is used. -/
theorem witness_Reductions_kept :
    (match performReduction (halted.reduction 0 0 64 0x7FF000000000 7 0 0) halted with | .error (.park _) _ => true | _ => false) = true := by
  delta performReduction performAtomic atomicPlace resolve placePa resolveWindow windowReady fillWindowLine windowLeaf Sys2Proof.Machine.translate
  rw [show Config.useCached = fun n => bif n == 0 then Config.useCached 0 else Config.useCached n by funext n; cases n <;> rfl]
  generalize Config.useCached 0 = b
  revert b
  decide +kernel

/-- An operation that stores and one that does not; misaligned, past the allotment, unmapped and without permission; a poisoned word. -/
theorem witness_Reductions' : watchHit queued.me .atomic 0x7FF000000000 8 = none ∧ fetchOverlap queued queued.cur 0x7FF000000000 0 8 = false ∧
    trainOverlap queued queued.cur 0x7FF000000000 0 8 = false ∧ queued.me.spoiledAt 0 8 = false ∧
    plainAt world ⟨0x58013, 0x50000, 0x30008, 1⟩ 0x10000 8 = true ∧ (0x10004 : Word).toNat % 8 ≠ 0 ∧
    halts (resolve .atomic 0x40000 8) world (fun x => x.cause = 7) = true ∧
    (apertureOffset 0x7FF000000FFC).map (fun o => decide ((world.strand (world.allotOwner world.cur)).allotSize < o + 8)) = some true ∧
    windowOver world world.me.core world.me.ctx 0x10000 = none ∧ (translate world 8 false 1 0x80000).isOk = false ∧
    (match translate world 8 false 1 0x40000 with | .ok (l, _) => (checkLeaf .atomic l 0x40000).isSome | _ => false) = true ∧
    (match translate world 8 false 1 0x10000 with | .ok (l, _) => (checkLeaf .atomic l 0x10000).isNone | _ => false) = true ∧
    reaches (do placePa (← resolve .atomic 0x10000 8)) world (fun lo s2 => decide (lo.isSome) && stays (checkChannel 0x10000 8) s2) = true ∧
    poisonedAt poisonedLine ⟨0x58013, 0x50000, 0x30008, 1⟩ 8 = true := by
  decide +kernel

/-- With a watch of the first line of a window. -/
abbrev watchedLine : State := framed.updMe fun t => { t with trace := { t.trace with wctl := [(0, 0x8307)], waddr := [(0, 0x20000)] } }

/-- With a redeem of a ticket in stream 3 that its queue slot waits for. -/
abbrev redeemer : State := world.updDie 0 fun d =>
  { d with booths := [(0, { Booth.blank with st := .claimed, claimer := 1, dest := some (2, 0, 0), stream := 3 })] }

/-- A strand with a train on its way; a word that is the value waited for and one that is not. -/
theorem witness_FencesAndValueWaits : runs (release 3 15) world = true ∧ fetching world world.cur 15 = false ∧
    reducing world world.cur = false ∧ redeeming world world.cur 15 = false ∧
    reducing (world.post (.reductionPerform red)) world.cur = true ∧
    ((world' fun t => { t with trains := [(3, 1)] }).me.trains.any fun x => (8 : BitVec 4).toNat.testBit x.1 && x.2 != 0) = true ∧
    (framed.me.reg 6).toNat = 0x20000 ∧ framed.me.isExecute = false ∧ runs allStreams framed = true ∧
    reaches (do let _ ← syncLeaf 0x20000 8 false true; loadBytes 0x20000 8 false 3) framed (fun r _ =>
      BitVec.ofNat 64 (leNat r.1) == framed.me.reg 0 && BitVec.ofNat 64 (leNat r.1) != framed.me.reg 11) = true ∧
    halts (syncLeaf 0x20004 8 false true) framed (fun x => x.cause == 5 && !x.isEffect) = true ∧
    reaches (syncLeaf 0x20000 8 false true) watchedLine (fun _ s1 =>
      halts (loadBytes 0x20000 8 false 3) s1 fun x => x.cause == 17 && !x.isEffect) = true ∧
    redeeming redeemer redeemer.cur 8 = true := by
  decide +kernel

/-- With an initialised barrier of count 2 and phase 3 in home memory. -/
abbrev barred : State := { world with mem := memStore tables 0x50000 (leBytes 4 2 ++ leBytes 4 1 ++ leBytes 4 3 ++ leBytes 4 1) }

/-- A strand that waits at the barrier until time 3, at time 100. -/
abbrev waiting : State := barred.updMe fun t => { t with run := .parked (.barrier 0x10000 3 (some (3, 14, 0))) }

/-- With the write-block of the barrier's parcel set. -/
abbrev blockedBar : State := barred.updParcel 5 fun p => { p with blocked := true }

/-- With a watch on the barrier, and with a deadline that went by while the strand was away. -/
abbrev watchedBar : State := barred.updMe fun t => { t with trace := watched.me.trace }
abbrev lateBar : State := barred.updMe fun t => t.setPart { Progress.none with wait := some (0x10000, 3, 0x10000), late := true }

/-- What is wrong with an object, in the order of the checks; a watch; a deadline that went by. -/
theorem witness_BarrierChecks : halts (syncLeaf 0x10004 16 true false) barred (fun x => x.cause == 5 && !x.isEffect) = true ∧
    halts (syncLeaf 0x7FF000000000 16 true false) barred (fun x => x.cause == 14 && x.sub == 0) = true ∧
    (translate barred 8 false 1 0x80000).isOk = false ∧
    (match translate barred 8 false 1 0x40000 with | .ok (l, _) => (checkLeaf .store l 0x40000).map (·.cause) | _ => none) = some 7 ∧
    (match translate barred 8 false 1 0x20000 with
      | .ok (l, _) => !(l.cls == 2) && (checkLeaf .store l 0x20000).isNone | _ => false) = true ∧
    (match translate barred 8 false 1 0x10000 with
      | .ok (l, s1) => (l.cls == 2) && (checkLeaf .store l 0x10000).isNone && decide (tierOf l.pa < 2)
        && stays (checkChannel 0x10000 16) s1 && !poisonedAt s1 l 16 && stays (awaitOwn 0x10000 l.pa 16) s1 | _ => false) = true ∧
    (match translate poisonedLine 8 false 1 0x10000 with | .ok (l, s1) => poisonedAt s1 l 16 | _ => false) = true ∧
    reaches (syncLeaf 0x10000 16 true false) barred (fun _ s1 => (watchHit s1.me .store 0x10000 16).isNone &&
      (watchHit s1.me .load 0x10000 16).isNone && (watchHit s1.me .atomic 0x10000 16).isNone) = true ∧
    reaches (syncLeaf 0x10000 16 true false) watchedBar (fun l s1 => (watchHit s1.me .store 0x10000 16).isSome &&
      (watchHit s1.me .atomic 0x10000 16).isSome && (barrierAt s1 l).usable) = true ∧
    reaches (do readBarrier (← syncLeaf 0x10000 16 false false) 0x10000) watchedBar (fun x e => x.usable &&
      (watchHit e.me .load 0x10000 16).isSome) = true ∧
    reaches (do readBarrier (← syncLeaf 0x10000 16 false false) 0x10000) lateBar (fun x e => x.usable && e.me.part.late &&
      e.me.part.wait == some (0x10000, 3, (lateBar.me.reg 5).toNat)) = true := by
  decide +kernel

/-- Both kinds of object; a count of 1, of 2^24 and of 0; the phase waited for and another one; a deadline ahead and one behind. -/
theorem witness_Barriers : barred.me.isExecute = false ∧ runs allStreams barred = true ∧
    reaches (syncLeaf 0x10000 16 true false) barred (fun l s1 => (barrierAt s1 l).usable &&
      reaches (release 3 15) s1 (fun _ s3 => !barrierHeld s3 l && runs (putBarrier l 0x10000 ⟨2 ^ 24, 0, 4, 1⟩) s3
          && runs (putBarrier l 0x10000 ⟨2, 0, 4, 1⟩) s3)) = true ∧
    reaches (syncLeaf 0x10000 16 true false) world (fun l s1 => !(barrierAt s1 l).usable) = true ∧
    reaches (do readBarrier (← syncLeaf 0x10000 16 false false) 0x10000) barred (fun x e => x.usable
      && decide (x.phase = (barred.me.reg 13).toNat % 2 ^ 32) && decide (x.phase ≠ (barred.me.reg 12).toNat % 2 ^ 32)
      && decide (e.time < (barred.me.reg 5).toNat) && !decide (e.time < (barred.me.reg 11).toNat)) = true ∧
    reaches (do readBarrier (← syncLeaf 0x10000 16 false false) 0x10000) world (fun x _ => !x.usable) = true ∧
    reaches (syncLeaf 0x10000 16 true false) blockedBar (fun l s1 => (barrierAt s1 l).usable &&
      reaches (release 3 15) s1 (fun _ s2 => barrierHeld s2 l &&
        reaches (strandGate (homeDie l.pa) 2) s2 (fun _ s3 => decide (s3 = s2)))) = true ∧
    3 < waiting.time ∧ (match walk waiting false 1 0x10000 with | .ok l => (barrierAt waiting l).phase == 3 | _ => false) = true := by
  decide +kernel

/-- With a span with nothing touched, one over read-only memory, and one whose parcel is blocked. -/
abbrev fresh : State := strip.updMe fun t => t.setSpan 0 (some ⟨0x10000, 0, 8, 4, 0, 64, 0, []⟩)
abbrev badSpan : State := strip.updMe fun t => t.setSpan 0 (some ⟨0x40000, 0, 8, 4, 0, 64, 0, [(0, true)]⟩)
abbrev blockedSpan : State := (strip.updMe fun t => t.setSpan 0 (some ⟨0x10000, 0, 8, 4, 0, 64, 0, [(0, true)]⟩)).updParcel 5 fun p =>
  { p with blocked := true }

/-- With a span of eight places of 64 bits in four lanes over home memory, place 0 touched. -/
abbrev spanned : State := strip.updMe fun t => t.setSpan 0 (some ⟨0x10000, 0, 8, 4, 0, 64, 0, [(0, true)]⟩)

theorem witness_Spans : strip.me.isExecute = false ∧ onClass strip 3 ∧ strip.me.parent = none ∧
    (strip.me.reg 5).toNat % 8 = 0 ∧ ((0x80000 : Word).extractLsb' 16 16).toNat = 8 ∧ ((0 : Word).extractLsb' 16 16).toNat = 0 ∧
    strip.me.windowMeets 0 256 = false ∧ strip.me.spanMeets 0 256 (some 1) = false ∧ 0 < strip.me.strip 64 ∧ 256 ≤ strip.me.allotSize ∧
    spanned.me.spanMeets 0 256 (some 1) = true ∧ opsPass spanned [.data 1 2 false, .data 34 2 false] = true ∧
    onClass spanned (spanClasses spanned 0) ∧
    runs (do let _ ← readV 1; let _ ← readV 34; raiseFlags 0) spanned = true ∧ runs allStreams spanned = true ∧
    spanned.me.span 0 = some ⟨0x10000, 0, 8, 4, 0, 64, 0, [(0, true)]⟩ ∧ spanned.me.span 1 = none ∧
    reaches (mergeAll 0 ⟨0x10000, 0, 8, 4, 0, 64, 0, [(0, true)]⟩ false [0]) spanned (fun _ s => (s.me.span 0).isSome) = true := by
  unfold onClass; decide +kernel

/-- Reserved bits, a misaligned target; nothing to merge; one position in home memory; one that faults and one that waits. -/
theorem witness_Merges : 2 ^ 33 ≤ (strip.me.reg 10).toNat ∧ (strip.me.reg 11).toNat % 8 ≠ 0 ∧ strip.me.gangs = [] ∧
    fresh.me.span 0 = some ⟨0x10000, 0, 8, 4, 0, 64, 0, []⟩ ∧ runs allStreams fresh = true ∧ spanned.me.part.merged = false ∧
    stays allStreams spanned = true ∧
    reaches (atomicPlace 0x10000 8 false) spanned (fun p s1 => (match p with | .mem l => plainAt s1 l 0x10000 8 | _ => false) &&
      s1.me.span 0 == some ⟨0x10000, 0, 8, 4, 0, 64, 0, [(0, true)]⟩ && s1.cur == 1 &&
      (List.range 4).all fun c => !s1.me.spoiledAt ((⟨0x10000, 0, 8, 4, 0, 64, 0, [(0, true)]⟩ : Span).place c 0) 8) = true ∧
    halts (atomicPlace 0x40000 8 false) badSpan (fun x => x.cause == 7 && !x.isEffect) = true ∧
    (match mergeAll 0 ⟨0x40000, 0, 8, 4, 0, 64, 0, [(0, true)]⟩ false [0] badSpan with
      | .error (.trapAt z _) _ => z.cause == 7 && !z.isEffect | _ => false) = true ∧
    (match mergeAll 0 ⟨0x10000, 0, 8, 4, 0, 64, 0, [(0, true)]⟩ false [0] blockedSpan with
      | .error (.parkAt _) _ => true | _ => false) = true := by
  decide +kernel

/-- With its base in the scratchpad, and indices, strides and a queue. -/
abbrev vmem : State := strip.updMe fun t => { t with vst := 16 }

/-- With x10 24 bytes before the end of the scratchpad, and x5 past it. -/
abbrev edged : State := vmem.updMe fun t => (t.setReg 10 0x7FF000000FE8).setReg 5 0x7FF000001000

theorem witness_VectorLoads : vmem.me.isExecute = false ∧ opsPass vmem [.data 3 2 true, .reg 10] = true ∧
    opsPass queued [.data 34 2 true, .reg 10, .reg 2] = true ∧ onClass vmem 3 ∧ stays (streamReady 3) vmem = true ∧ stays (streamReady 3) queued = true ∧
    runs (do vecReady 3; checkElems .load (unitAccess vmem.me 10 3) [1, 3]; checkChannels (unitAccess vmem.me 10 3) [1, 3]) vmem = true ∧
    vmem.me.todo 64 4 = [1, 3] ∧ vmem.me.fromStart 4 = [1, 3] ∧ queued.me.fromStart 0 = [] ∧
    ((loadsWith (unitAccess vmem.me 10 3) (fun i x s => s.updMe fun t => t.setVec 3 (setElem (t.vec 3) 64 i x) ((i + 1) * 64 / 8))
      (fun _ => 0) [1, 3] vmem).map fun s => runs (vmemEnd 4) s) = some true ∧
    ((loadsWith (stridedAccess vmem.me 10 3) (fun _ _ s => s) (fun _ => 0) [1, 3] vmem).map fun s =>
      runs (do writeV 3 0 32; vmemEnd 4) s) = some true ∧
    (indexedAccess vmem.me 10 2 3).addr 0 = 0x7FF000000009 ∧
    reaches (allocSlot 2 ⟨false, false, 0, []⟩) vmem (fun p s =>
      ((loadsWith (stridedAccess vmem.me 10 3) (fun _ _ s => s) (fun _ => 0) [1, 3] s).map fun s2 =>
        runs (vmemEnd 4) (s2.post (.queueFillArrival (s2.owner s2.cur) 2 p.1 p.2 0 false))) = some true) = true ∧
    runs (do
      let old ← oldV 3; let p ← loadSlot 3; checkChannels (broadcastAccess vmem.me 10 3) [1]
      let x ← loadElem (broadcastAccess vmem.me 10 3) 1; deliverLoad 3 p (putElems old 64 [1, 3] fun _ => x) (some 32)) vmem = true ∧
    runs (do let p ← loadSlot 34; deliverLoad 34 p 0 none) queued = true ∧ queued.me.todo 64 0 = [] ∧
    stays (do let _ ← loadSlot 3; checkChannels (broadcastAccess edged.me 5 3) [1]) edged = true ∧
    halts (loadElem (broadcastAccess edged.me 5 3) 1) edged (fun x => x.cause != 3 && !x.isEffect &&
      (match stopAt (broadcastAccess edged.me 5 3) x 1 [] 4 edged with | .error (.trapAt _ _) _ => true | _ => false)) = true ∧
    ((firstWith (unitAccess vmem.me 10 3) (fun _ => 0) [1, 3] vmem).map fun s => runs (deliverLoad 3 none 0 (some 32)) s) = some true ∧
    ((firstWith (unitAccess edged.me 10 3) (fun _ => 0) [1] edged).map fun s => stays (checkChannel ((unitAccess edged.me 10 3).addr 3) 8) s
      && halts (loadElem (unitAccess edged.me 10 3) 3) s (fun x => x.cause == 22)
      && runs (deliverLoad 3 none 0 (some 16)) (s.updMe fun t => { t with vl := 3 + 3 * 4096 })) = some true ∧
    halts (loadElem (unitAccess edged.me 5 3) 1) edged (fun x => x.cause != 0 && x.cause != 3 && !x.isEffect &&
      reaches (writeV 3 0 0) edged fun _ s2 =>
        (match stopAt (unitAccess edged.me 5 3) x 1 [] 4 s2 with | .error (.trapAt _ _) _ => true | _ => false)) = true := by
  unfold onClass; decide +kernel

theorem witness_VectorStores : opsPass vmem [.data 3 2 false, .reg 10] = true ∧ opsPass vmem [.data 34 2 false, .reg 10, .reg 2] = true ∧
    onClass vmem 3 ∧ stays (vecReady 2) vmem = true ∧ stays (streamReady 3) vmem = true ∧
    runs (checkRemote (unitAccess vmem.me 10 3) [1, 3]) vmem = true ∧
    reaches (readV 34) vmem (fun x s1 => s1.me.todo 64 4 == [1, 3] &&
      runs (do checkElems .store (unitAccess vmem.me 10 3) [1, 3]; checkChannels (unitAccess vmem.me 10 3) [1, 3]) s1 &&
      ((storesWith (unitAccess vmem.me 10 3) (elem x 64) [1, 3] s1).map fun s3 => runs (vmemEnd 5) s3) == some true) = true ∧
    reaches (resolve .store 0x10000 8) vmem (fun p s => (match p with | .mem l => stays (awaitOwn 0x10000 l.pa 8) s | _ => false) &&
      runs (vmemEndLater 5 [1, 3]) (sendTrains s 3 64 [⟨0x10000, 0x50000, 0x58013, 7⟩]) && runs (vmemEnd 5) (sendTrains s 3 64 [])) = true ∧
    runs (checkWatch .store 0x10000 8) vmem = true := by
  unfold onClass; decide +kernel

theorem witness_VectorInScratchpad : vmem.me.isExecute = false ∧ vmem.me.trace.admitted = false ∧ vmem.me.gangs = [] ∧
    stays (streamReady 3) vmem = true ∧ vmem.me.todo 64 4 = [1, 3] ∧
    (∀ k ∈ vmem.me.todo 64 4, vmem.plain .load ((unitAccess vmem.me 10 3).addr k) 8) ∧
    (∀ k ∈ vmem.me.todo 64 4, vmem.plain .store ((unitAccess vmem.me 10 3).addr k) 8) ∧
    (unitAccess vmem.me 10 3).idleLines vmem.me = [] := by
  refine ⟨by decide +kernel, by decide +kernel, by decide +kernel, by decide +kernel, by decide +kernel, ?_, ?_, by decide +kernel⟩ <;>
    · intro k hk
      refine ⟨8 * k, ?_⟩
      rw [show vmem.me.todo 64 4 = [1, 3] by decide +kernel, List.mem_cons, List.mem_singleton] at hk
      rcases hk with rfl | rfl <;> decide +kernel

/-- On an M-core, accumulator 0 of FP32 and accumulator 1 of a residue format. -/
abbrev tiled : State := { queued with strands := [(1, { queued.me with core := 56, accs :=
  [(0, ⟨true, 0, 0, [], BitVec.allOnes 64, BitVec.allOnes 32, 0, 0, [], []⟩),
   (1, ⟨true, 1, 0, [], BitVec.allOnes 64, BitVec.allOnes 32, 0, 0, [], []⟩)] })] }

theorem witness_TileStatus : onClass tiled 4 ∧ (tiled.me.acc 1).enabled = true ∧ (tiled.me.acc 7).enabled = false := by
  unfold onClass; decide +kernel

/-- A word of each legal format and a word that breaks each limit; a core with room and one without. -/
theorem witness_TileControl : onClass tiled 4 ∧ (256 : Word).getLsbD 5 = false ∧ ((0xC0 : Word).extractLsb' 6 2).toNat = 3 ∧
    (0x20 : Word).getLsbD 5 = true ∧ ((1 : Word).extractLsb' 0 5).toNat ≠ 0 ∧ ((0x9F : Word).extractLsb' 6 2).toNat = 2 ∧
    2 ≤ freeTiles (tiled.updMe fun t => t.setAcc 7 Acc.none) 56 ∧
    freeTiles (tiled.updMe fun t => { t with accs := (List.range 8).map fun i => (i, tiled.me.acc 1) }) 56 < 1 ∧
    (tiled.me.acc 0).enabled = true ∧ (tiled.me.acc 1).fmt ≠ 0 ∧ (tiled.me.acc 7).enabled = false ∧
    opsPass tiled [.data 34 2 false] = true ∧ runs (readV 34) tiled = true := by
  unfold onClass; decide +kernel

theorem witness_TileMoves : onClass tiled 4 ∧ (tiled.me.acc 0).enabled = true ∧ (tiled.me.acc 0).fmt = 0 ∧
    (tiled.me.acc 1).enabled = true ∧ (tiled.me.acc 1).fmt ≠ 0 ∧ opsPass tiled [.data 34 2 true] = true ∧
    opsPass tiled [.data 34 2 false] = true ∧ runs (readV 34) tiled = true ∧ runs (do writeV 34 0 256; raiseTile 1) tiled = true := by
  unfold onClass; decide +kernel

/-- A strand that waits in the middle of TOP with both heads there. -/
abbrev stepping : State := tiled.updMe fun t => { t with run := .parked .tile, tile := { t.tile with op := some ⟨0, 5, 35, 0, 1, 0, false, false⟩ } }

theorem witness_OuterProducts : onClass tiled 4 ∧ opsPass tiled [.data 35 3 false, .data 35 3 false] = true ∧
    opsPass tiled [.reg 5, .data 35 3 false] = true ∧ tiled.me.part.steps = 0 ∧
    stays (TopOp.check ⟨0, 5, 35, 0, 1, 0, false, false⟩ 0) tiled = true ∧ stays (TopOp.ready ⟨0, 5, 35, 0, 1, 0, false, false⟩) tiled = true ∧
    reaches (TopOp.step ⟨0, 5, 35, 0, 1, 0, false, false⟩ 0) tiled (fun _ s => runs topFinish s) = true ∧
    waitingTop stepping 1 = some ⟨0, 5, 35, 0, 1, 0, false, false⟩ ∧ TopOp.heads ⟨0, 5, 35, 0, 1, 0, false, false⟩ stepping 1 = .ready := by
  unfold onClass; decide +kernel

/-! A save area that CTXLD accepts (R377, R385): its tag is under a key that nothing can evaluate, so the witness is proved. -/

/-- The bytes of a save area of 256 bytes around its tag. -/
def areaBytes (tag : List Byte) : List Byte :=
  [0x51, 0x53, 0x41, 0x56, 1, 0, 0xB0, 1, 1, 0, 0, 1, 0, 1, 0, 0] ++ List.replicate 64 0 ++ tag ++ List.replicate 168 0

/-- The tag that the area has. -/
def areaTag : Word := saveTag (areaBytes (List.replicate 8 0))

/-- At firmware level, with strand 5 saved in the area. -/
def restorer : State := { jailer with
  mem := tables ++ (areaBytes (leBytes 8 areaTag.toNat)).zipIdx.map fun x => (0x90000 + x.2, x.1)
  strands := [(1, { demo with firmware := true }), (5, { demo with run := .saved, slot := 1 })]
  saved := [⟨0x50000, [5], 0, true, 0, areaTag⟩] }

theorem coherentBytes_add (s : State) : ∀ (m n pa : Nat),
    coherentBytes s pa (m + n) = coherentBytes s pa m ++ coherentBytes s (pa + m) n
  | 0, n, pa => by simp [coherentBytes]
  | m + 1, n, pa => by
    rw [Nat.add_right_comm]
    simp only [coherentBytes, List.cons_append, coherentBytes_add s m n (pa + 1)]
    rw [Nat.add_assoc pa 1 m, Nat.add_comm 1 m]

set_option maxRecDepth 100000 in
theorem restorer_tagBytes : coherentBytes restorer 0x90050 8 = leBytes 8 areaTag.toNat := by with_unfolding_all rfl

theorem restorer_bytes : coherentBytes restorer 0x90000 256 = areaBytes (leBytes 8 areaTag.toNat) := by
  have a : coherentBytes restorer 0x90000 80 = [0x51, 0x53, 0x41, 0x56, 1, 0, 0xB0, 1, 1, 0, 0, 1, 0, 1, 0, 0] ++ List.replicate 64 0 := by
    decide +kernel
  have b : coherentBytes restorer 0x90058 168 = List.replicate 168 0 := by decide +kernel
  rw [show 256 = 80 + (8 + 168) from rfl, coherentBytes_add, coherentBytes_add, a, restorer_tagBytes, b, areaBytes]
  simp only [List.append_assoc]

/-- A walk whose answer the kernel has compared. -/
theorem walk_of {s : State} {va : Word} {l : Leaf} (h : (match walk s true 0 va with | .ok x => x = l | _ => false) = true) :
    walk s true 0 va = .ok l := by
  split at h
  · next x e => rw [e, of_decide_eq_true h]
  · cases h

theorem coherentBytes_length (s : State) (n : Nat) : ∀ pa, (coherentBytes s pa n).length = n := by
  induction n with
  | zero => intro pa; rfl
  | succ n ih => intro pa; simp [coherentBytes, ih]

/-- Bytes of lines without a key are not enciphered. -/
theorem decrypted_plain {s : State} {l : Leaf} {bs : List Byte} (h : ∀ i, i < bs.length → (s.line ((l.pa + i) / 128)).key = 0) :
    decrypted s l bs = bs := by
  unfold decrypted
  split
  · apply List.ext_getElem
    · simp
    · intro i h1 h2
      simp [h i h2]
  · rfl

/-- A load of a save area that lies in one page and whose lines have no key. -/
theorem saveLoad_page {s : State} {va : Word} {len n : Nat} {l : Leaf} (w : walk s true 0 va = .ok l) (p : poisonedAt s l len = false)
    (h : len ≠ 0) (k : min len (65536 - va.toNat % 65536) = len) (c : ∀ i, i < len → (s.line ((l.pa + i) / 128)).key = 0) :
    saveLoad s va len (n + 2) = some (coherentBytes s l.pa len) := by
  have d : decrypted s l (coherentBytes s l.pa len) = coherentBytes s l.pa len :=
    decrypted_plain (by rw [coherentBytes_length]; exact c)
  rw [saveLoad, if_neg h, w]
  simp only [k, p, Nat.sub_self]
  rw [saveLoad]
  simp [d]

theorem restorer_load (n : Nat) : saveLoad restorer 0x50000 256 (n + 2) = some (areaBytes (leBytes 8 areaTag.toNat)) := by
  rw [saveLoad_page (l := ⟨0x99013, 0x90000, 0x30028, 1⟩) (walk_of (by decide +kernel)) (by decide +kernel) (by decide) rfl (by decide +kernel)]
  rw [show (⟨0x99013, 0x90000, 0x30028, 1⟩ : Leaf).pa = 0x90000 from rfl, restorer_bytes]

theorem restorer_loadTag : saveLoad restorer (0x50000 + 0x50) 8 2 = some (leBytes 8 areaTag.toNat) := by
  rw [saveLoad_page (l := ⟨0x99013, 0x90050, 0x30028, 1⟩) (walk_of (by decide +kernel)) (by decide +kernel) (by decide) rfl (by decide +kernel)]
  rw [show (⟨0x99013, 0x90050, 0x30028, 1⟩ : Leaf).pa = 0x90050 from rfl, restorer_tagBytes]

theorem leNat_tag (t : Word) : BitVec.ofNat 64 (leNat (leBytes 8 t.toNat)) = t := by
  apply BitVec.eq_of_toNat_eq
  have := t.isLt
  simp only [leBytes, leNat, BitVec.toNat_ofNat]
  omega

/-- CTXLD of a sound area, of a unit that has room. -/
theorem witness_FirmwareInstructions' : saveCheck restorer 0x50000 = 0 ∧
    savedAt restorer 0x50000 = some ⟨0x50000, [5], 0, true, 0, areaTag⟩ ∧ 8 < 4 * coresPerDie restorer.module.blend ∧
    hasRoom restorer 8 [5] 1 = true ∧ hasRoom restorer 8 [5] 9 = false ∧
    (restoreUnit restorer ⟨0x50000, [5], 0, true, 0, areaTag⟩ 8 32 0x50000).cur = restorer.cur := by
  refine ⟨?_, ?_, by decide +kernel, by decide +kernel, by decide +kernel, by decide +kernel⟩
  · unfold saveCheck
    rw [restorer_load 0]
    have st : restorer.module.step = 0xB0 := rfl
    have l := restorer_load 298
    have f : ∀ x : List Byte, (areaBytes x).take 16 = [0x51, 0x53, 0x41, 0x56, 1, 0, 0xB0, 1, 1, 0, 0, 1, 0, 1, 0, 0] := fun x => rfl
    have g0 : leNat (((areaBytes (leBytes 8 areaTag.toNat)).drop 0).take 4) = 0x56415351 := rfl
    have g1 : leNat (((areaBytes (leBytes 8 areaTag.toNat)).drop 4).take 2) = 1 := rfl
    have g2 : leNat (((areaBytes (leBytes 8 areaTag.toNat)).drop 6).take 1) = 0xB0 := rfl
    have g3 : leNat (((areaBytes (leBytes 8 areaTag.toNat)).drop 0x0C).take 4) = 256 := rfl
    have g4 : ((areaBytes (leBytes 8 areaTag.toNat)).drop 0x50).take 8 = leBytes 8 areaTag.toNat := rfl
    have g5 : (areaBytes (leBytes 8 areaTag.toNat)).take 0x50 ++ List.replicate 8 0 ++ (areaBytes (leBytes 8 areaTag.toNat)).drop 0x58 =
      areaBytes (List.replicate 8 0) := rfl
    simp only [g0, g1, g2, g3, g4, g5, st, l, leNat_tag, show min 256 (2 ^ 24) = 256 from rfl]
    simp [areaTag]
  · unfold savedAt
    rw [restorer_loadTag]
    simp only [leNat_tag]
    simp [restorer]

theorem coherentBytes_saved (s : State) (x : List SavedUnit) (n : Nat) : ∀ pa, coherentBytes { s with saved := x } pa n = coherentBytes s pa n := by
  induction n with
  | zero => intro pa; rfl
  | succ n ih =>
    intro pa
    simp only [coherentBytes, ih]
    rfl

theorem walkFrom_saved (s : State) (x : List SavedUnit) (f : Bool) (va : Word) (n : Nat) :
    ∀ t, walkFrom { s with saved := x } f va n t = walkFrom s f va n t := by
  induction n with
  | zero => intro t; rfl
  | succ n ih =>
    intro t
    simp only [walkFrom, ih, coherentBytes_saved, show ∀ a, reachable { s with saved := x } a = reachable s a from fun _ => rfl,
      show ∀ e k, malformed { s with saved := x } e k = malformed s e k from fun _ _ => rfl,
      show ∀ a, hasMemoryFor { s with saved := x } f a = hasMemoryFor s f a from fun _ => rfl,
      show ∀ a, ({ s with saved := x } : State).line a = s.line a from fun _ => rfl]

theorem walk_saved (s : State) (x : List SavedUnit) (f : Bool) (c : Nat) (va : Word) : walk { s with saved := x } f c va = walk s f c va := by
  simp only [walk, walkFrom_saved, show rootOf { s with saved := x } f c = rootOf s f c from rfl]

theorem saveLoad_saved (s : State) (x : List SavedUnit) (n : Nat) :
    ∀ va len, saveLoad { s with saved := x } va len n = saveLoad s va len n := by
  induction n with
  | zero => intro va len; rfl
  | succ n ih =>
    intro va len
    simp only [saveLoad, ih, coherentBytes_saved, walk_saved, show ∀ l k, poisonedAt { s with saved := x } l k = poisonedAt s l k from fun _ _ => rfl,
      show ∀ l b, decrypted { s with saved := x } l b = decrypted s l b from fun _ _ => rfl]

/-- CTXLD of a sound area of which no unit is saved. -/
theorem witness_FirmwareInstructions'' : saveCheck { restorer with saved := [] } 0x50000 = 0 ∧
    savedAt { restorer with saved := [] } 0x50000 = none := by
  refine ⟨?_, ?_⟩
  · have h := witness_FirmwareInstructions'.1
    unfold saveCheck at h ⊢
    simpa only [saveLoad_saved] using h
  · unfold savedAt
    rw [saveLoad_saved, restorer_loadTag]
    rfl

/-- The slots of a TFETCH from j on, one after another. -/
def fetchTo (f : Fetch) (q n : Nat) : Nat → List (List Nat) → State → Option State
  | _, [], s => some (s.updMe fun t => t.setPart Progress.none)
  | j, _ :: ahead, s => match f.slot q n j false s with
    | .ok _ s1 => fetchTo f q n (j + 1) ahead (slotTaken s1 j n ahead)
    | .error _ _ => none

/-- Slots that are fetched one after another. -/
theorem fetchTo_runs (f : Fetch) (q n : Nat) (ahead : List (List Nat)) :
    ∀ j s s', fetchTo f q n j ahead s = some s' → fetchRuns f q n j ahead s s' := by
  induction ahead with
  | nil => intro j s s' h; exact (Option.some.inj h).symm
  | cons a ahead ih =>
    intro j s s' h
    unfold fetchTo at h
    split at h
    · next s1 e => exact ⟨s1, e, ih _ _ _ h⟩
    · cases h

/-- A descriptor of one slot of one group of 2 bytes, and one with each reserved bit. -/
theorem witness_TileFetch : opsPass tiled [.queue 35 [3] (some true), .reg 10, .reg 11] = true ∧ tiled.me.isExecute = false ∧
    onClass tiled 4 ∧ (0x8000 : Word).getLsbD 15 = true ∧ (1 : Word).extractLsb' 0 8 ≠ 0 ∧ tiled.me.part.slots = 0 ∧
    ((Fetch.of 0x7FF000000000 0x100).map fun f => stays (streamReady f.st) tiled && reaches nextFetch tiled fun n s1 =>
      reaches ((List.range f.cnt).mapM fun j => do return cachedLines (← f.sources n j)) s1 fun ahead s2 =>
        stays ((List.range f.cnt).forM f.watch) s2 && (fetchTo f 3 n 0 ahead s2).any fun s3 =>
          (s3.queue 1 3).slots.length == 2) = some true ∧
    reaches (allocSlot 3 ⟨false, false, 0, [0]⟩) tiled (fun p s => (s.queue 1 3).place p.1 p.2 == some 1 &&
      runs (fetchGroup ⟨0x7FF000000000, 0, 0, 0⟩ 2 (groupsLeft s 1 (groupFetch ⟨0x7FF000000000, 0, 0, 0⟩) 0)) s) = true := by
  unfold onClass; decide +kernel

/-- The strand on a core that keeps a read-only window, and one on a core with no free descriptor. -/
abbrev keeping : State := world.updCore 8 fun c => { c with kept := [⟨1, ⟨0x40000, 0, 8, 1, true, [], [], [], [], true⟩, [], 0, 0, none⟩] }
abbrev crammed : State := world.updCore 8 fun c => { c with
  kept := (List.range 16).map (fun i => ⟨2, ⟨0x40000, 0, 8, 1, true, [], [], [], [], true⟩, [], i, 0, none⟩) }

/-- A word, an address and a range that breaks each limit, at the limit where there is one; a range of one class, one of two, one
that meets a window; a core with a kept window of the range, with a free descriptor and without. -/
theorem witness_Windows : (2 ^ 34 : Word).toNat = 2 ^ 34 ∧ (0x30000 : Word).toNat % 128 = 0 ∧ world.me.isExecute = false ∧
    apertureOffset 0x30000 = none ∧ (apertureOffset 0x7FF000000000).isSome = true ∧ world.me.parent = none ∧ world.me.window? 0 = none ∧
    framed.me.window? 3 = none ∧ framed.me.window? 0 ≠ none ∧ 128 * (0 + 32) ≤ world.me.allotSize ∧ world.me.allotSize < 128 * (1 + 32) ∧
    framed.me.windowMeets 0 128 = true ∧ framed.me.windowMeets (128 * 24) (128 * 8) = false ∧
    framed.me.spanMeets (128 * 24) (128 * 8) none = false ∧ spanned.me.spanMeets 0 128 none = true ∧
    reaches (rangeClasses 0x40000 1024) world (fun cls s1 => !cls.any (· != cls.headD 0) && !globalMeets s1 8 1 0x40000 1024 none
      && (keptFor (s1.core 8) 1 0x40000 8).isNone && decide (descriptorsUsed s1 8 < 16)) = true ∧
    reaches (rangeClasses 0x40000 1024) framed (fun cls s1 => !cls.any (· != cls.headD 0) && globalMeets s1 8 1 0x40000 1024 none) = true ∧
    reaches (rangeClasses 0x3FF80 256) world (fun cls _ => cls.any (· != cls.headD 0)) = true ∧
    reaches (rangeClasses 0x40000 1024) keeping (fun _ s1 => let k := keptFor (s1.core 8) 1 0x40000 8
      k.isSome && !globalMeets s1 8 1 0x40000 1024 k) = true ∧
    reaches (rangeClasses 0x40000 1024) crammed (fun _ s1 => decide (16 ≤ descriptorsUsed s1 8)) = true := by
  decide +kernel

/-- A range word of x0, one whose range ends with the window and one that leaves it; KEEP on both kinds of class. -/
theorem witness_Windows' : (framed.me.window? 2).isSome = true ∧ (framed.me.window 2).cls = 1 ∧ (framed.me.window 1).cls ≠ 1 ∧
    runs (windowRange (framed.me.window 1) 0) framed = true ∧
    runs (windowRange (framed.me.window 1) 14) (framed.updMe fun t => t.setReg 14 0x10007) = true ∧
    runs (windowRange (framed.me.window 1) 14) (framed.updMe fun t => t.setReg 14 0x20007) = false ∧
    Tab.get 0 (framed.me.window 1).phys 0 = 3584 + 1 ∧
    (match walk framed false 1 0x30000 with | .ok l => !l.logEnable | _ => false) = true ∧
    (match walk framed false 1 0x30000 with
      | .ok l => !keyEmpty framed { l with pa := 3584 * 128 } && decide ((framed.line 3584).key = keyId framed l.keyIndex)
      | _ => false) = true ∧ reachable framed (3584 * 128) = true ∧
    (framed.parcel (3584 / 512)).blocked = false ∧ framed.movedPa (3584 * 128) = 3584 * 128 ∧ (framed.line 3584).code = 0 ∧
    (match walk framed false 1 0x30000 with | .ok l => !l.counterEnable | _ => false) = true ∧ roomy framed (3584 * 128) = true ∧
    lineHeld framed (3584 * 128) = false ∧ stays (awaitLines (framed.me.window 1)) framed = true ∧ stays (release 0 15) framed = true := by
  decide +kernel

/-- A table whose entries all hold one value. -/
theorem get_same {α : Type} (d v : α) (k : Nat) (l : List (Nat × α)) (hv : ∀ p ∈ l, p.2 = v) (hk : ∃ p ∈ l, p.1 = k) :
    Tab.get d l k = v := by
  induction l with
  | nil => simp at hk
  | cons q l ih =>
    unfold Tab.get
    split
    · exact hv _ List.mem_cons_self
    · next hj =>
      obtain ⟨p, hp, e⟩ := hk
      rcases List.mem_cons.mp hp with rfl | hp
      · exact absurd e hj
      · exact ih (fun p hp => hv p (List.mem_cons_of_mem _ hp)) ⟨p, hp, e⟩

/-- The entries of a booth, each on its way. -/
abbrev fullBooth (slice : Nat) : List (Nat × Booth) :=
  (List.range 2048).map fun e => (slice % 32 * 2048 + e, { Booth.blank with st := .pending })

/-- No entry of it can be allocated. -/
theorem fullBooth_none {s : State} {slice : Nat} (h : (s.die (slice / 32)).booths = fullBooth slice)
    (hw : (s.die (slice / 32)).boothWaits = []) : allocatable (serveBooth s slice) slice = none := by
  have h0 : serveBooth s slice = s := by unfold serveBooth; rw [hw]; rfl
  have hb : ∀ e < 2048, s.booth slice e = { Booth.blank with st := .pending } := by
    intro e he
    unfold State.booth
    rw [h]
    refine get_same _ _ _ _ ?_ ⟨_, List.mem_map_of_mem (List.mem_range.mpr he), rfl⟩
    intro p hp
    obtain ⟨_, _, rfl⟩ := List.mem_map.mp hp
    rfl
  have hf : (List.range 2048).find? (fun e => (s.booth slice e).st = .free) = none :=
    List.find?_eq_none.mpr fun e he => by rw [hb e (List.mem_range.mp he)]; decide
  have hr : ∀ l : List Nat, (∀ e ∈ l, e < 2048) → l.foldl (init := (none : Option (Nat × Nat))) (fun best e =>
      let b := s.booth slice e
      if b.st.released then
        match best with
        | some (_, r) => if b.released < r then some (e, b.released) else best
        | none => some (e, b.released)
      else best) = none := by
    intro l
    induction l with
    | nil => intro _; rfl
    | cons e l ih =>
      intro hl
      rw [List.foldl_cons, hb e (hl e List.mem_cons_self)]
      exact ih fun x hx => hl x (List.mem_cons_of_mem _ hx)
  rw [h0]
  unfold allocatable
  rw [hf]
  exact congrArg (Option.map Prod.fst) (hr _ fun e he => List.mem_range.mp he)

/-- With every entry of the booth of an address on the way. -/
abbrev crowded : State := { world with
  dies := [(homeDie 0x50000, { Die.blank with booths := fullBooth (sliceOf 0x50000) })] }

/-- Another strand waits at the booth for a line at 0x10000. -/
abbrev queuing : State := { world with
  strands := [(1, demo), (2, { demo with slot := 1, run := .parked (.booth (sliceOf 0x50000)) })]
  dies := [(homeDie 0x50000, { Die.blank with boothWaits :=
    [(sliceOf 0x50000, 14, { Booth.blank with issuer := 2, ctx := 1, va := 0x10000, line := true })] })] }

/-- With quota and without; with an entry, and with one after a strand that waits has been served. -/
theorem witness_TicketIssue : world.me.isExecute = false ∧ world.me.part.request = none ∧
    reaches (ticketRequest 0x10000 8 false true 3) world (fun b s1 => decide ((s1.strand (ticketOwner s1 s1.cur)).tickets
      < (s1.strand (ticketOwner s1 s1.cur)).ticketQuota) && (allocatable (serveBooth s1 (sliceOf b.pa)) (sliceOf b.pa)).isSome) = true ∧
    (apertureOffset (world.me.reg 10)).isSome = true ∧ (world.me.reg 11).toNat % 8 ≠ 0 ∧
    halts (ticketRequest 0x80000 8 false true 3) world (fun x => x.cause == 6 && !x.isEffect) = true ∧
    reaches (ticketRequest 0x10000 128 true false 3) (world' fun t => { t with tickets := 4096 }) (fun _ s1 =>
      decide ((s1.strand (ticketOwner s1 s1.cur)).ticketQuota ≤ (s1.strand (ticketOwner s1 s1.cur)).tickets)) = true ∧
    (127 < 128 ∧ 2047 < 2048 ∧ (world.booth 127 2047).gen < 65536 ∧ 4095 < 4096 ∧ (world.booth 127 2047).st.released = false) ∧
    (match (queuing.die (sliceOf 0x50000 / 32)).boothWaits.find? (boothAsks queuing (sliceOf 0x50000)),
      allocatable queuing (sliceOf 0x50000) with
      | some q, some e =>
        let s0 := queuing.updDie (sliceOf 0x50000 / 32) fun k => { k with boothWaits := k.boothWaits.erase q }
        match refreshRequest s0 q.2.2 with
        | .ok b' => sliceOf b'.pa == sliceOf 0x50000 &&
          decide (((allocateEntry s0 (sliceOf 0x50000) e b').2.strand q.2.2.issuer).run = .parked (.booth (sliceOf 0x50000)))
        | .error _ => false
      | _, _ => false) = true := by
  decide +kernel

/-- With every entry of the booth taken. -/
theorem witness_TicketIssue' : reaches (ticketRequest 0x10000 128 true false 3) crowded (fun b s1 => sliceOf b.pa == sliceOf 0x50000 &&
    decide ((s1.strand (ticketOwner s1 s1.cur)).tickets < (s1.strand (ticketOwner s1 s1.cur)).ticketQuota) &&
    decide ((s1.die (sliceOf 0x50000 / 32)).booths = fullBooth (sliceOf 0x50000)) &&
    (s1.die (sliceOf 0x50000 / 32)).boothWaits.isEmpty) = true := by decide +kernel

/-- With the ticket of an entry of slice 0 in x14. -/
abbrev holding (b : Booth) : State := { queued with
  strands := [(1, queued.me.setReg 14 0x2002B8A)]
  dies := [(0, { Die.blank with booths := [(0, { b with ctx := 1, gen := 1, issuer := 1, size := 8 })] })] }

/-- An entry whose read is on the way, one whose data has arrived, and a line's. -/
abbrev pending : State := holding { Booth.blank with st := .pending }
abbrev arrived : State := holding { Booth.blank with st := .ready, arrived := true }
abbrev spoilt : State := holding { Booth.blank with st := .ready, arrived := true, poison := true }
abbrev arrivedLine : State := holding { Booth.blank with st := .ready, arrived := true, line := true }

/-- Past the lifetime. -/
abbrev late : State := { arrived with clock := 5600000000 }

theorem witness_TicketRedeem : pending.me.isExecute = false ∧ tkSlice (pending.me.reg 14) = 0 ∧ tkEntry (pending.me.reg 14) = 0 ∧
    pending.me.reg 14 = 0x2002B8A ∧ ticketLocal pending 1 0 = some 0 ∧ pending.me.gangs = [] ∧ landQueue pending 8 = [] ∧ boothExpired pending (pending.booth 0 0) = false ∧
    world.me.part.request = none ∧ (pending.die 0).fenced = false ∧
    (pending.core 8).landing.length < 128 ∧ claimRejected (pending.booth 0 0) 0x2002B8A 0 1 = none ∧ (pending.booth 0 0).arrived = false ∧
    claimRejected (pending.booth 0 0) 0x2002B8A 1 1 = some 6 ∧
    claimRejected (arrived.booth 0 0) 0x2002B8A 0 1 = none ∧ (arrived.booth 0 0).arrived = true ∧ (arrived.booth 0 0).poison = false ∧
    claimRejected (spoilt.booth 0 0) 0x2002B8A 0 1 = none ∧ (spoilt.booth 0 0).arrived = true ∧ (spoilt.booth 0 0).poison = true ∧
    claimRejected (arrivedLine.booth 0 0) 0x2002B8A 1 1 = none ∧ opsPass pending [.queue 33 [1, 2] (some true)] = true ∧
    opsPass pending [.queue 34 [1, 2] (some true)] = true ∧ claimRejected (arrivedLine.booth 0 0) 0x2002B8A 3 1 = none ∧
    claimRejected (pending.booth 0 0) 0x2002B8A 2 1 = none ∧ (pending.booth 0 0).heldBy 1 = false ∧
    runs (allocSlot 1 ⟨false, false, 0, []⟩) pending = true ∧ runs (allocSlot 2 ⟨false, false, 0, []⟩) arrivedLine = true ∧
    liveEntry pending 0 = none ∧ (pending.booth 0 0).st = .pending ∧ (arrived.booth 0 0).st = .ready ∧
    ((holding { Booth.blank with st := .redeemed }).booth 0 0).st = .redeemed := by
  decide +kernel

/-- On a fenced die, and past the lifetime of its context. -/
theorem witness_TicketRedeemLate :
    ((pending.updDie 0 fun k => { k with fenced := true }).die (tkSlice (pending.me.reg 14) / 32)).fenced = true ∧
    boothExpired late (late.booth 0 0) = true ∧ (late.booth 0 0).gen = tkGen (late.me.reg 14) ∧
    (late.booth 0 0).ctx = tkCtx (late.me.reg 14) ∧ ticketLocal late 1 (late.me.reg 14) = none ∧ (late.die 0).fenced = false ∧
    landQueue late 8 = [] ∧ (late.core 8).landing = [] := by
  decide +kernel

theorem witness_TicketRedeem' : ticketLocal pending 1 0x2002B8A = none ∧ liveEntry pending 0x2002B8A = some (pending.booth 0 0) := by decide +kernel

/-- A strand that waits for the delivery of an entry that it claimed, for a landing slot, or for nothing. -/
abbrev claiming (r : Run) (b : Booth) : State := (holding { b with st := .claimed, claimer := 1 }).updMe fun t => { t with run := r }

theorem witness_TicketEvents : (pending.booth 0 0).arrived = false ∧ inLogStore 0x50000 = false ∧ roomy world 0x50000 = true ∧
    ((holding { Booth.blank with st := .dropped }).booth 0 0).st.released = true ∧ (pending.die 0).fenced = false ∧ (pending.booth 0 0).st = .pending ∧
    poisonedAt world ⟨0x58013, 0x50000, 0, 1⟩ 8 = false ∧ (world.line (0x50000 / 128)).code = 0 ∧ world.writeBacks = [] ∧ tierOf 0x50000 < 2 ∧
    (world.line (0x50000 / 128)).key = keyId world 0 ∧ (world.parcel 5).log = [] ∧ (world.parcel 5).held = [] ∧
    world.movedPa 0x50000 = 0x50000 ∧
    deliverable (claiming (.parked (.ticket 0x2002B8A 0 14)) { Booth.blank with arrived := true }) 1 = [(0, 0)] ∧
    deliverable (claiming .ready { Booth.blank with arrived := true, dest := some (1, 0, 0) }) 1 = [(0, 0)] ∧
    ((((claiming .ready Booth.blank).updQueue 1 1 fun k => { k with slots := [⟨false, false, 0, []⟩] }).queue 1 1).place 0 0).isSome = true ∧
    claimedBy (claiming (.parked (.ticket 0x2002B8A 0 14)) Booth.blank) 1 = [(0, 0)] ∧
    boothExpired late (late.booth 0 0) = true ∧ (world.queue 1 1).place 0 0 = none ∧
    (framed.me.window? 1).isSome = true ∧ Tab.get 0 (framed.me.window 1).valid 1 ≠ BitVec.allOnes 32 ∧ framed.me.run.holdsSlot = true ∧
    runs (do rebindWindow 1 1; fillWindowLine 1 1 1 false 0x30080) framed = true := by
  decide +kernel

/-- A strand at firmware level that waits for a landing slot. -/
abbrev landing : State := (arrived.updMe fun t => { t with firmware := true, run := .parked (.landing 0x2002B8A 0 14) }).updCore 8 fun c =>
  { c with landers := [1] }

theorem witness_TicketEvents' : (landQueue landing 8).head? = some 1 ∧ (landing.core 8).landing.length < 128 ∧
    (landing.die (tkSlice 0x2002B8A / 32)).fenced = false ∧
    reaches (claimTicket 0x2002B8A 0 14) { (wake landing 1).updCore 8 fun c => { c with landers := c.landers.filter (· != 1) } with cur := 1 }
      (fun f s => (match f with | .seq => true | _ => false) && s.me.firmware) = true := by
  decide +kernel

/-- With the notification ring of the context at Naing's addresses 0x30000 and 0x10000, empty. -/
abbrev ringed (tail : Nat) : State := { world with
  contexts := [(1, { world.context 1 with policy := some 1, ringBase := 0x10000, ringCb := 0x10040 })]
  mem := memStore tables 0x50040 (leBytes 8 tail) }

/-- A free frame of tier 1 on the home die of parcel 1. -/
abbrev supplied : State := world.updDie (homeDie 0x50000) fun k => { k with frames := [(1, [0x100000009])], reserve := [9] }

/-- An address that does not translate, a parcel in each tier, a refused request and an accepted one; an empty ring and one with an
entry; keep-resident at the quota and below it. -/
theorem witness_ParcelInstructions : (world.context world.me.ctx).policy = some world.cur ∧
    ((world.updContext 1 fun c => { c with policy := none }).context 1).policy ≠ some 1 ∧
    parcelLeaf world 0x80000 = none ∧ (parcelLeaf world 0x10000).map (fun l => (l.frame, l.tier, l.keepResident)) = some (5, 0, false) ∧
    (parcelLeaf world 0x70000).map (fun l => (l.counterEnable, ((world.updParcel l.frame fun p => { p with counted := true }).parcel l.frame).counted))
      = some (true, true) ∧
    (parcelLeaf world 0x10000).map (fun l => (freeFrame (world.die (homeDie l.pa)) 1 false).isNone) = some true ∧
    (parcelLeaf supplied 0x10000).map (fun l => ((supplied.parcel l.frame).migrating || l.tracePin || l.savePin || l.keepResident
      || decide (l.level = 2) || decide (3 ≤ 1) || (freeFrame (supplied.die (homeDie l.pa)) 1 false).isNone
      || decide (64 ≤ ((supplied.die (homeDie l.pa)).migrations.filter fun m => m.phase = 0).length))) = some false ∧
    runs (vecReady 3) world = true ∧ naingCount (ringed 0) 0x10040 = some 0 ∧ naingCount (ringed 0) 0x10048 = some 0 ∧
    naingCount (ringed 1) 0x10040 = some 1 ∧ (walk (ringed 1) true 0 0x10000).isOk = true ∧
    (naingStore (ringed 1) 0x10048 (leBytes 8 1)).isSome = true ∧
    (world.context 1).keepUsed < (world.context 1).keepQuota ∧
    ((world.updContext 1 fun c => { c with keepUsed := 1 }).context 1).keepQuota ≤ ((world.updContext 1 fun c => { c with keepUsed := 1 }).context 1).keepUsed ∧
    (parcelLeaf world 0x10000).map (fun l => (l.entry % 8, (world.line (l.entry / 128)).code)) = some (0, 0) := by
  decide +kernel

/-- An engine with a queued migration of parcel 1 to tier 1, with one whose first shootdown has ended, and with one whose second has. -/
abbrev migrating (phase : Nat) (seq : Nat) : State := supplied.updDie (homeDie 0x50000) fun k => { k with
  migrations := [⟨1, 0x10000, 5, 1, 0x100000009, phase, seq, false, false⟩], frames := [(1, [0x100000009])] }

/-- A shootdown that the shared cache of die 0 and core 8 have not acknowledged, and one that every agent has. -/
abbrev shot (pending : List Nat) : State := { world.updDie 0 fun k => { k with shoots := [⟨0, false, false, 1, 0x10000, pending⟩] } with cur := 1 }

theorem witness_ParcelMigration : ((migrating 0 0).die (homeDie 0x50000)).running < 4 ∧
    (((migrating 0 0).die (homeDie 0x50000)).migrations.find? (startable ((migrating 0 0).die (homeDie 0x50000)))).bind (fun m =>
      (migrationLeaf (migrating 0 0) m).map fun l => (l.entry % 8, ((migrating 0 0).line (l.entry / 128)).code,
        (freeFrame ((migrating 0 0).die (homeDie 0x50000)) m.target m.forced).isSome)) = some (0, 0, true) ∧
    (world.die 0).migrations.find? (startable (world.die 0)) = none ∧
    shooting (shot [8]) 0 0 = true ∧ shooting (migrating 1 0) (homeDie 0x50000) 0 = false ∧
    ((migrating 1 0).lines.any fun x => x.1 / 512 = 5 && (x.2.code = 1 || x.2.code = 2)) = false ∧ ((migrating 1 0).parcel 5).held = [] ∧
    (match walk (migrating 1 0) false 1 0x10000 with | .ok l => l.entry % 8 = 0 | _ => false) = true ∧ 0x100000009 ≠ 5 ∧
    ((migrating 2 0).parcel 0x100000009).held = [] ∧ (walk world false 1 0x80000).isOk = false ∧
    (requestMigration supplied ⟨0x58013, 0x50000, 0x30008, 1⟩ 1 0x10000 1 false).1 = 1 ∧ hasMemory world (9 * 65536) = true ∧ hasMemory world (0x100000009 * 65536) = true ∧
    hasMemory world (2 ^ 35 * 65536) = false ∧ tierOf 0x1000000000000 = 1 ∧ (world.parcel 0x100000000).log.length < 4096 ∧
    latestOverlap (world.parcel 0x100000000).log 0 8 = none ∧ lineHeld world 0x1000000000000 = false ∧ (world.die (homeDie 0x1000000000000)).logUse + 1 < logCapacity * 9 / 10 ∧
    nextShootdown world 0 0 8 = none ∧ (nextShootdown (shot [8, 0x4000]) 0 0 8).map (fun x => shootWaits (shot [8, 0x4000]) x 8) = some false ∧
    (nextShootdown (shot [8, 0x4000]) 0 0 0x4000).isSome = true ∧ (∀ y ∈ ((shot []).die 0).shoots, y.seq = 0 → y.pending = []) ∧
    (((shot [8]).updMe fun t => { t with run := .parked (.shootdown 0 1 14 1) }).strand 1).called = false ∧ shooting (shot [8]) 0 1 = false := by
  decide +kernel

/-- Line 3072 held in a state of its home, with a copy in a core or in the guest cache of another die. -/
abbrev held (code : Nat) (sharers : List Nat) (core : Nat) (dirty : BitVec 32) : State :=
  ({ world with lines := [(3072, ⟨code, sharers, false, 1, false⟩)], parcels := [(6, { Parcel.blank with ctx := 1, va := 0x20000 })] } : State).setCopy core 3072 ⟨7, dirty, 0, true, code == 2, []⟩

/-- With a write-back of the line in flight, and with the line in the guest cache of die 1, owned and not. -/
abbrev flying : State := { held 2 [8] 8 1 with writeBacks := [⟨8, 3072, 4, 7, 1⟩] }
abbrev guested (owned : Bool) : State := world.setGuest 1 3072 ⟨7, 1, 0, true, owned, []⟩

/-- With the line owned by the host. -/
abbrev hosting : State := { held 2 [agentHost 0] 8 0 with hostCopies := [(3072, ⟨7, 1, 0, true, true, []⟩)] }

/-- Each state of a line; the first and the last core of the home's die; an agent with a clean copy, a dirty one and none. -/
theorem witness_HomeEvents : homeDie (3072 * 128) = 0 ∧ requester world 0 3072 = 0 ∧
    requester world (coresPerDie world.module.blend - 1) 3072 = coresPerDie world.module.blend - 1 ∧
    ((held 1 [8, 9] 9 0).writeBacks = [] ∧ ((held 1 [8, 9] 9 0).parcel (3072 / 512)).blocked = false ∧
      (held 1 [8, 9] 9 0).movedPa (3072 * 128) = 3072 * 128) ∧ windowed (held 1 [8, 9] 9 0) 8 3072 = false ∧
    keyGone (held 1 [8, 9] 9 0) 3072 = false ∧ ((held 1 [8, 9] 9 0).line 3072).key = keyId (held 1 [8, 9] 9 0) 0 ∧
    (((held 1 [8, 9] 9 0).line 3072).key - 1) / 2 ^ 32 = 0 ∧ keyGone hosting 3072 = false ∧ keyGone flying 3072 = false ∧
    (hosting.line 3072).key = keyId hosting 0 ∧ (flying.line 3072).key = keyId flying 0 ∧
    ((held 3 [] 8 0).line 3072).code = 3 ∧ ((held 2 [9] 9 1).line 3072).sharers = [9] ∧ (9 : Nat) ≠ 8 ∧
    ((held 2 [8] 8 1).copyIn 8 3072).isSome = true ∧ holdsClean (held 1 [8] 8 0) 8 3072 = true ∧ holdsClean (held 2 [8] 8 1) 8 3072 = false ∧
    roomy (held 1 [8, 9] 9 0) (3072 * 128) = true ∧
    ((held 1 [8, 9] 9 0).leafOfFrame (3072 / 512)).map (fun l => l.counterEnable) = some false ∧
    (((recallAll (held 2 [8] 8 1) 3072).updLine 3072 fun k => { k with cached := false, dirty := false }).leafOfFrame (3072 / 512)).map
      (fun l => l.counterEnable) = some false ∧ ((held 0 [] 9 0).line 3072).dirty = false ∧
    (Tab.get Copy.none hosting.hostCopies 3072).owned = true ∧ sharerBit (agentHost 1) = agentHost 0 ∧
    hosting.writeBacks = [] ∧ (hosting.parcel (3072 / 512)).blocked = false ∧ hosting.movedPa (3072 * 128) = 3072 * 128 ∧
    world.writeBacks.find? (fun w => w.agent = 8 && w.line = 3072 && w.seq = 4) = none ∧
    flying.writeBacks.find? (fun w => w.agent = 8 && w.line = 3072 && w.seq = 4) = some ⟨8, 3072, 4, 7, 1⟩ ∧
    (flying.parcel (3072 / 512)).blocked = false ∧ (world.guestIn 1 3072).isNone = true ∧
    ((guested true).guestIn 1 3072).isSome = true ∧ ((guested false).guestIn 1 3072).isSome = true := by
  decide +kernel

/-- A command of one element of 64 bits from the second doubleword of home memory to the third, and its 64 bytes. -/
def cmd : Command := { Command.blank with
  src := 0x10008, dst := 0x10010, counts := 0x0001000100010001, ss := [0, 0, 0], ds := [0, 0, 0], ctrl := 3
  st := .running, gen := 1, ctx := 1, issuer := 1 }
def cmdBytes : List Byte := leBytes 8 0x10008 ++ leBytes 8 0x10010 ++ leBytes 8 0x0001000100010001 ++ leBytes 24 0 ++ leBytes 8 3 ++ leBytes 8 0

/-- On a C-core, with the command's bytes at its source and a command in entry 0 of die 0, whose handle is in x14. -/
abbrev engine (c : Command) : State := { (onCore 0).updDie 0 (fun k => { k with cmds := [(0, c)] }) with
  strands := [(1, { (onCore 0).me.setReg 14 0x10000 with vl := 0x3004 })]
  mem := memStore tables 0x50000 cmdBytes }

/-- A misaligned block, one with a bad field, a bad port and an aperture address, and a sound one; with an entry and without. -/
theorem witness_EngineInstructions : (onCore 0).me.isExecute = false ∧ onClass (onCore 0) 1 ∧ (world.me.reg 11).toNat % 64 ≠ 0 ∧
    runs (do engineRelease; readBytes 0x7FF000000000 64 false 2) (engine cmd) = true ∧
    halts (do engineRelease; readBytes 0x80000 64 false 2) (engine cmd) (fun x => x.cause == 6 && !x.isEffect) = true ∧
    (watchHit (engine cmd).me .load 0x10000 64).isNone = true ∧ (watchHit watched.me .load 0x10000 64).isSome = true ∧
    reaches (do engineRelease; readBytes 0x10000 64 false 2) (engine cmd) (fun r s2 => let c := Command.ofBytes r.1
      !c.invalid (leNat (r.1.drop 0x3C)) && !c.badPort s2 s2.me && decide (apertureOffset c.src = none)
        && decide (apertureOffset c.dst = none) && (cmdAllocatable (s2.die (dieOf s2 s2.me.core))).isSome
        && decide (((s2.die (dieOf s2 s2.me.core)).cmds.filter fun x => x.2.ctx = s2.me.ctx && x.2.st.active).length
          < (s2.context s2.me.ctx).engineShare)) = true ∧
    (Command.ofBytes (leBytes 64 0)).invalid 0 = true ∧ ({ cmd with ctrl := 3 + 12 + 64 * 64, src := 0 } : Command).badPort world world.me = true ∧
    ({ cmd with ctrl := 3 + 12 + 64 * 64, src := 0 } : Command).invalid 0 = false ∧
    (apertureOffset ({ cmd with src := 0x7FF000000000 } : Command).src).isSome = true ∧
    ((engine cmd).context 1).engineShare = 64 ∧ liveHandle (engine cmd) 1 0 = none ∧
    liveHandle (engine cmd) 1 0x10000 = some (0, 0) ∧ (cmd.st.active = true ∧ cmd.stop = false) ∧
    ({ cmd with st := .done } : Command).st.active = false ∧
    liveHandle (engine { cmd with ctrl := 3 + 4, input := [], pushes := 0 }) 1 0x10000 = some (0, 0) ∧ cmd.hasInput = false ∧
    ({ cmd with ctrl := 3 + 4 } : Command).hasInput = true ∧ ({ cmd with ctrl := 3 + 4 } : Command).needed = 1 ∧
    runs engineRelease (engine cmd) = true ∧ (onCore 0).me.gangs = [] ∧ 64 ≤ (List.replicate 64 (0 : Word)).length ∧ cmd.hasOutput = false ∧
    ({ cmd with ctrl := 3 + 32 } : Command).hasOutput = true := by
  unfold onClass; decide +kernel

/-- An unconfigured channel, one below the need and one at it; a channel in use; parcels of each class; a gang port without a gang,
with one that is complete, with one of another length and with one that the strand completes. -/
theorem witness_EngineInstructions' : (world.channel 1 0).size = 0 ∧
    ((world.updContext 1 fun c => { c with channels := [(0, ⟨0x10000, 128, 1, 64, [], [], 0, none⟩)] }).channel 1 0).wm = 64 ∧
    (activeCmds (engine { cmd with ctrl := 3 + 2 ^ 28 })).any (fun k => ((engine { cmd with ctrl := 3 + 2 ^ 28 }).cmd k.1 k.2).ctx = 1
      && ((engine { cmd with ctrl := 3 + 2 ^ 28 }).cmd k.1 k.2).chen && ((engine { cmd with ctrl := 3 + 2 ^ 28 }).cmd k.1 k.2).chan = 0) = true ∧
    (activeCmds world).any (fun k => (world.cmd k.1 k.2).ctx = 1 && (world.cmd k.1 k.2).chen) = false ∧
    reaches (channelClasses 0x10000 128) world (fun cls _ => cls.all fun c => c = 2 ∨ c = 3) = true ∧
    reaches (channelClasses 0x30000 128) world (fun cls _ => cls.any fun c => decide (c ≠ 2 ∧ c ≠ 3)) = true ∧
    runs (channelClasses 0 0) world = true ∧ onClass world 6 ∧ (findGang world 1 0 63).isNone = true ∧
    queueCheck queued 1 2 [2] (some true) = none ∧ queueCheck queued 1 1 [2] (some true) = some 1 ∧
    ((world.updContext 1 fun c => { c with gangs := [⟨0, 63, 2, 0x3004, [], true, 0, []⟩] }).context 1).gangs.head?.map (fun g => (g.complete, g.size, vlKey g.vl)) =
      some (true, 2, (4, 3)) ∧ vlKey world.me.vl = (0, 0) ∧ vlKey strip.me.vl = (4, 3) := by
  unfold onClass; decide +kernel

/-- Whatever element is picked, a command of one element picks element 0. -/
theorem pick_one (free : Nat) : cmd.pick free = 0 := by
  have h : cmd.total = 1 := by decide
  unfold Command.pick
  rw [h, Nat.mod_one]
  decide +kernel

/-- Queued, with a channel that fits and one that does not; running, with an element left; at its end. -/
abbrev ended : Command := { cmd with count := 1 }
abbrev porting : Command := { cmd with ctrl := 3 + 16 + 8192 * 64, dst := 0, launch := 0, stage := 0, gather := [1, 2] }
abbrev ganging (members : List (Nat × Nat)) (strips : Nat) : State := { queued with
  contexts := [(1, { queued.context 1 with gangs := [⟨0, 63, 1, 0x3004, members, true, strips, []⟩] })]
  dies := [(0, { Die.blank with cmds := [(0, { cmd with ctrl := 3 + 16 + 8192 * 63, dst := 0, count := 1, gather := [1, 2] })] })] }

theorem witness_EngineEvents : startableCmd (engine { cmd with st := .queued }) 0 0 = true ∧ startableCmd (engine cmd) 0 0 = false ∧
    (cmd.chen = false ∧ cmd.red = 0) ∧ ({ cmd with ctrl := 3 + 2 ^ 28 } : Command).chen = true ∧ ((engine cmd).channel 1 0).size = 0 ∧
    (cmd.st = .running ∧ cmd.stop = false ∧ cmd.count < cmd.total ∧ cmd.skind = 0 ∧ cmd.dkind = 0 ∧ cmd.rowHeld 0 = false) ∧
    ({ cmd with ctrl := 3 + 2 ^ 20 } : Command).red = 1 ∧
    (match engineRead (engine cmd) 0 0 0x10008 8 with
      | .ok (v, s1) => decide (s1.cmd 0 0 = cmd) && (engineWrite s1 0 0 0x10010 none (fun _ => v)).isOk
        && !(engineWrite s1 0 0 0x40000 none (fun _ => v)).isOk
      | .error _ => false) = true ∧ (engineRead (engine cmd) 0 0 0x80000 8).isOk = false ∧
    (match engineLeaf (engine cmd) 0 1 .atomic 0x10010 8 with
      | .ok l => l.cls == 2 && !l.logEnable && !l.counterEnable && !keyEmpty (engine cmd) l && reachable (engine cmd) l.pa && l.pa % 8 == 0
        && ((engine cmd).line (l.pa / 128)).code == 0 && ((engine cmd).line (l.pa / 128)).key == keyId (engine cmd) l.keyIndex
        && !((engine cmd).parcel l.frame).blocked && (engine cmd).movedPa l.pa == l.pa && !lineHeld (engine cmd) l.pa
      | .error _ => false) = true ∧
    (({ cmd with finished := [0] } : Command).finished = [0] ∧ cmd.output.length < 64) ∧
    endable (engine ended) 0 0 = true ∧ endable (engine cmd) 0 0 = false ∧ (match endGate (engine ended) 0 0 with | .hold => false | _ => true) = true ∧
    ({ cmd with ctrl := 3 + 2 ^ 29 } : Command).int = true ∧ ((engine ended).strand 1).run ≠ .done ∧ ((engine ended).strand 1).completions.length < 16 := by
  decide +kernel

/-- An ordered fold of key 2 in a channel of groups of 4, whose key 1 has failed, and one of key 1. -/
abbrev ordered (key : Nat) : State := (engine { cmd with st := .queued, ctrl := BitVec.ofNat 64 (3 + 2 ^ 21 + 2 ^ 28 + key * 2 ^ 32) }).updContext 1 fun c =>
  { c with channels := [(0, ⟨0x10000, 128, 4, 0, [], [], 0, some 1⟩)] }

/-- With a granted block's slot ahead for the gang's one member. -/
abbrev allotted : State := { ganging [(1, 34)] 0 with contexts := [(1, { queued.context 1 with gangs :=
  [⟨0, 63, 1, 0x3004, [(1, 34)], true, 0, [[(1, 2, 3, 0)]]⟩] })] }

theorem witness_EngineEventsKeys : ((ordered 2).cmd 0 0).red = 2 ∧ ((ordered 2).cmd 0 0).keyed = true ∧ ((ordered 2).cmd 0 0).key = 2 ∧
    ((ordered 1).cmd 0 0).key = 1 ∧ ((ordered 2).cmd 0 0).chen = true ∧ startableCmd (ordered 2) 0 0 = true ∧ startableCmd (ordered 1) 0 0 = true ∧
    ((ordered 2).channel 1 0).dead = some 1 ∧ 2 < ((ordered 2).channel 1 0).group ∧ ((ordered 2).channel 1 0).size ≠ 0 ∧
    roomy (engine cmd) 0x50010 = true ∧ stripMoves allotted 1 0 63 = true ∧
    (findGang allotted 1 0 63).any (fun g => !gangOverrun g && g.ahead.flatten == [(1, 2, 3, 0)]) = true ∧
    ({ cmd with ctrl := 3 + 16 + 8192 * 63 } : Command).dkind = 1 ∧ ({ cmd with ctrl := 3 + 16 + 8192 * 63 } : Command).dport < 64 ∧
    teardownWaits (world.updContext 1 fun c => { c with closing := some 0 }) 1 = false ∧
    teardownWaits ((engine cmd).updContext 1 fun c => { c with closing := some 0 }) 1 = true ∧
    teardownOver ((engine cmd).updContext 1 fun c => { c with live := true, closing := some 0 }) 1 = true := by
  decide +kernel

theorem witness_EngineEvents' : announces world (0, 0, 0) = none ∧ announces (engine porting) (0, 0, 0) = some (0, 0) ∧
    grants world (0, 0, 80) = false ∧ grants { world with stageQueues := [⟨0, 0, 80, 0, [[1]], [], []⟩] } (0, 0, 80) = true ∧
    (stageQueue { world with stageQueues := [⟨0, 0, 1, 0, [], [[1]], []⟩] } (0, 0, 1)).granted = [[1]] ∧ (stageQueue world (0, 0, 1)).granted = [] ∧
    stripMoves world 1 0 63 = false ∧ stripMoves (ganging [(1, 3)] 0) 1 0 63 = true ∧ stripMoves (ganging [(1, 34)] 0) 1 0 63 = true ∧
    (findGang (ganging [(1, 3)] 0) 1 0 63).map gangOverrun = some false ∧ (findGang (ganging [(1, 3)] 1) 1 0 63).map gangOverrun = some true ∧
    gangCommand (ganging [(1, 3)] 0) 1 0 63 = some 0 ∧ (world.context 1).live = true ∧ (world.context 1).closing = none ∧
    (world.context 2).live = false ∧ teardownOver world 1 = false ∧
    teardownOver (world.updContext 1 fun c => { c with closing := some 0 }) 1 = true := by
  decide +kernel

/-- In a handler, with a return address that is aligned and one that is not; with a completion that can be taken. -/
abbrev handling (pc : Word) : State := world' fun t => { t with uistat := 3, uipc := pc }
abbrev completed : State := world' fun t => { t with uistat := 1, uivec := 0x200, completions := [⟨5, 3, 0⟩] }
/-- A held event of die 0, for which the executing strand waits, since 2 ms. -/
abbrev replaying : State := { (world' fun t => { t with run := .parked (.replay 0) }) with
  clock := 11200000, dies := [(0, { Die.blank with replayHolds := [(.strandWake 1, 0, false)] })] }

theorem witness_InterruptsAndTrace : world.me.uistat.getLsbD 1 = false ∧ (handling 4).me.uistat.getLsbD 1 = true ∧
    (handling 4).me.uipc.toNat % 4 = 0 ∧ (handling 2).me.uipc.toNat % 4 ≠ 0 ∧ traces world world.me 6 = false ∧
    (world.strand 1).completions = [] ∧ takesInterrupt (completed.strand 1) = true ∧ completed.me.completions = [⟨5, 3, 0⟩] ∧
    (world.residents 8).contains 1 = true ∧
    sampleDue ({ (world' fun t => { t with trace := { t.trace with admitted := true } }) with
      contexts := [(1, { world.context 1 with trace := { TraceCtx.blank with filt := 0xFF, smp := 1 } })], clock := 56000000 }) 1 = true ∧
    world.movedPa 0x50000 = 0x50000 ∧ keyEmpty world ⟨0x58013, 0x50000, 0, 1⟩ = false ∧ reachable world 0x50000 = true ∧
    (world.line (0x50000 / 128)).key = keyId world (⟨0x58013, 0x50000, 0, 1⟩ : Leaf).keyIndex ∧ (world.parcel (0x50000 / 65536)).blocked = false ∧ roomy world 0x50000 = true ∧
    (⟨0x58013, 0x50000, 0, 1⟩ : Leaf).cls = 2 := by
  decide +kernel

/-- A move that waits for a core, one whose search is over, and one whose slot is reserved; a strand that returns home. -/
def move : Move := ⟨1, 2, 0, 1000, none, 0, none, 1, 0, []⟩
abbrev moving (m : Move) (r : Run) : State := { (onCore 0).updMe fun t => { t with run := r, emuVec := 0x300, resumeAs := .ready } with moves := [m] }

/-- A strand on its way whose context is lost. -/
abbrev homeless : State := (moving { move with target := some (8, [0]) } .migrating).updContext 1 fun c => { c with lost := true }

theorem witness_MovesAndWakes : wakeable world 1 = false ∧
    wakeable (queued.updMe fun t => { t with run := .parked (.queueData 0) }) 1 = true ∧ queued.me.called = false ∧
    (world' fun t => { t with run := .parked .event, async20 := some 7 }).me.called = true ∧ (Wait.event).atHome = false ∧
    movable (moving move (.parked (.migrate 2 true))) move = some 8 ∧ movable ((moving move (.parked (.migrate 2 true))).updMe fun t => { t with travel := { t.travel with credits := 0 } }) move = none ∧
    ({ move with deadline := 0 } : Move).deadline < (moving move .ready).time ∧ (moving move .ready).me.coupled = false ∧
    (moving move .ready).me.canEmulate [] = true ∧ ({ move with dest := some 14 } : Move).dest = some 14 ∧
    drained (moving { move with target := some (8, [0]) } .migrating) 1 = true ∧
    drained (((moving move .migrating).updQueue 1 0 fun k => { k with slots := [⟨false, false, 0, []⟩] })) 1 = false ∧
    (world' fun t => { t with travel := { t.travel with returns := [1] } }).me.travel.returns = [1] ∧ 1 ≤ world.time ∧
    movable (onCore 0) ⟨1, 2 ^ (onCore 0).me.travel.launchClass, 3, (onCore 0).time, none, (onCore 0).clock, none, 0, 0, []⟩ = some 8 ∧
    classOf (onCore 0) 0 ≠ (onCore 0).me.travel.launchClass ∧ 2 ≤ (onCore 0).me.travel.credits ∧ (onCore 0).me.run.inPlay = true ∧
    ((7 : BitVec 3).toNat &&& (world.strand (world.owner 1)).travel.allowed) = 7 ∧ world.moves = [] ∧
    ((moving move (.parked (.migrate 2 true))).couple 1).all (fun v => ((moving move (.parked (.migrate 2 true))).strand v).atPlace.isNone) = true ∧
    ((onCore 0).couple 1).all (fun v => ((onCore 0).strand v).atPlace.isNone) = true ∧
    ((parkTiles (closeWindows (moving { move with target := some (8, [0]) } .migrating) 1 false) 1 8).context 1).lost = false ∧
    ((moving { move with target := some (8, [0]) } .migrating).strand 1).tileSave = none ∧
    drained homeless 1 = true ∧ homeless.me.coupled = false ∧
    ((parkTiles (closeWindows homeless 1 false) 1 8).context 1).lost = true := by
  decide +kernel

/-- A pre-emption of strand 1, with a save area in a save-pinned parcel, for which strand 5 waits. -/
abbrev preempting : State := { world with
  strands := [(1, { demo with saveBase := 0x50000 }), (5, { demo with slot := 1, run := .parked (.save 1 14) })]
  preempts := [⟨[1], some (5, 14)⟩] }

theorem witness_MovesAndWakes' : preempting.preempts.find? (fun p => p.members.contains 1) = some ⟨[1], some (5, 14)⟩ ∧
    saveReady preempting ⟨[1], some (5, 14)⟩ = true ∧ (preempting.context 1).lost = false ∧ (preempting.strand 1).spoiled = [] ∧
    (saveStore preempting (carouselUnit preempting 1) 0x50000 (saveArea preempting [1]) 64).isSome = true ∧ (preempting.strand 1).saveBase.toNat % 4096 = 0 := by
  decide +kernel

/-- The header of an image of 256 bytes without sections, loops, queues and windows that may run on every class. -/
def header : List Byte :=
  leBytes 4 0x314E4451 ++ leBytes 2 1 ++ leBytes 2 0 ++ leBytes 4 256 ++ leBytes 1 0 ++ leBytes 1 7 ++ leBytes 10 0 ++
    leBytes 8 0x10000 ++ leBytes 8 0x10000 ++ leBytes 8 0x10000 ++ leBytes 208 0

/-- A record that launches the image at 0x30000 with an allotment of 1 KiB, and a completion value 9 for address 0x10060. -/
def record : List Word := [0x30000, 0x10000, 0, 0, 0, 0x10060, 9, 0x10000]

/-- With an Active launch queue whose ring of one record and control block stand in home memory. -/
abbrev launching (tail : Nat) (bs : List Byte) : State := { world with
  queues := [(0, ⟨0x10000, 0x10040, 0, 0, 1, 0, 1, none⟩)]
  lines := world.lines ++ [(3585, { Line.blank with key := 1 })]
  mem := memStore (memStore (memStore tables 0x50000 (record.flatMap fun w => leBytes 8 w.toNat)) 0x50040 (leBytes 8 tail)) 0x70000 bs }

/-- The header with its SHAKE256 digest, which a library for hashes outside the model gave, passes the checks. -/
theorem test_imageDigest : badImage (header.take 0xE0 ++
    leBytes 32 0x6A771A2C02CBE43DF7BA271D97B35D9EFAD8594C309AEAA7290950CC3127E0DD) = false := by decide +kernel

/-- A queue with a record, with too many, with none, and one whose control block cannot be read; a record and an image that break a
limit, and a sound record. -/
theorem witness_LaunchEvents : acceptable world 0 = false ∧ acceptable (launching 1 []) 0 = true ∧ acceptable (launching 2 []) 0 = true ∧
    ((queueBytes (launching 1 []) 1 0x10040 64).map fun cb => (fieldAt cb 0 8, fieldAt cb 8 8)) = some (1, 0) ∧
    ((queueBytes (launching 2 []) 1 0x10040 64).map fun cb => decide (2 ^ 0 < (fieldAt cb 0 8 + 2 ^ 64 - fieldAt cb 8 8) % 2 ^ 64)) = some true ∧
    queueBytes world 1 0x30000 64 = none ∧
    ringSound (launching 1 []) ⟨0x10000, 0x10040, 0, 0, 1, 0, 1, none⟩ = true ∧
    ringSound (launching 1 []) ⟨0x30000, 0x10040, 0, 0, 1, 0, 1, none⟩ = false ∧
    ((queueBytes (launching 1 []) 1 0x10000 64).map fun bs => (List.range 8).map fun i => BitVec.ofNat 64 (fieldAt bs (8 * i) 8)) = some record ∧
    badRecord record = false ∧ badRecord [0x30001, 0, 0, 0, 0, 0, 0, 0] = true ∧ badImage (leBytes 256 0) = true ∧ badLayout (header ++ leBytes 16 0) = false ∧
    badLayout (header.take 0x18 ++ leBytes 8 0 ++ header.drop 0x20) = true ∧
    (match readGang world 1 record with | .ok none => true | _ => false) = true ∧
    (match readGang world 1 [0x30000, 0x10000, 0, 0, 0, 0, 0, 2 ^ 52] with | .error e => decide (e = (2, 0, 0)) | _ => false) = true ∧
    (match readImage (launching 1 header) 1 record with | .ok (bs, bases) => decide (bs = header ∧ bases = [0, 0, 0, 0]) | _ => false) = true ∧
    (readImage world 1 [0x80000, 0x10000, 0, 0, 0, 0, 0, 0]).isOk = false ∧
    ((Launch.ofImage world 0 0 ⟨0x10000, 0x10040, 0, 0, 1, 0, 1, none⟩ record header [0, 0, 0, 0]).check world).isNone = true ∧
    ((Launch.ofImage world 0 0 ⟨0x10000, 0x10040, 0, 0, 1, 0, 1, none⟩ [0, 0, 0, 0, 0, 0, 0, 0xFFFF0000] header []).check world) = some (7, 0, 0) := by
  decide +kernel

/-- A launch of one troupe of one strand that waits, one whose strands have ended, and one of a gang whose timer has run out. -/
def launch : Launch := { Launch.blank with
  ctx := 1, record := record, entryA := 0x30000, classes := 7, dies := [0], troupes := 1, ended := false }
abbrev placing (l : Launch) : State := { world with launches := [(3, l)] }

theorem witness_LaunchEvents' : dispatching world 0 = true ∧ (choose world 0).isNone = true ∧
    (match choose (placing launch) 0 with | some (.dispatch c _ false) => (match c.offer with | .launch 3 => true | _ => false) | _ => false) = true ∧
    (launch.together = false ∧ launch.reserved = [] ∧ launch.ended = false ∧ launch.coupled = false ∧ launch.queueDecls = [] ∧
      launch.windowDecls = [] ∧ launch.members = 0) ∧
    (match planNext (placing launch) 3 0 with | some [⟨0, 0, 2, [(56, [0])]⟩] => true | _ => false) = true ∧
    completes (placing launch) 3 = false ∧ completes (placing { launch with running := true }) 3 = true ∧ launch.record.getD 5 0 ≠ 0 ∧
    ({ launch with record := [] } : Launch).record.getD 5 0 = 0 ∧ (ctxStore (placing launch) 1 0x10060 (leBytes 8 9)).isOk = true ∧
    (ctxStore (placing launch) 1 0x40000 (leBytes 8 9)).isOk = false ∧ gangLaunches world 7 = [] ∧
    gangLaunches (placing { launch with tag := 7, members := 3, self := 2 }) 7 = [3] ∧
    gangTimedOut (placing { launch with tag := 7, members := 3, self := 2, timer := some 1 }) 3 = true ∧
    gangTimedOut (placing { launch with tag := 7, members := 3, self := 2, timer := some 2000 }) 3 = false ∧
    gangTimedOut (placing { launch with tag := 7, members := 3, self := 2, timer := some world.time }) 3 = false ∧
    ({ launch with gangDead := true } : Launch).gangDead = true ∧
    (launchStrands { placing launch with strands := [(1, { demo with launch := 3 })] } 3) = [1] ∧ demo.run.inPlay = true := by
  decide +kernel

/-- BOOTSTAT at each step; a temperature at each limit and above it; a host write that ends with its line; every unit. -/
theorem witness_ModuleEvents : State.reset.module.bootStat = 0 ∧ world.module.bootStat = 3 ∧
    (0x52 : Word) ≠ 0x51 ∧ world.module.qstat ≠ 1 ∧ (world.updModule fun m => { m with qstat := 1 }).module.qstat = 1 ∧
    (105 : BitVec 8).toNat ≤ 105 ∧ 105 < (106 : BitVec 8).toNat ∧ (115 : BitVec 8).toNat ≤ 115 ∧ 115 < (116 : BitVec 8).toNat ∧
    (∃ c, c < 4 * coresPerDie world.module.blend ∧ (world.core c).fenced = false) ∧
    (LaunchQueue.ofWords fun i => if i = 2 then 0x100000004 else 0).isNone = false ∧ (LaunchQueue.ofWords fun _ => 1).isNone = true ∧
    keyInFlight world 0 = false ∧ keyInFlight (world.post (.reductionPerform red)) 0 = true ∧
    (keyMaterial world.module).extractLsb' 0 256 = (keyMaterial world.module).extractLsb' 256 256 ∧
    (keyMaterial { world.module with keyData := [(0, 1)] }).extractLsb' 0 256 ≠ (keyMaterial { world.module with keyData := [(0, 1)] }).extractLsb' 256 256 ∧
    (1000 ≤ (8000 : Word).toNat % 2 ^ 14 ∧ (8000 : Word).toNat % 2 ^ 14 ≤ 8000) ∧ csrAccess 0x003 = some true ∧ csrAccess 0x009 = none ∧
    (world.strand 1).run.live = true ∧ hasMemory world 0x50078 = true ∧ tierOf 0x50078 ≤ 1 ∧ reachable world 0x50078 = true ∧
    (world.line (0x50078 / 128)).code = 0 ∧ 0x50078 % 128 + 8 ≤ 128 ∧ tierOf (2 ^ 42 * 128) = 2 ∧
    ((world.updLine (2 ^ 42) fun _ => ⟨2, [8], false, 1, false⟩).line (2 ^ 42)).code = 2 ∧
    ((world.updLine 3072 fun _ => ⟨2, [agentHost 0], false, 1, false⟩).line 3072).sharers = [sharerBit (agentHost 1)] ∧ (world.leafOfFrame 5).isNone = true ∧
    0xF00 + 31 < 2 ^ 12 ∧ 4 * 255 < world.me.allotSize ∧ world.me.allotSize ≤ 4 * 100000 ∧ windowAt world.me (4 * 255) = none ∧
    (world.context 2).closing = none ∧
    ((engine { cmd with ctrl := 3 + 16 + 8192 * 85, dst := 0 }).cmd 0 0).dport = 85 ∧ (engine cmd).cmd 0 0 = cmd ∧
    (world.residents 8).contains 1 = true ∧ (queued.queue 1 0).slots[0]?.isSome = true ∧ (world.context 2).live = false := by
  refine ⟨?_, ?_, ?_, ?_, ?_, ?_, ?_, ?_, ?_, ⟨8, by decide +kernel⟩, ?_⟩
  all_goals decide +kernel

/-- A doorbell that Naing has not read; a host access that passes and ones that are turned away; an event of which the host has been told and
one of which it has not, with its vector masked. -/
theorem witness_ModuleEvents_host : world.module.dbUnread = false ∧ (world.updModule fun m => { m with dbUnread := true }).module.dbUnread = true ∧
    State.reset.module.bootStat ≠ 3 ∧ 1 < tierOf (2 ^ 42 * 128) ∧ hasMemory world (2 ^ 51) = false ∧
    inLogStore 0x50078 = false ∧ world.movedPa 0x50078 = 0x50078 ∧ roomy world 0x50078 = true ∧ world.writeBacks = [] ∧
    (world.parcel 5).log = [] ∧ (world.parcel 5).held = [] ∧ (world.parcel 5).blocked = false ∧
    ((world.updParcel 5 fun p => { p with ctx := 1, va := 0x10000 }).leafOfFrame 5).map (fun l => (l.logEnable, l.counterEnable)) = some (false, false) ∧
    ((world.updParcel 5 fun p => { p with ctx := 1, va := 0x10000 }).leafOfFrame 5).map (fun l => keyEmpty world { l with pa := 0x50078 } ||
      decide ((world.line (0x50078 / 128)).key ≠ keyId world l.keyIndex)) = some false ∧
    0xFF8 + 8 ≤ 0x1000 ∧ world.module.evStat.getLsbD 63 = false ∧ world.module.msixMasked = false ∧
    ((world.tellHost 63).module.evStat.getLsbD 63 = true) ∧ (world.updModule fun m => { m with msixMasked := true }).module.msixMasked = true ∧
    (0x921 : BitVec 12) = 0x921 ∧ keyInFlight world world.module.keySel.toNat = false := by
  decide +kernel

/-- A cap that any load reaches, and one that none does. -/
theorem witness_ModuleEvents_cap : atCap (world.updModule fun m => { m with pwrCap := 0 }) = true ∧
    atCap (world.updModule fun m => { m with pwrCap := 65536 }) = false :=
  ⟨decide_eq_true (Nat.zero_le _), decide_eq_false (Nat.not_le_of_lt (Nat.mod_lt _ (by decide)))⟩

/-- Where one strand alone can move, a step lets it issue. -/
theorem alone_issues {s : State} {u : Nat} (ho : overdue s.ticked = none) (h : stuckPlaces s.ticked = [])
    (hc : candidates s.ticked = [.strand u]) : letsIssue s u :=
  ⟨ho, h, .strand u, [], hc, by rw [List.length_nil, Nat.mod_one]; rfl⟩

/-- A word at the program counter of strand 1, which is as f makes it. -/
abbrev placed (w : Nat) (f : Strand → Strand) : State := (State.reset.withFetchWord 32 w).updStrand 1 f

/-- A word that decodes, one that does not and an address that is misaligned; a strand that skips, one at a breakpoint and one with
a cause 20 pending. -/
theorem witness_StepRunsDecoded : letsIssue (placed 0x04518700 id) 1 ∧ letsIssue (placed 0 id) 1 ∧
    letsIssue (placed 0x04518700 fun t => { t with pc := 2 }) 1 ∧ letsIssue (placed 0x04518700 fun t => { t with run := .skipping }) 1 ∧
    letsIssue (placed 0x04518700 fun t => { t with bpAddr := [(0, 0x10001)] }) 1 ∧
    letsIssue (placed 0x04518700 fun t => { t with async20 := some 7 }) 1 ∧
    letsIssue (placed 0x04518700 fun t => { t with bpSkip := true }) 1 ∧
    letsIssue (placed 0x48000000 fun t => { t with bpSkip := true, trains := [(3, 1)] }) 1 ∧
    letsIssue (placed 0x04518700 fun t => { t with run := .skipping, pc := 2 }) 1 := by
  refine ⟨?_, ?_, ?_, ?_, ?_, ?_, ?_, ?_, ?_⟩ <;> exact alone_issues rfl (by decide +kernel) rfl

/-- The first strand after it has issued the word that it fetched, with BPSKIP cleared. -/
noncomputable def issued (s : State) : Option Strand := match fetch s with
  | .ok (w, s1) => match decode w with
    | .ok i => match exec i (s1.updMe fun t => { t with bpSkip := false }) with
      | .next t => some (t.strand 1)
      | _ => none
    | .error _ => none
  | .error _ => none

theorem witness_StepRunsDecoded' : (match fetch ((placed 0x04518700 id).issuing 1) with | .ok (w, s1) => w == 0x04518700 && s1.cur == 1 | _ => false) = true ∧
    (fetch ((placed 0x04518700 fun t => { t with pc := 2 }).issuing 1)).isOk = false ∧
    breakpoint ((placed 0x04518700 id).issuing 1).me = false ∧ ((placed 0x04518700 id).issuing 1).me.bpSkip = false ∧
    breakpoint ((placed 0x04518700 fun t => { t with bpAddr := [(0, 0x10001)] }).issuing 1).me = true ∧
    endsSkip ((placed 0x04518700 fun t => { t with run := .skipping }).issuing 1).me 0x04518700 = false ∧
    endsSkip ((placed 0x48000128 fun t => { t with run := .skipping, loops := [(1, { LoopSlot.zero with skip := true })] }).issuing 1).me
      0x48000128 = true ∧
    ((placed 0x04518700 fun t => { t with async20 := some 7 }).issuing 1).me.trapStat.getLsbD 0 = false ∧
    ((placed 0x04518700 fun t => { t with async20 := some 7 }).issuing 1).me.atPlace.isNone = true ∧
    ((placed 0x04518700 fun t => { t with bpSkip := true }).issuing 1).me.bpSkip = true ∧
    (issued ((placed 0x04518700 fun t => { t with bpSkip := true }).issuing 1)).map (fun t => t.run.isParked) = some false ∧
    (issued ((placed 0x48000000 fun t => { t with bpSkip := true, trains := [(3, 1)] }).issuing 1)).map (fun t => t.run.isParked) = some true ∧
    (fetch ((placed 0x04518700 fun t => { t with run := .skipping, pc := 2 }).issuing 1)).isOk = false := by
  decide +kernel

/-- A step of the machine from a state in canonical form. -/
theorem witness_StepKeepsMemoryCanonical : Memory.wf (placed 0x04518700 id).mem = true ∧
    (match step (placed 0x04518700 id) with | .next _ => true | _ => false) = true := by
  decide +kernel

/-- Instructions with the greatest value of every field that the encoding admits. -/
theorem witness_DecodeEncode : (Instr.add 63 63 63 1 1).encoded = true ∧ (Instr.add 63 63 63 1 1).wf = true ∧
    (Instr.slli 63 63 31 1 1).wf = true ∧ (Instr.slli 63 63 63 0 1).wf = true := by
  decide +kernel

theorem witness_EncodeDecode : decode 0x04518700 = .ok (.add 5 6 7 0 0) := rfl

/-- A misaligned address, an aperture address, an address that does not translate, one without permission and one of code; the
first and the last major of each group that is not assigned. -/
theorem witness_FetchAndIllegalWords : (world' fun t => { t with pc := 2 }).me.pc.toNat % 4 ≠ 0 ∧
    apertureOffset 0x7FF000000000 ≠ none ∧ apertureOffset world.me.pc = none ∧
    (match translate world 8 false 1 0x80000 with | .error _ => true | _ => false) = true ∧
    (match translate world 8 false 1 0x10000 with | .ok (l, _) => (checkLeaf .fetch l 0x10000).isSome | _ => false) = true ∧
    (match translate (placed 0 id) 8 false 1 0x10000 with | .ok (l, s1) => (checkLeaf .fetch l 0x10000).isNone && !poisonedAt s1 l 4 | _ => false) = true ∧
    (match translate (placed 0 id) 8 false 1 0x10000 with
      | .ok (l, _) => (match translate ((placed 0 id).updLine (l.pa / 128) fun k => { k with code := 3 }) 8 false 1 0x10000 with
        | .ok (m, s2) => (checkLeaf .fetch m 0x10000).isNone && poisonedAt s2 m 4 | _ => false) | _ => false) = true ∧
    (majorOf 1).toNat = 0 ∧ (majorOf 0x9C000000).toNat = 0x27 ∧ (majorOf 0xF8000000).toNat = 0x3E ∧ (majorOf 0xFC000000).toNat = 0x3F ∧
    (match decode 0x9C000000 with | .error .unassignedMajor => true | _ => false) = true := by
  decide +kernel

/-- A form that each check stops, and one that passes. -/
def form (csr : Option Trap) (firmware bar : Bool) (ops : List Opnd) (classes : Nat) : Form :=
  { word := 0x04518700, csr := csr, firmware := firmware, bar := bar, ops := ops, classes := classes }

theorem witness_CheckOrder : (form (some ⟨1, 8, 0⟩) false false [] 7).csr = some ⟨1, 8, 0⟩ ∧ world.me.firmware = false ∧ firm.me.firmware = true ∧
    ([.reg 32] : List Opnd).findSome? Opnd.bad = some 1 ∧ ([.reg 31] : List Opnd).findSome? Opnd.bad = none ∧
    (world' fun t => { t with strandId := 0x8000 }).me.isExecute = true ∧ (Opnd.data 32 1 false).badQueue world world.cur = some 0 ∧
    (Opnd.data 34 1 false).badQueue queued queued.cur = some 1 ∧ (7 : Nat).testBit (classOf world 8) = true ∧
    (5 : Nat).testBit (classOf world 8) = false ∧ (form none true false [] 7).check world = some ⟨4, 0, 0x04518700⟩ ∧
    (⟨4, 0, 0x04518700⟩ : Trap).isEffect = false := by
  decide +kernel

/-- On an M-core with an emulation vector and without, in a family, with a credit and without, in a handler; an emulation handler. -/
abbrev missing (f : Strand → Strand) : State := (onCore 56).updMe f

theorem witness_ClassMissing : (form none false false [] 3).check (missing id) = some ⟨3, 0, 0x04518700⟩ ∧
    (missing fun t => { t with parent := some 5 }).inFamily 1 = true ∧ (missing id).inFamily 1 = false ∧
    ((3 : Nat) &&& ((missing id).strand ((missing id).owner 1)).travel.allowed) = 3 ∧
    ((missing id).couple 1).any (fun v => !((missing id).strand v).gangs.isEmpty) = false ∧ ((4 : Nat) &&& 3) = 0 ∧
    ((missing fun t => { t with travel := { t.travel with credits := 0 } }).strand 1).travel.credits = 0 ∧
    ((missing fun t => { t with travel := { t.travel with credits := 1 } }).strand 1).travel.credits ≠ 0 ∧ (missing id).moves = [] ∧
    (missing fun t => { t with emuVec := 0x300 }).me.canEmulate [5, 23] = true ∧
    (missing fun t => { t with emuVec := 0x300 }).me.canEmulate [24] = false ∧ (missing id).me.canEmulate [] = false ∧
    (missing fun t => { t with emuVec := 0x300, uistat := 2 }).me.canEmulate [] = false ∧
    ((world' fun t => t.setReg 24 9).me.enterEmulation 0x04518700 3).reg 24 = 0x04518700 ∧
    Tab.get 0 ((world' fun t => t.setReg 24 9).me.enterEmulation 0x04518700 3).shadow 24 = 9 := by
  decide +kernel

/-! The words of every row of the opcode table: its match word with distinct values in its operand fields. -/

theorem decodes_major_01 :
    decode 0x0656B303 = .ok (.add 37 26 51 1 1) ∧ decode 0x0656B30B = .ok (.sub 37 26 51 1 1) ∧
    decode 0x0656B313 = .ok (.mul 37 26 51 1 1) ∧ decode 0x0656B31B = .ok (.mulh 37 26 51 1 1) ∧
    decode 0x0656B323 = .ok (.mulhn 37 26 51 1 1) ∧ decode 0x0656B32B = .ok (.div 37 26 51 1 1) ∧
    decode 0x0656B333 = .ok (.divn 37 26 51 1 1) ∧ decode 0x0656B33B = .ok (.rem 37 26 51 1 1) ∧
    decode 0x0656B343 = .ok (.remn 37 26 51 1 1) ∧ decode 0x0656B34B = .ok (.and 37 26 51 1 1) ∧
    decode 0x0656B353 = .ok (.or 37 26 51 1 1) ∧ decode 0x0656B35B = .ok (.xor 37 26 51 1 1) ∧
    decode 0x0656B363 = .ok (.andn 37 26 51 1 1) ∧ decode 0x0656B36B = .ok (.sll 37 26 51 1 1) ∧
    decode 0x0656B373 = .ok (.srl 37 26 51 1 1) ∧ decode 0x0656B37B = .ok (.sra 37 26 51 1 1) ∧
    decode 0x0656B381 = .ok (.slli 37 26 51 0 1) ∧ decode 0x0656B389 = .ok (.srli 37 26 51 0 1) ∧
    decode 0x0656B391 = .ok (.srai 37 26 51 0 1) ∧ decode 0x0656B39B = .ok (.min 37 26 51 1 1) ∧
    decode 0x0656B3A3 = .ok (.max 37 26 51 1 1) ∧ decode 0x0656B3AB = .ok (.minn 37 26 51 1 1) ∧
    decode 0x0656B3B3 = .ok (.maxn 37 26 51 1 1) ∧ decode 0x0656B3BB = .ok (.slt 37 26 51 1 1) ∧
    decode 0x0656B3C3 = .ok (.sltn 37 26 51 1 1) ∧ decode 0x0656B3CB = .ok (.seq 37 26 51 1 1) ∧
    decode 0x065680D3 = .ok (.clz 37 26 1 1) ∧ decode 0x065680DB = .ok (.ctz 37 26 1 1) ∧
    decode 0x065680E3 = .ok (.popc 37 26 1 1) ∧ decode 0x0656B3EB = .ok (.rotr 37 26 51 1 1) ∧
    decode 0x065680F3 = .ok (.brev 37 26 1 1) ∧ decode 0x065680FB = .ok (.bswap 37 26 1 1) :=
  ⟨rfl, rfl, rfl, rfl, rfl, rfl, rfl, rfl, rfl, rfl, rfl, rfl, rfl, rfl, rfl, rfl, rfl, rfl, rfl, rfl, rfl, rfl,
    rfl, rfl, rfl, rfl, rfl, rfl, rfl, rfl, rfl, rfl⟩

theorem decodes_major_02 :
    decode 0x0A56B5A3 = .ok (.addi 37 26 13731) :=
  rfl

theorem decodes_major_03 :
    decode 0x0E56B5A3 = .ok (.andi 37 26 13731) :=
  rfl

theorem decodes_major_04 :
    decode 0x1256B5A3 = .ok (.ori 37 26 13731) :=
  rfl

theorem decodes_major_05 :
    decode 0x1656B5A3 = .ok (.xori 37 26 13731) :=
  rfl

theorem decodes_major_06 :
    decode 0x1A56B5A3 = .ok (.slti 37 26 13731) :=
  rfl

theorem decodes_major_07 :
    decode 0x1E56B5A3 = .ok (.sltni 37 26 13731) :=
  rfl

theorem decodes_major_08 :
    decode 0x225AB5A3 = .ok (.lui 37 701859) :=
  rfl

theorem decodes_major_09 :
    decode 0x265AB5A3 = .ok (.auipc 37 701859) :=
  rfl

theorem decodes_major_0A :
    decode 0x2A5AB5A3 = .ok (.jal 37 701859) :=
  rfl

theorem decodes_major_0B :
    decode 0x2E56B5A3 = .ok (.jalr 37 26 13731) :=
  rfl

theorem decodes_major_0C :
    decode 0x325685A3 = .ok (.beq 37 26 1443) ∧ decode 0x32568DA3 = .ok (.bne 37 26 1443) ∧
    decode 0x325695A3 = .ok (.blt 37 26 1443) ∧ decode 0x32569DA3 = .ok (.bge 37 26 1443) ∧
    decode 0x3256A5A3 = .ok (.bltn 37 26 1443) ∧ decode 0x3256ADA3 = .ok (.bgen 37 26 1443) ∧
    decode 0x325035A3 = .ok (.bqt 37 1443) ∧ decode 0x32503DA3 = .ok (.bqf 37 1443) :=
  ⟨rfl, rfl, rfl, rfl, rfl, rfl, rfl, rfl⟩

theorem decodes_major_0D :
    decode 0x3656B3D5 = .ok (.ld 37 26 51 3 1 1 1) :=
  rfl

theorem decodes_major_0E :
    decode 0x3A56B3D5 = .ok (.ldz 37 26 51 3 1 1 1) :=
  rfl

theorem decodes_major_0F :
    decode 0x3E56B3D5 = .ok (.st 37 26 51 3 1 1 1) :=
  rfl

theorem decodes_major_10 :
    decode 0x4256B307 = .ok (.fadd 37 26 51 3 1) ∧ decode 0x4256B30F = .ok (.fsub 37 26 51 3 1) ∧
    decode 0x4256B317 = .ok (.fmul 37 26 51 3 1) ∧ decode 0x4256B31F = .ok (.fmac 37 26 51 3 1) ∧
    decode 0x4256B327 = .ok (.fnmac 37 26 51 3 1) ∧ decode 0x4256B32F = .ok (.fdiv 37 26 51 3 1) ∧
    decode 0x42568033 = .ok (.fsqrt 37 26 1 1) ∧ decode 0x4256B33F = .ok (.fmin 37 26 51 3 1) ∧
    decode 0x4256B347 = .ok (.fmax 37 26 51 3 1) ∧ decode 0x4256B34F = .ok (.feq 37 26 51 3 1) ∧
    decode 0x4256B357 = .ok (.flt 37 26 51 3 1) ∧ decode 0x4256B35F = .ok (.fle 37 26 51 3 1) ∧
    decode 0x42568063 = .ok (.fclass 37 26 1 1) ∧ decode 0x42569F6B = .ok (.fcvti 37 26 3 7 1 1) ∧
    decode 0x42569F73 = .ok (.fcvtf 37 26 3 7 1 1) ∧ decode 0x42569B7B = .ok (.fcvtw 37 26 3 3 1 1) ∧
    decode 0x4256B387 = .ok (.fscpy 37 26 51 3 1) ∧ decode 0x4256B38F = .ok (.fsneg 37 26 51 3 1) ∧
    decode 0x4256B397 = .ok (.fsxor 37 26 51 3 1) :=
  ⟨rfl, rfl, rfl, rfl, rfl, rfl, rfl, rfl, rfl, rfl, rfl, rfl, rfl, rfl, rfl, rfl, rfl, rfl, rfl⟩

theorem decodes_major_11 :
    decode 0x4656B68C = .ok (.csrrw 37 26 3491) ∧ decode 0x4656B68D = .ok (.csrrs 37 26 3491) ∧
    decode 0x4656B68E = .ok (.csrrc 37 26 3491) ∧ decode 0x4650368F = .ok (.csrr 37 3491) :=
  ⟨rfl, rfl, rfl, rfl⟩

theorem decodes_major_12 :
    decode 0x48000000 = .ok (.exit) ∧ decode 0x48000008 = .ok (.yield) ∧ decode 0x4A568010 = .ok (.forkl 37 26) ∧
    decode 0x4A568018 = .ok (.joinl 37 26) ∧ decode 0x48094320 = .ok (.loop 37 3) ∧
    decode 0x48000128 = .ok (.endloop 1) ∧ decode 0x4A500B30 = .ok (.lidx 37 11) ∧ decode 0x48094338 = .ok (.sidx 37 3) ∧
    decode 0x48002540 = .ok (.hint 37) ∧ decode 0x4A568048 = .ok (.migr 37 26) :=
  ⟨rfl, rfl, rfl, rfl, rfl, rfl, rfl, rfl, rfl, rfl⟩

theorem decodes_major_13 :
    decode 0x4E568000 = .ok (.qcfg 37 26) ∧ decode 0x4C095A08 = .ok (.qadv 37 26) ∧
    decode 0x4C094010 = .ok (.qcommit 37) ∧ decode 0x4E568018 = .ok (.qfill 37 26) ∧
    decode 0x4E568020 = .ok (.qfree 37 26) ∧ decode 0x4C094028 = .ok (.qreset 37) ∧
    decode 0x4C094030 = .ok (.qdrain 37) ∧ decode 0x4E568038 = .ok (.xput 37 26) ∧ decode 0x4E500040 = .ok (.fset 37) ∧
    decode 0x4E500048 = .ok (.fclr 37) ∧ decode 0x4E568050 = .ok (.ftest 37 26) :=
  ⟨rfl, rfl, rfl, rfl, rfl, rfl, rfl, rfl, rfl, rfl, rfl⟩

theorem decodes_major_14 :
    decode 0x5256B307 = .ok (.vadd 37 26 51 3 1) ∧ decode 0x5256B30F = .ok (.vsub 37 26 51 3 1) ∧
    decode 0x5256B317 = .ok (.vmul 37 26 51 3 1) ∧ decode 0x5256B31F = .ok (.vmulh 37 26 51 3 1) ∧
    decode 0x5256B327 = .ok (.vmac 37 26 51 3 1) ∧ decode 0x5256B32F = .ok (.vdiv 37 26 51 3 1) ∧
    decode 0x5256B337 = .ok (.vdivn 37 26 51 3 1) ∧ decode 0x5256B33F = .ok (.vrem 37 26 51 3 1) ∧
    decode 0x5256B347 = .ok (.vmin 37 26 51 3 1) ∧ decode 0x5256B34F = .ok (.vmax 37 26 51 3 1) ∧
    decode 0x5256B357 = .ok (.vminn 37 26 51 3 1) ∧ decode 0x5256B35F = .ok (.vmaxn 37 26 51 3 1) ∧
    decode 0x5256B367 = .ok (.vand 37 26 51 3 1) ∧ decode 0x5256B36F = .ok (.vor 37 26 51 3 1) ∧
    decode 0x5256B377 = .ok (.vxor 37 26 51 3 1) ∧ decode 0x5256B37F = .ok (.vsll 37 26 51 3 1) ∧
    decode 0x5256B387 = .ok (.vsrl 37 26 51 3 1) ∧ decode 0x5256B38F = .ok (.vsra 37 26 51 3 1) ∧
    decode 0x5256B397 = .ok (.vsadd 37 26 51 3 1) ∧ decode 0x5256B39F = .ok (.vssub 37 26 51 3 1) ∧
    decode 0x525680A2 = .ok (.vabs 37 26 1) ∧ decode 0x525680AA = .ok (.vneg 37 26 1) ∧
    decode 0x5256B3B6 = .ok (.vredsum 37 26 51 3) ∧ decode 0x5256B3BE = .ok (.vredmin 37 26 51 3) ∧
    decode 0x5256B3C6 = .ok (.vredmax 37 26 51 3) :=
  ⟨rfl, rfl, rfl, rfl, rfl, rfl, rfl, rfl, rfl, rfl, rfl, rfl, rfl, rfl, rfl, rfl, rfl, rfl, rfl, rfl, rfl, rfl,
    rfl, rfl, rfl⟩

theorem decodes_major_15 :
    decode 0x5656B307 = .ok (.vfadd 37 26 51 3 1) ∧ decode 0x5656B30F = .ok (.vfsub 37 26 51 3 1) ∧
    decode 0x5656B317 = .ok (.vfmul 37 26 51 3 1) ∧ decode 0x5656B31F = .ok (.vfma 37 26 51 3 1) ∧
    decode 0x5656B327 = .ok (.vfnma 37 26 51 3 1) ∧ decode 0x5656B32F = .ok (.vfdiv 37 26 51 3 1) ∧
    decode 0x56568032 = .ok (.vfsqrt 37 26 1) ∧ decode 0x56568038 = .ok (.vfexp2 37 26) ∧
    decode 0x56568040 = .ok (.vflog2 37 26) ∧ decode 0x5656B34F = .ok (.vfmin 37 26 51 3 1) ∧
    decode 0x5656B357 = .ok (.vfmax 37 26 51 3 1) ∧ decode 0x5656805A = .ok (.vfabs 37 26 1) ∧
    decode 0x56568062 = .ok (.vfneg 37 26 1) ∧ decode 0x56569768 = .ok (.vfcvt 37 26 2 7) ∧
    decode 0x5656B376 = .ok (.vfredo 37 26 51 3) ∧ decode 0x5656B37E = .ok (.vfredt 37 26 51 3) ∧
    decode 0x5656B386 = .ok (.vfredmax 37 26 51 3) ∧ decode 0x5656B38E = .ok (.vfredmin 37 26 51 3) ∧
    decode 0x5656B397 = .ok (.vfscale 37 26 51 3 1) :=
  ⟨rfl, rfl, rfl, rfl, rfl, rfl, rfl, rfl, rfl, rfl, rfl, rfl, rfl, rfl, rfl, rfl, rfl, rfl, rfl⟩

theorem decodes_major_16 :
    decode 0x5A56B307 = .ok (.vceq 37 26 51 3 1) ∧ decode 0x5A56B30F = .ok (.vcne 37 26 51 3 1) ∧
    decode 0x5A56B317 = .ok (.vclt 37 26 51 3 1) ∧ decode 0x5A56B31F = .ok (.vcle 37 26 51 3 1) ∧
    decode 0x5A56B327 = .ok (.vcltn 37 26 51 3 1) ∧ decode 0x5A56B32F = .ok (.vclen 37 26 51 3 1) ∧
    decode 0x5A56B337 = .ok (.vfceq 37 26 51 3 1) ∧ decode 0x5A56B33F = .ok (.vfclt 37 26 51 3 1) ∧
    decode 0x5A56B347 = .ok (.vfcle 37 26 51 3 1) ∧ decode 0x5A56B34F = .ok (.vfcun 37 26 51 3 1) :=
  ⟨rfl, rfl, rfl, rfl, rfl, rfl, rfl, rfl, rfl, rfl⟩

theorem decodes_major_17 :
    decode 0x5E56B300 = .ok (.pand 37 26 51) ∧ decode 0x5E56B308 = .ok (.por 37 26 51) ∧
    decode 0x5E56B310 = .ok (.pxor 37 26 51) ∧ decode 0x5E56B318 = .ok (.pandn 37 26 51) ∧
    decode 0x5E568020 = .ok (.pnot 37 26) ∧ decode 0x5E568028 = .ok (.psbf 37 26) ∧
    decode 0x5E568030 = .ok (.psif 37 26) ∧ decode 0x5E568038 = .ok (.psof 37 26) ∧
    decode 0x5E568040 = .ok (.pcnt 37 26) ∧ decode 0x5E568048 = .ok (.pfirst 37 26) ∧
    decode 0x5E500050 = .ok (.pset 37) ∧ decode 0x5E500058 = .ok (.pclr 37) ∧ decode 0x5E568160 = .ok (.pfromx 37 26 1) ∧
    decode 0x5E568168 = .ok (.ptox 37 26 1) :=
  ⟨rfl, rfl, rfl, rfl, rfl, rfl, rfl, rfl, rfl, rfl, rfl, rfl, rfl, rfl⟩

theorem decodes_major_18 :
    decode 0x62568002 = .ok (.vcompress 37 26 1) ∧ decode 0x6256800A = .ok (.vexpand 37 26 1) ∧
    decode 0x6256B317 = .ok (.vslideup 37 26 51 3 1) ∧ decode 0x6256B31F = .ok (.vslidedn 37 26 51 3 1) ∧
    decode 0x6256B326 = .ok (.vpermx 37 26 51 3) ∧ decode 0x6256B32E = .ok (.vbcast 37 26 51 3) ∧
    decode 0x6256B336 = .ok (.vextx 37 26 51 3) ∧ decode 0x6256B33E = .ok (.vinsx 37 26 51 3) ∧
    decode 0x6256B346 = .ok (.viota 37 26 51 3) ∧ decode 0x6256804A = .ok (.vmov 37 26 1) ∧
    decode 0x6256B356 = .ok (.vzip 37 26 51 3) ∧ decode 0x6256B35E = .ok (.vunzip 37 26 51 3) :=
  ⟨rfl, rfl, rfl, rfl, rfl, rfl, rfl, rfl, rfl, rfl, rfl, rfl⟩

theorem decodes_major_19 :
    decode 0x6656800F = .ok (.vld 37 26 1 3 1) ∧ decode 0x6656802F = .ok (.vlds 37 26 1 3 1) ∧
    decode 0x6656B35B = .ok (.vldx 37 26 51 3 1 1) ∧ decode 0x6656806F = .ok (.vldff 37 26 1 3 1) ∧
    decode 0x6656808F = .ok (.vldb 37 26 1 3 1) :=
  ⟨rfl, rfl, rfl, rfl, rfl⟩

theorem decodes_major_1A :
    decode 0x6A56800F = .ok (.vst 37 26 1 3 1) ∧ decode 0x6A56802F = .ok (.vsts 37 26 1 3 1) ∧
    decode 0x6A56B35B = .ok (.vstx 37 26 51 3 1 1) ∧ decode 0x6A56B37B = .ok (.vstxr 37 26 51 3 1 1) :=
  ⟨rfl, rfl, rfl, rfl⟩

theorem decodes_major_1B :
    decode 0x6E568002 = .ok (.setvl 37 26 1) ∧ decode 0x6E5DA30A = .ok (.setvli 37 3491 1) ∧
    decode 0x6C000110 = .ok (.setms 0 1) ∧ decode 0x6C094018 = .ok (.setst 37) ∧
    decode 0x6E568022 = .ok (.scput 37 26 1) ∧ decode 0x6E50002E = .ok (.sctake 37 3) ∧
    decode 0x6E500030 = .ok (.scflush 37) ∧ decode 0x6E500038 = .ok (.scstat 37) :=
  ⟨rfl, rfl, rfl, rfl, rfl, rfl, rfl, rfl⟩

theorem decodes_major_1C :
    decode 0x7250F300 = .ok (.ten 37 3 51) ∧ decode 0x70004008 = .ok (.tdis 1) ∧ decode 0x70004010 = .ok (.tzero 1) ∧
    decode 0x7250F318 = .ok (.tpred 37 3 51) ∧ decode 0x7250F320 = .ok (.tmovr 37 3 51) ∧
    decode 0x7250F328 = .ok (.tmovc 37 3 51) ∧ decode 0x7016B330 = .ok (.tsetr 1 26 51) ∧
    decode 0x7016B338 = .ok (.tsetc 1 26 51) ∧ decode 0x70004340 = .ok (.tfold 1 3) ∧
    decode 0x7250F34E = .ok (.tdrain 37 3 51 3) ∧ decode 0x7256B350 = .ok (.tfetch 37 26 51) ∧
    decode 0x70168058 = .ok (.tscl 1 26) ∧ decode 0x7250C160 = .ok (.tstat 37 3 1) :=
  ⟨rfl, rfl, rfl, rfl, rfl, rfl, rfl, rfl, rfl, rfl, rfl, rfl, rfl⟩

theorem decodes_major_1D :
    decode 0x74B59F17 = .ok (.top 1 26 51 14 5 1 1) ∧ decode 0x74B59F37 = .ok (.tops 1 26 51 14 5 1 1) ∧
    decode 0x7480D1D7 = .ok (.topl 1 26 3 5 1 1) :=
  ⟨rfl, rfl, rfl⟩

theorem decodes_major_1E :
    decode 0x7A56B300 = .ok (.wmap 37 26 51) ∧ decode 0x78000708 = .ok (.wunmap 1 3) ∧
    decode 0x78094310 = .ok (.wflush 37 3) ∧ decode 0x78094518 = .ok (.winv 37 1 1) ∧
    decode 0x7A500520 = .ok (.wstat 37 1 1) ∧ decode 0x78094328 = .ok (.wtouch 37 3) ∧
    decode 0x78000730 = .ok (.wkeep 1 3) :=
  ⟨rfl, rfl, rfl, rfl, rfl, rfl, rfl⟩

theorem decodes_major_1F :
    decode 0x7E568107 = .ok (.tkld 37 26 1 3 1) ∧ decode 0x7E56810F = .ok (.tkldw 37 26 1 3 1) ∧
    decode 0x7E568110 = .ok (.tkldv 37 26 1) ∧ decode 0x7E568018 = .ok (.tkrd 37 26) ∧
    decode 0x7E568020 = .ok (.tkrdv 37 26) ∧ decode 0x7E568028 = .ok (.tkrdq 37 26) ∧
    decode 0x7E568030 = .ok (.tktest 37 26) ∧ decode 0x7E568038 = .ok (.tkdrop 37 26) :=
  ⟨rfl, rfl, rfl, rfl, rfl, rfl, rfl, rfl⟩

theorem decodes_major_20 :
    decode 0x82568000 = .ok (.pqry 37 26) ∧ decode 0x80095A08 = .ok (.phint 37 26) ∧
    decode 0x82568010 = .ok (.plogq 37 26) ∧ decode 0x82568018 = .ok (.pfetch 37 26) ∧
    decode 0x8256B320 = .ok (.pmigr 37 26 51) ∧ decode 0x82500028 = .ok (.pnqpop 37) ∧
    decode 0x8256B330 = .ok (.pkeep 37 26 51) :=
  ⟨rfl, rfl, rfl, rfl, rfl, rfl, rfl⟩

theorem decodes_major_21 :
    decode 0x8656B30D = .ok (.atmAdd 37 26 51 3 1) ∧ decode 0x8656B31D = .ok (.atmMin 37 26 51 3 1) ∧
    decode 0x8656B32D = .ok (.atmMax 37 26 51 3 1) ∧ decode 0x8656B33D = .ok (.atmMinn 37 26 51 3 1) ∧
    decode 0x8656B34D = .ok (.atmMaxn 37 26 51 3 1) ∧ decode 0x8656B35D = .ok (.atmAnd 37 26 51 3 1) ∧
    decode 0x8656B36D = .ok (.atmOr 37 26 51 3 1) ∧ decode 0x8656B37D = .ok (.atmXor 37 26 51 3 1) ∧
    decode 0x8656B38D = .ok (.atmSwp 37 26 51 3 1) ∧ decode 0x8656B39D = .ok (.atmFadd 37 26 51 3 1) ∧
    decode 0x8656B3AD = .ok (.atmFaddh 37 26 51 3 1) ∧ decode 0x8656B3BD = .ok (.atmCas 37 26 51 3 1) ∧
    decode 0x84095A07 = .ok (.redAdd32 37 26 1 3) ∧ decode 0x84095A17 = .ok (.redMin32 37 26 1 3) ∧
    decode 0x84095A27 = .ok (.redMax32 37 26 1 3) ∧ decode 0x84095A37 = .ok (.redMinn32 37 26 1 3) ∧
    decode 0x84095A47 = .ok (.redMaxn32 37 26 1 3) ∧ decode 0x84095A57 = .ok (.redAnd32 37 26 1 3) ∧
    decode 0x84095A67 = .ok (.redOr32 37 26 1 3) ∧ decode 0x84095A77 = .ok (.redXor32 37 26 1 3) ∧
    decode 0x84095A97 = .ok (.redFadd32 37 26 1 3) ∧ decode 0x84095AA7 = .ok (.redFaddh32 37 26 1 3) :=
  ⟨rfl, rfl, rfl, rfl, rfl, rfl, rfl, rfl, rfl, rfl, rfl, rfl, rfl, rfl, rfl, rfl, rfl, rfl, rfl, rfl, rfl, rfl⟩

theorem decodes_major_22 :
    decode 0x8A56B30D = .ok (.atmdAdd 37 26 51 3 1) ∧ decode 0x8A56B31D = .ok (.atmdMin 37 26 51 3 1) ∧
    decode 0x8A56B32D = .ok (.atmdMax 37 26 51 3 1) ∧ decode 0x8A56B33D = .ok (.atmdMinn 37 26 51 3 1) ∧
    decode 0x8A56B34D = .ok (.atmdMaxn 37 26 51 3 1) ∧ decode 0x8A56B35D = .ok (.atmdAnd 37 26 51 3 1) ∧
    decode 0x8A56B36D = .ok (.atmdOr 37 26 51 3 1) ∧ decode 0x8A56B37D = .ok (.atmdXor 37 26 51 3 1) ∧
    decode 0x8A56B38D = .ok (.atmdSwp 37 26 51 3 1) ∧ decode 0x8A56B39D = .ok (.atmdFadd 37 26 51 3 1) ∧
    decode 0x8A56B3BD = .ok (.atmdCas 37 26 51 3 1) ∧ decode 0x88095A07 = .ok (.redAdd64 37 26 1 3) ∧
    decode 0x88095A17 = .ok (.redMin64 37 26 1 3) ∧ decode 0x88095A27 = .ok (.redMax64 37 26 1 3) ∧
    decode 0x88095A37 = .ok (.redMinn64 37 26 1 3) ∧ decode 0x88095A47 = .ok (.redMaxn64 37 26 1 3) ∧
    decode 0x88095A57 = .ok (.redAnd64 37 26 1 3) ∧ decode 0x88095A67 = .ok (.redOr64 37 26 1 3) ∧
    decode 0x88095A77 = .ok (.redXor64 37 26 1 3) ∧ decode 0x88095A97 = .ok (.redFadd64 37 26 1 3) :=
  ⟨rfl, rfl, rfl, rfl, rfl, rfl, rfl, rfl, rfl, rfl, rfl, rfl, rfl, rfl, rfl, rfl, rfl, rfl, rfl, rfl⟩

theorem decodes_major_23 :
    decode 0x8C50C100 = .ok (.sbar 5 3 1) ∧ decode 0x8C095A0A = .ok (.bari 37 26 1) ∧
    decode 0x8E568012 = .ok (.barv 37 26 1) ∧ decode 0x8C095A1A = .ok (.barw 37 26 1) ∧
    decode 0x8E56B326 = .ok (.barwt 37 26 51 3) ∧ decode 0x8E56B32E = .ok (.waitv 37 26 51 3) ∧
    decode 0x8C16B336 = .ok (.accdecl 1 26 51 3) ∧ decode 0x8C16B338 = .ok (.vacc 1 26 51) ∧
    decode 0x8E500140 = .ok (.accmerge 37 1) ∧ decode 0x8C000148 = .ok (.accrel 1) :=
  ⟨rfl, rfl, rfl, rfl, rfl, rfl, rfl, rfl, rfl, rfl⟩

theorem decodes_major_24 :
    decode 0x92568000 = .ok (.estr 37 26) ∧ decode 0x90095A08 = .ok (.epush 37 26) ∧
    decode 0x92568010 = .ok (.epop 37 26) ∧ decode 0x92568018 = .ok (.ewm 37 26) ∧
    decode 0x90095A20 = .ok (.ewait 37 26) ∧ decode 0x9256B328 = .ok (.echan 37 26 51) ∧
    decode 0x9256B330 = .ok (.egang 37 26 51) ∧ decode 0x92568038 = .ok (.ecancel 37 26) ∧
    decode 0x92568040 = .ok (.estat 37 26) ∧ decode 0x92568048 = .ok (.uien 37 26) ∧ decode 0x90000050 = .ok (.uiret) :=
  ⟨rfl, rfl, rfl, rfl, rfl, rfl, rfl, rfl, rfl, rfl, rfl⟩

theorem decodes_major_25 :
    decode 0x94002500 = .ok (.svc 37) ∧ decode 0x94002508 = .ok (.brk 37) ∧ decode 0x94000010 = .ok (.rett) ∧
    decode 0x96500018 = .ok (.wfi 37) ∧ decode 0x9656B320 = .ok (.tlbinv 37 26 51) ∧
    decode 0x96568028 = .ok (.ctxsv 37 26) ∧ decode 0x9656B330 = .ok (.ctxld 37 26 51) ∧
    decode 0x96568038 = .ok (.lnpurge 37 26) :=
  ⟨rfl, rfl, rfl, rfl, rfl, rfl, rfl, rfl⟩

theorem decodes_major_26 :
    decode 0x98095A00 = .ok (.tmark 37 26) ∧ decode 0x9A500308 = .ok (.tcnt 37 3) :=
  ⟨rfl, rfl⟩

/-! Ill-formed terms, one for each check, each beside a term that passes. -/

/-- R117: a shift amount of 32 or more in a 32-bit shift. -/
theorem smoke_shifts :
    (Instr.slli 1 1 32 1 1).wf = false ∧ (Instr.srli 1 1 32 1 1).wf = false ∧ (Instr.srai 1 1 32 1 1).wf = false ∧
    (Instr.slli 1 1 32 0 1).wf = true := by decide

/-- R31: ordering 3, and a plain access with a scope. -/
theorem smoke_memory :
    (Instr.ld 1 1 1 1 1 3 1).wf = false ∧ (Instr.ldz 1 1 1 1 1 3 1).wf = false ∧ (Instr.st 1 1 1 1 1 3 1).wf = false ∧
    (Instr.ld 1 1 1 1 1 0 1).wf = false ∧ (Instr.ldz 1 1 1 1 1 0 1).wf = false ∧ (Instr.st 1 1 1 1 1 0 1).wf = false ∧
    (Instr.ld 1 1 1 1 1 0 0).wf = true := by decide

/-- R130: a rounding mode above 4. -/
theorem smoke_rounding :
    (Instr.fcvti 1 1 5 1 1 1).wf = false ∧ (Instr.fcvtf 1 1 5 1 1 1).wf = false ∧ (Instr.fcvtw 1 1 5 1 1 1).wf = false ∧
    (Instr.fcvti 1 1 4 1 1 1).wf = true := by decide

/-- R105: an identity selector above 11. -/
theorem smoke_identity :
    (Instr.lidx 1 12).wf = false ∧ (Instr.lidx 1 11).wf = true := by decide

/-- R147: destination 0 where the queue unit writes one. -/
theorem smoke_queues :
    (Instr.xput 0 1).wf = false ∧ (Instr.fset 0).wf = false ∧ (Instr.fclr 0).wf = false ∧ (Instr.xput 1 1).wf = true := by decide

/-- R168: the conversion pairs with no row. -/
theorem smoke_converts :
    (Instr.vfcvt 1 1 0 0).wf = false ∧ (Instr.vfcvt 1 1 3 3).wf = false ∧ (Instr.vfcvt 1 1 6 6).wf = false ∧
    (Instr.vfcvt 1 1 7 7).wf = false ∧ (Instr.vfcvt 1 1 6 7).wf = false ∧ (Instr.vfcvt 1 1 7 6).wf = false ∧
    (Instr.vfcvt 1 1 2 6).wf = true := by decide

/-- R161: a register field where the mode is immediate. -/
theorem smoke_modes :
    (Instr.setms 1 1).wf = false ∧ (Instr.setms 0 1).wf = true := by decide

/-- R31: type 6 of an extended word. -/
theorem smoke_tiles :
    (Instr.top 1 1 1 1 6 1 1).wf = false ∧ (Instr.tops 1 1 1 1 6 1 1).wf = false ∧ (Instr.topl 1 1 1 6 1 1).wf = false ∧
    (Instr.top 1 1 1 1 5 1 1).wf = true := by decide

/-- R277: a ticket load into register 0. -/
theorem smoke_tickets :
    (Instr.tkld 0 1 1 1 1).wf = false ∧ (Instr.tkldw 0 1 1 1 1).wf = false ∧ (Instr.tkldv 0 1 1).wf = false ∧
    (Instr.tkld 1 1 1 1 1).wf = true := by decide

/-- R39, R40: an atomic with destination 0, whose word is the reduction. -/
theorem smoke_atomics :
    (Instr.atmAdd 0 1 1 1 1).wf = false ∧ (Instr.atmMin 0 1 1 1 1).wf = false ∧ (Instr.atmMax 0 1 1 1 1).wf = false ∧
    (Instr.atmMinn 0 1 1 1 1).wf = false ∧ (Instr.atmMaxn 0 1 1 1 1).wf = false ∧ (Instr.atmAnd 0 1 1 1 1).wf = false ∧
    (Instr.atmOr 0 1 1 1 1).wf = false ∧ (Instr.atmXor 0 1 1 1 1).wf = false ∧ (Instr.atmSwp 0 1 1 1 1).wf = false ∧
    (Instr.atmFadd 0 1 1 1 1).wf = false ∧ (Instr.atmFaddh 0 1 1 1 1).wf = false ∧ (Instr.atmCas 0 1 1 1 1).wf = false ∧
    (Instr.atmdAdd 0 1 1 1 1).wf = false ∧ (Instr.atmdMin 0 1 1 1 1).wf = false ∧ (Instr.atmdMax 0 1 1 1 1).wf = false ∧
    (Instr.atmdMinn 0 1 1 1 1).wf = false ∧ (Instr.atmdMaxn 0 1 1 1 1).wf = false ∧
    (Instr.atmdAnd 0 1 1 1 1).wf = false ∧ (Instr.atmdOr 0 1 1 1 1).wf = false ∧ (Instr.atmdXor 0 1 1 1 1).wf = false ∧
    (Instr.atmdSwp 0 1 1 1 1).wf = false ∧ (Instr.atmdFadd 0 1 1 1 1).wf = false ∧ (Instr.atmdCas 0 1 1 1 1).wf = false ∧
    (Instr.atmAdd 1 1 1 1 1).wf = true := by decide

/-- R39: a scope barrier with an empty set of kinds or scope. -/
theorem smoke_barriers :
    (Instr.sbar 0 1 1).wf = false ∧ (Instr.sbar 1 1 0).wf = false ∧ (Instr.sbar 1 1 1).wf = true := by decide

/-- R298: a type of the accumulator declaration that is neither 0 nor 3. -/
theorem smoke_accumulators :
    (Instr.accdecl 1 1 1 1).wf = false ∧ (Instr.accdecl 1 1 1 2).wf = false ∧ (Instr.accdecl 1 1 1 3).wf = true := by decide

/-- The worked encodings of the atomic chapter. -/
theorem decodes_worked_atomics :
    decode 0x84518700 = .ok (.atmAdd 5 6 7 0 0) ∧ decode 0x84018700 = .ok (.redAdd32 6 7 0 0) ∧
    decode 0x8490CAA9 = .ok (.atmFaddh 9 3 10 2 1) ∧ decode 0x885187BE = .ok (.atmdCas 5 6 7 3 2) :=
  ⟨rfl, rfl, rfl, rfl⟩

/-- Words that are no instruction: the word of zeros, the reserved major, an unassigned major, a reserved bit. -/
theorem decodes_rejected :
    decode 0 = .error .zeroWord ∧ decode 0xFC000000 = .error .reservedMajor ∧
    decode 0xA0000000 = .error .unassignedMajor ∧ decode 3 = .error .majorZero :=
  ⟨rfl, rfl, rfl, rfl⟩

end Sys2Proof.Tests
end

section
/-! Every step keeps physical memory in canonical form (R3, R209).

Memory is written in two ways only: bytes are stored at an address (`memStore`) and the dirty bytes of a copy are merged
into a line (`memMerge`). Everything else that the machine does changes other fields of the state. So each function of
the model that answers a state has one lemma here, whose proof has the shape of the function: `.ite` stands for its
conditional, `.foldl` for its fold, `.bind` for a line of its `do` block, the name of a function for a call of it, and
`.fields` for an update of the record that leaves memory alone. The lemmas stand in the order of the functions.

In the proofs, `s₁`, `s₂` … are the states that a function names on its way, and `jp` is what follows a conditional
line of a `do` block. -/

namespace Sys2Proof.Machine

variable {s s' : State} {α β : Type}

/-! Canonical states: the rules of the constructs that build a state. -/

/-- Memory is the one field of a state that its canonical form speaks of. -/
theorem State.canonical.fields {clock tick cur nextUid strands cores dies contexts lines parcels writeBacks agentSeq
    hostCopies saved preempts moves stageQueues queues launches nextLaunch module agenda} (h : s.canonical) :
    (State.mk clock tick cur nextUid strands cores dies contexts s.mem lines parcels writeBacks agentSeq hostCopies saved
      preempts moves stageQueues queues launches nextLaunch module agenda).canonical :=
  h

theorem State.canonical.memStore {clock tick cur nextUid strands cores dies contexts lines parcels writeBacks agentSeq
    hostCopies saved preempts moves stageQueues queues launches nextLaunch module agenda a bs} (h : s.canonical) :
    (State.mk clock tick cur nextUid strands cores dies contexts (memStore s.mem a bs) lines parcels writeBacks agentSeq
      hostCopies saved preempts moves stageQueues queues launches nextLaunch module agenda).canonical :=
  memStore_wf _ _ _ h

theorem State.canonical.memMerge {clock tick cur nextUid strands cores dies contexts lines parcels writeBacks agentSeq
    hostCopies saved preempts moves stageQueues queues launches nextLaunch module agenda line data dirty}
    (h : s.canonical) :
    (State.mk clock tick cur nextUid strands cores dies contexts (memMerge s.mem line data dirty) lines parcels writeBacks
      agentSeq hostCopies saved preempts moves stageQueues queues launches nextLaunch module agenda).canonical :=
  memMerge_wf s.mem line data dirty h

theorem State.canonical.ite {c : Prop} [Decidable c] (h : s.canonical) (h' : s'.canonical) :
    (if c then s else s').canonical := by
  split
  · exact h
  · exact h'

theorem State.canonical.foldl {f : State → α → State} {l : List α} (h : s.canonical)
    (hf : ∀ s x, s.canonical → (f s x).canonical) : (l.foldl f s).canonical := by
  induction l generalizing s with
  | nil => exact h
  | cons x l ih => exact ih (hf _ _ h)

theorem State.canonical.foldlSnd {f : β × State → α → β × State} {l : List α} {p : β × State} (h : p.2.canonical)
    (hf : ∀ p x, p.2.canonical → (f p x).2.canonical) : (l.foldl f p).2.canonical := by
  induction l generalizing p with
  | nil => exact h
  | cons x l ih => exact ih (hf _ _ h)

theorem State.canonical.foldlFst {f : State × β → α → State × β} {l : List α} {p : State × β} (h : p.1.canonical)
    (hf : ∀ p x, p.1.canonical → (f p x).1.canonical) : (l.foldl f p).1.canonical := by
  induction l generalizing p with
  | nil => exact h
  | cons x l ih => exact ih (hf _ _ h)

theorem State.canonical.pair {a : α} (h : s.canonical) : (a, s).2.canonical := h

theorem State.canonical.ofPair {p : α × State} {a} (h : p.2.canonical) (e : p = (a, s')) : s'.canonical := by
  subst e
  exact h

theorem State.canonical.ofTriple {p : α × β × State} {a b} (h : p.2.2.canonical) (e : p = (a, b, s')) :
    s'.canonical := by
  subst e
  exact h

/-! Effects: the rules of a `do` block. -/

/-- The state that an effect leaves, whether it goes through or stops. -/
def M.after (m : M α) (s : State) : State := match m s with
  | .ok _ s' => s'
  | .error _ s' => s'

/-- An effect keeps memory canonical. -/
def M.Keeps (m : M α) : Prop := ∀ s, s.canonical → (M.after m s).canonical

theorem State.canonical.ofOk {m : M α} {a} (hm : M.Keeps m) (h : s.canonical) (e : m s = .ok a s') : s'.canonical := by
  have := hm s h
  rwa [M.after, e] at this

theorem State.canonical.ofError {m : M α} {x} (hm : M.Keeps m) (h : s.canonical) (e : m s = .error x s') :
    s'.canonical := by
  have := hm s h
  rwa [M.after, e] at this

theorem M.Keeps.pure {a : α} : Keeps (pure a : M α) := fun _ h => h
theorem M.Keeps.throw {e : Stop} : Keeps (throw e : M α) := fun _ h => h
theorem M.Keeps.trap {c n v} : Keeps (trap c n v : M α) := fun _ h => h
theorem M.Keeps.set (h : s.canonical) : Keeps (set s) := fun _ _ => h
theorem M.Keeps.modify {f : State → State} (hf : ∀ s, s.canonical → (f s).canonical) : Keeps (modify f) := hf

theorem M.Keeps.bind {m : M α} {f : α → M β} (hm : Keeps m) (hf : ∀ a, Keeps (f a)) : Keeps (m >>= f) := by
  intro s h
  have hs := hm s h
  unfold after at hs ⊢
  simp only [Bind.bind, EStateM.bind]
  cases e : m s with
  | ok a s' => rw [e] at hs; exact hf a s' hs
  | error x s' => rw [e] at hs; exact hs

/-- What follows a read of the state may use that the state is canonical. -/
theorem M.Keeps.getBind {f : State → M β} (hf : ∀ s, s.canonical → Keeps (f s)) :
    Keeps (Bind.bind MonadState.get f) :=
  fun s h => hf s h s h

/-- Nothing follows a stop. -/
theorem M.Keeps.throwBind {e : Stop} {f : α → M β} : Keeps (MonadExcept.throw e >>= f) := fun _ h => h
theorem M.Keeps.trapBind {c n v} {f : α → M β} : Keeps (Machine.trap c n v >>= f) := fun _ h => h

theorem M.Keeps.ite {c : Prop} [Decidable c] {m m' : M α} (h : Keeps m) (h' : Keeps m') :
    Keeps (if c then m else m') := by
  split
  · exact h
  · exact h'

theorem M.Keeps.forM {f : α → M PUnit} {l : List α} (hf : ∀ a, Keeps (f a)) : Keeps (l.forM f) := by
  induction l with
  | nil => exact .pure
  | cons x l ih => exact .bind (hf x) fun _ => ih

theorem M.Keeps.mapM {f : α → M β} {l : List α} (hf : ∀ a, Keeps (f a)) : Keeps (l.mapM f) := by
  induction l with
  | nil => exact .pure
  | cons x l ih =>
    rw [List.mapM_cons]
    exact .bind (hf x) fun _ => .bind ih fun _ => .pure

theorem M.Keeps.forIn {f : α → β → M (ForInStep β)} {l : List α} {b : β} (hf : ∀ a b, Keeps (f a b)) :
    Keeps (ForIn.forIn l b f) := by
  induction l generalizing b with
  | nil => exact .pure
  | cons x l ih =>
    rw [List.forIn_cons]
    refine .bind (hf x b) fun r => ?_
    split
    · exact .pure
    · exact ih

theorem M.Keeps.attempt {m : M α} (hm : Keeps m) : Keeps (attempt m) := by
  intro s h
  have hs := hm s h
  unfold after Machine.attempt at *
  cases e : m s with
  | ok a s' => rw [e] at hs; exact hs
  | error x s' => exact h

/-- An effect on behalf of a strand. -/
theorem State.canonical.runAs {m : M α} {u a} (hm : M.Keeps m) (h : s.canonical) (e : runAs s u m = some (a, s')) :
    s'.canonical := by
  unfold Machine.runAs at e
  split at e
  · cases e
    exact .fields (.ofOk hm (.fields h) ‹_›)
  · cases e

/-! Outcomes of a step. -/

/-- An outcome's next state, if it has one, is canonical. -/
def Out.Canonical (o : Out) : Prop := ∀ s, o = .next s → s.canonical

theorem Out.Canonical.next (h : s.canonical) : Canonical (.next s) := by
  rintro _ ⟨⟩
  exact h

theorem Out.Canonical.fault {x} : Canonical (.fault x) := nofun
theorem Out.Canonical.refused {x} : Canonical (.refused x) := nofun

theorem Out.Canonical.ite {c : Prop} [Decidable c] {o o' : Out} (h : o.Canonical) (h' : o'.Canonical) :
    Canonical (if c then o else o') := by
  split
  · exact h
  · exact h'

/-! The tables of the state. -/

theorem State.canonical.reset : State.reset.canonical := rfl

/-! The parts of the device. -/

theorem State.canonical.setStrand (h : s.canonical) {u t} : (State.setStrand s u t).canonical :=
  .fields h

theorem State.canonical.updStrand (h : s.canonical) {u f} : (State.updStrand s u f).canonical :=
  .setStrand h

theorem State.canonical.updMe (h : s.canonical) {f} : (State.updMe s f).canonical :=
  .updStrand h

theorem State.canonical.updCore (h : s.canonical) {c f} : (State.updCore s c f).canonical :=
  .fields h

theorem State.canonical.updDie (h : s.canonical) {d f} : (State.updDie s d f).canonical :=
  .fields h

theorem State.canonical.updContext (h : s.canonical) {c f} : (State.updContext s c f).canonical :=
  .fields h

theorem State.canonical.updLine (h : s.canonical) {l f} : (State.updLine s l f).canonical :=
  .fields h

theorem State.canonical.updParcel (h : s.canonical) {p f} : (State.updParcel s p f).canonical :=
  .fields h

theorem State.canonical.updModule (h : s.canonical) {f} : (State.updModule s f).canonical :=
  .fields h

theorem State.canonical.post (h : s.canonical) {e} : (State.post s e).canonical :=
  .fields h

theorem State.canonical.raise (h : s.canonical) {n} : (State.raise s n).canonical :=
  .updModule h

/-! Physical memory. -/

theorem State.canonical.nextRequest (h : s.canonical) {agent} : (nextRequest s agent).canonical :=
  .fields h

theorem State.canonical.countRequests (h : s.canonical) {agent n} : (countRequests s agent n).canonical :=
  .fields h

theorem State.canonical.keyLine (h : s.canonical) {line id} : (keyLine s line id).canonical :=
  .ite h (.updLine (.ite h (.memStore h)))

theorem State.canonical.setCopy (h : s.canonical) {core line c} : (State.setCopy s core line c).canonical :=
  .updCore h

theorem State.canonical.setGuest (h : s.canonical) {die line c} : (State.setGuest s die line c).canonical :=
  .updDie h

/-! Page tables and translation caches. -/

theorem State.canonical.countWalk (h : s.canonical) {die level} : (countWalk s die level).canonical :=
  .countRequests h

theorem State.canonical.countLeaf (h : s.canonical) {die l} : (countLeaf s die l).canonical :=
  .ite h (.countWalk h)

theorem State.canonical.freshWalk (h : s.canonical) {die firmware ctx va l}
    (e : freshWalk s die firmware ctx va = .ok (l, s')) : s'.canonical := by
  unfold Machine.freshWalk at e
  split at e
  · cases e
    exact .countWalk h
  · cases e

theorem State.canonical.translate (h : s.canonical) {core firmware ctx va l}
    (e : translate s core firmware ctx va = .ok (l, s')) : s'.canonical := by
  unfold Machine.translate at e
  split at e
  · cases e
  extract_lets die own found at e
  clear_value found
  split at e
  · extract_lets at e
    split at e
    · cases e
      exact .ite h (.updCore h)
    · exact .freshWalk h e
  · split at e
    · cases e
      exact .updDie (.updCore (.freshWalk h ‹_›))
    · cases e

/-- What follows a translation goes on from the state in which the translation has been noted. -/
theorem M.Keeps.translateBind {core firmware ctx va} {f : Leaf × State → M β} (h : s.canonical)
    (hf : ∀ l s', s'.canonical → M.Keeps (f (l, s'))) :
    M.Keeps (Machine.orTrap (translate s core firmware ctx va) >>= f) := by
  cases e : translate s core firmware ctx va with
  | ok p => exact hf p.1 p.2 (.translate h e)
  | error x => exact .throwBind

theorem State.canonical.stampKey (h : s.canonical) {l n} : (stampKey s l n).canonical :=
  .ite (.foldl h fun _ _ h => .keyLine h) h

/-! Lines and their homes. -/

theorem State.canonical.unpin (h : s.canonical) {core line} : (unpin s core line).canonical :=
  .updCore h

theorem State.canonical.coreDrop (h : s.canonical) {core line} : (coreDrop s core line).canonical :=
  .foldl (.unpin (.setCopy h)) fun _ _ h => .updStrand h

theorem State.canonical.coreClean (h : s.canonical) {core line} : (coreClean s core line).canonical := by
  unfold Machine.coreClean
  extract_lets s₁
  have h₁ : s₁.canonical := by
    unfold s₁
    split
    · exact .setCopy h
    · exact h
  exact .foldl h₁ fun _ _ h => .updStrand h

theorem State.canonical.markDirty (h : s.canonical) {line} : (markDirty s line).canonical :=
  .ite (.updLine h) h

theorem State.canonical.rekey (h : s.canonical) {line} : (rekey s line).canonical :=
  .ite h (.keyLine h)

theorem State.canonical.homeMerge (h : s.canonical) {line data dirty} : (homeMerge s line data dirty).canonical :=
  .ite (.updParcel h) (.ite h (.memMerge (.markDirty (.rekey h))))

theorem State.canonical.takeBack (h : s.canonical) {agent line drop} : (takeBack s agent line drop).canonical := by
  unfold Machine.takeBack
  extract_lets _ s₁ _ _ s₃
  have h₁ : s₁.canonical := .foldl h fun _ _ h => .homeMerge h
  have h₃ : s₃.canonical := .ite (.fields h₁) (.homeMerge (.fields h₁))
  refine .ite (.ite (.coreDrop h₃) (.coreClean h₃)) (.ite ?_ (.fields h₃))
  split
  · exact h₃
  · exact .setGuest (.foldl h₃ fun _ _ h => .ite (.coreDrop h) (.coreClean h))

theorem State.canonical.recallAll (h : s.canonical) {line} : (recallAll s line).canonical :=
  .updLine (.foldl h fun _ _ h => .takeBack h)

theorem State.canonical.serveWriteBack (h : s.canonical) {agent line data dirty} :
    (serveWriteBack s agent line data dirty).canonical :=
  .updLine (.homeMerge h)

theorem State.canonical.settle (h : s.canonical) {agent line} : (settle s agent line).canonical :=
  .ite h (.foldl (.fields h) fun _ _ h => .serveWriteBack h)

theorem State.canonical.serveRead (h : s.canonical) {agent line} : (serveRead s agent line).canonical :=
  .ite
    (.ite (.settle h) (.updLine (.foldl (.settle h) fun _ _ h => .takeBack h)))
    (.ite (.settle h) (.updLine (.settle h)))

theorem State.canonical.serveOwn (h : s.canonical) {agent line} : (serveOwn s agent line).canonical :=
  .ite (.settle h) (.ite (.settle h) (.updLine (.foldl (.settle h) fun _ _ h => .takeBack h)))

theorem State.canonical.serveDrop (h : s.canonical) {agent line} : (serveDrop s agent line).canonical :=
  .updLine h

theorem State.canonical.poisonLine (h : s.canonical) {line} : (poisonLine s line).canonical :=
  .updLine h

theorem State.canonical.homeStore (h : s.canonical) {pa bs} : (homeStore s pa bs).canonical :=
  .memStore (.foldl h fun _ _ h => .markDirty (.ite (.recallAll h) h))

theorem State.canonical.sendWriteBack (h : s.canonical) {agent line data dirty} :
    (sendWriteBack s agent line data dirty).canonical :=
  .nextRequest (.fields h)

theorem State.canonical.guestMerge (h : s.canonical) {die core line data dirty} :
    (guestMerge s die core line data dirty).canonical := by
  unfold Machine.guestMerge
  split
  · exact h
  · exact .setGuest h

theorem State.canonical.evictCopy (h : s.canonical) {core line} : (evictCopy s core line).canonical := by
  unfold Machine.evictCopy
  split
  · exact h
  · extract_lets s₁
    have h₁ : s₁.canonical := .unpin (.setCopy h)
    exact .ite h₁ (.ite (.guestMerge h₁) (.ite (.sendWriteBack h₁) (.ite (.serveDrop h₁) h₁)))

theorem State.canonical.dropCopies (h : s.canonical) {core} : (dropCopies s core).canonical :=
  .foldl h fun _ _ h => .evictCopy h

theorem State.canonical.leaveCore (h : s.canonical) {core ctx} : (leaveCore s core ctx).canonical :=
  .ite h (.dropCopies h)

theorem State.canonical.makeRoom (h : s.canonical) {core line} : (makeRoom s core line).canonical :=
  .ite h (.ite h (.evictCopy h))

theorem State.canonical.placeCopy (h : s.canonical) {core line c} : (placeCopy s core line c).canonical :=
  .setCopy (.makeRoom h)

theorem State.canonical.evictGuest (h : s.canonical) {die line} : (evictGuest s die line).canonical := by
  unfold Machine.evictGuest
  split
  · exact h
  · extract_lets _ _ _ s₁
    have h₁ : s₁.canonical := .setGuest (.foldl h fun _ _ h => .coreDrop h)
    exact .ite h₁ (.ite (.sendWriteBack h₁) (.serveDrop h₁))

theorem State.canonical.coreRead (h : s.canonical) {core line} : (coreRead s core line).canonical := by
  unfold Machine.coreRead
  extract_lets
  refine .ite (.serveRead h) ?_
  split
  · exact .setGuest (.foldl h fun _ _ h => .coreClean h)
  · exact .setGuest (.serveRead h)

theorem State.canonical.coreOwn (h : s.canonical) {core line} : (coreOwn s core line).canonical := by
  unfold Machine.coreOwn
  extract_lets _ _ s₁ _ _ s₂
  have h₁ : s₁.canonical := by
    unfold s₁
    split
    · exact .ite h (.serveOwn h)
    · exact .serveOwn h
  have h₂ : s₂.canonical := by
    unfold s₂
    split
    · exact .foldl h₁ fun _ _ h => .coreDrop h
    · exact h₁
  exact .ite (.serveOwn h) (.setGuest h₂)

theorem State.canonical.keepUntracked (h : s.canonical) {core line d} : (keepUntracked s core line d).canonical :=
  .ite h (.placeCopy h)

theorem State.canonical.keepGuest (h : s.canonical) {core line d plain may} :
    (keepGuest s core line d plain may).canonical := by
  unfold Machine.keepGuest
  extract_lets
  refine .ite h ?_
  split
  · exact .ite h (.setGuest h)
  · exact .ite (.setGuest h) h

theorem State.canonical.updateGuest (h : s.canonical) {die line o bs} : (updateGuest s die line o bs).canonical := by
  refine .ite h ?_
  split
  · exact .setGuest h
  · exact h

theorem State.canonical.updateUntracked (h : s.canonical) {core line o bs} :
    (updateUntracked s core line o bs).canonical := by
  unfold Machine.updateUntracked
  extract_lets s₁
  have h₁ : s₁.canonical := by
    unfold s₁
    split
    · exact .setCopy h
    · exact h
  exact .updateGuest h₁

theorem State.canonical.dropUntracked (h : s.canonical) {core line} : (dropUntracked s core line).canonical := by
  unfold Machine.dropUntracked
  extract_lets s₁
  have h₁ : s₁.canonical := by
    unfold s₁
    split
    · exact .ite h (.setCopy h)
    · exact h
  split
  · exact .ite h₁ (.setGuest h₁)
  · exact h₁

theorem State.canonical.selfInvalidate (h : s.canonical) {core scope} : (selfInvalidate s core scope).canonical :=
  .ite h (.foldl (.updCore h) fun _ _ h => .foldl h fun _ _ h => .updStrand h)

/-! Parcels at their homes. -/

theorem State.canonical.naingStore (h : s.canonical) {va bs} (e : naingStore s va bs = some s') : s'.canonical := by
  unfold Machine.naingStore at e
  split at e
  · split at e
    · cases e
      exact .homeStore (.stampKey h)
    · cases e
  · cases e

theorem State.canonical.ringAppend (h : s.canonical) {r : Ring} {bs} (e : r.append s bs = some s') : s'.canonical := by
  unfold Ring.append at e
  split at e
  · split at e
    · cases e
    · split at e
      · exact .naingStore (.naingStore h ‹_›) e
      · cases e
  · cases e

theorem State.canonical.notify (h : s.canonical) {ctx kind va count tier die} :
    (notify s ctx kind va count tier die).canonical := by
  unfold Machine.notify
  extract_lets
  refine .ite h ?_
  split
  · exact .raise (.updContext (.ringAppend h ‹_›))
  · exact .updContext h

theorem State.canonical.faultLog (h : s.canonical) {ctx f} : (faultLog s ctx f).canonical := by
  rw [Machine.faultLog]
  split
  · exact .updContext (.ringAppend (.raise h) ‹_›)
  · exact .updContext (.raise h)

theorem State.canonical.countTransfer (h : s.canonical) {pa ctx va counterEnable} :
    (countTransfer s pa ctx va counterEnable).canonical := by
  unfold Machine.countTransfer
  extract_lets _ _ _ _ _ s₁ _ _ _ _ s₃
  have h₁ : s₁.canonical := .ite h (.updDie h)
  have h₃ : s₃.canonical := .ite (.notify (.updParcel h₁)) (.updParcel h₁)
  exact .ite h (.ite h (.ite (.notify h₃) h₃))

theorem State.canonical.leaveCounter (h : s.canonical) {f} : (leaveCounter s f).canonical :=
  .ite (.updDie h) h

theorem State.canonical.uncount (h : s.canonical) {f} : (uncount s f).canonical :=
  .updParcel (.leaveCounter h)

theorem State.canonical.evictLine (h : s.canonical) {line} : (evictLine s line).canonical := by
  unfold Machine.evictLine
  extract_lets _ s₁
  have h₁ : s₁.canonical := .ite (.recallAll h) h
  refine .ite ?_ (.updLine h₁)
  split
  · exact .countTransfer (.updLine h₁)
  · exact .updLine h₁

theorem State.canonical.fitSlice (h : s.canonical) {die line} : (fitSlice s die line).canonical :=
  .ite h (.ite (.evictLine h) (.evictGuest h))

theorem State.canonical.touchLine (h : s.canonical) {pa ctx va counterEnable} :
    (touchLine s pa ctx va counterEnable).canonical :=
  .ite h (.countTransfer (.fitSlice (.updLine h)))

theorem State.canonical.touchRead (h : s.canonical) {pa ctx va counterEnable} :
    (touchRead s pa ctx va counterEnable).canonical :=
  .ite (.touchLine h) (.countTransfer h)

theorem State.canonical.touchWrite (h : s.canonical) {l ctx va} : (touchWrite s l ctx va).canonical :=
  .ite h (.touchLine h)

theorem State.canonical.forceFetch (h : s.canonical) {f ctx va} : (forceFetch s f ctx va).canonical :=
  .ite h (.notify (.updDie (.updParcel h)))

theorem State.canonical.naingMerges (h : s.canonical) {f} : (State.naingMerges s f).canonical :=
  .updParcel h

theorem State.canonical.logAppend (h : s.canonical) {pa op wd v ctx va} :
    (logAppend s pa op wd v ctx va).canonical := by
  unfold Machine.logAppend
  extract_lets
  split
  exact .ite (.updParcel (.naingMerges h)) (.ite (.updDie (.updParcel (.naingMerges h))) (.ite
    (.forceFetch (.updParcel (.naingMerges h)))
    (.ite (.notify (.updDie (.updParcel (.naingMerges h)))) (.updDie (.updParcel (.naingMerges h))))))

theorem State.canonical.homeOp (h : s.canonical) {pa n op v logEnable ctx va} :
    (homeOp s pa n op v logEnable ctx va).canonical :=
  .ite (.logAppend h) (.ite (.logAppend h) (.ite (.updParcel (.ite (.recallAll h) h)) (.ite (.updParcel h) (.ite
    (.homeStore h)
    (.homeStore h)))))

theorem State.canonical.homePutGo (h : s.canonical) {pa bs logEnable ctx va o n} :
    (homePut.go pa bs logEnable ctx va s o n).canonical := by
  induction n generalizing s o with
  | zero => exact h
  | succ n ih => exact .ite h (ih (.homeOp h))

theorem State.canonical.homePut (h : s.canonical) {pa bs logEnable ctx va} :
    (homePut s pa bs logEnable ctx va).canonical :=
  .ite (.homeStore h) (.homePutGo h)

theorem State.canonical.fullLineStore (h : s.canonical) {pa logEnable ctx va} :
    (fullLineStore s pa logEnable ctx va).canonical :=
  .ite (.updParcel h) (.ite (.updLine (.homePut h)) h)

theorem State.canonical.holdAt (h : s.canonical) {pa op wd v ret log ctx va} :
    (holdAt s pa op wd v ret log ctx va).canonical := by
  unfold Machine.holdAt
  extract_lets _ _ s₁
  have h₁ : s₁.canonical := .ite (.recallAll h) h
  exact .ite (.forceFetch (.updParcel h₁)) (.updParcel h₁)

theorem State.canonical.performHeld (h : s.canonical) {frame e logEnable ctx va} :
    (performHeld s frame e logEnable ctx va).2.canonical := by
  unfold Machine.performHeld
  extract_lets
  split
  · exact .fullLineStore h
  · split
    · exact .homeOp h
    · split
      · exact .holdAt h
      · exact .ite h (.homePut h)

/-! The trace writer and the replay log. -/

theorem State.canonical.quartersPut (h : s.canonical) {q : Quarters} {d bs} (e : q.put s d bs = some s') :
    s'.canonical := by
  unfold Quarters.put at e
  split at e
  · cases e
  · split at e
    · cases e
    · split at e
      · cases e
        exact .homeStore (.homeStore h)
      · cases e

theorem State.canonical.writeRec (h : s.canonical) {q d src delta r} (e : writeRec s q d src delta r = some s') :
    s'.canonical := by
  unfold Machine.writeRec at e
  split at e
  · cases e
  · cases e
    exact .updContext (.quartersPut h ‹_›)

theorem State.canonical.writeSync (h : s.canonical) {q d src} (e : writeSync s q d src = some s') : s'.canonical :=
  .writeRec h e

theorem State.canonical.writeSyncs (h : s.canonical) {q d l} (e : writeSyncs s q d l = some s') : s'.canonical := by
  induction l generalizing s with
  | nil =>
    cases e
    exact h
  | cons x l ih =>
    unfold Machine.writeSyncs at e
    split at e
    · cases e
    · exact ih (.writeSync h ‹_›) e

theorem State.canonical.dropRec (h : s.canonical) {ctx d src} : (dropRec s ctx d src).canonical :=
  .updContext h

theorem State.canonical.syncWhen (h : s.canonical) {sync : Bool} {q d src}
    (e : (if sync then Machine.writeSync s q d src else some s) = some s') : s'.canonical := by
  split at e
  · exact .writeSync h e
  · cases e
    exact h

theorem State.canonical.traceRec (h : s.canonical) {ctx d src r} : (traceRec s ctx d src r).canonical := by
  unfold Machine.traceRec
  extract_lets _ _ _ sync _
  split
  · exact h
  rename_i q _
  extract_lets done
  have hdone : ∀ s', done = some s' → s'.canonical := by
    intro s' e
    unfold done at e
    have hfirst : ∀ s₁, (if sync then Machine.writeSync s q d src else some s) = some s₁ → s₁.canonical :=
      fun _ => .syncWhen h
    generalize (if sync then Machine.writeSync s q d src else some s) = first at e hfirst
    split at e
    · obtain ⟨_, e⟩ := Option.ite_none_right_eq_some.mp e
      split at e
      · cases e
      · exact .writeRec (hfirst _ rfl) e
    · obtain ⟨_, e⟩ := Option.ite_none_right_eq_some.mp e
      split at e
      · cases e
      · rename_i eBind
        obtain ⟨s₁, e₁, e₂⟩ := Option.bind_eq_some_iff.mp eBind
        extract_lets at e
        split at e
        · cases e
        · exact .writeRec (.writeSyncs (.updContext (.writeRec (hfirst _ e₁) e₂)) ‹_›) e
  clear_value done
  split
  · exact hdone _ rfl
  · exact .dropRec h

theorem State.canonical.strandRec (h : s.canonical) {u bit r} : (strandRec s u bit r).canonical :=
  .ite (.traceRec h) h

theorem State.canonical.pipeRecAt (h : s.canonical) {u kind pipe tag pc stop} :
    (pipeRecAt s u kind pipe tag pc stop).canonical :=
  .strandRec h

theorem State.canonical.pipeRec (h : s.canonical) {u kind pipe stop} : (pipeRec s u kind pipe stop).canonical :=
  .pipeRecAt h

theorem State.canonical.pipeBegin (h : s.canonical) {u pipe} : (pipeBegin s u pipe).canonical :=
  .ite h (.updStrand (.pipeRec h))

theorem State.canonical.pipeEnd (h : s.canonical) {u pipe stop} : (pipeEnd s u pipe stop).canonical :=
  .updStrand (.pipeRec h)

theorem State.canonical.pipeStop (h : s.canonical) {u} : (pipeStop s u).canonical := by
  unfold Machine.pipeStop
  split
  · exact .pipeEnd h
  · exact h

theorem State.canonical.pipeRecords (h : s.canonical) {u pipe stop} : (pipeRecords s u pipe stop).canonical :=
  .pipeEnd (.pipeBegin h)

theorem State.canonical.pipeOpen (h : s.canonical) {u pipe key} : (pipeOpen s u pipe key).canonical :=
  .updStrand (.pipeBegin h)

theorem State.canonical.pipeClose (h : s.canonical) {u key} : (pipeClose s u key).canonical := by
  unfold Machine.pipeClose
  split
  · exact h
  · exact .updStrand (.pipeRecAt h)

theorem State.canonical.elementRecords (h : s.canonical) {u} : (elementRecords s u).canonical :=
  .strandRec (.strandRec h)

theorem State.canonical.agentHomeRec (h : s.canonical) {u a line event scope other} :
    (agentHomeRec s u a line event scope other).canonical :=
  .ite (.traceRec h) h

theorem State.canonical.homeRec (h : s.canonical) {u line event scope other} :
    (homeRec s u line event scope other).canonical :=
  .agentHomeRec h

theorem State.canonical.homeRecords (h : s.canonical) {u line before own scope} :
    (homeRecords s u line before own scope).canonical :=
  .foldl h fun _ _ h => .ite (.homeRec h) (.ite (.homeRec h) h)

theorem State.canonical.dropHold (h : s.canonical) {d e} : (dropHold s d e).canonical :=
  .ite h (.updDie h)

theorem State.canonical.notReplayable (h : s.canonical) {ctx d} : (notReplayable s ctx d).canonical :=
  .ite h (.updContext h)

theorem State.canonical.replayDone (h : s.canonical) {u d kind g} : (replayDone s u d kind g).canonical := by
  unfold Machine.replayDone
  extract_lets _ s₁
  have h₁ : s₁.canonical := by
    unfold s₁
    split
    · refine .ite (.updContext h) ?_
      split
      · split
        · exact .quartersPut h ‹_›
        · exact .notReplayable h
      · exact .notReplayable h
    · exact .notReplayable h
    · exact h
  exact .updStrand h₁

/-! How an instruction runs. -/

theorem M.Keeps.me : M.Keeps me :=
  .getBind fun _ _ => .pure

theorem M.Keeps.updMe {f} : M.Keeps (updMe f) :=
  .modify fun _ h => .updMe h

theorem State.canonical.wake (h : s.canonical) {u} : (wake s u).canonical :=
  .updStrand h

theorem State.canonical.park (h : s.canonical) {u w} : (park s u w).canonical :=
  .updStrand h

theorem State.canonical.finishStrand (h : s.canonical) {u} : (finishStrand s u).canonical :=
  .leaveCore (.updStrand h)

theorem State.canonical.ctxStore (h : s.canonical) {ctx va bs} (e : ctxStore s ctx va bs = .ok s') : s'.canonical := by
  unfold Machine.ctxStore at e
  split at e
  · cases e
  · split at e
    · cases e
    · split at e
      · cases e
      · split at e <;> cases e
        · exact .faultLog h
        · exact .homePut (.stampKey h)

theorem State.canonical.queueError (h : s.canonical) {q code cause sub index toError} :
    (queueError s q code cause sub index toError).canonical := by
  unfold Machine.queueError
  extract_lets _ _ s₁
  have h₁ : s₁.canonical := by
    unfold s₁
    split
    · exact .ctxStore h ‹_›
    · exact h
  exact .raise (.ite (.fields h₁) h₁)

theorem State.canonical.updLaunch (h : s.canonical) {i f} : (State.updLaunch s i f).canonical :=
  .fields h

theorem State.canonical.setPlacing (h : s.canonical) {q p} : (setPlacing s q p).canonical :=
  .fields h

theorem State.canonical.releaseReserved (h : s.canonical) {id} : (releaseReserved s id).canonical :=
  .updLaunch (.foldl h fun _ _ h => .foldl h fun _ _ h => .updCore h)

theorem State.canonical.withdrawRequests (h : s.canonical) {us} : (withdrawRequests s us).canonical :=
  .fields h

theorem State.canonical.cancelCommands (h : s.canonical) {ctx} : (cancelCommands s ctx).canonical :=
  .foldl h fun _ _ h => .updDie h

theorem State.canonical.dropMoves (h : s.canonical) {ctx} : (dropMoves s ctx).canonical := by
  unfold Machine.dropMoves
  extract_lets s₁
  have h₁ : s₁.canonical := by
    refine .foldl h fun _ _ h => ?_
    split
    · exact .ite (.updCore h) h
    · exact h
  exact .fields h₁

theorem State.canonical.loseContext (h : s.canonical) {ctx sub u} : (loseContext s ctx sub u).canonical :=
  .ite h (.fields
    (.foldl
      (.foldl
        (.cancelCommands (.foldl (.dropMoves (.withdrawRequests (.updContext (.faultLog h)))) fun _ _ h =>
          .finishStrand h))
        fun _ _ h => .updLaunch (.releaseReserved h))
      fun _ _ h => .queueError (.setPlacing h)))

theorem State.canonical.tellHost (h : s.canonical) {bit} : (State.tellHost s bit).canonical :=
  .updModule h

theorem State.canonical.doubleTrap (h : s.canonical) {u} : (doubleTrap s u).canonical :=
  .ite (.loseContext (.finishStrand (.tellHost h))) (.finishStrand (.tellHost h))

theorem State.canonical.takeTrap (h : s.canonical) {u x async part} : (takeTrap s u x async part).canonical :=
  .ite (.doubleTrap h) (.updStrand h)

theorem State.canonical.countEmulation (h : s.canonical) {u} : (countEmulation s u).canonical :=
  .foldl h fun _ _ h => .updStrand h

theorem State.canonical.endUnit (h : s.canonical) {u w} : (endUnit s u w).canonical :=
  .foldl (.faultLog h) fun _ _ h => .finishStrand h

theorem State.canonical.migrationRec (h : s.canonical) {u kind slot core target reason bytes} :
    (migrationRec s u kind slot core target reason bytes).canonical :=
  .ite (.traceRec h) h

theorem State.canonical.emulate (h : s.canonical) {u w xfields reason orEnd} :
    (emulate s u w xfields reason orEnd).canonical := by
  unfold Machine.emulate
  extract_lets
  refine .ite (.countEmulation (.updStrand (.migrationRec h))) ?_
  split
  · exact .endUnit h
  · exact .park h

theorem State.canonical.classMissing (h : s.canonical) {u w classes xfields} :
    (classMissing s u w classes xfields).canonical :=
  .ite (.emulate h) (.ite (.emulate h) (.ite (.emulate h) (.fields (.park h))))

theorem State.canonical.updQueue (h : s.canonical) {u q f} : (State.updQueue s u q f).canonical :=
  .updStrand h

theorem State.canonical.countIssued (h : s.canonical) {u classes} : (countIssued s u classes).canonical :=
  .ite (.ite (.post (.updStrand (.updStrand h))) (.updStrand (.updStrand h))) (.updStrand (.updStrand h))

theorem State.canonical.complete (h : s'.canonical) {f s flow} : (complete f s flow s').canonical := by
  unfold Machine.complete
  extract_lets u s₁
  have h₁ : s₁.canonical := .ite h (.countIssued h)
  split
  · exact .updStrand h₁
  · exact .updStrand h₁
  · exact h₁

theorem State.canonical.stopTrap (h : s.canonical) {f x part} : (stopTrap f s x part).canonical :=
  .ite (.classMissing h) (.takeTrap (.ite (.countIssued h) h))

/-- An instruction keeps memory canonical when its effect does: its traps and its parking do too. -/
theorem Out.Canonical.insn (h : s.canonical) {f body} (hbody : M.Keeps body) : Out.Canonical (insn f body s) := by
  unfold Machine.insn
  split
  · exact .next (.stopTrap h)
  · split
    · exact .next (.complete (.ofOk hbody h ‹_›))
    · exact .next (.stopTrap h)
    · exact .next (.stopTrap (.ofError hbody h ‹_›))
    · exact .next (.park h)
    · exact .next (.park (.ofError hbody h ‹_›))

theorem M.Keeps.seq {body} (hbody : M.Keeps body) : M.Keeps (seq body) :=
  .bind hbody fun _ => .pure

/-! Operand forms. -/

theorem M.Keeps.readReg {f} : M.Keeps (readReg f) :=
  .bind .me fun _ => .pure

theorem M.Keeps.writeReg {f v} : M.Keeps (writeReg f v) :=
  .updMe

theorem M.Keeps.popQueue {q} : M.Keeps (popQueue q) := by
  refine .getBind fun _ h => ?_
  extract_lets
  split
  · exact .ite (.ite .trap (.bind (.set (.updQueue h)) fun _ => .pure)) .throw
  · exact .ite .trap .throw

theorem M.Keeps.allocSlot {q x} : M.Keeps (allocSlot q x) :=
  .getBind fun _ h => .ite (.ite .trap .throw) (.bind (.set (.updQueue h)) fun _ => .pure)

theorem M.Keeps.pushQueue {q v} : M.Keeps (pushQueue q v) :=
  .getBind fun _ _ => .bind .allocSlot fun _ => .pure

theorem M.Keeps.readX {f} : M.Keeps (readX f) :=
  .ite .readReg (.bind .popQueue fun _ => .pure)

theorem M.Keeps.readSync {f sync} : M.Keeps (readSync f sync) :=
  .ite .readX (.getBind fun _ _ => .ite .pure (.ite (.bind .updMe fun _ => .pure) (.ite .trap .throw)))

theorem M.Keeps.writeX {f v} : M.Keeps (writeX f v) :=
  .ite .writeReg .pushQueue

theorem M.Keeps.vecReady {r} : M.Keeps (vecReady r) :=
  .bind .me fun _ => .ite .throw .pure

theorem M.Keeps.readV {f} : M.Keeps (readV f) :=
  .ite (.bind .vecReady fun _ => .bind .me fun _ => .pure) .popQueue

theorem M.Keeps.oldV {f} : M.Keeps (oldV f) :=
  .ite .readV .pure

theorem M.Keeps.writeV {f v n} : M.Keeps (writeV f v n) :=
  .ite (.bind .vecReady fun _ => .ite .updMe .pure) .pushQueue

/-! Sticky flags. -/

theorem M.Keeps.raiseFlags {fl} : M.Keeps (raiseFlags fl) :=
  .ite .pure .updMe

/-! Data accesses. -/

theorem M.Keeps.leafFor {k va} : M.Keeps (leafFor k va) := by
  refine .getBind fun _ h => ?_
  extract_lets
  refine .translateBind h fun _ _ h => .bind (.set h) fun _ => ?_
  split
  · exact .throw
  · exact .pure

theorem M.Keeps.windowLeaf {k va} : M.Keeps (windowLeaf k va) := by
  refine .getBind fun _ h => ?_
  extract_lets
  refine .translateBind h fun _ _ h => .bind (.set h) fun _ => ?_
  split
  · exact .throw
  · exact .ite .throwBind .pure

theorem M.Keeps.coveredLeaf {va} : M.Keeps (coveredLeaf va) :=
  .getBind fun _ h => .translateBind h fun _ _ h => .bind (.set h) fun _ => .ite .trapBind .pure

theorem M.Keeps.rangeClasses {g n} : M.Keeps (rangeClasses g n) :=
  .mapM fun _ => .ite .trapBind (.bind .coveredLeaf fun _ => .pure)

theorem State.canonical.dropRangeCopies (h : s.canonical) {core ctx g n} :
    (dropRangeCopies s core ctx g n).canonical := by
  refine .foldl h fun _ _ h => ?_
  split
  · exact h
  · exact .evictCopy h

theorem M.Keeps.rebindWindow {u i} : M.Keeps (rebindWindow u i) :=
  .getBind fun _ _ =>
    .ite .pure (.bind .rangeClasses fun _ => .ite .trapBind (.modify fun _ h => .updStrand (.dropRangeCopies h)))

theorem M.Keeps.resolveWindow {k u i j o n} : M.Keeps (resolveWindow k u i j o n) := by
  refine .bind .rebindWindow fun _ => .getBind fun _ _ => ?_
  extract_lets
  refine .ite (.bind (.attempt .windowLeaf) fun _ => ?_) (.ite (.bind .windowLeaf (fun _ => .pure)) .pure)
  split
  · exact .bind .pure fun _ => .ite .trapBind .pure
  · exact .throwBind
  · exact .throwBind

theorem M.Keeps.resolve {k va n} : M.Keeps (resolve k va n) := by
  refine .getBind fun _ _ => ?_
  extract_lets
  split
  · refine .ite .trap ?_
    split
    · exact .resolveWindow
    · exact .pure
  · split
    · exact .resolveWindow
    · exact .bind .leafFor fun _ => .pure

theorem M.Keeps.checkFill {va n} : M.Keeps (checkFill va n) := by
  refine .getBind fun _ _ => ?_
  extract_lets
  split
  · exact .throw
  · exact .pure

theorem M.Keeps.checkChannel {va n} : M.Keeps (checkChannel va n) :=
  .bind .me fun _ => .ite .pure .checkFill

theorem M.Keeps.checkWatch {k va n} : M.Keeps (checkWatch k va n) := by
  refine .bind .me fun _ => ?_
  split
  · exact .trap
  · exact .pure

theorem State.canonical.fitGuest (h : s.canonical) {core line} : (fitGuest s core line).canonical :=
  .ite h (.fitSlice h)

theorem State.canonical.readLine (h : s.canonical) {core line scope} : (readLine s core line scope).canonical := by
  unfold Machine.readLine
  extract_lets _ _ s₁
  have h₁ : s₁.canonical := .fitGuest (.homeRecords (.coreRead h))
  exact .ite (.nextRequest h₁) h₁

theorem State.canonical.ownLine (h : s.canonical) {core line scope} : (ownLine s core line scope).canonical := by
  unfold Machine.ownLine
  extract_lets _ _ s₁
  have h₁ : s₁.canonical := .fitGuest (.homeRecords (.coreOwn h))
  exact .ite (.nextRequest h₁) h₁

theorem State.canonical.foreignRead (h : s.canonical) {core line scope} : (foreignRead s core line scope).canonical :=
  .nextRequest (.ite (.updLine (.takeBack h)) (.homeRecords (.serveRead h)))

theorem State.canonical.yieldWindows (h : s.canonical) {core line mine own} :
    (yieldWindows s core line mine own).canonical := by
  refine .foldl h fun _ _ h => .updStrand (.ite h ?_)
  split
  · exact .setGuest h
  · exact .homeMerge h

theorem M.Keeps.fillFrom {u i j own l va} : M.Keeps (fillFrom u i j own l va) := by
  refine .getBind fun _ h => ?_
  extract_lets _ _ _ _ _ _ s₄
  have h₄ : s₄.canonical := .ite
    (.ite
      (.ownLine (.yieldWindows (.evictCopy (.touchLine h))))
      (.readLine (.yieldWindows (.evictCopy (.touchLine h)))))
    (.nextRequest (.evictCopy (.touchLine h)))
  exact .set (.updMe (.updStrand (.ite (.ite (.stampKey h₄) h₄) (.keepGuest h₄))))

theorem M.Keeps.fillWindowLine {u i j own va} : M.Keeps (fillWindowLine u i j own va) :=
  .getBind fun _ _ => .bind .windowLeaf fun _ => .bind .checkFill fun _ => .getBind fun _ _ =>
    .ite .trapBind (.bind .checkWatch fun _ => .fillFrom)

theorem M.Keeps.windowReachable {u i j va} : M.Keeps (windowReachable u i j va) :=
  .getBind fun _ _ => .ite .trap .pure

theorem M.Keeps.windowLoad {u i j o n} : M.Keeps (windowLoad u i j o n) := by
  refine .getBind fun _ _ => ?_
  extract_lets _ _ _ jp
  have hjp : ∀ r, (jp r).Keeps := fun _ => .getBind fun _ _ => .pure
  exact .ite (.bind .windowReachable fun _ => hjp ()) (.bind .fillWindowLine fun _ => hjp ())

theorem M.Keeps.windowReady {u i j o n} : M.Keeps (windowReady u i j o n) :=
  .getBind fun _ _ =>
    .ite (.ite .windowReachable .fillWindowLine) (.ite
      (.bind .windowLeaf fun _ => .getBind fun _ _ => .ite .trapBind (.modify fun _ h => .updStrand h))
      .fillWindowLine)

theorem M.Keeps.windowStore {u i j o bs} : M.Keeps (windowStore u i j o bs) :=
  .bind .windowReady fun _ => .modify fun _ h => .updStrand h

theorem State.canonical.writePrivate (h : s.canonical) {u line va dirty data} :
    (writePrivate s u line va dirty data).canonical := by
  unfold Machine.writePrivate
  extract_lets _ leaf _ s₁
  have h₁ : s₁.canonical := by
    unfold s₁
    unfold leaf
    split
    · exact .stampKey (.touchWrite h)
    · exact h
  exact .ite (.faultLog h) (.nextRequest (.fields (.foldl (.fields h₁) fun _ _ h =>
    .ite (.updateGuest (.homePut h)) h)))

theorem State.canonical.writeBackWindow (h : s.canonical) {u i j clearValid} :
    (writeBackWindow s u i j clearValid).canonical :=
  .ite h (.ite
    (.ite h (.nextRequest (.updLine (.coreDrop (.takeBack (.ite (.faultLog h) h))))))
    (.updStrand (.ite h (.writePrivate h))))

theorem State.canonical.flushWindows (h : s.canonical) {u f clearValid} : (flushWindows s u f clearValid).canonical :=
  .foldl h fun _ _ h => .ite (.foldl h fun _ _ h => .writeBackWindow h) h

theorem M.Keeps.awaitOwn {va pa n} : M.Keeps (awaitOwn va pa n) :=
  .getBind fun _ _ => .ite .throw .pure

theorem M.Keeps.awaitPlace {p va n} : M.Keeps (awaitPlace p va n) := by
  refine .getBind fun _ _ => ?_
  split
  · exact .ite .awaitOwn .awaitOwn
  · exact .awaitOwn

theorem M.Keeps.readHome {l va n again} : M.Keeps (readHome l va n again) :=
  .getBind fun _ h =>
    .ite
      (.bind (.set (.ite h (.nextRequest h))) fun _ => .pure)
      (.bind (.set (.ite h (.nextRequest (.touchRead h)))) fun _ => .pure)

theorem M.Keeps.readTracked {l va n scope again pin} : M.Keeps (readTracked l va n scope again pin) := by
  refine .getBind fun _ h => ?_
  extract_lets _ _ _ s₁
  have h₁ : s₁.canonical := .ite (.ite h (.coreRead h)) (.updMe (.touchLine (.ite (.foreignRead h) (.readLine h))))
  exact .ite
    (.bind (.set (.ite h (.nextRequest h))) fun _ => .pure)
    (.bind (.set (.ite (.placeCopy h₁) h₁)) fun _ => .pure)

theorem M.Keeps.readUntracked {l va n again pin} : M.Keeps (readUntracked l va n again pin) := by
  refine .getBind fun _ h => ?_
  extract_lets
  split
  refine .ite (.bind (.set (.ite h (.nextRequest h))) (fun _ => .pure)) ?_
  extract_lets _ s₁ _ _ s₂
  have h₁ : s₁.canonical := .ite h (.updMe (.ite (.nextRequest (.touchLine h)) h))
  have h₂ : s₂.canonical := .ite (.fitGuest (.keepGuest h₁)) h₁
  exact .bind (.set (.ite (.keepUntracked h₂) h₂)) fun _ => .pure

theorem M.Keeps.memRead {l va n scope again pin} : M.Keeps (memRead l va n scope again pin) := by
  refine .getBind fun _ _ => .ite .pure (.ite .pure (.ite .readHome ?_))
  split
  · exact .ite .readTracked .pure
  · exact .ite .readTracked .readUntracked

theorem M.Keeps.memStoreAt {l va bs scope again full} : M.Keeps (memStoreAt l va bs scope again full) := by
  refine .getBind fun _ h => ?_
  extract_lets _ _ _ _ s₂ _ held s₃ _ s₄
  have h₂ : s₂.canonical := .ite (.fullLineStore (.stampKey h)) (.stampKey h)
  have h₃ : s₃.canonical := by
    unfold s₃
    unfold held
    split
    · exact .ite h₂ (.touchLine (.ownLine h₂))
    · exact .updMe (.touchLine (.ownLine h₂))
  have h₄ : s₄.canonical := .ite h₂ (.nextRequest (.touchWrite h₂))
  exact .ite .trap (.ite (.set (.faultLog h)) (.ite (.set (.placeCopy h₃)) (.set (.ite
    (.updateUntracked (.homePut h₄))
    (.homePut h₄)))))

theorem M.Keeps.readBytes {va n deliver scope again} : M.Keeps (readBytes va n deliver scope again) := by
  refine .bind .resolve fun _ => .bind .checkChannel fun _ => .bind .awaitPlace fun _ => ?_
  split
  · exact .getBind fun _ _ => .getBind fun _ _ => .pure
  · exact .bind .windowLoad fun _ => .pure
  · exact .bind .memRead fun _ => .ite .trapBind .pure

theorem M.Keeps.loadBytes {va n deliver scope again} : M.Keeps (loadBytes va n deliver scope again) := by
  refine .bind .me fun _ => .bind .readBytes fun _ => ?_
  split
  · exact .trap
  · exact .pure

theorem M.Keeps.storeBytes {va bs scope again full} : M.Keeps (storeBytes va bs scope again full) := by
  refine .bind .me fun _ => .bind .resolve fun _ => .bind .checkChannel fun _ => .bind .awaitPlace fun _ => ?_
  extract_lets jp
  have hjp : ∀ r, (jp r).Keeps := by
    intro _
    unfold jp
    split
    · exact .trap
    · exact .pure
  split
  · exact .bind (.modify fun _ h => .updStrand h) fun _ => hjp ()
  · exact .bind .windowStore fun _ => hjp ()
  · exact .bind .memStoreAt fun _ => hjp ()

theorem M.Keeps.checkAligned {va n} : M.Keeps (checkAligned va n) :=
  .ite .pure .trap

theorem M.Keeps.release {scope mask} : M.Keeps (release scope mask) := by
  refine .getBind fun _ h => ?_
  extract_lets jp
  have hjp : ∀ r, (jp r).Keeps := by
    intro _
    unfold jp
    split
    · exact .throw
    · exact .ite .pure (.set (.flushWindows h))
  exact .ite .throwBind (hjp ())

theorem M.Keeps.streamReady {st} : M.Keeps (streamReady st) :=
  .getBind fun _ _ => .ite .throwBind (.ite .throw .pure)

theorem M.Keeps.allStreams : M.Keeps allStreams :=
  .getBind fun _ _ => .ite .throwBind (.ite .throw .pure)

theorem M.Keeps.acquire {scope} : M.Keeps (acquire scope) :=
  .modify fun _ h => .selfInvalidate h

/-! Scalar loads and stores. -/

theorem M.Keeps.freshen {k va n scope} : M.Keeps (freshen k va n scope) := by
  refine .bind .resolve fun _ => ?_
  split
  · exact .pure
  · exact .modify fun _ h => .updStrand h
  · refine .modify fun _ h => .ite h ?_
    extract_lets
    split
    · exact .ite (.setCopy h) (.setGuest (.setCopy h))
    · exact .setCopy h

theorem M.Keeps.publish {va n} : M.Keeps (publish va n) := by
  refine .bind .resolve fun _ => ?_
  split
  · exact .modify fun _ h => .ite h (.writeBackWindow h)
  · exact .pure

theorem M.Keeps.loadOp {d b o w st r c signed} : M.Keeps (loadOp d b o w st r c signed) := by
  refine .bind .me fun _ => ?_
  extract_lets _ _ _ _ jp₂
  have hjp₂ : ∀ r, (jp₂ r).Keeps := fun _ => .ite
    (.bind .loadBytes fun _ =>
      .ite (.bind .acquire fun _ => .bind .writeReg fun _ => .pure) (.bind .writeReg fun _ => .pure))
    (.bind .allocSlot fun _ => .bind .loadBytes fun _ =>
      .ite
        (.bind .acquire fun _ => .bind (.modify fun _ h => .post h) fun _ => .pure)
        (.bind (.modify fun _ h => .post h) fun _ => .pure))
  exact .bind .checkAligned fun _ => .bind .streamReady fun _ => .ite (.bind .freshen fun _ => hjp₂ ()) (hjp₂ ())

theorem M.Keeps.storeOp {d b o w st r c} : M.Keeps (storeOp d b o w st r c) := by
  refine .bind .readX fun _ => .bind .me fun _ => ?_
  extract_lets _ _ _ jp₂
  have hjp₂ : ∀ r, (jp₂ r).Keeps := fun _ => .bind .storeBytes fun _ => .ite (.bind .publish fun _ => .pure) .pure
  exact .bind .checkAligned fun _ => .bind .streamReady fun _ => .ite (.bind .release fun _ => hjp₂ ()) (hjp₂ ())

/-! Scratchpad windows. -/

theorem M.Keeps.bindWindow {g w} : M.Keeps (bindWindow g w) := by
  unfold Machine.bindWindow
  extract_lets _ _ _ jp₇
  have hjp₇ : ∀ r, (jp₇ r).Keeps := by
    intro _
    refine .getBind fun _ _ => ?_
    extract_lets _ jp₃
    have hjp₃ : ∀ r, (jp₃ r).Keeps := by
      intro _
      refine .bind .rangeClasses fun _ => ?_
      extract_lets _ jp₂
      have hjp₂ : ∀ r, (jp₂ r).Keeps := by
        intro _
        refine .getBind fun _ _ => ?_
        extract_lets kept jp
        have hjp : ∀ r, (jp r).Keeps := by
          intro _
          unfold jp
          unfold kept
          split
          · exact .bind (.modify fun _ h => .updMe (.updCore (.dropRangeCopies h))) fun _ => .pure
          · exact .ite .pure (.bind (.modify fun _ h => .updMe (.dropRangeCopies h)) fun _ => .pure)
        exact .ite .trapBind (hjp ())
      exact .ite .trapBind (hjp₂ ())
    exact .ite .trapBind (.ite .trapBind (.ite .trapBind (.ite .trapBind (hjp₃ ()))))
  exact .ite .trapBind (hjp₇ ())

theorem M.Keeps.wmapOp {d a b} : M.Keeps (wmapOp d a b) :=
  .bind .readReg fun _ => .bind .readReg fun _ => .bind .bindWindow fun _ => .bind .writeReg fun _ => .pure

theorem M.Keeps.boundWindow {n} : M.Keeps (boundWindow n) := by
  refine .bind .me fun _ => ?_
  split
  · exact .pure
  · exact .trap

theorem M.Keeps.windowRange {w a} : M.Keeps (windowRange w a) :=
  .ite .pure (.bind .readReg fun _ => .ite .trapBind .pure)

theorem State.canonical.giveUpLine (h : s.canonical) {core line} : (giveUpLine s core line).canonical := by
  refine .ite h ?_
  split
  · exact .setGuest h
  · exact .ite (.nextRequest (.updLine h)) h

theorem State.canonical.dropWindowLine (h : s.canonical) {u i j} : (dropWindowLine s u i j).canonical :=
  .ite (.giveUpLine (.updStrand h)) (.updStrand h)

theorem State.canonical.dropFills (h : s.canonical) {u i} : (dropFills s u i).canonical :=
  .fields h

theorem State.canonical.unmapWindow (h : s.canonical) {u i discard} : (unmapWindow s u i discard).canonical :=
  .updStrand (.foldl (.dropFills h) fun _ _ h => .ite (.dropWindowLine h) (.writeBackWindow h))

theorem M.Keeps.awaitLines {w} : M.Keeps (awaitLines w) :=
  .bind .allStreams fun _ => .awaitOwn

theorem M.Keeps.wunmapOp {v n} : M.Keeps (wunmapOp v n) :=
  .bind .boundWindow fun _ => .bind .awaitLines fun _ => .bind .release fun _ =>
    .bind (.modify fun _ h => .unmapWindow h) fun _ => .pure

theorem M.Keeps.wflushOp {a n} : M.Keeps (wflushOp a n) :=
  .bind .boundWindow fun _ => .bind .windowRange fun _ => .bind .awaitLines fun _ =>
    .bind (.modify fun _ h => .foldl h fun _ _ h => .writeBackWindow h) fun _ => .pure

theorem M.Keeps.winvOp {a v n} : M.Keeps (winvOp a v n) :=
  .bind .boundWindow fun _ => .bind .windowRange fun _ =>
    .bind (.modify fun _ h => .foldl h fun _ _ h => .ite (.dropWindowLine h) (.updMe h)) fun _ => .pure

theorem M.Keeps.wtouchOp {a n} : M.Keeps (wtouchOp a n) :=
  .bind .boundWindow fun _ => .bind .windowRange fun _ =>
    .bind (.modify fun _ h => .foldl h fun _ _ h => .ite h (.post h)) fun _ => .pure

theorem M.Keeps.wstatOp {d v n} : M.Keeps (wstatOp d v n) :=
  .bind .me fun _ => .bind .writeReg fun _ => .pure

theorem State.canonical.releaseKept (h : s.canonical) {u i} : (releaseKept s u i).canonical :=
  .fields h

theorem M.Keeps.keepBound {on n} : M.Keeps (keepBound on n) :=
  .bind .boundWindow fun _ => .ite .trapBind (.ite (.bind (.modify fun _ h => .releaseKept h) fun _ => .updMe) .updMe)

theorem M.Keeps.wkeepOp {v n} : M.Keeps (wkeepOp v n) :=
  .bind .keepBound fun _ => .pure

theorem State.canonical.windowFill (h : s.canonical) {u idx line} : (windowFill s u idx line).canonical := by
  unfold Machine.windowFill
  extract_lets
  split
  · exact h
  · refine .ite h ?_
    split
    · exact .runAs (.bind .rebindWindow fun _ => .fillWindowLine) h ‹_›
    · exact h

theorem State.canonical.keepWindow (h : s.canonical) {u i} : (keepWindow s u i).canonical :=
  .updStrand (.updCore (.dropFills h))

theorem State.canonical.leaveWindows (h : s.canonical) {u} : (leaveWindows s u).canonical :=
  .foldl h fun _ _ h => .ite (.keepWindow h) (.unmapWindow h)

/-! Atomics and reductions. -/

theorem M.Keeps.strandGate {die kind} : M.Keeps (strandGate die kind) :=
  .getBind fun _ _ => .ite .throwBind .pure

theorem M.Keeps.holdReturning {l va code wd v cmp dest acq} : M.Keeps (holdReturning l va code wd v cmp dest acq) := by
  unfold Machine.holdReturning
  extract_lets _ jp
  have hjp : ∀ r, (jp r).Keeps := fun _ => .bind
    (.modify fun _ h => .nextRequest (.holdAt (.ite (.dropUntracked h) h)))
    fun _ => .throw
  exact .ite (.bind .allocSlot fun _ => .bind .pure fun _ => hjp _) (.bind .pure fun _ => hjp _)

theorem M.Keeps.atomicHome {a l va} : M.Keeps (atomicHome a l va) := by
  refine .bind .strandGate fun _ => .getBind fun _ h => ?_
  extract_lets _ _ _ _ _ s₁ s₂ _ s₃ _ s₄ s₅ _ jp
  have h₁ : s₁.canonical := .ite (.homeRecords (.recallAll h)) h
  have h₂ : s₂.canonical := .ite (.touchWrite h₁) (.touchRead h₁)
  have h₃ : s₃.canonical := .ite (.stampKey h₂) h₂
  have h₄ : s₄.canonical := by
    unfold s₄
    split
    · exact .ite (.homeOp h₃) (.homeOp h₃)
    · exact .homeOp h₃
    · exact h₃
  have h₅ : s₅.canonical := by
    unfold s₅
    split
    · exact .ite (.updateUntracked h₄) h₄
    · exact .ite (.dropUntracked h₄) h₄
  have hjp : ∀ r, (jp r).Keeps := fun _ => .bind (.set (.replayDone (.nextRequest (.agentHomeRec h₅)))) fun _ => .pure
  split
  · exact .ite (.bind (.modify fun _ h => .ite (.stampKey h) h) fun _ => .bind .holdReturning fun _ => hjp ()) (hjp ())
  · exact hjp ()

theorem State.canonical.ownerWrite (h : s.canonical) {owner l bs} : (ownerWrite s owner l bs).canonical := by
  unfold Machine.ownerWrite
  extract_lets
  refine .ite ?_ ?_
  · split
    · exact .updStrand h
    · split
      · exact .setCopy h
      · exact .homeStore h
  · split
    · exact .setGuest (.foldl h fun _ _ h => .coreDrop h)
    · exact .homeStore h

theorem M.Keeps.atomicOwner {a l va owner} : M.Keeps (atomicOwner a l va owner) := by
  refine .getBind fun _ h => ?_
  extract_lets _ _ _ _ s₂
  have h₂ : s₂.canonical := by
    unfold s₂
    split
    · exact .ownerWrite (.touchLine h)
    · exact .touchLine h
  exact .bind (.set (.nextRequest (.homeRec h₂))) fun _ => .pure

theorem M.Keeps.atomicCore {a l va} : M.Keeps (atomicCore a l va) := by
  refine .getBind fun _ h => ?_
  extract_lets
  split
  · exact .bind .memStoreAt fun _ => .pure
  · exact .ite .pure (.bind (.set (.setCopy (.touchLine (.ownLine h)))) fun _ => .pure)
  · exact .pure

theorem M.Keeps.atomicReady {a va p} : M.Keeps (atomicReady a va p) :=
  .ite (.bind .awaitPlace fun _ => .checkWatch) .pure

theorem M.Keeps.atomicPoison {l va n} : M.Keeps (atomicPoison l va n) :=
  .getBind fun _ _ => .ite .trap .pure

theorem M.Keeps.atomicMem {a l va} : M.Keeps (atomicMem a l va) := by
  refine .getBind fun _ _ => ?_
  extract_lets
  refine .bind .atomicPoison fun _ => .bind .atomicReady fun _ => .ite (.ite .atomicCore ?_) .atomicHome
  split
  · exact .atomicOwner
  · exact .atomicHome

theorem M.Keeps.performAtomic {a va p} : M.Keeps (performAtomic a va p) := by
  unfold Machine.performAtomic
  split
  · refine .getBind fun _ _ => ?_
    extract_lets jp₂
    have hjp₂ : ∀ r, (jp₂ r).Keeps := by
      intro _
      refine .bind .atomicReady fun _ => .getBind fun _ _ => ?_
      extract_lets
      split
      · exact .bind (.modify fun _ h => .updStrand h) fun _ => .pure
      · exact .pure
    exact .ite .trapBind (hjp₂ ())
  · refine .getBind fun _ _ => ?_
    extract_lets _ jp₄ jp₅
    have hjp₄ : ∀ r, (jp₄ r).Keeps := by
      intro _
      refine .bind .windowLoad fun _ => ?_
      extract_lets
      refine .bind .atomicReady fun _ => ?_
      split
      · exact .bind .windowStore fun _ => .pure
      · exact .pure
    have hjp₅ : ∀ r, (jp₅ r).Keeps := fun _ => .ite (.bind .windowReady fun _ => hjp₄ ()) (hjp₄ ())
    exact .bind .windowLeaf fun _ =>
      .ite
        (.ite (.bind .awaitPlace fun _ => hjp₅ ()) (hjp₅ ()))
        (.bind (.modify fun _ h => .writeBackWindow h) fun _ => .bind (.modify fun _ h => .updStrand h) fun _ =>
          .atomicMem)
  · exact .atomicMem

theorem M.Keeps.placePa {p} : M.Keeps (placePa p) := by
  unfold Machine.placePa
  split
  · exact .pure
  · exact .getBind fun _ _ => .bind .windowLeaf fun _ => .pure
  · exact .pure

theorem M.Keeps.atomicPlace {va n fp} : M.Keeps (atomicPlace va n fp) := by
  refine .bind .checkAligned fun _ => .bind .resolve fun _ => .bind .placePa fun _ => ?_
  extract_lets jp
  have hjp : ∀ r, (jp r).Keeps := fun _ => .bind .checkChannel fun _ => .pure
  split
  · exact .ite .trapBind (hjp ())
  · exact hjp ()

theorem M.Keeps.awaitParcel {p va pieces} : M.Keeps (awaitParcel p va pieces) := by
  unfold Machine.awaitParcel
  split
  · exact .getBind fun _ h => .ite .throwBind (.ite (.ite (.bind (.set (.forceFetch h)) fun _ => .throw) .pure) .pure)
  · exact .pure

theorem M.Keeps.atmOp {w fn d a b o c} : M.Keeps (atmOp w fn d a b o c) := by
  refine .bind .readReg fun _ => ?_
  extract_lets
  refine .bind .allStreams fun _ => .bind .atomicPlace fun _ => .bind .me fun _ => ?_
  extract_lets
  refine .bind .readX fun _ => ?_
  extract_lets _ jp₂
  have hjp₂ : ∀ r, (jp₂ r).Keeps := by
    intro _
    refine .bind .performAtomic fun _ => ?_
    extract_lets jp
    have hjp : ∀ r, (jp r).Keeps := fun _ => .bind .writeX fun _ => .pure
    exact .ite (.bind .acquire fun _ => hjp ()) (hjp ())
  exact .ite (.bind .release fun _ => hjp₂ ()) (hjp₂ ())

theorem State.canonical.reductionFault (h : s.canonical) {r x} : (reductionFault s r x).canonical :=
  .faultLog h

theorem M.Keeps.unwatched {m} (hm : M.Keeps m) : M.Keeps (unwatched m) :=
  .bind .me fun _ => .bind .updMe fun _ => .bind hm fun _ => .updMe

theorem M.Keeps.performReduction {r} : M.Keeps (performReduction r) :=
  .unwatched (.bind .atomicPlace fun _ => .bind .performAtomic fun _ => .pure)

theorem M.Keeps.redOp {word w fn a b o c} : M.Keeps (redOp word w fn a b o c) := by
  refine .bind .readReg fun _ => .bind .checkAligned fun _ => .bind .readX fun _ => .bind .checkWatch fun _ => ?_
  extract_lets _ jp₂
  have hjp₂ : ∀ r, (jp₂ r).Keeps := by
    intro _
    refine .getBind fun _ h => ?_
    extract_lets
    refine .ite (.bind (.attempt .performReduction) fun _ => ?_) (.bind (.set (.post h)) (fun _ => .pure))
    split
    · exact .pure
    · exact .bind (.modify fun _ h => .reductionFault h) fun _ => .pure
    · exact .bind (.modify fun _ h => .post h) fun _ => .pure
  exact .ite (.bind (.modify fun _ h => .flushWindows h) fun _ => hjp₂ ()) (hjp₂ ())

theorem State.canonical.orphan (h : s.canonical) {r} : (orphan s r).canonical :=
  .raise (.updModule h)

theorem State.canonical.inPlaceOf (h : s.canonical) {r} : (inPlaceOf s r).canonical :=
  .fields (.updStrand (.dropHold h))

theorem State.canonical.reductionPerform (h : s.canonical) {r} : (reductionPerform s r).canonical := by
  refine .ite (.orphan h) ?_
  extract_lets
  split
  · extract_lets s₁
    have h₁ : s₁.canonical := .updStrand (.fields (.ofOk .performReduction (.inPlaceOf h) ‹_›))
    split
    · exact .selfInvalidate (.selfInvalidate h₁)
    · exact h₁
  · exact .reductionFault (.dropHold h)
  · exact .post h

/-! The QUE instructions. -/

theorem M.Keeps.configureQueue {q w} : M.Keeps (configureQueue q w) := by
  refine .getBind fun _ h => ?_
  extract_lets _ _ _ jp₂
  have hjp₂ : ∀ r, (jp₂ r).Keeps := by
    intro _
    refine .ite (.set (.updQueue h)) ?_
    split
    · exact .trap
    · exact .ite .trapBind (.set (.updQueue h))
  exact .ite .trapBind (hjp₂ ())

theorem M.Keeps.qcfgOp {d a} : M.Keeps (qcfgOp d a) :=
  .bind .readReg fun _ => .bind .configureQueue fun _ => .pure

theorem M.Keeps.discardHeads {q begun n} : M.Keeps (discardHeads q begun n) := by
  induction n generalizing begun with
  | zero => exact .updMe
  | succ n ih =>
    unfold Machine.discardHeads
    refine .getBind fun s h => ?_
    extract_lets _ _ wait
    have hwait : wait.Keeps := .bind .updMe fun _ => .throw
    split
    · exact .ite (.bind (.set (.updQueue h)) fun _ => ih) hwait
    · exact .ite (.bind .updMe fun _ => .throw) hwait

theorem M.Keeps.qadvOp {a b} : M.Keeps (qadvOp a b) := by
  refine .bind .readReg fun _ => ?_
  extract_lets
  refine .bind .me fun _ => ?_
  split
  · exact .bind .discardHeads fun _ => .pure
  · exact .bind .discardHeads fun _ => .pure

theorem M.Keeps.qcommitOp {a} : M.Keeps (qcommitOp a) :=
  .bind (.modify fun _ h => .updQueue h) fun _ => .pure

theorem M.Keeps.qfillOp {d a} : M.Keeps (qfillOp d a) :=
  .getBind fun _ _ => .bind .writeReg fun _ => .pure

theorem M.Keeps.qfreeOp {d a} : M.Keeps (qfreeOp d a) :=
  .getBind fun _ _ => .bind .writeReg fun _ => .pure

theorem M.Keeps.qresetOp {a} : M.Keeps (qresetOp a) :=
  .bind (.modify fun _ h => .updQueue h) fun _ => .pure

theorem M.Keeps.qdrainOp {a} : M.Keeps (qdrainOp a) :=
  .getBind fun _ _ => .ite .pure .throw

theorem State.canonical.spareReg (h : s.canonical) {p d} : (spareReg s p d).canonical := by
  unfold Machine.spareReg
  extract_lets
  split
  · extract_lets s₁
    have h₁ : s₁.canonical := .updStrand h
    split
    · exact .updDie h₁
    · exact .updParcel h₁
    · exact .fields h₁
    · exact h₁
  · exact h

theorem M.Keeps.xputOp {d a} : M.Keeps (xputOp d a) :=
  .bind .readReg fun _ =>
    .ite
      (.getBind fun _ h => .ite (.ite .trapBind .throwBind) (.bind (.set (.updStrand (.spareReg h))) fun _ => .pure))
      (.bind .pushQueue fun _ => .pure)

theorem M.Keeps.fullOp {d on} : M.Keeps (fullOp d on) :=
  .bind .updMe fun _ => .pure

theorem M.Keeps.ftestOp {d a} : M.Keeps (ftestOp d a) :=
  .bind .me fun _ => .bind .writeReg fun _ => .pure

/-! Scalar floating point. -/

theorem M.Keeps.fps2 {d a b t x f} : M.Keeps (fps2 d a b t x f) := by
  refine .bind .readSync fun _ => .bind .readX fun _ => ?_
  extract_lets
  refine .bind .me fun _ => ?_
  split
  exact .bind .writeX fun _ => .bind .raiseFlags fun _ => .pure

theorem M.Keeps.fps1 {d a t x f} : M.Keeps (fps1 d a t x f) := by
  refine .bind .readSync fun _ => ?_
  extract_lets
  refine .bind .me fun _ => ?_
  split
  exact .bind .writeX fun _ => .bind .raiseFlags fun _ => .pure

theorem M.Keeps.fps3 {d a b t x minus} : M.Keeps (fps3 d a b t x minus) := by
  refine .bind .readSync fun _ => .bind .readX fun _ => .bind .readReg fun _ => ?_
  extract_lets
  refine .bind .me fun _ => ?_
  split
  exact .bind .writeReg fun _ => .bind .raiseFlags fun _ => .pure

theorem M.Keeps.fcvtiOp {d a m f t x} : M.Keeps (fcvtiOp d a m f t x) := by
  refine .bind .readSync fun _ => ?_
  extract_lets
  refine .bind .me fun _ => ?_
  split
  exact .bind .writeX fun _ => .bind .raiseFlags fun _ => .pure

theorem M.Keeps.fcvtfOp {d a m f t x} : M.Keeps (fcvtfOp d a m f t x) := by
  refine .bind .readSync fun _ => ?_
  extract_lets
  refine .bind .me fun _ => ?_
  split
  exact .bind .writeX fun _ => .bind .raiseFlags fun _ => .pure

theorem M.Keeps.fcvtwOp {d a m f t x} : M.Keeps (fcvtwOp d a m f t x) := by
  refine .bind .readSync fun _ => ?_
  extract_lets
  refine .bind .me fun _ => ?_
  split
  exact .bind .writeX fun _ => .bind .raiseFlags fun _ => .pure

/-! Elements, strips and masks. -/

theorem M.Keeps.vecEnd {pipe} : M.Keeps (vecEnd pipe) := by
  refine .bind .updMe fun _ => ?_
  split
  · exact .modify fun _ h => .pipeRecords h
  · exact .updMe

theorem M.Keeps.vecEndLater {pipe key} : M.Keeps (vecEndLater pipe key) :=
  .bind .updMe fun _ => .modify fun _ h => .pipeOpen h

theorem M.Keeps.readB {b x w} : M.Keeps (readB b x w) :=
  .ite (.bind .me fun _ => .pure) (.bind .readV fun _ => .pure)

theorem M.Keeps.lanes2 {d a b x w pipe f} : M.Keeps (lanes2 d a b x w pipe f) := by
  refine .bind .me fun _ => .bind .readV fun _ => .bind .readB fun _ => .bind .oldV fun _ => ?_
  extract_lets
  split
  exact .bind .raiseFlags fun _ => .bind .writeV fun _ => .bind .vecEnd fun _ => .pure

theorem M.Keeps.lanes1 {d a w pipe f} : M.Keeps (lanes1 d a w pipe f) := by
  refine .bind .me fun _ => .bind .readV fun _ => .bind .oldV fun _ => ?_
  extract_lets
  split
  exact .bind .raiseFlags fun _ => .bind .writeV fun _ => .bind .vecEnd fun _ => .pure

theorem M.Keeps.reduce {d a b w pipe f} : M.Keeps (reduce d a b w pipe f) := by
  refine .bind .me fun _ => .bind .readV fun _ => .bind .readV fun _ => .bind .oldV fun _ => ?_
  extract_lets _ jp
  have hjp : ∀ r, (jp r).Keeps := fun _ => .bind .vecEnd fun _ => .pure
  refine .ite (.bind .writeV (fun _ => hjp ())) ?_
  split
  exact .bind .raiseFlags fun _ => .bind .writeV fun _ => hjp ()

theorem M.Keeps.permute {d w is f} : M.Keeps (permute d w is f) := by
  refine .bind .oldV fun _ => ?_
  split
  exact .bind .writeV fun _ => .vecEnd

/-! Fences, barriers, value waits and accumulation spans. -/

theorem M.Keeps.sbarOp {m p k} : M.Keeps (sbarOp m p k) := by
  unfold Machine.sbarOp
  extract_lets _ _ jp₃
  have hjp₃ : ∀ r, (jp₃ r).Keeps := fun _ => .ite
    (.getBind fun _ _ => .ite .throwBind (.bind .acquire fun _ => .pure))
    .pure
  exact .ite (.bind .release fun _ => hjp₃ ()) (hjp₃ ())

theorem M.Keeps.syncLeaf {va n writes tracked} : M.Keeps (syncLeaf va n writes tracked) := by
  refine .bind .checkAligned fun _ => ?_
  extract_lets jp₄
  have hjp₄ : ∀ r, (jp₄ r).Keeps := by
    intro _
    refine .getBind fun _ h => ?_
    extract_lets
    refine .translateBind h fun _ _ h => .bind (.set h) fun _ => ?_
    extract_lets _ _ jp₃
    have hjp₃ : ∀ r, (jp₃ r).Keeps := fun _ =>
      .ite .trapBind (.bind .checkChannel fun _ => .getBind fun _ _ => .ite .trapBind (.bind .awaitOwn fun _ => .pure))
    refine .ite ?_ (hjp₃ ())
    split
    · exact .ite .throwBind (hjp₃ ())
    · exact hjp₃ ()
  exact .ite .trapBind (hjp₄ ())

theorem State.canonical.endBarwt (h : s.canonical) {u r} : (endBarwt s u r).canonical := by
  unfold Machine.endBarwt
  split
  · exact .ite (.selfInvalidate (.updStrand (.wake h))) (.countIssued (.selfInvalidate (.updStrand (.wake h))))
  · exact h

theorem M.Keeps.putBarrier {l va new} : M.Keeps (putBarrier l va new) :=
  .bind .strandGate fun _ => .modify fun _ h => .replayDone (.nextRequest (.homePut (.stampKey (.touchRead h))))

theorem M.Keeps.bariOp {a b sc} : M.Keeps (bariOp a b sc) :=
  .bind .readReg fun _ => .bind .readReg fun _ => .bind .allStreams fun _ => .bind .syncLeaf fun _ =>
    .ite .trapBind (.bind .checkWatch fun _ => .bind .release fun _ => .getBind fun _ _ =>
      .ite
        (.bind .strandGate fun _ =>
          .bind (.modify fun _ h => .replayDone (.nextRequest (.holdAt (.stampKey h)))) fun _ => .pure)
        (.getBind fun _ _ => .bind .putBarrier fun _ => .pure))

theorem M.Keeps.barvOp {d a sc} : M.Keeps (barvOp d a sc) := by
  refine .bind .readReg fun _ => .bind .allStreams fun _ => .bind .syncLeaf fun _ => .getBind fun _ _ => ?_
  extract_lets jp
  have hjp : ∀ r, (jp r).Keeps := fun _ => .getBind fun _ _ => .bind .putBarrier fun _ => .bind .writeReg fun _ => .pure
  exact .ite .trapBind (.bind .checkWatch fun _ => .bind .release fun _ => .getBind fun _ _ =>
    .ite
      (.bind .strandGate fun _ => .bind (.modify fun _ h => .replayDone (.stampKey h)) fun _ =>
        .bind .holdReturning fun _ => hjp ())
      (hjp ()))

theorem M.Keeps.readBarrier {l va} : M.Keeps (readBarrier l va) :=
  .bind (.modify fun _ h => .nextRequest (.touchRead h)) fun _ => .getBind fun _ _ => .pure

theorem M.Keeps.barwOp {a b sc} : M.Keeps (barwOp a b sc) :=
  .bind .readReg fun _ => .bind .readReg fun _ => .bind .allStreams fun _ => .bind .syncLeaf fun _ =>
    .bind .readBarrier fun _ =>
    .ite .trapBind (.bind .checkWatch fun _ => .ite .throwBind (.bind .acquire fun _ => .pure))

theorem M.Keeps.barwtOp {d a b sc} : M.Keeps (barwtOp d a b sc) := by
  refine .bind .readReg fun _ => .bind .readReg fun _ => ?_
  extract_lets
  refine .bind .readReg fun _ => ?_
  extract_lets
  refine .bind .allStreams fun _ => .bind .syncLeaf fun _ => .bind .readBarrier fun _ => ?_
  extract_lets jp₃
  have hjp₃ : ∀ r, (jp₃ r).Keeps := by
    intro _
    refine .bind .checkWatch fun _ => .getBind fun _ _ => ?_
    extract_lets _ jp
    have hjp : ∀ r, (jp r).Keeps := fun _ => .bind .writeReg fun _ => .pure
    exact .ite .throwBind (.bind .acquire fun _ => .ite (.bind .updMe fun _ => hjp ()) (hjp ()))
  exact .ite .trapBind (hjp₃ ())

theorem State.canonical.barwtDeadline (h : s.canonical) {u} : (barwtDeadline s u).canonical := by
  unfold Machine.barwtDeadline
  split
  · exact h
  · split
    · exact .ite (.endBarwt h) (.updStrand h)
    · exact .updStrand h

theorem M.Keeps.waitvOp {d a b sc} : M.Keeps (waitvOp d a b sc) :=
  .bind .readReg fun _ => .bind .readReg fun _ => .bind .allStreams fun _ => .bind .syncLeaf fun _ =>
    .bind .loadBytes fun _ => .ite .throwBind (.bind .acquire fun _ => .bind .writeReg fun _ => .pure)

theorem M.Keeps.accdeclOp {k a b ty} : M.Keeps (accdeclOp k a b ty) :=
  .bind .readReg fun _ => .bind .readReg fun _ => .bind .me fun _ =>
    .ite .trapBind (.ite .trapBind (.bind .checkAligned fun _ => .ite .trapBind (.bind .updMe fun _ => .pure)))

theorem M.Keeps.vaccOp {k a b} : M.Keeps (vaccOp k a b) := by
  refine .bind .me fun _ => ?_
  extract_lets
  split
  · exact .trapBind
  · refine .bind .readV fun _ => .bind .readV fun _ => .bind .me fun _ => ?_
    split
    exact .bind .updMe fun _ => .bind .raiseFlags fun _ => .bind (.modify fun _ h => .pipeRecords h) fun _ => .pure

theorem M.Keeps.mergeOne {k x j} : M.Keeps (mergeOne k x j) := by
  unfold Machine.mergeOne
  extract_lets
  refine .bind .atomicPlace fun _ => .bind .awaitParcel fun _ => .bind .me fun _ => ?_
  extract_lets
  split
  · exact .trapBind
  · exact .bind .performAtomic fun _ => .updMe

theorem State.canonical.noteMerged (h : s.canonical) {part} : (noteMerged s part).canonical :=
  .ite (.updMe h) h

theorem M.Keeps.mergeAll {k x part l} : M.Keeps (mergeAll k x part l) := by
  induction l generalizing part with
  | nil => exact .pure
  | cons j l ih =>
    intro s h
    unfold M.after Machine.mergeAll
    cases e : Machine.mergeOne k x j s with
    | ok _ s' => exact ih s' (.ofOk .mergeOne h e)
    | error y s' =>
      have h' : s'.canonical := .ofError .mergeOne h e
      cases y with
      | trap y => exact .noteMerged h
      | park w => exact .noteMerged h
      | parkAt w => exact .noteMerged h'
      | _ => exact h'

theorem M.Keeps.accmergeOp {d k} : M.Keeps (accmergeOp d k) := by
  refine .bind .me fun _ => ?_
  extract_lets _ jp₂
  have hjp₂ : ∀ r, (jp₂ r).Keeps := by
    intro _
    refine .bind .me fun _ => ?_
    split
    · exact .bind .writeReg fun _ => .bind .updMe fun _ => .pure
    · exact .pure
  split
  · exact .trapBind
  · exact .bind .allStreams fun _ => .bind .me fun _ => .bind .mergeAll fun _ =>
      .ite (.bind .updMe fun _ => hjp₂ ()) (hjp₂ ())

theorem M.Keeps.accrelOp {k} : M.Keeps (accrelOp k) :=
  .bind .updMe fun _ => .pure

/-! The strand instructions. -/

theorem State.canonical.endStrand (h : s.canonical) {u} : (endStrand s u).canonical := by
  unfold Machine.endStrand
  extract_lets
  split
  · exact .finishStrand h
  · exact .updStrand (.finishStrand h)

theorem State.canonical.leaveGang (h : s.canonical) {u} : (leaveGang s u).canonical :=
  .ite h (.updStrand (.updContext h))

theorem State.canonical.releaseAll (h : s.canonical) {u} : (releaseAll s u).canonical :=
  .updStrand (.leaveGang (.leaveWindows h))

theorem State.canonical.exitStrand (h : s.canonical) {u} : (exitStrand s u).canonical := by
  unfold Machine.exitStrand
  extract_lets
  refine .ite ?_ (.endStrand h)
  split
  · exact .endStrand (.endStrand h)
  · exact .endStrand h
  · exact .updStrand h

theorem M.Keeps.exitOp : M.Keeps exitOp := by
  refine .getBind fun _ _ => ?_
  extract_lets _ _ jp₃
  have hjp₃ : ∀ r, (jp₃ r).Keeps := by
    intro _
    unfold jp₃
    split
    · exact .throwBind
    · exact .bind (.modify fun _ h => .releaseAll h) fun _ => .getBind fun _ h =>
        .ite .throwBind (.bind (.set (.exitStrand h)) fun _ => .pure)
  exact .ite .throwBind (hjp₃ ())

theorem M.Keeps.loopOp {a n} : M.Keeps (loopOp a n) :=
  .bind .readReg fun _ => .bind .updMe fun _ => .pure

theorem M.Keeps.endloopOp {n} : M.Keeps (endloopOp n) :=
  .bind .me fun _ =>
    .ite (.bind .updMe fun _ => .pure) (.ite (.ite (.bind .updMe fun _ => .pure) (.bind .updMe fun _ => .pure)) .pure)

theorem M.Keeps.lidxOp {d x} : M.Keeps (lidxOp d x) :=
  .bind .me fun _ => .bind .writeReg fun _ => .pure

theorem M.Keeps.sidxOp {a n} : M.Keeps (sidxOp a n) :=
  .bind .readReg fun _ => .bind .updMe fun _ => .pure

theorem M.Keeps.forklOp {d a} : M.Keeps (forklOp d a) := by
  refine .bind .readReg fun _ => ?_
  extract_lets _ jp₂
  have hjp₂ : ∀ r, (jp₂ r).Keeps := by
    intro _
    refine .bind .release fun _ => .getBind fun _ h => ?_
    extract_lets
    split
    · exact .bind .writeReg fun _ => .pure
    · exact .ite (.bind .writeReg fun _ => .pure) (.bind (.set (.fields (.updMe (.setStrand (.updCore h))))) fun _ =>
        .bind .writeReg fun _ => .pure)
  exact .ite .trapBind (hjp₂ ())

theorem M.Keeps.joinlOp {d a} : M.Keeps (joinlOp d a) := by
  refine .bind .readReg fun _ => .getBind fun _ _ => ?_
  extract_lets
  split
  · exact .bind .writeReg fun _ => .pure
  · exact .ite .throwBind (.bind .updMe fun _ => .bind .writeReg fun _ => .pure)

theorem M.Keeps.yieldOp : M.Keeps yieldOp :=
  .bind (.modify fun _ h => .updCore h) fun _ => .pure

theorem M.Keeps.hintOp {c} : M.Keeps (hintOp c) :=
  .ite (.bind (.modify fun _ h => .updStrand h) fun _ => .pure) .pure

theorem M.Keeps.migrOp {d a} : M.Keeps (migrOp d a) :=
  .bind .readReg fun _ => .getBind fun _ h =>
    .ite (.bind .writeReg fun _ => .pure) (.ite (.bind .writeReg fun _ => .pure) (.bind (.set (.fields h)) fun _ =>
      .throw))

/-! Copy engines, ports, channels and gangs. -/

theorem State.canonical.updCmd (h : s.canonical) {die entry f} : (State.updCmd s die entry f).canonical :=
  .updDie h

theorem State.canonical.engineRec (h : s.canonical) {die entry} : (engineRec s die entry).canonical :=
  .ite (.traceRec h) h

theorem State.canonical.blockRec (h : s.canonical) {die entry what bytes port seq} :
    (blockRec s die entry what bytes port seq).canonical :=
  .ite (.traceRec h) h

theorem State.canonical.engineFault (h : s.canonical) {die entry cause sub va} :
    (engineFault s die entry cause sub va).canonical :=
  .faultLog h

theorem State.canonical.killKey (h : s.canonical) {c} : (killKey s c).canonical :=
  .ite h (.updContext h)

theorem State.canonical.failTree (h : s.canonical) {n l} : (failTree s n l).canonical := by
  induction n generalizing s l with
  | zero => exact h
  | succ n ih =>
    cases l with
    | nil => exact h
    | cons x l => exact .ite (ih h) (ih (.killKey (.engineFault (.updCmd h))))

theorem State.canonical.failCommand (h : s.canonical) {die entry sub va} : (failCommand s die entry sub va).canonical :=
  .failTree h

theorem State.canonical.failPeers (h : s.canonical) {die entry} : (failPeers s die entry).canonical :=
  .failTree (.killKey h)

theorem M.Keeps.engineRelease : M.Keeps engineRelease :=
  .getBind fun _ _ => .getBind fun _ _ => .ite .throwBind .release

theorem M.Keeps.estrOp {d a} : M.Keeps (estrOp d a) := by
  refine .bind .readReg fun _ => ?_
  extract_lets _ jp₅
  have hjp₅ : ∀ r, (jp₅ r).Keeps := by
    intro _
    refine .bind .engineRelease fun _ => .bind .readBytes fun _ => .getBind fun _ h => ?_
    extract_lets _ _ _ _ _ _ jp₂
    have hjp₂ : ∀ r, (jp₂ r).Keeps := by
      intro _
      refine .bind .checkWatch fun _ => ?_
      split
      · exact .bind .writeReg fun _ => .pure
      · exact .ite (.bind .writeReg fun _ => .pure) (.bind (.set (.updDie h)) fun _ =>
          .bind (.modify fun _ h => .ite (.fields h) h) fun _ => .bind (.modify fun _ h => .engineRec h) fun _ =>
          .bind .writeReg fun _ => .pure)
    exact .ite .trapBind (.ite .trapBind (.ite .trapBind (hjp₂ ())))
  exact .ite .trapBind (hjp₅ ())

theorem M.Keeps.estatOp {d a} : M.Keeps (estatOp d a) := by
  refine .bind .readReg fun _ => .getBind fun _ _ => ?_
  extract_lets
  split
  · exact .bind .writeReg fun _ => .pure
  · exact .bind .writeReg fun _ => .ite (.bind .acquire fun _ => .pure) .pure

theorem M.Keeps.ecancelOp {d a} : M.Keeps (ecancelOp d a) := by
  refine .bind .readReg fun _ => .getBind fun _ h => ?_
  extract_lets
  split
  · exact .bind .writeReg fun _ => .pure
  · exact .ite
      (.bind (.set (.failPeers (.updCmd h))) fun _ => .bind .writeReg fun _ => .pure)
      (.bind .writeReg fun _ => .pure)

theorem M.Keeps.epushOp {a b} : M.Keeps (epushOp a b) := by
  refine .bind .readReg fun _ => .bind .readReg fun _ => .getBind fun _ _ => ?_
  split
  · exact .trap
  · exact .ite .trapBind (.ite .trapBind (.bind .engineRelease fun _ =>
      .ite .throwBind (.bind (.modify fun _ h => .updCmd h) fun _ => .pure)))

theorem M.Keeps.epopOp {d a} : M.Keeps (epopOp d a) := by
  refine .bind .readReg fun _ => .getBind fun _ h => ?_
  split
  · exact .trap
  · extract_lets _ jp
    have hjp : ∀ r, (jp r).Keeps := by
      intro _
      unfold jp
      split
      · exact .ite .throw .trap
      · exact .bind (.set (.updCmd h)) fun _ => .bind .acquire fun _ => .bind .writeReg fun _ => .pure
    exact .ite .trapBind (hjp ())

theorem M.Keeps.ewmOp {d a} : M.Keeps (ewmOp d a) :=
  .bind .readReg fun _ => .getBind fun _ _ => .bind .writeReg fun _ => .pure

theorem M.Keeps.ewaitOp {a b} : M.Keeps (ewaitOp a b) :=
  .bind .readReg fun _ => .bind .readReg fun _ => .getBind fun _ _ =>
    .ite (.bind .updMe fun _ => .bind .acquire fun _ => .pure) (.bind .updMe fun _ => .throw)

theorem State.canonical.retest (h : s.canonical) {ctx n} : (retest s ctx n).canonical := by
  refine .foldl h fun _ _ h => ?_
  split
  · exact .ite (.wake h) h
  · exact h

theorem M.Keeps.channelClasses {base size} : M.Keeps (channelClasses base size) :=
  .mapM fun _ => .ite .trapBind (.bind .leafFor fun _ => .pure)

theorem M.Keeps.echanOp {d a b} : M.Keeps (echanOp d a b) :=
  .bind .readReg fun _ => .bind .readReg fun _ => .getBind fun _ _ =>
    .ite (.bind .writeReg fun _ => .pure) (.ite (.bind .writeReg fun _ => .pure) (.bind .channelClasses fun _ =>
      .ite (.bind .writeReg fun _ => .pure) (.bind (.modify fun _ h => .updContext h) fun _ =>
        .bind (.modify fun _ h => .retest h) fun _ => .bind .writeReg fun _ => .pure)))

theorem State.canonical.updGang (h : s.canonical) {ctx die port f} : (updGang s ctx die port f).canonical :=
  .updContext h

theorem M.Keeps.egangOp {d a b} : M.Keeps (egangOp d a b) := by
  refine .bind .readReg fun _ => .bind .readReg fun _ => ?_
  extract_lets
  refine .getBind fun _ h => ?_
  extract_lets _ _ old _ _ _ jp₂
  have hjp₂ : ∀ r, (jp₂ r).Keeps := by
    intro _
    refine .ite (.bind .writeReg (fun _ => .pure)) (.ite (.bind .writeReg (fun _ => .pure)) (.bind (.set ?_) fun _ =>
      .bind .updMe fun _ => .bind .writeReg fun _ => .pure))
    unfold old
    split
    · exact .updGang h
    · exact .updContext h
  refine .ite (.bind .writeReg (fun _ => .pure)) (.ite ?_ (hjp₂ ()))
  split
  · exact .trapBind
  · exact hjp₂ ()

theorem State.canonical.dissolve (h : s.canonical) {ctx die port} : (dissolve s ctx die port).canonical := by
  unfold Machine.dissolve
  split
  · exact h
  · exact .foldl (.foldl (.updContext h) fun _ _ h => .updStrand h) fun _ _ h => .ite (.post h) h

theorem State.canonical.commandStart (h : s.canonical) {die entry} : (commandStart s die entry).canonical :=
  .ite h (.ite (.failCommand (.engineRec (.updCmd h))) (.ite (.failCommand (.engineRec (.updCmd h))) (.engineRec
    (.updCmd h))))

theorem State.canonical.engineRecords (h : s.canonical) {die entry line before own fold} :
    (engineRecords s die entry line before own fold).canonical := by
  unfold Machine.engineRecords
  extract_lets _ _ _ s₁
  have h₁ : s₁.canonical := .foldl h fun _ _ h => .agentHomeRec h
  refine .nextRequest ?_
  split
  · exact .agentHomeRec h₁
  · exact h₁

theorem State.canonical.engineRead (h : s.canonical) {die entry va n v} (e : engineRead s die entry va n = .ok (v, s')) :
    s'.canonical := by
  unfold Machine.engineRead at e
  extract_lets at e
  split at e
  · cases e
  · split at e
    · cases e
    · cases e
      exact .engineRecords (.touchRead (.countLeaf (.ite (.foldl h fun _ _ h => .takeBack h)
        (.updLine (.foldl h fun _ _ h => .takeBack h)))))

theorem State.canonical.engineWrite (h : s.canonical) {die entry va op new}
    (e : engineWrite s die entry va op new = .ok s') :
    s'.canonical := by
  unfold Machine.engineWrite at e
  extract_lets _ _ _ at e
  split at e
  · cases e
  extract_lets _ _ s₁ _ _ _ _ s₂ s₃ _ s₄ at e
  have h₁ : s₁.canonical := .stampKey (.touchWrite (.countLeaf h))
  split at e
  · cases e
  split at e
  · cases e
    exact .engineFault h
  split at e
  · cases e
    exact .engineRecords (.ownerWrite h₁)
  · have h₃ : s₃.canonical := .ite (.updateGuest (.fields h₁)) (.fields h₁)
    have h₄ : s₄.canonical := by
      unfold s₄
      split
      · exact .ite (.homeOp h₃) (.homeOp h₃)
      · exact .homeOp h₃
    cases e
    exact .fields (.engineRecords h₄)

theorem State.canonical.countWrite (h : s.canonical) {c va n} : (countWrite s c va n).canonical :=
  .ite h (.updContext h)

theorem State.canonical.setStageQueue (h : s.canonical) {q} : (setStageQueue s q).canonical :=
  .fields h

theorem State.canonical.sourceOf (h : s.canonical) {die entry k v} (e : sourceOf s die entry k = .value v s') :
    s'.canonical := by
  unfold Machine.sourceOf at e
  extract_lets c n memory at e
  have hmemory : ∀ s va, s.canonical → memory s va = .value v s' → s'.canonical := by
    intro s va h e
    unfold memory at e
    split at e
    · cases e
      exact .engineRead h ‹_›
    · cases e
  split at e
  · exact hmemory _ _ h e
  · split at e
    · cases e
      exact .updCmd h
    · cases e
  · split at e
    · split at e
      · exact hmemory _ _ (.updCmd h) e
      · cases e
    · exact hmemory _ _ h e
  · split at e
    · cases e
    · cases e
      exact .setStageQueue h

theorem State.canonical.deliver (h : s.canonical) {die entry k v} (e : deliver s die entry k v = some s') :
    s'.canonical := by
  unfold Machine.deliver at e
  extract_lets c n note _ _ w at e
  split at e
  · split at e
    · split at e
      · cases e
        exact .failCommand h
      · rename_i a s₁ eRead
        have h₁ : s₁.canonical := by
          split at eRead
          · cases eRead
            exact h
          · exact .engineRead h eRead
        extract_lets _ s₂ at e
        have h₂ : s₂.canonical := .updCmd (.updCmd h₁)
        split at e
        · split at e
          · cases e
            exact .countWrite (.engineWrite h₂ ‹_›)
          · cases e
            exact .failCommand h₂
        · exact Option.some.inj e ▸ h₂
    · have hw : ∀ s', w = .ok s' → s'.canonical := by
        intro s' e
        unfold w at e
        split at e
        · exact .engineWrite h e
        · exact .engineWrite h e
      clear_value w
      split at e
      · cases e
        exact .failCommand h
      · split at e
        · cases e
        · split at e
          · cases e
            exact .failCommand h
          · have h₁ := hw _ rfl
            cases e
            exact .ite (.updContext (.countWrite (.updCmd h₁))) (.countWrite (.updCmd h₁))
  · split at e
    · cases e
    · cases e
      exact .updCmd (.updCmd h)
  · split at e
    · cases e
    · cases e
      exact .updCmd (.updCmd h)

theorem State.canonical.elementMove (h : s.canonical) {die entry free} (e : elementMove s die entry free = some s') :
    s'.canonical := by
  unfold Machine.elementMove at e
  extract_lets at e
  split at e
  · cases e
  split at e
  · cases e
  split at e
  · cases e
  split at e
  · cases e
  · cases e
    exact .failCommand h
  · exact .deliver (.sourceOf h ‹_›) e

theorem State.canonical.engineElement (h : s.canonical) {die entry} : (engineElement s die entry).canonical := by
  unfold Machine.engineElement
  split
  · exact .elementMove h ‹_›
  · exact h

theorem State.canonical.rowComplete (h : s.canonical) {die entry} : (rowComplete s die entry).canonical :=
  .updCmd h

theorem State.canonical.recordCompletion (h : s.canonical) {u x} : (recordCompletion s u x).canonical :=
  .updStrand h

theorem State.canonical.commandEnd (h : s.canonical) {die entry} : (commandEnd s die entry).canonical := by
  unfold Machine.commandEnd
  extract_lets _ _ _ _ _ s₂ s₃
  have h₂ : s₂.canonical := .ite (.setStageQueue (.updCmd h)) (.updCmd h)
  have h₃ : s₃.canonical := .ite (.dissolve h₂) h₂
  exact .ite h (.dropHold (.replayDone (.engineRec (.ite (.recordCompletion h₃) h₃))))

theorem State.canonical.allocStrip (h : s.canonical) {g} : (allocStrip s g).2.canonical :=
  .foldlSnd h fun _ _ h => .updQueue h

theorem State.canonical.giveStrip (h : s.canonical) {g slots bs} : (giveStrip s g slots bs).canonical :=
  .foldl (.foldl h fun _ _ h => .updStrand h) fun _ _ h => .post h

theorem State.canonical.gangStripGrant (h : s.canonical) {ctx die port} :
    (gangStripGrant s ctx die port).canonical := by
  refine .ite h ?_
  split
  · extract_lets
    refine .ite (.failCommand h) ?_
    split
    extract_lets s₁
    have h₁ : s₁.canonical := by
      refine .giveStrip (.ofTriple ?_ ‹_›)
      split
      · exact h
      · split
        exact .ofPair (.allocStrip h) ‹_›
    exact .updCmd (.updGang h₁)
  · exact h

theorem State.canonical.blockAnnounce (h : s.canonical) {launch src dst} :
    (blockAnnounce s launch src dst).canonical := by
  unfold Machine.blockAnnounce
  extract_lets
  split
  · exact h
  · exact .blockRec (.updCmd (.setStageQueue h))

theorem State.canonical.receiverRec (h : s.canonical) {k what bytes seq} :
    (receiverRec s k what bytes seq).canonical := by
  unfold Machine.receiverRec
  split
  · exact .blockRec h
  · exact h

theorem State.canonical.grantSlots (h : s.canonical) {k len} : (grantSlots s k len).canonical := by
  unfold Machine.grantSlots
  split
  · exact h
  · extract_lets
    refine .ite ?_ h
    split
    · exact h
    · refine .foldl h fun _ _ h => ?_
      split
      exact .updGang (.ofPair (.allocStrip h) ‹_›)

theorem State.canonical.blockGrant (h : s.canonical) {launch src dst} : (blockGrant s launch src dst).canonical := by
  unfold Machine.blockGrant
  extract_lets
  refine .ite h ?_
  split
  · exact h
  · exact .receiverRec (.setStageQueue (.grantSlots h))

theorem State.canonical.blockPull (h : s.canonical) {launch src dst} : (blockPull s launch src dst).canonical := by
  unfold Machine.blockPull
  extract_lets
  split
  · exact h
  · exact .setStageQueue (.receiverRec h)

theorem State.canonical.interruptEntry (h : s.canonical) {u} : (interruptEntry s u).canonical := by
  unfold Machine.interruptEntry
  extract_lets
  split
  · exact h
  · exact .ite h (.selfInvalidate (.updStrand (.wake h)))

theorem M.Keeps.uiretOp : M.Keeps uiretOp :=
  .bind .me fun _ => .ite .pure (.ite .trapBind (.bind .updMe fun _ => .pure))

theorem M.Keeps.uienOp {d a} : M.Keeps (uienOp d a) :=
  .bind .readReg fun _ => .bind .me fun _ => .bind .updMe fun _ => .bind .writeReg fun _ => .pure

/-! Shootdowns and the coherence events of the homes. -/

theorem State.canonical.startShootdown (h : s.canonical) {die all global ctx va} :
    (startShootdown s die all global ctx va).2.canonical :=
  .pair (.updDie (.foldl h fun _ _ h => .updDie h))

theorem State.canonical.shootWindows (h : s.canonical) {x u} : (shootWindows s x u).canonical :=
  .foldl h fun _ _ h => .foldl h fun _ _ h => .ite (.updStrand (.writeBackWindow h)) h

theorem State.canonical.shootdownRequest (h : s.canonical) {die seq agent} :
    (shootdownRequest s die seq agent).canonical := by
  unfold Machine.shootdownRequest
  split
  · exact h
  · exact .ite h (.updDie (.ite (.updCore (.foldl h fun _ _ h => .shootWindows h)) (.ite (.updDie h) h)))

theorem State.canonical.uncountGone (h : s.canonical) {x} : (uncountGone s x).canonical :=
  .foldl h fun _ _ h => .uncount h

theorem State.canonical.shootdownComplete (h : s.canonical) {die seq} : (shootdownComplete s die seq).canonical :=
  .foldl (.updDie h) fun _ _ h => .uncountGone h

theorem State.canonical.homeServes (h : s.canonical) {agent line} : (homeServes s agent line).canonical :=
  .nextRequest (.touchLine h)

theorem State.canonical.placeGuest (h : s.canonical) {die line c} : (placeGuest s die line c).canonical :=
  .fitSlice (.setGuest h)

theorem State.canonical.homeReadEvent (h : s.canonical) {agent line} : (homeReadEvent s agent line).canonical := by
  refine .ite h (.ite ?_ ?_)
  · extract_lets s₁
    have h₁ : s₁.canonical := .fitGuest (.coreRead (.homeServes h))
    exact .ite h₁ (.placeCopy h₁)
  · extract_lets s₂
    have h₂ : s₂.canonical := .serveRead (.homeServes h)
    exact .ite (.ite h₂ (.placeGuest h₂)) (.ite (.fields h₂) h₂)

theorem State.canonical.homeOwnEvent (h : s.canonical) {agent line} : (homeOwnEvent s agent line).canonical := by
  refine .ite h (.ite ?_ ?_)
  · extract_lets s₁
    have h₁ : s₁.canonical := .fitGuest (.coreOwn (.homeServes h))
    refine .ite h₁ ?_
    split
    · exact .setCopy h₁
    · exact .placeCopy h₁
  · extract_lets _ s₂
    have h₂ : s₂.canonical := .serveOwn (.homeServes h)
    refine .ite ?_ (.ite (.fields h₂) h₂)
    split
    · exact .setGuest h₂
    · exact .placeGuest h₂

theorem State.canonical.hostWriteBack (h : s.canonical) {agent line} : (hostWriteBack s agent line).canonical :=
  .ite (.nextRequest (.serveWriteBack (.fields h))) h

theorem State.canonical.homeWriteBack (h : s.canonical) {agent line seq} :
    (homeWriteBack s agent line seq).canonical := by
  unfold Machine.homeWriteBack
  split
  · exact .hostWriteBack h
  · exact .serveWriteBack (.fields h)

theorem State.canonical.cleanCopyDrop (h : s.canonical) {agent line} : (cleanCopyDrop s agent line).canonical :=
  .ite h (.ite (.evictCopy h) (.ite (.serveDrop (.setGuest h)) (.serveDrop (.fields h))))

theorem State.canonical.invalidatingSnoop (h : s.canonical) {agent line} : (invalidatingSnoop s agent line).canonical :=
  .updLine (.takeBack h)

theorem State.canonical.forwardedRead (h : s.canonical) {agent line} : (forwardedRead s agent line).canonical :=
  .ite (.updLine (.takeBack h)) h

theorem State.canonical.goneResponse (h : s.canonical) {agent line seq} : (goneResponse s agent line seq).canonical :=
  .homeWriteBack h

/-! The PCL instructions and the migration of parcels. -/

theorem State.canonical.parcelWalk (h : s.canonical) {va} : (parcelWalk s va).canonical := by
  unfold Machine.parcelWalk
  split
  · exact .countWalk h
  · exact h

theorem State.canonical.requestMigration (h : s.canonical) {l ctx va tier firmware} :
    (requestMigration s l ctx va tier firmware).2.canonical := by
  unfold Machine.requestMigration
  extract_lets
  split
  · exact h
  · split
    · exact h
    · exact .updDie (.updParcel h)

theorem M.Keeps.requestOp {d a tier} : M.Keeps (requestOp d a tier) := by
  refine .bind .readReg fun _ => .getBind fun _ h => ?_
  extract_lets
  split
  · exact .bind .writeReg fun _ => .pure
  · split
    exact .bind (.set (.ofPair (.requestMigration (.parcelWalk h)) ‹_›)) fun _ => .bind .writeReg fun _ => .pure

theorem M.Keeps.delegated {word} : M.Keeps (delegated word) :=
  .getBind fun _ _ => .ite .trap .pure

theorem M.Keeps.phintOp {a c} : M.Keeps (phintOp a c) := by
  refine .bind .readReg fun _ => .getBind fun _ h => .bind (.set (.parcelWalk h)) fun _ => ?_
  extract_lets
  split
  · exact .pure
  · exact .ite (.bind (.modify fun _ h => .updParcel h) fun _ => .pure) .pure

theorem M.Keeps.plogqOp {d a} : M.Keeps (plogqOp d a) :=
  .bind .readReg fun _ => .getBind fun _ h => .bind (.set (.parcelWalk h)) fun _ => .bind .writeReg fun _ => .pure

theorem M.Keeps.pnqpopOp {word d} : M.Keeps (pnqpopOp word d) := by
  refine .bind .delegated fun _ => .bind .vecReady fun _ => .getBind fun _ h => ?_
  extract_lets
  split
  · refine .ite (.bind .updMe (fun _ => .pure)) ?_
    split
    · exact .ite (.bind .updMe fun _ => .pure) (.bind (.set (.naingStore h ‹_›)) fun _ => .bind .updMe fun _ => .pure)
    · exact .bind .updMe fun _ => .pure
  · exact .bind .updMe fun _ => .pure

theorem State.canonical.writeEntry (h : s.canonical) {l f} : (writeEntry s l f).canonical :=
  .homeStore (.nextRequest h)

theorem M.Keeps.pkeepOp {word d a b} : M.Keeps (pkeepOp word d a b) := by
  refine .bind .delegated fun _ => .bind .readReg fun _ => .bind .readReg fun _ => ?_
  extract_lets
  refine .getBind fun _ h => ?_
  split
  · exact .bind .writeReg fun _ => .pure
  · extract_lets
    refine .ite (.bind (.set (.parcelWalk h)) (fun _ => .bind .writeReg (fun _ => .pure))) ?_
    split
    exact .bind (.set (.ofPair (.startShootdown (.writeEntry (.updContext (.parcelWalk h)))) ‹_›)) fun _ => .throw

theorem State.canonical.parcelMigrationStart (h : s.canonical) {die} : (parcelMigrationStart s die).canonical := by
  unfold Machine.parcelMigrationStart
  extract_lets
  refine .ite h ?_
  split
  · exact h
  · extract_lets
    split
    · extract_lets
      split
      exact .updDie (.ofPair (.startShootdown (.writeEntry (.updParcel (.updDie h)))) ‹_›)
    · exact .notify (.updDie (.updParcel h))

theorem State.canonical.copyFrame (h : s.canonical) {f g} : (copyFrame s f g).canonical :=
  .foldl (.memStore (.countRequests h)) fun _ _ h => .updLine h

theorem State.canonical.applyLog (h : s.canonical) {g log} : (applyLog s g log).canonical :=
  .foldl h fun _ _ h => .memStore h

theorem State.canonical.deliverHeld (h : s.canonical) {e bs} : (deliverHeld s e bs).canonical := by
  unfold Machine.deliverHeld
  split
  · exact h
  · extract_lets _ _ _ _ s₁ s₂ _ s₄
    have h₁ : s₁.canonical := by
      unfold s₁
      split
      · split
        · exact .updQueue h
        · exact h
      · exact .updStrand h
    have h₂ : s₂.canonical := by
      unfold s₂
      split
      · exact .selfInvalidate h₁
      · exact h₁
    have h₄ : s₄.canonical := .ite (.updStrand h₂) (.countIssued (.updStrand h₂))
    exact .ite h (.ite (.wake h₄) (.updStrand h₄))

theorem State.canonical.performAll (h : s.canonical) {g held log ctx va} :
    (performAll s g held log ctx va).canonical := by
  unfold Machine.performAll
  extract_lets s₁
  have h₁ : s₁.canonical := by
    refine .foldl h fun _ _ h => ?_
    extract_lets
    split
    · exact .deliverHeld (.performHeld (.fields h))
    · exact .performHeld (.fields h)
  exact .fields h₁

theorem State.canonical.publishFrame (h : s.canonical) {die m} : (publishFrame s die m).canonical := by
  unfold Machine.publishFrame
  extract_lets _ _ s₁ _ _ _ _ _ s₃ _ _ _ _ _ _ s₈
  have h₁ : s₁.canonical := .foldl h fun _ _ h => .recallAll h
  have h₃ : s₃.canonical := .ite (.applyLog (.copyFrame h₁)) (.copyFrame h₁)
  have h₈ : s₈.canonical := by
    unfold s₈
    split
    · exact .updParcel (.updParcel (.updDie (.updDie h₃)))
    · exact .writeEntry (.updParcel (.updParcel (.updDie (.updDie h₃))))
  split
  exact .updDie (.ofPair (.startShootdown (.ite (.performAll h₈) h₈)) ‹_›)

theorem State.canonical.finishMigration (h : s.canonical) {die m} : (finishMigration s die m).canonical :=
  .notify (.performAll (.updDie (.updParcel (.leaveCounter (.updParcel h)))))

theorem State.canonical.parcelMigrationComplete (h : s.canonical) {die frame} :
    (parcelMigrationComplete s die frame).canonical := by
  unfold Machine.parcelMigrationComplete
  split
  · exact h
  · exact .ite h (.ite (.publishFrame h) (.finishMigration h))

theorem State.canonical.naingMigration (h : s.canonical) {ctx va tier} : (naingMigration s ctx va tier).canonical := by
  unfold Machine.naingMigration
  split
  · exact h
  · split
    exact .ite (.notify (.ofPair (.requestMigration h) ‹_›)) (.ofPair (.requestMigration h) ‹_›)

theorem State.canonical.supplyFrame (h : s.canonical) {die frame} : (supplyFrame s die frame).canonical :=
  .ite h (.updDie h)

theorem State.canonical.freeCounters (h : s.canonical) {die count} : (freeCounters s die count).canonical :=
  .updDie (.foldl h fun _ _ h => .updParcel h)

theorem State.canonical.pendingAppend (h : s.canonical) {pa op wd v} : (pendingAppend s pa op wd v).canonical :=
  .ite (.logAppend h) h

/-! The device's control operations. -/

theorem State.canonical.loadKey (h : s.canonical) : (loadKey s).canonical :=
  .ite h (.updModule h)

theorem State.canonical.eraseKey (h : s.canonical) : (eraseKey s).canonical :=
  .updModule h

theorem State.canonical.ctxPut (h : s.canonical) {ctx va bs} : (ctxPut s ctx va bs).canonical := by
  unfold Machine.ctxPut
  split
  · exact .ctxStore h ‹_›
  · exact h

theorem State.canonical.enableQueue (h : s.canonical) {d} : (enableQueue s d).canonical := by
  unfold Machine.enableQueue
  split
  · exact h
  · exact .ctxPut h

theorem State.canonical.commitQueue (h : s.canonical) {v} : (commitQueue s v).canonical := by
  unfold Machine.commitQueue
  extract_lets
  split
  · exact .fields (.updModule h)
  · exact .ite (.enableQueue (.fields (.updModule h))) (.fields (.updModule h))

theorem State.canonical.setPowerCap (h : s.canonical) {v} : (setPowerCap s v).canonical :=
  .updModule h

theorem State.canonical.setReplayMode (h : s.canonical) {v} : (setReplayMode s v).canonical :=
  .updContext h

/-! Control registers. -/

theorem State.canonical.updTrace (h : s.canonical) {f} : (State.updTrace s f).canonical :=
  .updContext h

theorem State.canonical.setSaveBase (h : s.canonical) {v} : (setSaveBase s v).canonical :=
  .foldl (.updMe h) fun _ _ h => .updStrand h

theorem State.canonical.csrWrite (h : s.canonical) {n v c} : (csrWrite s n v c).canonical := by
  refine .ite (.updMe h) (.ite (.updMe h) (.ite (.updMe h) (.ite (.updMe h) (.ite (.commitQueue h) (.ite
    (.updModule h)
    (.ite (.updModule h) ?_))))))
  split
  · exact .updMe h
  · exact .updMe h
  · exact .updMe h
  · exact .updMe h
  · exact .updMe h
  · exact .updMe h
  · exact .updMe h
  · exact .updMe h
  · exact .updMe h
  · exact .updMe h
  · exact .updMe h
  · exact .updMe h
  · exact .updMe h
  · exact .updMe h
  · exact .updMe h
  · exact .updMe h
  · exact .setSaveBase h
  · exact .updContext (.updMe h)
  · exact .updModule h
  · exact .updTrace h
  · exact .updTrace h
  · exact .updTrace h
  · exact .updTrace h
  · exact .updTrace h
  · exact .updTrace h
  · exact .updTrace h
  · exact .updTrace h
  · exact .updTrace h
  · exact .setReplayMode h
  · exact .updModule h
  · exact .setPowerCap h
  · exact .updModule h
  · exact .ite (.loadKey h) (.ite (.eraseKey h) h)
  · exact h

theorem M.Keeps.csrOp {d a n writes value clear} : M.Keeps (csrOp d a n writes value clear) := by
  refine .getBind fun _ _ => ?_
  extract_lets _ _ _ _ jp₂ jp₃
  have hjp₂ : ∀ r, (jp₂ r).Keeps := fun _ => .ite (.bind (.modify fun _ h => .csrWrite h) fun _ => .writeReg) .writeReg
  have hjp₃ : ∀ r, (jp₃ r).Keeps := fun _ => .ite (.bind (.modify fun _ h => .updModule h) fun _ => hjp₂ ()) (hjp₂ ())
  exact .ite .throwBind (.ite (.bind (.modify fun _ h => .updModule h) fun _ => hjp₃ ()) (hjp₃ ()))

/-! Tile accumulators. -/

theorem M.Keeps.raiseTile {fl} : M.Keeps (raiseTile fl) :=
  .updMe

theorem M.Keeps.enabledAcc {n} : M.Keeps (enabledAcc n) :=
  .bind .me fun _ => .ite .pure .trap

theorem M.Keeps.tileIssued {pipe} : M.Keeps (tileIssued pipe) :=
  .bind (.modify fun _ h => .park (.pipeRecords h)) fun _ => .bind .updMe fun _ => .pure

theorem M.Keeps.tileDone : M.Keeps tileDone :=
  .bind .updMe fun _ => .pure

theorem M.Keeps.tenOp {d c b} : M.Keeps (tenOp d c b) :=
  .bind .readReg fun _ =>
    .ite .trapBind (.bind .updMe fun _ => .getBind fun _ _ =>
      .ite (.bind .writeReg fun _ => .tileDone) (.bind .updMe fun _ => .bind .writeReg fun _ => .tileDone))

theorem M.Keeps.tdisOp {c} : M.Keeps (tdisOp c) :=
  .bind .updMe fun _ => .tileDone

theorem M.Keeps.tzeroOp {c} : M.Keeps (tzeroOp c) :=
  .bind .enabledAcc fun _ => .bind .updMe fun _ => .tileIssued

theorem M.Keeps.tpredOp {d c b} : M.Keeps (tpredOp d c b) :=
  .bind .enabledAcc fun _ => .bind .readReg fun _ => .bind .readReg fun _ => .bind .updMe fun _ => .tileDone

theorem M.Keeps.tsclOp {c a} : M.Keeps (tsclOp c a) :=
  .bind .enabledAcc fun _ => .ite .trapBind (.bind .readV fun _ => .bind .updMe fun _ => .tileDone)

theorem M.Keeps.tstatOp {d c sel} : M.Keeps (tstatOp d c sel) :=
  .bind .me fun _ => .bind .writeReg fun _ => .ite (.bind .updMe fun _ => .tileDone) .tileDone

theorem M.Keeps.tmovOp {d c b sl} : M.Keeps (tmovOp d c b sl) :=
  .bind .enabledAcc fun _ => .bind .readReg fun _ => .bind .writeV fun _ => .tileIssued

theorem M.Keeps.tsetOp {c a b sl} : M.Keeps (tsetOp c a b sl) :=
  .bind .enabledAcc fun _ => .bind .readReg fun _ => .bind .readV fun _ => .bind .updMe fun _ => .tileIssued

theorem M.Keeps.tfoldOp {c e} : M.Keeps (tfoldOp c e) :=
  .bind .enabledAcc fun _ =>
    .ite .trapBind (.bind .me fun _ =>
      .ite .trapBind (.bind .me fun _ => .bind .updMe fun _ => .bind .raiseTile fun _ => .tileIssued))

theorem M.Keeps.tdrainOp {d c b t} : M.Keeps (tdrainOp d c b t) := by
  refine .bind .enabledAcc fun _ => ?_
  extract_lets jp
  have hjp : ∀ r, (jp r).Keeps := by
    intro _
    refine .bind .readReg fun _ => ?_
    extract_lets
    split
    exact .bind .writeV fun _ => .bind .raiseTile fun _ => .tileIssued
  exact .ite .trapBind (hjp ())

/-! The TOP family. -/

theorem M.Keeps.topSource {f j} : M.Keeps (topSource f j) :=
  .ite (.bind .me fun _ => .pure) (.bind .popQueue fun _ => .pure)

theorem M.Keeps.topOpOperandA {o j} : M.Keeps (TopOp.operandA o j) :=
  .ite .topSource (.bind .me fun _ => .ite .pure .pure)

theorem M.Keeps.topOpStep {o j} : M.Keeps (TopOp.step o j) := by
  refine .bind .topOpOperandA fun _ => .bind .topSource fun _ => .bind (.modify (fun _ h => .pipeBegin h)) fun _ =>
    .bind .me fun _ => ?_
  split
  exact .bind .updMe fun _ => .raiseTile

theorem M.Keeps.topFinish : M.Keeps topFinish :=
  .bind .updMe fun _ => .tileIssued

theorem M.Keeps.topOpEnter {o j} : M.Keeps (TopOp.enter o j) := by
  refine .bind (.attempt .topOpStep) fun _ => ?_
  split
  · exact .ite (.bind .updMe fun _ => .throw) .topFinish
  · exact .bind (.modify fun _ h => .pipeStop h) fun _ => .throw
  · exact .bind .updMe fun _ => .throw

theorem M.Keeps.topOpCheck {o j} : M.Keeps (TopOp.check o j) :=
  .bind .enabledAcc fun _ => .bind .me fun _ => .ite .trapBind (.ite .trapBind (.ite .trap .pure))

theorem M.Keeps.topOpReady {o} : M.Keeps (TopOp.ready o) := by
  refine .forM fun _ => ?_
  extract_lets jp jp₂
  have hjp : ∀ r, (jp r).Keeps := fun _ => .ite .vecReady .pure
  have hjp₂ : ∀ r, (jp₂ r).Keeps := fun _ => .ite (.bind .vecReady fun _ => .bind .vecReady fun _ => hjp ()) (hjp ())
  exact .ite (.bind .vecReady fun _ => hjp₂ ()) (hjp₂ ())

theorem M.Keeps.topOp {o} : M.Keeps (topOp o) := by
  refine .bind .me fun _ => ?_
  extract_lets _ jp
  have hjp : ∀ r, (jp r).Keeps := fun _ => .bind .updMe fun _ => .topOpEnter
  exact .bind .topOpCheck fun _ => .bind .topOpReady fun _ => .ite (.bind .updMe fun _ => hjp ()) (hjp ())

/-! The tile fetch unit. -/

theorem M.Keeps.fetchSource {va n} : M.Keeps (fetchSource va n) := by
  refine .bind .checkAligned fun _ => .bind .resolve fun _ => ?_
  split
  · exact .pure
  · exact .getBind fun _ _ => .bind .windowLeaf fun _ => .pure
  · exact .pure

theorem M.Keeps.fetchSources {f n x} : M.Keeps (Fetch.sources f n x) :=
  .bind (.mapM fun _ => .bind .fetchSource fun _ => .pure) fun _ =>
    .bind (.forM fun _ => .bind .checkChannel fun _ => .getBind fun _ _ => .ite .throw .pure) fun _ => .pure

theorem M.Keeps.fetchWatch {f x} : M.Keeps (Fetch.watch f x) :=
  .forM fun _ => .checkWatch

theorem M.Keeps.fetchSlot {f q n x check} : M.Keeps (Fetch.slot f q n x check) := by
  refine .bind .fetchSources fun _ => ?_
  extract_lets jp
  have hjp : ∀ r, (jp r).Keeps := fun _ => .bind .allocSlot fun _ => .modify fun _ h => .foldl h fun _ _ h => .post h
  exact .ite (.bind .fetchWatch fun _ => hjp ()) (hjp ())

theorem State.canonical.slotTaken (h : s.canonical) {j n ahead} : (slotTaken s j n ahead).canonical :=
  .pipeBegin (.updMe h)

theorem M.Keeps.fetchSlots {f : Fetch} {q n check i l} : M.Keeps (f.slots q n check i l) := by
  induction l generalizing i with
  | nil => exact .updMe
  | cons x l ih =>
    unfold Fetch.slots
    refine .bind (.attempt .fetchSlot) fun r => ?_
    split
    · exact .bind (.modify fun _ h => .slotTaken h) fun _ => ih
    · exact .bind (.modify fun _ h => .pipeStop h) fun _ => .throw
    · exact .throw
    · exact .throw

theorem M.Keeps.nextFetch : M.Keeps nextFetch :=
  .getBind fun _ h => .bind (.set (.updCore h)) fun _ => .pure

theorem M.Keeps.tfetchOp {d a b} : M.Keeps (tfetchOp d a b) := by
  refine .bind .readReg fun _ => .bind .readReg fun _ => ?_
  split
  · exact .trap
  · refine .bind .streamReady fun _ => .bind .me fun _ => ?_
    extract_lets _ jp₂
    have hjp₂ : ∀ r, (jp₂ r).Keeps := by
      intro _
      unfold jp₂
      extract_lets jp
      have hjp : ∀ r, (jp r).Keeps := fun _ =>
        .bind (.modify fun _ h => .ite (.pipeOpen h) (.pipeRecords h)) fun _ => .pure
      exact .ite
        (.bind (.mapM fun _ => .bind .fetchSources fun _ => .pure) fun _ => .bind (.forM fun _ => .fetchWatch) fun _ =>
          .bind .fetchSlots fun _ => hjp ())
        (.bind .fetchSlots fun _ => hjp ())
    exact .ite (.bind .pure fun _ => hjp₂ _) (.bind .nextFetch fun _ => hjp₂ _)

theorem M.Keeps.fetchWindow {l u i j o n} : M.Keeps (fetchWindow l u i j o n) := by
  refine .getBind fun _ _ => ?_
  extract_lets _ jp
  have hjp : ∀ r, (jp r).Keeps := fun _ => .getBind fun _ _ => .pure
  exact .ite (.ite .pure (.bind .fillFrom fun _ => hjp ())) (hjp ())

theorem M.Keeps.fetchGroup {x n pin} : M.Keeps (fetchGroup x n pin) := by
  refine .getBind fun _ _ => ?_
  extract_lets
  split
  · split
    · exact .fetchWindow
    · exact .pure
  · split
    · exact .fetchWindow
    · exact .memRead

theorem State.canonical.pinLine (h : s.canonical) {u x} : (pinLine s u x).canonical :=
  .ite h (.updCore h)

theorem State.canonical.groupFill (h : s.canonical) {u q slot gen g n x} :
    (groupFill s u q slot gen g n x).canonical := by
  unfold Machine.groupFill
  split
  · exact .pinLine h
  · split
    · exact h
    · exact .pinLine (.updQueue (.runAs .fetchGroup h ‹_›))

theorem State.canonical.tfetchFill (h : s.canonical) {u q slot gen g n x} :
    (tfetchFill s u q slot gen g n x).canonical :=
  .ite (.groupFill h) (.pipeClose (.groupFill h))

theorem State.canonical.matrixStep (h : s.canonical) {u} : (matrixStep s u).canonical := by
  unfold Machine.matrixStep
  split
  · exact h
  · refine .ite h ?_
    split
    · exact h
    · refine .ite (.runAs .topOpStep h ‹_›) ?_
      split
      · exact .ite
          (.runAs .topFinish (.runAs .topOpStep h ‹_›) ‹_›)
          (.countIssued (.runAs .topFinish (.runAs .topOpStep h ‹_›) ‹_›))
      · exact .runAs .topOpStep h ‹_›

theorem State.canonical.tileComplete (h : s.canonical) {u} : (tileComplete s u).canonical :=
  .ite (.wake h) h

/-! Load tickets. -/

theorem State.canonical.setBooth (h : s.canonical) {slice entry b} : (State.setBooth s slice entry b).canonical :=
  .updDie h

theorem State.canonical.ticketBack (h : s.canonical) {issuer} : (ticketBack s issuer).canonical :=
  .updStrand h

theorem State.canonical.capture (h : s.canonical) {b} : (capture s b).2.2.canonical := by
  unfold Machine.capture
  extract_lets _ _ _ _ s₁ s₂ _ s₄
  have h₁ : s₁.canonical := .foldl h fun _ _ h => .takeBack h
  have h₂ : s₂.canonical := .ite h₁ (.updLine h₁)
  have h₄ : s₄.canonical := .ite (.touchRead h₂) (.homeRecords (.touchRead h₂))
  split
  · exact .nextRequest h
  · exact .nextRequest (.ite (.dropUntracked h₄) h₄)

theorem State.canonical.boothFill (h : s.canonical) {slice entry} : (boothFill s slice entry).canonical := by
  unfold Machine.boothFill
  extract_lets
  refine .ite h (.ite ?_ ?_)
  · split
    exact .setBooth (.ofTriple (.capture (.dropHold h)) ‹_›)
  · split
    exact .setBooth (.replayDone (.ofTriple (.capture (.dropHold h)) ‹_›))

theorem State.canonical.endRead (h : s.canonical) {slice entry} : (endRead s slice entry).canonical :=
  .ite (.fields (.boothFill h)) h

theorem State.canonical.allocateEntry (h : s.canonical) {slice entry b} : (allocateEntry s slice entry b).2.canonical :=
  .post (.updStrand (.setBooth (.endRead h)))

theorem M.Keeps.ticketRequest {va n line z st} : M.Keeps (ticketRequest va n line z st) :=
  .ite .trapBind (.bind .checkAligned fun _ => .getBind fun _ _ => .bind .leafFor fun _ => .bind .streamReady fun _ =>
    .bind .checkWatch fun _ => .getBind fun _ h =>
    .ite .throwBind (.bind (.set (.foldl h fun _ _ h => .writeBackWindow h)) fun _ => .pure))

theorem State.canonical.boothWaitAllocate (h : s.canonical) {slice} : (boothWaitAllocate s slice).canonical := by
  unfold Machine.boothWaitAllocate
  split
  · extract_lets
    split
    · exact .takeTrap (.wake (.updStrand (.updDie h)))
    · refine .ite (.wake (.updDie h)) ?_
      split
      extract_lets s₂
      have h₂ : s₂.canonical := .wake (.updStrand (.ofPair (.allocateEntry (.updDie h)) ‹_›))
      exact .ite h₂ (.countIssued h₂)
  · exact h

theorem State.canonical.serveBooth (h : s.canonical) {slice} : (serveBooth s slice).canonical :=
  .foldl h fun _ _ h => .boothWaitAllocate h

theorem M.Keeps.requestEntry {d b wait} : M.Keeps (requestEntry d b wait) := by
  refine .getBind fun _ h => ?_
  extract_lets
  refine .ite (.ite (.bind .updMe (fun _ => .throwBind)) (.bind .writeReg (fun _ => .pure))) ?_
  split
  · split
    exact .bind (.set (.ofPair (.allocateEntry (.serveBooth h)) ‹_›)) fun _ => .bind .updMe fun _ =>
      .bind .writeReg fun _ => .pure
  · exact .bind (.set (.serveBooth h)) fun _ =>
      .ite
        (.bind (.modify fun _ h => .updDie h) fun _ => .bind .updMe fun _ => .throwBind)
        (.bind .writeReg fun _ => .pure)

theorem M.Keeps.tkldOp {d a n line z st wait} : M.Keeps (tkldOp d a n line z st wait) := by
  refine .bind .me fun _ => ?_
  split
  · refine .getBind fun _ _ => ?_
    split
    · exact .bind .updMe fun _ => .throw
    · exact .requestEntry
  · exact .bind .readReg fun _ => .bind .ticketRequest fun _ => .requestEntry

theorem State.canonical.ticketExpiry (h : s.canonical) {slice entry} : (ticketExpiry s slice entry).canonical :=
  .ite (.ticketBack (.updContext (.setBooth h))) h

theorem State.canonical.redeemEntry (h : s.canonical) {slice entry} : (redeemEntry s slice entry).canonical :=
  .ticketBack (.setBooth h)

theorem State.canonical.releaseLanding (h : s.canonical) {core u} : (releaseLanding s core u).canonical :=
  .updCore h

theorem State.canonical.unclaim (h : s.canonical) {slice entry core} : (unclaim s slice entry core).canonical :=
  .releaseLanding (.setBooth h)

theorem M.Keeps.claimTicket {tk kind d} : M.Keeps (claimTicket tk kind d) := by
  refine .bind (.modify (fun _ h => .ticketExpiry h)) fun _ => .getBind fun _ h => ?_
  extract_lets _ _ _ _ _ _ s₂
  have h₂ : s₂.canonical := .ite h (.updCore (.setBooth h))
  split
  · exact .trap
  · refine .ite
      (.ite
        (.bind
          (.set (.redeemEntry h))
          (fun _ => .ite .throwBind (.bind
            .updMe
            (fun _ => .ite (.bind (.modify (fun _ h => .pipeRecords h)) (fun _ => .pure)) .pure))))
        (.bind (.set (.updCore (.setBooth h))) (fun _ => .throw)))
      (.bind (.set h₂) fun _ => .bind (.attempt .allocSlot) fun _ => ?_)
    split
    · exact .bind (.modify fun _ h => .setBooth h) fun _ => .pure
    · exact .throw
    · exact .bind (.set (.unclaim h₂)) fun _ => .throw
    · exact .throw

theorem M.Keeps.fencedTicket {tk} : M.Keeps (fencedTicket tk) :=
  .getBind fun _ h => .ite (.ite (.bind (.set (.unclaim h)) fun _ => .throw) .throw) .pure

theorem M.Keeps.redeemOp {a kind d} : M.Keeps (redeemOp a kind d) := by
  refine .bind .readReg fun _ => .getBind fun _ h => ?_
  extract_lets
  split
  · exact .trap
  · exact .bind .fencedTicket fun _ => .ite (.bind (.set (.updCore h)) fun _ => .throwBind) .claimTicket

theorem State.canonical.boothClaim (h : s.canonical) {u} : (boothClaim s u).canonical := by
  unfold Machine.boothClaim
  split
  · refine .ite h ?_
    extract_lets s₁
    have h₁ : s₁.canonical := .updCore (.wake h)
    split
    · extract_lets s₂
      have h₂ : s₂.canonical := .updStrand (.ofOk (.bind .fencedTicket fun _ => .claimTicket) (.fields h₁) ‹_›)
      exact .ite h₂ (.countIssued h₂)
    · exact .takeTrap h₁
    · exact .takeTrap (.ofError (.bind .fencedTicket fun _ => .claimTicket) (.fields h₁) ‹_›)
    · exact .park h₁
    · exact .park (.ofError (.bind .fencedTicket fun _ => .claimTicket) (.fields h₁) ‹_›)
  · exact h

theorem State.canonical.ticketDelivery (h : s.canonical) {u} : (ticketDelivery s u).canonical := by
  unfold Machine.ticketDelivery
  split
  · exact h
  · extract_lets _ _ _ s₁
    have h₁ : s₁.canonical := .releaseLanding (.redeemEntry h)
    split
    · split
      · exact .updQueue h₁
      · exact h₁
    · split
      · refine .ite (.takeTrap (.wake h₁)) (.ite (.takeTrap (.wake h₁)) ?_)
        extract_lets _ s₄
        have h₄ : s₄.canonical := .ite (.pipeRecords (.updStrand (.wake h₁))) (.updStrand (.wake h₁))
        exact .ite (.updStrand h₄) (.countIssued (.updStrand h₄))
      · exact h₁

theorem State.canonical.ticketWithdrawal (h : s.canonical) {u} : (ticketWithdrawal s u).canonical := by
  unfold Machine.ticketWithdrawal
  extract_lets s₁
  have h₁ : s₁.canonical := .foldl h fun _ _ h => .unclaim h
  split
  · exact .wake h₁
  · exact h₁

theorem M.Keeps.tktestOp {d a} : M.Keeps (tktestOp d a) :=
  .bind .readReg fun _ => .getBind fun _ _ => .bind .writeReg fun _ => .pure

theorem M.Keeps.tkdropOp {d a} : M.Keeps (tkdropOp d a) := by
  refine .bind .readReg fun _ => .bind (.modify (fun _ h => .ite h (.ticketExpiry h))) fun _ => .getBind fun _ h => ?_
  extract_lets
  split
  · exact .ite
      (.bind (.set (.ticketBack (.setBooth h))) fun _ => .bind .writeReg fun _ => .pure)
      (.bind .writeReg fun _ => .pure)
  · exact .bind .writeReg fun _ => .pure

theorem State.canonical.loadOver (h : s.canonical) {u q slot gen} : (loadOver s u q slot gen).canonical :=
  .ite (.pipeClose (.pipeClose h)) (.pipeClose h)

theorem State.canonical.queueFill (h : s.canonical) {u q slot gen v poison} :
    (queueFill s u q slot gen v poison).canonical := by
  unfold Machine.queueFill
  extract_lets
  split
  · exact .updQueue (.loadOver h)
  · exact .loadOver h

/-! Carousel. -/

theorem State.canonical.keptRoom (h : s.canonical) {core tier us bytes wins} :
    (keptRoom s core tier us bytes wins).canonical := by
  refine .foldl h fun _ _ h => ?_
  extract_lets
  refine .ite ?_ h
  split
  · exact .updCore h
  · exact h

theorem State.canonical.fitKept (h : s.canonical) {core tier us} : (fitKept s core tier us).canonical :=
  .keptRoom h

theorem State.canonical.beginMove (h : s.canonical) {m core} : (beginMove s m core).canonical :=
  .foldl
    (.withdrawRequests (.migrationRec (.ite (.fitKept (.fields (.updCore h))) (.updStrand (.fitKept (.fields (.updCore
      h)))))))
    fun _ _ h => .ite h (.updStrand (.pipeStop h))

theorem State.canonical.migrationCoreFreed (h : s.canonical) {u} : (migrationCoreFreed s u).canonical := by
  unfold Machine.migrationCoreFreed
  split
  · split
    · exact .beginMove h
    · exact h
  · exact h

theorem State.canonical.migrationSearchExpiry (h : s.canonical) {u} : (migrationSearchExpiry s u).canonical := by
  unfold Machine.migrationSearchExpiry
  split
  · exact h
  · extract_lets
    refine .foldl (.fields h) fun _ _ h => ?_
    extract_lets
    refine .ite (.wake h) ?_
    split
    · exact .ite (.updStrand (.wake h)) (.countIssued (.updStrand (.wake h)))
    · exact .emulate (.wake h)

theorem State.canonical.closeWindows (h : s.canonical) {u save} : (closeWindows s u save).canonical := by
  refine .foldl h fun _ _ h => ?_
  extract_lets s₁
  have h₁ : s₁.canonical := .foldl h fun _ _ h => .writeBackWindow h
  exact .updStrand (.ite (.keepWindow h₁) h₁)

theorem State.canonical.reattachWindows (h : s.canonical) {u} : (reattachWindows s u).canonical :=
  .foldl h fun _ _ h => .ite (.updStrand (.updCore h)) h

theorem State.canonical.saveStore (h : s.canonical) {agent va bs n} (e : saveStore s agent va bs n = some s') :
    s'.canonical := by
  induction n generalizing s va bs with
  | zero =>
    unfold Machine.saveStore at e
    split at e
    · cases e
      exact h
    · cases e
  | succ n ih =>
    unfold Machine.saveStore at e
    split at e
    · cases e
      exact h
    · split at e
      · cases e
      · extract_lets at e
        split at e
        · exact ih (.homeStore (.stampKey (.countRequests h))) e
        · cases e

theorem State.canonical.parkTiles (h : s.canonical) {u target} : (parkTiles s u target).canonical := by
  unfold Machine.parkTiles
  extract_lets
  refine .ite ?_ h
  split
  · exact .updStrand (.saveStore h ‹_›)
  · exact .loseContext h

theorem State.canonical.reloadTiles (h : s.canonical) {u} : (reloadTiles s u).canonical := by
  unfold Machine.reloadTiles
  extract_lets
  split
  · exact h
  · refine .ite h ?_
    split
    · exact .loseContext h
    · exact .updStrand (.countRequests h)

theorem State.canonical.switchContext (h : s.canonical) {core ctx} : (switchContext s core ctx).canonical :=
  .ite h (.dropCopies h)

theorem State.canonical.resumeStrand (h : s.canonical) {u core slot} : (resumeStrand s u core slot).canonical :=
  .reattachWindows (.selfInvalidate (.updStrand (.switchContext h)))

theorem State.canonical.migrationCarryComplete (h : s.canonical) {u} : (migrationCarryComplete s u).canonical := by
  unfold Machine.migrationCarryComplete
  split
  · exact h
  · split
    · exact h
    · extract_lets _ _ _ s₁ _ _ _ s₅ s₇
      have h₁ : s₁.canonical := .foldl h fun _ _ h => .parkTiles (.closeWindows h)
      have h₅ : s₅.canonical := .foldl
        (.foldl (.fields (.updCore h₁)) fun _ _ h => .leaveCore (.resumeStrand h))
        fun _ _ h => .updStrand h
      have h₇ : s₇.canonical := by
        unfold s₇
        split
        · exact .foldl h₅ fun _ _ h => .ite (.ite (.updStrand h) (.countIssued (.updStrand h))) h
        · exact h₅
      exact .ite h (.ite h₁ (.foldl (.migrationRec h₇) fun _ _ h => .reloadTiles h))

theorem State.canonical.abandonMove (h : s.canonical) {u} : (abandonMove s u).canonical := by
  unfold Machine.abandonMove
  split
  · exact h
  · extract_lets
    split
    · exact .ite (.migrationRec (.updStrand (.fields h))) (.fields h)
    · exact .migrationRec (.updStrand (.updCore (.fields h)))

theorem State.canonical.creditReturn (h : s.canonical) {u} : (creditReturn s u).canonical := by
  unfold Machine.creditReturn
  extract_lets
  split
  · exact .ite (.updStrand h) h
  · exact h

theorem State.canonical.proactiveReturn (h : s.canonical) {u} : (proactiveReturn s u).canonical := by
  unfold Machine.proactiveReturn
  extract_lets
  refine .ite h ?_
  split
  · exact .beginMove h
  · exact h

theorem State.canonical.naingOrderedMove (h : s.canonical) {u classes} : (naingOrderedMove s u classes).canonical :=
  .ite h (.fields h)

/-! The SYS instructions, pre-emption and the save area. -/

theorem M.Keeps.wfiOp {d} : M.Keeps (wfiOp d) :=
  .getBind fun _ _ => .ite .throwBind (.bind (.modify fun _ h => .updModule h) fun _ => .bind .writeReg fun _ => .pure)

theorem M.Keeps.tlbinvOp {d a b} : M.Keeps (tlbinvOp d a b) := by
  refine .bind .readReg fun _ => .bind .readReg fun _ => .getBind fun _ h => ?_
  extract_lets
  split
  exact .bind (.set (.ofPair (.startShootdown h) ‹_›)) fun _ => .throw

theorem State.canonical.dropTracked (h : s.canonical) {line} : (dropTracked s line).canonical :=
  .foldl (.fields h) fun _ _ h => .ite (.coreDrop h) (.ite (.setGuest (.foldl h fun _ _ h => .coreDrop h)) h)

theorem M.Keeps.lnpurgeOp {d a} : M.Keeps (lnpurgeOp d a) :=
  .bind .readReg fun _ => .getBind fun _ h =>
    .ite (.bind .writeReg fun _ => .pure) (.ite .trapBind (.bind (.set (.memStore (.updLine (.dropTracked h)))) fun _ =>
      .bind .writeReg fun _ => .pure))

theorem State.canonical.beginPreempt (h : s.canonical) {us waiter} : (beginPreempt s us waiter).canonical :=
  .fields (.foldl (.withdrawRequests (.foldl h fun _ _ h => .abandonMove h)) fun _ _ h =>
    .ite h (.updStrand (.pipeStop h)))

theorem M.Keeps.ctxsvOp {d a} : M.Keeps (ctxsvOp d a) := by
  refine .bind .readReg fun _ => .getBind fun _ h => ?_
  split
  · exact .bind .writeReg fun _ => .pure
  · exact .ite (.bind .writeReg fun _ => .pure) (.ite
      (.bind (.set (.beginPreempt (.updMe h))) fun _ => .pure)
      (.bind (.set (.beginPreempt h)) fun _ => .throw))

theorem State.canonical.endWaiter (h : s.canonical) {w r} : (endWaiter s w r).canonical := by
  unfold Machine.endWaiter
  split
  · exact h
  · exact .ite (.updStrand (.wake h)) (.ite (.updStrand h) h)

theorem State.canonical.saveComplete (h : s.canonical) {u} : (saveComplete s u).canonical := by
  unfold Machine.saveComplete
  split
  · exact h
  split
  · exact h
  extract_lets us _ s₁ base ctx area
  have h₁ : s₁.canonical := .foldl (.fields h) fun _ _ h => .closeWindows h
  split
  · exact .endWaiter h₁
  split
  · exact .endWaiter (.loseContext h₁)
  · rename_i s₂ e
    have h₂ : s₂.canonical := by
      split at e
      · exact .saveStore h₁ e
      · cases e
    exact .endWaiter (.fields (.leaveCore (.foldl h₂ fun _ _ h => .updStrand h)))

theorem State.canonical.restoreUnit (h : s.canonical) {x core gvl base} : (restoreUnit s x core gvl base).canonical :=
  .foldl (.foldl (.fitKept (.fields h)) fun _ _ h => .updStrand (.resumeStrand h)) fun _ _ h => .reloadTiles h

theorem State.canonical.loseSaved (h : s.canonical) {base} : (loseSaved s base).canonical := by
  unfold Machine.loseSaved
  split
  · exact h
  · exact .loseContext h

theorem M.Keeps.ctxldOp {d a b} : M.Keeps (ctxldOp d a b) := by
  refine .bind .readReg fun _ => .bind .readReg fun _ => .getBind fun _ h => ?_
  extract_lets
  split
  · split
    · exact .bind .writeReg fun _ => .pure
    · exact .ite
        (.bind (.set (.restoreUnit h)) fun _ => .bind .writeReg fun _ => .pure)
        (.bind .writeReg fun _ => .pure)
  · exact .bind (.set (.loseSaved h)) fun _ => .bind .writeReg fun _ => .pure
  · exact .bind .writeReg fun _ => .pure

theorem State.canonical.resumptionMark (h : s.canonical) {u} : (resumptionMark s u).canonical :=
  .fields h

theorem M.Keeps.rettOp : M.Keeps rettOp :=
  .bind .updMe fun _ => .pure

/-! Tracing instructions, samples and element trains. -/

theorem M.Keeps.tmarkOp {a c} : M.Keeps (tmarkOp a c) :=
  .bind .readReg fun _ => .bind (.modify fun _ h => .strandRec h) fun _ => .pure

theorem M.Keeps.tcntOp {d n} : M.Keeps (tcntOp d n) :=
  .bind .me fun _ => .bind .writeReg fun _ => .pure

theorem State.canonical.traceSample (h : s.canonical) {core} : (traceSample s core).canonical := by
  refine .foldl h fun _ _ h => ?_
  extract_lets s₁
  have h₁ : s₁.canonical := by
    unfold s₁
    split
    · exact .strandRec h
    · exact h
  exact .updStrand h₁

theorem State.canonical.replayHoldExpiry (h : s.canonical) {die} : (replayHoldExpiry s die).canonical := by
  unfold Machine.replayHoldExpiry
  extract_lets
  split
  · exact .wake (.updStrand (.updDie h))
  · exact .updDie h

theorem State.canonical.trainElem (h : s.canonical) {u w e again} : (trainElem s u w e again).canonical := by
  unfold Machine.trainElem
  extract_lets _ _ _ _ _ s₂ _ _ _ _ s₄
  have h₂ : s₂.canonical := .ite (.stampKey h) (.touchWrite (.stampKey h))
  have h₄ : s₄.canonical := .homePut (.fields (.ite (.homeRecords h₂) h₂))
  refine .ite (.faultLog h) ?_
  split
  · exact .ite (.ownerWrite h₂) (.nextRequest (.ownerWrite h₂))
  · exact .ite
      (.ite (.updateUntracked (.fields h₄)) (.fields h₄))
      (.nextRequest (.ite (.updateUntracked (.fields h₄)) (.fields h₄)))

theorem State.canonical.performTrain (h : s.canonical) {u w elems} : (performTrain s u w elems).canonical :=
  .foldlFst h fun ⟨_, _⟩ ⟨_, _⟩ h => by
    dsimp only
    split
    · exact h
    · exact .trainElem h

theorem State.canonical.trainsOver (h : s.canonical) {u st} : (trainsOver s u st).canonical :=
  .ite h (.pipeClose h)

theorem State.canonical.elementTrain (h : s.canonical) {u st w die elems} :
    (elementTrain s u st w die elems).canonical :=
  .post (.trainsOver (.performTrain h))

theorem State.canonical.trainAck (h : s.canonical) {u st} : (trainAck s u st).canonical :=
  .updStrand h

/-! Waking a parked strand. -/

theorem State.canonical.unpark (h : s.canonical) {u} : (unpark s u).canonical := by
  unfold Machine.unpark
  split
  · exact .wake (.foldl (.abandonMove h) fun _ _ h => .wake h)
  · exact .updStrand (.wake (.updStrand (.ticketWithdrawal (.withdrawRequests h))))

theorem State.canonical.strandWake (h : s.canonical) {u} : (strandWake s u).canonical := by
  refine .ite h (.ite (.unpark h) ?_)
  split
  · extract_lets s₁
    have h₁ : s₁.canonical := .updStrand (.wake h)
    exact .ite h₁ (.countIssued h₁)
  · exact .updStrand (.wake h)

/-! Contexts begin and end. -/

theorem State.canonical.contextCreation (h : s.canonical) {c} : (contextCreation s c).canonical := by
  unfold Machine.contextCreation
  refine .ite h ?_
  extract_lets _ s₁ zero
  have hzero : ∀ s va, s.canonical → (zero s va).canonical := by
    intro s va h
    unfold zero
    split
    · exact .naingStore h ‹_›
    · exact h
  exact hzero _ _ (hzero _ _ (.updContext h))

theorem State.canonical.returnTickets (h : s.canonical) {ctx} : (returnTickets s ctx).canonical :=
  .foldl h fun _ _ h => .foldl h fun _ _ h => .ticketBack h

theorem State.canonical.freeBooths (h : s.canonical) {ctx} : (freeBooths s ctx).canonical :=
  .fields (.foldl (.returnTickets h) fun _ _ h => .updDie h)

theorem State.canonical.discardLogs (h : s.canonical) {ctx} : (discardLogs s ctx).canonical :=
  .foldl h fun _ _ h => .updParcel (.updDie h)

theorem State.canonical.dropCounters (h : s.canonical) {ctx} : (dropCounters s ctx).canonical :=
  .foldl h fun _ _ h => .uncount h

theorem State.canonical.freeCommands (h : s.canonical) {ctx} : (freeCommands s ctx).canonical :=
  .foldl h fun _ _ h => .updDie h

theorem State.canonical.drainExpiry (h : s.canonical) {ctx} : (drainExpiry s ctx).canonical := by
  refine .ite h ?_
  extract_lets s₁
  have h₁ : s₁.canonical := .updContext (.discardLogs h)
  exact .ite h₁ (.updContext (.freeCommands h₁))

theorem State.canonical.contextTeardown (h : s.canonical) {ctx} : (contextTeardown s ctx).canonical :=
  .ite h (.drainExpiry (.updContext (.fields (.dropCounters (.discardLogs (.freeBooths (.cancelCommands
    (.foldl (.withdrawRequests (.fields (.foldl h fun _ _ h => .abandonMove h))) fun _ _ h => .finishStrand h))))))))

/-! Launches. -/

theorem State.canonical.acceptRecord (h : s.canonical) {q} : (acceptRecord s q).canonical := by
  unfold Machine.acceptRecord
  extract_lets
  refine .ite h ?_
  split
  · exact .queueError h
  · extract_lets
    refine .ite (.queueError h) (.ite (.queueError h) ?_)
    split
    · exact .queueError h
    · extract_lets
      split
      · exact .queueError (.ctxPut h)
      · exact .ite (.setPlacing (.updModule (.fields (.ctxPut h)))) (.updModule (.fields (.ctxPut h)))

theorem State.canonical.countQueue (h : s.canonical) {q o} : (countQueue s q o).canonical := by
  unfold Machine.countQueue
  extract_lets
  split
  · exact .ctxPut h
  · exact h

theorem State.canonical.launchCompletion (h : s.canonical) {id} : (launchCompletion s id).canonical := by
  unfold Machine.launchCompletion
  extract_lets _ _ s₁ _ s₂
  have h₁ : s₁.canonical := .ite (.countQueue h) h
  have h₂ : s₂.canonical := by
    refine .ite h₁ ?_
    split
    · exact .ctxStore h₁ ‹_›
    · exact .faultLog h₁
  exact .ite h (.updLaunch h₂)

theorem State.canonical.terminate (h : s.canonical) {us} : (terminate s us).canonical :=
  .fields (.foldl (.withdrawRequests h) fun _ _ h => .finishStrand (.releaseAll (.ticketWithdrawal (.abandonMove h))))

theorem State.canonical.endLaunch (h : s.canonical) {id code cause sub} :
    (endLaunch s id code cause sub).canonical := by
  unfold Machine.endLaunch
  extract_lets _ s₁
  have h₁ : s₁.canonical := .terminate (.releaseReserved h)
  exact .queueError (.ite (.setPlacing (.updLaunch h₁)) (.updLaunch h₁))

theorem State.canonical.tellMembers (h : s.canonical) {l abort} : (tellMembers s l abort).canonical :=
  .updModule h

theorem State.canonical.gangAnnounce (h : s.canonical) {tag index} : (gangAnnounce s tag index).canonical := by
  unfold Machine.gangAnnounce
  split
  · exact .ite h (.updModule h)
  · exact .foldl h fun _ _ h => .ite h (.updLaunch h)

theorem State.canonical.gangFail (h : s.canonical) {id} : (gangFail s id).canonical :=
  .foldl (.foldl (.updLaunch h) fun _ _ h => .ite (.failCommand h) h) fun _ _ h => .updStrand h

theorem State.canonical.gangTimeout (h : s.canonical) {id} : (gangTimeout s id).canonical :=
  .ite (.tellMembers (.gangFail h)) h

theorem State.canonical.gangAbort (h : s.canonical) {tag} : (gangAbort s tag).canonical :=
  .foldl h fun _ _ h => .ite h (.gangFail h)

theorem State.canonical.naingLaunchEnd (h : s.canonical) {id} : (naingLaunchEnd s id).canonical :=
  .ite (.endLaunch h) h

/-! The dispatch unit. -/

theorem State.canonical.placeUnit (h : s.canonical) {id p j core slots fresh} :
    (placeUnit s id p j core slots fresh).2.canonical :=
  .ite
    (.setStrand (.setStrand (.fields (.keptRoom (.switchContext h)))))
    (.setStrand (.fields (.keptRoom (.switchContext h))))

theorem M.Keeps.declare {l} : M.Keeps (declare l) :=
  .bind (.forM fun _ => .ite .pure .configureQueue) fun _ => .forM fun _ => .bind .bindWindow fun _ =>
    .ite .keepBound .pure

theorem State.canonical.declareAll (h : s.canonical) {l us} (e : declareAll l us s = .ok s') : s'.canonical := by
  induction us generalizing s with
  | nil =>
    cases e
    exact h
  | cons u us ih =>
    unfold Machine.declareAll at e
    split at e
    · exact ih (.fields (.ofOk .declare (.fields h) ‹_›)) e
    · cases e
    · cases e
    · exact ih h e

theorem State.canonical.placeTroupe (h : s.canonical) {id p} : (placeTroupe s id p).canonical := by
  unfold Machine.placeTroupe
  extract_lets _ s₁
  have h₁ : s₁.canonical := .ite (.tellMembers h) h
  refine .ite h ?_
  split
  rename_i us s₂ eUnits
  have h₂ : s₂.canonical := by
    refine .ofPair ?_ eUnits
    exact .foldlSnd h₁ fun _ _ h => .placeUnit h
  extract_lets s₃
  have h₃ : s₃.canonical := .updLaunch h₂
  split
  · exact .declareAll h₃ ‹_›
  · exact .endLaunch h₃

theorem State.canonical.settlePlacing (h : s.canonical) {id} : (settlePlacing s id).canonical :=
  .ite (.setPlacing (.updLaunch h)) h

theorem State.canonical.reserveDie (h : s.canonical) {id die} : (reserveDie s id die).canonical := by
  unfold Machine.reserveDie
  split
  · exact h
  · exact .updLaunch (.foldl h fun _ _ h => .updCore h)

theorem State.canonical.placeNext (h : s.canonical) {id die} : (placeNext s id die).canonical := by
  unfold Machine.placeNext
  split
  · exact h
  · exact .settlePlacing (.foldl (.updLaunch (.foldl h fun _ _ h => .foldl h fun _ _ h => .updCore h)) fun _ _ h =>
      .placeTroupe h)

theorem State.canonical.resumeUnit (h : s.canonical) {x} : (resumeUnit s x).canonical := by
  unfold Machine.resumeUnit
  split
  · exact h
  · exact .ite (.loseSaved h) (.foldl (.restoreUnit h) fun _ _ h => .updStrand h)

theorem State.canonical.restartWait (h : s.canonical) {q die} : (restartWait s q die).canonical := by
  unfold Machine.restartWait
  split
  · exact .updLaunch h
  · exact h

theorem State.canonical.dispatch (h : s.canonical) {die} : (dispatch s die).canonical := by
  refine .ite h ?_
  split
  · exact h
  · exact .reserveDie h
  · extract_lets _ _ s₂
    have h₂ : s₂.canonical := .ite (.countQueue (.updDie h)) (.updDie h)
    split
    · exact .placeNext h₂
    · exact .resumeUnit (.restartWait h₂)

theorem State.canonical.starvationExpiry (h : s.canonical) {die} : (starvationExpiry s die).canonical :=
  .ite (.raise h) h

/-! The module and the outside world. -/

theorem State.canonical.bringUp (h : s.canonical) : (bringUp s).canonical := by
  unfold Machine.bringUp
  extract_lets
  split
  · exact .fields h
  · exact .fields h
  · exact .ite (.fields h) (.tellHost (.fields h))
  · exact h

theorem State.canonical.powerLoss : (powerLoss s).canonical :=
  .fields .reset

theorem State.canonical.quoteRequest (h : s.canonical) {nonce} : (quoteRequest s nonce).canonical :=
  .updModule h

theorem State.canonical.doorbell (h : s.canonical) {v} : (doorbell s v).canonical :=
  .ite (.quoteRequest h) (.ite (.updModule h) (.raise (.updModule h)))

theorem State.canonical.quoteReady (h : s.canonical) : (quoteReady s).canonical :=
  .ite h (.updModule h)

theorem State.canonical.hostGets (h : s.canonical) {v} : (hostGets s v).canonical :=
  .updModule h

theorem State.canonical.maskVector (h : s.canonical) {on} : (maskVector s on).canonical :=
  .updModule h

theorem State.canonical.barWrite (h : s.canonical) {o n v} : (barWrite s o n v).canonical :=
  .ite (.updModule h) (.ite (.doorbell h) (.ite (.updModule h) (.ite (.maskVector h) h)))

theorem State.canonical.hostAccess (h : s.canonical) {write pa size v} : (hostAccess s write pa size v).canonical := by
  unfold Machine.hostAccess
  extract_lets _ _ _ _ _ l _ _ _ s₁ _ s₃
  have h₁ : s₁.canonical := by
    unfold s₁
    unfold l
    split
    · exact .touchWrite (.stampKey h)
    · exact h
  have h₃ : s₃.canonical := by
    unfold s₃
    unfold l
    split
    · exact .touchRead (.hostGets h)
    · exact .hostGets h
  exact .ite (.ite (.barWrite h) (.hostGets h)) (.ite (.hostGets h) (.ite
    (.ite (.nextRequest (.faultLog h)) (.nextRequest (.homePut h₁)))
    (.ite (.homeReadEvent (.hostGets h)) (.nextRequest h₃))))

theorem State.canonical.dropUntrackedWords (h : s.canonical) {line} : (dropUntrackedWords s line).canonical :=
  .fields h

theorem State.canonical.dropUntrackedCopies (h : s.canonical) {line} : (dropUntrackedCopies s line).canonical :=
  .foldl (.foldl (.dropUntrackedWords h) fun _ _ h => .updCore h) fun _ _ h => .updDie h

theorem State.canonical.hostSnoop (h : s.canonical) {line} : (hostSnoop s line).canonical :=
  .ite h (.dropUntrackedCopies (.evictLine h))

theorem State.canonical.fenceLines (h : s.canonical) {gone} : (fenceLines s gone).canonical :=
  .foldl h fun _ _ h => .ite h (.ite (.poisonLine h) (.updLine h))

theorem State.canonical.fenceGuests (h : s.canonical) {die cores} : (fenceGuests s die cores).canonical :=
  .foldl h fun _ _ h => .ite (.poisonLine (.setGuest (.foldl h fun _ _ h => .coreDrop h))) (.setGuest h)

theorem State.canonical.loseStrands (h : s.canonical) {us} : (loseStrands s us).canonical := by
  refine .foldl h fun _ _ h => ?_
  extract_lets _ s₁
  have h₁ : s₁.canonical := .ite (.loseContext h) h
  exact .ite (.finishStrand h₁) h₁

theorem State.canonical.fenceCores (h : s.canonical) {cores} : (fenceCores s cores).canonical :=
  .foldl
    (.fields (.foldl (.loseStrands (.fenceLines (.foldl h fun _ _ h => .fenceGuests h))) fun _ _ h => .updCore h))
    fun _ _ h => .updDie h

theorem State.canonical.fenceBaseDie (h : s.canonical) {d} : (fenceBaseDie s d).canonical :=
  .ite h (.updDie (.foldl (.foldl (.fenceLines (.fenceCores h)) fun _ _ h => .ite (.loseContext h) h) fun _ _ h =>
    .updDie h))

theorem State.canonical.unitFence (h : s.canonical) {kind num} : (unitFence s kind num).canonical := by
  unfold Machine.unitFence
  split
  · exact .ite (.loseStrands h) h
  · exact .ite (.fenceCores h) h
  · exact .ite (.fenceCores h) h
  · exact .ite (.fenceBaseDie h) h
  · exact h

theorem State.canonical.linkLoss (h : s.canonical) {link} : (linkLoss s link).canonical :=
  .ite (.fields (.fenceLines h)) (.foldl h fun _ _ h => .ite (.failCommand h) h)

theorem State.canonical.spoilWord (h : s.canonical) {u o} : (spoilWord s u o).canonical := by
  unfold Machine.spoilWord
  extract_lets
  refine .ite h ?_
  split
  · exact .updStrand h
  · exact .ite h (.poisonLine (.recallAll (.dropWindowLine h)))

theorem State.canonical.uncorrected (h : s.canonical) {kind a b c} : (uncorrected s kind a b c).canonical := by
  unfold Machine.uncorrected
  split
  · exact .poisonLine (.recallAll h)
  · exact .updQueue h
  · exact .setBooth h
  · exact .spoilWord h
  · exact .updStrand h
  · exact .ite h (.updStrand h)
  · exact .ite h (.updStrand h)
  · exact .ite h (.updStrand h)
  · exact h

theorem State.canonical.hotter (h : s.canonical) {tj} : (hotter s tj).canonical :=
  .updModule h

theorem State.canonical.thermalThrottle (h : s.canonical) {tj} : (thermalThrottle s tj).canonical :=
  .ite (.hotter h) (.raise (.updModule (.hotter h)))

theorem State.canonical.thermalShutdown (h : s.canonical) {tj} : (thermalShutdown s tj).canonical :=
  .ite (.hotter h) (.raise (.tellHost (.updModule (.fenceCores (.hotter h)))))

theorem State.canonical.powerCapThrottle (h : s.canonical) {rate} : (powerCapThrottle s rate).canonical :=
  .ite (.ite (.updModule h) h) (.ite (.raise (.tellHost (.updModule (.updModule h)))) (.updModule h))

theorem State.canonical.writeFenceMap (h : s.canonical) {k v} : (writeFenceMap s k v).canonical :=
  .ite h (.tellHost (.updModule h))

theorem State.canonical.assignPort (h : s.canonical) {k v} : (assignPort s k v).canonical :=
  .updModule h

theorem State.canonical.setMember (h : s.canonical) {tag v} : (setMember s tag v).canonical :=
  .updModule h

theorem State.canonical.registerWrite (h : s.canonical) {u n v} : (registerWrite s u n v).canonical :=
  .ite (.assignPort h) (.ite (.setMember h) (.ite (.updModule h) (.ite (.post h) (.ite (.writeFenceMap h) (.ite
    (.fields (.csrWrite (.fields h)))
    h)))))

/-! Events that can happen now. -/

theorem State.canonical.noteHolds (h : s.canonical) : (noteHolds s).canonical := by
  unfold Machine.noteHolds
  extract_lets
  refine .foldl (.ite h (.foldl h (fun _ _ h => .updDie h))) fun _ _ h => ?_
  split
  · exact .ite h (.updDie h)
  · exact h

/-! ALU instructions. -/

theorem M.Keeps.alu2 {d a b t x f} : M.Keeps (alu2 d a b t x f) :=
  .bind .readSync fun _ => .bind .readX fun _ => .bind .writeX fun _ => .pure

theorem M.Keeps.alu1 {d a t x f} : M.Keeps (alu1 d a t x f) :=
  .bind .readSync fun _ => .bind .writeX fun _ => .pure

/-! Immediates. -/

theorem M.Keeps.imm2 {d a i f} : M.Keeps (imm2 d a i f) :=
  .bind .readX fun _ => .bind .writeX fun _ => .pure

/-! Jumps and branches. -/

theorem M.Keeps.checkTarget {t} : M.Keeps (checkTarget t) :=
  .ite .pure .trap

theorem M.Keeps.branchTo {taken o} : M.Keeps (branchTo taken o) :=
  .bind .me fun _ => .pure

theorem M.Keeps.branch2 {a b o f} : M.Keeps (branch2 a b o f) :=
  .bind .readX fun _ => .bind .readX fun _ => .branchTo

theorem M.Keeps.branchQueue {a o want} : M.Keeps (branchQueue a o want) :=
  .bind .popQueue fun _ => .branchTo

/-! Floating-point vector arithmetic. -/

theorem M.Keeps.vfp2 {d a b x t f} : M.Keeps (vfp2 d a b x t f) :=
  .bind .me fun _ => .lanes2

theorem M.Keeps.vfp1 {d a t f} : M.Keeps (vfp1 d a t f) :=
  .bind .me fun _ => .lanes1

theorem M.Keeps.vfscaleOp {d a b x t} : M.Keeps (vfscaleOp d a b x t) :=
  .bind .me fun _ => .lanes2

theorem M.Keeps.vfcvtOp {d a dst src} : M.Keeps (vfcvtOp d a dst src) := by
  refine .bind .me fun _ => .bind .readV fun _ => .bind .oldV fun _ => ?_
  extract_lets _ _ _ jp
  have hjp : ∀ r, (jp r).Keeps := fun _ => .bind .vecEnd fun _ => .pure
  refine .ite ?_ ?_
  · split
    · split
      refine .bind .raiseFlags fun _ => ?_
      extract_lets jp₂
      have hjp₂ : ∀ r, (jp₂ r).Keeps := fun _ => .bind .writeV fun _ => hjp ()
      exact .ite (.bind .updMe fun _ => hjp₂ ()) (hjp₂ ())
    · exact .bind .writeV fun _ => hjp ()
  · split
    exact .bind .raiseFlags fun _ => .bind .writeV fun _ => hjp ()

/-! Vector compares. -/

theorem M.Keeps.compare {d a b x w f} : M.Keeps (compare d a b x w f) := by
  refine .bind .me fun _ => .bind .readV fun _ => .bind .readB fun _ => ?_
  extract_lets _ _ jp
  have hjp : ∀ r, (jp r).Keeps := fun _ => .bind .vecEnd fun _ => .pure
  split
  exact .bind .raiseFlags fun _ => .ite (.bind .updMe fun _ => hjp ()) (hjp ())

/-! Predicate instructions. -/

theorem M.Keeps.predOp {d f} : M.Keeps (predOp d f) := by
  refine .bind .me fun _ => ?_
  extract_lets _ _ jp
  have hjp : ∀ r, (jp r).Keeps := fun _ => .bind .vecEnd fun _ => .pure
  exact .ite (.bind .updMe fun _ => hjp ()) (hjp ())

theorem M.Keeps.predToX {d a f} : M.Keeps (predToX d a f) :=
  .bind .me fun _ => .bind .writeX fun _ => .bind .vecEnd fun _ => .pure

theorem M.Keeps.pfromxOp {d a k} : M.Keeps (pfromxOp d a k) :=
  .bind .readX fun _ => .bind .updMe fun _ => .bind .vecEnd fun _ => .pure

/-! Strip control and strip compaction. -/

theorem M.Keeps.setvlOp {d t req} : M.Keeps (setvlOp d t req) :=
  .bind .me fun _ => .bind .updMe fun _ => .bind .writeReg fun _ => .bind .vecEnd fun _ => .pure

theorem M.Keeps.scputOp {d a t} : M.Keeps (scputOp d a t) := by
  refine .bind .me fun _ => ?_
  extract_lets _ _ _ _ jp
  have hjp : ∀ r, (jp r).Keeps := fun _ => .bind .vecEnd fun _ => .pure
  exact .bind .readV fun _ =>
    .ite (.bind .writeReg fun _ => hjp ()) (.ite (.bind .writeReg fun _ => hjp ()) (.ite
      (.bind .writeReg fun _ => hjp ())
      (.bind .updMe fun _ => .bind .writeReg fun _ => hjp ())))

theorem M.Keeps.sctakeOp {d t} : M.Keeps (sctakeOp d t) := by
  refine .bind .me fun _ => ?_
  extract_lets _ _ _ _ _ jp
  have hjp : ∀ r, (jp r).Keeps := fun _ => .bind .permute fun _ => .pure
  exact .ite (.bind .updMe fun _ => hjp ()) (hjp ())

/-! Vector memory. -/

theorem M.Keeps.checkChannels {v is} : M.Keeps (checkChannels v is) :=
  .forM fun _ => .checkChannel

theorem M.Keeps.atElem {va} {m : M α} (hm : M.Keeps m) : M.Keeps (atElem va m) :=
  .bind (.attempt hm) fun r => by
    split
    · exact .pure
    · exact .throw
    · exact .throw

theorem M.Keeps.loadElem {v i} : M.Keeps (loadElem v i) :=
  .bind .checkAligned fun _ => .bind .me fun _ => .bind (.atElem .loadBytes) fun _ => .pure

theorem M.Keeps.storeElem {v i x} : M.Keeps (storeElem v i x) :=
  .bind .checkAligned fun _ => .bind .me fun _ => .atElem .storeBytes

theorem M.Keeps.checkElems {k v is} : M.Keeps (checkElems k v is) :=
  .forM fun _ => .bind .checkAligned fun _ => .bind .resolve fun _ => .pure

theorem M.Keeps.vmemEnd {pipe} : M.Keeps (vmemEnd pipe) :=
  .bind .vecEnd fun _ => .updMe

theorem M.Keeps.vmemEndLater {pipe key} : M.Keeps (vmemEndLater pipe key) :=
  .bind .vecEndLater fun _ => .updMe

theorem M.Keeps.fillLater {q slot gen r} : M.Keeps (fillLater q slot gen r) :=
  .bind (.modify fun _ h => .post h) fun _ => .getBind fun _ _ => .vmemEndLater

theorem M.Keeps.stopAt {v x j performed pipe} : M.Keeps (stopAt v x j performed pipe) :=
  .bind .me fun _ => .bind .updMe fun _ =>
    .ite (.bind (.modify fun _ h => .elementRecords (.pipeRecords h)) fun _ => .throw) .throw

theorem M.Keeps.performAbove {early} {one : Nat → M Unit} {tick lower l} (hone : ∀ i, M.Keeps (one i)) :
    M.Keeps (perform.above early one tick lower l) := by
  induction l generalizing lower with
  | nil => exact .pure
  | cons k l ih =>
    refine .ite (.bind (.attempt (hone k)) fun r => ?_) ih
    split
    · exact .bind ih fun _ => .pure
    · exact ih

theorem M.Keeps.perform {early} {one : Nat → M Unit} {l} (hone : ∀ i, M.Keeps (one i)) :
    M.Keeps (perform early one l) := by
  induction l with
  | nil => exact .pure
  | cons i l ih =>
    refine .bind (.attempt (hone i)) fun r => ?_
    split
    · exact .bind ih fun _ => .pure
    · exact .getBind fun _ _ => .bind (.performAbove hone) fun _ => .pure
    · exact .throw

theorem M.Keeps.loadReg {d v} : M.Keeps (loadReg d v) := by
  refine .bind .me fun _ => ?_
  extract_lets
  refine .bind .vecReady fun _ => .bind .checkChannels fun _ =>
    .bind (.perform (fun _ => .bind .loadElem (fun _ => .updMe))) fun _ => ?_
  split
  split
  · exact .stopAt
  · exact .vmemEnd

theorem M.Keeps.loadWhole {v base} : M.Keeps (loadWhole v base) :=
  .bind .me fun _ => .bind .checkElems fun _ => .bind .checkChannels fun _ =>
    .bind (.forIn fun _ _ => .bind .loadElem fun _ => .pure) fun _ => .pure

theorem M.Keeps.vload {d whole st v} : M.Keeps (vload d whole st v) :=
  .bind .streamReady fun _ =>
    .ite
      (.ite
        (.bind .vecReady fun _ => .bind .me fun _ => .bind .loadWhole fun _ => .bind .writeV fun _ =>
          .bind .vmemEnd fun _ => .pure)
        (.bind .loadReg fun _ => .pure))
      (.bind .allocSlot fun _ => .bind .loadWhole fun _ => .bind .fillLater fun _ => .pure)

theorem M.Keeps.loadSlot {d} : M.Keeps (loadSlot d) :=
  .ite .pure (.bind .allocSlot fun _ => .pure)

theorem M.Keeps.deliverLoad {d place r n} : M.Keeps (deliverLoad d place r n) := by
  unfold Machine.deliverLoad
  split
  · exact .fillLater
  · extract_lets
    split
    · exact .bind .writeV fun _ => .vmemEnd
    · exact .vmemEnd

theorem M.Keeps.vldbOp {d st v} : M.Keeps (vldbOp d st v) := by
  refine .bind .streamReady fun _ => .bind .me fun _ => ?_
  extract_lets _ low
  refine .bind .oldV fun _ => .bind .loadSlot fun _ => ?_
  unfold low
  split
  · exact .bind .deliverLoad fun _ => .pure
  · refine .bind .checkChannels fun _ => .bind (.attempt .loadElem) fun _ => ?_
    split
    · exact .bind .deliverLoad fun _ => .pure
    · exact .ite (.bind .stopAt fun _ => .pure) .throwBind
    · exact .throwBind

theorem M.Keeps.faultFirst {v j l r} : M.Keeps (faultFirst v j l r) := by
  induction l generalizing r with
  | nil => exact .pure
  | cons i l ih =>
    refine .bind .checkChannel fun _ => .bind (.attempt .loadElem) fun x => ?_
    split
    · exact .bind ih fun _ => .pure
    · exact .pure
    · exact .throw

theorem M.Keeps.vldffOp {d st v} : M.Keeps (vldffOp d st v) := by
  refine .bind .streamReady fun _ => .bind .me fun _ => .bind .oldV fun _ => .bind .loadSlot fun _ => ?_
  extract_lets
  refine .bind .faultFirst fun _ => ?_
  split
  extract_lets jp
  have hjp : ∀ r, (jp r).Keeps := fun _ => .bind .deliverLoad fun _ => .pure
  split
  · exact .ite (.ite (.bind .writeV fun _ => .bind .stopAt fun _ => hjp ()) .throwBind) (.bind .updMe fun _ => hjp ())
  · exact hjp ()

theorem M.Keeps.idleStore {va} : M.Keeps (idleStore va) := by
  refine .bind (.attempt .resolve) fun _ => ?_
  split
  · exact .bind .awaitOwn fun _ => .modify fun _ h =>
      .ite h (.fullLineStore (.ite (.stampKey (.touchWrite (.nextRequest h))) (.nextRequest h)))
  · exact .pure

theorem M.Keeps.idleStores {v} : M.Keeps (idleStores v) :=
  .bind .me fun _ => .forM fun _ => .idleStore

theorem M.Keeps.vstore {d st v} : M.Keeps (vstore d st v) := by
  refine .bind .streamReady fun _ => .bind .readV fun _ => .bind .me fun _ => ?_
  extract_lets
  refine .ite
    (.bind .checkChannels fun _ => .bind (.perform (fun _ => .storeElem)) fun _ => ?_)
    (.bind
      .checkElems
      (fun _ => .bind
        .checkChannels
        (fun _ => .bind
          (.forM (fun _ => .storeElem))
          (fun _ => .bind .idleStores (fun _ => .bind .vmemEnd (fun _ => .pure))))))
  split
  split
  · exact .bind .stopAt fun _ => .pure
  · exact .bind .idleStores fun _ => .bind .vmemEnd fun _ => .pure

theorem M.Keeps.checkRemote {v is} : M.Keeps (checkRemote v is) := by
  refine .forM fun _ => .bind .checkAligned fun _ => .bind .resolve fun _ => ?_
  split
  · exact .getBind fun _ _ => .ite .trap .pure
  · exact .pure

theorem M.Keeps.vstxrOp {d st v} : M.Keeps (vstxrOp d st v) := by
  refine .bind .streamReady fun _ => .bind .readV fun _ => .bind .me fun _ => ?_
  extract_lets
  refine .bind .checkRemote fun _ => .bind .checkChannels fun _ => .bind (.forIn fun _ _ => ?_) fun _ =>
    .bind (.forIn fun _ _ => .ite (.bind (.modify fun _ h => .post (.updMe h)) fun _ => .pure) .pure) fun _ =>
    .ite (.bind .vmemEnd fun _ => .pure) (.bind .vmemEndLater fun _ => .pure)
  extract_lets
  refine .bind .checkWatch fun _ => .bind .resolve fun _ => ?_
  split
  · exact .bind .awaitOwn fun _ => .pure
  · exact .bind .storeElem fun _ => .pure

/-! Permutes. -/

theorem M.Keeps.vcompressOp {d a t} : M.Keeps (vcompressOp d a t) :=
  .bind .me fun _ => .bind .readV fun _ => .bind .permute fun _ => .pure

theorem M.Keeps.vexpandOp {d a t} : M.Keeps (vexpandOp d a t) :=
  .bind .me fun _ => .bind .readV fun _ => .bind .permute fun _ => .pure

theorem M.Keeps.masked {d a t f} : M.Keeps (masked d a t f) :=
  .bind .me fun _ => .bind .readV fun _ => .bind .permute fun _ => .pure

theorem M.Keeps.slideOp {d a b t x up} : M.Keeps (slideOp d a b t x up) :=
  .bind .me fun _ => .bind .readV fun _ => .bind .readB fun _ =>
    .ite (.bind .permute fun _ => .pure) (.bind .permute fun _ => .pure)

theorem M.Keeps.masked2 {d a b t f} : M.Keeps (masked2 d a b t f) :=
  .bind .me fun _ => .bind .readV fun _ => .bind .readV fun _ => .bind .permute fun _ => .pure

theorem M.Keeps.vextxOp {d a b t} : M.Keeps (vextxOp d a b t) :=
  .bind .readV fun _ => .bind .readX fun _ => .bind .writeX fun _ => .bind .vecEnd fun _ => .pure

theorem M.Keeps.vinsxOp {d a b t} : M.Keeps (vinsxOp d a b t) :=
  .bind .readX fun _ => .bind .readX fun _ => .bind .permute fun _ => .pure

theorem M.Keeps.viotaOp {d a t} : M.Keeps (viotaOp d a t) :=
  .bind .me fun _ => .bind .permute fun _ => .pure

/-! All instructions and events. -/

theorem Out.Canonical.execAuipc (h : s.canonical) {d i} : Out.Canonical (execAuipc d i s) :=
  .insn h (.seq (.bind .me fun _ => .writeX))

theorem Out.Canonical.execJal (h : s.canonical) {d i} : Out.Canonical (execJal d i s) :=
  .insn h (.bind .me fun _ => .bind .writeReg fun _ => .pure)

theorem Out.Canonical.execJalr (h : s.canonical) {d a i} : Out.Canonical (execJalr d a i s) :=
  .insn h (.bind .me fun _ => .bind .checkTarget fun _ => .bind .writeReg fun _ => .pure)

theorem Out.Canonical.execVld (h : s.canonical) {d b w x y} : Out.Canonical (execVld d b w x y s) :=
  .insn h (.bind .me fun _ => .vload)

theorem Out.Canonical.execVlds (h : s.canonical) {d b w x y} : Out.Canonical (execVlds d b w x y s) :=
  .insn h (.bind .me fun _ => .vload)

theorem Out.Canonical.execVldx (h : s.canonical) {d b i w x y} : Out.Canonical (execVldx d b i w x y s) :=
  .insn h (.bind .vecReady fun _ => .bind .me fun _ => .vload)

theorem Out.Canonical.execVldff (h : s.canonical) {d b w x y} : Out.Canonical (execVldff d b w x y s) :=
  .insn h (.bind .me fun _ => .vldffOp)

theorem Out.Canonical.execVldb (h : s.canonical) {d b w x y} : Out.Canonical (execVldb d b w x y s) :=
  .insn h (.bind .me fun _ => .vldbOp)

theorem Out.Canonical.execVst (h : s.canonical) {d b w x y} : Out.Canonical (execVst d b w x y s) :=
  .insn h (.bind .me fun _ => .vstore)

theorem Out.Canonical.execVsts (h : s.canonical) {d b w x y} : Out.Canonical (execVsts d b w x y s) :=
  .insn h (.bind .me fun _ => .vstore)

theorem Out.Canonical.execVstx (h : s.canonical) {d b i w x y} : Out.Canonical (execVstx d b i w x y s) :=
  .insn h (.bind .vecReady fun _ => .bind .me fun _ => .vstore)

theorem Out.Canonical.execVstxr (h : s.canonical) {d b i w x y} : Out.Canonical (execVstxr d b i w x y s) :=
  .insn h (.bind .vecReady fun _ => .bind .me fun _ => .vstxrOp)

theorem Out.Canonical.execSetvl (h : s.canonical) {d a t} : Out.Canonical (execSetvl d a t s) :=
  .insn h (.bind .me fun _ => .setvlOp)

theorem Out.Canonical.execSetms (h : s.canonical) {a m} : Out.Canonical (execSetms a m s) :=
  .insn h (.bind .updMe fun _ => .bind .vecEnd fun _ => .pure)

theorem Out.Canonical.execSetst (h : s.canonical) {a} : Out.Canonical (execSetst a s) :=
  .insn h (.bind .updMe fun _ => .bind .vecEnd fun _ => .pure)

theorem Out.Canonical.execScflush (h : s.canonical) {d} : Out.Canonical (execScflush d s) :=
  .insn h (.bind .me fun _ => .bind .updMe fun _ => .bind .writeReg fun _ => .bind .vecEnd fun _ => .pure)

theorem Out.Canonical.execScstat (h : s.canonical) {d} : Out.Canonical (execScstat d s) :=
  .insn h (.bind .me fun _ => .bind .writeReg fun _ => .bind .vecEnd fun _ => .pure)

theorem Out.Canonical.execTkrdv (h : s.canonical) {d a} : Out.Canonical (execTkrdv d a s) :=
  .insn h (.bind .vecReady fun _ => .redeemOp)

theorem Out.Canonical.execPqry (h : s.canonical) {d a} : Out.Canonical (execPqry d a s) :=
  .insn h (.bind .readReg fun _ => .getBind fun _ h => .bind (.set (.parcelWalk h)) fun _ => .bind .writeReg fun _ =>
    .pure)

theorem Out.Canonical.execPmigr (h : s.canonical) {d a b} : Out.Canonical (execPmigr d a b s) :=
  .insn h (.bind .delegated fun _ => .bind .readReg fun _ => .requestOp)

/-- Every instruction and every event of the machine keeps memory canonical. -/
theorem Out.Canonical.exec (h : s.canonical) {i} : Out.Canonical (exec i s) := by
  cases i with
  | strandWake => exact .next (.strandWake h)
  | barwtDeadline => exact .next (.barwtDeadline h)
  | userInterruptEntry => exact .next (.interruptEntry h)
  | migrationSearchExpiry => exact .next (.migrationSearchExpiry h)
  | migrationCoreFreed => exact .next (.migrationCoreFreed h)
  | migrationCarryComplete => exact .next (.migrationCarryComplete h)
  | creditReturn => exact .next (.creditReturn h)
  | proactiveReturn => exact .next (.proactiveReturn h)
  | naingOrderedMove => exact .next (.naingOrderedMove h)
  | preemptionSaveComplete => exact .next (.saveComplete h)
  | homeRead => exact .next (.homeReadEvent h)
  | homeOwn => exact .next (.homeOwnEvent h)
  | homeWriteBack => exact .next (.homeWriteBack h)
  | cleanCopyDrop => exact .next (.cleanCopyDrop h)
  | invalidatingSnoop => exact .next (.invalidatingSnoop h)
  | forwardedRead => exact .next (.forwardedRead h)
  | goneResponse => exact .next (.goneResponse h)
  | llcEviction => exact .next (.evictLine h)
  | guestCopyEviction => exact .next (.evictGuest h)
  | shootdownRequest => exact .next (.shootdownRequest h)
  | shootdownComplete => exact .next (.shootdownComplete h)
  | parcelMigrationStart => exact .next (.parcelMigrationStart h)
  | parcelMigrationComplete => exact .next (.parcelMigrationComplete h)
  | pendingLogAppend => exact .next (.pendingAppend h)
  | boothFill => exact .next (.boothFill h)
  | boothWaitAllocate => exact .next (.boothWaitAllocate h)
  | boothClaim => exact .next (.boothClaim h)
  | ticketDelivery => exact .next (.ticketDelivery h)
  | ticketWithdrawal => exact .next (.ticketWithdrawal h)
  | ticketExpiry => exact .next (.ticketExpiry h)
  | queueFillArrival => exact .next (.queueFill h)
  | windowFill => exact .next (.windowFill h)
  | matrixPipeStep => exact .next (.matrixStep h)
  | tileOpComplete => exact .next (.tileComplete h)
  | tfetchSlotFill => exact .next (.tfetchFill h)
  | elementTrain => exact .next (.elementTrain h)
  | trainAck => exact .next (.trainAck h)
  | reductionPerform => exact .next (.reductionPerform h)
  | reductionDrainExpiry => exact .next (.drainExpiry h)
  | commandStart => exact .next (.commandStart h)
  | engineElement => exact .next (.engineElement h)
  | rowComplete => exact .next (.rowComplete h)
  | commandEnd => exact .next (.commandEnd h)
  | stageBlockAnnounce => exact .next (.blockAnnounce h)
  | stageBlockGrant => exact .next (.blockGrant h)
  | stageBlockPull => exact .next (.blockPull h)
  | gangStripGrant => exact .next (.gangStripGrant h)
  | contextTeardown => exact .next (.contextTeardown h)
  | launchRecordAccept => exact .next (.acceptRecord h)
  | dispatch => exact .next (.dispatch h)
  | starvationBoundExpiry => exact .next (.starvationExpiry h)
  | launchCompletion => exact .next (.launchCompletion h)
  | gangAnnounceReceive => exact .next (.gangAnnounce h)
  | gangTimeout => exact .next (.gangTimeout h)
  | gangAbortReceive => exact .next (.gangAbort h)
  | traceSample => exact .next (.traceSample h)
  | replayHoldExpiry => exact .next (.replayHoldExpiry h)
  | powerOnBringUp => exact .next (.bringUp h)
  | doorbell => exact .next (.doorbell h)
  | quoteRequest => exact .next (.quoteRequest h)
  | quoteReady => exact .next (.quoteReady h)
  | evstatClear | correctedError => exact .next (.updModule h)
  | hostMemoryAccess => exact .next (.hostAccess h)
  | hostSnoop => exact .next (.hostSnoop h)
  | hostLinkLoss => exact .next (.linkLoss h)
  | thermalThrottle => exact .next (.thermalThrottle h)
  | thermalShutdown => exact .next (.thermalShutdown h)
  | powerCapThrottle => exact .next (.powerCapThrottle h)
  | uncorrectedError => exact .next (.uncorrected h)
  | unitFence => exact .next (.unitFence h)
  | dcword7Commit => exact .next (.commitQueue h)
  | keyLoad => exact .next (.ite (.post h) (.loadKey h))
  | keyErase => exact .next (.ite (.post h) (.eraseKey h))
  | pwrcapWrite => exact .next (.setPowerCap h)
  | rplmodeWrite => exact .next (.setReplayMode h)
  | registerWrite => exact .next (.registerWrite h)
  | powerLoss => exact .next .powerLoss
  | contextCreation => exact .next (.contextCreation h)
  | naingParcelMigrationRequest => exact .next (.naingMigration h)
  | reserveFrameSupply => exact .next (.supplyFrame h)
  | counterTableEntryFree => exact .next (.freeCounters h)
  | resumptionMark => exact .next (.resumptionMark h)
  | naingLaunchEnd => exact .next (.naingLaunchEnd h)
  | add | sub | mul | mulh | mulhn | div | divn | rem | remn | and | or | xor | andn | sll | srl | sra | min | max
  | minn | maxn | slt | sltn | seq | rotr => exact .insn h .alu2
  | slli | srli | srai | clz | ctz | popc | brev | bswap => exact .insn h .alu1
  | addi | andi | ori | xori | slti | sltni => exact .insn h .imm2
  | lui => exact .insn h (.seq .writeX)
  | auipc => exact .execAuipc h
  | jal => exact .execJal h
  | jalr => exact .execJalr h
  | beq | bne | blt | bge | bltn | bgen => exact .insn h .branch2
  | bqt | bqf => exact .insn h .branchQueue
  | ld | ldz => exact .insn h .loadOp
  | st => exact .insn h .storeOp
  | fadd | fsub | fmul | fdiv | fmin | fmax | feq | flt | fle | fscpy | fsneg | fsxor => exact .insn h .fps2
  | fmac | fnmac => exact .insn h .fps3
  | fsqrt | fclass => exact .insn h .fps1
  | fcvti => exact .insn h .fcvtiOp
  | fcvtf => exact .insn h .fcvtfOp
  | fcvtw => exact .insn h .fcvtwOp
  | csrrw | csrrs | csrrc | csrr => exact .insn h (.seq .csrOp)
  | exit => exact .insn h .exitOp
  | yield => exact .insn h .yieldOp
  | forkl => exact .insn h .forklOp
  | joinl => exact .insn h .joinlOp
  | loop => exact .insn h .loopOp
  | endloop => exact .insn h .endloopOp
  | lidx => exact .insn h .lidxOp
  | sidx => exact .insn h .sidxOp
  | hint => exact .insn h .hintOp
  | migr => exact .insn h .migrOp
  | qcfg => exact .insn h .qcfgOp
  | qadv => exact .insn h .qadvOp
  | qcommit => exact .insn h .qcommitOp
  | qfill => exact .insn h .qfillOp
  | qfree => exact .insn h .qfreeOp
  | qreset => exact .insn h .qresetOp
  | qdrain => exact .insn h .qdrainOp
  | xput => exact .insn h .xputOp
  | fset | fclr => exact .insn h .fullOp
  | ftest => exact .insn h .ftestOp
  | vadd | vsub | vmul | vmulh | vmac | vdiv | vdivn | vrem | vmin | vmax | vminn | vmaxn | vand | vor | vxor | vsll
  | vsrl | vsra | vsadd | vssub => exact .insn h .lanes2
  | vabs | vneg | vmov => exact .insn h .lanes1
  | vredsum | vredmin | vredmax | vfredo | vfredt | vfredmax | vfredmin => exact .insn h .reduce
  | vfadd | vfsub | vfmul | vfma | vfnma | vfdiv | vfmin | vfmax => exact .insn h .vfp2
  | vfsqrt | vfexp2 | vflog2 | vfabs | vfneg => exact .insn h .vfp1
  | vfcvt => exact .insn h .vfcvtOp
  | vfscale => exact .insn h .vfscaleOp
  | vceq | vcne | vclt | vcle | vcltn | vclen | vfceq | vfclt | vfcle | vfcun => exact .insn h .compare
  | pand | por | pxor | pandn | pnot | psbf | psif | psof | pset | pclr => exact .insn h .predOp
  | pcnt | pfirst | ptox => exact .insn h .predToX
  | pfromx => exact .insn h .pfromxOp
  | vcompress => exact .insn h .vcompressOp
  | vexpand => exact .insn h .vexpandOp
  | vslideup | vslidedn => exact .insn h .slideOp
  | vpermx | vzip | vunzip => exact .insn h .masked2
  | vbcast => exact .insn h .masked
  | vextx => exact .insn h .vextxOp
  | vinsx => exact .insn h .vinsxOp
  | viota => exact .insn h .viotaOp
  | vld => exact .execVld h
  | vlds => exact .execVlds h
  | vldx => exact .execVldx h
  | vldff => exact .execVldff h
  | vldb => exact .execVldb h
  | vst => exact .execVst h
  | vsts => exact .execVsts h
  | vstx => exact .execVstx h
  | vstxr => exact .execVstxr h
  | setvl => exact .execSetvl h
  | setvli => exact .insn h .setvlOp
  | setms => exact .execSetms h
  | setst => exact .execSetst h
  | scput => exact .insn h .scputOp
  | sctake => exact .insn h .sctakeOp
  | scflush => exact .execScflush h
  | scstat => exact .execScstat h
  | ten => exact .insn h .tenOp
  | tdis => exact .insn h .tdisOp
  | tzero => exact .insn h .tzeroOp
  | tpred => exact .insn h .tpredOp
  | tmovr | tmovc => exact .insn h .tmovOp
  | tsetr | tsetc => exact .insn h .tsetOp
  | tfold => exact .insn h .tfoldOp
  | tdrain => exact .insn h .tdrainOp
  | tfetch => exact .insn h .tfetchOp
  | tscl => exact .insn h .tsclOp
  | tstat => exact .insn h .tstatOp
  | top | tops | topl => exact .insn h .topOp
  | wmap => exact .insn h .wmapOp
  | wunmap => exact .insn h .wunmapOp
  | wflush => exact .insn h .wflushOp
  | winv => exact .insn h .winvOp
  | wstat => exact .insn h .wstatOp
  | wtouch => exact .insn h .wtouchOp
  | wkeep => exact .insn h .wkeepOp
  | tkld | tkldw | tkldv => exact .insn h .tkldOp
  | tkrd | tkrdq => exact .insn h .redeemOp
  | tkrdv => exact .execTkrdv h
  | tktest => exact .insn h .tktestOp
  | tkdrop => exact .insn h .tkdropOp
  | pqry => exact .execPqry h
  | phint => exact .insn h .phintOp
  | plogq => exact .insn h .plogqOp
  | pfetch => exact .insn h .requestOp
  | pmigr => exact .execPmigr h
  | pnqpop => exact .insn h .pnqpopOp
  | pkeep => exact .insn h .pkeepOp
  | atmAdd | atmMin | atmMax | atmMinn | atmMaxn | atmAnd | atmOr | atmXor | atmSwp | atmFadd | atmFaddh | atmCas
  | atmdAdd | atmdMin | atmdMax | atmdMinn | atmdMaxn | atmdAnd | atmdOr | atmdXor | atmdSwp | atmdFadd | atmdCas =>
    exact .insn h .atmOp
  | redAdd32 | redMin32 | redMax32 | redMinn32 | redMaxn32 | redAnd32 | redOr32 | redXor32 | redFadd32 | redFaddh32
  | redAdd64 | redMin64 | redMax64 | redMinn64 | redMaxn64 | redAnd64 | redOr64 | redXor64 | redFadd64 =>
    exact .insn h .redOp
  | sbar => exact .insn h .sbarOp
  | bari => exact .insn h .bariOp
  | barv => exact .insn h .barvOp
  | barw => exact .insn h .barwOp
  | barwt => exact .insn h .barwtOp
  | waitv => exact .insn h .waitvOp
  | accdecl => exact .insn h .accdeclOp
  | vacc => exact .insn h .vaccOp
  | accmerge => exact .insn h .accmergeOp
  | accrel => exact .insn h .accrelOp
  | estr => exact .insn h .estrOp
  | epush => exact .insn h .epushOp
  | epop => exact .insn h .epopOp
  | ewm => exact .insn h .ewmOp
  | ewait => exact .insn h .ewaitOp
  | echan => exact .insn h .echanOp
  | egang => exact .insn h .egangOp
  | ecancel => exact .insn h .ecancelOp
  | estat => exact .insn h .estatOp
  | uien => exact .insn h .uienOp
  | uiret => exact .insn h .uiretOp
  | svc | brk => exact .insn h .trap
  | rett => exact .insn h .rettOp
  | wfi => exact .insn h .wfiOp
  | tlbinv => exact .insn h .tlbinvOp
  | ctxsv => exact .insn h .ctxsvOp
  | ctxld => exact .insn h .ctxldOp
  | lnpurge => exact .insn h .lnpurgeOp
  | tmark => exact .insn h .tmarkOp
  | tcnt => exact .insn h .tcntOp

/-! Running a word. -/

theorem Out.Canonical.illegal (h : s.canonical) {w e} : Out.Canonical (illegal w e s) :=
  .next (.takeTrap h)

theorem Out.Canonical.runWord (h : s.canonical) {w} : Out.Canonical (runWord w s) := by
  unfold Machine.runWord
  split
  · exact .exec h
  · exact .illegal h

/-! One turn of the machine. -/

theorem State.canonical.fetch (h : s.canonical) {w} (e : fetch s = .ok (w, s')) : s'.canonical := by
  unfold Machine.fetch at e
  extract_lets at e
  split at e
  · cases e
  split at e
  · cases e
  split at e
  · cases e
  split at e
  · cases e
  split at e
  · cases e
  · cases e
    exact .touchRead (.translate h ‹_›)

theorem Out.Canonical.issueWord (h : s.canonical) : Out.Canonical (issueWord s) := by
  unfold Machine.issueWord
  extract_lets
  split
  · exact .next (.takeTrap (.updMe h))
  · rename_i w s₁ eFetch
    have h₁ : s₁.canonical := .fetch h eFetch
    split
    · rename_i s₂ eRun
      have h₂ : s₂.canonical := Out.Canonical.runWord (.ite (.updMe h₁) h₁) _ eRun
      refine .next ?_
      split
      · exact .ite (.updStrand h₂) h₂
      · exact h₂
    · exact .fault
    · exact .refused

theorem Out.Canonical.skipWord (h : s.canonical) : Out.Canonical (skipWord s) := by
  unfold Machine.skipWord
  extract_lets s₁
  have h₁ : s₁.canonical := .ite (.updMe h) h
  split
  · exact .next (.takeTrap h₁)
  · exact .ite (.runWord (.fetch h₁ ‹_›)) (.next (.updMe (.fetch h₁ ‹_›)))

theorem State.canonical.recordElements (h : s.canonical) : (recordElements s).canonical := by
  unfold Machine.recordElements
  extract_lets
  refine .ite h ?_
  split
  · exact h
  · exact .ite (.elementRecords h) h

theorem Out.Canonical.issueGo (h : s.canonical) {t} : Out.Canonical (issue.go s t) :=
  .ite (.skipWord h) (.ite (.next (.takeTrap (.recordElements h))) (.issueWord h))

theorem Out.Canonical.issue (h : s.canonical) : Out.Canonical (issue s) := by
  unfold Machine.issue
  extract_lets
  split
  · exact .ite (.issueGo h) (.next (.takeTrap (.updMe (.pipeStop h))))
  · exact .issueGo h

theorem State.canonical.settleStop (h : s.canonical) {u} : (settleStop s u).canonical :=
  .ite h (.ite (.updStrand (.pipeStop h)) (.ite (.updStrand (.pipeStop h)) h))

theorem State.canonical.passFence (h : s.canonical) {u} : (passFence s u).canonical :=
  .ite (.updStrand (.selfInvalidate h)) h

theorem Out.Canonical.strandTurn (h : s.canonical) {u} : Out.Canonical (strandTurn s u) := by
  unfold Machine.strandTurn
  extract_lets _ out
  have hout : Out.Canonical out := .issue (.fields (.passFence (.updCore h)))
  clear_value out
  refine .ite ?_ hout
  cases out with
  | next s' => exact .next (.settleStop (hout _ rfl))
  | _ => exact hout

theorem State.canonical.stopPlayback (h : s.canonical) {stuck} : (stopPlayback s stuck).canonical :=
  .foldl h fun _ _ h => .notReplayable h

theorem Out.Canonical.candRun (h : s.canonical) {a} : Out.Canonical (Cand.run s a) := by
  unfold Machine.Cand.run
  split
  · split
    · exact .exec (.fields h)
    · exact .next h
  · exact .exec h
  · exact .strandTurn h

theorem Out.Canonical.turn (h : s.canonical) : Out.Canonical (turn s) := by
  unfold Machine.turn
  extract_lets
  split
  · exact .exec (.noteHolds h)
  · split
    · exact .next (.stopPlayback (.noteHolds h))
    · split
      · exact .next (.noteHolds h)
      · exact .candRun (.noteHolds h)
      · exact .candRun (.noteHolds h)

/-! The step. -/

theorem Out.Canonical.step (h : s.canonical) : Out.Canonical (step s) :=
  .turn (.fields h)

end Sys2Proof.Machine

/-- Settles O25: memory is written only by stores and merges of dirty bytes, both of which keep its canonical form, and
every function of the step is followed down to them. -/
theorem stepKeepsMemoryCanonical : Obligations.StepKeepsMemoryCanonical :=
  fun _ _ h => Sys2Proof.Machine.Out.Canonical.step h _

end

section
/-! What reset leaves (R13, R395, R421, R427, R430). -/

open Sys2Proof.Machine

/-- Settles O24: the tables of the reset state list nothing, so that each reads as its blank entry, and the registers hold
the literals of `Module.reset`. -/
theorem resetState : Obligations.ResetState := by
  unfold Obligations.ResetState
  have hweights : ∀ t, t < 8 → Tab.get 0 State.reset.module.weights t = 2 ^ (7 - t) := by decide
  exact ⟨rfl, rfl, rfl, fun _ => ⟨rfl, rfl, fun _ => rfl⟩, fun _ => rfl, fun _ => rfl, hweights, rfl, .reset, fun _ => rfl⟩

end

section
/-! A queue commit takes the words that were written, reserved bits among them, where DCWORDn reads those as 0 (R5, R386, R422). -/

namespace Sys2Proof.Machine

/-- A commit of words that make no descriptor leaves the selected queue's and puts the queue in Error (R422). -/
theorem commitQueue_invalid {s : State} {v : Word}
    (h : LaunchQueue.ofWords (fun i => if i = 7 then v else dcStaged s i) = none) :
    (commitQueue s v).queueDesc s.module.dcqSel.toNat = { s.queueDesc s.module.dcqSel.toNat with state := 2 } := by
  unfold commitQueue
  simp only [h]
  exact Tab.get_set_self ..

/-- DCWORD2 has been written with LOG2N 4, and DCWORD3, all of whose bits are reserved, with 1. -/
def reservedStaged : State :=
  { State.reset with module := { Module.reset with dcWord := [(2, some 4), (3, some 1)] } }

/-- The words that the commit takes make no descriptor: doubleword 3 is not 0. -/
theorem ofWords_staged_reserved :
    LaunchQueue.ofWords (fun i => if i = 7 then 0 else dcStaged reservedStaged i) = none := by decide

/-- The words that the registers read make one: doubleword 3 reads 0. -/
theorem ofWords_read_reserved : LaunchQueue.ofWords (fun i => if i = 7 then 0 else dcWordRead reservedStaged i) =
    some { LaunchQueue.blank with log2n := 4 } := by decide

end Sys2Proof.Machine

open Sys2Proof.Machine

/-- Refutes O60: the statement has DCWORD7's commit take the words that the registers read, the model takes those that were
written. After a write of 1 to the reserved DCWORD3 the words read make a Disabled queue's descriptor, and the commit puts the
queue in Error. -/
theorem not_moduleEvents : ¬ Obligations.ModuleEvents := by
  unfold Obligations.ModuleEvents
  rintro ⟨hmodule, -⟩
  obtain ⟨-, -, -, -, -, -, -, -, -, -, -, -, -, -, hcommit, -⟩ := hmodule reservedStaged _ rfl
  obtain ⟨t, ht, -, -, hvalid⟩ := hcommit 0 0 _ rfl rfl
  obtain rfl : commitQueue reservedStaged 0 = t := Host.Outcome.next.inj ht
  have herror := commitQueue_invalid ofWords_staged_reserved
  have hdisabled := hvalid _ ofWords_read_reserved
  exact absurd (congrArg LaunchQueue.state (hdisabled.symm.trans herror)) (by decide)

end

section
/-! Reads of plain allotment hand their poison on (R25). In `readBytes` the line that faults at poison follows the read of
memory alone: a read of the scratchpad leaves the block before it. -/

namespace Sys2Proof.Machine

/-- A read of plain allotment answers its bytes and their poison, and does not stop at the poison. -/
theorem readBytes_spad {s s1 : State} {va : Word} {n scope u o : Nat} {deliver again : Bool}
    (hp : answers (resolve .load va n) s (.spad u o) s1) (hch : answers (checkChannel va n) s1 () s1)
    (haw : answers (awaitPlace (.spad u o) va n) s1 () s1) :
    readBytes va n deliver scope again s = .ok (allotBytes (s1.strand u) o n, (s1.strand u).spoiledAt o n) s1 :=
  (run_bind_ok hp).trans ((run_bind_ok hch).trans (run_bind_ok haw))

/-- Nor does a load of plain allotment that no watch meets. -/
theorem loadBytes_spad {s s1 : State} {va : Word} {n scope u o : Nat} {deliver again : Bool}
    (hp : answers (resolve .load va n) s (.spad u o) s1) (hch : answers (checkChannel va n) s1 () s1)
    (haw : answers (awaitPlace (.spad u o) va n) s1 () s1) (hw : watchHit s.me .load va n = none) :
    loadBytes va n deliver scope again s = .ok (allotBytes (s1.strand u) o n, (s1.strand u).spoiledAt o n) s1 := by
  unfold loadBytes
  rw [run_bind_ok (run_me s), run_bind_ok (readBytes_spad hp hch haw), hw]
  rfl

/-- A strand whose allotment is one word, poisoned by an uncorrected error. -/
def spoiledScratchpad : State :=
  { State.reset with strands := [(0, { Strand.blank with allotSize := 4, spoiled := [(0, true)] })] }

/-- The address of that word in the aperture leads to it. -/
theorem resolve_spoiledScratchpad :
    answers (resolve .load 0x7FF000000000 4) spoiledScratchpad (.spad 0 0) spoiledScratchpad := by
  have hoffset : apertureOffset 0x7FF000000000 = some 0 := by decide
  unfold answers resolve
  rw [run_bind_ok (run_get _), hoffset]
  rfl

end Sys2Proof.Machine

open Sys2Proof.Machine

/-- Refutes O6: a load of a poisoned word of the scratchpad takes no trap of cause 11; in the model it answers the word. -/
theorem not_stores : ¬ Obligations.Stores := by
  unfold Obligations.Stores
  rintro ⟨-, -, -, hreads, -⟩
  obtain ⟨-, hpoison, -⟩ := hreads spoiledScratchpad spoiledScratchpad 0x7FF000000000 4 0 false (.spad 0 0)
  obtain ⟨hspad, -⟩ := hpoison resolve_spoiledScratchpad rfl rfl
  obtain ⟨e, htrap⟩ := hspad 0 0 rfl rfl
  have hload := loadBytes_spad (scope := 0) (deliver := false) (again := false) resolve_spoiledScratchpad rfl rfl rfl
  exact nomatch hload.symm.trans htrap

end

section
/-! How a firmware form runs: its checks, its completion, and the stops that are taken as they are. -/

namespace Sys2Proof.Machine

variable {s : State}

theorem run_readReg (r : BitVec 6) (s : State) : readReg r s = .ok (s.me.reg r.toNat) s := rfl

theorem run_writeReg (r : BitVec 6) (v : Word) (s : State) :
    writeReg r v s = .ok () (s.updMe fun t => t.setReg r.toNat v) := rfl

theorem Strand.setReg_pc (t : Strand) (r : Nat) (v : Word) : (t.setReg r v).pc = t.pc :=
  Strand.pc_of_sansScalar (Strand.setReg_sansScalar t r v)

/-- Writing a register moves no program counter. -/
theorem pc_updMe_setReg (s : State) (r : Nat) (v : Word) (u : Nat) :
    ((s.updMe fun t => t.setReg r v).strand u).pc = (s.strand u).pc :=
  State.updStrand_keeps Strand.pc s s.cur _ (fun t => t.setReg_pc r v) u

/-- A trap that is neither the class-missing trap nor the effect of its instruction is taken as it is. -/
theorem stopTrap_eq_takeTrap {f : Form} {x : Trap} {part : Bool} (h3 : x.cause ≠ 3) (he : x.isEffect = false) :
    stopTrap f s x part = takeTrap s s.cur x false part := by
  simp [stopTrap, h3, he]

/-- An effect that stops with such a trap is undone, and the trap taken (R46). -/
theorem insn_takesTrap {f : Form} {x : Trap} {body : M Flow} {e : State} (hc : f.check s = none)
    (hb : body s = .error (.trap x) e) (h3 : x.cause ≠ 3) (h13 : x.cause ≠ 13) (he : x.isEffect = false) :
    insn f body s = .next (takeTrap s s.cur x false false) := by
  rw [insn_trap hc hb, Form.firstStuck_of_ne fun h => h13 h.1, stopTrap_eq_takeTrap h3 he]

/-- An effect that parks with progress made leaves that progress (R148, R195, R204). -/
theorem insn_parkAt {f : Form} {body : M Flow} {e : State} {w : Wait} (hc : f.check s = none)
    (hb : body s = .error (.parkAt w) e) : insn f body s = .next (park e s.cur w) := by
  simp only [insn, hc, hb]

/-- Fields that name registers are admitted. -/
theorem admitted_regs {rs : List (BitVec 6)} (h : ∀ r ∈ rs, r.toNat < 32) : admitted s (rs.map .reg) := by
  intro o ho
  obtain ⟨r, hr, rfl⟩ := List.mem_map.mp ho
  exact ⟨if_pos (h r hr), rfl⟩

/-- The form of a firmware instruction whose fields are register-only. -/
def firmwareForm (w : InstrWord) (rs : List (BitVec 6)) : Form := { word := w, firmware := true, ops := rs.map .reg }

/-- Such a form passes its checks at firmware level, on every core. -/
theorem check_firmwareForm {w : InstrWord} {rs : List (BitVec 6)} (hfw : s.me.firmware = true)
    (h : ∀ r ∈ rs, r.toNat < 32) : (firmwareForm w rs).check s = none :=
  (Form.check_none _ s).mpr ⟨rfl, fun _ => hfw, admitted_regs h, nofun, onClass_all s⟩

/-- At user level such a form takes the privilege trap (R44). -/
theorem firmwareForm_privilege {i : Instr} {rs : List (BitVec 6)} {body : M Flow}
    (hx : exec i s = insn (firmwareForm (encode i) rs) body s) (hu : s.me.firmware = false) :
    exec i s = .next (takeTrap s s.cur ⟨4, 0, (encode i).setWidth 64⟩ false false) := by
  have hc : (firmwareForm (encode i) rs).check s = some ⟨4, 0, (encode i).setWidth 64⟩ := by
    simp [Form.check, firmwareForm, hu]
  rw [hx, insn_check hc, stopTrap_eq_takeTrap (by simp) rfl]

/-- Such a form completes where its effect ends in a write of register d. -/
theorem firmwareForm_completes {i : Instr} {w : InstrWord} {rs : List (BitVec 6)} {body : M Flow} {e : State} {d : BitVec 6}
    {v : Word} (hx : exec i s = insn (firmwareForm w rs) body s) (hfw : s.me.firmware = true) (hr : ∀ r ∈ rs, r.toNat < 32)
    (hb : body s = .ok .seq (e.updMe fun t => t.setReg d.toNat v)) :
    completesWith i s (e.updMe fun t => t.setReg d.toNat v) ((e.strand s.cur).pc + 4) := by
  have hpc := pc_updMe_setReg e d.toNat v s.cur
  exact insn_completes hx (check_firmwareForm hfw hr) hb (.inl ⟨rfl, by rw [hpc]⟩)

/-- At firmware level nothing of a completed instruction is counted (R438): one that has set its strand's state itself leaves that. -/
theorem complete_stay {f : Form} {e : State} (hfw : s.me.firmware = true) : complete f s .stay e = e := by
  simp [complete, hfw]

end Sys2Proof.Machine
end

section
/-! The effects of WFI, TLBINV, CTXSV and CTXLD, a lemma for each way that they go (R381-R385). -/

namespace Sys2Proof.Machine

variable {s : State} {d a b : BitVec 6}

theorem wfiOp_pending (h : s.module.events ≠ 0) : wfiOp d s =
    .ok .seq ((s.updModule fun k => { k with events := 0 }).updMe fun t => t.setReg d.toNat s.module.events) := by
  unfold wfiOp
  rw [run_bind_ok (run_get s)]
  simp only [if_neg h]
  rfl

theorem wfiOp_idle (h : s.module.events = 0) : wfiOp d s = .error (.park .event) s := by
  unfold wfiOp
  rw [run_bind_ok (run_get s)]
  simp only [if_pos h]
  rfl

/-- A shootdown that has been started is under way, under the next number of its base die (R215). -/
theorem startShootdown_spec {die ctx n : Nat} {all global : Bool} {va : Word} {s1 : State}
    (h : startShootdown s die all global ctx va = (n, s1)) : n = (s.die die).shootSeq ∧ shooting s1 die n = true := by
  cases h
  refine ⟨rfl, ?_⟩
  unfold shooting
  rw [State.updDie_die, if_pos rfl]
  simp

theorem tlbinvOp_parks {n : Nat} {s1 : State}
    (h : startShootdown s (dieOf s s.me.core) ((s.me.reg b.toNat).getLsbD 16) ((s.me.reg b.toNat).getLsbD 17)
      ((s.me.reg b.toNat).extractLsb' 0 12).toNat (s.me.reg a.toNat) = (n, s1)) :
    tlbinvOp d a b s = .error (.parkAt (.shootdown (dieOf s s.me.core) n d.toNat (BitVec.ofNat 64 n))) s1 := by
  unfold tlbinvOp
  rw [run_bind_ok (run_readReg a s), run_bind_ok (run_readReg b s), run_bind_ok (run_get s)]
  simp only [h]
  rfl

/-- The unit that CTXSV names by core and slot (R384). -/
def ctxsvTarget (s : State) (a : BitVec 6) : Option Nat :=
  s.atSlot ((s.me.reg a.toNat).extractLsb' 0 14).toNat ((s.me.reg a.toNat).extractLsb' 16 4).toNat

theorem ctxsvOp_empty (h : ctxsvTarget s a = none) : ctxsvOp d a s = .ok .seq (s.updMe fun t => t.setReg d.toNat 0) := by
  unfold ctxsvTarget at h
  unfold ctxsvOp
  rw [run_bind_ok (run_readReg a s), run_bind_ok (run_get s), h]
  rfl

section
variable {v : Nat} (h : ctxsvTarget s a = some v)
include h

theorem ctxsvOp_refused (hp : (s.unit v).all (fun m => preemptible s m) = false) :
    ctxsvOp d a s = .ok .seq (s.updMe fun t => t.setReg d.toNat 0) := by
  unfold ctxsvTarget at h
  unfold ctxsvOp
  rw [run_bind_ok (run_readReg a s), run_bind_ok (run_get s), h]
  simp only [hp]
  rfl

variable (hp : (s.unit v).all (fun m => preemptible s m) = true)
include hp

theorem ctxsvOp_other (hc : s.cur ∉ s.unit v) :
    ctxsvOp d a s = .error (.parkAt (.save v d.toNat)) (beginPreempt s (s.unit v) (some (s.cur, d.toNat))) := by
  unfold ctxsvTarget at h
  unfold ctxsvOp
  rw [run_bind_ok (run_readReg a s), run_bind_ok (run_get s), h]
  simp only [hp, List.contains_eq_mem, hc]
  rfl

theorem ctxsvOp_own (hc : s.cur ∈ s.unit v) :
    ctxsvOp d a s = .ok .stay (beginPreempt (s.updMe fun t => { t with pc := t.pc + 4 }) (s.unit v) none) := by
  unfold ctxsvTarget at h
  unfold ctxsvOp
  rw [run_bind_ok (run_readReg a s), run_bind_ok (run_get s), h]
  simp only [hp, List.contains_eq_mem, hc]
  rfl

end

/-- CTXLD reads its operands, and goes by what the save area's header says (R385). -/
theorem ctxldOp_unsound (h : saveCheck s (s.me.reg a.toNat) = 3) :
    ctxldOp d a b s = .ok .seq (s.updMe fun t => t.setReg d.toNat 3) := by
  unfold ctxldOp
  rw [run_bind_ok (run_readReg a s), run_bind_ok (run_readReg b s), run_bind_ok (run_get s)]
  simp only [h]
  rfl

theorem ctxldOp_unreadable (h : saveCheck s (s.me.reg a.toNat) = 2) :
    ctxldOp d a b s = .ok .seq ((loseSaved s (s.me.reg a.toNat)).updMe fun t => t.setReg d.toNat 2) := by
  unfold ctxldOp
  rw [run_bind_ok (run_readReg a s), run_bind_ok (run_readReg b s), run_bind_ok (run_get s)]
  simp only [h]
  rfl

section
variable (h : saveCheck s (s.me.reg a.toNat) = 0)
include h

theorem ctxldOp_unsaved (hx : savedAt s (s.me.reg a.toNat) = none) :
    ctxldOp d a b s = .ok .seq (s.updMe fun t => t.setReg d.toNat 3) := by
  unfold ctxldOp
  rw [run_bind_ok (run_readReg a s), run_bind_ok (run_readReg b s), run_bind_ok (run_get s)]
  simp only [h, hx]
  rfl

variable {x : SavedUnit} {core : Nat} (hx : savedAt s (s.me.reg a.toNat) = some x)
  (hcore : core = ((s.me.reg b.toNat).extractLsb' 0 14).toNat)
include hx hcore

theorem ctxldOp_restores
    (hroom : core < 4 * coresPerDie s.module.blend ∧ hasRoom s core x.members x.members.length = true) :
    ctxldOp d a b s = .ok .seq ((restoreUnit s x core ((s.me.reg b.toNat).extractLsb' 16 7).toNat
      (s.me.reg a.toNat)).updMe fun t => t.setReg d.toNat 1) := by
  subst hcore
  unfold ctxldOp
  rw [run_bind_ok (run_readReg a s), run_bind_ok (run_readReg b s), run_bind_ok (run_get s)]
  simp only [h, hx, hroom.1, hroom.2]
  rfl

theorem ctxldOp_full
    (hroom : ¬(core < 4 * coresPerDie s.module.blend ∧ hasRoom s core x.members x.members.length = true)) :
    ctxldOp d a b s = .ok .seq (s.updMe fun t => t.setReg d.toNat 0) := by
  subst hcore
  have hroom' : ¬(decide (((s.me.reg b.toNat).extractLsb' 0 14).toNat < 4 * coresPerDie s.module.blend) &&
      hasRoom s ((s.me.reg b.toNat).extractLsb' 0 14).toNat x.members x.members.length) = true := by simpa using hroom
  unfold ctxldOp
  rw [run_bind_ok (run_readReg a s), run_bind_ok (run_readReg b s), run_bind_ok (run_get s)]
  simp only [h, hx, if_neg hroom']
  rfl

end

end Sys2Proof.Machine
end

section
/-! LNPURGE (R252, R383): dropping the copies of a line moves no strand and no byte of memory. -/

namespace Sys2Proof.Machine

/-- The executing strand, every program counter and physical memory are as before. -/
structure KeepsFlow (s s' : State) : Prop where
  cur : s'.cur = s.cur
  pc : ∀ u, (s'.strand u).pc = (s.strand u).pc
  mem : s'.mem = s.mem

theorem KeepsFlow.refl (s : State) : KeepsFlow s s := ⟨rfl, fun _ => rfl, rfl⟩

theorem KeepsFlow.trans {s s1 s2 : State} (h : KeepsFlow s s1) (g : KeepsFlow s1 s2) : KeepsFlow s s2 :=
  ⟨g.cur.trans h.cur, fun u => (g.pc u).trans (h.pc u), g.mem.trans h.mem⟩

theorem KeepsFlow.foldl {α : Type} {f : State → α → State} (hf : ∀ s x, KeepsFlow s (f s x)) (l : List α) (s : State) :
    KeepsFlow s (l.foldl f s) := by
  induction l generalizing s with
  | nil => exact .refl s
  | cons x l ih => exact (hf s x).trans (ih (f s x))

theorem coreDrop_keepsFlow (s : State) (core line : Nat) : KeepsFlow s (coreDrop s core line) := by
  have hwindows : ∀ (s : State) (x : Nat × Nat × Nat), KeepsFlow s
      (s.updStrand x.1 fun t => t.updWindow x.2.1 fun w => w.setLine x.2.2 0 0) := fun s x =>
    ⟨rfl, State.updStrand_keeps Strand.pc s x.1 _ fun _ => rfl, rfl⟩
  have hcopies : KeepsFlow s (unpin (s.setCopy core line Copy.none) core line) := ⟨rfl, fun _ => rfl, rfl⟩
  exact hcopies.trans (.foldl hwindows _ _)

theorem dropTracked_keepsFlow (s : State) (line : Nat) : KeepsFlow s (dropTracked s line) := by
  unfold dropTracked
  extract_lets s1
  have hs1 : KeepsFlow s s1 := ⟨rfl, fun _ => rfl, rfl⟩
  refine hs1.trans (.foldl (fun s a => ?_) _ s1)
  split
  · exact coreDrop_keepsFlow s a line
  · split
    · exact (KeepsFlow.foldl (fun s c => coreDrop_keepsFlow s c line) _ s).trans ⟨rfl, fun _ => rfl, rfl⟩
    · exact .refl s

/-- Zeros stored over a range, and nothing else changed. -/
theorem memByte_memStore_zeros (m : List Host.Cell) (a n x : Nat) :
    memByte (memStore m a (List.replicate n 0)) x = if a ≤ x ∧ x < a + n then 0 else memByte m x := by
  split
  · next h =>
    have hin := memByte_memStore_in (List.replicate n 0) m a (x - a) (by simp; omega)
    rwa [Nat.add_sub_cancel' h.1, List.getElem_replicate] at hin
  · next h => exact memByte_memStore_out _ _ _ _ (by simp; omega)

/-- The state after the line of an address has been purged. -/
def purged (s : State) (pa : Nat) : State :=
  let s := (dropTracked s (pa / 128)).updLine (pa / 128) fun k => { k with code := 0, sharers := [], key := 0 }
  { s with mem := memStore s.mem pa (List.replicate 128 0) }

theorem purged_strands (s : State) (pa : Nat) : (purged s pa).strands = (dropTracked s (pa / 128)).strands := by
  unfold purged
  dsimp only [State.updLine_strands]

theorem purged_lines (s : State) (pa : Nat) : (purged s pa).lines = Tab.set Line.blank (dropTracked s (pa / 128)).lines
    (pa / 128) { (dropTracked s (pa / 128)).line (pa / 128) with code := 0, sharers := [], key := 0 } := by
  unfold purged
  dsimp only [State.updLine_lines]

theorem purged_pc (s : State) (pa u : Nat) : ((purged s pa).strand u).pc = (s.strand u).pc := by
  rw [State.strand, purged_strands]
  exact (dropTracked_keepsFlow s (pa / 128)).pc u

theorem purged_line (s : State) (pa : Nat) :
    ((purged s pa).line (pa / 128)).code = 0 ∧ ((purged s pa).line (pa / 128)).sharers = [] := by
  rw [State.line, purged_lines, Tab.get_set_self]
  exact ⟨rfl, rfl⟩

theorem purged_mem (s : State) (pa x : Nat) :
    memByte (purged s pa).mem x = if pa ≤ x ∧ x < pa + 128 then 0 else memByte s.mem x := by
  unfold purged
  dsimp only [State.updLine_mem]
  rw [(dropTracked_keepsFlow s (pa / 128)).mem]
  exact memByte_memStore_zeros ..

section
variable {s : State} {d a : BitVec 6} {pa : Nat} (hpa : pa = (s.me.reg a.toNat).toNat / 128 * 128)
include hpa

theorem lnpurgeOp_nowhere (h : 2 ^ 52 ≤ pa ∨ hasMemory s pa = false) :
    lnpurgeOp d a s = .ok .seq (s.updMe fun t => t.setReg d.toNat 0) := by
  subst hpa
  unfold lnpurgeOp
  rw [run_bind_ok (run_readReg a s)]
  refine (run_bind_ok (run_get s)).trans ?_
  rw [if_pos (by simpa using h)]
  rfl

variable (hlt : pa < 2 ^ 52) (hm : hasMemory s pa = true)
include hlt hm

theorem lnpurgeOp_fenced (hr : reachable s pa = false) : stops (lnpurgeOp d a) s ⟨11, 0, BitVec.ofNat 64 pa⟩ := by
  subst hpa
  refine ⟨s, ?_⟩
  unfold lnpurgeOp
  rw [run_bind_ok (run_readReg a s)]
  refine (run_bind_ok (run_get s)).trans ?_
  rw [if_neg (by simpa [hm] using hlt)]
  simp only [hr]
  rfl

theorem lnpurgeOp_purges (hr : reachable s pa = true) :
    lnpurgeOp d a s = .ok .seq ((purged s pa).updMe fun t => t.setReg d.toNat 1) := by
  subst hpa
  unfold lnpurgeOp
  rw [run_bind_ok (run_readReg a s)]
  refine (run_bind_ok (run_get s)).trans ?_
  rw [if_neg (by simpa [hm] using hlt)]
  simp only [hr]
  rfl

end

end Sys2Proof.Machine
end

section
/-! WFI, TLBINV, CTXSV, CTXLD and LNPURGE at firmware level and at user level. -/

namespace Sys2Proof.Machine

variable {s : State} {d a b : BitVec 6}

/-- At user level each takes the privilege trap. -/
theorem firmware_privilege (hu : s.me.firmware = false) :
    exec (.wfi d) s = .next (takeTrap s s.cur ⟨4, 0, (encode (.wfi d)).setWidth 64⟩ false false) ∧
    exec (.tlbinv d a b) s = .next (takeTrap s s.cur ⟨4, 0, (encode (.tlbinv d a b)).setWidth 64⟩ false false) ∧
    exec (.ctxsv d a) s = .next (takeTrap s s.cur ⟨4, 0, (encode (.ctxsv d a)).setWidth 64⟩ false false) ∧
    exec (.ctxld d a b) s = .next (takeTrap s s.cur ⟨4, 0, (encode (.ctxld d a b)).setWidth 64⟩ false false) ∧
    exec (.lnpurge d a) s = .next (takeTrap s s.cur ⟨4, 0, (encode (.lnpurge d a)).setWidth 64⟩ false false) :=
  ⟨firmwareForm_privilege (rs := [d]) (body := wfiOp d) rfl hu,
    firmwareForm_privilege (rs := [d, a, b]) (body := tlbinvOp d a b) rfl hu,
    firmwareForm_privilege (rs := [d, a]) (body := ctxsvOp d a) rfl hu,
    firmwareForm_privilege (rs := [d, a, b]) (body := ctxldOp d a b) rfl hu,
    firmwareForm_privilege (rs := [d, a]) (body := lnpurgeOp d a) rfl hu⟩

section
variable (hfw : s.me.firmware = true) (hd : d.toNat < 32)
include hfw hd

theorem wfi_completes (h : s.module.events ≠ 0) : completesWith (.wfi d) s
    ((s.updModule fun k => { k with events := 0 }).updMe fun t => t.setReg d.toNat s.module.events) (s.me.pc + 4) :=
  firmwareForm_completes (rs := [d]) rfl hfw (by simpa using hd) (wfiOp_pending h)

theorem wfi_parks (h : s.module.events = 0) : exec (.wfi d) s = .next (park s s.cur .event) :=
  insn_park (check_firmwareForm (rs := [d]) hfw (by simpa using hd)) (wfiOp_idle h)

variable (ha : a.toNat < 32)
include ha

theorem ctxsv_outcomes (u : Option Nat) (hu : u = ctxsvTarget s a) :
    (u = none → completesWith (.ctxsv d a) s (s.updMe fun t => t.setReg d.toNat 0) (s.me.pc + 4)) ∧
    (∀ v, u = some v → (s.unit v).all (fun m => preemptible s m) = false →
      completesWith (.ctxsv d a) s (s.updMe fun t => t.setReg d.toNat 0) (s.me.pc + 4)) ∧
    (∀ v, u = some v → (s.unit v).all (fun m => preemptible s m) = true → s.cur ∉ s.unit v →
      exec (.ctxsv d a) s =
        .next (park (beginPreempt s (s.unit v) (some (s.cur, d.toNat))) s.cur (.save v d.toNat))) ∧
    (∀ v, u = some v → (s.unit v).all (fun m => preemptible s m) = true → s.cur ∈ s.unit v →
      exec (.ctxsv d a) s = .next (beginPreempt (s.updMe fun t => { t with pc := t.pc + 4 }) (s.unit v) none)) := by
  subst hu
  have hregs : ∀ r ∈ [d, a], r.toNat < 32 := by simp [hd, ha]
  refine ⟨fun h => ?_, fun v h hp => ?_, fun v h hp hc => ?_, fun v h hp hc => ?_⟩
  · exact firmwareForm_completes rfl hfw hregs (ctxsvOp_empty h)
  · exact firmwareForm_completes rfl hfw hregs (ctxsvOp_refused h hp)
  · exact insn_parkAt (check_firmwareForm hfw hregs) (ctxsvOp_other h hp hc)
  · have hrun := insn_ok (check_firmwareForm (w := fr 37#6 d a 0#6 5#5 0#2 0#1) hfw hregs) (ctxsvOp_own (d := d) h hp hc)
    rw [complete_stay hfw] at hrun
    exact hrun

theorem lnpurge_outcomes (pa : Nat) (hpa : pa = (s.me.reg a.toNat).toNat / 128 * 128) :
    (2 ^ 52 ≤ pa ∨ hasMemory s pa = false →
      completesWith (.lnpurge d a) s (s.updMe fun t => t.setReg d.toNat 0) (s.me.pc + 4)) ∧
    (pa < 2 ^ 52 → hasMemory s pa = true → reachable s pa = false →
      exec (.lnpurge d a) s = .next (takeTrap s s.cur ⟨11, 0, BitVec.ofNat 64 pa⟩ false false)) ∧
    (pa < 2 ^ 52 → hasMemory s pa = true → reachable s pa = true → ∃ e, completesWith (.lnpurge d a) s e (s.me.pc + 4) ∧
      (d ≠ 0 → e.me.reg d.toNat = 1) ∧ (e.line (pa / 128)).code = 0 ∧ (e.line (pa / 128)).sharers = [] ∧
      ∀ x, memByte e.mem x = if pa ≤ x ∧ x < pa + 128 then 0 else memByte s.mem x) := by
  have hregs : ∀ r ∈ [d, a], r.toNat < 32 := by simp [hd, ha]
  refine ⟨fun h => ?_, fun hlt hm hr => ?_, fun hlt hm hr => ?_⟩
  · exact firmwareForm_completes rfl hfw hregs (lnpurgeOp_nowhere hpa h)
  · obtain ⟨e, h⟩ := lnpurgeOp_fenced (d := d) hpa hlt hm hr
    exact insn_takesTrap (check_firmwareForm hfw hregs) h (by simp) (by simp) rfl
  · have hdone := firmwareForm_completes (i := .lnpurge d a) rfl hfw hregs (lnpurgeOp_purges hpa hlt hm hr)
    rw [purged_pc] at hdone
    obtain ⟨hcode, hsharers⟩ := purged_line s pa
    refine ⟨_, hdone, fun hd0 => ?_, ?_, ?_, fun x => ?_⟩
    · have hd0' : d.toNat ≠ 0 := fun h => hd0 (BitVec.eq_of_toNat_eq h)
      rw [State.updMe_me, Strand.reg_setReg, if_pos ⟨rfl, hd0'⟩]
    · rw [State.updMe_line, hcode]
    · rw [State.updMe_line, hsharers]
    · rw [State.updMe_mem, purged_mem]

variable (hb : b.toNat < 32)
include hb

theorem tlbinv_outcome {n : Nat} {s1 : State}
    (h : startShootdown s (dieOf s s.me.core) ((s.me.reg b.toNat).getLsbD 16) ((s.me.reg b.toNat).getLsbD 17)
      ((s.me.reg b.toNat).extractLsb' 0 12).toNat (s.me.reg a.toNat) = (n, s1)) :
    n = (s.die (dieOf s s.me.core)).shootSeq ∧ shooting s1 (dieOf s s.me.core) n = true ∧
      exec (.tlbinv d a b) s = .next (park s1 s.cur (.shootdown (dieOf s s.me.core) n d.toNat (BitVec.ofNat 64 n))) := by
  have hregs : ∀ r ∈ [d, a, b], r.toNat < 32 := by simp [hd, ha, hb]
  obtain ⟨hseq, hunder⟩ := startShootdown_spec h
  exact ⟨hseq, hunder, insn_parkAt (check_firmwareForm hfw hregs) (tlbinvOp_parks h)⟩

/-- CTXLD completes with the value that it writes to d, in the state that it leaves. -/
theorem ctxld_completes {e : State} {v : Word} (h : ctxldOp d a b s = .ok .seq (e.updMe fun t => t.setReg d.toNat v)) :
    completesWith (.ctxld d a b) s (e.updMe fun t => t.setReg d.toNat v) ((e.strand s.cur).pc + 4) :=
  firmwareForm_completes (rs := [d, a, b]) rfl hfw (by simp [hd, ha, hb]) h

end

end Sys2Proof.Machine

open Sys2Proof.Machine

/-- Settles O34: each instruction is run on the branches of its effect, and the checks before it pass at firmware level alone. -/
theorem firmwareInstructions : Obligations.FirmwareInstructions := by
  unfold Obligations.FirmwareInstructions
  refine ⟨fun s d a b hfw hd ha hb => ?_, fun s d a b hu => firmware_privilege hu⟩
  refine ⟨wfi_completes hfw hd, wfi_parks hfw hd, fun n s1 => tlbinv_outcome hfw hd ha hb, ctxsv_outcomes hfw hd ha,
    ?unsound, ?unsaved, ?unreadable, ?saved, lnpurge_outcomes hfw hd ha⟩
  case unsound => exact fun h => ctxld_completes hfw hd ha hb (ctxldOp_unsound h)
  case unsaved => exact fun h hx => ctxld_completes hfw hd ha hb (ctxldOp_unsaved h hx)
  case unreadable =>
    rintro h l rfl -
    exact ctxld_completes hfw hd ha hb (ctxldOp_unreadable h)
  case saved =>
    intro x core h hx hcore
    refine ⟨fun hlt hroom r hr _ => ?_, fun hroom => ?_⟩
    · subst hr
      exact ctxld_completes hfw hd ha hb (ctxldOp_restores h hx hcore ⟨hlt, hroom⟩)
    · exact ctxld_completes hfw hd ha hb (ctxldOp_full h hx hcore hroom)

end

section
/-! The decoder and the encoder undo each other (R28, R30, R38).

A word is an instruction's exactly when its fields are those that the instruction's format puts there: one lemma for each of the
nine
formats, in both directions. Where a field is itself put together of smaller ones, it splits once more. -/

namespace Sys2Proof

/-- A part of a word is two parts put together where its upper and its lower bits are these. -/
theorem extract_eq_append_iff {v n m : Nat} (w : BitVec v) (k : Nat) (hi : BitVec n) (lo : BitVec m) :
    w.extractLsb' k (n + m) = hi ++ lo ↔ w.extractLsb' (k + m) n = hi ∧ w.extractLsb' k m = lo := by
  rw [← BitVec.extractLsb'_append_extractLsb'_eq_extractLsb' rfl]
  constructor
  · intro h
    exact ⟨by simpa only [BitVec.extractLsb'_append_eq_left] using congrArg (BitVec.extractLsb' m n) h,
      by simpa only [BitVec.extractLsb'_append_eq_right] using congrArg (BitVec.extractLsb' 0 m) h⟩
  · rintro ⟨rfl, rfl⟩
    rfl

/-- A number of the low bits names the bits. -/
theorem eq_ofNat_of_toNat {n k : Nat} {x : BitVec n} (h : x.toNat = k) : x = BitVec.ofNat n k := by
  rw [← h, BitVec.ofNat_toNat, BitVec.setWidth_eq]

/-! Fields that are put together of smaller ones. -/

theorem extract2_eq_iff_1_1 {v : Nat} (w : BitVec v) (k : Nat) (hi : BitVec 1) (lo : BitVec 1) :
    w.extractLsb' k 2 = hi ++ lo ↔ w.extractLsb' (k + 1) 1 = hi ∧ w.extractLsb' k 1 = lo :=
  extract_eq_append_iff w k hi lo

theorem extract6_eq_iff_5_1 {v : Nat} (w : BitVec v) (k : Nat) (hi : BitVec 5) (lo : BitVec 1) :
    w.extractLsb' k 6 = hi ++ lo ↔ w.extractLsb' (k + 1) 5 = hi ∧ w.extractLsb' k 1 = lo :=
  extract_eq_append_iff w k hi lo

theorem extract6_eq_iff_4_2 {v : Nat} (w : BitVec v) (k : Nat) (hi : BitVec 4) (lo : BitVec 2) :
    w.extractLsb' k 6 = hi ++ lo ↔ w.extractLsb' (k + 2) 4 = hi ∧ w.extractLsb' k 2 = lo :=
  extract_eq_append_iff w k hi lo

theorem extract6_eq_iff_3_3 {v : Nat} (w : BitVec v) (k : Nat) (hi : BitVec 3) (lo : BitVec 3) :
    w.extractLsb' k 6 = hi ++ lo ↔ w.extractLsb' (k + 3) 3 = hi ∧ w.extractLsb' k 3 = lo :=
  extract_eq_append_iff w k hi lo

theorem extract6_eq_iff_2_4 {v : Nat} (w : BitVec v) (k : Nat) (hi : BitVec 2) (lo : BitVec 4) :
    w.extractLsb' k 6 = hi ++ lo ↔ w.extractLsb' (k + 4) 2 = hi ∧ w.extractLsb' k 4 = lo :=
  extract_eq_append_iff w k hi lo

theorem extract6_eq_iff_3_1_2 {v : Nat} (w : BitVec v) (k : Nat) (hi : BitVec 3) (mid : BitVec 1) (lo : BitVec 2) :
    w.extractLsb' k 6 = hi ++ mid ++ lo ↔
      w.extractLsb' (k + 3) 3 = hi ∧ w.extractLsb' (k + 2) 1 = mid ∧ w.extractLsb' k 2 = lo :=
  (extract6_eq_iff_4_2 w k (hi ++ mid) lo).trans (by rw [extract_eq_append_iff (n := 3) (m := 1), and_assoc])

theorem extract12_eq_iff {v : Nat} (w : BitVec v) (k : Nat) (x : BitVec 12) :
    w.extractLsb' k 12 = x ↔ w.extractLsb' (k + 6) 6 = x.extractLsb' 6 6 ∧ w.extractLsb' k 6 = x.extractLsb' 0 6 := by
  have hx : x = x.extractLsb' 6 6 ++ x.extractLsb' 0 6 := (BitVec.extractLsb'_append_extractLsb' (w := 6) (len := 6) (x := x)).symm
  conv_lhs => rw [hx]
  exact extract_eq_append_iff (n := 6) (m := 6) w k _ _

/-! The nine formats (R30). -/

theorem fr_eq_iff (w : InstrWord) (op d a b : BitVec 6) (fn : BitVec 5) (ty : BitVec 2) (s : BitVec 1) :
    fr op d a b fn ty s = w ↔ w.extractLsb' 26 6 = op ∧ w.extractLsb' 20 6 = d ∧ w.extractLsb' 14 6 = a ∧
      w.extractLsb' 8 6 = b ∧ w.extractLsb' 3 5 = fn ∧ w.extractLsb' 1 2 = ty ∧ w.extractLsb' 0 1 = s := by
  have hw : w.extractLsb' 0 (6 + 6 + 6 + 6 + 5 + 2 + 1) = w := BitVec.extractLsb'_eq_self
  rw [eq_comm, ← hw]
  unfold fr
  rw [extract_eq_append_iff, extract_eq_append_iff, extract_eq_append_iff, extract_eq_append_iff, extract_eq_append_iff,
    extract_eq_append_iff, hw]
  simp only [and_assoc, Nat.zero_add, Nat.reduceAdd]

theorem fi_eq_iff (w : InstrWord) (op d a : BitVec 6) (imm : BitVec 14) :
    fi op d a imm = w ↔ w.extractLsb' 26 6 = op ∧ w.extractLsb' 20 6 = d ∧ w.extractLsb' 14 6 = a ∧ w.extractLsb' 0 14 = imm := by
  have hw : w.extractLsb' 0 (6 + 6 + 6 + 14) = w := BitVec.extractLsb'_eq_self
  rw [eq_comm, ← hw]
  unfold fi
  rw [extract_eq_append_iff, extract_eq_append_iff, extract_eq_append_iff, hw]
  simp only [and_assoc, Nat.zero_add, Nat.reduceAdd]

theorem fu_eq_iff (w : InstrWord) (op d : BitVec 6) (imm : BitVec 20) :
    fu op d imm = w ↔ w.extractLsb' 26 6 = op ∧ w.extractLsb' 20 6 = d ∧ w.extractLsb' 0 20 = imm := by
  have hw : w.extractLsb' 0 (6 + 6 + 20) = w := BitVec.extractLsb'_eq_self
  rw [eq_comm, ← hw]
  unfold fu
  rw [extract_eq_append_iff, extract_eq_append_iff, hw]
  simp only [and_assoc, Nat.zero_add, Nat.reduceAdd]

theorem fb_eq_iff (w : InstrWord) (op a b : BitVec 6) (cond : BitVec 3) (off : BitVec 11) :
    fb op a b cond off = w ↔ w.extractLsb' 26 6 = op ∧ w.extractLsb' 20 6 = a ∧ w.extractLsb' 14 6 = b ∧
      w.extractLsb' 11 3 = cond ∧ w.extractLsb' 0 11 = off := by
  have hw : w.extractLsb' 0 (6 + 6 + 6 + 3 + 11) = w := BitVec.extractLsb'_eq_self
  rw [eq_comm, ← hw]
  unfold fb
  rw [extract_eq_append_iff, extract_eq_append_iff, extract_eq_append_iff, extract_eq_append_iff, hw]
  simp only [and_assoc, Nat.zero_add, Nat.reduceAdd]

theorem fm_eq_iff (w : InstrWord) (op d base off : BitVec 6) (wd st ord sc : BitVec 2) :
    fm op d base off wd st ord sc = w ↔ w.extractLsb' 26 6 = op ∧ w.extractLsb' 20 6 = d ∧ w.extractLsb' 14 6 = base ∧
      w.extractLsb' 8 6 = off ∧ w.extractLsb' 6 2 = wd ∧ w.extractLsb' 4 2 = st ∧ w.extractLsb' 2 2 = ord ∧
      w.extractLsb' 0 2 = sc := by
  have hw : w.extractLsb' 0 (6 + 6 + 6 + 6 + 2 + 2 + 2 + 2) = w := BitVec.extractLsb'_eq_self
  rw [eq_comm, ← hw]
  unfold fm
  rw [extract_eq_append_iff, extract_eq_append_iff, extract_eq_append_iff, extract_eq_append_iff, extract_eq_append_iff,
    extract_eq_append_iff, extract_eq_append_iff, hw]
  simp only [and_assoc, Nat.zero_add, Nat.reduceAdd]

theorem fv_eq_iff (w : InstrWord) (op d base i : BitVec 6) (mode : BitVec 3) (wd st : BitVec 2) (h : BitVec 1) :
    fv op d base i mode wd st h = w ↔ w.extractLsb' 26 6 = op ∧ w.extractLsb' 20 6 = d ∧ w.extractLsb' 14 6 = base ∧
      w.extractLsb' 8 6 = i ∧ w.extractLsb' 5 3 = mode ∧ w.extractLsb' 3 2 = wd ∧ w.extractLsb' 1 2 = st ∧
        w.extractLsb' 0 1 = h := by
  have hw : w.extractLsb' 0 (6 + 6 + 6 + 6 + 3 + 2 + 2 + 1) = w := BitVec.extractLsb'_eq_self
  rw [eq_comm, ← hw]
  unfold fv
  rw [extract_eq_append_iff, extract_eq_append_iff, extract_eq_append_iff, extract_eq_append_iff, extract_eq_append_iff,
    extract_eq_append_iff, extract_eq_append_iff, hw]
  simp only [and_assoc, Nat.zero_add, Nat.reduceAdd]

theorem fx_eq_iff (w : InstrWord) (op : BitVec 6) (t : BitVec 3) (a b : BitVec 6) (rep : BitVec 4) (form : BitVec 2)
    (ty : BitVec 3) (n z : BitVec 1) :
    fx op t a b rep form ty n z = w ↔ w.extractLsb' 26 6 = op ∧ w.extractLsb' 23 3 = t ∧ w.extractLsb' 17 6 = a ∧
      w.extractLsb' 11 6 = b ∧ w.extractLsb' 7 4 = rep ∧ w.extractLsb' 5 2 = form ∧ w.extractLsb' 2 3 = ty ∧
      w.extractLsb' 1 1 = n ∧ w.extractLsb' 0 1 = z := by
  have hw : w.extractLsb' 0 (6 + 3 + 6 + 6 + 4 + 2 + 3 + 1 + 1) = w := BitVec.extractLsb'_eq_self
  rw [eq_comm, ← hw]
  unfold fx
  rw [extract_eq_append_iff, extract_eq_append_iff, extract_eq_append_iff, extract_eq_append_iff, extract_eq_append_iff,
    extract_eq_append_iff, extract_eq_append_iff, extract_eq_append_iff, hw]
  simp only [and_assoc, Nat.zero_add, Nat.reduceAdd]

theorem fa_eq_iff (w : InstrWord) (op d base b : BitVec 6) (fn : BitVec 4) (ord sc : BitVec 2) :
    fa op d base b fn ord sc = w ↔ w.extractLsb' 26 6 = op ∧ w.extractLsb' 20 6 = d ∧ w.extractLsb' 14 6 = base ∧
      w.extractLsb' 8 6 = b ∧ w.extractLsb' 4 4 = fn ∧ w.extractLsb' 2 2 = ord ∧ w.extractLsb' 0 2 = sc := by
  have hw : w.extractLsb' 0 (6 + 6 + 6 + 6 + 4 + 2 + 2) = w := BitVec.extractLsb'_eq_self
  rw [eq_comm, ← hw]
  unfold fa
  rw [extract_eq_append_iff, extract_eq_append_iff, extract_eq_append_iff, extract_eq_append_iff, extract_eq_append_iff,
    extract_eq_append_iff, hw]
  simp only [and_assoc, Nat.zero_add, Nat.reduceAdd]

theorem fs_eq_iff (w : InstrWord) (op d a : BitVec 6) (csr : BitVec 12) (fn : BitVec 2) :
    fs op d a csr fn = w ↔ w.extractLsb' 26 6 = op ∧ w.extractLsb' 20 6 = d ∧ w.extractLsb' 14 6 = a ∧
      w.extractLsb' 2 12 = csr ∧ w.extractLsb' 0 2 = fn := by
  have hw : w.extractLsb' 0 (6 + 6 + 6 + 12 + 2) = w := BitVec.extractLsb'_eq_self
  rw [eq_comm, ← hw]
  unfold fs
  rw [extract_eq_append_iff, extract_eq_append_iff, extract_eq_append_iff, extract_eq_append_iff, hw]
  simp only [and_assoc, Nat.zero_add, Nat.reduceAdd]

/-! The rows of the opcode map. -/

/-- A row that decodes has passed its checks, and decodes to its instruction. -/
theorem row_ok_iff {ty res : Bool} {i j : Instr} :
    row ty res j = .ok i ↔ ty = true ∧ res = true ∧ j.wf = true ∧ j = i := by
  unfold row
  cases ty <;> cases res <;> cases j.wf <;> simp

theorem rowFm_ok_iff {i j : Instr} : rowFm j = .ok i ↔ j.wf = true ∧ j = i := by
  unfold rowFm
  cases j.wf <;> simp

theorem rowFx_ok_iff {res : Bool} {i j : Instr} : rowFx res j = .ok i ↔ res = true ∧ j.wf = true ∧ j = i := by
  unfold rowFx
  cases res <;> cases j.wf <;> simp

/-- The instruction has an encoding and is well-formed, and the word is its encoding. -/
def Encodes (i : Instr) (w : InstrWord) : Prop := i.encoded = true ∧ i.wf = true ∧ encode i = w

/-- A row encodes what it decodes, where the word is the encoding of its instruction. -/
theorem row_encodes {ty res : Bool} {i j : Instr} {w : InstrWord} (h : row ty res j = .ok i) (hj : j.encoded = true)
    (hw : ty = true → res = true → encode j = w) : Encodes i w := by
  obtain ⟨hty, hres, hwf, rfl⟩ := row_ok_iff.1 h
  exact ⟨hj, hwf, hw hty hres⟩

/-- A row in format FR encodes what it decodes, where its checks leave the fields that its instruction has. -/
theorem fr_row_encodes {ty res : Bool} {i j : Instr} {w : InstrWord} {op d a b : BitVec 6} {k : Nat} {t : BitVec 2} {s : BitVec 1}
    (h : row ty res j = .ok i) (hm : w.extractLsb' 26 6 = op) (hfn : (frFn w).toNat = k) (hj : j.encoded = true)
    (he : encode j = fr op d a b (BitVec.ofNat 5 k) t s)
    (hw : ty = true → res = true →
      w.extractLsb' 20 6 = d ∧ w.extractLsb' 14 6 = a ∧ w.extractLsb' 8 6 = b ∧ w.extractLsb' 1 2 = t ∧ w.extractLsb' 0 1 = s) :
    Encodes i w := by
  refine row_encodes h hj fun hty hres => he.trans ((fr_eq_iff _ _ _ _ _ _ _ _).2 ?_)
  obtain ⟨hd, ha, hb, ht, hs⟩ := hw hty hres
  exact ⟨hm, hd, ha, hb, eq_ofNat_of_toNat hfn, ht, hs⟩

/-! What a group of rows decodes is encoded as the word (R38). -/

theorem decodeAlu_encodes {w : InstrWord} {i : Instr} (hm : w.extractLsb' 26 6 = 1#6) (h : decodeAlu w = .ok i) :
    Encodes i w := by
  unfold decodeAlu at h
  split at h
  case h_33 => cases h
  all_goals exact fr_row_encodes h hm ‹_› rfl rfl (by simp +contextual [extract2_eq_iff_1_1])

theorem decodeBr_encodes {w : InstrWord} {i : Instr} (hm : w.extractLsb' 26 6 = 12#6) (h : decodeBr w = .ok i) :
    Encodes i w := by
  unfold decodeBr at h
  split at h
  case h_9 => cases h
  case h_7 | h_8 => exact row_encodes h rfl fun _ hres => (fb_eq_iff _ _ _ _ _ _).2 ⟨hm, rfl, eq_of_beq hres,
    eq_ofNat_of_toNat ‹_›, rfl⟩
  all_goals exact row_encodes h rfl fun _ _ => (fb_eq_iff _ _ _ _ _ _).2 ⟨hm, rfl, rfl, eq_ofNat_of_toNat ‹_›, rfl⟩

theorem decodeFps_encodes {w : InstrWord} {i : Instr} (hm : w.extractLsb' 26 6 = 16#6) (h : decodeFps w = .ok i) :
    Encodes i w := by
  unfold decodeFps at h
  split at h
  case h_20 => cases h
  all_goals exact fr_row_encodes h hm ‹_› rfl rfl (by simp +contextual [extract6_eq_iff_3_1_2, extract6_eq_iff_3_3])

theorem decodeCsr_encodes {w : InstrWord} {i : Instr} (hm : w.extractLsb' 26 6 = 17#6) (h : decodeCsr w = .ok i) :
    Encodes i w := by
  unfold decodeCsr at h
  split at h
  case h_5 => cases h
  case h_4 => exact row_encodes h rfl fun _ hres => (fs_eq_iff _ _ _ _ _ _).2 ⟨hm, rfl, eq_of_beq hres, rfl, eq_ofNat_of_toNat ‹_›⟩
  all_goals exact row_encodes h rfl fun _ _ => (fs_eq_iff _ _ _ _ _ _).2 ⟨hm, rfl, rfl, rfl, eq_ofNat_of_toNat ‹_›⟩

theorem decodeStr_encodes {w : InstrWord} {i : Instr} (hm : w.extractLsb' 26 6 = 18#6) (h : decodeStr w = .ok i) :
    Encodes i w := by
  unfold decodeStr at h
  split at h
  case h_11 => cases h
  all_goals exact fr_row_encodes h hm ‹_› rfl rfl (by simp +contextual [extract6_eq_iff_4_2])

theorem decodeQue_encodes {w : InstrWord} {i : Instr} (hm : w.extractLsb' 26 6 = 19#6) (h : decodeQue w = .ok i) :
    Encodes i w := by
  unfold decodeQue at h
  split at h
  case h_12 => cases h
  all_goals exact fr_row_encodes h hm ‹_› rfl rfl (by simp +contextual)

theorem decodeValu_encodes {w : InstrWord} {i : Instr} (hm : w.extractLsb' 26 6 = 20#6) (h : decodeValu w = .ok i) :
    Encodes i w := by
  unfold decodeValu at h
  split at h
  case h_26 => cases h
  all_goals exact fr_row_encodes h hm ‹_› rfl rfl (by simp +contextual)

theorem decodeVfp_encodes {w : InstrWord} {i : Instr} (hm : w.extractLsb' 26 6 = 21#6) (h : decodeVfp w = .ok i) :
    Encodes i w := by
  unfold decodeVfp at h
  split at h
  case h_20 => cases h
  all_goals exact fr_row_encodes h hm ‹_› rfl rfl (by simp +contextual [extract6_eq_iff_3_3])

theorem decodeVcmp_encodes {w : InstrWord} {i : Instr} (hm : w.extractLsb' 26 6 = 22#6) (h : decodeVcmp w = .ok i) :
    Encodes i w := by
  unfold decodeVcmp at h
  split at h
  case h_11 => cases h
  all_goals exact fr_row_encodes h hm ‹_› rfl rfl (by simp +contextual)

theorem decodePred_encodes {w : InstrWord} {i : Instr} (hm : w.extractLsb' 26 6 = 23#6) (h : decodePred w = .ok i) :
    Encodes i w := by
  unfold decodePred at h
  split at h
  case h_15 => cases h
  all_goals exact fr_row_encodes h hm ‹_› rfl rfl (by simp +contextual [extract6_eq_iff_4_2])

theorem decodeVperm_encodes {w : InstrWord} {i : Instr} (hm : w.extractLsb' 26 6 = 24#6) (h : decodeVperm w = .ok i) :
    Encodes i w := by
  unfold decodeVperm at h
  split at h
  case h_13 => cases h
  all_goals exact fr_row_encodes h hm ‹_› rfl rfl (by simp +contextual)

theorem decodeVld_encodes {w : InstrWord} {i : Instr} (hm : w.extractLsb' 26 6 = 25#6) (h : decodeVld w = .ok i) :
    Encodes i w := by
  unfold decodeVld at h
  split at h
  case h_6 => cases h
  case h_3 => exact row_encodes h rfl fun _ _ => (fv_eq_iff _ _ _ _ _ _ _ _ _).2 ⟨hm, rfl, rfl, rfl, eq_ofNat_of_toNat ‹_›, rfl,
    rfl, rfl⟩
  all_goals exact row_encodes h rfl fun _ hres => (fv_eq_iff _ _ _ _ _ _ _ _ _).2 ⟨hm, rfl, rfl, eq_of_beq hres,
    eq_ofNat_of_toNat ‹_›, rfl, rfl, rfl⟩

theorem decodeVst_encodes {w : InstrWord} {i : Instr} (hm : w.extractLsb' 26 6 = 26#6) (h : decodeVst w = .ok i) :
    Encodes i w := by
  unfold decodeVst at h
  split at h
  case h_5 => cases h
  case h_3 | h_4 => exact row_encodes h rfl fun _ _ => (fv_eq_iff _ _ _ _ _ _ _ _ _).2 ⟨hm, rfl, rfl, rfl, eq_ofNat_of_toNat ‹_›,
    rfl, rfl, rfl⟩
  all_goals exact row_encodes h rfl fun _ hres => (fv_eq_iff _ _ _ _ _ _ _ _ _).2 ⟨hm, rfl, rfl, eq_of_beq hres,
    eq_ofNat_of_toNat ‹_›, rfl, rfl, rfl⟩

theorem decodeVctl_encodes {w : InstrWord} {i : Instr} (hm : w.extractLsb' 26 6 = 27#6) (h : decodeVctl w = .ok i) :
    Encodes i w := by
  unfold decodeVctl at h
  split at h
  case h_9 => cases h
  case h_2 => exact fr_row_encodes h hm ‹_› rfl rfl (by simp +contextual [← extract12_eq_iff])
  all_goals exact fr_row_encodes h hm ‹_› rfl rfl (by simp +contextual [extract6_eq_iff_5_1])

theorem decodeTile_encodes {w : InstrWord} {i : Instr} (hm : w.extractLsb' 26 6 = 28#6) (h : decodeTile w = .ok i) :
    Encodes i w := by
  unfold decodeTile at h
  split at h
  case h_14 => cases h
  all_goals exact fr_row_encodes h hm ‹_› rfl rfl (by simp +contextual [extract6_eq_iff_3_3, extract6_eq_iff_4_2])

theorem decodeTop_encodes {w : InstrWord} {i : Instr} (hm : w.extractLsb' 26 6 = 29#6) (h : decodeTop w = .ok i) :
    Encodes i w := by
  unfold decodeTop at h
  split at h
  case h_4 => cases h
  all_goals obtain ⟨hres, hwf, rfl⟩ := rowFx_ok_iff.1 h
  case h_3 => exact ⟨rfl, hwf, (fx_eq_iff _ _ _ _ _ _ _ _ _ _).2 ⟨hm, rfl, eq_of_beq hres, rfl, rfl, eq_ofNat_of_toNat ‹_›, rfl,
    rfl, rfl⟩⟩
  all_goals exact ⟨rfl, hwf, (fx_eq_iff _ _ _ _ _ _ _ _ _ _).2 ⟨hm, rfl, rfl, rfl, rfl, eq_ofNat_of_toNat ‹_›, rfl, rfl, rfl⟩⟩

theorem decodeWin_encodes {w : InstrWord} {i : Instr} (hm : w.extractLsb' 26 6 = 30#6) (h : decodeWin w = .ok i) :
    Encodes i w := by
  unfold decodeWin at h
  split at h
  case h_8 => cases h
  all_goals exact fr_row_encodes h hm ‹_› rfl rfl (by simp +contextual [extract6_eq_iff_3_1_2, extract6_eq_iff_4_2])

theorem decodeTkt_encodes {w : InstrWord} {i : Instr} (hm : w.extractLsb' 26 6 = 31#6) (h : decodeTkt w = .ok i) :
    Encodes i w := by
  unfold decodeTkt at h
  split at h
  case h_9 => cases h
  all_goals exact fr_row_encodes h hm ‹_› rfl rfl (by simp +contextual [extract6_eq_iff_4_2])

theorem decodePcl_encodes {w : InstrWord} {i : Instr} (hm : w.extractLsb' 26 6 = 32#6) (h : decodePcl w = .ok i) :
    Encodes i w := by
  unfold decodePcl at h
  split at h
  case h_8 => cases h
  all_goals exact fr_row_encodes h hm ‹_› rfl rfl (by simp +contextual)

theorem decodeAtm_encodes {w : InstrWord} {i : Instr} (hm : w.extractLsb' 26 6 = 33#6) (h : decodeAtm w = .ok i) :
    Encodes i w := by
  unfold decodeAtm at h
  split at h
  case h_13 => cases h
  case h_9 | h_12 => exact row_encodes h rfl fun _ _ => (fa_eq_iff _ _ _ _ _ _ _ _).2 ⟨hm, rfl, rfl, rfl, eq_ofNat_of_toNat ‹_›,
    rfl, rfl⟩
  all_goals
    split at h
    · cases h
      exact ⟨rfl, rfl, (fa_eq_iff _ _ _ _ _ _ _ _).2 ⟨hm, eq_of_beq ‹_›, rfl, rfl, eq_ofNat_of_toNat ‹_›, rfl, rfl⟩⟩
    · cases h
      exact ⟨rfl, bne_iff_ne.2 fun hd => ‹¬ _› (beq_iff_eq.2 hd), (fa_eq_iff _ _ _ _ _ _ _ _).2 ⟨hm, rfl, rfl, rfl,
        eq_ofNat_of_toNat ‹_›, rfl, rfl⟩⟩

theorem decodeAtmd_encodes {w : InstrWord} {i : Instr} (hm : w.extractLsb' 26 6 = 34#6) (h : decodeAtmd w = .ok i) :
    Encodes i w := by
  unfold decodeAtmd at h
  split at h
  case h_12 => cases h
  case h_9 | h_11 => exact row_encodes h rfl fun _ _ => (fa_eq_iff _ _ _ _ _ _ _ _).2 ⟨hm, rfl, rfl, rfl, eq_ofNat_of_toNat ‹_›,
    rfl, rfl⟩
  all_goals
    split at h
    · cases h
      exact ⟨rfl, rfl, (fa_eq_iff _ _ _ _ _ _ _ _).2 ⟨hm, eq_of_beq ‹_›, rfl, rfl, eq_ofNat_of_toNat ‹_›, rfl, rfl⟩⟩
    · cases h
      exact ⟨rfl, bne_iff_ne.2 fun hd => ‹¬ _› (beq_iff_eq.2 hd), (fa_eq_iff _ _ _ _ _ _ _ _).2 ⟨hm, rfl, rfl, rfl,
        eq_ofNat_of_toNat ‹_›, rfl, rfl⟩⟩

theorem decodeSync_encodes {w : InstrWord} {i : Instr} (hm : w.extractLsb' 26 6 = 35#6) (h : decodeSync w = .ok i) :
    Encodes i w := by
  unfold decodeSync at h
  split at h
  case h_11 => cases h
  all_goals exact fr_row_encodes h hm ‹_› rfl rfl (by simp +contextual [extract6_eq_iff_2_4, extract6_eq_iff_4_2,
    extract6_eq_iff_5_1])

theorem decodeEng_encodes {w : InstrWord} {i : Instr} (hm : w.extractLsb' 26 6 = 36#6) (h : decodeEng w = .ok i) :
    Encodes i w := by
  unfold decodeEng at h
  split at h
  case h_12 => cases h
  all_goals exact fr_row_encodes h hm ‹_› rfl rfl (by simp +contextual)

theorem decodeSys_encodes {w : InstrWord} {i : Instr} (hm : w.extractLsb' 26 6 = 37#6) (h : decodeSys w = .ok i) :
    Encodes i w := by
  unfold decodeSys at h
  split at h
  case h_9 => cases h
  all_goals exact fr_row_encodes h hm ‹_› rfl rfl (by simp +contextual)

theorem decodeTrc_encodes {w : InstrWord} {i : Instr} (hm : w.extractLsb' 26 6 = 38#6) (h : decodeTrc w = .ok i) :
    Encodes i w := by
  unfold decodeTrc at h
  split at h
  case h_3 => cases h
  all_goals exact fr_row_encodes h hm ‹_› rfl rfl (by simp +contextual [extract6_eq_iff_3_3])

/-- What decodes is encoded as the word, whatever its major opcode. -/
theorem decode_encodes {w : InstrWord} {i : Instr} (h : decode w = .ok i) : Encodes i w := by
  unfold decode at h
  split at h
  case h_1 => split at h <;> cases h
  case h_2 => exact decodeAlu_encodes (eq_ofNat_of_toNat ‹_›) h
  case h_13 => exact decodeBr_encodes (eq_ofNat_of_toNat ‹_›) h
  case h_17 => exact decodeFps_encodes (eq_ofNat_of_toNat ‹_›) h
  case h_18 => exact decodeCsr_encodes (eq_ofNat_of_toNat ‹_›) h
  case h_19 => exact decodeStr_encodes (eq_ofNat_of_toNat ‹_›) h
  case h_20 => exact decodeQue_encodes (eq_ofNat_of_toNat ‹_›) h
  case h_21 => exact decodeValu_encodes (eq_ofNat_of_toNat ‹_›) h
  case h_22 => exact decodeVfp_encodes (eq_ofNat_of_toNat ‹_›) h
  case h_23 => exact decodeVcmp_encodes (eq_ofNat_of_toNat ‹_›) h
  case h_24 => exact decodePred_encodes (eq_ofNat_of_toNat ‹_›) h
  case h_25 => exact decodeVperm_encodes (eq_ofNat_of_toNat ‹_›) h
  case h_26 => exact decodeVld_encodes (eq_ofNat_of_toNat ‹_›) h
  case h_27 => exact decodeVst_encodes (eq_ofNat_of_toNat ‹_›) h
  case h_28 => exact decodeVctl_encodes (eq_ofNat_of_toNat ‹_›) h
  case h_29 => exact decodeTile_encodes (eq_ofNat_of_toNat ‹_›) h
  case h_30 => exact decodeTop_encodes (eq_ofNat_of_toNat ‹_›) h
  case h_31 => exact decodeWin_encodes (eq_ofNat_of_toNat ‹_›) h
  case h_32 => exact decodeTkt_encodes (eq_ofNat_of_toNat ‹_›) h
  case h_33 => exact decodePcl_encodes (eq_ofNat_of_toNat ‹_›) h
  case h_34 => exact decodeAtm_encodes (eq_ofNat_of_toNat ‹_›) h
  case h_35 => exact decodeAtmd_encodes (eq_ofNat_of_toNat ‹_›) h
  case h_36 => exact decodeSync_encodes (eq_ofNat_of_toNat ‹_›) h
  case h_37 => exact decodeEng_encodes (eq_ofNat_of_toNat ‹_›) h
  case h_38 => exact decodeSys_encodes (eq_ofNat_of_toNat ‹_›) h
  case h_39 => exact decodeTrc_encodes (eq_ofNat_of_toNat ‹_›) h
  case h_3 | h_4 | h_5 | h_6 | h_7 | h_8 | h_12 =>
    cases h
    exact ⟨rfl, rfl, (fi_eq_iff _ _ _ _ _).2 ⟨eq_ofNat_of_toNat ‹_›, rfl, rfl, rfl⟩⟩
  case h_9 | h_10 | h_11 =>
    cases h
    exact ⟨rfl, rfl, (fu_eq_iff _ _ _ _).2 ⟨eq_ofNat_of_toNat ‹_›, rfl, rfl⟩⟩
  case h_14 | h_15 | h_16 =>
    obtain ⟨hwf, rfl⟩ := rowFm_ok_iff.1 h
    exact ⟨rfl, hwf, (fm_eq_iff _ _ _ _ _ _ _ _ _).2 ⟨eq_ofNat_of_toNat ‹_›, rfl, rfl, rfl, rfl, rfl, rfl, rfl⟩⟩
  all_goals cases h

/-! What a word decodes to, group by group. -/

/-- A row whose checks pass decodes to its instruction. -/
theorem row_eq_ok {ty res : Bool} {i j : Instr} (hwf : i.wf = true) (h : ty = true ∧ res = true ∧ j = i) :
    row ty res j = .ok i := by
  obtain ⟨hty, hres, rfl⟩ := h
  exact row_ok_iff.2 ⟨hty, hres, hwf, rfl⟩

/-- An instruction in format FR decodes from its word where every word that has its fields decodes to it. -/
theorem decode_encode_of_fr {i : Instr} {op d a b : BitVec 6} {fn : BitVec 5} {t : BitVec 2} {s : BitVec 1}
    (he : encode i = fr op d a b fn t s)
    (h : ∀ w : InstrWord, w.extractLsb' 26 6 = op → frFn w = fn →
      (w.extractLsb' 20 6 = d ∧ w.extractLsb' 14 6 = a ∧ w.extractLsb' 8 6 = b ∧ w.extractLsb' 1 2 = t ∧ w.extractLsb' 0 1 = s) →
      decode w = .ok i) : decode (encode i) = .ok i := by
  obtain ⟨hop, hd, ha, hb, hfn, ht, hs⟩ := (fr_eq_iff (encode i) _ _ _ _ _ _ _).1 he.symm
  exact h _ hop hfn ⟨hd, ha, hb, ht, hs⟩

theorem decode_eq_decodeAlu {w : InstrWord} (hm : w.extractLsb' 26 6 = 1#6) : decode w = decodeAlu w := by
  unfold decode majorOf
  rw [hm]
  rfl

theorem decode_eq_decodeBr {w : InstrWord} (hm : w.extractLsb' 26 6 = 12#6) : decode w = decodeBr w := by
  unfold decode majorOf
  rw [hm]
  rfl

theorem decode_eq_decodeFps {w : InstrWord} (hm : w.extractLsb' 26 6 = 16#6) : decode w = decodeFps w := by
  unfold decode majorOf
  rw [hm]
  rfl

theorem decode_eq_decodeCsr {w : InstrWord} (hm : w.extractLsb' 26 6 = 17#6) : decode w = decodeCsr w := by
  unfold decode majorOf
  rw [hm]
  rfl

theorem decode_eq_decodeStr {w : InstrWord} (hm : w.extractLsb' 26 6 = 18#6) : decode w = decodeStr w := by
  unfold decode majorOf
  rw [hm]
  rfl

theorem decode_eq_decodeQue {w : InstrWord} (hm : w.extractLsb' 26 6 = 19#6) : decode w = decodeQue w := by
  unfold decode majorOf
  rw [hm]
  rfl

theorem decode_eq_decodeValu {w : InstrWord} (hm : w.extractLsb' 26 6 = 20#6) : decode w = decodeValu w := by
  unfold decode majorOf
  rw [hm]
  rfl

theorem decode_eq_decodeVfp {w : InstrWord} (hm : w.extractLsb' 26 6 = 21#6) : decode w = decodeVfp w := by
  unfold decode majorOf
  rw [hm]
  rfl

theorem decode_eq_decodeVcmp {w : InstrWord} (hm : w.extractLsb' 26 6 = 22#6) : decode w = decodeVcmp w := by
  unfold decode majorOf
  rw [hm]
  rfl

theorem decode_eq_decodePred {w : InstrWord} (hm : w.extractLsb' 26 6 = 23#6) : decode w = decodePred w := by
  unfold decode majorOf
  rw [hm]
  rfl

theorem decode_eq_decodeVperm {w : InstrWord} (hm : w.extractLsb' 26 6 = 24#6) : decode w = decodeVperm w := by
  unfold decode majorOf
  rw [hm]
  rfl

theorem decode_eq_decodeVld {w : InstrWord} (hm : w.extractLsb' 26 6 = 25#6) : decode w = decodeVld w := by
  unfold decode majorOf
  rw [hm]
  rfl

theorem decode_eq_decodeVst {w : InstrWord} (hm : w.extractLsb' 26 6 = 26#6) : decode w = decodeVst w := by
  unfold decode majorOf
  rw [hm]
  rfl

theorem decode_eq_decodeVctl {w : InstrWord} (hm : w.extractLsb' 26 6 = 27#6) : decode w = decodeVctl w := by
  unfold decode majorOf
  rw [hm]
  rfl

theorem decode_eq_decodeTile {w : InstrWord} (hm : w.extractLsb' 26 6 = 28#6) : decode w = decodeTile w := by
  unfold decode majorOf
  rw [hm]
  rfl

theorem decode_eq_decodeTop {w : InstrWord} (hm : w.extractLsb' 26 6 = 29#6) : decode w = decodeTop w := by
  unfold decode majorOf
  rw [hm]
  rfl

theorem decode_eq_decodeWin {w : InstrWord} (hm : w.extractLsb' 26 6 = 30#6) : decode w = decodeWin w := by
  unfold decode majorOf
  rw [hm]
  rfl

theorem decode_eq_decodeTkt {w : InstrWord} (hm : w.extractLsb' 26 6 = 31#6) : decode w = decodeTkt w := by
  unfold decode majorOf
  rw [hm]
  rfl

theorem decode_eq_decodePcl {w : InstrWord} (hm : w.extractLsb' 26 6 = 32#6) : decode w = decodePcl w := by
  unfold decode majorOf
  rw [hm]
  rfl

theorem decode_eq_decodeAtm {w : InstrWord} (hm : w.extractLsb' 26 6 = 33#6) : decode w = decodeAtm w := by
  unfold decode majorOf
  rw [hm]
  rfl

theorem decode_eq_decodeAtmd {w : InstrWord} (hm : w.extractLsb' 26 6 = 34#6) : decode w = decodeAtmd w := by
  unfold decode majorOf
  rw [hm]
  rfl

theorem decode_eq_decodeSync {w : InstrWord} (hm : w.extractLsb' 26 6 = 35#6) : decode w = decodeSync w := by
  unfold decode majorOf
  rw [hm]
  rfl

theorem decode_eq_decodeEng {w : InstrWord} (hm : w.extractLsb' 26 6 = 36#6) : decode w = decodeEng w := by
  unfold decode majorOf
  rw [hm]
  rfl

theorem decode_eq_decodeSys {w : InstrWord} (hm : w.extractLsb' 26 6 = 37#6) : decode w = decodeSys w := by
  unfold decode majorOf
  rw [hm]
  rfl

theorem decode_eq_decodeTrc {w : InstrWord} (hm : w.extractLsb' 26 6 = 38#6) : decode w = decodeTrc w := by
  unfold decode majorOf
  rw [hm]
  rfl


/-- Every well-formed instruction decodes from its word: its fields are those of its format, and its group's decoder finds its row
by
them. -/
theorem decode_encode {i : Instr} (he : i.encoded = true) (hwf : i.wf = true) : decode (encode i) = .ok i := by
  cases i with
  | add d a b t s | sub d a b t s | mul d a b t s | mulh d a b t s | mulhn d a b t s | div d a b t s | divn d a b t s
  | rem d a b t s | remn d a b t s | and d a b t s | or d a b t s | xor d a b t s | andn d a b t s | sll d a b t s
  | srl d a b t s | sra d a b t s | slli d a h t s | srli d a h t s | srai d a h t s | min d a b t s | max d a b t s
  | minn d a b t s | maxn d a b t s | slt d a b t s | sltn d a b t s | seq d a b t s | clz d a t s | ctz d a t s
  | popc d a t s | rotr d a b t s | brev d a t s | bswap d a t s =>
    refine decode_encode_of_fr rfl fun w hm hfn h => ?_
    rw [decode_eq_decodeAlu hm, decodeAlu, hfn]
    simp only [extract2_eq_iff_1_1] at h
    exact row_eq_ok hwf (by simp [h])
  | addi d a i =>
    generalize hw : encode _ = w
    obtain ⟨hm, hd, ha, himm⟩ := (fi_eq_iff w _ _ _ _).1 hw
    rw [decode, majorOf, hm]
    simp [hd, ha, himm]
  | andi d a i =>
    generalize hw : encode _ = w
    obtain ⟨hm, hd, ha, himm⟩ := (fi_eq_iff w _ _ _ _).1 hw
    rw [decode, majorOf, hm]
    simp [hd, ha, himm]
  | ori d a i =>
    generalize hw : encode _ = w
    obtain ⟨hm, hd, ha, himm⟩ := (fi_eq_iff w _ _ _ _).1 hw
    rw [decode, majorOf, hm]
    simp [hd, ha, himm]
  | xori d a i =>
    generalize hw : encode _ = w
    obtain ⟨hm, hd, ha, himm⟩ := (fi_eq_iff w _ _ _ _).1 hw
    rw [decode, majorOf, hm]
    simp [hd, ha, himm]
  | slti d a i =>
    generalize hw : encode _ = w
    obtain ⟨hm, hd, ha, himm⟩ := (fi_eq_iff w _ _ _ _).1 hw
    rw [decode, majorOf, hm]
    simp [hd, ha, himm]
  | sltni d a i =>
    generalize hw : encode _ = w
    obtain ⟨hm, hd, ha, himm⟩ := (fi_eq_iff w _ _ _ _).1 hw
    rw [decode, majorOf, hm]
    simp [hd, ha, himm]
  | lui d i =>
    generalize hw : encode _ = w
    obtain ⟨hm, hd, himm⟩ := (fu_eq_iff w _ _ _).1 hw
    rw [decode, majorOf, hm]
    simp [hd, himm]
  | auipc d i =>
    generalize hw : encode _ = w
    obtain ⟨hm, hd, himm⟩ := (fu_eq_iff w _ _ _).1 hw
    rw [decode, majorOf, hm]
    simp [hd, himm]
  | jal d i =>
    generalize hw : encode _ = w
    obtain ⟨hm, hd, himm⟩ := (fu_eq_iff w _ _ _).1 hw
    rw [decode, majorOf, hm]
    simp [hd, himm]
  | jalr d a i =>
    generalize hw : encode _ = w
    obtain ⟨hm, hd, ha, himm⟩ := (fi_eq_iff w _ _ _ _).1 hw
    rw [decode, majorOf, hm]
    simp [hd, ha, himm]
  | beq a b o | bne a b o | blt a b o | bge a b o | bltn a b o | bgen a b o | bqt a o | bqf a o =>
    generalize hw : encode _ = w
    obtain ⟨hm, ha, hb, hfn, hoff⟩ := (fb_eq_iff w _ _ _ _ _).1 hw
    rw [decode_eq_decodeBr hm, decodeBr, hfn]
    exact row_eq_ok hwf (by simp [ha, hb, hoff])
  | ld d b o w s r c =>
    generalize hw : encode _ = w
    obtain ⟨hm, hd, hbase, hoff, hwd, hst, hord, hsc⟩ := (fm_eq_iff w _ _ _ _ _ _ _ _).1 hw
    rw [decode, majorOf, hm]
    exact rowFm_ok_iff.2 (by simp [hd, hbase, hoff, hwd, hst, hord, hsc, hwf])
  | ldz d b o w s r c =>
    generalize hw : encode _ = w
    obtain ⟨hm, hd, hbase, hoff, hwd, hst, hord, hsc⟩ := (fm_eq_iff w _ _ _ _ _ _ _ _).1 hw
    rw [decode, majorOf, hm]
    exact rowFm_ok_iff.2 (by simp [hd, hbase, hoff, hwd, hst, hord, hsc, hwf])
  | st d b o w s r c =>
    generalize hw : encode _ = w
    obtain ⟨hm, hd, hbase, hoff, hwd, hst, hord, hsc⟩ := (fm_eq_iff w _ _ _ _ _ _ _ _).1 hw
    rw [decode, majorOf, hm]
    exact rowFm_ok_iff.2 (by simp [hd, hbase, hoff, hwd, hst, hord, hsc, hwf])
  | fadd d a b t s | fsub d a b t s | fmul d a b t s | fmac d a b t s | fnmac d a b t s | fdiv d a b t s | fsqrt d a t s
  | fmin d a b t s | fmax d a b t s | feq d a b t s | flt d a b t s | fle d a b t s | fclass d a t s | fscpy d a b t s
  | fsneg d a b t s | fsxor d a b t s =>
    refine decode_encode_of_fr rfl fun w hm hfn h => ?_
    rw [decode_eq_decodeFps hm, decodeFps, hfn]
    exact row_eq_ok hwf (by simp [h])
  | fcvti d a m f t s | fcvtf d a m f t s =>
    refine decode_encode_of_fr rfl fun w hm hfn h => ?_
    rw [decode_eq_decodeFps hm, decodeFps, hfn]
    simp only [extract6_eq_iff_3_3] at h
    exact row_eq_ok hwf (by simp [h])
  | fcvtw d a m f t s =>
    refine decode_encode_of_fr rfl fun w hm hfn h => ?_
    rw [decode_eq_decodeFps hm, decodeFps, hfn]
    simp only [extract6_eq_iff_3_1_2] at h
    exact row_eq_ok hwf (by simp [h])
  | csrrw d a c | csrrs d a c | csrrc d a c | csrr d c =>
    generalize hw : encode _ = w
    obtain ⟨hm, hd, ha, hcsr, hfn⟩ := (fs_eq_iff w _ _ _ _ _).1 hw
    rw [decode_eq_decodeCsr hm, decodeCsr, hfn]
    exact row_eq_ok hwf (by simp [hd, ha, hcsr])
  | exit | yield | forkl d a | joinl d a | lidx d s | hint c | migr d a =>
    refine decode_encode_of_fr rfl fun w hm hfn h => ?_
    rw [decode_eq_decodeStr hm, decodeStr, hfn]
    exact row_eq_ok hwf (by simp [h])
  | loop a n | endloop n | sidx a n =>
    refine decode_encode_of_fr rfl fun w hm hfn h => ?_
    rw [decode_eq_decodeStr hm, decodeStr, hfn]
    simp only [extract6_eq_iff_4_2] at h
    exact row_eq_ok hwf (by simp [h])
  | qcfg d a | qadv a b | qcommit a | qfill d a | qfree d a | qreset a | qdrain a | xput d a | fset d | fclr d | ftest d a =>
    refine decode_encode_of_fr rfl fun w hm hfn h => ?_
    rw [decode_eq_decodeQue hm, decodeQue, hfn]
    exact row_eq_ok hwf (by simp [h])
  | vadd d a b t x | vsub d a b t x | vmul d a b t x | vmulh d a b t x | vmac d a b t x | vdiv d a b t x | vdivn d a b t x
  | vrem d a b t x | vmin d a b t x | vmax d a b t x | vminn d a b t x | vmaxn d a b t x | vand d a b t x | vor d a b t x
  | vxor d a b t x | vsll d a b t x | vsrl d a b t x | vsra d a b t x | vsadd d a b t x | vssub d a b t x | vabs d a t
  | vneg d a t | vredsum d a b t | vredmin d a b t | vredmax d a b t =>
    refine decode_encode_of_fr rfl fun w hm hfn h => ?_
    rw [decode_eq_decodeValu hm, decodeValu, hfn]
    exact row_eq_ok hwf (by simp [h])
  | vfadd d a b t x | vfsub d a b t x | vfmul d a b t x | vfma d a b t x | vfnma d a b t x | vfdiv d a b t x | vfsqrt d a t
  | vfexp2 d a | vflog2 d a | vfmin d a b t x | vfmax d a b t x | vfabs d a t | vfneg d a t | vfredo d a b t | vfredt d a b t
  | vfredmax d a b t | vfredmin d a b t | vfscale d a b t x =>
    refine decode_encode_of_fr rfl fun w hm hfn h => ?_
    rw [decode_eq_decodeVfp hm, decodeVfp, hfn]
    exact row_eq_ok hwf (by simp [h])
  | vfcvt d a e f =>
    refine decode_encode_of_fr rfl fun w hm hfn h => ?_
    rw [decode_eq_decodeVfp hm, decodeVfp, hfn]
    simp only [extract6_eq_iff_3_3] at h
    exact row_eq_ok hwf (by simp [h])
  | vceq d a b t x | vcne d a b t x | vclt d a b t x | vcle d a b t x | vcltn d a b t x | vclen d a b t x | vfceq d a b t x
  | vfclt d a b t x | vfcle d a b t x | vfcun d a b t x =>
    refine decode_encode_of_fr rfl fun w hm hfn h => ?_
    rw [decode_eq_decodeVcmp hm, decodeVcmp, hfn]
    exact row_eq_ok hwf (by simp [h])
  | pand d a b | por d a b | pxor d a b | pandn d a b | pnot d a | psbf d a | psif d a | psof d a | pcnt d a | pfirst d a
  | pset d | pclr d =>
    refine decode_encode_of_fr rfl fun w hm hfn h => ?_
    rw [decode_eq_decodePred hm, decodePred, hfn]
    exact row_eq_ok hwf (by simp [h])
  | pfromx d a k | ptox d a k =>
    refine decode_encode_of_fr rfl fun w hm hfn h => ?_
    rw [decode_eq_decodePred hm, decodePred, hfn]
    simp only [extract6_eq_iff_4_2] at h
    exact row_eq_ok hwf (by simp [h])
  | vcompress d a t | vexpand d a t | vslideup d a b t x | vslidedn d a b t x | vpermx d a b t | vbcast d a k t
  | vextx d a b t | vinsx d a b t | viota d a b t | vmov d a t | vzip d a b t | vunzip d a b t =>
    refine decode_encode_of_fr rfl fun w hm hfn h => ?_
    rw [decode_eq_decodeVperm hm, decodeVperm, hfn]
    exact row_eq_ok hwf (by simp [h])
  | vld d b w s h | vlds d b w s h | vldx d b i w s h | vldff d b w s h | vldb d b w s h =>
    generalize hw : encode _ = w
    obtain ⟨hm, hd, hbase, hi, hfn, hwd, hst, hh⟩ := (fv_eq_iff w _ _ _ _ _ _ _ _).1 hw
    rw [decode_eq_decodeVld hm, decodeVld, hfn]
    exact row_eq_ok hwf (by simp [hd, hbase, hi, hwd, hst, hh])
  | vst d b w s h | vsts d b w s h | vstx d b i w s h | vstxr d b i w s h =>
    generalize hw : encode _ = w
    obtain ⟨hm, hd, hbase, hi, hfn, hwd, hst, hh⟩ := (fv_eq_iff w _ _ _ _ _ _ _ _).1 hw
    rw [decode_eq_decodeVst hm, decodeVst, hfn]
    exact row_eq_ok hwf (by simp [hd, hbase, hi, hwd, hst, hh])
  | setvl d a t | setst a | scput d a t | sctake d t | scflush d | scstat d =>
    refine decode_encode_of_fr rfl fun w hm hfn h => ?_
    rw [decode_eq_decodeVctl hm, decodeVctl, hfn]
    exact row_eq_ok hwf (by simp [h])
  | setvli d i t =>
    refine decode_encode_of_fr rfl fun w hm hfn h => ?_
    rw [decode_eq_decodeVctl hm, decodeVctl, hfn]
    exact row_eq_ok hwf (by simp [extract12_eq_iff, h])
  | setms a m =>
    refine decode_encode_of_fr rfl fun w hm hfn h => ?_
    rw [decode_eq_decodeVctl hm, decodeVctl, hfn]
    simp only [extract6_eq_iff_5_1] at h
    exact row_eq_ok hwf (by simp [h])
  | ten d c b | tdis c | tzero c | tpred d c b | tmovr d c b | tmovc d c b | tsetr c a b | tsetc c a b | tfold c e
  | tdrain d c b t | tscl c a =>
    refine decode_encode_of_fr rfl fun w hm hfn h => ?_
    rw [decode_eq_decodeTile hm, decodeTile, hfn]
    simp only [extract6_eq_iff_3_3] at h
    exact row_eq_ok hwf (by simp [h])
  | tfetch d a b =>
    refine decode_encode_of_fr rfl fun w hm hfn h => ?_
    rw [decode_eq_decodeTile hm, decodeTile, hfn]
    exact row_eq_ok hwf (by simp [h])
  | tstat d c s =>
    refine decode_encode_of_fr rfl fun w hm hfn h => ?_
    rw [decode_eq_decodeTile hm, decodeTile, hfn]
    simp only [extract6_eq_iff_3_3, extract6_eq_iff_4_2] at h
    exact row_eq_ok hwf (by simp [h])
  | top t a b r y n z | tops t a b r y n z | topl t b r y n z =>
    generalize hw : encode _ = w
    obtain ⟨hm, ht, ha, hb, hrep, hfn, hty, hn, hz⟩ := (fx_eq_iff w _ _ _ _ _ _ _ _ _).1 hw
    rw [decode_eq_decodeTop hm, decodeTop, hfn]
    exact rowFx_ok_iff.2 (by simp [ht, ha, hb, hrep, hty, hn, hz, hwf])
  | wmap d a b =>
    refine decode_encode_of_fr rfl fun w hm hfn h => ?_
    rw [decode_eq_decodeWin hm, decodeWin, hfn]
    exact row_eq_ok hwf (by simp [h])
  | wunmap v n | winv a v n | wstat d v n | wkeep v n =>
    refine decode_encode_of_fr rfl fun w hm hfn h => ?_
    rw [decode_eq_decodeWin hm, decodeWin, hfn]
    simp only [extract6_eq_iff_3_1_2] at h
    exact row_eq_ok hwf (by simp [h])
  | wflush a n | wtouch a n =>
    refine decode_encode_of_fr rfl fun w hm hfn h => ?_
    rw [decode_eq_decodeWin hm, decodeWin, hfn]
    simp only [extract6_eq_iff_4_2] at h
    exact row_eq_ok hwf (by simp [h])
  | tkld d a s t z | tkldw d a s t z | tkldv d a s =>
    refine decode_encode_of_fr rfl fun w hm hfn h => ?_
    rw [decode_eq_decodeTkt hm, decodeTkt, hfn]
    simp only [extract6_eq_iff_4_2] at h
    exact row_eq_ok hwf (by simp [h])
  | tkrd d a | tkrdv d a | tkrdq d a | tktest d a | tkdrop d a =>
    refine decode_encode_of_fr rfl fun w hm hfn h => ?_
    rw [decode_eq_decodeTkt hm, decodeTkt, hfn]
    exact row_eq_ok hwf (by simp [h])
  | pqry d a | phint a c | plogq d a | pfetch d a | pmigr d a b | pnqpop d | pkeep d a b =>
    refine decode_encode_of_fr rfl fun w hm hfn h => ?_
    rw [decode_eq_decodePcl hm, decodePcl, hfn]
    exact row_eq_ok hwf (by simp [h])
  | atmAdd d a b o c | atmMin d a b o c | atmMax d a b o c | atmMinn d a b o c | atmMaxn d a b o c | atmAnd d a b o c
  | atmOr d a b o c | atmXor d a b o c | atmFadd d a b o c | atmFaddh d a b o c =>
    generalize hw : encode _ = w
    obtain ⟨hm, hd, hbase, hb, hfn, hord, hsc⟩ := (fa_eq_iff w _ _ _ _ _ _ _).1 hw
    rw [decode_eq_decodeAtm hm, decodeAtm, hfn]
    simp [hd, hbase, hb, hord, hsc, show d ≠ 0#6 from bne_iff_ne.1 hwf]
  | atmSwp d a b o c | atmCas d a b o c =>
    generalize hw : encode _ = w
    obtain ⟨hm, hd, hbase, hb, hfn, hord, hsc⟩ := (fa_eq_iff w _ _ _ _ _ _ _).1 hw
    rw [decode_eq_decodeAtm hm, decodeAtm, hfn]
    exact row_eq_ok hwf (by simp [hd, hbase, hb, hord, hsc])
  | redAdd32 a b o c | redMin32 a b o c | redMax32 a b o c | redMinn32 a b o c | redMaxn32 a b o c | redAnd32 a b o c
  | redOr32 a b o c | redXor32 a b o c | redFadd32 a b o c | redFaddh32 a b o c =>
    generalize hw : encode _ = w
    obtain ⟨hm, hd, hbase, hb, hfn, hord, hsc⟩ := (fa_eq_iff w _ _ _ _ _ _ _).1 hw
    rw [decode_eq_decodeAtm hm, decodeAtm, hfn]
    simp [hd, hbase, hb, hord, hsc]
  | atmdAdd d a b o c | atmdMin d a b o c | atmdMax d a b o c | atmdMinn d a b o c | atmdMaxn d a b o c | atmdAnd d a b o c
  | atmdOr d a b o c | atmdXor d a b o c | atmdFadd d a b o c =>
    generalize hw : encode _ = w
    obtain ⟨hm, hd, hbase, hb, hfn, hord, hsc⟩ := (fa_eq_iff w _ _ _ _ _ _ _).1 hw
    rw [decode_eq_decodeAtmd hm, decodeAtmd, hfn]
    simp [hd, hbase, hb, hord, hsc, show d ≠ 0#6 from bne_iff_ne.1 hwf]
  | atmdSwp d a b o c | atmdCas d a b o c =>
    generalize hw : encode _ = w
    obtain ⟨hm, hd, hbase, hb, hfn, hord, hsc⟩ := (fa_eq_iff w _ _ _ _ _ _ _).1 hw
    rw [decode_eq_decodeAtmd hm, decodeAtmd, hfn]
    exact row_eq_ok hwf (by simp [hd, hbase, hb, hord, hsc])
  | redAdd64 a b o c | redMin64 a b o c | redMax64 a b o c | redMinn64 a b o c | redMaxn64 a b o c | redAnd64 a b o c
  | redOr64 a b o c | redXor64 a b o c | redFadd64 a b o c =>
    generalize hw : encode _ = w
    obtain ⟨hm, hd, hbase, hb, hfn, hord, hsc⟩ := (fa_eq_iff w _ _ _ _ _ _ _).1 hw
    rw [decode_eq_decodeAtmd hm, decodeAtmd, hfn]
    simp [hd, hbase, hb, hord, hsc]
  | sbar m p k =>
    refine decode_encode_of_fr rfl fun w hm hfn h => ?_
    rw [decode_eq_decodeSync hm, decodeSync, hfn]
    simp only [extract6_eq_iff_2_4, extract6_eq_iff_4_2] at h
    exact row_eq_ok hwf (by simp [h])
  | bari a b s | barv d a s | barw a b s | barwt d a b s | waitv d a b s =>
    refine decode_encode_of_fr rfl fun w hm hfn h => ?_
    rw [decode_eq_decodeSync hm, decodeSync, hfn]
    exact row_eq_ok hwf (by simp [h])
  | accdecl k a b t =>
    refine decode_encode_of_fr rfl fun w hm hfn h => ?_
    rw [decode_eq_decodeSync hm, decodeSync, hfn]
    simp only [extract6_eq_iff_5_1] at h
    exact row_eq_ok hwf ⟨by simpa [h, Instr.wf] using hwf, by simp [h]⟩
  | vacc k a b | accmerge d k | accrel k =>
    refine decode_encode_of_fr rfl fun w hm hfn h => ?_
    rw [decode_eq_decodeSync hm, decodeSync, hfn]
    simp only [extract6_eq_iff_5_1] at h
    exact row_eq_ok hwf (by simp [h])
  | estr d a | epush a b | epop d a | ewm d a | ewait a b | echan d a b | egang d a b | ecancel d a | estat d a | uien d a
  | uiret =>
    refine decode_encode_of_fr rfl fun w hm hfn h => ?_
    rw [decode_eq_decodeEng hm, decodeEng, hfn]
    exact row_eq_ok hwf (by simp [h])
  | svc c | brk c | rett | wfi d | tlbinv d a b | ctxsv d a | ctxld d a b | lnpurge d a =>
    refine decode_encode_of_fr rfl fun w hm hfn h => ?_
    rw [decode_eq_decodeSys hm, decodeSys, hfn]
    exact row_eq_ok hwf (by simp [h])
  | tmark a c =>
    refine decode_encode_of_fr rfl fun w hm hfn h => ?_
    rw [decode_eq_decodeTrc hm, decodeTrc, hfn]
    exact row_eq_ok hwf (by simp [h])
  | tcnt d s =>
    refine decode_encode_of_fr rfl fun w hm hfn h => ?_
    rw [decode_eq_decodeTrc hm, decodeTrc, hfn]
    simp only [extract6_eq_iff_3_3] at h
    exact row_eq_ok hwf (by simp [h])
  | _ => cases he

end Sys2Proof

open Sys2Proof

/-- Settles O26: the fields of an instruction's word are those of its format, and they lead the decoder to its row. -/
theorem decodeEncode : Obligations.DecodeEncode := by
  unfold Obligations.DecodeEncode
  exact fun _ he hwf => decode_encode he hwf

/-- Settles O27: each row of each group encodes what it decodes. -/
theorem encodeDecode : Obligations.EncodeDecode := by
  unfold Obligations.EncodeDecode
  exact fun _ _ h => decode_encodes h

/-- Settles O28: the decoder is run on each of the words. -/
theorem decodeWords : Obligations.DecodeWords := by
  unfold Obligations.DecodeWords
  refine ⟨?_, ?_, ?_, ?_, ?_, ?_, ?_, ?_, ?_⟩ <;> rfl

end

section
/-! Jumps and branches: their targets, and the flow of the form that all branches share (R28, R120-R122). -/

namespace Sys2Proof.Machine

variable {s s1 e : State}

/-- A word offset is four times the sign-extended field. -/
theorem wordOffset_eq_mul {n : Nat} (i : BitVec n) : wordOffset i = i.signExtend 64 * 4 := by
  rw [wordOffset, BitVec.shiftLeft_eq_mul_twoPow]
  rfl

/-- A computed target passes its check exactly where it is a multiple of 4. -/
theorem lowBits_eq_zero_iff (t : Word) : t.extractLsb' 0 2 = 0 ↔ t.toNat % 4 = 0 := by
  rw [← BitVec.toNat_inj]
  simp [BitVec.extractLsb'_toNat]

/-- A field that names a register passes the checks as a register-only field. -/
theorem admitted_reg {r : BitVec 6} (h : r.toNat < 32) : admitted s [.reg r] :=
  admitted_regs (rs := [r]) (by simpa using h)

/-- A form without restrictions of its own passes its checks where its operands do, on every core. -/
theorem check_plainForm {w : InstrWord} {ops : List Opnd} (h : admitted s ops) :
    ({ word := w, ops := ops } : Form).check s = none :=
  (Form.check_none _ s).mpr ⟨rfl, nofun, h, nofun, onClass_all s⟩

theorem jal_completes {d : BitVec 6} (m : BitVec 20) (hd : d.toNat < 32) :
    completesWith (.jal d m) s (s.updMe fun t => t.setReg d.toNat (s.me.pc + 4)) (s.me.pc + m.signExtend 64 * 4) := by
  rw [← wordOffset_eq_mul]
  have hx : exec (.jal d m) s = execJal d m s := rfl
  refine insn_completes (hx.trans rfl) (check_plainForm (admitted_reg hd)) ?_ (.inr rfl)
  rfl

theorem admitted_jalr {d a : BitVec 6} (hd : d.toNat < 32) (ha : a.toNat < 32) : admitted s [.reg d, .reg a] :=
  admitted_regs (rs := [d, a]) (by simp [hd, ha])

section
variable {d a : BitVec 6} {o : BitVec 14} {target : Word} (hd : d.toNat < 32) (ha : a.toNat < 32)
  (ht : target = s.me.reg a.toNat + o.signExtend 64 * 4)
include hd ha ht

theorem jalr_completes (h : target.toNat % 4 = 0) :
    completesWith (.jalr d a o) s (s.updMe fun t => t.setReg d.toNat (s.me.pc + 4)) target := by
  rw [← wordOffset_eq_mul] at ht
  subst ht
  refine insn_completes rfl (check_plainForm (admitted_jalr hd ha)) ?_ (.inr rfl)
  rw [run_bind_ok (run_me s), checkTarget, if_pos ((lowBits_eq_zero_iff _).mpr h)]
  rfl

theorem jalr_misaligned (h : target.toNat % 4 ≠ 0) :
    exec (.jalr d a o) s = .next (takeTrap s s.cur ⟨5, 0, target⟩ false false) := by
  rw [← wordOffset_eq_mul] at ht
  subst ht
  refine insn_takesTrap (e := s) (check_plainForm (admitted_jalr hd ha)) ?_ (by simp) (by simp) rfl
  rw [run_bind_ok (run_me s), checkTarget, if_neg (h ∘ (lowBits_eq_zero_iff _).mp)]
  rfl

end

/-- A branch goes to its target where it is taken, else to the next word: what its operands' reads leave keeps the program
counter. -/
theorem branchTo_completes {i : Instr} {f : Form} {body : M Flow} {d : BitVec 6} {taken : Bool} {o : BitVec 11}
    (hx : exec i s = insn f body s) (hc : f.check s = none) (hb : body s = branchTo taken o e) (hs : ScalarOnly d s e) :
    completesWith i s e (if taken then s.me.pc + (o.signExtend 64 <<< 2) else s.me.pc + 4) := by
  have hpc : (e.strand s.cur).pc = s.me.pc := hs.cur ▸ hs.pc
  have hflow : body s = .ok (if taken then .jump (s.me.pc + (o.signExtend 64 <<< 2)) else .seq) e := by
    rw [hb, ← hs.pc]
    rfl
  refine insn_completes hx hc hflow ?_
  cases taken
  · exact .inl ⟨rfl, by rw [hpc]; rfl⟩
  · exact .inr rfl

/-- A branch on two operands branches on the relation that its function decides. -/
theorem branch2_branchesOn {i : BitVec 6 → BitVec 6 → BitVec 11 → Instr} {w : BitVec 6 → BitVec 6 → BitVec 11 → InstrWord}
    {f : Word → Word → Bool} {p : Word → Word → Prop} (hp : ∀ x y, f x y = true ↔ p x y)
    (hx : ∀ a b o s, exec (i a b o) s =
      insn { word := w a b o, ops := [.data a 1 false, .data b 1 false] } (branch2 a b o f) s) : branchesOn i p := by
  intro s s1 e a b o x y hops h1 h2
  have hs : ScalarOnly 0 s e := (readX_only h1).trans (readX_only h2)
  have hgo := branchTo_completes (hx a b o s) (check_plainForm hops) ((run_bind_ok h1).trans (run_bind_ok h2)) hs
  refine ⟨fun h => ?_, fun h => ?_, hs⟩
  · rwa [if_pos ((hp x y).mpr h)] at hgo
  · rwa [if_neg (h ∘ (hp x y).mp)] at hgo

/-- A branch on a queue consumes one head and branches on its bit. -/
theorem branchQueue_completes {i : Instr} {w : InstrWord} {a : BitVec 6} {o : BitVec 11} {want : Bool} {v : Vec}
    (hops : admitted s [.queue a [4] (some false)]) (hpop : answers (popQueue (a.toNat - 32)) s v e)
    (hx : exec i s = insn { word := w, ops := [.queue a [4] (some false)] } (branchQueue a o want) s) :
    completesWith i s e (if (v != 0) == want then s.me.pc + (o.signExtend 64 <<< 2) else s.me.pc + 4) :=
  branchTo_completes (d := 0) hx (check_plainForm hops) (run_bind_ok hpop) (popQueue_only hpop)

end Sys2Proof.Machine

open Sys2Proof.Machine

/-- Settles O3: each jump is run, and each branch is `branch2` or `branchQueue` on the relation that it names. -/
theorem jumpsAndBranches : Obligations.JumpsAndBranches := by
  unfold Obligations.JumpsAndBranches
  refine ⟨fun s d a m o target hd ha => ⟨jal_completes m hd, fun ht => ⟨jalr_completes hd ha ht, jalr_misaligned hd ha ht⟩⟩,
    branch2_branchesOn (fun _ _ => decide_eq_true_iff) fun _ _ _ _ => rfl,
    branch2_branchesOn (fun _ _ => decide_eq_true_iff) fun _ _ _ _ => rfl,
    branch2_branchesOn (fun _ _ => decide_eq_true_iff) fun _ _ _ _ => rfl,
    branch2_branchesOn (fun _ _ => decide_eq_true_iff) fun _ _ _ _ => rfl,
    branch2_branchesOn (fun _ _ => decide_eq_true_iff) fun _ _ _ _ => rfl,
    branch2_branchesOn (fun _ _ => decide_eq_true_iff) fun _ _ _ _ => rfl, ?_⟩
  intro s e a o v hops hpop
  have hgo := fun want i w hx => branchQueue_completes (o := o) (want := want) (i := i) (w := w) hops hpop hx
  have htaken := hgo true (.bqt a o) _ rfl
  have huntaken := hgo false (.bqf a o) _ rfl
  refine ⟨fun hv => ?_, fun hv => ?_, popQueue_only hpop⟩
  · have hbit : (v != 0) = true := bne_iff_ne.mpr hv
    rw [hbit] at htaken huntaken
    exact ⟨htaken, huntaken⟩
  · have hbit : (v != 0) = false := by simp [hv]
    rw [hbit] at htaken huntaken
    exact ⟨htaken, huntaken⟩

end

section
/-! What a fetch checks, and words that are no instruction (R29, R45, R46, R47). -/

namespace Sys2Proof

/-- A word of major 0x00 is no instruction; the word 0 is named apart (R47). -/
theorem decode_major_zero {w : InstrWord} (hw : w ≠ 0) (hm : (majorOf w).toNat = 0) : decode w = .error .majorZero := by
  rw [decode, hm]
  exact if_neg hw

theorem decode_unassigned {w : InstrWord} (h1 : 0x27 ≤ (majorOf w).toNat) (h2 : (majorOf w).toNat ≤ 0x3E) :
    decode w = .error .unassignedMajor := by
  unfold decode
  split
  case h_41 => rfl
  all_goals omega

theorem decode_reserved {w : InstrWord} (hm : (majorOf w).toNat = 0x3F) : decode w = .error .reservedMajor := by
  rw [decode, hm]
  rfl

end Sys2Proof

namespace Sys2Proof.Machine

variable {s : State}

theorem fetch_misaligned (h : s.me.pc.toNat % 4 ≠ 0) : fetch s = .error ⟨5, 0, s.me.pc⟩ := if_pos h

section
variable (hpc : s.me.pc.toNat % 4 = 0)
include hpc

theorem fetch_aperture (h : apertureOffset s.me.pc ≠ none) : fetch s = .error ⟨7, 2, s.me.pc⟩ := by
  unfold fetch
  rw [if_neg (not_not_intro hpc), if_pos (Option.isSome_iff_ne_none.mpr h)]

variable (ha : apertureOffset s.me.pc = none)
include ha

theorem fetch_untranslated {x : Trap} (h : translate s s.me.core s.me.firmware s.me.ctx s.me.pc = .error x) :
    fetch s = .error x := by
  unfold fetch
  rw [if_neg (not_not_intro hpc), if_neg (by simp [ha]), h]

variable {l : Leaf} {s1 : State} (ht : translate s s.me.core s.me.firmware s.me.ctx s.me.pc = .ok (l, s1))
include ht

theorem fetch_forbidden {x : Trap} (h : checkLeaf .fetch l s.me.pc = some x) : fetch s = .error x := by
  simp [fetch, hpc, ha, ht, h]

theorem fetch_poisoned (hl : checkLeaf .fetch l s.me.pc = none) (h : poisonedAt s1 l 4 = true) :
    fetch s = .error ⟨11, 0, s.me.pc⟩ := by
  simp [fetch, hpc, ha, ht, hl, h]

theorem fetch_reads (hl : checkLeaf .fetch l s.me.pc = none) (h : poisonedAt s1 l 4 = false) :
    fetch s = .ok (leWord 32 (decrypted s1 l (homeRead s1 l.pa 4)), touchRead s1 l.pa s.me.ctx s.me.pc l.counterEnable) := by
  simp [fetch, hpc, ha, ht, hl, h]

end

/-- A word that decodes is run as its instruction. -/
theorem runWord_of_decode {w : InstrWord} {i : Instr} (h : decode w = .ok i) : runWord w s = exec i s := by
  rw [runWord, h]

/-- A word that does not takes the illegal-instruction trap. -/
theorem runWord_of_illegal {w : InstrWord} {e : Illegal} (h : decode w = .error e) :
    runWord w s = .next (takeTrap s s.cur ⟨1, e.sub, w.setWidth 64⟩ false false) := by
  rw [runWord, h]
  rfl

end Sys2Proof.Machine

open Sys2Proof Sys2Proof.Machine

/-- Settles O30: each check of a fetch is one branch of it, and the majors without instructions are arms of the decoder. -/
theorem fetchAndIllegalWords : Obligations.FetchAndIllegalWords := by
  unfold Obligations.FetchAndIllegalWords
  refine ⟨fun s => ⟨fetch_misaligned, fun hpc => ⟨fetch_aperture hpc, fun ha => ⟨fun _ => fetch_untranslated hpc ha, ?_⟩⟩⟩,
    fun _ => decode_major_zero, fun _ => decode_unassigned, fun _ => decode_reserved, fun _ _ _ => runWord_of_illegal, rfl⟩
  exact fun l s1 ht => ⟨fun _ => fetch_forbidden hpc ha ht, fetch_poisoned hpc ha ht, fetch_reads hpc ha ht⟩

end

section
/-! What the homes do moves no strand: of a strand it changes the windows at most (R243, R260). -/

namespace Sys2Proof.Machine

/-- A strand apart from its windows. -/
def Strand.sansWindows (t : Strand) : Strand := { t with windows := [] }

/-- The executing strand is the same, and every strand is as before, its windows apart. -/
structure KeepsStrands (s s' : State) : Prop where
  cur : s'.cur = s.cur
  strands : ∀ u, (s'.strand u).sansWindows = (s.strand u).sansWindows

namespace KeepsStrands

variable {s s' s1 s2 : State}

theorem refl (s : State) : KeepsStrands s s := ⟨rfl, fun _ => rfl⟩

theorem trans (h : KeepsStrands s s1) (g : KeepsStrands s1 s2) : KeepsStrands s s2 :=
  ⟨g.cur.trans h.cur, fun u => (g.strands u).trans (h.strands u)⟩

theorem foldl {α : Type} {f : State → α → State} (hf : ∀ s x, KeepsStrands s (f s x)) (l : List α) (s : State) :
    KeepsStrands s (l.foldl f s) := by
  induction l generalizing s with
  | nil => exact .refl s
  | cons x l ih => exact (hf s x).trans (ih (f s x))

theorem ite {c : Prop} [Decidable c] (h1 : c → KeepsStrands s s1) (h2 : ¬c → KeepsStrands s s2) :
    KeepsStrands s (if c then s1 else s2) := by
  split
  · exact h1 ‹_›
  · exact h2 ‹_›

/-- Strands that are the same data are as before. -/
theorem of_eq (hc : s'.cur = s.cur) (h : s'.strands = s.strands) : KeepsStrands s s' :=
  ⟨hc, fun u => by rw [State.strand, h, State.strand]⟩

/-- `of_eq`, with the states named. -/
theorem between (s s' : State) (hc : s'.cur = s.cur) (h : s'.strands = s.strands) : KeepsStrands s s' := of_eq hc h

theorem run (h : KeepsStrands s s') (u : Nat) : (s'.strand u).run = (s.strand u).run :=
  (congrArg Strand.run (h.strands u) : (s'.strand u).sansWindows.run = (s.strand u).sansWindows.run)

theorem updWindow (s : State) (u i : Nat) (f : Window → Window) : KeepsStrands s (s.updStrand u fun t => t.updWindow i f) :=
  ⟨rfl, State.updStrand_keeps Strand.sansWindows s u _ fun _ => rfl⟩

theorem coreDrop (s : State) (core line : Nat) : KeepsStrands s (coreDrop s core line) :=
  (between s (unpin (s.setCopy core line Copy.none) core line) rfl rfl).trans
    (foldl (fun s (x : Nat × Nat × Nat) => updWindow s x.1 x.2.1 fun w => w.setLine x.2.2 0 0) _ _)

theorem coreClean (s : State) (core line : Nat) : KeepsStrands s (coreClean s core line) := by
  unfold Machine.coreClean
  extract_lets s1
  have h1 : KeepsStrands s s1 := by
    unfold s1
    split
    · exact of_eq rfl rfl
    · exact refl s
  exact h1.trans (foldl (fun s (x : Nat × Nat × Nat) => updWindow s x.1 x.2.1 fun w =>
    w.setLine x.2.2 (Tab.get 0 w.valid x.2.2) 0) _ _)

theorem markDirty (s : State) (line : Nat) : KeepsStrands s (markDirty s line) := by
  unfold Machine.markDirty
  exact ite (fun _ => of_eq rfl rfl) fun _ => refl s

theorem keyLine (s : State) (line k : Nat) : KeepsStrands s (keyLine s line k) := by
  unfold Machine.keyLine
  extract_lets k1 s1
  have h1 : KeepsStrands s s1 := ite (fun _ => refl s) fun _ => of_eq rfl rfl
  exact ite (fun _ => refl s) fun _ => h1.trans (of_eq rfl rfl)

theorem rekey (s : State) (line : Nat) : KeepsStrands s (rekey s line) := by
  unfold Machine.rekey
  exact ite (fun _ => refl s) fun _ => keyLine ..

theorem homeMerge (s : State) (line : Nat) (data : BitVec 1024) (dirty : BitVec 32) :
    KeepsStrands s (homeMerge s line data dirty) := by
  unfold Machine.homeMerge
  refine ite (fun _ => of_eq rfl rfl) fun _ => ite (fun _ => refl s) fun _ => ?_
  exact ((rekey s _).trans (markDirty _ _)).trans (of_eq rfl rfl)

theorem takeBack (s : State) (agent line : Nat) (drop : Bool) : KeepsStrands s (takeBack s agent line drop) := by
  unfold Machine.takeBack
  extract_lets mine s1 s2 m s3
  have h1 : KeepsStrands s s1 := by
    clear_value mine
    unfold s1
    refine foldl (fun s w => ?_) mine s
    exact homeMerge s line w.data w.dirty
  have h2 : KeepsStrands s s2 := h1.trans (of_eq rfl rfl)
  have h3 : KeepsStrands s s3 := h2.trans (ite (fun _ => refl s2) fun _ => homeMerge ..)
  have hcore : ∀ (s : State) c, KeepsStrands s (if drop then Machine.coreDrop s c line else Machine.coreClean s c line) :=
    fun s c => ite (fun _ => coreDrop ..) fun _ => coreClean ..
  refine h3.trans ?_
  clear_value s3
  split
  · exact hcore s3 agent
  · split
    · split
      · exact refl s3
      · extract_lets s4
        have h4 : KeepsStrands s3 s4 := foldl hcore _ s3
        exact h4.trans (of_eq rfl rfl)
    · exact of_eq rfl rfl

theorem recallAll (s : State) (line : Nat) : KeepsStrands s (recallAll s line) :=
  (foldl (fun s a => takeBack s a line true) _ s).trans (of_eq rfl rfl)

/-- A tracked line is recalled, another is left alone. -/
theorem recalled (s : State) (line : Nat) :
    KeepsStrands s (if (s.line line).code = 1 ∨ (s.line line).code = 2 then Machine.recallAll s line else s) :=
  ite (fun _ => recallAll s line) fun _ => refl s

theorem homeStore (s : State) (pa : Nat) (bs : List Byte) : KeepsStrands s (homeStore s pa bs) :=
  (foldl (fun s l => (recalled s l).trans (markDirty _ l)) _ s).trans (of_eq rfl rfl)

theorem stampKey (s : State) (l : Leaf) (n : Nat) : KeepsStrands s (stampKey s l n) :=
  ite (fun _ => foldl (fun s x => keyLine s x _) _ s) fun _ => refl s

theorem naingStore {va : Word} {bs : List Byte} (h : naingStore s va bs = some s') : KeepsStrands s s' := by
  unfold Machine.naingStore at h
  split at h
  · split at h
    · cases h
      exact (stampKey ..).trans (homeStore ..)
    · cases h
  · cases h

theorem append {r : Ring} {bs : List Byte} (h : r.append s bs = some s') : KeepsStrands s s' := by
  unfold Ring.append at h
  split at h
  · split at h
    · cases h
    · split at h
      next h1 => exact (naingStore h1).trans (naingStore h)
      next => cases h
  · cases h

theorem notify (s : State) (ctx kind : Nat) (va : Word) (count tier die : Nat) :
    KeepsStrands s (notify s ctx kind va count tier die) := by
  unfold Machine.notify
  extract_lets c e
  refine ite (fun _ => refl s) fun _ => ?_
  split
  next h => exact (append h).trans (of_eq rfl rfl)
  next => exact of_eq rfl rfl

theorem faultLog (s : State) (ctx : Nat) (f : FaultEntry) : KeepsStrands s (faultLog s ctx f) := by
  unfold Machine.faultLog
  extract_lets c e s1
  have h1 : KeepsStrands s s1 := of_eq rfl rfl
  split
  next h => exact h1.trans ((append h).trans (of_eq rfl rfl))
  next => exact h1.trans (of_eq rfl rfl)

theorem forceFetch (s : State) (f ctx : Nat) (va : Word) : KeepsStrands s (forceFetch s f ctx va) := by
  unfold Machine.forceFetch
  extract_lets p die naing s1 s2
  exact ite (fun _ => refl s) fun _ => (between s s2 rfl rfl).trans (notify ..)

theorem logAppend (s : State) (pa op wd : Nat) (v : Word) (ctx : Nat) (va : Word) :
    KeepsStrands s (logAppend s pa op wd v ctx va) := by
  unfold Machine.logAppend
  extract_lets f die s1 p e
  have h1 : KeepsStrands s s1 := of_eq rfl rfl
  split
  extract_lets use s2 s3 warn s4
  have h3 : KeepsStrands s1 s4 := of_eq rfl rfl
  refine h1.trans (ite (fun _ => of_eq rfl rfl) fun _ => ite (fun _ => of_eq rfl rfl) fun _ => ite (fun _ => ?_) fun _ => ?_)
  · exact (between s1 (s1.updParcel f _) rfl rfl).trans (forceFetch ..)
  · exact ite (fun _ => h3.trans (notify ..)) fun _ => h3

theorem homeOp (s : State) (pa n op : Nat) (v : Word) (logEnable : Bool) (ctx : Nat) (va : Word) :
    KeepsStrands s (homeOp s pa n op v logEnable ctx va) := by
  unfold Machine.homeOp
  refine ite (fun _ => logAppend ..) fun _ => ite (fun _ => logAppend ..) fun _ => ite (fun _ => ?_) fun _ => ?_
  · exact (recalled s _).trans (of_eq rfl rfl)
  · exact ite (fun _ => of_eq rfl rfl) fun _ => ite (fun _ => homeStore ..) fun _ => homeStore ..

theorem homePut_go (bs : List Byte) (logEnable : Bool) (ctx : Nat) (va : Word) (pa : Nat) (s : State) (o fuel : Nat) :
    KeepsStrands s (homePut.go pa bs logEnable ctx va s o fuel) := by
  induction fuel generalizing s o with
  | zero => exact refl s
  | succ fuel ih => exact ite (fun _ => refl s) fun _ => (homeOp ..).trans (ih _ _)

theorem homePut (s : State) (pa : Nat) (bs : List Byte) (logEnable : Bool) (ctx : Nat) (va : Word) :
    KeepsStrands s (homePut s pa bs logEnable ctx va) := by
  unfold Machine.homePut
  exact ite (fun _ => homeStore ..) fun _ => homePut_go ..

theorem ctxStore {ctx : Nat} {va : Word} {bs : List Byte} (h : ctxStore s ctx va bs = .ok s') : KeepsStrands s s' := by
  unfold Machine.ctxStore at h
  split at h
  · cases h
  · split at h
    · cases h
    · split at h
      · cases h
      · split at h
        · cases h
          exact faultLog ..
        · cases h
          exact (stampKey ..).trans (homePut ..)

theorem queueError (s : State) (q code cause sub index : Nat) (toError : Bool) :
    KeepsStrands s (queueError s q code cause sub index toError) := by
  unfold Machine.queueError
  extract_lets d w s1 s2
  have h1 : KeepsStrands s s1 := by
    unfold s1
    split
    next h => exact ctxStore h
    next => exact refl s
  have h2 : KeepsStrands s1 s2 := ite (fun _ => of_eq rfl rfl) fun _ => refl s1
  exact h1.trans (h2.trans (of_eq rfl rfl))

theorem guestMerge (s : State) (die core line : Nat) (data : BitVec 1024) (dirty : BitVec 32) :
    KeepsStrands s (guestMerge s die core line data dirty) := by
  unfold Machine.guestMerge
  split
  · exact refl s
  · exact of_eq rfl rfl

theorem evictCopy (s : State) (core line : Nat) : KeepsStrands s (evictCopy s core line) := by
  unfold Machine.evictCopy
  split
  · exact refl s
  · extract_lets s1
    have h1 : KeepsStrands s s1 := of_eq rfl rfl
    clear_value s1
    refine h1.trans (ite (fun _ => refl _) fun _ => ite (fun _ => guestMerge ..) fun _ => ite (fun _ => ?_) fun _ => ?_)
    · exact of_eq rfl rfl
    · exact ite (fun _ => of_eq rfl rfl) fun _ => refl _

theorem leaveCore (s : State) (core ctx : Nat) : KeepsStrands s (leaveCore s core ctx) := by
  unfold Machine.leaveCore
  exact ite (fun _ => refl s) fun _ => foldl (fun _ _ => evictCopy ..) _ s

end KeepsStrands

end Sys2Proof.Machine
end

section
/-! A trap leaves no strand parked (R366, R371, R373). -/

namespace Sys2Proof.Machine

/-- The strand is not parked. -/
def State.unparked (s : State) (u : Nat) : Prop := (s.strand u).run.isParked = false

variable {s s' : State} {u : Nat}

theorem KeepsStrands.unparked (h : KeepsStrands s s') (hu : s.unparked u) : s'.unparked u := by
  unfold State.unparked
  rwa [h.run]

theorem KeepsStrands.dropMoves (s : State) (ctx : Nat) : KeepsStrands s (dropMoves s ctx) := by
  unfold Machine.dropMoves
  extract_lets s1
  have h1 : KeepsStrands s s1 := by
    refine foldl (fun s m => ?_) _ s
    split
    · exact ite (fun _ => of_eq rfl rfl) fun _ => refl s
    · exact refl s
  exact h1.trans (of_eq rfl rfl)

theorem KeepsStrands.releaseReserved (s : State) (id : Nat) : KeepsStrands s (releaseReserved s id) := by
  unfold Machine.releaseReserved
  extract_lets s1
  have h1 : KeepsStrands s s1 := by
    refine foldl (fun s r => ?_) _ s
    refine foldl (fun s c => ?_) _ s
    exact of_eq rfl rfl
  exact h1.trans (of_eq rfl rfl)

theorem KeepsStrands.cancelCommands (s : State) (ctx : Nat) : KeepsStrands s (cancelCommands s ctx) := by
  refine foldl (fun s d => ?_) _ s
  exact of_eq rfl rfl

theorem finishStrand_run (s : State) (v u : Nat) :
    ((finishStrand s v).strand u).run = if u = v then .done else (s.strand u).run := by
  unfold finishStrand
  rw [(KeepsStrands.leaveCore _ _ _).run, State.updStrand_strand]
  split <;> rfl

theorem finishStrand_unparked (s : State) (u : Nat) : (finishStrand s u).unparked u := by
  unfold State.unparked
  rw [finishStrand_run, if_pos rfl]
  rfl

/-- A strand that is not parked is not parked by the end of any strand. -/
theorem State.unparked.finishStrand (h : s.unparked u) (v : Nat) : (finishStrand s v).unparked u := by
  unfold State.unparked
  rw [finishStrand_run]
  split
  · rfl
  · exact h

theorem State.unparked.finishStrands (h : s.unparked u) (us : List Nat) : (us.foldl Machine.finishStrand s).unparked u := by
  induction us generalizing s with
  | nil => exact h
  | cons v us ih => exact ih (h.finishStrand v)

theorem State.unparked.loseContext (h : s.unparked u) (ctx sub : Nat) (v : Option Nat) : (loseContext s ctx sub v).unparked u := by
  unfold Machine.loseContext
  split
  · exact h
  · extract_lets slotCore s1 s2 mine s3 s4 s5 s6
    have h1 : KeepsStrands s s1 := .faultLog ..
    have h2 : KeepsStrands s1 s2 := .of_eq rfl rfl
    have hdrop : KeepsStrands s2 (dropMoves (withdrawRequests s2 mine) ctx) :=
      (KeepsStrands.between s2 (withdrawRequests s2 mine) rfl rfl).trans (.dropMoves ..)
    have h3 : s3.unparked u := (((h1.trans h2).trans hdrop).unparked h).finishStrands mine
    have h4 : KeepsStrands s3 s4 := .cancelCommands ..
    have h5 : KeepsStrands s4 s5 := by
      unfold s5
      refine .foldl (fun s i => ?_) _ s4
      exact (KeepsStrands.releaseReserved s i).trans (.of_eq rfl rfl)
    have h6 : KeepsStrands s5 s6 := by
      unfold s6
      refine .foldl (fun s q => ?_) _ s5
      exact (KeepsStrands.between s (setPlacing s q none) rfl rfl).trans (.queueError ..)
    have hend := ((h4.trans h5).trans h6).unparked h3
    clear_value s6
    exact (KeepsStrands.between s6 _ rfl rfl).unparked hend

theorem takeTrap_unparked (s : State) (u : Nat) (x : Trap) (async part : Bool) : (takeTrap s u x async part).unparked u := by
  unfold takeTrap
  extract_lets t
  split
  · unfold doubleTrap
    extract_lets s1 s2
    have h2 : s2.unparked u := finishStrand_unparked s1 u
    split
    · exact h2.loseContext ..
    · exact h2
  · unfold State.unparked
    rw [State.updStrand_strand, if_pos rfl]
    rfl

end Sys2Proof.Machine
end

section
/-! A step that lets a strand issue is that strand's issue opportunity (R29, R108, R369, R370). -/

namespace Sys2Proof.Machine

variable {s s1 s2 t : State} {u : Nat} {w : InstrWord}

/-- A step that lets a strand issue gives that strand its turn. -/
theorem step_of_letsIssue (h : letsIssue s u) : step s = strandTurn s.ticked u := by
  obtain ⟨hover, hstuck, c, cs, hcands, hpick⟩ := h
  have hturn : step s = match overdue s.ticked with
    | some i => exec i s.ticked
    | none => match stuckPlaces s.ticked with
      | h :: hs => .next (stopPlayback s.ticked (h :: hs))
      | [] => match candidates s.ticked with
        | [] => .next s.ticked
        | [c] => c.run s.ticked
        | c :: cs => ((c :: cs).getD (Config.choice s.ticked.tick % (cs.length + 1)) c).run s.ticked := rfl
  rw [hturn, hover, hstuck, hcands]
  cases cs with
  | nil =>
    have hc : c = .strand u := by simpa [Nat.mod_one] using hpick
    subst hc
    rfl
  | cons c' cs =>
    show Cand.run s.ticked _ = _
    rw [hpick]
    rfl

/-- What the issue opportunity of the strand gives, settled, is what the step gives. -/
theorem step_of_issue (h : letsIssue s u) (hi : issue (s.issuing u) = .next t) : step s = .next (s.settled u t) := by
  rw [step_of_letsIssue h]
  unfold strandTurn State.settled
  unfold State.issuing at hi
  simp only [hi]
  split <;> rfl

/-- Where no cause 20 can be taken, the strand issues or skips. -/
theorem issue_goes (h : s.me.async20 = none ∨ s.me.trapStat.getLsbD 0 = true ∨ s.me.atPlace.isSome = true) :
    issue s = issue.go s s.me := by
  unfold issue
  extract_lets t
  cases ha : t.async20 with
  | none => rfl
  | some tag =>
    have hheld : (t.trapStat.getLsbD 0 || t.atPlace.isSome) = true := by
      rcases h with h | h | h
      · exact nomatch ha.symm.trans h
      · exact Bool.or_eq_true_iff.mpr (.inl h)
      · exact Bool.or_eq_true_iff.mpr (.inr h)
    exact if_pos hheld

theorem issue_async {tag : Word} (ha : s.me.async20 = some tag) (hs : s.me.trapStat.getLsbD 0 = false)
    (hp : s.me.atPlace = none) :
    issue s = .next (takeTrap ((pipeStop s s.cur).updMe fun t => { t with async20 := none, bpSkip := false, waitGen := 0 }) s.cur
      ⟨20, 0, tag⟩ true s.me.part.begun) := by
  unfold issue
  extract_lets t
  have hfree : ¬(t.trapStat.getLsbD 0 || t.atPlace.isSome) = true := by
    rw [hs, hp]
    exact Bool.false_ne_true
  rw [ha]
  exact if_neg hfree

theorem go_issues (hr : s.me.run ≠ .skipping) (hb : breakpoint s.me = false) : issue.go s s.me = issueWord s := by
  simp [issue.go, hr, hb]

theorem go_breaks (hr : s.me.run ≠ .skipping) (hb : breakpoint s.me = true) :
    issue.go s s.me = .next (takeTrap (recordElements s) s.cur ⟨16, 1, s.me.pc⟩ false false) := by
  simp [issue.go, hr, hb]

theorem go_skips (hr : s.me.run = .skipping) : issue.go s s.me = skipWord s := by
  simp [issue.go, hr]

/-- The state in which a fetched word runs: BPSKIP, which lets one instruction by, is spent (R369). -/
def State.spendSkip (t0 : Strand) (s : State) : State := if t0.bpSkip then s.updMe fun t => { t with bpSkip := false } else s

/-- An instruction that parks keeps BPSKIP, since it issues again (R369). -/
def State.keepSkip (t0 : Strand) (u : Nat) (t : State) : State :=
  match (t.strand u).run with
  | .parked _ => if t0.bpSkip then t.updStrand u fun t => { t with bpSkip := true } else t
  | _ => t

theorem keepSkip_of_unparked {t0 : Strand} (h : t0.bpSkip = false ∨ t.unparked u) : State.keepSkip t0 u t = t := by
  unfold State.keepSkip
  split
  next w hw =>
    rcases h with h | h
    · rw [if_neg (by simp [h])]
    · rw [State.unparked, hw] at h
      exact nomatch h
  next => rfl

theorem keepSkip_of_parked {t0 : Strand} (h : t0.bpSkip = true) (hp : (t.strand u).run.isParked = true) :
    State.keepSkip t0 u t = t.updStrand u fun t => { t with bpSkip := true } := by
  unfold State.keepSkip
  cases hr : (t.strand u).run with
  | parked w => exact if_pos h
  | _ =>
    rw [hr] at hp
    cases hp

theorem issueWord_untaken {x : Trap} (h : fetch s = .error x) :
    issueWord s = .next (takeTrap (s.updMe fun t => { t with bpSkip := false }) s.cur x false false) := by
  rw [issueWord, h]

theorem issueWord_runs (h : fetch s = .ok (w, s1)) (hr : runWord w (s1.spendSkip s.me) = .next t) :
    issueWord s = .next (t.keepSkip s.me s1.cur) := by
  unfold State.spendSkip at hr
  unfold issueWord
  simp only [h, hr]
  rfl

/-- The state in which a skipping strand fetches (R369). -/
theorem skipWord_untaken {x : Trap} (hs : s1 = s.spendSkip s.me) (h : fetch s1 = .error x) :
    skipWord s = .next (takeTrap s1 s1.cur x false false) := by
  subst hs
  unfold State.spendSkip at h ⊢
  unfold skipWord
  simp only [h]

theorem skipWord_reads (hs : s1 = s.spendSkip s.me) (h : fetch s1 = .ok (w, s2)) :
    skipWord s = if endsSkip s2.me w then runWord w s2 else .next (s2.updMe fun t => { t with pc := t.pc + 4 }) := by
  subst hs
  unfold State.spendSkip at h
  unfold skipWord
  simp only [h]

end Sys2Proof.Machine

open Sys2Proof Sys2Proof.Machine

/-- Settles O29: a step that lets a strand issue is the strand's turn, and each case is one branch of its issue. -/
theorem stepRunsDecoded : Obligations.StepRunsDecoded := by
  unfold Obligations.StepRunsDecoded
  rintro s u s0 t0 hlets rfl rfl
  have hstep := fun t => step_of_issue (t := t) hlets
  have hcur : (s.issuing u).cur = u := rfl
  refine ⟨fun hgo => ?_, fun tag ha hs hp => hstep _ (issue_async ha hs hp)⟩
  have hissue := issue_goes hgo
  refine ⟨fun hr hb => ⟨fun x hx => ?_, fun w s1 s2 hf hu hs2 => ⟨fun i t hd he => ⟨fun hk => ?_, fun hskip hk => ?_⟩,
    fun e hd => ?_⟩⟩, fun hr hb => ?_, fun hr s1 hs1 => ⟨fun x hx => ?_, fun w s2 hf => ⟨fun hend => ?_, fun hend i t hd he => ?_⟩⟩⟩
  · exact hstep _ (hissue.trans ((go_issues hr hb).trans (issueWord_untaken hx)))
  · subst hs2
    have hruns := issueWord_runs hf ((runWord_of_decode hd).trans he)
    rw [hu, keepSkip_of_unparked hk] at hruns
    exact hstep _ (hissue.trans ((go_issues hr hb).trans hruns))
  · subst hs2
    have hruns := issueWord_runs hf ((runWord_of_decode hd).trans he)
    rw [hu, keepSkip_of_parked hskip hk] at hruns
    exact hstep _ (hissue.trans ((go_issues hr hb).trans hruns))
  · subst hs2
    have hruns := issueWord_runs hf (runWord_of_illegal hd)
    have hsame : (s1.spendSkip (s.issuing u).me).cur = u := by
      unfold State.spendSkip
      split <;> exact hu
    rw [hu, hsame, keepSkip_of_unparked (.inr (takeTrap_unparked ..))] at hruns
    exact hstep _ (hissue.trans ((go_issues hr hb).trans hruns))
  · exact hstep _ (hissue.trans (go_breaks hr hb))
  · have hs1u : s1.cur = u := by
      subst hs1
      split <;> rfl
    have hskip := skipWord_untaken hs1 hx
    rw [hs1u] at hskip
    exact hstep _ (hissue.trans ((go_skips hr).trans hskip))
  · have hskip := skipWord_reads hs1 hf
    rw [if_neg (by simp [hend])] at hskip
    exact hstep _ (hissue.trans ((go_skips hr).trans hskip))
  · have hskip := skipWord_reads hs1 hf
    rw [if_pos hend, runWord_of_decode hd, he] at hskip
    exact hstep _ (hissue.trans ((go_skips hr).trans hskip))

end

section
/-! The order of the checks, and the class-missing trap (R45, R350, R358). -/

namespace Sys2Proof.Machine

variable {s : State} {u : Nat} {f : Form}

theorem Form.check_csr {x : Trap} (h : f.csr = some x) : f.check s = some x := by
  rw [Form.check, h]

section
variable (hcsr : f.csr = none)
include hcsr

theorem Form.check_privilege (hf : f.firmware = true) (hl : s.me.firmware = false) :
    f.check s = some ⟨4, 0, f.word.setWidth 64⟩ := by
  simp [Form.check, hcsr, hf, hl]

variable (hlevel : (f.firmware && !s.me.firmware) = false)
include hlevel

/-- Past check 5 a form is at its operand fields. -/
theorem Form.check_operands {n : Nat} (hbad : f.ops.findSome? Opnd.bad = some n) :
    f.check s = some ⟨2, n, f.word.setWidth 64⟩ := by
  simp [Form.check, hcsr, hlevel, hbad]

variable (hops : f.ops.findSome? Opnd.bad = none)
include hops

theorem Form.check_bar (hb : f.bar = true) (he : s.me.isExecute = true) :
    f.check s = some ⟨13, 6, f.word.setWidth 64⟩ := by
  simp [Form.check, hcsr, hlevel, hops, hb, he]

variable (hbar : (f.bar && s.me.isExecute) = false)
include hbar

/-- Past the bar a form is at its queues: the first that fails its check. -/
theorem Form.check_queue {o : Opnd} {n : Nat} {rest before : List Opnd} (hf : f.ops = before ++ o :: rest)
    (hfree : ∀ p ∈ before, p.badQueue s s.cur = none) (ho : o.badQueue s s.cur = some n) :
    f.check s = some ⟨13, n, o.field.setWidth 64⟩ := by
  have hfirst : (f.ops.findSome? fun o => (o.badQueue s s.cur).map fun n => (o, n)) = some (o, n) := by
    have hbefore : (before.findSome? fun o => (o.badQueue s s.cur).map fun n => (o, n)) = none :=
      List.findSome?_eq_none_iff.mpr fun p hp => by simp [hfree p hp]
    simp [hf, List.findSome?_append, hbefore, ho]
  simp [Form.check, hcsr, hlevel, hops, hbar, hfirst]

/-- Past its queues a form is at its class. -/
theorem Form.check_class (hfree : ∀ o ∈ f.ops, o.badQueue s s.cur = none) : f.check s =
    if f.classes.testBit (classOf s s.me.core) then none else some ⟨3, 0, f.word.setWidth 64⟩ := by
  have hnone : (f.ops.findSome? fun o => (o.badQueue s s.cur).map fun n => (o, n)) = none :=
    List.findSome?_eq_none_iff.mpr fun o ho => by simp [hfree o ho]
  simp [Form.check, hcsr, hlevel, hops, hbar, hnone]

end

/-! The class-missing trap. -/

theorem stopTrap_class {x : Trap} {part : Bool} (h : x.cause = 3) :
    stopTrap f s x part = classMissing s s.cur f.word f.classes f.xfields := if_pos h

theorem emulate_of_canEmulate {w : InstrWord} {xs : List Nat} {n : Nat} {p : Option Wait}
    (h : (s.strand u).canEmulate xs = true) : emulate s u w xs n p = emulated s u w n := by
  simp [emulate, h, emulated]

theorem emulate_else_ends {w : InstrWord} {xs : List Nat} {n : Nat} (h : (s.strand u).canEmulate xs = false) :
    emulate s u w xs n none = endUnit s u w := by
  simp [emulate, h]

theorem emulate_else_parks {w : InstrWord} {xs : List Nat} {n : Nat} {p : Wait}
    (h : (s.strand u).canEmulate xs = false) : emulate s u w xs n (some p) = park s u p := by
  simp [emulate, h]

@[simp] theorem park_strand (s : State) (u v : Nat) (w : Wait) : (park s u w).strand v =
    if v = u then { s.strand u with
      run := .parked w, parkedAt := s.clock,
      trace := { (s.strand u).trace with heldAt := (s.strand u).holdFor s.clock w } } else s.strand v :=
  State.updStrand_strand ..

/-- A strand that parks keeps the owner of its queues. -/
@[simp] theorem owner_park (s : State) (u : Nat) (w : Wait) : (park s u w).owner u = s.owner u := by
  simp [State.owner]

/-- A strand that has no search of its own begins one behind the others. -/
theorem joinSearch_new {v : Move} (h : ∀ m ∈ s.moves, m.uid ≠ v.uid) : joinSearch s v = s.moves ++ [v] := by
  have hnone : (s.moves.find? fun x => x.uid = v.uid && x.target.isNone && x.reason = 1 && x.issuer != v.issuer) = none :=
    List.find?_eq_none.mpr fun m hm => by simp [h m hm]
  have hall : (s.moves.filter fun x => x.uid != v.uid) = s.moves :=
    List.filter_eq_self.mpr fun m hm => by simpa using h m hm
  rw [joinSearch, hnone, hall]

/-- The classes that a class-missing trap may move the strand to: those of its allowed set that execute the form, without C for a
strand in a gang (R350). -/
def missingMask (s : State) (u classes : Nat) : Nat :=
  (classes &&& (s.strand (s.owner u)).travel.allowed) &&&
    (if (s.couple u).any fun v => !(s.strand v).gangs.isEmpty then 6 else 7)

section
variable {w : InstrWord} {classes : Nat} {xs : List Nat}

theorem classMissing_family (hf : s.inFamily u = true) : classMissing s u w classes xs = emulate s u w xs 4 none :=
  if_pos hf

variable (hf : s.inFamily u = false)
include hf

theorem classMissing_nowhere (hm : missingMask s u classes = 0) :
    classMissing s u w classes xs = emulate s u w xs 3 none := by
  unfold missingMask at hm
  simp only [classMissing, hf, hm]
  rfl

variable (hm : missingMask s u classes ≠ 0)
include hm

theorem classMissing_broke (hc : (s.strand (s.owner u)).travel.credits = 0) :
    classMissing s u w classes xs = emulate s u w xs 1 (some (.migrate (missingMask s u classes) true)) := by
  unfold missingMask at hm ⊢
  simp only [classMissing, hf, hm, hc]
  rfl

theorem classMissing_search (hc : (s.strand (s.owner u)).travel.credits ≠ 0) {p : State}
    (hp : p = park s u (.migrate (missingMask s u classes) false)) :
    classMissing s u w classes xs = { p with
      moves := joinSearch p ⟨s.owner u, missingMask s u classes, 1, p.time + (p.context (s.strand u).ctx).waitBound, none,
        p.clock, none, u, w, xs⟩ } := by
  subst hp
  unfold missingMask at hm ⊢
  simp only [classMissing, hf, hm, hc, owner_park]
  rfl

end

/-! Entering the emulation handler. -/

theorem Strand.canEmulate_eq (t : Strand) (xs : List Nat) : t.canEmulate xs =
    (decide (t.emuVec ≠ 0) && !t.uistat.getLsbD 1 && xs.all fun r => decide (r < 24 ∨ 32 ≤ r)) := by
  have hout : (!xs.any fun r => decide (24 ≤ r ∧ r < 32)) = xs.all fun r => decide (r < 24 ∨ 32 ≤ r) := by
    induction xs with
    | nil => rfl
    | cons r xs ih =>
      have hr : (!decide (24 ≤ r ∧ r < 32)) = decide (r < 24 ∨ 32 ≤ r) := by
        rw [← decide_not, decide_eq_decide]
        omega
      rw [List.any_cons, List.all_cons, Bool.not_or, ih, hr]
  rw [Strand.canEmulate, hout, bne, beq_eq_decide, ← decide_not]

/-- A table into which a value has been written at each of some keys. -/
theorem Tab.get_foldl_set {α : Type} [DecidableEq α] (d : α) (g : Nat → α) (ks : List Nat) (k : Nat) :
    ∀ x, Tab.get d (ks.foldl (fun x r => Tab.set d x r (g r)) x) k = if k ∈ ks then g k else Tab.get d x k := by
  induction ks with
  | nil => intro x; rfl
  | cons r ks ih =>
    intro x
    rw [List.foldl_cons, ih, Tab.get_set]
    by_cases hk : k ∈ ks
    · simp [hk]
    · by_cases hr : k = r <;> simp [hk, hr]

/-- The registers of the shadow bank. -/
theorem mem_bank {r : Nat} : r ∈ (List.range 8).map (· + 24) ↔ 24 ≤ r ∧ r < 32 := by
  simp only [List.mem_map, List.mem_range]
  exact ⟨by rintro ⟨k, hk, rfl⟩; omega, fun ⟨h1, h2⟩ => ⟨r - 24, by omega, by omega⟩⟩

theorem Strand.swapBank_x (t : Strand) (r : Nat) : Tab.get 0 t.swapBank.x r =
    if 24 ≤ r ∧ r < 32 then Tab.get 0 t.shadow r else Tab.get 0 t.x r := by
  simp only [← mem_bank]
  exact Tab.get_foldl_set 0 _ _ r _

theorem Strand.swapBank_shadow (t : Strand) (r : Nat) : Tab.get 0 t.swapBank.shadow r =
    if 24 ≤ r ∧ r < 32 then Tab.get 0 t.x r else Tab.get 0 t.shadow r := by
  simp only [← mem_bank]
  exact Tab.get_foldl_set 0 _ _ r _

/-- A word whose upper eight bits come from the second of two words. -/
theorem getLsbD_spliced {r : Nat} (hlow : 24 ≤ r) (hr : r < 32) (x y : BitVec 32) :
    ((x &&& 0x00FFFFFF) ||| (y &&& 0xFF000000)).getLsbD r = y.getLsbD r := by
  interval_cases r <;> simp

section
variable (t : Strand) (w : InstrWord) (n : Nat)

/-- The handler's registers: the word, its program counter and the reason in x24 to x26, else those of the swapped bank (R358). -/
theorem Strand.enterEmulation_x (r : Nat) : Tab.get 0 (t.enterEmulation w n).x r =
    if r = 26 then BitVec.ofNat 64 n else if r = 25 then t.pc else if r = 24 then w.setWidth 64
    else Tab.get 0 t.swapBank.x r := by
  have hx : (t.enterEmulation w n).x =
    Tab.set 0 (Tab.set 0 (Tab.set 0 t.swapBank.x 24 (w.setWidth 64)) 25 t.pc) 26 (BitVec.ofNat 64 n) := rfl
  rw [hx, Tab.get_set, Tab.get_set, Tab.get_set]

theorem Strand.enterEmulation_reg_high {r : Nat} (h : 27 ≤ r) (hr : r < 32) :
    (t.enterEmulation w n).reg r = Tab.get 0 t.shadow r := by
  rw [Strand.reg, if_neg (by omega), Strand.enterEmulation_x, if_neg (by omega), if_neg (by omega), if_neg (by omega),
    Strand.swapBank_x, if_pos (by omega)]

theorem Strand.enterEmulation_reg_low {r : Nat} (hr : r < 24) : (t.enterEmulation w n).reg r = t.reg r := by
  have hx : Tab.get 0 (t.enterEmulation w n).x r = Tab.get 0 t.x r := by
    rw [Strand.enterEmulation_x, if_neg (by omega), if_neg (by omega), if_neg (by omega), Strand.swapBank_x,
      if_neg (by omega)]
  rw [Strand.reg, hx, ← Strand.reg]

theorem Strand.enterEmulation_shadow {r : Nat} (h : 24 ≤ r) (hr : r < 32) :
    Tab.get 0 (t.enterEmulation w n).shadow r = t.reg r := by
  have hs : (t.enterEmulation w n).shadow = t.swapBank.shadow := rfl
  rw [hs, Strand.swapBank_shadow, if_pos ⟨h, hr⟩, Strand.reg, if_neg (by omega)]

end

end Sys2Proof.Machine

open Sys2Proof.Machine

/-- Settles O31: each check is the next one where those before it pass, a check's trap is the answer of `insn`, and the
class-missing
trap and the emulation's entry are followed through their branches. -/
theorem checkOrder : Obligations.CheckOrder := by
  unfold Obligations.CheckOrder
  have hnot {a b : Bool} (h : a = true → b = true) : (a && !b) = false := Bool.and_eq_false_imp.mpr fun ha => by rw [h ha]; rfl
  refine ⟨fun f s => ⟨fun x => Form.check_csr, Form.check_privilege, fun hcsr hlevel =>
      ⟨fun n => Form.check_operands hcsr (hnot hlevel), fun hops => ⟨Form.check_bar hcsr (hnot hlevel) hops, fun hbar =>
        ⟨fun o n rest before => Form.check_queue hcsr (hnot hlevel) hops (Bool.and_eq_false_imp.mpr hbar), fun hfree => ?_⟩⟩⟩⟩,
    fun f body s x hc h3 he => (insn_check hc).trans (congrArg _ (stopTrap_eq_takeTrap h3 he)),
    fun f => ⟨rfl, rfl, rfl⟩,
    fun f body s x hc h3 => (insn_check hc).trans (congrArg _ (stopTrap_class h3)), ?_⟩
  · have hclass := Form.check_class hcsr (hnot hlevel) hops (Bool.and_eq_false_imp.mpr hbar) hfree
    exact ⟨fun hc => by rw [hclass, hc]; rfl, fun hc => by rw [hclass, hc]; rfl⟩
  · rintro s u w classes xs t o mask rfl rfl (rfl : _ = missingMask s u classes)
    refine ⟨fun n hn => ?_, fun hf hm hc => ?_, fun hf hm hc p e hp he => ?_, Strand.canEmulate_eq _ xs, ?_⟩
    · have hgo : classMissing s u w classes xs = emulate s u w xs n none := by
        obtain ⟨hf, rfl⟩ | ⟨hf, hm, rfl⟩ := hn
        · exact classMissing_family hf
        · exact classMissing_nowhere hf hm
      exact ⟨fun h => hgo.trans (emulate_of_canEmulate h), fun h => hgo.trans (emulate_else_ends h)⟩
    · have hgo := classMissing_broke (w := w) (xs := xs) hf hm hc
      exact ⟨fun h => hgo.trans (emulate_of_canEmulate h), fun h => hgo.trans (emulate_else_parks h)⟩
    · rw [classMissing_search hf hm hc hp] at he
      subst he
      exact ⟨fun v => rfl, rfl, fun hnew => joinSearch_new hnew⟩
    · rintro n t' rfl
      exact ⟨rfl, rfl, rfl, rfl, Strand.enterEmulation_x _ w n 24, Strand.enterEmulation_x _ w n 25,
        Strand.enterEmulation_x _ w n 26, fun r => Strand.enterEmulation_reg_high _ w n,
        fun r => Strand.enterEmulation_reg_low _ w n,
        fun r h hr => ⟨Strand.enterEmulation_shadow _ w n h hr, getLsbD_spliced h hr _ _, getLsbD_spliced h hr _ _⟩,
        rfl, rfl, rfl, rfl⟩

end

section
/-! The control registers: what a CSR instruction does, its privilege and access checks, and what a register keeps (R41-R43). -/

namespace Sys2Proof.Machine

variable {s : State} {d a : BitVec 6} {n : Nat}

/-- The state after the note that a read of THROT, or of DBVAL, leaves (R421, R422). -/
def State.noteRead (s : State) (n : Nat) : State :=
  if n = 0x912 then s.updModule fun m => { m with capReached := false }
  else if n = 0x90A then s.updModule fun m => { m with dbUnread := false } else s

/-- A CSR instruction notes its read, writes the new value of the register, and gives the old one to d. -/
theorem csrOp_runs {writes : Bool} {value : Word → Word → Word} {clear : Word → Word}
    (hkey : n = 0x921 → keyInFlight s s.module.keySel.toNat = false) :
    seq (csrOp d a n writes value clear) s = .ok .seq
      ((if writes then csrWrite (s.noteRead n) n (value (csrRead s n) (s.me.reg a.toNat)) (clear (s.me.reg a.toNat))
        else s.noteRead n).updMe fun t => t.setReg d.toNat (csrRead s n)) := by
  have hfree : (writes && n = 0x921 && (value (csrRead s n) (s.me.reg a.toNat) = 1 || value (csrRead s n) (s.me.reg a.toNat) = 2)
      && keyInFlight s s.module.keySel.toNat) = false := by
    by_cases h : n = 0x921
    · simp [hkey h]
    · simp [h]
  unfold seq csrOp
  rw [run_bind_ok (a := ()) (s' := (if writes then csrWrite (s.noteRead n) n (value (csrRead s n) (s.me.reg a.toNat))
      (clear (s.me.reg a.toNat)) else s.noteRead n).updMe fun t => t.setReg d.toNat (csrRead s n))]
  · rfl
  rw [run_bind_ok (run_get s)]
  simp only [hfree]
  unfold State.noteRead
  by_cases h90A : n = 0x90A
  · subst h90A
    cases writes <;> rfl
  · by_cases h912 : n = 0x912
    · subst h912
      cases writes <;> rfl
    · simp only [h90A, h912]
      cases writes <;> rfl

/-- A CSR form passes its checks where its register can be accessed. -/
theorem check_csrForm {w : InstrWord} {rs : List (BitVec 6)} {xs : List Nat} (hc : onClass s (csrClasses n))
    (hr : ∀ r ∈ rs, r.toNat < 32) :
    ({ word := w, csr := none, ops := rs.map .reg, classes := csrClasses n, xfields := xs } : Form).check s = none :=
  (Form.check_none _ s).mpr ⟨rfl, nofun, admitted_regs hr, nofun, hc⟩

/-- A CSR instruction completes at the next word. -/
theorem csrForm_completes {i : Instr} {w : InstrWord} {rs : List (BitVec 6)} {xs : List Nat} {writes : Bool}
    {value : Word → Word → Word} {clear : Word → Word} {trap : Option Trap}
    (hx : exec i s = insn { word := w, csr := trap, ops := rs.map .reg, classes := csrClasses n, xfields := xs }
      (seq (csrOp d a n writes value clear)) s)
    (hr : ∀ r ∈ rs, r.toNat < 32) (hc : onClass s (csrClasses n))
    (hkey : n = 0x921 → keyInFlight s s.module.keySel.toNat = false) (htrap : trap = none) :
    ∀ s2, s2 = (if writes then csrWrite (s.noteRead n) n (value (csrRead s n) (s.me.reg a.toNat)) (clear (s.me.reg a.toNat))
        else s.noteRead n) →
      completesWith i s (s2.updMe fun t => t.setReg d.toNat (csrRead s n))
        (((s2.updMe fun t => t.setReg d.toNat (csrRead s n)).strand s.cur).pc + 4) := by
  rintro s2 rfl
  subst htrap
  exact insn_completes hx (check_csrForm hc hr) (csrOp_runs hkey) (.inl ⟨rfl, rfl⟩)

/-- A read notes what it notes in the module only. -/
theorem noteRead_strands (s : State) (n : Nat) : (s.noteRead n).strands = s.strands := by
  unfold State.noteRead
  split
  · rfl
  · split <;> rfl

/-! What a per-strand register reads after a write. -/

/-- Every strand of the unit gets the save area's address (R363). -/
theorem setSaveBase_me (s : State) (v : Word) : (setSaveBase s v).me.saveBase = v := by
  have hkeep : ∀ (us : List Nat) (s : State), s.me.saveBase = v →
      (us.foldl (init := s) fun s u => s.updStrand u fun t => { t with saveBase := v }).me.saveBase = v := by
    intro us
    induction us with
    | nil => exact fun s h => h
    | cons u us ih =>
      intro s h
      refine ih _ ?_
      unfold State.me at h ⊢
      rw [State.updStrand_strand, State.updStrand_cur]
      split
      · rfl
      · exact h
  exact hkeep _ _ (by rw [State.updMe_me])

/-- A register that is written as a field of the strand, and read as one, reads what was written. -/
theorem csrRead_csrWrite (s : State) (n : Nat) (v c : Word) (f : Strand → Strand) (g : Strand → Word)
    (hw : csrWrite s n v c = s.updMe f) (hr : ∀ s, csrRead s n = g s.me) : csrRead (csrWrite s n v c) n = g (f s.me) := by
  rw [hw, hr, State.updMe_me]

/-! The checks of a register. -/

section
variable {w : InstrWord} {writes : Bool}

theorem csrTrap_privilege (hn : 0x800 ≤ n) (hl : s.me.firmware = false) :
    csrTrap s w n writes = some ⟨4, 0, w.setWidth 64⟩ := by
  simp [csrTrap, hn, hl]

variable (hl : n < 0x800 ∨ s.me.firmware = true)
include hl

/-- Past the privilege check a register is at its access. -/
theorem csr_privileged : ¬ (0x800 ≤ n ∧ (!s.me.firmware) = true) := by
  rintro ⟨hn, hf⟩
  obtain h | h := hl
  · omega
  · simp [h] at hf

theorem csrTrap_unassigned (h : csrAccess n = none) : csrTrap s w n writes = some ⟨1, 8, w.setWidth 64⟩ := by
  rw [csrTrap, if_neg (csr_privileged hl), h]

theorem csrTrap_readOnly (h : csrAccess n = some false) : csrTrap s w n true = some ⟨1, 8, w.setWidth 64⟩ := by
  rw [csrTrap, if_neg (csr_privileged hl), h]
  exact if_pos (Bool.and_self true)

end

end Sys2Proof.Machine

open Sys2Proof.Machine

/-- Settles O9: each form is the one CSR operation, run by `csrOp_runs`. -/
theorem controlRegisters : Obligations.ControlRegisters := by
  unfold Obligations.ControlRegisters
  refine ⟨fun s s1 s2 e d a c hd ha hc hkey hs1 => ?_, fun s v c => ⟨
    csrRead_csrWrite s 0x000 v c (fun t => { t with fcsr := blend 0x3F3 t.fcsr v }) Strand.fcsr rfl fun _ => rfl,
    csrRead_csrWrite s 0x002 v c (fun t => { t with vms := blend 0x7F t.vms v }) Strand.vms rfl fun _ => rfl,
    csrRead_csrWrite s 0x003 v c (fun t => { t with vst := v }) Strand.vst rfl fun _ => rfl,
    csrRead_csrWrite s 0x005 v c (fun t => { t with vstart := blend 0x1FF t.vstart v }) Strand.vstart rfl fun _ => rfl,
    csrRead_csrWrite s 0x006 v c (fun t => { t with vdone := v }) Strand.vdone rfl fun _ => rfl,
    csrRead_csrWrite s 0x007 v c (fun t => { t with srseed := blend 0xFFFFFFFF t.srseed v }) Strand.srseed rfl fun _ => rfl,
    csrRead_csrWrite s 0x008 v c (fun t => { t with scthr := blend 0x7F t.scthr v }) Strand.scthr rfl fun _ => rfl,
    csrRead_csrWrite s 0x042 v c (fun t => { t with uipc := v }) Strand.uipc rfl fun _ => rfl,
    csrRead_csrWrite s 0x800 v c (fun t => { t with trapVec := v &&& ~~~3 }) Strand.trapVec rfl fun _ => rfl,
    csrRead_csrWrite s 0x801 v c (fun t => { t with trapCause := blend 0x80FF003F t.trapCause v }) Strand.trapCause rfl fun _ =>
      rfl,
    csrRead_csrWrite s 0x802 v c (fun t => { t with trapPc := v }) Strand.trapPc rfl fun _ => rfl,
    csrRead_csrWrite s 0x803 v c (fun t => { t with trapVal := v }) Strand.trapVal rfl fun _ => rfl,
    csrRead_csrWrite s 0x804 v c (fun t => { t with trapStat := blend 0x103 t.trapStat v }) Strand.trapStat rfl fun _ =>
      rfl, setSaveBase_me s v⟩,
    fun s w n wr => ⟨csrTrap_privilege, csrTrap_unassigned, csrTrap_readOnly⟩⟩
  obtain rfl : s1 = s.noteRead c.toNat := hs1
  have hr : ∀ r ∈ [d, a], r.toNat < 32 := by simp [hd, ha]
  have hwrites (x y : State) : (if a = 0 then x else y) = if (a != 0) = true then y else x := by
    by_cases h0 : a = 0 <;> simp [h0]
  refine ⟨fun ht hs2 => ?_, fun ht hs2 => ?_, fun ht hs2 => ?_, fun ht he => ?_⟩
  · exact csrForm_completes (rs := [d, a]) (writes := true) (value := fun _ x => x) (clear := fun x => x) rfl hr hc hkey ht s2 hs2
  · rw [hwrites] at hs2
    exact csrForm_completes (rs := [d, a]) (value := fun o x => o ||| x) (clear := fun x => x) rfl hr hc hkey ht s2 hs2
  · rw [hwrites] at hs2
    exact csrForm_completes (rs := [d, a]) (value := fun o x => o &&& ~~~x) (clear := fun _ => 0) rfl hr hc hkey ht s2 hs2
  · have hgo := csrForm_completes (i := .csrr d c) (d := d) (a := 0) (n := c.toNat) (rs := [d]) (writes := false)
      (value := fun o _ => o) (clear := fun _ => 0) rfl (by simpa using hd) hc hkey ht _ rfl
    have hpc : ((s.noteRead c.toNat).strand s.cur).pc = s.me.pc := by rw [State.strand, noteRead_strands]; rfl
    subst he
    rw [pc_updMe_setReg] at hgo
    exact hpc ▸ hgo

end

section
/-! How an operand is read and written, and what parking and waking leave (R34-R37, R93, R103, R138-R143). -/

namespace Sys2Proof.Machine

variable {s : State} {q u : Nat}

/-- The owner of a strand's queues rests on three of its fields. -/
theorem owner_congr {s' : State} {v : Nat} (hc : (s'.strand v).coupled = (s.strand v).coupled)
    (hi : (s'.strand v).strandId = (s.strand v).strandId) (hp : (s'.strand v).partner = (s.strand v).partner) :
    s'.owner v = s.owner v := by
  simp only [State.owner, hc, hi, hp]

/-- Changing a queue changes no owner of queues. -/
theorem owner_updQueue (s : State) (u v q : Nat) (g : Queue → Queue) : (s.updQueue u q g).owner v = s.owner v := by
  have hkeep := State.updStrand_keeps (fun t => (t.coupled, t.strandId, t.partner)) s (s.owner u)
    (fun t => { t with queues := Tab.set Queue.none t.queues q (g (Tab.get Queue.none t.queues q)) }) (fun _ => rfl) v
  simp only [Prod.mk.injEq] at hkeep
  obtain ⟨hc, hi, hp⟩ := hkeep
  exact owner_congr hc hi hp

/-- The queues of a couple after one of them has been changed. -/
theorem queue_updQueue (s : State) (u q r : Nat) (g : Queue → Queue) :
    (s.updQueue u q g).queue u r = if r = q then g (s.queue u q) else s.queue u r := by
  have hstrand : (s.updQueue u q g).strand (s.owner u) = { s.strand (s.owner u) with
      queues := Tab.set Queue.none (s.strand (s.owner u)).queues q (g (s.queue u q)) } :=
    (State.updStrand_strand ..).trans (if_pos rfl)
  rw [State.queue, owner_updQueue, hstrand, Tab.get_set]
  rfl

/-! Queue heads. -/

section
variable {x : Slot} {rest : List Slot} (hk : (s.queue s.cur q).slots = x :: rest)
include hk

theorem popQueue_head (hr : x.ready = true) (hp : x.poison = false) : popQueue q s =
    .ok x.val (s.updQueue s.cur q fun k => { k with h := (k.h + 1) % 65536, slots := rest }) := by
  unfold popQueue
  rw [run_bind_ok (run_get s)]
  simp only [hk, hr, hp]
  rfl

theorem popQueue_unready (hr : x.ready = false) : popQueue q s = .error (.park (.queueData q)) s := by
  unfold popQueue
  rw [run_bind_ok (run_get s)]
  simp only [hk, hr]
  rfl

theorem popQueue_poisoned (hr : x.ready = true) (hp : x.poison = true) :
    popQueue q s = .error (.trap ⟨11, 0, BitVec.ofNat 64 (32 + q)⟩) s := by
  unfold popQueue
  rw [run_bind_ok (run_get s)]
  simp only [hk, hr, hp]
  rfl

end

section
variable (hk : (s.queue s.cur q).slots = [])
include hk

theorem popQueue_abandoned (hp : partnerGone s s.cur = true) :
    popQueue q s = .error (.trap ⟨13, 7, BitVec.ofNat 64 (32 + q)⟩) s := by
  unfold popQueue
  rw [run_bind_ok (run_get s)]
  simp only [hk, hp]
  rfl

theorem popQueue_empty (hp : partnerGone s s.cur = false) : popQueue q s = .error (.park (.queueData q)) s := by
  unfold popQueue
  rw [run_bind_ok (run_get s)]
  simp only [hk, hp]
  rfl

end

/-! Queue slots. -/

/-- The state in which a slot has been allocated at F of a queue. -/
def State.appendSlot (s : State) (q : Nat) (x : Slot) : State :=
  s.updQueue s.cur q fun k => { k with slots := k.slots ++ [x] }

theorem allocSlot_appends {x : Slot} (h : (s.queue s.cur q).slots.length < (s.queue s.cur q).depth) :
    allocSlot q x s = .ok ((s.queue s.cur q).fill, (s.queue s.cur q).gen) (s.appendSlot q x) := by
  unfold allocSlot
  rw [run_bind_ok (run_get s)]
  simp only [Nat.not_le.mpr h]
  rfl

theorem allocSlot_full {x : Slot} (h : (s.queue s.cur q).depth ≤ (s.queue s.cur q).slots.length)
    (hp : partnerGone s s.cur = false) : allocSlot q x s = .error (.park (.queueSpace q)) s := by
  unfold allocSlot
  rw [run_bind_ok (run_get s)]
  simp only [h, hp]
  rfl

/-- A queue with a slot appended keeps its pointer H, and the other queues stay as they are. -/
theorem appendSlot_queue (s : State) (q : Nat) (x : Slot) :
    ((s.appendSlot q x).queue s.cur q).slots = (s.queue s.cur q).slots ++ [x] ∧
    ((s.appendSlot q x).queue s.cur q).h = (s.queue s.cur q).h ∧
    ∀ r, r ≠ q → (s.appendSlot q x).queue s.cur r = s.queue s.cur r := by
  have hq := fun r => queue_updQueue s s.cur q r fun k => { k with slots := k.slots ++ [x] }
  unfold State.appendSlot
  refine ⟨?_, ?_, fun r hr => (hq r).trans (if_neg hr)⟩ <;> rw [hq, if_pos rfl]

theorem pushQueue_appends {v : Vec} (h : (s.queue s.cur q).slots.length < (s.queue s.cur q).depth) :
    pushQueue q v s =
      .ok () (s.appendSlot q ⟨true, false, if (s.queue s.cur q).kind = 4 then (if v = 0 then 0 else 1) else v, []⟩) := by
  unfold pushQueue
  rw [run_bind_ok (run_get s), run_bind_ok (allocSlot_appends h)]
  rfl

/-! Synchronised reads. -/

theorem readSync_zero (s : State) : readSync 0 1 s = .ok 0 s := rfl

section
variable {f : BitVec 6} (hf : f ≠ 0)
include hf

theorem readSync_full (hb : s.me.full.getLsbD f.toNat = true) : readSync f 1 s =
    .ok (s.me.reg f.toNat) (s.updMe fun t => { t with full := t.full &&& ~~~(BitVec.ofNat 32 (2 ^ f.toNat)) }) := by
  unfold readSync
  simp only [show (1 : BitVec 1) ≠ 0 by decide]
  rw [if_neg not_false, run_bind_ok (run_get s)]
  simp only [hf, hb]
  rfl

theorem readSync_clear (hb : s.me.full.getLsbD f.toNat = false) (hc : s.me.coupled = true)
    (hp : partnerGone s s.cur = false) : readSync f 1 s = .error (.park (.fullSet f.toNat)) s := by
  unfold readSync
  simp only [show (1 : BitVec 1) ≠ 0 by decide]
  rw [if_neg not_false, run_bind_ok (run_get s)]
  simp only [hf, hb, hc, hp]
  rfl

end

/-- Clearing a bit of the full bits leaves the others. -/
theorem getLsbD_clearBit (x : BitVec 32) (n k : Nat) :
    (x &&& ~~~(BitVec.ofNat 32 (2 ^ n))).getLsbD k = (x.getLsbD k && !decide (k = n)) := by
  by_cases hk : k < 32
  · have hbit : (BitVec.ofNat 32 (2 ^ n)).getLsbD k = decide (k = n) := by
      rw [BitVec.getLsbD_ofNat, Nat.testBit_two_pow]
      simp [hk, eq_comm]
    rw [BitVec.getLsbD_and, BitVec.getLsbD_not, hbit]
    simp [hk]
  · simp [BitVec.getLsbD_of_ge x k (by omega)]

/-! Parking and waking. -/

/-- Waking counts parked cycles among the counters of the trace, and changes nothing else but the run state. -/
theorem countParked_trace (s : State) (t : Strand) : ∃ tr, t.countParked s = { t with trace := tr } := by
  unfold Strand.countParked
  split
  · split
    · exact ⟨_, rfl⟩
    · exact ⟨_, rfl⟩
  · exact ⟨_, rfl⟩

theorem wake_strand (s : State) (u : Nat) {w : Wait} (h : (s.strand u).run = .parked w) (v : Nat) :
    (wake s u).strand v = if v = u then { (s.strand u).countParked s with run := .ready } else s.strand v := by
  rw [wake, State.updStrand_strand, h]

/-- A strand that parks and wakes is Ready; only its run state, when it parked and its trace differ. -/
theorem wake_park (s : State) (u : Nat) (w : Wait) : ∃ at' tr,
    (wake (park s u w) u).strand u = { s.strand u with run := .ready, parkedAt := at', trace := tr } := by
  have hpark := (park_strand s u u w).trans (if_pos rfl)
  obtain ⟨tr, htr⟩ := countParked_trace (park s u w) ((park s u w).strand u)
  refine ⟨s.clock, tr, ?_⟩
  rw [wake_strand _ _ (w := w) (by rw [hpark]), if_pos rfl, htr, hpark]

/-- The other strands. -/
theorem wake_park_of_ne (s : State) {u v : Nat} (w : Wait) (h : v ≠ u) :
    (wake (park s u w) u).strand v = s.strand v := by
  rw [wake, State.updStrand_strand, if_neg h, park_strand, if_neg h]

end Sys2Proof.Machine

open Sys2Proof.Machine

/-- Settles O10: the operand functions case by case, and parking is the answer of `insn` to an effect that parks. -/
theorem operandsAndParking : Obligations.OperandsAndParking := by
  unfold Obligations.OperandsAndParking
  refine ⟨fun s f v q => ⟨fun hf => ?_, fun hf h0 hb => ?_, readSync_zero s, fun x rest hk hr hp => ?_,
      fun hlen hkind x => ?_, fun hlen hkind x => ?_, fun x rest => popQueue_unready, fun x rest => popQueue_poisoned,
      popQueue_abandoned, popQueue_empty, fun hlen hp x => allocSlot_full hlen hp, readSync_clear⟩,
    fun i f body s s' w hx hc hb => hx.trans (insn_park hc hb), fun s d a m w hops hr => ?_, fun s u w => ?_⟩
  · refine ⟨?_, rfl, ?_, fun r => ?_⟩
    · rw [answers, readX, if_pos hf, run_readReg]
    · rw [answers, writeX, if_pos hf, run_writeReg]
    · rw [Strand.reg_setReg]
      exact if_congr (and_congr_right fun hr => by rw [hr]) rfl rfl
  · refine ⟨_, readSync_full h0 hb, ?_, fun k hk => ?_, fun r => ?_⟩
    · rw [State.updMe_me, getLsbD_clearBit]
      simp
    · rw [State.updMe_me, getLsbD_clearBit]
      simp [hk]
    · rw [State.updMe_me]
      rfl
  · have hq := fun r => queue_updQueue s s.cur q r fun k => { k with h := (k.h + 1) % 65536, slots := rest }
    refine ⟨_, popQueue_head hk hr hp, ?_, ?_, fun r hne => (hq r).trans (if_neg hne)⟩ <;>
      exact congrArg _ ((hq q).trans (if_pos rfl))
  · have hpush := pushQueue_appends (v := x) hlen
    rw [if_neg hkind] at hpush
    exact ⟨_, hpush, appendSlot_queue s q _⟩
  · have hpush := pushQueue_appends (v := x) hlen
    rw [if_pos hkind] at hpush
    exact ⟨_, hpush, appendSlot_queue s q _⟩
  · have hbody : imm2 d a m (fun x i => x + i) s = .error (.park w) s := by
      unfold imm2
      rw [run_bind_error hr]
    exact insn_park (check_plainForm hops) hbody
  · obtain ⟨at', tr, hwake⟩ := wake_park s u w
    refine ⟨by rw [park_strand, if_pos rfl], ?_, ?_, fun r => ?_, ?_, rfl, fun v => wake_park_of_ne s w⟩
    · rw [hwake]
    · rw [hwake]
    · rw [hwake]
      rfl
    · rw [hwake]

end

section
/-! FORKL and JOINL (R109). -/

namespace Sys2Proof.Machine

variable {s : State} {d a : BitVec 6}

/-- The token of the child that a strand makes in a slot. -/
def State.forkToken (s : State) (slot : Nat) : Word :=
  BitVec.ofNat 64 ((Tab.get 0 (s.core s.me.core).gens slot + 1) % 256 * 256 + slot + 1)

/-- The state with a child in a slot, and the slot's generation advanced. -/
def State.withChild (s : State) (d : BitVec 6) (slot : Nat) (target : Word) : State :=
  (s.updCore s.me.core fun k =>
    { k with gens := Tab.set 0 k.gens slot ((Tab.get 0 (s.core s.me.core).gens slot + 1) % 256) }).setStrand s.nextUid
      (Strand.child s s.me s.cur slot (s.me.gvl / 2) target d.toNat)

/-- A strand that has given lanes to a child. -/
def Strand.withChild (t : Strand) (c : Nat) (child : Child) : Strand :=
  { t with gvl := t.gvl - c, children := t.children ++ [child] }

/-- The state after a strand has made a child in a slot. -/
def State.forked (s : State) (d : BitVec 6) (slot : Nat) (target : Word) : State :=
  { (s.withChild d slot target).updMe fun t => t.withChild (s.me.gvl / 2) ⟨s.nextUid, s.forkToken slot, d = 0⟩ with
    nextUid := s.nextUid + 1 }

/-- A token is not 0: no slot's number reaches the generation. -/
theorem forkToken_ne_zero {slot core : Nat} {rest : List Nat} (h : s.freeSlots core = slot :: rest) : s.forkToken slot ≠ 0 := by
  have hslot : slot < 8 := by
    have hmem : slot ∈ s.freeSlots core := by simp [h]
    have hlt : slot < slotsOfClass (classOf s core) := by simpa using (List.mem_filter.mp hmem).1
    have hle : slotsOfClass (classOf s core) ≤ 8 := by
      unfold slotsOfClass
      split
      · omega
      · split <;> omega
    omega
  intro h0
  have hnat : (s.forkToken slot).toNat = 0 := by rw [h0]; rfl
  rw [State.forkToken, BitVec.toNat_ofNat] at hnat
  omega

theorem forklOp_misaligned (h : (s.me.reg a.toNat).toNat % 4 ≠ 0) :
    forklOp d a s = .error (.trap ⟨5, 0, s.me.reg a.toNat⟩) s := by
  unfold forklOp
  rw [run_bind_ok (run_readReg a s)]
  simp only [if_pos h]
  rfl

section
variable (hal : (s.me.reg a.toNat).toNat % 4 = 0) (hrel : answers (release 0 15) s () s)
include hal hrel

theorem forklOp_forks {slot : Nat} {rest : List Nat} (hslot : s.freeSlots s.me.core = slot :: rest) (hg : 2 ≤ s.me.gvl) :
    forklOp d a s = .ok .seq ((s.forked d slot (s.me.reg a.toNat)).updMe fun t => t.setReg d.toNat (s.forkToken slot)) := by
  unfold forklOp
  rw [run_bind_ok (run_readReg a s)]
  simp only [hal]
  rw [if_neg (by simp), run_bind_ok hrel, run_bind_ok (run_get s)]
  simp only [hslot, Nat.not_lt.mpr hg]
  rfl

theorem forklOp_zero (h : s.freeSlots s.me.core = [] ∨ s.me.gvl < 2) :
    forklOp d a s = .ok .seq (s.updMe fun t => t.setReg d.toNat 0) := by
  unfold forklOp
  rw [run_bind_ok (run_readReg a s)]
  simp only [hal]
  rw [if_neg (by simp), run_bind_ok hrel, run_bind_ok (run_get s)]
  cases hslot : s.freeSlots s.me.core with
  | nil => rfl
  | cons slot rest =>
    have hg : s.me.gvl < 2 := h.resolve_left (by simp [hslot])
    simp only [hg]
    rfl

end

section
variable {slot : Nat} {target : Word} (hu : s.nextUid ≠ s.cur)
include hu

theorem withChild_me : (s.withChild d slot target).me = s.me :=
  (State.setStrand_strand ..).trans (if_neg hu.symm)

theorem forked_me : (s.forked d slot target).me = s.me.withChild (s.me.gvl / 2) ⟨s.nextUid, s.forkToken slot, d = 0⟩ := by
  have hupd := State.updMe_me (s.withChild d slot target) fun t => t.withChild (s.me.gvl / 2) ⟨s.nextUid, s.forkToken slot, d = 0⟩
  rw [withChild_me hu] at hupd
  exact hupd

theorem forked_child : (s.forked d slot target).strand s.nextUid =
    Strand.child s s.me s.cur slot (s.me.gvl / 2) target d.toNat := by
  have hupd := State.updStrand_strand (s.withChild d slot target) s.cur
    (fun t => t.withChild (s.me.gvl / 2) ⟨s.nextUid, s.forkToken slot, d = 0⟩) s.nextUid
  rw [if_neg hu] at hupd
  exact hupd.trans ((State.setStrand_strand ..).trans (if_pos rfl))

end

/-- A child has its parent's registers, apart from that of the token, which is 0. -/
theorem child_reg (s : State) (t : Strand) (u slot c : Nat) (target : Word) (n r : Nat) :
    (Strand.child s t u slot c target n).reg r = if r = n then 0 else t.reg r := by
  have hx : (Strand.child s t u slot c target n).x = if n = 0 then t.x else Tab.set 0 t.x n 0 := rfl
  unfold Strand.reg
  rw [hx]
  by_cases hr : r = 0
  · simp [hr]
  · by_cases hn : n = 0
    · simp [hn, hr]
    · simp only [hn, hr, if_false]
      exact Tab.get_set ..

/-! JOINL. -/

theorem joinlOp_none (h : (s.me.children.find? fun c => c.token = s.me.reg a.toNat) = none) :
    joinlOp d a s = .ok .seq (s.updMe fun t => t.setReg d.toNat 0) := by
  unfold joinlOp
  rw [run_bind_ok (run_readReg a s), run_bind_ok (run_get s)]
  simp only [h]
  rfl

section
variable {c : Child} (hc : (s.me.children.find? fun c => c.token = s.me.reg a.toNat) = some c)
include hc

theorem joinlOp_joins (h : (s.strand c.uid).run.live = false) : joinlOp d a s = .ok .seq (s.updMe fun t => { t with
    gvl := min 64 (t.gvl + (s.strand c.uid).gvl)
    children := t.children.filter fun x => x.uid != c.uid }.setReg d.toNat 1) := by
  unfold joinlOp
  rw [run_bind_ok (run_readReg a s), run_bind_ok (run_get s)]
  simp only [hc, h]
  exact congrArg (EStateM.Result.ok Flow.seq) (State.updMe_updMe s _ _)

theorem joinlOp_parks (h : (s.strand c.uid).run.live = true) : joinlOp d a s = .error (.park (.join c.uid)) s := by
  unfold joinlOp
  rw [run_bind_ok (run_readReg a s), run_bind_ok (run_get s)]
  simp only [hc, h]
  rfl

end

/-- The lane forms pass their checks on the cores that have them. -/
theorem check_laneForm {w : InstrWord} {xs : List Nat} (hd : d.toNat < 32) (ha : a.toNat < 32) (hc : onClass s 3) :
    ({ word := w, ops := [.reg d, .reg a], classes := 3, xfields := xs } : Form).check s = none :=
  (Form.check_none _ s).mpr ⟨rfl, nofun, admitted_regs (rs := [d, a]) (by simp [hd, ha]), nofun, hc⟩

theorem Strand.setReg_gvl (t : Strand) (r : Nat) (v : Word) : (t.setReg r v).gvl = t.gvl :=
  (congrArg Strand.gvl (Strand.setReg_sansScalar t r v) :)

/-- Such a form completes where its effect ends in a write of register d. -/
theorem laneForm_completes {i : Instr} {w : InstrWord} {xs : List Nat} {body : M Flow} {e : State} {v : Word}
    (hx : exec i s = insn { word := w, ops := [.reg d, .reg a], classes := 3, xfields := xs } body s)
    (hd : d.toNat < 32) (ha : a.toNat < 32) (hc : onClass s 3)
    (hb : body s = .ok .seq (e.updMe fun t => t.setReg d.toNat v)) :
    completesWith i s (e.updMe fun t => t.setReg d.toNat v) ((e.strand s.cur).pc + 4) :=
  insn_completes hx (check_laneForm hd ha hc) hb (.inl ⟨rfl, by rw [pc_updMe_setReg]⟩)

theorem exec_forkl : exec (.forkl d a) s = execForkl d a s := rfl

theorem exec_joinl : exec (.joinl d a) s = execJoinl d a s := rfl

end Sys2Proof.Machine

open Sys2Proof.Machine

/-- Settles O16: FORKL and JOINL along the branches of `forklOp` and `joinlOp`. -/
theorem forkJoin : Obligations.ForkJoin := by
  unfold Obligations.ForkJoin
  refine ⟨fun s s1 d a slot c rest hd ha hcl hal hrel hs1 hcc => ?_, fun s d a hd ha hcl => ⟨fun hmis => ?_, fun h => ?_,
    fun c hc hdead => ?_, fun c hc hlive => ?_⟩⟩
  · subst hs1 hcc
    refine ⟨fun hslot hg hu => ?_, fun h => laneForm_completes exec_forkl hd ha hcl (forklOp_zero hal hrel h)⟩
    have hme := forked_me (d := d) (slot := slot) (target := s1.me.reg a.toNat) hu
    have hchild := forked_child (d := d) (slot := slot) (target := s1.me.reg a.toNat) hu
    have hgo := laneForm_completes exec_forkl hd ha hcl (forklOp_forks hal hrel hslot hg)
    have hpc : ((s1.forked d slot (s1.me.reg a.toNat)).strand s1.cur).pc = s1.me.pc := (congrArg Strand.pc hme :)
    rw [hpc] at hgo
    have hkeep : ((s1.forked d slot (s1.me.reg a.toNat)).updMe fun t => t.setReg d.toNat (s1.forkToken slot)).strand s1.nextUid =
        Strand.child s1 s1.me s1.cur slot (s1.me.gvl / 2) (s1.me.reg a.toNat) d.toNat :=
      ((State.updStrand_strand ..).trans (if_neg hu)).trans hchild
    refine ⟨_, hgo, rfl, ?_⟩
    rw [hkeep, State.updMe_me, hme]
    refine ⟨?_, rfl, rfl, rfl, rfl, rfl, rfl, fun r hr => ?_, ?_, fun h0 => ?_, fun b => rfl⟩
    · rw [Strand.setReg_gvl]
      rfl
    · rw [child_reg, if_neg hr]
    · rw [child_reg, if_pos rfl]
    · have hd0 : d.toNat ≠ 0 := fun h => h0 (BitVec.eq_of_toNat_eq h)
      rw [Strand.reg_setReg, if_pos ⟨rfl, hd0⟩]
      exact forkToken_ne_zero hslot
  · exact insn_takesTrap (check_laneForm hd ha hcl) (forklOp_misaligned hmis) (by simp) (by simp) rfl
  · exact laneForm_completes exec_joinl hd ha hcl (joinlOp_none h)
  · have hgo := insn_completes exec_joinl (check_laneForm hd ha hcl) (joinlOp_joins hc hdead) (.inl ⟨rfl, rfl⟩)
    have hpc := State.updStrand_keeps Strand.pc s s.cur (fun t => { t with
      gvl := min 64 (t.gvl + (s.strand c.uid).gvl)
      children := t.children.filter fun x => x.uid != c.uid }.setReg d.toNat 1) (fun t => Strand.setReg_pc _ _ _) s.cur
    exact hpc ▸ hgo
  · exact insn_park (check_laneForm hd ha hcl) (joinlOp_parks hc hlive)

end

section
/-! Scalar loads (R123, R124, R143). -/

namespace Sys2Proof.Machine

/-- A step that an effect takes on a condition, with what follows it. -/
theorem run_when {α : Type} {c : Prop} [Decidable c] {m : M Unit} {k : M α} {s e : State}
    (h : answers (if c then m else pure ()) s () e) : (if c then (do m; k) else k) s = k e := by
  unfold answers at h
  split at h
  · rename_i hc
    rw [if_pos hc, run_bind_ok h]
  · rename_i hc
    rw [run_pure] at h
    obtain ⟨-, rfl⟩ := EStateM.Result.ok.inj h
    rw [if_neg hc]

variable {s s0 s1 s2 s3 : State} {d b o : BitVec 6} {w st r c : BitVec 2} {sg : Bool} {bs : List Byte} {p : Bool}

/-- The checks of a load pass off the execute strand. -/
theorem check_loadForm {x : InstrWord} (hops : admitted s [.data d 1 true, .reg b]) (he : s.me.isExecute = false) :
    ({ word := x, ops := [.data d 1 true, .reg b], bar := true } : Form).check s = none :=
  (Form.check_none _ s).mpr ⟨rfl, nofun, hops, fun _ => he, onClass_all s⟩

/-- LD and LDZ are one operation under the two extensions. -/
theorem load_completes {e : State} (hops : admitted s [.data d 1 true, .reg b]) (he : s.me.isExecute = false)
    (h : loadOp d b o w st r c sg s = .ok .seq e) :
    completesWith (if sg then .ld d b o w st r c else .ldz d b o w st r c) s e ((e.strand s.cur).pc + 4) := by
  cases sg
  · have hx : exec (.ldz d b o w st r c) s = execLdz d b o w st r c s := rfl
    exact insn_completes hx (check_loadForm hops he) h (.inl ⟨rfl, rfl⟩)
  · have hx : exec (.ld d b o w st r c) s = execLd d b o w st r c s := rfl
    exact insn_completes hx (check_loadForm hops he) h (.inl ⟨rfl, rfl⟩)

section
variable {va : Word} (hva : va = memAddr s.me b o w) (hal : va.toNat % sizeOf w = 0)
  (hst : answers (streamReady st.toNat) s () s)
  (hfresh : answers (if r = 2 then freshen .load va (sizeOf w) c.toNat else pure ()) s () s0)
  (hacq : answers (if r = 1 then acquire c.toNat else pure ()) s1 () s2)
include hva hal hst hfresh hacq

/-- A load into a register writes the extended bytes after its acquire. -/
theorem loadOp_register (hd : d.toNat < 32) (hload : answers (loadBytes va (sizeOf w) false c.toNat) s0 (bs, p) s1) :
    loadOp d b o w st r c sg s = .ok .seq (s2.updMe fun t => t.setReg d.toNat (extend sg bs)) := by
  subst hva
  have hcheck : checkAligned (memAddr s.me b o w) (sizeOf w) s = .ok () s := by rw [checkAligned, if_pos hal, run_pure]
  unfold loadOp
  rw [run_bind_ok (run_me s)]
  simp only [hd, if_true]
  rw [run_bind_ok hcheck, run_bind_ok hst, run_when hfresh, run_bind_ok hload, run_when hacq]
  rfl

/-- A load into a queue allocates its slot first, and sends the extended bytes on their way to it after its acquire. -/
theorem loadOp_queue {slot gen : Nat} (hd : 32 ≤ d.toNat)
    (halloc : answers (allocSlot (d.toNat - 32) ⟨false, false, 0, []⟩) s0 (slot, gen) s3)
    (hload : answers (loadBytes va (sizeOf w) true c.toNat) s3 (bs, p) s1) :
    loadOp d b o w st r c sg s = .ok .seq (s2.post
      (.queueFillArrival (s2.owner s2.cur) (d.toNat - 32) slot gen ((extend sg bs).setWidth 2048) p)) := by
  subst hva
  have hcheck : checkAligned (memAddr s.me b o w) (sizeOf w) s = .ok () s := by rw [checkAligned, if_pos hal, run_pure]
  unfold loadOp
  rw [run_bind_ok (run_me s)]
  simp only [Nat.not_lt.mpr hd, if_false]
  rw [run_bind_ok hcheck, run_bind_ok hst, run_when hfresh, run_bind_ok halloc, run_bind_ok hload, run_when hacq]
  rfl

end

end Sys2Proof.Machine

open Sys2Proof.Machine

/-- Settles O5: a load is its steps in order, in a register and in a queue slot. -/
theorem loads : Obligations.Loads := by
  unfold Obligations.Loads
  intro s s0 s1 s2 s3 d b o w st r c bs p sg va v slot gen hops he hva hal hst hfresh hv hacq
  obtain rfl : v = extend sg bs := hv
  exact ⟨fun hd hload => load_completes hops he (loadOp_register hva hal hst hfresh hacq hd hload),
    fun hd halloc hload => load_completes hops he (loadOp_queue hva hal hst hfresh hacq hd halloc hload)⟩

end

section
/-! The returning atomics (R290-R293): the operation that each function code names, and the order of an atomic's steps. -/

namespace Sys2Proof.Machine

/-! The operations. -/

section
variable (w : Nat)

/-- A function code that names an operation on words writes that operation's value of the low bits. -/
theorem atomicNew_eq_onWords {fn : Nat} {op : BitVec w → BitVec w → BitVec w} (hfn : fn ≠ 11)
    (h : ∀ x y, combine (logOp fn) w x y = (op (BitVec.ofNat w x) (BitVec.ofNat w y)).toNat) (c x y : Nat) :
    atomicNew fn w x y c = onWords w op c x y := by
  rw [atomicNew, if_neg hfn, h, onWords]

theorem combine_add (x y : Nat) : combine (logOp 0) w x y = (BitVec.ofNat w x + BitVec.ofNat w y).toNat := by
  simp [combine, logOp]

/-- Cutting a number to a width does not change its word. -/
theorem ofNat_mod_twoPow (x : Nat) : BitVec.ofNat w (x % 2 ^ w) = BitVec.ofNat w x :=
  BitVec.eq_of_toNat_eq (by simp)

theorem combine_min (x y : Nat) : combine (logOp 1) w x y =
    (if (BitVec.ofNat w y).slt (BitVec.ofNat w x) then BitVec.ofNat w y else BitVec.ofNat w x).toNat := by
  simp [combine, logOp, BitVec.slt, apply_ite BitVec.toNat, ofNat_mod_twoPow]

theorem combine_max (x y : Nat) : combine (logOp 2) w x y =
    (if (BitVec.ofNat w x).slt (BitVec.ofNat w y) then BitVec.ofNat w y else BitVec.ofNat w x).toNat := by
  simp [combine, logOp, BitVec.slt, apply_ite BitVec.toNat, ofNat_mod_twoPow]

theorem combine_minn (x y : Nat) : combine (logOp 3) w x y =
    (if BitVec.ofNat w y < BitVec.ofNat w x then BitVec.ofNat w y else BitVec.ofNat w x).toNat := by
  simp [combine, logOp, BitVec.lt_def, apply_ite BitVec.toNat]

theorem combine_maxn (x y : Nat) : combine (logOp 4) w x y =
    (if BitVec.ofNat w x < BitVec.ofNat w y then BitVec.ofNat w y else BitVec.ofNat w x).toNat := by
  simp [combine, logOp, BitVec.lt_def, apply_ite BitVec.toNat]

theorem combine_and (x y : Nat) : combine (logOp 5) w x y = (BitVec.ofNat w x &&& BitVec.ofNat w y).toNat := by
  simp [combine, logOp]

theorem combine_or (x y : Nat) : combine (logOp 6) w x y = (BitVec.ofNat w x ||| BitVec.ofNat w y).toNat := by
  simp [combine, logOp]

theorem combine_xor (x y : Nat) : combine (logOp 7) w x y = (BitVec.ofNat w x ^^^ BitVec.ofNat w y).toNat := by
  simp [combine, logOp]

theorem combine_swap (x y : Nat) : combine (logOp 8) w x y = (BitVec.ofNat w y).toNat := by
  simp [combine, logOp]

end

/-- FADDH adds the two halves of a word. -/
theorem atomicNew_faddh (c x y : Nat) : atomicNew 10 32 x y c = some (Fp.addHome 16 (x % 65536) (y % 65536) +
    65536 * Fp.addHome 16 (x / 65536 % 65536) (y / 65536 % 65536)) := by
  have hlow (z : Nat) : z % 2 ^ 32 % 65536 = z % 65536 := by omega
  have hhigh (z : Nat) : z % 2 ^ 32 / 65536 % 65536 = z / 65536 % 65536 := by omega
  have hval : atomicNew 10 32 x y c = some (Fp.addHalves (x % 2 ^ 32) (y % 2 ^ 32)) := rfl
  rw [hval, Fp.addHalves, hlow, hlow, hhigh, hhigh]

/-! The steps of an atomic. -/

variable {s s1 s2 s3 s4 s5 e : State} {d a b : BitVec 6} {o c : BitVec 2} {w fn : Nat}

/-- The atomic step of a returning atomic with the values that it has read. -/
def returningAtom (w fn : Nat) (d : BitVec 6) (o c : BitVec 2) (src cmp : Word) : Atom :=
  ⟨w, fun x => atomicNew fn w x src.toNat cmp.toNat, none, c.toNat, decide (fn = 9 ∨ fn = 10),
    some ⟨fn, src, cmp, d, if o.getLsbD 0 then some c.toNat else none⟩⟩

theorem atomicPlace_misaligned {va : Word} {n : Nat} {fp : Bool} (h : va.toNat % n ≠ 0) :
    stops (atomicPlace va n fp) s ⟨5, 0, va⟩ := by
  have hcheck : checkAligned va n s = .error (.trap ⟨5, 0, va⟩) s := by rw [checkAligned, if_neg h, run_trap]
  refine ⟨s, ?_⟩
  unfold atomicPlace
  rw [run_bind_error hcheck]

section
variable (hall : answers allStreams s () s)
include hall

theorem atmOp_placeFault {x : Trap}
    (h : stops (atomicPlace (s.me.reg a.toNat) (w / 8) (decide (fn = 9 ∨ fn = 10))) s x) : stops (atmOp w fn d a b o c) s x := by
  obtain ⟨e, he⟩ := h
  refine ⟨e, ?_⟩
  unfold atmOp
  rw [run_bind_ok (run_readReg a s), run_bind_ok hall, run_bind_error he]

variable {p : Place} {src : Word}
  (hplace : answers (atomicPlace (s.me.reg a.toNat) (w / 8) (decide (fn = 9 ∨ fn = 10))) s p s1)
  (hsrc : answers (readX b) s1 src s2)
  (hrel : answers (if o.getLsbD 1 then release c.toNat 15 else pure ()) s2 () s3)
include hplace hsrc hrel

/-- What an atomic does once its place is known and its operands are read. -/
theorem atmOp_at_place : atmOp w fn d a b o c s = (do
    let old ← performAtomic (returningAtom w fn d o c src (s1.me.reg d.toNat)) (s.me.reg a.toNat) p
    if o.getLsbD 0 then acquire c.toNat
    writeX d (atomicResult fn w old)
    return Flow.seq) s3 := by
  unfold atmOp
  rw [run_bind_ok (run_readReg a s), run_bind_ok hall, run_bind_ok hplace, run_bind_ok (run_me s1), run_bind_ok hsrc,
    run_when hrel]
  rfl

theorem atmOp_stepFault {x : Trap}
    (h : stops (performAtomic (returningAtom w fn d o c src (s1.me.reg d.toNat)) (s.me.reg a.toNat) p) s3 x) :
    stops (atmOp w fn d a b o c) s x := by
  obtain ⟨e, he⟩ := h
  refine ⟨e, ?_⟩
  rw [atmOp_at_place hall hplace hsrc hrel, run_bind_error he]

theorem atmOp_ok {old : Nat}
    (h : answers (performAtomic (returningAtom w fn d o c src (s1.me.reg d.toNat)) (s.me.reg a.toNat) p) s3 old s4)
    (hacq : answers (if o.getLsbD 0 then acquire c.toNat else pure ()) s4 () s5)
    (hwrite : answers (writeX d (atomicResult fn w old)) s5 () e) : atmOp w fn d a b o c s = .ok .seq e := by
  rw [atmOp_at_place hall hplace hsrc hrel, run_bind_ok h, run_when hacq, run_bind_ok hwrite]
  rfl

end

/-- An effect that stops with such a trap is undone, and the trap taken. -/
theorem insn_takesStop {i : Instr} {f : Form} {body : M Flow} {x : Trap} (hx : exec i s = insn f body s)
    (hc : f.check s = none) (hb : stops body s x) (h3 : x.cause ≠ 3) (h13 : x.cause ≠ 13) (he : x.isEffect = false) :
    exec i s = .next (takeTrap s s.cur x false false) := by
  obtain ⟨e, hb⟩ := hb
  exact hx.trans (insn_takesTrap hc hb h3 h13 he)

/-- The result of an atomic of 32 or of 64 bits. -/
theorem atomicResult_eq (hw : w = 32 ∨ w = 64) (old : Nat) : atomicResult fn w old =
    if w = 32 ∧ fn ≠ 9 ∧ fn ≠ 10 then (BitVec.ofNat 32 old).signExtend 64 else BitVec.ofNat 64 old := by
  unfold atomicResult
  obtain rfl | rfl := hw
  · by_cases h : fn = 9 ∨ fn = 10
    · rw [if_pos (.inr h), if_neg (by omega)]
    · rw [if_neg (by omega), if_pos (by omega)]
  · simp

/-- The form of an atomic. -/
def atomicForm (word : InstrWord) (dst : Opnd) (a b : BitVec 6) (classes : Nat) (xs : List Nat) : Form :=
  { word := word, ops := [dst, .reg a, .data b 1 false], bar := true, classes := classes, xfields := xs }

/-- An instruction that is `atmOp` under its form's checks computes the atomic of its function code. -/
theorem atmOp_computes {i : BitVec 6 → BitVec 6 → BitVec 6 → BitVec 2 → BitVec 2 → Instr} {dst : BitVec 6 → Opnd}
    {classes : Nat} {f : Nat → AtomicStep} (major : BitVec 6) (code : BitVec 4)
    (xs : BitVec 6 → BitVec 6 → BitVec 6 → List Nat)
    (hx : ∀ d a b o c s, exec (i d a b o c) s =
      insn (atomicForm (fa major d a b code o c) (dst d) a b classes (xs d a b)) (atmOp w fn d a b o c) s)
    (hw : w = 32 ∨ w = 64) (hf : ∀ c x y, atomicNew fn w x y c = f c x y) : computesAtomic i dst classes w fn f := by
  rintro s s1 s2 s3 s4 s5 e d a b o c va src cmp p old hops hcl hex rfl hall
  have hc : (atomicForm (fa major d a b code o c) (dst d) a b classes (xs d a b)).check s = none :=
    (Form.check_none _ s).mpr ⟨rfl, nofun, hops, fun _ => hex, hcl⟩
  refine ⟨fun hmis => ?_, fun x hstop h3 h13 he => ?_, fun hplace hcmp hsrc hrel m hm => ?_⟩
  · exact insn_takesStop (hx ..) hc (atmOp_placeFault hall (atomicPlace_misaligned hmis)) (by simp) (by simp) rfl
  · exact insn_takesStop (hx ..) hc (atmOp_placeFault hall hstop) h3 h13 he
  subst hcmp
  have hatom : m = performAtomic (returningAtom w fn d o c src (s1.me.reg d.toNat)) (s.me.reg a.toNat) p := by
    simp only [hm, returningAtom, hf]
  subst hatom
  refine ⟨fun x hstop h3 h13 he => ?_, fun hstep hacq hwrite => ?_⟩
  · exact insn_takesStop (hx ..) hc (atmOp_stepFault hall hplace hsrc hrel hstop) h3 h13 he
  · rw [← atomicResult_eq hw] at hwrite
    exact insn_completes (hx ..) hc (atmOp_ok hall hplace hsrc hrel hstep hacq hwrite) (.inl ⟨rfl, rfl⟩)

/-- An atomic on words that every class of core executes. -/
theorem atmOp_computes_onWords {i : BitVec 6 → BitVec 6 → BitVec 6 → BitVec 2 → BitVec 2 → Instr}
    {op : BitVec w → BitVec w → BitVec w} (major : BitVec 6) (code : BitVec 4)
    (hx : ∀ d a b o c s, exec (i d a b o c) s =
      insn (atomicForm (fa major d a b code o c) (.data d 1 true) a b 7 []) (atmOp w fn d a b o c) s)
    (hw : w = 32 ∨ w = 64) (hfn : fn ≠ 11)
    (hop : ∀ x y, combine (logOp fn) w x y = (op (BitVec.ofNat w x) (BitVec.ofNat w y)).toNat) :
    computesAtomic i (fun d => .data d 1 true) 7 w fn (onWords w op) :=
  atmOp_computes major code (fun _ _ _ => []) hx hw (atomicNew_eq_onWords w hfn hop)

end Sys2Proof.Machine

open Sys2Proof.Machine

/-- Settles O35: each form is `atmOp` at its width and function code, whose operation is that of R291. -/
theorem atomicResults : Obligations.AtomicResults := by
  unfold Obligations.AtomicResults
  exact ⟨
    atmOp_computes_onWords 33 0 (fun _ _ _ _ _ _ => rfl) (.inl rfl) (by decide) (combine_add 32),
    atmOp_computes_onWords 33 1 (fun _ _ _ _ _ _ => rfl) (.inl rfl) (by decide) (combine_min 32),
    atmOp_computes_onWords 33 2 (fun _ _ _ _ _ _ => rfl) (.inl rfl) (by decide) (combine_max 32),
    atmOp_computes_onWords 33 3 (fun _ _ _ _ _ _ => rfl) (.inl rfl) (by decide) (combine_minn 32),
    atmOp_computes_onWords 33 4 (fun _ _ _ _ _ _ => rfl) (.inl rfl) (by decide) (combine_maxn 32),
    atmOp_computes_onWords 33 5 (fun _ _ _ _ _ _ => rfl) (.inl rfl) (by decide) (combine_and 32),
    atmOp_computes_onWords 33 6 (fun _ _ _ _ _ _ => rfl) (.inl rfl) (by decide) (combine_or 32),
    atmOp_computes_onWords 33 7 (fun _ _ _ _ _ _ => rfl) (.inl rfl) (by decide) (combine_xor 32),
    atmOp_computes_onWords 33 8 (fun _ _ _ _ _ _ => rfl) (.inl rfl) (by decide) (combine_swap 32),
    atmOp_computes_onWords 34 0 (fun _ _ _ _ _ _ => rfl) (.inr rfl) (by decide) (combine_add 64),
    atmOp_computes_onWords 34 1 (fun _ _ _ _ _ _ => rfl) (.inr rfl) (by decide) (combine_min 64),
    atmOp_computes_onWords 34 2 (fun _ _ _ _ _ _ => rfl) (.inr rfl) (by decide) (combine_max 64),
    atmOp_computes_onWords 34 3 (fun _ _ _ _ _ _ => rfl) (.inr rfl) (by decide) (combine_minn 64),
    atmOp_computes_onWords 34 4 (fun _ _ _ _ _ _ => rfl) (.inr rfl) (by decide) (combine_maxn 64),
    atmOp_computes_onWords 34 5 (fun _ _ _ _ _ _ => rfl) (.inr rfl) (by decide) (combine_and 64),
    atmOp_computes_onWords 34 6 (fun _ _ _ _ _ _ => rfl) (.inr rfl) (by decide) (combine_or 64),
    atmOp_computes_onWords 34 7 (fun _ _ _ _ _ _ => rfl) (.inr rfl) (by decide) (combine_xor 64),
    atmOp_computes_onWords 34 8 (fun _ _ _ _ _ _ => rfl) (.inr rfl) (by decide) (combine_swap 64),
    atmOp_computes 33 9 (fun _ _ _ => []) (fun _ _ _ _ _ _ => rfl) (.inl rfl) (fun _ _ _ => rfl),
    atmOp_computes 34 9 (fun d a b => [d.toNat, a.toNat, b.toNat]) (fun _ _ _ _ _ _ => rfl) (.inr rfl) (fun _ _ _ => rfl),
    atmOp_computes 33 10 (fun _ _ _ => []) (fun _ _ _ _ _ _ => rfl) (.inl rfl) atomicNew_faddh,
    atmOp_computes 33 11 (fun _ _ _ => []) (fun _ _ _ _ _ _ => rfl) (.inl rfl) (fun _ _ _ => rfl),
    atmOp_computes 34 11 (fun _ _ _ => []) (fun _ _ _ _ _ _ => rfl) (.inr rfl) (fun _ _ _ => rfl)⟩

end

section
/-! WMAP: its checks in order, and the binding that it makes (R258, R259, R271). -/

namespace Sys2Proof.Machine

/-- A check that an effect passes. -/
theorem run_passed {α : Type} {c : Prop} [Decidable c] {m k : M α} {s : State} (h : ¬c) : (if c then m else k) s = k s := by
  rw [if_neg h]

/-- A check that stops an effect with a trap. -/
theorem run_checked {α β : Type} {c : Prop} [Decidable c] {n sub : Nat} {v : Word} {f : β → M α} {k : M α} {s : State}
    (h : c) : (if c then (do let r ← trap n sub v; f r) else k) s = .error (.trap ⟨n, sub, v⟩) s := by
  rw [if_pos h]
  rfl

variable {s s1 : State} {g w : Word}

/-- The index that a binding word names. -/
def bindIdx (w : Word) : Nat := (w.extractLsb' 32 2).toNat
/-- The lines of a binding word. -/
def bindSize (w : Word) : Nat := (w.extractLsb' 16 16).toNat
/-- The first line of the allotment of a binding word. -/
def bindOff (w : Word) : Nat := (w.extractLsb' 0 16).toNat

/-- A strand with a new window at an index. -/
def Strand.bind (t : Strand) (idx : Nat) (x : Window) : Strand := { t with windows := Tab.set Window.blank t.windows idx x }

/-- The state with a window bound without valid words. -/
def State.boundNew (s : State) (t : Strand) (g w : Word) (cls : Nat) : State :=
  (dropRangeCopies s t.core t.ctx g (bindSize w)).updMe fun t =>
    t.bind (bindIdx w) ⟨g, bindOff w, bindSize w, cls, false, [], [], [], [], true⟩

/-- The state with a window bound that takes over kept storage. -/
def State.boundKept (s : State) (t : Strand) (g w : Word) (cls : Nat) (k : Kept) : State :=
  ((dropRangeCopies s t.core t.ctx g (bindSize w)).updCore t.core fun c => { c with kept := c.kept.filter (· != k) }).updMe
    fun t => (t.storeAllot (128 * bindOff w) ((List.range (128 * bindSize w)).map fun i => Tab.get 0 k.bytes i)).bind (bindIdx w)
      { k.win with offset := bindOff w, cls := cls, keep := false, bound := true }

/-- WMAP past the checks of its range: the classes of the range, the windows that cover it, and the binding. -/
def bindClasses (t : Strand) (g w : Word) (cls : List Nat) : M Word := do
  if cls.any (· != cls.headD 0) then trap 22 9 g
  let s ← get
  let kept := keptFor (s.core t.core) t.ctx g (bindSize w)
  if globalMeets s t.core t.ctx g (128 * bindSize w) kept then trap 22 3 g
  match kept with
  | some k =>
    modify fun s => s.boundKept t g w (cls.headD 0) k
    return 1
  | none =>
    if 16 ≤ descriptorsUsed s t.core then return 0
    else
      modify fun s => s.boundNew t g w (cls.headD 0)
      return 1

/-! The checks of the binding word and of its range. -/

section
variable (h8 : ¬ (w.toNat / 2 ^ 34 ≠ 0 ∨ g.toNat % 128 ≠ 0 ∨ (apertureOffset g).isSome = true))

theorem bindWindow_word (h : w.toNat / 2 ^ 34 ≠ 0 ∨ g.toNat % 128 ≠ 0 ∨ (apertureOffset g).isSome = true) :
    stops (bindWindow g w) s ⟨22, 8, w⟩ := by
  refine ⟨s, ?_⟩
  unfold bindWindow
  exact run_checked h

include h8

theorem bindWindow_child (h : s.me.parent.isSome = true) : stops (bindWindow g w) s ⟨22, 11, w⟩ := by
  refine ⟨s, ?_⟩
  unfold bindWindow
  exact (run_passed h8).trans ((run_bind_ok (run_get s)).trans (run_checked h))

variable (h11 : ¬ s.me.parent.isSome = true)
include h11

theorem bindWindow_taken (h : (s.me.window? (bindIdx w)).isSome = true) : stops (bindWindow g w) s ⟨22, 4, w⟩ := by
  refine ⟨s, ?_⟩
  unfold bindWindow
  exact (run_passed h8).trans ((run_bind_ok (run_get s)).trans ((run_passed h11).trans (run_checked h)))

variable (h4 : ¬ (s.me.window? (bindIdx w)).isSome = true)
include h4

theorem bindWindow_outside (h : bindSize w = 0 ∨ s.me.allotSize < 128 * (bindOff w + bindSize w)) :
    stops (bindWindow g w) s ⟨22, 1, w⟩ := by
  refine ⟨s, ?_⟩
  unfold bindWindow
  exact (run_passed h8).trans ((run_bind_ok (run_get s)).trans ((run_passed h11).trans ((run_passed h4).trans (run_checked h))))

variable (h1 : ¬ (bindSize w = 0 ∨ s.me.allotSize < 128 * (bindOff w + bindSize w)))
include h1

theorem bindWindow_meets (h : s.me.windowMeets (128 * bindOff w) (128 * bindSize w) = true ∨
    s.me.spanMeets (128 * bindOff w) (128 * bindSize w) none = true) : stops (bindWindow g w) s ⟨22, 2, w⟩ := by
  refine ⟨s, ?_⟩
  unfold bindWindow
  exact (run_passed h8).trans ((run_bind_ok (run_get s)).trans ((run_passed h11).trans ((run_passed h4).trans
    ((run_passed h1).trans (run_checked h)))))

theorem bindWindow_inRange (h2 : ¬ (s.me.windowMeets (128 * bindOff w) (128 * bindSize w) = true ∨
    s.me.spanMeets (128 * bindOff w) (128 * bindSize w) none = true)) {cls : List Nat}
    (hcls : answers (rangeClasses g (128 * bindSize w)) s cls s1) : bindWindow g w s = bindClasses s.me g w cls s1 := by
  unfold bindWindow
  exact (run_passed h8).trans ((run_bind_ok (run_get s)).trans ((run_passed h11).trans ((run_passed h4).trans
    ((run_passed h1).trans ((run_passed h2).trans (run_bind_ok hcls))))))

end

/-! The classes and the other windows. -/

section
variable {t : Strand} {cls : List Nat}

theorem bindClasses_mixed (h : cls.any (· != cls.headD 0) = true) : stops (bindClasses t g w cls) s ⟨22, 9, g⟩ := by
  refine ⟨s, ?_⟩
  unfold bindClasses
  exact run_checked h

variable (h9 : ¬ cls.any (· != cls.headD 0) = true)
include h9

theorem bindClasses_covered (h : globalMeets s t.core t.ctx g (128 * bindSize w)
    (keptFor (s.core t.core) t.ctx g (bindSize w)) = true) : stops (bindClasses t g w cls) s ⟨22, 3, g⟩ := by
  refine ⟨s, ?_⟩
  unfold bindClasses
  exact (run_passed h9).trans ((run_bind_ok (run_get s)).trans (run_checked h))

variable (h3 : ¬ globalMeets s t.core t.ctx g (128 * bindSize w) (keptFor (s.core t.core) t.ctx g (bindSize w)) = true)
include h3

theorem bindClasses_kept {k : Kept} (hk : keptFor (s.core t.core) t.ctx g (bindSize w) = some k) :
    bindClasses t g w cls s = .ok 1 (s.boundKept t g w (cls.headD 0) k) := by
  unfold bindClasses
  refine (run_passed h9).trans ((run_bind_ok (run_get s)).trans ((run_passed h3).trans ?_))
  rw [hk]
  rfl

variable (hk : keptFor (s.core t.core) t.ctx g (bindSize w) = none)
include hk

theorem bindClasses_full (h : 16 ≤ descriptorsUsed s t.core) : bindClasses t g w cls s = .ok 0 s := by
  unfold bindClasses
  refine (run_passed h9).trans ((run_bind_ok (run_get s)).trans ((run_passed h3).trans ?_))
  rw [hk]
  exact congrFun (if_pos h) s

theorem bindClasses_new (h : ¬ 16 ≤ descriptorsUsed s t.core) :
    bindClasses t g w cls s = .ok 1 (s.boundNew t g w (cls.headD 0)) := by
  unfold bindClasses
  refine (run_passed h9).trans ((run_bind_ok (run_get s)).trans ((run_passed h3).trans ?_))
  rw [hk]
  exact (run_passed h).trans rfl

end

/-! The instruction. -/

variable {d a b : BitVec 6}

theorem check_wmap (he : s.me.isExecute = false) (hd : d.toNat < 32) (ha : a.toNat < 32) (hb : b.toNat < 32) {x : InstrWord} :
    ({ word := x, ops := [.reg d, .reg a, .reg b], bar := true } : Form).check s = none :=
  (Form.check_none _ s).mpr ⟨rfl, nofun, admitted_regs (rs := [d, a, b]) (by simp [hd, ha, hb]), fun _ => he, onClass_all s⟩

theorem exec_wmap : exec (.wmap d a b) s = execWmap d a b s := rfl

section
variable (he : s.me.isExecute = false) (hd : d.toNat < 32) (ha : a.toNat < 32) (hb : b.toNat < 32)
include he hd ha hb

/-- WMAP takes the trap with which its binding stops. -/
theorem wmap_traps {x : Trap} (h : stops (bindWindow (s.me.reg a.toNat) (s.me.reg b.toNat)) s x) (hx : x.cause = 22) :
    exec (.wmap d a b) s = .next (takeTrap s s.cur x false false) := by
  obtain ⟨e, h⟩ := h
  have hop : stops (wmapOp d a b) s x := by
    refine ⟨e, ?_⟩
    unfold wmapOp
    rw [run_bind_ok (run_readReg a s), run_bind_ok (run_readReg b s), run_bind_error h]
  refine insn_takesStop exec_wmap (check_wmap he hd ha hb) hop (by omega) (by omega) ?_
  simp [Trap.isEffect, hx]

/-- WMAP completes with what its binding answers. -/
theorem wmap_completes {v : Word} {e : State} (h : bindWindow (s.me.reg a.toNat) (s.me.reg b.toNat) s = .ok v e) :
    completesWith (.wmap d a b) s (e.updMe fun t => t.setReg d.toNat v)
      (((e.updMe fun t => t.setReg d.toNat v).strand s.cur).pc + 4) := by
  have hop : wmapOp d a b s = .ok .seq (e.updMe fun t => t.setReg d.toNat v) := by
    unfold wmapOp
    rw [run_bind_ok (run_readReg a s), run_bind_ok (run_readReg b s), run_bind_ok h]
    rfl
  exact insn_completes exec_wmap (check_wmap he hd ha hb) hop (.inl ⟨rfl, rfl⟩)

end

end Sys2Proof.Machine

end

section
/-! What a write-back of a window line, and its loss, leave of the strands: everything but windows (R263, R267). -/

namespace Sys2Proof.Machine

namespace KeepsStrands

variable {s s' : State}

theorem countTransfer (s : State) (pa ctx : Nat) (va : Word) (counterEnable : Bool) :
    KeepsStrands s (countTransfer s pa ctx va counterEnable) := by
  unfold Machine.countTransfer
  extract_lets f tier die p full s1 n thr hit s2 s3
  have h1 : KeepsStrands s s1 := ite (fun _ => refl s) fun _ => of_eq rfl rfl
  have h2 : KeepsStrands s s2 := h1.trans (between s1 s2 rfl rfl)
  have h3 : KeepsStrands s s3 := h2.trans (ite (fun _ => notify ..) fun _ => refl s2)
  exact ite (fun _ => refl s) fun _ => ite (fun _ => refl s) fun _ => ite (fun _ => h3.trans (notify ..)) fun _ => h3

theorem evictLine (s : State) (line : Nat) : KeepsStrands s (evictLine s line) := by
  unfold Machine.evictLine
  extract_lets l s1 written s2
  have h1 : KeepsStrands s s1 := ite (fun _ => recallAll ..) fun _ => refl s
  have h2 : KeepsStrands s s2 := h1.trans (between s1 s2 rfl rfl)
  refine ite (fun _ => ?_) fun _ => h2
  split
  · exact h2.trans (countTransfer ..)
  · exact h2

theorem evictGuest (s : State) (die line : Nat) : KeepsStrands s (evictGuest s die line) := by
  unfold Machine.evictGuest
  split
  · exact refl s
  · extract_lets agent m d s1
    have hdrop : KeepsStrands s s1 := (foldl (fun s c => coreDrop s c line) _ s).trans (of_eq rfl rfl)
    exact ite (fun _ => hdrop) fun _ => ite (fun _ => hdrop.trans (of_eq rfl rfl)) fun _ => hdrop.trans (of_eq rfl rfl)

theorem fitSlice (s : State) (die line : Nat) : KeepsStrands s (fitSlice s die line) := by
  unfold Machine.fitSlice
  exact ite (fun _ => refl s) fun _ => ite (fun _ => evictLine ..) fun _ => evictGuest ..

theorem touchLine (s : State) (pa ctx : Nat) (va : Word) (counterEnable : Bool) :
    KeepsStrands s (touchLine s pa ctx va counterEnable) := by
  unfold Machine.touchLine
  refine ite (fun _ => refl s) fun _ => ?_
  exact (between s (s.updLine _ _) rfl rfl).trans ((fitSlice ..).trans (countTransfer ..))

theorem touchWrite (s : State) (l : Leaf) (ctx : Nat) (va : Word) : KeepsStrands s (touchWrite s l ctx va) := by
  unfold Machine.touchWrite
  exact ite (fun _ => refl s) fun _ => touchLine ..

theorem updateGuest (s : State) (die line o : Nat) (bs : List Byte) : KeepsStrands s (updateGuest s die line o bs) := by
  unfold Machine.updateGuest
  refine ite (fun _ => refl s) fun _ => ?_
  split
  · exact of_eq rfl rfl
  · exact refl s

/-- An effect in the place of another strand, after which the executing one goes on. -/
theorem inPlace {u : Nat} (h : KeepsStrands { s with cur := u } s') : KeepsStrands s { s' with cur := s.cur } :=
  ⟨rfl, h.strands⟩

theorem writePrivate (s : State) (u line : Nat) (va : Word) (dirty : BitVec 32) (data : List Byte) :
    KeepsStrands s (writePrivate s u line va dirty data) := by
  unfold Machine.writePrivate
  extract_lets t leaf log s1 me s2
  refine ite (fun _ => faultLog ..) fun _ => ?_
  have h1 : KeepsStrands s s1 := by
    unfold s1
    generalize leaf = found
    cases found with
    | none => exact refl s
    | some l => exact (touchWrite ..).trans (stampKey ..)
  have h2 : KeepsStrands { s1 with cur := u } s2 :=
    foldl (fun s m => ite (fun _ => (homePut ..).trans (updateGuest ..)) fun _ => refl s) _ _
  exact (h1.trans (inPlace h2)).trans (of_eq rfl rfl)

theorem writeBackWindow (s : State) (u i j : Nat) (cv : Bool) : KeepsStrands s (writeBackWindow s u i j cv) := by
  unfold Machine.writeBackWindow
  extract_lets t w dirty p line a s1 s2 s3 s4 va s5
  refine ite (fun _ => refl s) fun _ => ite (fun _ => ite (fun _ => refl s) fun _ => ?_) fun _ => ?_
  · have h1 : KeepsStrands s s1 := ite (fun _ => faultLog ..) fun _ => refl s
    have h2 : KeepsStrands s1 s2 := takeBack ..
    have h3 : KeepsStrands s2 s3 := coreDrop ..
    refine ((h1.trans h2).trans h3).trans ?_
    clear_value s3
    exact of_eq rfl rfl
  · have h5 : KeepsStrands s s5 := ite (fun _ => refl s) fun _ => writePrivate ..
    exact h5.trans (updWindow ..)

theorem giveUpLine (s : State) (core line : Nat) : KeepsStrands s (giveUpLine s core line) := by
  unfold Machine.giveUpLine
  refine ite (fun _ => refl s) fun _ => ?_
  split
  · exact of_eq rfl rfl
  · exact ite (fun _ => of_eq rfl rfl) fun _ => refl s

theorem dropWindowLine (s : State) (u i j : Nat) : KeepsStrands s (dropWindowLine s u i j) := by
  unfold Machine.dropWindowLine
  extract_lets t w p s1
  have h1 : KeepsStrands s s1 := updWindow ..
  exact ite (fun _ => h1.trans (giveUpLine ..)) fun _ => h1

theorem unmapWindow (s : State) (u i : Nat) (discard : Bool) : KeepsStrands s (unmapWindow s u i discard) := by
  unfold Machine.unmapWindow
  extract_lets s1 w s2
  have h1 : KeepsStrands s s1 := of_eq rfl rfl
  have h2 : KeepsStrands s1 s2 :=
    foldl (fun s (jp : Nat × Nat) => ite (fun _ => dropWindowLine ..) fun _ => writeBackWindow ..) _ _
  exact (h1.trans h2).trans ⟨rfl, State.updStrand_keeps Strand.sansWindows s2 u _ fun _ => rfl⟩

/-- A field of a strand apart from its windows is as before. -/
theorem field {β : Type} (h : KeepsStrands s s') (g : Strand → β) (hg : ∀ t : Strand, g t.sansWindows = g t) :
    g s'.me = g s.me := by
  rw [State.me, State.me, h.cur, ← hg (s'.strand s.cur), h.strands, hg]

theorem pc (h : KeepsStrands s s') : (s'.strand s.cur).pc = s.me.pc :=
  (congrArg Strand.pc (h.strands s.cur) : (s'.strand s.cur).sansWindows.pc = (s.strand s.cur).sansWindows.pc)

end KeepsStrands

end Sys2Proof.Machine
end

section
/-! The forms on a bound window: their ranges, their effects, and the traps of an unbound one (R266, R267). -/

namespace Sys2Proof.Machine

variable {s : State} {d a : BitVec 6} {v : BitVec 1} {n : BitVec 2} {w : Window} {js : List Nat}

theorem boundWindow_bound (h : s.me.window? n.toNat = some w) : boundWindow n s = .ok w s := by
  unfold boundWindow
  rw [run_bind_ok (run_me s)]
  simp only [h]
  rfl

theorem boundWindow_unbound (h : s.me.window? n.toNat = none) :
    boundWindow n s = .error (.trap ⟨22, 5, n.setWidth 64⟩) s := by
  unfold boundWindow
  rw [run_bind_ok (run_me s)]
  simp only [h]
  rfl

/-! Ranges (R266). -/

theorem windowRange_whole (w : Window) (s : State) : windowRange w 0 s = .ok (List.range w.size) s := rfl

section
variable {r : Word} {first count : Nat} (ha : a ≠ 0) (hr : r = s.me.reg a.toNat) (hfirst : first = (r.extractLsb' 0 16).toNat)
  (hcount : count = (r.extractLsb' 16 16).toNat)
include ha hr hfirst hcount

theorem windowRange_inside (h : r.toNat < 2 ^ 32 ∧ first < w.size ∧ first + count ≤ w.size) : windowRange w a s =
    .ok ((List.range (if count = 0 then w.size - first else count)).map (· + first)) s := by
  subst hr hfirst hcount
  obtain ⟨hword, hstart, hend⟩ := h
  unfold windowRange
  refine (run_passed ha).trans ((run_bind_ok (run_readReg a s)).trans ((run_passed ?_).trans rfl))
  omega

theorem windowRange_outside (h : ¬ (r.toNat < 2 ^ 32 ∧ first < w.size ∧ first + count ≤ w.size)) :
    windowRange w a s = .error (.trap ⟨22, 6, r⟩) s := by
  subst hr hfirst hcount
  unfold windowRange
  refine (run_passed ha).trans ((run_bind_ok (run_readReg a s)).trans (run_checked ?_))
  omega

end

/-! The checks of the forms. -/

theorem check_windowForm {x : InstrWord} {rs : List (BitVec 6)} (he : s.me.isExecute = false) (hr : ∀ r ∈ rs, r.toNat < 32) :
    ({ word := x, ops := rs.map .reg, bar := true } : Form).check s = none :=
  (Form.check_none _ s).mpr ⟨rfl, nofun, admitted_regs hr, fun _ => he, onClass_all s⟩

/-- A window form completes at the next word where its effect moves no program counter. -/
theorem windowForm_completes {i : Instr} {x : InstrWord} {body : M Flow} {e : State} (rs : List (BitVec 6))
    (hx : exec i s = insn { word := x, ops := rs.map .reg, bar := true } body s) (he : s.me.isExecute = false)
    (hr : ∀ r ∈ rs, r.toNat < 32) (hb : body s = .ok .seq e) : completesWith i s e ((e.strand s.cur).pc + 4) :=
  insn_completes hx (check_windowForm he hr) hb (.inl ⟨rfl, rfl⟩)

/-- A window form takes the traps of cause 22 with which its effect stops. -/
theorem windowForm_traps {i : Instr} {x : InstrWord} {body : M Flow} {e : State} {sub : Nat} {val : Word} (rs : List (BitVec 6))
    (hx : exec i s = insn { word := x, ops := rs.map .reg, bar := true } body s) (he : s.me.isExecute = false)
    (hr : ∀ r ∈ rs, r.toNat < 32) (hb : body s = .error (.trap ⟨22, sub, val⟩) e) :
    exec i s = .next (takeTrap s s.cur ⟨22, sub, val⟩ false false) :=
  hx.trans (insn_takesTrap (check_windowForm he hr) hb (by simp) (by simp) rfl)

/-! The effects. -/

theorem wunmapOp_runs (hw : s.me.window? n.toNat = some w) (hl : answers (awaitLines w) s () s)
    (hr : answers (release 0 15) s () s) : wunmapOp v n s = .ok .seq (unmapWindow s s.cur n.toNat (v = 1)) := by
  unfold wunmapOp
  rw [run_bind_ok (boundWindow_bound hw), run_bind_ok hl, run_bind_ok hr]
  rfl

section
variable (hw : s.me.window? n.toNat = some w) (hj : answers (windowRange w a) s js s)
include hw hj

theorem wflushOp_runs (hl : answers (awaitLines w) s () s) : wflushOp a n s =
    .ok .seq (js.foldl (fun s j => writeBackWindow s s.cur n.toNat j false) s) := by
  unfold wflushOp
  rw [run_bind_ok (boundWindow_bound hw), run_bind_ok hj, run_bind_ok hl]
  rfl

theorem wtouchOp_runs : wtouchOp a n s = .ok .seq (js.foldl (fun s j => if Tab.get 0 w.valid j = BitVec.allOnes 32 then s
    else s.post (.windowFill s.cur n.toNat j)) s) := by
  unfold wtouchOp
  rw [run_bind_ok (boundWindow_bound hw), run_bind_ok hj]
  rfl

end

/-- A fill that is on its way is all that WTOUCH starts. -/
theorem wtouch_keeps (js : List Nat) (i : Nat) : KeepsStrands s (js.foldl (fun s j =>
    if Tab.get 0 w.valid j = BitVec.allOnes 32 then s else s.post (.windowFill s.cur i j)) s) := by
  refine KeepsStrands.foldl (fun s j => ?_) js s
  exact .ite (fun _ => .refl s) fun _ => .of_eq rfl rfl

theorem wstatOp_runs : wstatOp d v n s = .ok .seq (s.updMe fun t => t.setReg d.toNat
    (((s.me.window? n.toNat).map fun w => if v = 1 then w.base else w.status).getD 0)) := by
  unfold wstatOp
  rw [run_bind_ok (run_me s)]
  cases s.me.window? n.toNat <;> rfl

/-- KEEP of a window of the executing strand. -/
def State.setKeep (s : State) (i : Nat) (on : Bool) : State :=
  s.updMe fun t => t.updWindow i fun w => { w with keep := on }

theorem keepBound_clears (hw : s.me.window? n.toNat = some w) :
    keepBound false n s = .ok () ((releaseKept s s.cur n.toNat).setKeep n.toNat false) := by
  unfold keepBound
  rw [run_bind_ok (boundWindow_bound hw)]
  rfl

theorem keepBound_sets (hw : s.me.window? n.toNat = some w) (hc : w.cls = 1) :
    keepBound true n s = .ok () (s.setKeep n.toNat true) := by
  unfold keepBound
  rw [run_bind_ok (boundWindow_bound hw)]
  simp only [hc]
  rfl

theorem keepBound_writable (hw : s.me.window? n.toNat = some w) (hc : w.cls ≠ 1) :
    keepBound true n s = .error (.trap ⟨22, 7, n.setWidth 64⟩) s := by
  have hother : (true && w.cls != 1) = true := by simpa using hc
  unfold keepBound
  rw [run_bind_ok (boundWindow_bound hw)]
  exact run_checked hother

/-! Unmapping. -/

/-- A window that has been unbound is gone. -/
theorem window?_erase (t : Strand) (i : Nat) : ({ t with windows := Tab.erase t.windows i } : Strand).window? i = none := by
  have hkeys := Tab.keys_erase t.windows i
  refine if_neg fun hany => ?_
  obtain ⟨x, hx, hi⟩ := List.any_eq_true.mp hany
  exact hkeys (List.mem_map.mpr ⟨x, hx, of_decide_eq_true hi⟩)

theorem unmapWindow_window? (s : State) (u i : Nat) (discard : Bool) :
    ((unmapWindow s u i discard).strand u).window? i = none := by
  unfold unmapWindow
  extract_lets s1 w s2
  rw [State.updStrand_strand, if_pos rfl]
  exact window?_erase _ i

theorem giveUpLine_mem (s : State) (core line : Nat) : (giveUpLine s core line).mem = s.mem := by
  unfold giveUpLine
  split
  · rfl
  · split
    · rfl
    · split <;> rfl

theorem dropWindowLine_mem (s : State) (u i j : Nat) : (dropWindowLine s u i j).mem = s.mem := by
  unfold dropWindowLine
  extract_lets t w p s1
  split
  · exact giveUpLine_mem s1 t.core (p - 1)
  · rfl

/-- An effect on memory's holders, line by line, that leaves memory leaves it as a whole. -/
theorem foldl_mem {α : Type} {f : State → α → State} (hf : ∀ s x, (f s x).mem = s.mem) (l : List α) (s : State) :
    (l.foldl f s).mem = s.mem := by
  induction l generalizing s with
  | nil => rfl
  | cons x l ih => rw [List.foldl_cons, ih, hf]

/-- Dirty words that are dropped change no memory. -/
theorem unmapWindow_discard_mem (s : State) (u i : Nat) : (unmapWindow s u i true).mem = s.mem := by
  unfold unmapWindow
  extract_lets s1 w s2
  have h2 : s2.mem = s1.mem := foldl_mem (fun s jp => by rw [if_pos (.inl rfl)]; exact dropWindowLine_mem s u i jp.1) _ _
  exact h2

/-! WINV (R267). -/

/-- WINV's effect on a line: its clean words go, or all of them. -/
def winvLine (n : BitVec 2) (v : BitVec 1) (s : State) (j : Nat) : State :=
  if v = 1 ∨ Tab.get 0 (s.me.window n.toNat).dirty j = 0 then dropWindowLine s s.cur n.toNat j
  else s.updMe fun t => t.updWindow n.toNat fun w =>
    w.setLine j (Tab.get 0 (s.me.window n.toNat).dirty j) (Tab.get 0 (s.me.window n.toNat).dirty j)

theorem winvOp_runs (hw : s.me.window? n.toNat = some w) (hj : answers (windowRange w a) s js s) :
    winvOp a v n s = .ok .seq (js.foldl (winvLine n v) s) := by
  unfold winvOp
  rw [run_bind_ok (boundWindow_bound hw), run_bind_ok hj]
  rfl

theorem winvLine_keeps (n : BitVec 2) (v : BitVec 1) (s : State) (j : Nat) : KeepsStrands s (winvLine n v s j) := by
  unfold winvLine
  exact .ite (fun _ => .dropWindowLine ..) fun _ => .updWindow ..

theorem winvLine_mem (n : BitVec 2) (v : BitVec 1) (s : State) (j : Nat) : (winvLine n v s j).mem = s.mem := by
  unfold winvLine
  split
  · exact dropWindowLine_mem ..
  · rfl

/-- The words of a line that WINV leaves valid, and dirty. -/
def Window.winvMask (w : Window) (v : BitVec 1) (j : Nat) : BitVec 32 := if v = 1 then 0 else Tab.get 0 w.dirty j

theorem window_updWindow (t : Strand) (i : Nat) (f : Window → Window) : (t.updWindow i f).window i = f (t.window i) :=
  Tab.get_set_self ..

theorem giveUpLine_strands (s : State) (core line : Nat) :
    (giveUpLine s core line).strands = s.strands ∧ (giveUpLine s core line).cur = s.cur := by
  unfold giveUpLine
  split
  · exact ⟨rfl, rfl⟩
  · split
    · exact ⟨rfl, rfl⟩
    · split <;> exact ⟨rfl, rfl⟩

theorem dropWindowLine_me_window (s : State) (i j : Nat) :
    (dropWindowLine s s.cur i j).me.window i = (s.me.window i).setLine j 0 0 := by
  have hdrop : (s.updStrand s.cur fun t => t.updWindow i fun w => w.setLine j 0 0).me.window i = (s.me.window i).setLine j 0 0 := by
    rw [State.updStrand_me, if_pos rfl]
    exact window_updWindow ..
  unfold dropWindowLine
  extract_lets t w p s1
  split
  · obtain ⟨hs, hc⟩ := giveUpLine_strands s1 t.core (p - 1)
    rw [State.me, State.strand, hs, hc]
    exact hdrop
  · exact hdrop

theorem winvLine_window (n : BitVec 2) (v : BitVec 1) (s : State) (j : Nat) : (winvLine n v s j).me.window n.toNat =
    (s.me.window n.toNat).setLine j ((s.me.window n.toNat).winvMask v j) ((s.me.window n.toNat).winvMask v j) := by
  unfold winvLine Window.winvMask
  by_cases hv : v = 1
  · rw [if_pos (.inl hv), if_pos hv, dropWindowLine_me_window]
  · rw [if_neg hv]
    by_cases hd : Tab.get 0 (s.me.window n.toNat).dirty j = 0
    · rw [if_pos (.inr hd), dropWindowLine_me_window, hd]
    · rw [if_neg (not_or.mpr ⟨hv, hd⟩), State.updMe_me, window_updWindow]

/-- The lines that WINV names keep the words that it leaves, valid and dirty. -/
theorem winv_lines (n : BitVec 2) (v : BitVec 1) (js : List Nat) (s : State) (j : Nat) :
    Tab.get 0 ((js.foldl (winvLine n v) s).me.window n.toNat).valid j = (if j ∈ js then (s.me.window n.toNat).winvMask v j
      else Tab.get 0 (s.me.window n.toNat).valid j) ∧
    Tab.get 0 ((js.foldl (winvLine n v) s).me.window n.toNat).dirty j = (if j ∈ js then (s.me.window n.toNat).winvMask v j
      else Tab.get 0 (s.me.window n.toNat).dirty j) := by
  induction js generalizing s with
  | nil => exact ⟨rfl, rfl⟩
  | cons k js ih =>
    obtain ⟨hvalid, hdirty⟩ := ih (winvLine n v s k)
    have hv : ∀ m, Tab.get 0 ((s.me.window n.toNat).setLine k m m).valid j =
      if j = k then m else Tab.get 0 (s.me.window n.toNat).valid j := fun m => Tab.get_set ..
    have hd : ∀ m, Tab.get 0 ((s.me.window n.toNat).setLine k m m).dirty j =
      if j = k then m else Tab.get 0 (s.me.window n.toNat).dirty j := fun m => Tab.get_set ..
    have hmask : ((winvLine n v s k).me.window n.toNat).winvMask v j = (s.me.window n.toNat).winvMask v j := by
      rw [winvLine_window]
      unfold Window.winvMask
      by_cases hv1 : v = 1
      · rw [if_pos hv1, if_pos hv1]
      · rw [if_neg hv1, if_neg hv1, if_neg hv1, hd]
        split
        · next hjk => rw [hjk]
        · rfl
    rw [List.foldl_cons, hvalid, hdirty, hmask, winvLine_window, hv, hd]
    by_cases hjs : j ∈ js
    · simp [hjs]
    · by_cases hjk : j = k
      · simp [hjk]
      · simp [hjs, hjk]

end Sys2Proof.Machine
end

section
/-! The write-back of an untracked window line: its dirty words, and no other byte, at its home (R240, R263). -/

namespace Sys2Proof.Machine

/-! Tables. -/

theorem Tab.erase_sublist {α : Type} (t : List (Nat × α)) (k : Nat) : (Tab.erase t k).Sublist t := by
  induction t with
  | nil => exact .slnil
  | cons x t ih =>
    unfold Tab.erase
    split
    · exact ih.cons x
    · exact ih.cons_cons x

theorem Tab.insert_perm {α : Type} (t : List (Nat × α)) (k : Nat) (v : α) : (Tab.insert t k v).Perm ((k, v) :: t) := by
  induction t with
  | nil => exact .refl _
  | cons x t ih =>
    unfold Tab.insert
    split
    · exact .refl _
    · exact (ih.cons x).trans (.swap ..)

/-- A table with one value set has at most one more entry that a test admits. -/
theorem Tab.length_filter_set {α : Type} [DecidableEq α] (f : Nat × α → Bool) (d : α) (t : List (Nat × α)) (k : Nat) (v : α) :
    ((Tab.set d t k v).filter f).length ≤ (t.filter f).length + 1 := by
  have herase : ((Tab.erase t k).filter f).length ≤ (t.filter f).length := ((Tab.erase_sublist t k).filter f).length_le
  unfold Tab.set
  split
  · omega
  · rw [((Tab.insert_perm (Tab.erase t k) k v).filter f).length_eq, List.filter_cons]
    split
    · rw [List.length_cons]
      omega
    · omega

/-! The touch of a line for which there is room. -/

variable {s : State} {p : Nat}

/-- A line that has room is cached, and nothing else happens. -/
theorem touchLine_roomFor (h : s.roomFor (p * 128)) (ctx : Nat) (va : Word) :
    touchLine s (p * 128) ctx va false = s ∨
      touchLine s (p * 128) ctx va false = s.updLine p fun k => { k with cached := true } := by
  have hline : p * 128 / 128 = p := by omega
  unfold touchLine
  rw [hline]
  by_cases hc : (s.line p).cached = true
  · exact .inl (if_pos hc)
  · refine .inr ((if_neg hc).trans ?_)
    have hroom : (sliceHolds s (homeDie (p * 128)) (homeSlice (p * 128))).length < sliceLines := by
      refine h.resolve_left ?_
      rwa [hline]
    have hfit : (sliceHolds (s.updLine p fun k => { k with cached := true }) (homeDie (p * 128)) (homeSlice (p * 128))).length ≤
        sliceLines := by
      unfold sliceHolds at hroom ⊢
      rw [List.length_append, List.length_map] at hroom ⊢
      have hone := Tab.length_filter_set (fun l => l.2.cached && homeDie (l.1 * 128) = homeDie (p * 128) &&
        homeSlice (l.1 * 128) = homeSlice (p * 128)) Line.blank s.lines p { s.line p with cached := true }
      rw [State.updLine_die]
      exact Nat.le_trans (Nat.add_le_add_right hone _) (by omega)
    unfold fitSlice
    rw [if_pos hfit]
    rfl

/-! A line whose home keeps nothing open. -/

/-- A line that no agent holds, of a parcel neither blocked nor moved, at whose home no operation waits. -/
structure State.openLine (s : State) (p : Nat) : Prop where
  unblocked : (s.parcel (p / 512)).blocked = false
  unmoved : s.movedPa (p * 128) = p * 128
  untracked : (s.line p).code = 0
  free : lineHeld s (p * 128) = false

/-- That rests on the parcels and the line's code. -/
theorem State.openLine.congr {s' : State} (h : s.openLine p) (hp : s'.parcels = s.parcels)
    (hc : (s'.line p).code = (s.line p).code) : s'.openLine p := by
  obtain ⟨hb, hm, hu, hf⟩ := h
  unfold State.movedPa lineHeld State.parcel at *
  exact ⟨by unfold State.parcel; rwa [hp], by unfold State.movedPa State.parcel; rwa [hp], hc.trans hu,
    by unfold lineHeld State.parcel; rwa [hp]⟩

theorem markDirty_open (s : State) (p : Nat) : (markDirty s p).mem = s.mem ∧ (markDirty s p).parcels = s.parcels ∧
    ((markDirty s p).line p).code = (s.line p).code := by
  unfold markDirty
  split
  · refine ⟨rfl, rfl, ?_⟩
    rw [State.updLine_line, if_pos rfl]
  · exact ⟨rfl, rfl, rfl⟩

theorem updateGuest_open (s : State) (die line o : Nat) (bs : List Byte) : (updateGuest s die line o bs).mem = s.mem ∧
    (updateGuest s die line o bs).parcels = s.parcels ∧ (updateGuest s die line o bs).lines = s.lines := by
  unfold updateGuest
  split
  · exact ⟨rfl, rfl, rfl⟩
  · split <;> exact ⟨rfl, rfl, rfl⟩

/-- A word stored at the home of such a line is in memory, and the line stays as it is. -/
theorem homePut_word (h : s.openLine p) {m : Nat} (hm : m < 32) {bs : List Byte} (hbs : bs.length = 4) (ctx : Nat) (va : Word) :
    (homePut s (p * 128 + 4 * m) bs false ctx va).mem = memStore s.mem (p * 128 + 4 * m) bs ∧
      (homePut s (p * 128 + 4 * m) bs false ctx va).openLine p := by
  have hmoved : s.movedPa (p * 128 + 4 * m) = p * 128 + 4 * m := by
    have h0 := h.unmoved
    have hframe : (p * 128 + 4 * m) / 65536 = p * 128 / 65536 := by omega
    unfold State.movedPa at h0 ⊢
    rw [hframe]
    split
    · next g hg =>
      rw [hg] at h0
      simp only [] at h0
      omega
    · rfl
  have hframe : (p * 128 + 4 * m) / 65536 = p / 512 := by omega
  have hheld : lineHeld s (p * 128 + 4 * m) = false := by
    have h0 := h.free
    have hf : p * 128 / 65536 = p / 512 := by omega
    have hl : (p * 128 + 4 * m) % 65536 / 128 = p * 128 % 65536 / 128 := by omega
    unfold lineHeld at h0 ⊢
    rw [hframe, hl, ← hf]
    exact h0
  have hput : homePut s (p * 128 + 4 * m) bs false ctx va = homeStore s (p * 128 + 4 * m) bs := by
    unfold homePut
    simp only [hmoved, hframe, h.unblocked, hheld]
    rfl
  have hone : (List.range (((p * 128 + 4 * m) % 128 + bs.length + 127) / 128)).map (fun i =>
    (p * 128 + 4 * m) / 128 + i) = [p] := by
    have hn : ((p * 128 + 4 * m) % 128 + bs.length + 127) / 128 = 1 := by omega
    have hp : (p * 128 + 4 * m) / 128 = p := by omega
    rw [hn, hp]
    rfl
  have hcode : ¬((s.line p).code = 1 ∨ (s.line p).code = 2) := by
    rw [h.untracked]
    omega
  have hstore : homeStore s (p * 128 + 4 * m) bs =
      { markDirty s p with mem := memStore (markDirty s p).mem (p * 128 + 4 * m) bs } := by
    unfold homeStore
    rw [hone]
    simp only [List.foldl_cons, List.foldl_nil, if_neg hcode]
  obtain ⟨hmem, hparcels, hline⟩ := markDirty_open s p
  rw [hput, hstore]
  exact ⟨by rw [hmem], h.congr hparcels hline⟩

/-! The words. -/

/-- The write-back of word m of an untracked line, where it is dirty. -/
def putWord (core p ctx : Nat) (log : Bool) (va : Word) (dirty : BitVec 32) (data : List Byte) (s : State) (m : Nat) : State :=
  if dirty.getLsbD m then
    updateGuest (homePut s (p * 128 + 4 * m) ((data.drop (4 * m)).take 4) log ctx (va + BitVec.ofNat 64 (4 * m)))
      (dieOf s core) p (4 * m) ((data.drop (4 * m)).take 4)
  else s

section
variable {ctx core : Nat} {va : Word} {dirty : BitVec 32} {g : Nat → Byte}

/-- A word's write-back changes its own bytes only. -/
theorem putWord_spec (h : s.openLine p) {m : Nat} (hm : m < 32) :
    (putWord core p ctx false va dirty ((List.range 128).map g) s m).openLine p ∧
    ∀ x, memByte (putWord core p ctx false va dirty ((List.range 128).map g) s m).mem x =
      if x / 128 = p ∧ x % 128 / 4 = m ∧ dirty.getLsbD m = true then g (x % 128) else memByte s.mem x := by
  unfold putWord
  by_cases hd : dirty.getLsbD m = true
  · have hbs : ((((List.range 128).map g).drop (4 * m)).take 4).length = 4 := by simp; omega
    have hput := homePut_word h hm hbs ctx (va + BitVec.ofNat 64 (4 * m))
    obtain ⟨hmem, hopen⟩ := hput
    obtain ⟨gmem, gparcels, glines⟩ := updateGuest_open
      (homePut s (p * 128 + 4 * m) ((((List.range 128).map g).drop (4 * m)).take 4) false ctx (va + BitVec.ofNat 64 (4 * m)))
      (dieOf s core) p (4 * m) ((((List.range 128).map g).drop (4 * m)).take 4)
    rw [if_pos hd]
    refine ⟨hopen.congr gparcels (by rw [State.line, glines, State.line]), fun x => ?_⟩
    rw [gmem, hmem]
    by_cases hx : x / 128 = p ∧ x % 128 / 4 = m
    · obtain ⟨hp, hw⟩ := hx
      rw [if_pos ⟨hp, hw, hd⟩]
      have hoff : x = p * 128 + 4 * m + x % 4 := by omega
      have hin := memByte_memStore_in ((((List.range 128).map g).drop (4 * m)).take 4) s.mem (p * 128 + 4 * m) (x % 4)
        (by rw [hbs]; omega)
      rw [← hoff] at hin
      rw [hin]
      simp only [List.getElem_take, List.getElem_drop, List.getElem_map, List.getElem_range]
      exact congrArg g (by omega)
    · rw [if_neg (fun hc => hx ⟨hc.1, hc.2.1⟩)]
      exact memByte_memStore_out _ _ _ _ (by rw [hbs]; omega)
  · rw [if_neg hd]
    exact ⟨h, fun x => (if_neg fun hc => hd hc.2.2).symm⟩

/-- The write-back of some words changes their bytes where they are dirty, and no other byte. -/
theorem putWords_mem (ms : List Nat) (hms : ∀ m ∈ ms, m < 32) (h : s.openLine p) (x : Nat) :
    memByte (ms.foldl (putWord core p ctx false va dirty ((List.range 128).map g)) s).mem x =
      if x / 128 = p ∧ x % 128 / 4 ∈ ms ∧ dirty.getLsbD (x % 128 / 4) = true then g (x % 128) else memByte s.mem x := by
  induction ms generalizing s with
  | nil => simp
  | cons m ms ih =>
    obtain ⟨hopen, hmem⟩ := putWord_spec (ctx := ctx) (core := core) (va := va) (dirty := dirty) (g := g) h (hms m (by simp))
    rw [List.foldl_cons, ih (fun k hk => hms k (by simp [hk])) hopen, hmem]
    by_cases hp : x / 128 = p
    · by_cases hw : x % 128 / 4 = m
      · subst hw
        by_cases hd : dirty.getLsbD (x % 128 / 4) = true <;> simp [hp, hd]
      · simp [hp, hw]
    · simp [hp]

end

end Sys2Proof.Machine
end

section
/-! The write-back of a window line of an untracked window, and the window forms together (R259, R263, R266, R267). -/

namespace Sys2Proof.Machine

variable {s : State} {p : Nat}

/-- A line that has the leaf's key already keeps it. -/
theorem stampKey_keyed {l : Leaf} (hpa : l.pa = p * 128) (h : (s.line p).key = keyId s l.keyIndex) : stampKey s l 128 = s := by
  have hone : (List.range ((l.pa % 128 + 128 + 127) / 128)).map (fun i => l.pa / 128 + i) = [p] := by
    have hn : (l.pa % 128 + 128 + 127) / 128 = 1 := by omega
    have hp : l.pa / 128 = p := by omega
    rw [hn, hp]
    rfl
  unfold stampKey
  split
  · rw [hone]
    exact if_pos h
  · rfl

/-- The touch of such a line by a write through an uncounted leaf leaves memory, the parcels, and the line's code and key. -/
theorem touchWrite_open {l : Leaf} (hpa : l.pa = p * 128) (hlog : l.logEnable = false) (hcount : l.counterEnable = false)
    (hopen : s.openLine p) (hroom : s.roomFor (p * 128)) (ctx : Nat) (va : Word) :
    (touchWrite s l ctx va).mem = s.mem ∧ (touchWrite s l ctx va).openLine p ∧
      ((touchWrite s l ctx va).line p).key = (s.line p).key ∧ (touchWrite s l ctx va).module = s.module := by
  have hframe : l.frame = p / 512 := by
    rw [Leaf.frame, hpa]
    omega
  have htouch : touchWrite s l ctx va = touchLine s (p * 128) ctx va false := by
    unfold touchWrite
    rw [hlog, hframe, hopen.unblocked, hcount, hpa]
    rfl
  rw [htouch]
  obtain hsame | hcached := touchLine_roomFor hroom ctx va
  · rw [hsame]
    exact ⟨rfl, hopen, rfl, rfl⟩
  · have hline : ((s.updLine p fun k => { k with cached := true }).line p) = { s.line p with cached := true } :=
      (State.updLine_line ..).trans (if_pos rfl)
    rw [hcached]
    exact ⟨rfl, hopen.congr rfl (by rw [hline]), by rw [hline], rfl⟩

/-- What the write-back of an untracked line asks of the leaf that translates its address now. -/
def quietLeaf (s : State) (p : Nat) (l : Leaf) : Prop :=
  l.logEnable = false ∧ l.counterEnable = false ∧ keyEmpty s { l with pa := p * 128 } = false ∧ (s.line p).key = keyId s l.keyIndex

/-- The leaf that translates the address of an untracked line now, at the line. -/
def lineLeaf (s : State) (u p : Nat) (va : Word) : Option Leaf :=
  (walk s false (s.strand u).ctx va).toOption.map fun l => { l with pa := p * 128 }

/-- The state in which the words of an untracked line are written: its home has been touched, and the line has the leaf's key. -/
def lineTouched (s : State) (ctx : Nat) (va : Word) : Option Leaf → State
  | some l => stampKey (touchWrite s l ctx va) l 128
  | none => s

/-- The write-back of an untracked line, where its home takes it. -/
theorem writePrivate_words {u : Nat} {va : Word} {dirty : BitVec 32} {data : List Byte} {log : Bool} {s1 : State}
    (hpass : ((lineLeaf s u p va).any (keyEmpty s) || !reachable s (p * 128)) = false)
    (hlog : (lineLeaf s u p va).any (fun l => l.logEnable && decide (l.cls = 2)) = log)
    (h1 : lineTouched s (s.strand u).ctx va (lineLeaf s u p va) = s1) : (writePrivate s u p va dirty data).mem =
      ((List.range 32).foldl (putWord (s.strand u).core p (s.strand u).ctx log va dirty data) { s1 with cur := u }).mem := by
  subst hlog h1
  unfold writePrivate
  extract_lets t leaf log s1 me s2
  have hpass' : ¬ (leaf.any (keyEmpty s) || !reachable s (p * 128)) = true := fun h => Bool.false_ne_true (hpass.symm.trans h)
  rw [if_neg hpass']
  have h1 : s1 = lineTouched s (s.strand u).ctx va (lineLeaf s u p va) := by
    unfold s1 lineTouched
    rfl
  unfold s2
  rw [h1]
  rfl

/-- An untracked line's dirty words reach memory, and no other byte changes. -/
theorem writePrivate_mem {u : Nat} {va : Word} {dirty : BitVec 32} {g : Nat → Byte} (hopen : s.openLine p)
    (hroom : s.roomFor (p * 128)) (hreach : reachable s (p * 128) = true)
    (hwalk : ∀ l, walk s false (s.strand u).ctx va = .ok l → quietLeaf s p l) (x : Nat) :
    memByte (writePrivate s u p va dirty ((List.range 128).map g)).mem x =
      if x / 128 = p ∧ dirty.getLsbD (x % 128 / 4) = true then g (x % 128) else memByte s.mem x := by
  have hwords {s1 : State} (h1 : s1.openLine p) (hmem : s1.mem = s.mem)
      (h : (writePrivate s u p va dirty ((List.range 128).map g)).mem = ((List.range 32).foldl
        (putWord (s.strand u).core p (s.strand u).ctx false va dirty ((List.range 128).map g)) { s1 with cur := u }).mem) :
      memByte (writePrivate s u p va dirty ((List.range 128).map g)).mem x =
        if x / 128 = p ∧ dirty.getLsbD (x % 128 / 4) = true then g (x % 128) else memByte s.mem x := by
    have h2 : State.openLine { s1 with cur := u } p := h1.congr rfl rfl
    have hin : x % 128 / 4 ∈ List.range 32 := List.mem_range.mpr (by omega)
    rw [h, putWords_mem _ (fun m => List.mem_range.mp) h2]
    simp only [hin, true_and]
    rw [← hmem]
  cases hl : walk s false (s.strand u).ctx va with
  | error e =>
    have hnone : lineLeaf s u p va = none := by
      unfold lineLeaf
      rw [hl]
      rfl
    exact hwords hopen rfl (writePrivate_words (by simp [hnone, hreach]) (by simp [hnone]) (by rw [hnone]; rfl))
  | ok l =>
    have hsome : lineLeaf s u p va = some { l with pa := p * 128 } := by
      unfold lineLeaf
      rw [hl]
      rfl
    obtain ⟨hlog, hcount, hkey, hid⟩ := hwalk l hl
    obtain ⟨hmem, h1, hk, hm⟩ := touchWrite_open (l := { l with pa := p * 128 }) rfl hlog hcount hopen hroom (s.strand u).ctx va
    have hstamp : lineTouched s (s.strand u).ctx va (some { l with pa := p * 128 }) =
        touchWrite s { l with pa := p * 128 } (s.strand u).ctx va := by
      refine stampKey_keyed rfl (hk.trans (hid.trans ?_))
      unfold keyId
      rw [hm]
      rfl
    have hquiet : Leaf.logEnable { l with pa := p * 128 } = false := hlog
    exact hwords h1 hmem (writePrivate_words (by simp [hsome, hreach, hkey]) (by simp [hsome, hquiet]) (by rw [hsome, hstamp]))

/-- After its write-back a line of an untracked window has no dirty words, and its home has those that it had. -/
theorem writeBackWindow_private {u i j : Nat} {cv : Bool} (hphys : Tab.get 0 ((s.strand u).window i).phys j = p + 1)
    (hcls : ((s.strand u).window i).cls ≠ 3) (hopen : s.openLine p) (hroom : s.roomFor (p * 128))
    (hreach : reachable s (p * 128) = true)
    (hwalk : ∀ l, walk s false (s.strand u).ctx (((s.strand u).window i).base + BitVec.ofNat 64 (128 * j)) = .ok l →
      quietLeaf s p l) :
    (∀ x, memByte (writeBackWindow s u i j cv).mem x =
      if x / 128 = p ∧ (Tab.get 0 ((s.strand u).window i).dirty j).getLsbD (x % 128 / 4) = true
        then Tab.get 0 (s.strand u).allot (128 * (((s.strand u).window i).offset + j) + x % 128) else memByte s.mem x) ∧
    Tab.get 0 (((writeBackWindow s u i j cv).strand u).window i).dirty j = 0 := by
  unfold writeBackWindow
  extract_lets t w dirty q line a s1 s2 s3 s4 va s5
  have hq : ¬ q = 0 := by
    unfold q
    rw [hphys]
    omega
  have hline : line = p := by
    unfold line q
    rw [hphys]
    rfl
  rw [if_neg hq, if_neg hcls]
  constructor
  · intro x
    have h5 : memByte s5.mem x = if x / 128 = p ∧ dirty.getLsbD (x % 128 / 4) = true
        then Tab.get 0 t.allot (128 * (w.offset + j) + x % 128) else memByte s.mem x := by
      unfold s5
      rw [hline]
      split
      · next h0 => simp [h0]
      · exact writePrivate_mem hopen hroom hreach hwalk x
    exact h5
  · rw [State.updStrand_strand, if_pos rfl, window_updWindow]
    exact Tab.get_set_self (0 : BitVec 32) ((s5.strand u).window i).dirty j 0

end Sys2Proof.Machine
end

section
/-! The window forms together (R259, R266, R267). -/

namespace Sys2Proof.Machine

variable {s s1 : State} {d a b : BitVec 6} {v : BitVec 1} {n : BitVec 2} {w : Window}

theorem check_bound_word (w g : Word) : (w.toNat / 2 ^ 34 ≠ 0 ∨ g.toNat % 128 ≠ 0 ∨ (apertureOffset g).isSome = true) ↔
    (2 ^ 34 ≤ w.toNat ∨ g.toNat % 128 ≠ 0 ∨ (apertureOffset g).isSome = true) :=
  or_congr_left (by omega)

theorem isSome_of_ne_none {α : Type} {o : Option α} (h : o ≠ none) : o.isSome = true := Option.isSome_iff_ne_none.mpr h

theorem not_isSome {α : Type} {o : Option α} (h : o = none) : ¬ o.isSome = true := by simp [h]

/-! The forms, each with its body. -/

theorem exec_wunmap : exec (.wunmap v n) s = execWunmap v n s := rfl
theorem exec_wflush : exec (.wflush a n) s = execWflush a n s := rfl
theorem exec_winv : exec (.winv a v n) s = execWinv a v n s := rfl
theorem exec_wstat : exec (.wstat d v n) s = execWstat d v n s := rfl
theorem exec_wtouch : exec (.wtouch a n) s = execWtouch a n s := rfl
theorem exec_wkeep : exec (.wkeep v n) s = execWkeep v n s := rfl

variable (he : s.me.isExecute = false)
include he

/-- WSTAT gives the status word or the base of a bound window, and 0 for an unbound index. -/
theorem wstat_completes (hd : d.toNat < 32) : completesWith (.wstat d v n) s (s.updMe fun t => t.setReg d.toNat
    (((s.me.window? n.toNat).map fun w => if v = 1 then w.base else w.status).getD 0)) (s.me.pc + 4) := by
  have hgo := windowForm_completes [d] (exec_wstat.trans rfl) he (by simpa using hd) (wstatOp_runs (d := d) (v := v) (n := n))
  rwa [pc_updMe_setReg] at hgo

/-- On an unbound index every form but WSTAT stops at its window. -/
theorem unbound_traps (ha : a.toNat < 32) (hw : s.me.window? n.toNat = none) :
    ∀ i ∈ [Instr.wunmap v n, .wflush a n, .winv a v n, .wtouch a n, .wkeep v n],
      exec i s = .next (takeTrap s s.cur ⟨22, 5, n.setWidth 64⟩ false false) := by
  have hb := boundWindow_unbound hw
  have hra : ∀ r ∈ [a], r.toNat < 32 := by simpa using ha
  have hkeep : keepBound (v = 1) n s = .error (.trap ⟨22, 5, n.setWidth 64⟩) s := by
    unfold keepBound
    rw [run_bind_error hb]
  simp only [List.forall_mem_cons, List.not_mem_nil, false_imp_iff, implies_true, and_true]
  exact ⟨windowForm_traps [] (exec_wunmap.trans rfl) he nofun (run_bind_error hb),
    windowForm_traps [a] (exec_wflush.trans rfl) he hra (run_bind_error hb),
    windowForm_traps [a] (exec_winv.trans rfl) he hra (run_bind_error hb),
    windowForm_traps [a] (exec_wtouch.trans rfl) he hra (run_bind_error hb),
    windowForm_traps [] (exec_wkeep.trans rfl) he nofun (run_bind_error hkeep)⟩

theorem wkeep_completes (hw : s.me.window? n.toNat = some w) (h : v = 0 ∨ w.cls = 1) : completesWith (.wkeep v n) s
    ((if v = 0 then releaseKept s s.cur n.toNat else s).setKeep n.toNat (v = 1)) (s.me.pc + 4) := by
  have hkeep : keepBound (v = 1) n s =
      .ok () ((if v = 0 then releaseKept s s.cur n.toNat else s).setKeep n.toNat (v = 1)) := by
    obtain rfl | rfl := BitVec.eq_zero_or_eq_one v
    · exact keepBound_clears hw
    · exact keepBound_sets hw (h.resolve_left (by decide))
  have hop : wkeepOp v n s = .ok .seq ((if v = 0 then releaseKept s s.cur n.toNat else s).setKeep n.toNat (v = 1)) := by
    unfold wkeepOp
    rw [run_bind_ok hkeep]
    rfl
  have hkept : KeepsStrands s ((if v = 0 then releaseKept s s.cur n.toNat else s).setKeep n.toNat (v = 1)) := by
    have hreleased : KeepsStrands s (if v = 0 then releaseKept s s.cur n.toNat else s) := .ite (fun _ => .of_eq rfl rfl) fun _ =>
      .refl s
    exact hreleased.trans (.updWindow ..)
  have hgo := windowForm_completes [] (exec_wkeep.trans rfl) he nofun hop
  rwa [hkept.pc] at hgo

/-- KEEP of a window that is not read-only is refused. -/
theorem wkeep_traps (hw : s.me.window? n.toNat = some w) (hv : v = 1) (hc : w.cls ≠ 1) :
    exec (.wkeep v n) s = .next (takeTrap s s.cur ⟨22, 7, n.setWidth 64⟩ false false) := by
  subst hv
  have hop : wkeepOp 1 n s = .error (.trap ⟨22, 7, n.setWidth 64⟩) s := run_bind_error (keepBound_writable hw hc)
  exact windowForm_traps [] (exec_wkeep.trans rfl) he nofun hop

/-- WINV completes; its lines keep the words that it leaves, and nothing but windows has changed of the strand. -/
theorem winv_completes (ha : a.toNat < 32) {js : List Nat} (hw : s.me.window? n.toNat = some w)
    (hj : answers (windowRange w a) s js s) : ∃ e, completesWith (.winv a v n) s e (s.me.pc + 4) ∧
      (∀ x, memByte e.mem x = memByte s.mem x) ∧ e.me.allot = s.me.allot ∧ (∀ r, e.me.reg r = s.me.reg r) ∧
      ∀ j ∈ js, Tab.get 0 (e.me.window n.toNat).valid j = (s.me.window n.toNat).winvMask v j ∧
        Tab.get 0 (e.me.window n.toNat).dirty j = (s.me.window n.toNat).winvMask v j := by
  have hkept : KeepsStrands s (js.foldl (winvLine n v) s) := .foldl (winvLine_keeps n v) js s
  have hmem := foldl_mem (winvLine_mem n v) js s
  have hgo := windowForm_completes [a] (exec_winv.trans rfl) he (by simpa using ha) (winvOp_runs (v := v) hw hj)
  rw [hkept.pc] at hgo
  refine ⟨_, hgo, fun x => by rw [hmem], hkept.field Strand.allot fun _ => rfl, fun r => hkept.field (·.reg r) fun _ => rfl,
    fun j hmj => ?_⟩
  have hlines := winv_lines n v js s j
  rwa [if_pos hmj, if_pos hmj] at hlines

/-- WTOUCH completes with its fills on their way. -/
theorem wtouch_completes (ha : a.toNat < 32) {js : List Nat} (hw : s.me.window? n.toNat = some w)
    (hj : answers (windowRange w a) s js s) : completesWith (.wtouch a n) s (js.foldl (fun s j =>
      if Tab.get 0 w.valid j = BitVec.allOnes 32 then s else s.post (.windowFill s.cur n.toNat j)) s) (s.me.pc + 4) := by
  have hgo := windowForm_completes [a] (exec_wtouch.trans rfl) he (by simpa using ha) (wtouchOp_runs hw hj)
  rwa [(wtouch_keeps js n.toNat).pc] at hgo

end Sys2Proof.Machine

open Sys2Proof.Machine

/-- Settles O48: WMAP along its checks, the forms on a bound and on an unbound window, and the write-back of an untracked line
word by
word. -/
theorem windows : Obligations.Windows := by
  unfold Obligations.Windows
  refine ⟨?_, fun s d a v n w he hd ha hw => ⟨?_, fun js hj => ⟨?_, winv_completes he ha hw hj, wtouch_completes he ha hw hj⟩, ?_,
      fun h e hk => hk ▸ wkeep_completes he hw h, wkeep_traps he hw⟩,
    fun s a w r hr => ⟨?_, fun ha first count hfirst hcount => ⟨fun h1 h2 h3 => windowRange_inside ha hr hfirst hcount ⟨h1, h2, h3⟩,
      windowRange_outside ha hr hfirst hcount⟩⟩,
    fun s d a v n he hd ha hw => ⟨?_, unbound_traps he ha hw⟩,
    fun s u i j p cv t w ht hw hphys hcls hwalk hreach hb hm hc hroom hl => ?_⟩
  · rintro s s1 d a b g w idx size off cls he hd ha hb rfl rfl rfl rfl rfl
    have htrap {x : Trap} := wmap_traps (x := x) he hd ha hb
    refine ⟨fun h => htrap (bindWindow_word ((check_bound_word _ _).mpr h)) rfl, fun hword hal hap => ?_⟩
    have h8 := mt (check_bound_word (s.me.reg b.toNat) (s.me.reg a.toNat)).mp 
      (not_or.mpr ⟨Nat.not_le.mpr hword, not_or.mpr ⟨not_not.mpr hal, not_isSome hap⟩⟩)
    refine ⟨fun h => htrap (bindWindow_child h8 (isSome_of_ne_none h)) rfl, fun hpar => ?_⟩
    have h11 := not_isSome hpar
    refine ⟨fun h => htrap (bindWindow_taken h8 h11 (isSome_of_ne_none h)) rfl, fun hfree => ?_⟩
    have h4 := not_isSome hfree
    refine ⟨fun h => htrap (bindWindow_outside h8 h11 h4 h) rfl, fun hpos hin => ?_⟩
    have h1 := not_or.mpr ⟨Nat.ne_of_gt hpos, Nat.not_lt.mpr hin⟩
    refine ⟨fun h => htrap (bindWindow_meets h8 h11 h4 h1 h) rfl, fun hwin hspan hcls => ?_⟩
    have h2 := not_or.mpr ⟨Bool.eq_false_iff.mp hwin, Bool.eq_false_iff.mp hspan⟩
    have hrun := bindWindow_inRange h8 h11 h4 h1 h2 hcls
    have hstops {x : Trap} : stops (bindClasses s.me _ _ cls) s1 x → stops (bindWindow _ _) s x :=
      fun ⟨e, h⟩ => ⟨e, hrun.trans h⟩
    refine ⟨fun h => htrap (hstops (bindClasses_mixed h)) rfl, fun h kept hk => ?_⟩
    have h9 := Bool.eq_false_iff.mp h
    subst hk
    refine ⟨fun h => htrap (hstops (bindClasses_covered h9 h)) rfl, fun h => ?_⟩
    have h3 := Bool.eq_false_iff.mp h
    refine ⟨fun hk hfull e hE => ?_, fun hk hroom e hE => ?_, fun k hk e hE => ?_⟩
    · exact hE ▸ wmap_completes he hd ha hb (hrun.trans (bindClasses_full h9 h3 hk hfull))
    · exact hE ▸ wmap_completes he hd ha hb (hrun.trans (bindClasses_new h9 h3 hk (Nat.not_le.mpr hroom)))
    · exact hE ▸ wmap_completes he hd ha hb (hrun.trans (bindClasses_kept h9 h3 hk))
  · rintro e rfl
    have hkept := KeepsStrands.unmapWindow s s.cur n.toNat (v = 1)
    refine ⟨fun hl hr => windowForm_completes [] (exec_wunmap.trans rfl) he nofun (wunmapOp_runs hw hl hr),
      unmapWindow_window? s s.cur n.toNat (v = 1), (congrArg Strand.allot (hkept.strands s.cur) :), fun hv x => ?_⟩
    subst hv
    exact congrArg (memByte · x) (unmapWindow_discard_mem s s.cur n.toNat)
  · rintro e rfl hl
    exact windowForm_completes [a] (exec_wflush.trans rfl) he (by simpa using ha) (wflushOp_runs hw hj hl)
  · have hgo := wstat_completes (v := v) (n := n) he hd
    rwa [hw] at hgo
  · rintro rfl
    exact windowRange_whole w s
  · have hgo := wstat_completes (v := v) (n := n) he hd
    rwa [hw] at hgo
  · subst ht hw
    exact writeBackWindow_private hphys hcls ⟨hb, hm, hc, hl⟩ hroom hreach hwalk

end

section
/-! The gang timer and a table that lists one strand twice (R370, R402). Reading a table finds the first entry of a key, a write leaves
one entry of it, and `launchStrands` looks at every entry. A command of the gang that fails has its fault log entry written, whose line
is recalled from the windows that hold it: that writes the strand of the window, and an entry that stood behind its first is gone before
`gangFail` looks for the strands of the launch. -/

namespace Sys2Proof.Machine

/-- A strand of no launch whose window holds line 512, the first of the fault log. -/
def windowHolder : Strand :=
  { Strand.blank with run := .ready, windows := [(0, { Window.blank with phys := [(0, 513)] })] }

/-- A running command of launch 3 from scale-out port 80. -/
def scaleOutCommand : Command := { Command.blank with st := .running, launch := 3, ctrl := 0x140C }

/-- A launch of a gang of two members, of which the other has not announced itself when the timer ends at 0 ns. -/
def incompleteGang : Launch := { Launch.blank with ended := false, tag := 7, members := 2, timer := some 0 }

/-- Strand 1 is listed as `windowHolder` and, behind that, as a strand of launch 3, whose timer has run out. Naing's tables, a single one
at 0, map the fault log of context 0 at 0x10000 to the same physical address, and core 0 owns its first line. -/
def listedTwice : State := { State.reset with
  clock := 56
  strands := [(1, windowHolder), (1, { Strand.blank with run := .ready, launch := 3 })]
  launches := [(3, incompleteGang)]
  dies := [(0, { Die.blank with cmds := [(0, scaleOutCommand)] })]
  contexts := [(0, { Context.blank with faultLog := 0x10000 })]
  mem := [(0, 0x01), (8, 0x01), (9, 0x80), (10, 0x01)]
  lines := [(512, { Line.blank with code := 2, sharers := [0] })]
  module := { Module.reset with keys := [(0, some 0)] } }

theorem gangTimedOut_listedTwice : gangTimedOut listedTwice 3 = true := by decide

theorem launchStrands_listedTwice : launchStrands listedTwice 3 = [1] := by decide

/-- The timeout leaves one entry of strand 1, that of no launch: its window has lost the line, and no cause 20 is pending. -/
theorem gangTimeout_listedTwice_strands :
    (gangTimeout listedTwice 3).strands = [(1, { Strand.blank with run := .ready })] := by decide +kernel

end Sys2Proof.Machine

open Sys2Proof.Machine

/-- Refutes O59: the statement has every strand that the launch lists before the timeout receive cause 20. It does not ask that the
strands' table has one entry of each strand, and where it has two the launch's may be gone when cause 20 is given. -/
theorem not_launchEvents : ¬ Obligations.LaunchEvents := by
  unfold Obligations.LaunchEvents
  rintro ⟨-, -, -, -, -, hgang⟩
  obtain ⟨-, -, -, htimeout, -⟩ := hgang listedTwice 3 _ rfl
  obtain ⟨t, ht, -, -, hcause, -⟩ := htimeout gangTimedOut_listedTwice
  obtain rfl : gangTimeout listedTwice 3 = t := Host.Outcome.next.inj ht
  have hlisted : 1 ∈ launchStrands listedTwice 3 := launchStrands_listedTwice ▸ List.mem_singleton_self 1
  have hpending := hcause 1 hlisted rfl nofun
  rw [State.strand, gangTimeout_listedTwice_strands] at hpending
  exact nomatch hpending

end

section
/-! Scalar floating point: its forms read their operands, write a result and raise its flags (R70, R127-R131). -/

namespace Sys2Proof.Machine

variable {s s1 s2 s3 e e' t : State} {d a b : BitVec 6} {sy : BitVec 1}

/-- A completion rests on what the strands of the effect are, not on how their table lists them. -/
theorem Completed.congr {pc : Word} (h : Completed s e pc t) (hs : ∀ u, e'.strand u = e.strand u)
    (hd : e'.device = e.device) (ha : e'.agenda = e.agenda) : Completed s e' pc t := by
  obtain ⟨hpc, hothers, hstrands, hissued, hdevice, hagenda⟩ := h
  have ho : e'.owner s.cur = e.owner s.cur := owner_congr (by rw [hs]) (by rw [hs]) (by rw [hs])
  exact ⟨hpc, fun u hu => by rw [hothers u hu, hs], fun u => by rw [hstrands u, hs], fun u => by rw [hissued u, hs],
    hdevice.trans hd.symm, by rwa [ha, ho]⟩

theorem Strand.withFlags_zero (t : Strand) : t.withFlags 0 = t := by
  simp [Strand.withFlags]

/-- Raising no flag leaves every strand as it is. -/
theorem updMe_withFlags_zero (s : State) (u : Nat) : (s.updMe fun t => t.withFlags 0).strand u = s.strand u := by
  rw [State.updMe_strand, Strand.withFlags_zero]
  split
  · next h => rw [h, State.me]
  · rfl

/-- A form that ends with its flags, after its operands have changed scalar state alone, completes with the flags in FCSR. -/
theorem raiseFlags_completes {i : Instr} {f : Form} {body : M Flow} {fl : Nat} (hx : exec i s = insn f body s)
    (hc : f.check s = none) (hb : body s = (do raiseFlags fl; return Flow.seq) e) (hcur : e.cur = s.cur)
    (hpc : e.me.pc = s.me.pc) : completesWith i s (e.updMe fun t => t.withFlags fl) (s.me.pc + 4) := by
  by_cases hfl : fl = 0
  · subst hfl
    obtain ⟨t, hrun, hdone⟩ := insn_completes (pc := s.me.pc + 4) hx hc hb (.inl ⟨rfl, by rw [← hcur, ← hpc, State.me]⟩)
    exact ⟨t, hrun, hdone.congr (updMe_withFlags_zero e) rfl rfl⟩
  · have hrun : body s = .ok .seq (e.updMe fun t => t.withFlags fl) := by
      rw [hb, raiseFlags, if_neg hfl]
      rfl
    refine insn_completes hx hc hrun (.inl ⟨rfl, ?_⟩)
    rw [State.updMe_strand, if_pos hcur.symm, ← hpc]
    rfl

/-- The rounding mode is no scalar state that reading operands changes (R71). -/
theorem ScalarOnly.rm (h : ScalarOnly d s e) : e.me.rm = s.me.rm := by
  rw [State.me, State.me, h.cur]
  exact (congrArg Strand.rm (h.strands s.cur) : (e.strand s.cur).sansScalar.rm = (s.strand s.cur).sansScalar.rm)

/-- A form that is restricted to classes of cores alone. -/
def classedForm (w : InstrWord) (ops : List Opnd) (classes : Nat) (xs : List Nat) : Form :=
  { word := w, ops := ops, classes := classes, xfields := xs }

theorem check_classedForm {w : InstrWord} {ops : List Opnd} {classes : Nat} {xs : List Nat} (hops : admitted s ops)
    (hcl : onClass s classes) : (classedForm w ops classes xs).check s = none :=
  (Form.check_none _ s).mpr ⟨rfl, nofun, hops, nofun, hcl⟩

/-- A floating-point effect on one operand: f of RM and the operand gives the word for d and the flags. -/
def floatUnary (d a : BitVec 6) (sy : BitVec 1) (f : Nat → Word → Word × Nat) : M Flow := do
  let x ← readSync a sy
  let rm := (← me).rm
  writeX d (f rm x).1
  raiseFlags (f rm x).2
  return .seq

/-- A form that is such an effect completes with its word and its flags. -/
theorem floatUnary_completes {i : Instr} {w : InstrWord} {classes : Nat} {xs : List Nat} {body : M Flow}
    {f : Nat → Word → Word × Nat} {x v : Word} {fl : Nat}
    (hx : exec i s = insn (classedForm w [.data d 1 true, syncOpnd a sy] classes xs) body s) (hb : body = floatUnary d a sy f)
    (hops : admitted s [.data d 1 true, syncOpnd a sy]) (hcl : onClass s classes) (h1 : answers (readSync a sy) s x s1)
    (hf : f s.me.rm x = (v, fl)) (h2 : answers (writeX d v) s1 () s2) :
    completesWith i s (s2.updMe fun t => t.withFlags fl) (s.me.pc + 4) ∧ ScalarOnly d s s2 := by
  have hread : ScalarOnly d s s1 := readSync_only h1
  have hwrite : ScalarOnly d s s2 := hread.trans (writeX_only h2)
  have hrun : body s = (do raiseFlags fl; return Flow.seq) s2 := by
    rw [hb, floatUnary, run_bind_ok h1, run_bind_ok (run_me s1), hread.rm, hf, run_bind_ok h2]
  exact ⟨raiseFlags_completes hx (check_classedForm hops hcl) hrun hwrite.cur hwrite.pc, hwrite⟩

/-- What an operation of one operand gives of a register. -/
def ofBits (f : Nat → Nat → Nat × Nat) (fm : Fp.Fmt) (rm : Nat) (x : Word) : Word × Nat :=
  (BitVec.ofNat 64 (f rm (fpBits fm x)).1, (f rm (fpBits fm x)).2)

/-- An instruction that is `fps1` computes its function. -/
theorem fps1_computes {i : BitVec 6 → BitVec 6 → BitVec 2 → BitVec 1 → Instr} {classes : BitVec 2 → Nat}
    {f : Fp.Fmt → Nat → Nat → Nat × Nat} (code : BitVec 5)
    (hx : ∀ d a t sy s, exec (i d a t sy) s = insn (classedForm (fr 16 d a 0 code t sy) [.data d 1 true, syncOpnd a sy]
      (classes t) [d.toNat, a.toNat]) (fps1 d a t sy f) s) : computesFp1 i classes f := by
  rintro s s1 s2 d a t sy x r hops hcl h1 rfl h2
  have hb : fps1 d a t sy f = floatUnary d a sy (ofBits (f (fpsFmt t)) (fpsFmt t)) := rfl
  exact floatUnary_completes (hx d a t sy s) hb hops hcl h1 rfl h2

/-- An instruction that is `fps2` computes its function. -/
theorem fps2_computes {i : BitVec 6 → BitVec 6 → BitVec 6 → BitVec 2 → BitVec 1 → Instr} {classes : BitVec 2 → Nat}
    {f : Fp.Fmt → Nat → Nat → Nat → Nat × Nat} (code : BitVec 5)
    (hx : ∀ d a b t sy s, exec (i d a b t sy) s = insn (classedForm (fr 16 d a b code t sy)
      [.data d 1 true, syncOpnd a sy, .data b 1 false] (classes t) [d.toNat, a.toNat, b.toNat]) (fps2 d a b t sy f) s) :
    computesFp2 i classes f := by
  rintro s s1 s2 s3 d a b t sy x y r hops hcl h1 h2 rfl h3
  have hread : ScalarOnly d s s2 := (readSync_only h1).trans (readX_only h2)
  have hwrite : ScalarOnly d s s3 := hread.trans (writeX_only h3)
  have hb : fps2 d a b t sy f s =
      (do raiseFlags (f (fpsFmt t) s.me.rm (fpBits (fpsFmt t) x) (fpBits (fpsFmt t) y)).2; return Flow.seq) s3 := by
    unfold fps2
    rw [run_bind_ok h1, run_bind_ok h2, run_bind_ok (run_me s2), hread.rm]
    exact run_bind_ok h3
  exact ⟨raiseFlags_completes (hx d a b t sy s) (check_classedForm hops hcl) hb hwrite.cur hwrite.pc, hwrite⟩

/-- A register that is none of those that reading operands may change. -/
theorem ScalarOnly.reg_eq {d' : BitVec 6} {r : Nat} (h : ScalarOnly d' s e) (hr : r ≠ d'.toNat) : e.me.reg r = s.me.reg r := by
  rw [State.me, h.cur]
  exact h.regs _ _ (.inr hr)

/-- Reading scalar operands leaves every register alone: whichever one `ScalarOnly` excepts, it holds at another. -/
theorem reg_of_reads {sy : BitVec 1} {x y : Word} (h1 : answers (readSync a sy) s x s1) (h2 : answers (readX b) s1 y s2)
    (r : Nat) : s2.me.reg r = s.me.reg r := by
  by_cases hr : r = 0
  · have hother : ScalarOnly 1 s s2 := (readSync_only h1).trans (readX_only h2)
    exact hother.reg_eq (by simp [hr])
  · have hother : ScalarOnly 0 s s2 := (readSync_only h1).trans (readX_only h2)
    exact hother.reg_eq (by simpa using hr)

/-- A fused form reads register d as its accumulator, rounds once and writes it back (R128). -/
theorem fps3_completes {i : Instr} {w : InstrWord} {xs : List Nat} {ty : BitVec 2} {minus : Bool} {x y : Word} {r : Nat × Nat}
    (hx : exec i s = insn (classedForm w [.reg d, syncOpnd a sy, .data b 1 false] (fpsClasses ty) xs) (fps3 d a b ty sy minus) s)
    (hops : admitted s [.reg d, syncOpnd a sy, .data b 1 false]) (hcl : onClass s (fpsClasses ty))
    (h1 : answers (readSync a sy) s x s1) (h2 : answers (readX b) s1 y s2)
    (hr : Fp.fma (fpsFmt ty) s.me.rm minus (fpBits (fpsFmt ty) (s.me.reg d.toNat)) (fpBits (fpsFmt ty) x)
      (fpBits (fpsFmt ty) y) = r) :
    completesWith i s (s2.updMe fun t => (t.setReg d.toNat (BitVec.ofNat 64 r.1)).withFlags r.2) (s.me.pc + 4) := by
  have hread : ScalarOnly d s s2 := (readSync_only h1).trans (readX_only h2)
  have hb : fps3 d a b ty sy minus s = (do raiseFlags r.2; return Flow.seq)
      (s2.updMe fun t => t.setReg d.toNat (BitVec.ofNat 64 r.1)) := by
    subst hr
    rw [fps3, run_bind_ok h1, run_bind_ok h2, run_bind_ok (run_readReg d s2), run_bind_ok (run_me s2), hread.rm,
      reg_of_reads h1 h2]
    exact run_bind_ok (run_writeReg d _ s2)
  have hpc : (s2.updMe fun t => t.setReg d.toNat (BitVec.ofNat 64 r.1)).me.pc = s.me.pc := by
    rw [State.updMe_me, Strand.setReg_pc, hread.pc]
  have hdone := raiseFlags_completes hx (check_classedForm hops hcl) hb hread.cur hpc
  rwa [State.updMe_updMe] at hdone

/-- The integer that FCVTF takes of a register (R131). -/
def intBits (f : BitVec 3) (x : Word) : Int :=
  if intNatural f then (x.setWidth (intWidth f)).toNat else (x.setWidth (intWidth f)).toInt

/-- FCVTI as an effect on one operand. -/
theorem fcvtiOp_eq (d a : BitVec 6) (m f : BitVec 3) (t : BitVec 2) (sy : BitVec 1) :
    fcvtiOp d a m f t sy = floatUnary d a sy fun rm x =>
      let r := Fp.toRange false (if intNatural f then 0 else -(2 : Int) ^ (intWidth f - 1))
        (if intNatural f then (2 : Int) ^ intWidth f - 1 else (2 : Int) ^ (intWidth f - 1) - 1)
        (convMode rm m) (Fp.decode (fpsFmt t) (fpBits (fpsFmt t) x))
      (BitVec.ofInt 64 r.1, r.2) := by
  unfold fcvtiOp floatUnary
  simp only [Nat.cast_pow, Nat.cast_ofNat]

/-- FCVTF as an effect on one operand. -/
theorem fcvtfOp_eq (d a : BitVec 6) (m f : BitVec 3) (t : BitVec 2) (sy : BitVec 1) :
    fcvtfOp d a m f t sy = floatUnary d a sy fun rm x =>
      let r := Fp.ofInt (fpsFmt t) (convMode rm m) (intBits f x)
      (BitVec.ofNat 64 r.1, r.2) := rfl

/-- FCVTW as an effect on one operand. -/
theorem fcvtwOp_eq (d a : BitVec 6) (m : BitVec 3) (f t : BitVec 2) (sy : BitVec 1) :
    fcvtwOp d a m f t sy = floatUnary d a sy
      (ofBits (fun rm x => Fp.convert (fpsFmt f) (fpsFmt t) (convMode rm m) x) (fpsFmt f)) := rfl

end Sys2Proof.Machine

open Sys2Proof.Machine

/-- Settles O4: each form is `fps1`, `fps2`, `fps3` or a conversion at its function, and what its operands' reads change leaves
the rounding mode and the accumulator alone. -/
theorem scalarFloat : Obligations.ScalarFloat := by
  unfold Obligations.ScalarFloat
  refine ⟨⟨fps2_computes 0 fun _ _ _ _ _ _ => rfl, fps2_computes 1 fun _ _ _ _ _ _ => rfl,
      fps2_computes 2 fun _ _ _ _ _ _ => rfl, fps2_computes 5 fun _ _ _ _ _ _ => rfl,
      fps2_computes 7 fun _ _ _ _ _ _ => rfl, fps2_computes 8 fun _ _ _ _ _ _ => rfl,
      fps2_computes 9 fun _ _ _ _ _ _ => rfl, fps2_computes 10 fun _ _ _ _ _ _ => rfl,
      fps2_computes 11 fun _ _ _ _ _ _ => rfl, fps2_computes 16 fun _ _ _ _ _ _ => rfl,
      fps2_computes 17 fun _ _ _ _ _ _ => rfl, fps2_computes 18 fun _ _ _ _ _ _ => rfl⟩,
    fps1_computes 6 fun _ _ _ _ _ => rfl, fps1_computes 12 fun _ _ _ _ _ => rfl, ?fcvti, ?fcvtf, ?fcvtw, ?fmac⟩
  case fcvti =>
    rintro s s1 s2 d a m f t sy x r hops hcl h1 rfl h2
    have hx : exec (.fcvti d a m f t sy) s = execFcvti d a m f t sy s := rfl
    exact floatUnary_completes hx (fcvtiOp_eq ..) hops hcl h1 rfl h2
  case fcvtf =>
    rintro s s1 s2 d a m f t sy x r hops hcl h1 rfl h2
    have hx : exec (.fcvtf d a m f t sy) s = execFcvtf d a m f t sy s := rfl
    exact floatUnary_completes hx (fcvtfOp_eq ..) hops hcl h1 rfl h2
  case fcvtw =>
    rintro s s1 s2 d a m f t sy x r hops hcl h1 rfl h2
    have hx : exec (.fcvtw d a m f t sy) s = execFcvtw d a m f t sy s := rfl
    exact floatUnary_completes hx (fcvtwOp_eq ..) hops hcl h1 rfl h2
  case fmac =>
    rintro s s1 s2 d a b t sy x y minus r hops hcl h1 h2 hr
    refine ⟨?_, (readSync_only h1).trans (readX_only h2)⟩
    cases minus
    · have hx : exec (.fmac d a b t sy) s = execFmac d a b t sy s := rfl
      exact fps3_completes hx hops hcl h1 h2 hr
    · have hx : exec (.fnmac d a b t sy) s = execFnmac d a b t sy s := rfl
      exact fps3_completes hx hops hcl h1 h2 hr

end

section
/-! Vector forms: the elements that they write, and how they end (R156-R160, R375). -/

namespace Sys2Proof.Machine

variable {s s1 s2 s3 s4 s5 e : State} {d a b : BitVec 6} {x : BitVec 1} {va old : Vec} {vb : Nat → Nat} {i : Instr} {f : Form}
  {body : M Flow} {w pipe : Nat}

/-- The end of a vector form: its flags, its destination of which n bytes may have changed, and its record. -/
def vectorEnd (d : BitVec 6) (pipe : Nat) (r : Vec) (fl n : Nat) : M Flow := do
  raiseFlags fl
  writeV d r n
  vecEnd (some pipe)
  return .seq

/-- A vector form that comes to its end completes when that goes through. -/
theorem vectorEnd_completes {r : Vec} {fl n : Nat} (hx : exec i s = insn f body s) (hc : f.check s = none)
    (hb : body s = vectorEnd d pipe r fl n s3) (h4 : answers (raiseFlags fl) s3 () s4) (h5 : answers (writeV d r n) s4 () s5)
    (he : answers (vecEnd (some pipe)) s5 () e) : completesWith i s e ((e.strand s.cur).pc + 4) := by
  have hrun : body s = .ok .seq e := by
    rw [hb, vectorEnd, run_bind_ok h4, run_bind_ok h5, run_bind_ok he, run_pure]
  exact insn_completes hx hc hrun (.inl ⟨rfl, rfl⟩)

/-- A vector form that ends with the elements of a list written, each with its flags. -/
theorem elementsEnd_completes {is : List Nat} {g : Nat → Nat × Nat} (hx : exec i s = insn f body s) (hc : f.check s = none)
    (hb : body s = vectorEnd d pipe (setElems old w is g).1 (setElems old w is g).2 (topOf is * w / 8) s3) :
    ∃ r, (∀ k, k < 2048 / w → elem r w k = if k ∈ is then (g k).1 % 2 ^ w else elem old w k) ∧
      ∀ s4 s5 e, answers (raiseFlags (is.foldl (fun m k => m ||| (g k).2) 0)) s3 () s4 →
        answers (writeV d r (topOf is * w / 8)) s4 () s5 → answers (vecEnd (some pipe)) s5 () e →
        completesWith i s e ((e.strand s.cur).pc + 4) := by
  rw [setElems_flags] at hb
  exact ⟨_, fun k hk => setElems_elem old w is g k (elem_inside hk), fun s4 s5 e => vectorEnd_completes hx hc hb⟩

theorem Strand.selects_iff_mem_lanes (t : Strand) (w k : Nat) :
    t.selects w k = true ↔ k ∈ t.lanes t.vstartN (t.strip w) := by
  rw [Strand.mem_lanes, Strand.selects]
  simp only [Bool.and_eq_true, decide_eq_true_eq]
  tauto

/-- A vector form that ends with its selected elements written. -/
theorem lanesEnd_writes {g : Nat → Nat × Nat} (hx : exec i s = insn f body s) (hc : f.check s = none)
    (hb : body s = vectorEnd d pipe (setElems old w (s.me.lanes s.me.vstartN (s.me.strip w)) g).1
      (setElems old w (s.me.lanes s.me.vstartN (s.me.strip w)) g).2 (laneBytes s.me w) s3) :
    writesLanes i s s3 d w pipe old (fun k => (g k).1) (fun k => (g k).2) := by
  obtain ⟨r, hr, hdone⟩ := elementsEnd_completes hx hc hb
  refine ⟨r, fun k hk => ?_, hdone⟩
  simp only [hr k hk, Strand.selects_iff_mem_lanes]

/-- An effect that is `lanes2` writes its function of the selected elements. -/
theorem lanes2_writes {g : Nat → Nat → Nat → Nat × Nat} (hx : exec i s = insn f body s) (hc : f.check s = none)
    (hb : body s = lanes2 d a b x w pipe g s) (h1 : answers (readV a) s va s1) (h2 : answers (readB b x w) s1 vb s2)
    (h3 : answers (oldV d) s2 old s3) : writesLanes i s s3 d w pipe old
      (fun k => (g (elem va w k) (vb k) (elem old w k)).1) (fun k => (g (elem va w k) (vb k) (elem old w k)).2) := by
  refine lanesEnd_writes (g := fun k => g (elem va w k) (vb k) (elem old w k)) hx hc ?_
  rw [hb, lanes2, run_bind_ok (run_me s), run_bind_ok h1, run_bind_ok h2, run_bind_ok h3]
  rfl

/-- An effect that is `lanes1` does so with one source. -/
theorem lanes1_writes {g : Nat → Nat × Nat} (hx : exec i s = insn f body s) (hc : f.check s = none)
    (hb : body s = lanes1 d a w pipe g s) (h1 : answers (readV a) s va s1) (h3 : answers (oldV d) s1 old s3) :
    writesLanes i s s3 d w pipe old (fun k => (g (elem va w k)).1) (fun k => (g (elem va w k)).2) := by
  refine lanesEnd_writes (g := fun k => g (elem va w k)) hx hc ?_
  rw [hb, lanes1, run_bind_ok (run_me s), run_bind_ok h1, run_bind_ok h3]
  rfl

/-- An instruction that is `lanes2` at an element function of its strand computes that function. -/
theorem lanes2_computes {i : BitVec 6 → BitVec 6 → BitVec 6 → BitVec 2 → BitVec 1 → Instr} {classes width : BitVec 2 → Nat}
    {dst : BitVec 6 → Opnd} {g : Strand → BitVec 2 → Nat → Nat → Nat → Nat × Nat}
    (word : BitVec 6 → BitVec 6 → BitVec 6 → BitVec 2 → BitVec 1 → InstrWord)
    (body : BitVec 6 → BitVec 6 → BitVec 6 → BitVec 2 → BitVec 1 → M Flow)
    (hx : ∀ d a b t x s, exec (i d a b t x) s =
      insn (classedForm (word d a b t x) [dst d, .data a 2 false, xOpnd b x] (classes t) [xField b x]) (body d a b t x) s)
    (hb : ∀ d a b t x s, body d a b t x s = lanes2 d a b x (width t) pipe (g s.me t) s) :
    computesLanes2 i classes width pipe dst g := by
  intro s s1 s2 s3 d a b t x va old vb hops hcl h1 h2 h3
  exact lanes2_writes (hx d a b t x s) (check_classedForm hops hcl) (hb d a b t x s) h1 h2 h3

/-- An instruction that is `lanes1` at an element function of its strand computes that function. -/
theorem lanes1_computes {i : BitVec 6 → BitVec 6 → BitVec 2 → Instr} {classes width : BitVec 2 → Nat}
    {g : Strand → BitVec 2 → Nat → Nat × Nat} (word : BitVec 6 → BitVec 6 → BitVec 2 → InstrWord)
    (body : BitVec 6 → BitVec 6 → BitVec 2 → M Flow)
    (hx : ∀ d a t s, exec (i d a t) s =
      insn (classedForm (word d a t) [.data d 2 true, .data a 2 false] (classes t) []) (body d a t) s)
    (hb : ∀ d a t s, body d a t s = lanes1 d a (width t) pipe (g s.me t) s) : computesLanes1 i classes width pipe g := by
  intro s s1 s3 d a t va old hops hcl h1 h3
  exact lanes1_writes (hx d a t s) (check_classedForm hops hcl) (hb d a t s) h1 h3

/-- An instruction that is `vfp2` computes its function in the rounding mode of RM (R165). -/
theorem vfp2_computes {i : BitVec 6 → BitVec 6 → BitVec 6 → BitVec 2 → BitVec 1 → Instr} {classes : BitVec 2 → Nat}
    {dst : BitVec 6 → Opnd} (code : BitVec 5) (g : Fp.Fmt → Nat → Nat → Nat → Nat → Nat × Nat)
    (hx : ∀ d a b t x s, exec (i d a b t x) s = insn (classedForm (fr 21 d a b code t x)
      [dst d, .data a 2 false, xOpnd b x] (classes t) [xField b x]) (vfp2 d a b x t g) s) :
    computesLanes2 i classes vfpWidth 1 dst fun s t => g (vfpFmt t) s.rm :=
  lanes2_computes _ _ hx fun d a b t x s => by rw [vfp2, run_bind_ok (run_me s)]

/-- An instruction that is `vfp1` computes its function in the rounding mode of RM (R165). -/
theorem vfp1_computes {i : BitVec 6 → BitVec 6 → BitVec 2 → Instr} {classes : BitVec 2 → Nat} (code : BitVec 5)
    (g : Fp.Fmt → Nat → Nat → Nat × Nat)
    (hx : ∀ d a t s, exec (i d a t) s = insn (classedForm (fr 21 d a 0 code t 0) [.data d 2 true, .data a 2 false] (classes t) [])
      (vfp1 d a t g) s) : computesLanes1 i classes vfpWidth 1 fun s t => g (vfpFmt t) s.rm :=
  lanes1_computes _ _ hx fun d a t s => by rw [vfp1, run_bind_ok (run_me s)]

/-- An instruction that is `vfp1` at FP32 alone (R166). -/
theorem vfp1_computes_fp32 {i : BitVec 6 → BitVec 6 → Instr} (code : BitVec 5) (g : Nat → Nat → Nat × Nat)
    (hx : ∀ d a s, exec (i d a) s = insn (classedForm (fr 21 d a 0 code 0 0) [.data d 2 true, .data a 2 false] 3 [])
      (vfp1 d a 0 fun _ rm p => g rm p) s) :
    computesLanes1 (fun d a _ => i d a) (fun _ => 3) (fun _ => 32) 1 fun s _ => g s.rm :=
  lanes1_computes _ _ (fun d a _ => hx d a) fun d a _ s => by
    rw [vfp1, run_bind_ok (run_me s)]
    rfl

end Sys2Proof.Machine

open Sys2Proof Sys2Proof.Machine

/-- Settles O18: each form is `lanes1` or `lanes2` at its function, whose selected elements are those of its list of lanes. -/
theorem vectorFloat : Obligations.VectorFloat := by
  unfold Obligations.VectorFloat
  refine ⟨vfp2_computes 0 (fun f rm p q _ => Fp.add f rm p q) fun _ _ _ _ _ _ => rfl,
    vfp2_computes 1 (fun f rm p q _ => Fp.sub f rm p q) fun _ _ _ _ _ _ => rfl,
    vfp2_computes 2 (fun f rm p q _ => Fp.mul f rm p q) fun _ _ _ _ _ _ => rfl,
    vfp2_computes 3 (fun f rm p q r => Fp.fma f rm false r p q) fun _ _ _ _ _ _ => rfl,
    vfp2_computes 4 (fun f rm p q r => Fp.fma f rm true r p q) fun _ _ _ _ _ _ => rfl,
    vfp2_computes 5 (fun f rm p q _ => Fp.div f rm p q) fun _ _ _ _ _ _ => rfl,
    vfp2_computes 9 (fun f _ p q _ => Fp.minmax f false p q) fun _ _ _ _ _ _ => rfl,
    vfp2_computes 10 (fun f _ p q _ => Fp.minmax f true p q) fun _ _ _ _ _ _ => rfl,
    vfp1_computes 6 Fp.sqrt fun _ _ _ _ => rfl, vfp1_computes_fp32 7 Fp.exp2 fun _ _ _ => rfl,
    vfp1_computes_fp32 8 Fp.log2 fun _ _ _ => rfl,
    vfp1_computes 11 (fun f _ p => (Fp.withSign f p false, 0)) fun _ _ _ _ => rfl,
    vfp1_computes 12 (fun f _ p => (Fp.withSign f p (!Fp.signOf f p), 0)) fun _ _ _ _ => rfl, ?vfscale⟩
  case vfscale =>
    intro s s1 s2 s3 d a b t x va old vb hops hcl h1 h2 h3
    have hx : exec (.vfscale d a b t x) s = insn (classedForm (fr 21 d a b 18 t x) [.data d 2 true, .data a 2 false, xOpnd b x]
      (vecClasses t) [xField b x]) (vfscaleOp d a b x t) s := rfl
    exact lanes2_writes hx (check_classedForm hops hcl) (run_bind_ok (run_me s)) h1 h2 h3

end

section
/-! VFCVT and the floating-point reductions (R82, R160, R167, R168). -/

namespace Sys2Proof.Machine

variable {s s1 s2 s3 : State} {d a b : BitVec 6} {va vb old : Vec} {i : Instr} {f : Form} {body : M Flow} {w pipe : Nat}

/-- A fold over the elements that are there is the fold over their list. -/
theorem foldActive_eq_foldFlags (g : Nat → Nat → Nat × Nat) (p : Nat → Bool) (el : Nat → Nat) (n b0 : Nat) :
    foldActive g (fun i => if decide (i < n) && p i then some (el i) else none) n b0 =
      foldFlags g (((List.range n).filter p).map el) b0 := by
  rw [foldActive, foldFlags, List.foldl_map, List.foldl_filter]
  refine List.foldl_ext _ _ _ fun r k hk => ?_
  cases p k <;> simp [List.mem_range.mp hk]

/-- An effect that is a reduction of an empty strip writes nothing. -/
theorem reduce_empty {g : (Nat → Option Nat) → Nat → Nat → Nat × Nat} (h1 : answers (readV a) s va s1)
    (h2 : answers (readV b) s1 vb s2) (h3 : answers (oldV d) s2 old s3) (hn : s.me.strip w = 0) :
    reduce d a b w pipe g s = (do writeV d old 0; vecEnd (some pipe); return Flow.seq) s3 := by
  rw [reduce, run_bind_ok (run_me s), run_bind_ok h1, run_bind_ok h2, run_bind_ok h3]
  simp only [hn, if_true]

/-- The active elements of the strip, as a reduction takes them. -/
def activeElems (t : Strand) (w : Nat) (va : Vec) (k : Nat) : Option Nat :=
  if decide (k < t.strip w) && t.active k then some (elem va w k) else none

theorem activeElems_eq (t : Strand) (w : Nat) (va : Vec) :
    activeElems t w va = fun k => if k < t.strip w ∧ t.active k = true then some (elem va w k) else none := by
  funext k
  simp [activeElems]

/-- A reduction of any other strip writes element 0 alone. -/
theorem reduce_runs {g : (Nat → Option Nat) → Nat → Nat → Nat × Nat} (h1 : answers (readV a) s va s1)
    (h2 : answers (readV b) s1 vb s2) (h3 : answers (oldV d) s2 old s3) (hn : s.me.strip w ≠ 0) {p : Nat × Nat}
    (hp : g (activeElems s.me w va) (s.me.strip w) (elem vb w 0) = p) :
    reduce d a b w pipe g s = vectorEnd d pipe (setElem old w 0 p.1) p.2 (w / 8) s3 := by
  subst hp
  rw [reduce, run_bind_ok (run_me s), run_bind_ok h1, run_bind_ok h2, run_bind_ok h3]
  simp only [hn, if_false]
  rfl

/-- Writing element 0 of a register leaves the others. -/
theorem elem_setElem_zero (hw : 0 < 2048 / w) (old : Vec) (v : Nat) : elem (setElem old w 0 v) w 0 = v % 2 ^ w ∧
    ∀ k, 0 < k → k < 2048 / w → elem (setElem old w 0 v) w k = elem old w k := by
  refine ⟨?_, fun k h0 hk => ?_⟩
  · rw [elem_setElem _ _ _ _ _ (elem_inside hw), if_pos rfl]
  · rw [elem_setElem _ _ _ _ _ (elem_inside hk), if_neg (by omega)]

theorem vfpWidth_inside (t : BitVec 2) : 0 < 2048 / vfpWidth t := by
  unfold vfpWidth
  split
  · decide
  · split <;> decide

/-- What a reduction that is not of an empty strip writes, and that it completes. -/
theorem reduce_completes {g : (Nat → Option Nat) → Nat → Nat → Nat × Nat} (hw : 0 < 2048 / w)
    (hx : exec i s = insn f (reduce d a b w pipe g) s) (hc : f.check s = none) (h1 : answers (readV a) s va s1)
    (h2 : answers (readV b) s1 vb s2) (h3 : answers (oldV d) s2 old s3) (hn : s.me.strip w ≠ 0) {p : Nat × Nat}
    (hp : g (activeElems s.me w va) (s.me.strip w) (elem vb w 0) = p) :
    ∃ r, elem r w 0 = p.1 % 2 ^ w ∧ (∀ k, 0 < k → k < 2048 / w → elem r w k = elem old w k) ∧
      ∀ s4 s5 e, answers (raiseFlags p.2) s3 () s4 → answers (writeV d r (w / 8)) s4 () s5 →
        answers (vecEnd (some pipe)) s5 () e → completesWith i s e ((e.strand s.cur).pc + 4) := by
  obtain ⟨hzero, hrest⟩ := elem_setElem_zero hw old p.1
  exact ⟨_, hzero, hrest, fun s4 s5 e => vectorEnd_completes hx hc (reduce_runs h1 h2 h3 hn hp)⟩

/-- An instruction that is a fold of the active elements computes the fold of their list (R160, R167). -/
theorem foldActive_computes {i : BitVec 6 → BitVec 6 → BitVec 6 → BitVec 2 → Instr} (code : BitVec 5)
    (g : Fp.Fmt → Nat → Nat → Nat × Nat) (hx : ∀ d a b t s, exec (i d a b t) s = insn (classedForm (fr 21 d a b code t 0)
      [.data d 2 true, .data a 2 false, .data b 2 false] (vecClasses t) [])
      (reduce d a b (vfpWidth t) 1 (foldActive (g (vfpFmt t)))) s) :
    computesReduction i vfpWidth 1 fun t xs b => foldFlags (g (vfpFmt t)) xs b := by
  intro s s1 s2 s3 d a b t va vb old hops hcl h1 h2 h3
  have hc := check_classedForm (w := fr 21 d a b code t 0) (xs := []) hops hcl
  refine ⟨fun hn s4 e h4 he => ?_, fun hn p hp => ?_⟩
  · refine insn_completes (hx d a b t s) hc ?_ (.inl ⟨rfl, rfl⟩)
    rw [reduce_empty h1 h2 h3 hn, run_bind_ok h4, run_bind_ok he, run_pure]
  · refine reduce_completes (vfpWidth_inside t) (hx d a b t s) hc h1 h2 h3 hn ?_
    exact (foldActive_eq_foldFlags _ s.me.active (elem va (vfpWidth t)) _ _).trans hp

section
variable {dst src : BitVec 3} {is : List Nat} (h1 : answers (readV a) s va s1) (h3 : answers (oldV d) s1 old s3)
include h1 h3

/-- VFCVT of two different codes converts each element of its list in RM. -/
theorem vfcvtOp_runs (hne : dst ≠ src) (his : is = s.me.lanes s.me.vstartN (s.me.strip (max (cvtWidth dst) (cvtWidth src)))) :
    vfcvtOp d a dst src s = vectorEnd d 1
      (setElems old (cvtWidth dst) is fun k => cvtElem dst src s.me.rm (elem va (cvtWidth src) k)).1
      (setElems old (cvtWidth dst) is fun k => cvtElem dst src s.me.rm (elem va (cvtWidth src) k)).2
      (topOf is * cvtWidth dst / 8) s3 := by
  subst his
  rw [vfcvtOp, run_bind_ok (run_me s), run_bind_ok h1, run_bind_ok h3]
  simp only [hne, if_false]
  rfl

/-- VFCVT of one code converts each element stochastically, and leaves the generator's state unless there was none. -/
theorem vfcvtOp_stochastic {g : Fp.Fmt} {r : Vec × Nat × Nat}
    (his : is = s.me.lanes s.me.vstartN (s.me.strip (max (cvtWidth dst) 32))) (hg : cvtFmt dst = some g)
    (hr : stochastic g va (cvtWidth dst) is old s.me.srseed.toNat = r) :
    vfcvtOp d a dst dst s = (do
      raiseFlags r.2.2
      if !is.isEmpty then updMe fun t => { t with srseed := BitVec.ofNat 64 r.2.1 }
      writeV d r.1 (topOf is * cvtWidth dst / 8)
      vecEnd (some 1)
      return Flow.seq) s3 := by
  subst his hr
  rw [vfcvtOp, run_bind_ok (run_me s), run_bind_ok h1, run_bind_ok h3]
  simp only [if_true, hg]

end

end Sys2Proof.Machine

open Sys2Proof Sys2Proof.Machine

/-- Settles O19: a conversion writes the elements of its list, and a reduction of the elements that are there is the fold of
their list, or their tree. -/
theorem vectorConvertReduce : Obligations.VectorConvertReduce := by
  unfold Obligations.VectorConvertReduce
  refine ⟨fun s s1 s3 d a dst src va old w is hops hcl h1 h3 hw his => ⟨fun hne => ?different, ?same⟩,
    foldActive_computes 14 redAdd fun _ _ _ _ _ => rfl,
    foldActive_computes 16 (fun f => Fp.minmax f true) fun _ _ _ _ _ => rfl,
    foldActive_computes 17 (fun f => Fp.minmax f false) fun _ _ _ _ _ => rfl, ?tree⟩
  case different =>
    have hx : exec (.vfcvt d a dst src) s = execVfcvt d a dst src s := rfl
    rw [hw, if_neg hne] at his
    exact elementsEnd_completes hx ((Form.check_none _ s).mpr ⟨rfl, nofun, hops, nofun, hcl⟩) (vfcvtOp_runs h1 h3 hne his)
  case same =>
    rintro g r rfl hg hr s4 s5 e h4 h5 he
    have hx : exec (.vfcvt d a dst dst) s = execVfcvt d a dst dst s := rfl
    rw [hw, if_pos rfl] at his
    refine insn_completes hx ((Form.check_none _ s).mpr ⟨rfl, nofun, hops, nofun, hcl⟩) ?_ (.inl ⟨rfl, rfl⟩)
    rw [vfcvtOp_stochastic h1 h3 his hg hr, run_bind_ok h4]
    cases hempty : is.isEmpty
    · rw [hempty] at h5
      exact (run_bind_ok (run_updMe _ s4)).trans ((run_bind_ok h5).trans (run_bind_ok he))
    · rw [hempty] at h5
      exact (run_bind_ok h5).trans (run_bind_ok he)
  case tree =>
    intro s s1 s2 s3 d a b t va vb old p hops hcl h1 h2 h3 hn hp
    have hx : exec (.vfredt d a b t) s = execVfredt d a b t s := rfl
    rw [← activeElems_eq] at hp
    exact reduce_completes (vfpWidth_inside t) hx ((Form.check_none _ s).mpr ⟨rfl, nofun, hops, nofun, hcl⟩) h1 h2 h3 hn hp

end

section
/-! What a trace record changes of a strand: its windows and its trace at most (R407, R410). -/

namespace Sys2Proof.Machine

variable {s s' : State}

namespace KeepsStrands

theorem quartersPut {q : Quarters} {d : Nat} {bs : List Byte} (h : q.put s d bs = some s') : KeepsStrands s s' := by
  unfold Quarters.put at h
  split at h
  · cases h
  · split at h
    · cases h
    · split at h
      · cases h
        exact (homeStore ..).trans (homeStore ..)
      · cases h

theorem writeRec {q : Quarters} {d src delta : Nat} {r : Rec} (h : writeRec s q d src delta r = some s') :
    KeepsStrands s s' := by
  unfold Machine.writeRec at h
  split at h
  · cases h
  · next s1 hput =>
    cases h
    exact (quartersPut hput).trans (of_eq rfl rfl)

theorem writeSyncs {q : Quarters} {d : Nat} {srcs : List Nat} (h : Machine.writeSyncs s q d srcs = some s') :
    KeepsStrands s s' := by
  induction srcs generalizing s with
  | nil =>
    cases h
    exact refl _
  | cons x srcs ih =>
    unfold Machine.writeSyncs at h
    split at h
    · cases h
    · next s1 hsync => exact (writeRec hsync).trans (ih h)

/-- The SYNC record that a source may need first. -/
theorem syncWhen {sync : Bool} {q : Quarters} {d src : Nat}
    (h : (if sync then writeSync s q d src else some s) = some s') : KeepsStrands s s' := by
  split at h
  · exact writeRec h
  · cases h
    exact refl s

theorem traceRec (s : State) (ctx d src : Nat) (r : Rec) : KeepsStrands s (traceRec s ctx d src r) := by
  unfold Machine.traceRec
  extract_lets t gap lost sync srcs
  split
  · exact refl s
  · next q hq =>
    extract_lets done
    have hdone : ∀ s', done = some s' → KeepsStrands s s' := by
      intro s' h
      unfold done at h
      split at h
      · obtain ⟨-, h⟩ := Option.ite_none_right_eq_some.mp h
        split at h
        · cases h
        · next s1 hsync => exact (syncWhen hsync).trans (writeRec h)
      · obtain ⟨-, h⟩ := Option.ite_none_right_eq_some.mp h
        split at h
        · cases h
        · next s1 hgap =>
          obtain ⟨s0, hsync, hgap⟩ := Option.bind_eq_some_iff.mp hgap
          extract_lets s2 at h
          split at h
          · cases h
          · next s3 hsyncs =>
            have hgone : KeepsStrands s1 s2 := of_eq rfl rfl
            exact (syncWhen hsync).trans ((writeRec hgap).trans (hgone.trans ((writeSyncs hsyncs).trans (writeRec h))))
    clear_value done
    split
    · exact hdone _ rfl
    · exact of_eq rfl rfl

theorem strandRec (s : State) (u bit : Nat) (r : Rec) : KeepsStrands s (strandRec s u bit r) := by
  unfold Machine.strandRec
  exact ite (fun _ => traceRec ..) fun _ => refl s

end KeepsStrands

/-- A strand apart from its windows and its trace. -/
def Strand.sansRecords (t : Strand) : Strand := { t.sansWindows with trace := Strand.blank.trace }

/-- The executing strand is the same, and every strand is as before, its windows and its trace apart. -/
structure KeepsButRecords (s s' : State) : Prop where
  cur : s'.cur = s.cur
  strands : ∀ u, (s'.strand u).sansRecords = (s.strand u).sansRecords

namespace KeepsButRecords

variable {s1 : State}

theorem refl (s : State) : KeepsButRecords s s := ⟨rfl, fun _ => rfl⟩

theorem trans (h : KeepsButRecords s s1) (g : KeepsButRecords s1 s') : KeepsButRecords s s' :=
  ⟨g.cur.trans h.cur, fun u => (g.strands u).trans (h.strands u)⟩

theorem of_keeps (h : KeepsStrands s s') : KeepsButRecords s s' :=
  ⟨h.cur, fun u => congrArg (fun t : Strand => { t with trace := Strand.blank.trace }) (h.strands u)⟩

/-- An update of a strand that changes its trace alone. -/
theorem updStrand (s : State) (u : Nat) {f : Strand → Strand} (hf : ∀ t, (f t).sansRecords = t.sansRecords) :
    KeepsButRecords s (s.updStrand u f) := ⟨rfl, State.updStrand_keeps Strand.sansRecords s u f hf⟩

/-- A field of a strand that is neither its windows nor its trace. -/
theorem field {β : Type} (h : KeepsButRecords s s') (g : Strand → β) (hg : ∀ t : Strand, g t.sansRecords = g t) (u : Nat) :
    g (s'.strand u) = g (s.strand u) := by
  rw [← hg, h.strands, hg]

theorem pipeBegin (s : State) (u pipe : Nat) : KeepsButRecords s (pipeBegin s u pipe) := by
  unfold Machine.pipeBegin
  split
  · exact refl s
  · exact (of_keeps (.strandRec ..)).trans (updStrand _ u fun _ => rfl)

theorem pipeEnd (s : State) (u pipe : Nat) (stop : Bool) : KeepsButRecords s (pipeEnd s u pipe stop) :=
  (of_keeps (.strandRec ..)).trans (updStrand _ u fun _ => rfl)

theorem pipeRecords (s : State) (u pipe : Nat) (stop : Bool) : KeepsButRecords s (pipeRecords s u pipe stop) :=
  (pipeBegin ..).trans (pipeEnd ..)

end KeepsButRecords

end Sys2Proof.Machine
end

section
/-! How a tile operation issues: past its instruction, and parked until its pipe is done (R201). -/

namespace Sys2Proof.Machine

variable {s s1 e : State} {i : Instr} {f : Form} {body : M Flow} {d a : BitVec 6}

/-- What the counts change when an instruction has set its strand's program counter itself (R360, R438). -/
theorem complete_stay_spec (f : Form) (s e : State) :
    (∀ u, ((complete f s .stay e).strand u).uncounted = (e.strand u).uncounted) ∧
    (∀ u, ((complete f s .stay e).strand u).pc = (e.strand u).pc) ∧
    (∀ u, ((complete f s .stay e).strand u).issued =
      (e.strand u).issued + (if u = s.cur ∧ s.me.firmware = false then 1 else 0)) ∧
    (complete f s .stay e).device = e.device ∧
    ((complete f s .stay e).agenda = e.agenda ∨
      (complete f s .stay e).agenda = e.agenda ++ [.proactiveReturn (e.owner s.cur)]) := by
  cases hfw : s.me.firmware
  · have hrun : complete f s .stay e = countIssued e s.cur f.classes := by simp [complete, hfw]
    simpa [hrun] using countIssued_spec e s.cur f.classes
  · simp [complete_stay hfw]

/-- A strand's program counter set is a change of that alone. -/
theorem completed_of_past {s e : State} {f : Form} (pc : Word) :
    Completed s e pc (complete f s .stay (e.updStrand s.cur fun t => t.setPc pc)) := by
  obtain ⟨huncounted, hpc, hissued, hdevice, hagenda⟩ := complete_stay_spec f s (e.updStrand s.cur fun t => t.setPc pc)
  have hkeep {β : Type} (g : Strand → β) (hg : ∀ t : Strand, g (t.setPc pc) = g t) (u : Nat) :
      g ((e.updStrand s.cur fun t => t.setPc pc).strand u) = g (e.strand u) := State.updStrand_keeps g e s.cur _ hg u
  have howner : (e.updStrand s.cur fun t => t.setPc pc).owner s.cur = e.owner s.cur :=
    owner_congr (hkeep Strand.coupled (fun _ => rfl) _) (hkeep Strand.strandId (fun _ => rfl) _)
      (hkeep Strand.partner (fun _ => rfl) _)
  refine ⟨?_, fun u hu => ?_, fun u => ?_, fun u => ?_, hdevice, howner ▸ hagenda⟩
  · rw [hpc, State.updStrand_strand, if_pos rfl, Strand.setPc_pc]
  · rw [hpc, State.updStrand_strand, if_neg hu]
  · rw [huncounted]
    exact hkeep Strand.uncounted (fun t => t.setPc_uncounted pc) u
  · rw [hissued]
    exact congrArg (· + _) (hkeep Strand.issued (fun t => t.setPc_issued pc) u)

/-- An instruction that has gone past itself completes from the state before it did. -/
theorem stay_completes (hx : exec i s = insn f body s) (hc : f.check s = none)
    (hb : body s = .ok .stay (e.updMe fun t => { t with pc := t.pc + 4 })) (hcur : e.cur = s.cur) :
    completesWith i s e ((e.strand s.cur).pc + 4) := by
  have hpast : (e.updMe fun t => { t with pc := t.pc + 4 }) =
      e.updStrand s.cur fun t => t.setPc ((e.strand s.cur).pc + 4) := by
    rw [← hcur]
    rfl
  rw [hpast] at hb
  exact ⟨_, hx.trans (insn_ok hc hb), completed_of_past _⟩

/-- A tile operation that has had its effect. -/
def tileParked (s : State) (pipe : Nat) : State := park (pipeRecords s s.cur pipe false) s.cur .tile

theorem tileParked_cur (s : State) (pipe : Nat) : (tileParked s pipe).cur = s.cur :=
  (KeepsButRecords.pipeRecords s s.cur pipe false).cur

theorem tileIssued_runs (pipe : Nat) (s : State) :
    tileIssued pipe s = .ok .stay ((tileParked s pipe).updMe fun t => { t with pc := t.pc + 4 }) := rfl

/-- An instruction that ends by issuing its tile operation parks past itself. -/
theorem tileIssued_parks {pipe : Nat} (hx : exec i s = insn f body s) (hc : f.check s = none)
    (hb : body s = tileIssued pipe s1) (hcur : s1.cur = s.cur) : tileParks i s s1 pipe := by
  rintro e rfl
  exact stay_completes hx hc hb ((tileParked_cur s1 pipe).trans hcur)

/-! What vector operands leave: the executing strand is the same. -/

theorem vecReady_keeps {r : Nat} (h : vecReady r s = .ok () e) : e = s := by
  unfold vecReady at h
  rw [run_bind_ok (run_me s), run_ite] at h
  split at h <;> cases h
  rfl

theorem readV_cur {v : Vec} (h : readV a s = .ok v e) : e.cur = s.cur := by
  unfold readV at h
  split at h
  · obtain ⟨_, s1, hready, hread⟩ := of_bind_ok h
    obtain rfl := vecReady_keeps hready
    cases hread
    rfl
  · exact (popQueue_only (d := 0) h).cur

theorem writeV_cur {v : Vec} {n : Nat} (h : writeV d v n s = .ok () e) : e.cur = s.cur := by
  unfold writeV at h
  split at h
  · obtain ⟨_, s1, hready, hwrite⟩ := of_bind_ok h
    obtain rfl := vecReady_keeps hready
    rw [run_ite] at hwrite
    split at hwrite <;> cases hwrite <;> rfl
  · exact (pushQueue_only (d := 0) h).cur

theorem raiseTile_cur {fl : Nat} (h : raiseTile fl s = .ok () e) : e.cur = s.cur := by
  cases h
  rfl

theorem enabledAcc_runs {n : Nat} (h : (s.me.acc n).enabled = true) : enabledAcc n s = .ok (s.me.acc n) s := by
  rw [enabledAcc, run_bind_ok (run_me s), if_pos h]
  rfl

end Sys2Proof.Machine
end

section
/-! Slices: the vector of a list of cells, and an accumulator with one written (R198, R199). -/

namespace Sys2Proof.Machine

/-- A fold over numbered values is a fold over their numbers. -/
theorem foldl_zipIdx_range {α β : Type} (f : Nat → α) (g : β → α × Nat → β) (n : Nat) (b : β) :
    ((List.range n).map f).zipIdx.foldl g b = (List.range n).foldl (fun b i => g b (f i, i)) b := by
  have hzip : ((List.range n).map f).zipIdx = (List.range n).map fun i => (f i, i) := by
    apply List.ext_getElem <;> simp
  rw [hzip, List.foldl_map]

theorem elem_putElems (w : Nat) (f : Nat → Nat) (is : List Nat) (k : Nat) (hk : w * k + w ≤ 2048) :
    ∀ r, elem (putElems r w is f) w k = if k ∈ is then f k % 2 ^ w else elem r w k := by
  induction is with
  | nil => intro r; rfl
  | cons i is ih =>
    intro r
    have hstep : putElems r w (i :: is) f = putElems (setElem r w i (f i)) w is f := rfl
    rw [hstep, ih, elem_setElem _ _ _ _ _ hk]
    by_cases hm : k ∈ is
    · simp [hm]
    · by_cases hi : k = i <;> simp [hm, hi]

theorem elem_zero (w k : Nat) : elem 0 w k = 0 := by
  have hzero : (0 : Vec).toNat = 0 := BitVec.toNat_zero
  rw [elem, hzero, Nat.zero_div, Nat.zero_mod]

/-- The vector of a slice of n cells holds them, and zeros above them. -/
theorem elem_readSlice (a : Acc) (n : Nat) (rc : Nat → Nat × Nat) (k : Nat) (hk : k < 2048 / a.cellWidth) :
    elem (readSlice a ((List.range n).map rc)) a.cellWidth k =
      if k < n then a.cell (rc k).1 (rc k).2 % 2 ^ a.cellWidth else 0 := by
  have hput : readSlice a ((List.range n).map rc) =
      putElems 0 a.cellWidth (List.range n) fun i => a.cell (rc i).1 (rc i).2 := foldl_zipIdx_range ..
  rw [hput, elem_putElems _ _ _ _ (elem_inside hk)]
  simp only [List.mem_range, elem_zero]

/-- A table into which values have been written at numbered keys. -/
theorem Tab.get_foldl_set_keys {α : Type} [DecidableEq α] (d : α) (key idx : Nat → Nat) (val : Nat → α) (is : List Nat)
    (hidx : ∀ i ∈ is, idx (key i) = i) (m : Tab α) (q : Nat) :
    Tab.get d (is.foldl (fun m i => Tab.set d m (key i) (val i)) m) q =
      if q ∈ is.map key then val (idx q) else Tab.get d m q := by
  rw [← Tab.get_foldl_set d (fun q => val (idx q)), List.foldl_map]
  congr 1
  exact List.foldl_ext _ _ _ fun m i hi => by rw [hidx i hi]

theorem residueCell_lt (c1 c2 c3 : Int) : residueCell c1 c2 c3 < 2 ^ 40 := by
  unfold residueCell
  omega

theorem slicedCell_lt (a : Acc) (x : Nat) : slicedCell a x < 2 ^ 40 := by
  unfold slicedCell
  split
  · omega
  · exact residueCell_lt ..

/-- The cells of an accumulator with a slice written. -/
theorem get_writeSlice (a : Acc) (n : Nat) (rc : Nat → Nat × Nat) (v : Vec) (idx : Nat → Nat)
    (hidx : ∀ i ∈ List.range n, idx (32 * (rc i).1 + (rc i).2) = i) (q : Nat) :
    (Tab.get 0 (writeSlice a ((List.range n).map rc) v).cells q).toNat =
      if q ∈ (List.range n).map (fun i => 32 * (rc i).1 + (rc i).2) then slicedCell a (elem v a.cellWidth (idx q))
      else (Tab.get 0 a.cells q).toNat := by
  have hcells : (writeSlice a ((List.range n).map rc) v).cells = (List.range n).foldl (fun m i =>
      Tab.set 0 m (32 * (rc i).1 + (rc i).2) (BitVec.ofNat 40 (slicedCell a (elem v a.cellWidth i)))) a.cells :=
    foldl_zipIdx_range ..
  rw [hcells, Tab.get_foldl_set_keys _ _ idx _ _ hidx, apply_ite BitVec.toNat, BitVec.toNat_ofNat,
    Nat.mod_eq_of_lt (slicedCell_lt ..)]

/-- The cells that an accumulator is built of. -/
theorem Tab.get_filterMap_cells (v : Nat → BitVec 40) (ks : List Nat) (q : Nat) :
    Tab.get 0 (ks.filterMap fun k => if v k = 0 then none else some (k, v k)) q = if q ∈ ks then v q else 0 := by
  induction ks with
  | nil => rfl
  | cons k ks ih =>
    rw [List.filterMap_cons]
    by_cases hv : v k = 0
    · rw [if_pos hv]
      simp only [ih, List.mem_cons]
      by_cases hq : q = k <;> simp [hq, hv]
    · rw [if_neg hv]
      simp only [Tab.get, ih, List.mem_cons]
      by_cases hq : k = q
      · simp [hq]
      · simp [hq, Ne.symm hq]

theorem Acc.cell_setCells (a : Acc) (f : Nat → Nat → Nat) {i c : Nat} (hi : i < 64) (hc : c < 32) :
    (a.setCells f).cell i c = f i c % 2 ^ 40 := by
  have hget := Tab.get_filterMap_cells (fun k => BitVec.ofNat 40 (f (k / 32) (k % 32))) (List.range 2048) (32 * i + c)
  rw [if_pos (List.mem_range.mpr (by omega)), show (32 * i + c) / 32 = i by omega, show (32 * i + c) % 32 = c by omega]
    at hget
  unfold Acc.cell Acc.setCells
  rw [hget, BitVec.toNat_ofNat]

/-- An accumulator whose cells are given changes in nothing else. -/
theorem Acc.exists_setCells (a : Acc) (f : Nat → Nat → Nat) : ∃ m, a.setCells f = { a with cells := m } := ⟨_, rfl⟩

theorem Acc.cell_lt (a : Acc) (i c : Nat) : a.cell i c < 2 ^ 40 := BitVec.isLt _

end Sys2Proof.Machine
end

section
/-! TMOVR, TMOVC, TSETR, TSETC, TDRAIN and TFOLD (R197-R199). -/

namespace Sys2Proof.Machine

variable {s s1 s2 : State} {d a b : BitVec 6} {c e : BitVec 3} {i : Instr} {k k' : Acc}

theorem admitted_with_reg {o : Opnd} (h : admitted s [o]) (hb : b.toNat < 32) : admitted s [o, .reg b] := by
  have hreg : admitted s [.reg b] := admitted_reg hb
  intro p hp
  obtain rfl | hp := List.mem_cons.mp hp
  · exact h _ (List.mem_singleton_self _)
  · exact hreg p hp

/-- The rows that TDRAIN takes from h on, converted. -/
def drainedCell (k : Acc) (f : Fp.Fmt) (h j : Nat) : Nat × Nat := drainCell f (k.cell ((h + j / 32) % 64) (j % 32))

/-- The rows of a drain are as many elements as a vector has (R199). -/
theorem drainFmt_elements : ∀ t : BitVec 2, 2048 / (drainFmt t).1.width = 32 * (drainFmt t).2 := by decide

/-- The companion's cells after a fold, with their flags (R87, R197). -/
def foldedCell (core : Nat) (k k' : Acc) (i j : Nat) : Nat × Nat :=
  if k.active i j then foldCell (originNan core k'.kcount) (residueValue (k.cell i j))
    (bs16 (Tab.get 0x7F00 k.rowScale i)) (bs16 (Tab.get 0x7F00 k.colScale j)) (k'.cell i j) else (k'.cell i j, 0)

/-- The companion after a fold. -/
def Acc.foldedBy (k' : Acc) (core : Nat) (k : Acc) : Acc :=
  { k'.setCells (fun i j => (foldedCell core k k' i j).1) with kcount := (k'.kcount + k.kgrp) % 65536 }

theorem Acc.cell_foldedBy (k' : Acc) (core : Nat) (k : Acc) {i j : Nat} (hi : i < 64) (hj : j < 32) :
    (k'.foldedBy core k).cell i j = (foldedCell core k k' i j).1 % 2 ^ 40 := by
  rw [← k'.cell_setCells (fun i j => (foldedCell core k k' i j).1) hi hj, Acc.cell, Acc.cell, Acc.foldedBy]

theorem Acc.foldedBy_others (k' : Acc) (core : Nat) (k : Acc) : { k'.foldedBy core k with cells := [] } =
    { k' with cells := [], kcount := (k'.kcount + k.kgrp) % 65536 } := by
  unfold Acc.foldedBy
  obtain ⟨m, hm⟩ := k'.exists_setCells fun i j => (foldedCell core k k' i j).1
  rw [hm]

section
variable (hk : k = s.me.acc c.toNat) (hen : k.enabled = true)
include hk hen

theorem tmovOp_runs {sl : Acc → Word → List (Nat × Nat)}
    (h1 : answers (writeV d (readSlice k (sl k (s.me.reg b.toNat))) 256) s () s1) :
    tmovOp d c b sl s = tileIssued 7 s1 := by
  subst hk
  rw [tmovOp, run_bind_ok (enabledAcc_runs hen), run_bind_ok (run_readReg b s), run_bind_ok h1]

theorem tsetOp_runs {sl : Acc → Word → List (Nat × Nat)} {v : Vec} (h1 : answers (readV a) s v s1) :
    tsetOp c a b sl s =
      tileIssued 7 (s1.updMe fun t => t.setAcc c.toNat (writeSlice k (sl k (s.me.reg b.toNat)) v)) := by
  subst hk
  rw [tsetOp, run_bind_ok (enabledAcc_runs hen), run_bind_ok (run_readReg b s), run_bind_ok h1]
  rfl

theorem tdrainOp_runs {t : BitVec 2} {f : Fp.Fmt} {rows h : Nat} (hf : drainFmt t = (f, rows)) (hfmt : k.fmt = 0)
    (hh : h = (s.me.reg b.toNat).toNat % 64)
    (h1 : answers (writeV d (putElems 0 f.width (List.range (32 * rows)) fun j => (drainedCell k f h j).1) 256) s () s1)
    (h2 : answers (raiseTile ((List.range (32 * rows)).foldl (fun m j => m ||| (drainedCell k f h j).2) 0)) s1 () s2) :
    tdrainOp d c b t s = tileIssued 7 s2 := by
  subst hk hh
  refine (run_bind_ok (enabledAcc_runs hen)).trans
    ((run_passed (not_not_intro hfmt)).trans ((run_bind_ok (run_readReg b s)).trans ?_))
  simp only [hf, foldl_zipIdx_range, List.foldl_map]
  exact (run_bind_ok h1).trans (run_bind_ok h2)

theorem tfoldOp_runs (hfmt : k.fmt ≠ 0) (hk' : k' = s.me.acc e.toNat) (hen' : k'.enabled = true) (hfmt' : k'.fmt = 0)
    (hne : c ≠ e) (h1 : answers (raiseTile (cellFlags fun i j => (foldedCell s.me.core k k' i j).2))
      (s.updMe fun t => (t.setAcc e.toNat (k'.foldedBy s.me.core k)).setAcc c.toNat { k with cells := [], kgrp := 0 }) () s1) :
    tfoldOp c e s = tileIssued 7 s1 := by
  subst hk hk'
  have hcompanion : ¬((!(s.me.acc e.toNat).enabled) = true ∨ (s.me.acc e.toNat).fmt ≠ 0 ∨ c = e) := by
    simp [hen', hfmt', hne]
  exact (run_bind_ok (enabledAcc_runs hen)).trans ((run_passed hfmt).trans ((run_bind_ok (run_me s)).trans
    ((run_passed hcompanion).trans ((run_bind_ok (run_me s)).trans ((run_bind_ok (run_updMe _ s)).trans (run_bind_ok h1))))))

end

/-! The slices of an accumulator, as elements. -/

section
variable (k : Acc) (x : Word) (v : Vec)

theorem cellWidth_eq (k : Acc) : k.cellWidth = if k.fmt = 0 then 32 else 64 := rfl

theorem elem_rowSlice {j : Nat} (hj : j < 2048 / k.cellWidth) : elem (readSlice k (rowSlice x)) k.cellWidth j =
    if j < 32 then k.cell (x.toNat % 64) j % 2 ^ k.cellWidth else 0 :=
  elem_readSlice k 32 (fun c => (x.toNat % 64, c)) j hj

/-- The row of the cell at place j of a column slice. -/
def colRow (k : Acc) (x j : Nat) : Nat := if k.fmt = 0 then j else 32 * (x / 32 % 2) + j

/-- The place in a column slice of a cell of it. -/
def colPlace (k : Acc) (q : Nat) : Nat := if k.fmt = 0 then q / 32 else q / 32 % 32

theorem colSlice_eq : colSlice k x = (List.range (2048 / k.cellWidth)).map fun j => (colRow k x.toNat j, x.toNat % 32) := by
  unfold colSlice colRow
  by_cases h : k.fmt = 0 <;> simp [h, cellWidth_eq]

theorem elem_colSlice {j : Nat} (hj : j < 2048 / k.cellWidth) : elem (readSlice k (colSlice k x)) k.cellWidth j =
    k.cell (colRow k x.toNat j) (x.toNat % 32) % 2 ^ k.cellWidth := by
  rw [colSlice_eq, elem_readSlice _ _ _ _ hj, if_pos hj]

/-- TSETR writes the cells of its row, and no other. -/
theorem get_writeSlice_row {i j : Nat} (hj : j < 32) :
    (Tab.get 0 (writeSlice k (rowSlice x) v).cells (32 * i + j)).toNat =
      if i = x.toNat % 64 then slicedCell k (elem v k.cellWidth j) else k.cell i j := by
  have hidx : ∀ c ∈ List.range 32, (32 * (x.toNat % 64) + c) % 32 = c := by
    intro c hc
    have := List.mem_range.mp hc
    omega
  have hmem : 32 * i + j ∈ (List.range 32).map (fun c => 32 * (x.toNat % 64) + c) ↔ i = x.toNat % 64 := by
    simp only [List.mem_map, List.mem_range]
    exact ⟨by rintro ⟨c, hc, h⟩; omega, fun h => ⟨j, hj, by omega⟩⟩
  have hget := get_writeSlice k 32 (fun c => (x.toNat % 64, c)) v (· % 32) hidx (32 * i + j)
  simp only [hmem, show (32 * i + j) % 32 = j by omega] at hget
  exact hget

/-- TSETC writes the cells of its column, and no other. -/
theorem get_writeSlice_col {i j : Nat} (hi : i < 64) (hj : j < 32) :
    (Tab.get 0 (writeSlice k (colSlice k x) v).cells (32 * i + j)).toNat =
      if j = x.toNat % 32 ∧ (k.fmt = 0 ∨ i / 32 = x.toNat / 32 % 2) then
        slicedCell k (elem v k.cellWidth (if k.fmt = 0 then i else i % 32)) else k.cell i j := by
  have hplaces : 2048 / k.cellWidth = if k.fmt = 0 then 64 else 32 := by
    rw [cellWidth_eq]
    split <;> rfl
  have hplace : ∀ r ∈ List.range (2048 / k.cellWidth), colPlace k (32 * colRow k x.toNat r + x.toNat % 32) = r := by
    intro r hr
    rw [List.mem_range, hplaces] at hr
    unfold colPlace colRow
    by_cases hfmt : k.fmt = 0
    · simp only [hfmt, if_true] at hr ⊢
      omega
    · simp only [hfmt, if_false] at hr ⊢
      omega
  have hmem : 32 * i + j ∈ (List.range (2048 / k.cellWidth)).map (fun r => 32 * colRow k x.toNat r + x.toNat % 32) ↔
      j = x.toNat % 32 ∧ (k.fmt = 0 ∨ i / 32 = x.toNat / 32 % 2) := by
    simp only [List.mem_map, List.mem_range, hplaces, colRow]
    by_cases hfmt : k.fmt = 0
    · simp only [hfmt, if_true, true_or, and_true]
      exact ⟨by rintro ⟨r, hr, h⟩; omega, fun h => ⟨i, hi, by omega⟩⟩
    · simp only [hfmt, if_false, false_or]
      exact ⟨by rintro ⟨r, hr, h⟩; omega, fun h => ⟨i % 32, by omega, by omega⟩⟩
  have hget := get_writeSlice k _ (fun r => (colRow k x.toNat r, x.toNat % 32)) v (colPlace k) hplace (32 * i + j)
  rw [← colSlice_eq] at hget
  simp only [hmem, colPlace, show (32 * i + j) / 32 = i by omega] at hget
  exact hget

end

end Sys2Proof.Machine

open Sys2Proof Sys2Proof.Machine

/-- Settles O45: each instruction is its reads, its cells and the issue of its tile operation. -/
theorem tileMoves : Obligations.TileMoves := by
  unfold Obligations.TileMoves
  intro s d a b c e k x w hb hcl hk hen hx hw
  rw [← cellWidth_eq] at hw
  subst hx hw
  refine ⟨fun hops => ?moves, fun hops v s1 h1 => ?sets, fun t f rows hf hfmt hops => ?drain, ?fold⟩
  case moves =>
    have hops' : admitted s [.data d 2 true, .reg b] := admitted_with_reg hops hb
    have hrow : exec (.tmovr d c b) s = execTmovr d c b s := rfl
    have hcol : exec (.tmovc d c b) s = execTmovc d c b s := rfl
    refine ⟨readSlice k (rowSlice (s.me.reg b.toNat)), readSlice k (colSlice k (s.me.reg b.toNat)),
      fun i => elem_rowSlice k _, fun i => elem_colSlice k _, fun s1 h1 => ?_, fun s1 h1 => ?_⟩
    · exact tileIssued_parks hrow (check_classedForm hops' hcl) (tmovOp_runs hk hen h1) (writeV_cur h1)
    · exact tileIssued_parks hcol (check_classedForm hops' hcl) (tmovOp_runs hk hen h1) (writeV_cur h1)
  case sets =>
    have hops' : admitted s [.data a 2 false, .reg b] := admitted_with_reg hops hb
    have hcur : s1.cur = s.cur := readV_cur h1
    have hrow : exec (.tsetr c a b) s = execTsetr c a b s := rfl
    have hcol : exec (.tsetc c a b) s = execTsetc c a b s := rfl
    refine ⟨(writeSlice k (rowSlice (s.me.reg b.toNat)) v).cells, (writeSlice k (colSlice k (s.me.reg b.toNat)) v).cells,
      fun i j _ => get_writeSlice_row k _ v, fun i j => get_writeSlice_col k _ v, ?_, ?_⟩
    · exact tileIssued_parks hrow (check_classedForm hops' hcl) (tsetOp_runs hk hen h1) hcur
    · exact tileIssued_parks hcol (check_classedForm hops' hcl) (tsetOp_runs hk hen h1) hcur
  case drain =>
    have hops' : admitted s [.data d 2 true, .reg b] := admitted_with_reg hops hb
    have hexec : exec (.tdrain d c b t) s = execTdrain d c b t s := rfl
    refine ⟨putElems 0 f.width (List.range (32 * rows)) fun j => (drainedCell k f ((s.me.reg b.toNat).toNat % 64) j).1,
      (List.range (32 * rows)).foldl (fun m j => m ||| (drainedCell k f ((s.me.reg b.toNat).toNat % 64) j).2) 0,
      fun j hj => ?_, rfl, fun s1 s2 h1 h2 => ?_⟩
    · have helements := drainFmt_elements t
      rw [hf] at helements
      rw [elem_putElems _ _ _ _ (elem_inside (helements ▸ hj)), if_pos (List.mem_range.mpr hj), drainedCell]
    · exact tileIssued_parks hexec (check_classedForm hops' hcl) (tdrainOp_runs hk hen hf hfmt rfl h1 h2)
        ((raiseTile_cur h2).trans (writeV_cur h1))
  case fold =>
    rintro k' g hk' hfmt hen' hfmt' hne rfl
    have hexec : exec (.tfold c e) s = execTfold c e s := rfl
    refine ⟨k'.foldedBy s.me.core k, fun i j hi hj => ?_, k'.foldedBy_others _ k, fun s1 h1 => ?_⟩
    · exact k'.cell_foldedBy _ k hi hj
    · have hcur : s1.cur = s.cur := (raiseTile_cur h1).trans (State.updMe_cur ..)
      exact tileIssued_parks hexec (check_classedForm nofun hcl) (tfoldOp_runs hk hen hfmt hk' hen' hfmt' hne h1) hcur

end

section
/-! A step of the matrix pipe: what it leaves, and how its instruction goes on after it (R193-R195, R202). -/

namespace Sys2Proof.Machine

variable {s s0 s1 e : State} {o : TopOp} {j : Nat} {i : Instr} {f : Form} {body : M Flow}

theorem attempt_ok {α : Type} {m : M α} {x : α} (h : m s = .ok x e) : attempt m s = .ok (.ok x) e := by
  rw [attempt, h]

theorem attempt_error {α : Type} {m : M α} {x : Stop} (h : m s = .error x e) : attempt m s = .ok (.error x) s := by
  rw [attempt, h]

theorem topSource_cur {n x : Nat} (h : topSource n j s = .ok x e) : e.cur = s.cur := by
  unfold topSource at h
  split at h
  · cases h
    rfl
  · obtain ⟨v, s1, hpop, hdone⟩ := of_bind_ok h
    cases hdone
    exact (popQueue_only (d := 0) hpop).cur

theorem TopOp.operandA_cur {x : Nat} (h : o.operandA j s = .ok x e) : e.cur = s.cur := by
  unfold TopOp.operandA at h
  split at h
  · exact topSource_cur h
  · rw [run_bind_ok (run_me s)] at h
    split at h <;> cases h <;> rfl

/-- Neither taking heads nor writing a record changes which strand executes. -/
theorem TopOp.step_cur (h : o.step j s = .ok () e) : e.cur = s.cur := by
  unfold TopOp.step at h
  obtain ⟨a, s1, ha, h1⟩ := of_bind_ok h
  obtain ⟨b, s2, hb, h2⟩ := of_bind_ok h1
  have hcur : (pipeBegin s2 s2.cur 6).cur = s.cur :=
    (KeepsButRecords.pipeBegin s2 s2.cur 6).cur.trans ((topSource_cur hb).trans (o.operandA_cur ha))
  cases h2
  exact hcur

/-- An instruction whose checks pass goes on at the step where it stands, its A latch declared and no heads awaited. -/
theorem topOp_enters (hj : j = s.me.part.steps) (hcheck : answers (o.check j) s () s) (hready : answers o.ready s () s)
    (hs0 : s0 = (if j = 0 ∧ o.form ≠ 2 then
        s.updMe fun t => { t with tile := { t.tile with lcnt := o.cnt, lty := o.ty, op := none } }
      else s.updMe fun t => { t with tile := { t.tile with op := none } })) : topOp o s = o.enter j s0 := by
  subst hj
  unfold topOp
  refine (run_bind_ok (run_me s)).trans ((run_bind_ok hcheck).trans ((run_bind_ok hready).trans ?_))
  by_cases hfirst : s.me.part.steps = 0 ∧ o.form ≠ 2
  · rw [if_pos hfirst] at hs0
    rw [if_pos hfirst, hs0]
    refine (run_bind_ok (run_updMe _ s)).trans ((run_bind_ok (run_updMe _ _)).trans ?_)
    rw [State.updMe_updMe]
  · rw [if_neg hfirst] at hs0
    rw [if_neg hfirst, hs0]
    exact run_bind_ok (run_updMe _ s)

/-- A strand's next step, kept at its instruction for the event of its heads. -/
def State.awaits (s : State) (o : TopOp) : State := s.updMe fun t => { t with tile := { t.tile with op := some o } }

theorem enter_stays (h : o.step j s = .ok () e) (hj : j + 1 < o.cnt) : o.enter j s = .error (.parkAt .tile) (e.awaits o) := by
  unfold TopOp.enter
  refine (run_bind_ok (attempt_ok h)).trans ?_
  dsimp only
  rw [if_pos hj]
  rfl

theorem enter_finishes (h : o.step j s = .ok () e) (hj : o.cnt ≤ j + 1) : o.enter j s = topFinish e := by
  unfold TopOp.enter
  refine (run_bind_ok (attempt_ok h)).trans ?_
  dsimp only
  rw [if_neg (by omega)]

theorem enter_waits {w : Wait} (h : o.step j s = .error (.park w) e) :
    o.enter j s = .error (.parkAt .tile) (s.awaits o) := by
  unfold TopOp.enter
  exact run_bind_ok (attempt_error h)

/-- After its last step a strand has no instruction of the TOP family under way. -/
def State.steppedOut (s : State) : State :=
  s.updMe fun t => { t.setPart Progress.none with tile := { t.tile with op := none } }

theorem topFinish_runs (s : State) : topFinish s = tileIssued 6 s.steppedOut := rfl

/-- An instruction that is `topOp` under its form's checks makes the step at which it stands. -/
theorem topOp_runsSteps (hx : exec i s = insn f (topOp o) s) (hc : f.check s = none) : runsSteps i s o := by
  intro s0 s1 j hj hcheck hready hs0
  have henter := topOp_enters hj hcheck hready hs0
  have hcur0 : s0.cur = s.cur := by
    rw [hs0]
    split <;> rfl
  refine ⟨fun hstep => ⟨fun hlt => ?_, fun hle => ?_⟩, fun w e hstep => ?_⟩
  · exact hx.trans (insn_parkAt hc (henter.trans (enter_stays hstep hlt)))
  · exact tileIssued_parks hx hc (henter.trans (enter_finishes hstep hle)) ((o.step_cur hstep).trans hcur0)
  · exact hx.trans (insn_parkAt hc (henter.trans (enter_waits hstep)))

end Sys2Proof.Machine
end

section
/-! The cells of a step (R84, R88, R194). -/

namespace Sys2Proof.Machine

variable {o : TopOp} {core a b i c : Nat} {k : Acc}

/-- The channels of a residue cell are its three sums, each modulo its modulus (R83). -/
theorem residueChannels_residueCell (c1 c2 c3 : Int) : residueChannels (residueCell c1 c2 c3) =
    ((c1 % 8191).toNat, (c2 % 8192).toNat, (c3 % 8193).toNat) := by
  unfold residueChannels residueCell
  simp only [Prod.mk.injEq]
  omega

/-- The cell of an accumulator after a step. -/
def TopOp.newCell (o : TopOp) (core : Nat) (k : Acc) (a b i c : Nat) : Nat :=
  if k.active i c = true then
    if k.fmt = 0 then (o.fpCell (originNan core k.kcount) a b i c (k.cell i c)).1 else o.residue a b i c (k.cell i c)
  else k.cell i c

theorem TopOp.cell_after (hi : i < 64) (hc : c < 32) :
    (o.after core k a b).1.cell i c = o.newCell core k a b i c % 2 ^ 40 := by
  unfold TopOp.after TopOp.newCell
  by_cases hfmt : k.fmt = 0
  · simp only [hfmt, if_true]
    rw [Acc.cell_setCells _ _ hi hc]
    split <;> rfl
  · simp only [hfmt, if_false]
    rw [Acc.cell_setCells _ _ hi hc]

theorem TopOp.newCell_inactive (h : k.active i c = false) : o.newCell core k a b i c = k.cell i c := by
  simp [TopOp.newCell, h]

theorem TopOp.newCell_fp (h : k.active i c = true) (hfmt : k.fmt = 0) :
    o.newCell core k a b i c = (o.fpCell (originNan core k.kcount) a b i c (k.cell i c)).1 := by
  simp [TopOp.newCell, h, hfmt]

theorem TopOp.newCell_residue (h : k.active i c = true) (hfmt : k.fmt ≠ 0) :
    o.newCell core k a b i c = o.residue a b i c (k.cell i c) := by
  simp [TopOp.newCell, h, hfmt]

theorem TopOp.fpCell_nan {nan x : Nat} (h : nan32 x = true) : o.fpCell nan a b i c x = (x, 0) := if_pos h

/-- A cell that is no NaN gets the sum, rounded once, or the origin NaN (R88). -/
theorem TopOp.fpCell_sum {nan x : Nat} (h : nan32 x = false) {p : Sys2Proof.Fp.Val} {r : Nat}
    (hp : p = (if o.kp = 1 then o.product a b i c 0 else pairSum (o.product a b i c 0) (o.product a b i c 1)))
    (hr : r = (Fp.addVal Fp.fp32 0 (Fp.decode Fp.fp32 x) (if o.n then p.negate else p)).1) :
    (o.fpCell nan a b i c x).1 = if nan32 r then nan else r := by
  subst hp hr
  unfold TopOp.fpCell
  rw [if_neg (by simp [h])]
  exact apply_ite Prod.fst _ _ _

theorem TopOp.residueChannels_residue {x : Nat} {v d : Int} (hv : v = ((List.range o.kp).map fun m =>
      quant o.elemBits (o.element a i m) * quant o.elemBits (o.element b c m)).sum) (hd : d = (if o.n then -v else v)) :
    residueChannels (o.residue a b i c x) = ((((residueChannels x).1 + d) % 8191).toNat,
      (((residueChannels x).2.1 + d) % 8192).toNat, (((residueChannels x).2.2 + d) % 8193).toNat) := by
  subst hv hd
  exact residueChannels_residueCell ..

theorem TopOp.residue_lt (o : TopOp) (a b i c x : Nat) : o.residue a b i c x < 2 ^ 40 := residueCell_lt ..

theorem TopOp.kcount_after : (o.after core k a b).1.kcount = (k.kcount + o.kp) % 65536 := by
  unfold TopOp.after
  split <;> rfl

end Sys2Proof.Machine
end

section
/-! The events of the matrix pipe (R202). -/

namespace Sys2Proof.Machine

variable {s s' e : State} {u : Nat} {o : TopOp}

theorem runAs_ok {α : Type} {m : M α} {x : α} (h : m { s with cur := u } = .ok x e) :
    runAs s u m = some (x, { e with cur := s.cur }) := by
  rw [runAs, h]

/-- A strand that parks for its pipe stands where it stood, with its tile state. -/
theorem tileParked_strand (s : State) (pipe : Nat) : ((tileParked s pipe).strand s.cur).pc = s.me.pc ∧
    ((tileParked s pipe).strand s.cur).run = .parked .tile ∧ ((tileParked s pipe).strand s.cur).tile = s.me.tile := by
  have hrecords := KeepsButRecords.pipeRecords s s.cur pipe false
  rw [tileParked, park_strand, if_pos rfl]
  exact ⟨hrecords.field Strand.pc (fun _ => rfl) _, rfl, hrecords.field Strand.tile (fun _ => rfl) _⟩

/-- The strand after its last step: past the instruction, and parked for the pipe. -/
theorem topFinish_strand (h : topFinish s = .ok .stay e) : (e.strand s.cur).pc = s.me.pc + 4 ∧
    (e.strand s.cur).run = .parked .tile ∧ (e.strand s.cur).tile.op = none := by
  rw [topFinish_runs, tileIssued_runs] at h
  obtain ⟨-, rfl⟩ := EStateM.Result.ok.inj h
  obtain ⟨hpc, hrun, hop⟩ := tileParked_strand s.steppedOut 6
  have hcur : (tileParked s.steppedOut 6).cur = s.cur := tileParked_cur s.steppedOut 6
  have hme : s.steppedOut.me = { s.me.setPart Progress.none with tile := { s.me.tile with op := none } } := State.updMe_me ..
  rw [hme] at hpc hop
  generalize tileParked s.steppedOut 6 = p at hpc hrun hop hcur
  have hpast : (p.updMe fun t => { t with pc := t.pc + 4 }).strand s.cur = { p.strand s.cur with pc := (p.strand s.cur).pc + 4 } := by
    rw [State.updMe_strand, if_pos hcur.symm, State.me, hcur]
  rw [hpast]
  exact ⟨congrArg (· + 4) hpc, hrun, congrArg TileState.op hop⟩

theorem exec_matrixPipeStep (u : Nat) (s : State) : exec (.matrixPipeStep u) s = .next (matrixStep s u) := rfl
theorem exec_tileOpComplete (u : Nat) (s : State) : exec (.tileOpComplete u) s = .next (tileComplete s u) := rfl

section
variable (hw : waitingTop s u = some o) (hh : o.heads s u = .ready)
  (hstep : answers (o.step (s.strand u).part.steps) { s with cur := u } () s')
include hw hh hstep

theorem matrixStep_stays (hlt : (s'.strand u).part.steps < o.cnt) : matrixStep s u = { s' with cur := s.cur } := by
  unfold matrixStep
  rw [hw]
  dsimp only
  rw [if_neg (by simp [hh]), runAs_ok hstep]
  exact if_pos hlt

theorem matrixStep_finishes (hle : o.cnt ≤ (s'.strand u).part.steps) (he : answers topFinish { s' with cur := u } .stay e) :
    matrixStep s u = if (e.strand u).firmware then { e with cur := s.cur } else countIssued { e with cur := s.cur } u 4 := by
  unfold matrixStep
  rw [hw]
  dsimp only
  rw [if_neg (by simp [hh]), runAs_ok hstep]
  refine (if_neg (Nat.not_lt.mpr hle)).trans ?_
  have hrun : runAs { s' with cur := s.cur } u topFinish = some (.stay, { e with cur := s.cur }) := runAs_ok he
  rw [hrun]
  rfl

end

theorem tileComplete_wakes (hr : (s.strand u).run = .parked .tile) (ho : (s.strand u).tile.op = none) :
    tileComplete s u = wake s u := if_pos ⟨hr, ho⟩

/-- A strand that wakes from the pipe is Ready where it stands. -/
theorem wake_tile (hr : (s.strand u).run = .parked .tile) :
    ((wake s u).strand u).run = .ready ∧ ((wake s u).strand u).pc = (s.strand u).pc := by
  obtain ⟨tr, htr⟩ := countParked_trace s (s.strand u)
  rw [wake_strand s u hr, if_pos rfl, htr]
  exact ⟨rfl, rfl⟩

end Sys2Proof.Machine

open Sys2Proof Sys2Proof.Machine

/-- Settles O46: an instruction goes by what its step answers, a step by the cell, and an event by what stands in its strand. -/
theorem outerProducts : Obligations.OuterProducts := by
  unfold Obligations.OuterProducts
  refine ⟨fun s t a b r y n z hcl => ⟨fun hops => ?top, fun hops => ?tops, fun hops => ?topl⟩,
    fun o core a b i c k hi hc => ⟨fun ha => ?inactive, fun ha hfmt => ⟨fun hnan => ?nan, fun hnan p x hp hx => ?sum⟩,
      fun ha hfmt v d hv hd => ?residue, o.kcount_after⟩,
    fun s s' u o hw hh hstep => ⟨fun hlt => ?stays, fun hle e he => ?finishes⟩, fun s u hr ho => ?wakes⟩
  case top =>
    have hx : exec (.top t a b r y n z) s = execTop t a b r y n z s := rfl
    exact topOp_runsSteps hx (check_classedForm (xs := []) hops hcl)
  case tops =>
    have hx : exec (.tops t a b r y n z) s = execTops t a b r y n z s := rfl
    exact topOp_runsSteps hx (check_classedForm (xs := []) hops hcl)
  case topl =>
    have hx : exec (.topl t b r y n z) s = execTopl t b r y n z s := rfl
    exact topOp_runsSteps hx (check_classedForm (xs := []) hops hcl)
  case inactive => rw [o.cell_after hi hc, o.newCell_inactive ha, Nat.mod_eq_of_lt (k.cell_lt i c)]
  case nan => rw [o.cell_after hi hc, o.newCell_fp ha hfmt, o.fpCell_nan hnan, Nat.mod_eq_of_lt (k.cell_lt i c)]
  case sum => rw [o.cell_after hi hc, o.newCell_fp ha hfmt, o.fpCell_sum hnan hp hx]
  case residue =>
    rw [o.cell_after hi hc, o.newCell_residue ha hfmt, Nat.mod_eq_of_lt (o.residue_lt ..), o.residueChannels_residue hv hd]
  case stays => rw [exec_matrixPipeStep, matrixStep_stays hw hh hstep hlt]
  case finishes =>
    obtain ⟨hpc, hrun, hop⟩ := topFinish_strand he
    exact ⟨by rw [exec_matrixPipeStep, matrixStep_finishes hw hh hstep hle he], hpc, hrun, hop⟩
  case wakes =>
    obtain ⟨hrun, hpc⟩ := wake_tile hr
    exact ⟨by rw [exec_tileOpComplete, tileComplete_wakes hr ho], hrun, hpc⟩

end

section
/-! LOOP, ENDLOOP, LIDX and SIDX (R108): what each leaves of its slot. -/

namespace Sys2Proof.Machine

variable {s : State} {d a k : BitVec 6} {n : BitVec 2}

theorem admitted_none (s : State) : admitted s [] := nofun

/-- A form without restrictions of its own completes where its effect is a change of its strand that leaves the program counter. -/
theorem plainForm_completes {i : Instr} {w : InstrWord} {ops : List Opnd} {body : M Flow} {f : Strand → Strand}
    (hx : exec i s = insn { word := w, ops := ops } body s) (hops : admitted s ops) (hb : body s = .ok .seq (s.updMe f))
    (hpc : (f s.me).pc = s.me.pc) : completesWith i s (s.updMe f) (s.me.pc + 4) := by
  have hafter : ((s.updMe f).strand s.cur).pc = s.me.pc := (congrArg Strand.pc (State.updMe_me s f)).trans hpc
  exact insn_completes hx (check_plainForm hops) hb (.inl ⟨rfl, by rw [hafter]⟩)

theorem loopOp_arms (hc : s.me.reg a.toNat ≠ 0) : loopOp a n s =
    .ok .seq (s.updMe fun t => t.setLoop n.toNat ⟨false, true, t.pc + 4, s.me.reg a.toNat, 0⟩) := by
  unfold loopOp
  rw [run_bind_ok (run_readReg a s)]
  simp only [if_neg hc]
  rfl

/-! The slot before the instruction. -/

section
variable {l : LoopSlot} (hl : l = s.me.loop n.toNat)
include hl

theorem loopOp_skips (hc : s.me.reg a.toNat = 0) : loopOp a n s =
    .ok .seq (s.updMe fun t => { t.setLoop n.toNat { l with skip := true } with run := .skipping }) := by
  subst hl
  unfold loopOp
  rw [run_bind_ok (run_readReg a s)]
  simp only [if_pos hc]
  rfl

theorem endloopOp_skipping (hs : l.skip = true) : endloopOp n s =
    .ok .seq (s.updMe fun t => { t.setLoop n.toNat { l with skip := false } with run := .ready }) := by
  unfold endloopOp
  rw [run_bind_ok (run_me s)]
  simp only [← hl, if_pos hs]
  rfl

theorem endloopOp_idle (hs : l.skip = false) (ha : l.active = false) : endloopOp n s = .ok .seq s := by
  unfold endloopOp
  rw [run_bind_ok (run_me s)]
  simp only [← hl, hs, ha]
  rfl

theorem endloopOp_again (hs : l.skip = false) (ha : l.active = true) (hi : l.index.toNat + 1 < l.count.toNat) :
    endloopOp n s = .ok (.jump l.start) (s.updMe fun t => t.setLoop n.toNat { l with index := l.index + 1 }) := by
  unfold endloopOp
  rw [run_bind_ok (run_me s)]
  simp only [← hl, hs, ha, if_pos hi]
  rfl

theorem endloopOp_over (hs : l.skip = false) (ha : l.active = true) (hi : ¬ l.index.toNat + 1 < l.count.toNat) :
    endloopOp n s = .ok .seq (s.updMe fun t => t.setLoop n.toNat { l with index := l.index + 1, active := false }) := by
  unfold endloopOp
  rw [run_bind_ok (run_me s)]
  simp only [← hl, hs, ha, if_neg hi]
  rfl

theorem sidxOp_runs : sidxOp a n s = .ok .seq (s.updMe fun t => t.setLoop n.toNat { l with index := s.me.reg a.toNat }) := by
  subst hl
  rfl

end

theorem lidxOp_runs : lidxOp d k s = .ok .seq (s.updMe fun t => t.setReg d.toNat
    (if k.toNat < 4 then (s.me.loop k.toNat).index
      else if k.toNat < 8 then BitVec.ofNat 64 (Tab.get 0 s.me.levelIndex (k.toNat - 4))
      else BitVec.ofNat 64 (Tab.get 0 s.me.levelTrip (k.toNat - 8)))) := rfl

theorem exec_loop : exec (.loop a n) s = execLoop a n s := rfl
theorem exec_endloop : exec (.endloop n) s = execEndloop n s := rfl
theorem exec_lidx : exec (.lidx d k) s = execLidx d k s := rfl
theorem exec_sidx : exec (.sidx a n) s = execSidx a n s := rfl

end Sys2Proof.Machine

open Sys2Proof.Machine

/-- Settles O14: each form runs along the branch that its slot and its count choose. -/
theorem loops : Obligations.Loops := by
  unfold Obligations.Loops
  intro s d a n k l hd ha hl
  refine ⟨fun hc => ?arms, fun hc => ?skips, fun hs hact => ⟨fun hi => ?again, fun hi => ?past⟩, fun hs => ?skipping,
    fun hs hact => ?idle, ?lidx, ?sidx⟩
  case arms => exact plainForm_completes exec_loop (admitted_reg ha) (loopOp_arms hc) rfl
  case skips => exact plainForm_completes exec_loop (admitted_reg ha) (loopOp_skips hl hc) rfl
  case again => exact insn_completes exec_endloop (check_plainForm (admitted_none s)) (endloopOp_again hl hs hact hi) (.inr rfl)
  case past => exact plainForm_completes exec_endloop (admitted_none s) (endloopOp_over hl hs hact hi) rfl
  case skipping => exact plainForm_completes exec_endloop (admitted_none s) (endloopOp_skipping hl hs) rfl
  case idle => exact insn_completes exec_endloop (check_plainForm (admitted_none s)) (endloopOp_idle hl hs hact) (.inl ⟨rfl, rfl⟩)
  case lidx => exact plainForm_completes exec_lidx (admitted_reg hd) lidxOp_runs (Strand.setReg_pc ..)
  case sidx => exact plainForm_completes exec_sidx (admitted_reg ha) (sidxOp_runs hl) rfl

end
section
/-! What the end of a strand leaves of the strands and of memory (R93, R94, R106, R109). -/

namespace Sys2Proof.Machine

variable {s : State} {u v : Nat}

/-! A core gives up its copies without a byte of memory changing: the dirty words start for their home. -/

theorem guestMerge_mem (s : State) (die core line : Nat) (data : BitVec 1024) (dirty : BitVec 32) :
    (guestMerge s die core line data dirty).mem = s.mem := by
  unfold guestMerge
  split <;> rfl

theorem evictCopy_mem (s : State) (core line : Nat) : (evictCopy s core line).mem = s.mem := by
  unfold evictCopy
  split
  · rfl
  · extract_lets s1
    have hgone : s1.mem = s.mem := rfl
    clear_value s1
    split
    · exact hgone
    · split
      · exact (guestMerge_mem ..).trans hgone
      · split
        · exact hgone
        · split <;> exact hgone

theorem leaveCore_mem (s : State) (core ctx : Nat) : (leaveCore s core ctx).mem = s.mem := by
  unfold leaveCore
  split
  · rfl
  · exact foldl_mem (fun s (c : Nat × Copy) => evictCopy_mem s core c.1) _ s

/-! A strand's slot is given back. -/

/-- A strand whose run is over. -/
def Strand.over (t : Strand) (cycles : Nat) : Strand := { t with run := .done, cycleAcc := cycles, queues := [] }

theorem finishStrand_keeps (s : State) (u : Nat) :
    KeepsStrands (s.updStrand u fun t => t.over (s.cycles t)) (finishStrand s u) := .leaveCore ..

theorem finishStrand_self (s : State) (u : Nat) :
    ((finishStrand s u).strand u).sansWindows = ((s.strand u).over (s.cycles (s.strand u))).sansWindows := by
  rw [(finishStrand_keeps s u).strands, State.updStrand_strand, if_pos rfl]

theorem finishStrand_others (h : v ≠ u) : ((finishStrand s u).strand v).sansWindows = (s.strand v).sansWindows := by
  rw [(finishStrand_keeps s u).strands, State.updStrand_strand, if_neg h]

/-! Its parent takes back its lanes. -/

/-- A parent after the end of a child with so many lanes: those of an automatic child come back (R109). -/
def Strand.takeLanes (x : Strand) (u gvl : Nat) : Strand :=
  if x.children.any fun c => c.uid = u && c.auto then
    { x with gvl := min 64 (x.gvl + gvl), children := x.children.filter fun c => c.uid != u }
  else x

theorem Strand.takeLanes_gvl (x : Strand) (u gvl : Nat) : (x.takeLanes u gvl).gvl =
    if x.children.any fun c => c.uid = u && c.auto then min 64 (x.gvl + gvl) else x.gvl := by
  unfold Strand.takeLanes
  split <;> rfl

/-- Taking lanes back changes the granted length and the children alone. -/
theorem Strand.takeLanes_field {β : Type} (g : Strand → β) (hg : ∀ x n l, g { x with gvl := n, children := l } = g x)
    (x : Strand) (u gvl : Nat) : g (x.takeLanes u gvl) = g x := by
  unfold Strand.takeLanes
  split
  · exact hg ..
  · rfl

theorem endStrand_orphan (h : (s.strand u).parent = none) : endStrand s u = finishStrand s u := by
  unfold endStrand
  simp only [h]

theorem endStrand_child {p : Nat} (h : (s.strand u).parent = some p) :
    endStrand s u = (finishStrand s u).updStrand p fun x => x.takeLanes u (s.strand u).gvl := by
  unfold endStrand
  simp only [h]
  rfl

theorem endStrand_field {β : Type} (g : Strand → β) (hg : ∀ x n l, g { x with gvl := n, children := l } = g x) (s : State)
    (u v : Nat) : g ((endStrand s u).strand v) = g ((finishStrand s u).strand v) := by
  cases hp : (s.strand u).parent with
  | none => rw [endStrand_orphan hp]
  | some p =>
    rw [endStrand_child hp]
    exact State.updStrand_keeps g _ _ _ (fun x => Strand.takeLanes_field g hg x _ _) v

theorem endStrand_mem (s : State) (u : Nat) : (endStrand s u).mem = s.mem := by
  have hfin : (finishStrand s u).mem = s.mem := leaveCore_mem ..
  cases hp : (s.strand u).parent with
  | none => rw [endStrand_orphan hp, hfin]
  | some p => rw [endStrand_child hp, State.updStrand_mem, hfin]

theorem endStrand_run (s : State) (u v : Nat) :
    ((endStrand s u).strand v).run = if v = u then .done else (s.strand v).run := by
  rw [endStrand_field Strand.run (fun _ _ _ => rfl), finishStrand_run]

/-- Of what the strand itself had, the queues are gone and the rest stands, lanes and windows apart. -/
theorem endStrand_self {β : Type} (g : Strand → β) (hg : ∀ x n l, g { x with gvl := n, children := l } = g x)
    (hw : ∀ t : Strand, g t.sansWindows = g t) (s : State) (u : Nat) :
    g ((endStrand s u).strand u) = g ((s.strand u).over (s.cycles (s.strand u))) := by
  rw [endStrand_field g hg, ← hw, finishStrand_self, hw]

/-- The parent's granted length after the end of a child. -/
theorem endStrand_parent_gvl {p : Nat} (h : (s.strand u).parent = some p) (hp : p ≠ u) : ((endStrand s u).strand p).gvl =
    if (s.strand p).children.any fun c => c.uid = u && c.auto then min 64 ((s.strand p).gvl + (s.strand u).gvl)
    else (s.strand p).gvl := by
  have hfin := finishStrand_others (s := s) hp
  have hgvl : ((finishStrand s u).strand p).gvl = (s.strand p).gvl := (congrArg Strand.gvl hfin :)
  have hchildren : ((finishStrand s u).strand p).children = (s.strand p).children := (congrArg Strand.children hfin :)
  rw [endStrand_child h, State.updStrand_strand, if_pos rfl, Strand.takeLanes_gvl, hgvl, hchildren]

end Sys2Proof.Machine
end

section
/-! EXIT (R94, R106). -/

namespace Sys2Proof.Machine

variable {s t : State}

/-- The accesses of the executing strand that EXIT waits for have all been performed, and none of its stores is held. -/
structure State.quiet (s : State) : Prop where
  landed : outstanding s s.cur = false
  fetched : fetching s s.cur 15 = false
  stored : heldFrame s s.cur = none

theorem exitOp_awaits (h : outstanding s s.cur = true ∨ fetching s s.cur 15 = true) :
    exitOp s = .error (.park (.performed (0x20F + if fetching s s.cur 15 then 0xF0 else 0))) s := by
  have hwaits : (outstanding s s.cur || fetching s s.cur 15) = true := by simpa using h
  unfold exitOp
  rw [run_bind_ok (run_get s)]
  simp only [if_pos hwaits]
  rfl

theorem exitOp_held {f : Nat} (ho : outstanding s s.cur = false) (hf : fetching s s.cur 15 = false)
    (hh : heldFrame s s.cur = some f) : exitOp s = .error (.park (.parcel f)) s := by
  unfold exitOp
  rw [run_bind_ok (run_get s)]
  simp only [ho, hf, hh]
  rfl

/-- Quiet, EXIT gives back what its strand holds, and goes on from there. -/
theorem exitOp_releases (h : s.quiet) (ht : t = releaseAll s s.cur) : exitOp s =
    if t.me.children.any fun c => (t.strand c.uid).run.live then .error (.parkAt .children) t
    else .ok .stay (exitStrand t t.cur) := by
  subst ht
  unfold exitOp
  rw [run_bind_ok (run_get s)]
  simp only [h.landed, h.fetched, h.stored]
  rw [run_passed (by simp), run_bind_ok (run_modify _ s), run_bind_ok (run_get _)]
  exact run_ite ..

/-- What EXIT gives back. -/
theorem releaseAll_self (s : State) (u : Nat) : ((releaseAll s u).strand u).accs = [] ∧ ((releaseAll s u).strand u).spans = [] := by
  unfold releaseAll
  rw [State.updStrand_strand, if_pos rfl]
  exact ⟨rfl, rfl⟩

/-! The state after EXIT. -/

section
variable {u : Nat}

theorem exitStrand_single (h : (s.strand u).coupled = false) : exitStrand s u = endStrand s u := by
  simp [exitStrand, h]

theorem exitStrand_waits (h : (s.strand u).coupled = true) (hx : (s.strand (s.strand u).partner).run ≠ .exited)
    (hd : (s.strand (s.strand u).partner).run ≠ .done) :
    exitStrand s u = s.updStrand u fun t => { t with run := .exited } := by
  unfold exitStrand
  rw [if_pos h]
  split
  · exact absurd ‹_› hx
  · exact absurd ‹_› hd
  · rfl

theorem exitStrand_both (h : (s.strand u).coupled = true) (hx : (s.strand (s.strand u).partner).run = .exited) :
    exitStrand s u = endStrand (endStrand s (s.strand u).partner) u := by
  unfold exitStrand
  simp only [h, hx]
  rfl

end

/-! The instruction. -/

/-- The form of EXIT. -/
def exitForm : Form := { word := fr 18#6 0#6 0#6 0#6 0#5 0#2 0#1 }

theorem exec_exit : exec .exit s = insn exitForm exitOp s := rfl

theorem check_exitForm (s : State) : exitForm.check s = none := check_plainForm (admitted_none s)

theorem exit_parks (h : s.quiet) (ht : t = releaseAll s s.cur)
    (hc : t.me.children.any (fun c => (t.strand c.uid).run.live) = true) : exec .exit s = .next (park t s.cur .children) :=
  insn_parkAt (check_exitForm s) ((exitOp_releases h ht).trans (if_pos hc))

theorem exit_ends (h : s.quiet) (ht : t = releaseAll s s.cur) (hcur : t.cur = s.cur)
    (hc : t.me.children.any (fun c => (t.strand c.uid).run.live) = false) :
    exec .exit s = .next (complete exitForm s .stay (exitStrand t s.cur)) := by
  have hbody := (exitOp_releases h ht).trans (if_neg (by rw [hc]; exact Bool.false_ne_true))
  rw [hcur] at hbody
  exact insn_ok (check_exitForm s) hbody

/-- What the counts of a completed instruction leave alone. -/
theorem complete_stay_field {β : Type} (g : Strand → β) (hg : ∀ t : Strand, g t.uncounted = g t) (f : Form) (s e : State) (u : Nat) :
    g ((complete f s .stay e).strand u) = g (e.strand u) := by
  rw [← hg, (complete_stay_spec f s e).1, hg]

theorem complete_stay_mem (f : Form) (s e : State) : (complete f s .stay e).mem = e.mem :=
  (congrArg State.mem (complete_stay_spec f s e).2.2.2.1 :)

/-- A strand that is not of a couple is done. -/
theorem exit_single {u : Nat} (ht : t = releaseAll s u) (hcp : (t.strand u).coupled = false) {e : State}
    (he : e = complete exitForm s .stay (exitStrand t u)) :
    (e.strand u).run = .done ∧ (e.strand u).accs = [] ∧ (e.strand u).spans = [] ∧ (e.strand u).queues = [] ∧ e.mem = t.mem ∧
    (∀ p, (t.strand u).parent = some p → p ≠ u → (e.strand p).gvl =
      if (t.strand p).children.any fun c => c.uid = u && c.auto then min 64 ((t.strand p).gvl + (t.strand u).gvl)
      else (t.strand p).gvl) := by
  obtain ⟨haccs, hspans⟩ := releaseAll_self s u
  rw [← ht] at haccs hspans
  have hself {β : Type} (g : Strand → β) (hu : ∀ t : Strand, g t.uncounted = g t)
      (hg : ∀ x n l, g { x with gvl := n, children := l } = g x) (hw : ∀ t : Strand, g t.sansWindows = g t) :
      g (e.strand u) = g ((t.strand u).over (t.cycles (t.strand u))) := by
    rw [he, complete_stay_field g hu, exitStrand_single hcp, endStrand_self g hg hw]
  refine ⟨?_, ?_, ?_, ?_, ?_, fun p hp hne => ?_⟩
  · exact hself Strand.run (fun _ => rfl) (fun _ _ _ => rfl) fun _ => rfl
  · exact (hself Strand.accs (fun _ => rfl) (fun _ _ _ => rfl) fun _ => rfl).trans haccs
  · exact (hself Strand.spans (fun _ => rfl) (fun _ _ _ => rfl) fun _ => rfl).trans hspans
  · exact hself Strand.queues (fun _ => rfl) (fun _ _ _ => rfl) fun _ => rfl
  · rw [he, complete_stay_mem, exitStrand_single hcp, endStrand_mem]
  · rw [he, complete_stay_field Strand.gvl (fun _ => rfl), exitStrand_single hcp, endStrand_parent_gvl hp hne]

/-- The first strand of a couple to exit waits as Exited. -/
theorem exit_first {u : Nat} (ht : t = releaseAll s u) (hcp : (t.strand u).coupled = true)
    (hx : (t.strand (t.strand u).partner).run ≠ .exited) (hd : (t.strand (t.strand u).partner).run ≠ .done) {e : State}
    (he : e = complete exitForm s .stay (exitStrand t u)) :
    (e.strand u).run = .exited ∧ (e.strand u).accs = [] ∧ (e.strand u).spans = [] ∧ e.mem = t.mem ∧
      ∀ v, v ≠ u → (e.strand v).run = (t.strand v).run := by
  obtain ⟨haccs, hspans⟩ := releaseAll_self s u
  rw [← ht] at haccs hspans
  have hstrand {β : Type} (g : Strand → β) (hu : ∀ t : Strand, g t.uncounted = g t) (v : Nat) :
      g (e.strand v) = g (if v = u then { t.strand u with run := .exited } else t.strand v) := by
    rw [he, complete_stay_field g hu, exitStrand_waits hcp hx hd, State.updStrand_strand]
  refine ⟨?_, ?_, ?_, ?_, fun v hv => ?_⟩
  · rw [hstrand Strand.run (fun _ => rfl), if_pos rfl]
  · rw [hstrand Strand.accs (fun _ => rfl), if_pos rfl, haccs]
  · rw [hstrand Strand.spans (fun _ => rfl), if_pos rfl, hspans]
  · rw [he, complete_stay_mem, exitStrand_waits hcp hx hd, State.updStrand_mem]
  · rw [hstrand Strand.run (fun _ => rfl), if_neg hv]

/-- With the second the couple is done. -/
theorem exit_second {u : Nat} (hcp : (t.strand u).coupled = true) (hx : (t.strand (t.strand u).partner).run = .exited) {e : State}
    (he : e = complete exitForm s .stay (exitStrand t u)) :
    (e.strand u).run = .done ∧ (e.strand (t.strand u).partner).run = .done ∧ e.mem = t.mem := by
  have hrun (v : Nat) : (e.strand v).run = if v = u then .done
      else if v = (t.strand u).partner then .done else (t.strand v).run := by
    rw [he, complete_stay_field Strand.run (fun _ => rfl), exitStrand_both hcp hx, endStrand_run, endStrand_run]
  refine ⟨?_, ?_, ?_⟩
  · rw [hrun, if_pos rfl]
  · rw [hrun, if_pos rfl, ite_self]
  · rw [he, complete_stay_mem, exitStrand_both hcp hx, endStrand_mem, endStrand_mem]

end Sys2Proof.Machine
end
section
/-! YIELD, HINT and MIGR, and the life of a strand together (R106, R107, R110, R111). -/

namespace Sys2Proof.Machine

variable {s : State} {c d a : BitVec 6}

theorem exec_yield : exec .yield s = execYield s := rfl
theorem exec_hint : exec (.hint c) s = execHint c s := rfl
theorem exec_migr : exec (.migr d a) s = execMigr d a s := rfl

theorem yield_completes (s : State) :
    completesWith .yield s (s.updCore s.me.core fun k => { k with yielded := some s.cur }) (s.me.pc + 4) :=
  insn_completes exec_yield (check_plainForm (admitted_none s)) rfl (.inl ⟨rfl, rfl⟩)

theorem hint_completes (h : c ≠ 2) : completesWith (.hint c) s s (s.me.pc + 4) := by
  have hbody : hintOp c s = .ok .seq s := run_passed h
  exact insn_completes exec_hint (check_plainForm (admitted_none s)) hbody (.inl ⟨rfl, rfl⟩)

theorem hint_restartsWindow (h : c = 2) :
    completesWith (.hint c) s (s.updStrand (s.owner s.cur) fun t => t.setWindow 0 0) (s.me.pc + 4) := by
  subst h
  have hpc := State.updStrand_keeps Strand.pc s (s.owner s.cur) (fun t => t.setWindow 0 0) (fun _ => rfl) s.cur
  exact insn_completes exec_hint (check_plainForm (admitted_none s)) rfl (.inl ⟨rfl, by rw [hpc]; rfl⟩)

/-! MIGR. -/

/-- The classes that a MIGR may go to: those that it names and the strand's set allows (R110). -/
def migrMask (s : State) (m : Word) : Nat := m.toNat % 8 &&& (s.strand (s.owner s.cur)).travel.allowed

/-- Those of them that a search looks in: a member of a gang stays off the C-cores. -/
def migrAway (s : State) (m : Word) : Nat :=
  migrMask s m &&& (if (s.couple s.cur).any fun v => !(s.strand v).gangs.isEmpty then 6 else 7)

/-- The search of a MIGR. -/
def migrSearch (s : State) (d : BitVec 6) (away : Nat) : State :=
  { s with moves := (s.moves.filter fun x => x.uid != s.owner s.cur) ++ [⟨s.owner s.cur, away, 2,
    s.time + (s.context s.me.ctx).waitBound, none, s.clock, some d.toNat, s.cur, 0, []⟩] }

/-- MIGR along its three branches. -/
theorem migrOp_eq (d a : BitVec 6) (s : State) : migrOp d a s =
    if (migrMask s (s.me.reg a.toNat)).testBit (classOf s s.me.core) then .ok .seq (s.updMe fun t => t.setReg d.toNat 0)
    else if migrAway s (s.me.reg a.toNat) = 0 ∨ (s.strand (s.owner s.cur)).travel.credits = 0 ∨ s.inFamily s.cur = true then
      .ok .seq (s.updMe fun t => t.setReg d.toNat 2)
    else .error (.parkAt (.migrate (migrAway s (s.me.reg a.toNat)) false)) (migrSearch s d (migrAway s (s.me.reg a.toNat))) := by
  unfold migrOp
  rw [run_bind_ok (run_readReg a s), run_bind_ok (run_get s)]
  refine (run_ite ..).trans (if_congr Iff.rfl rfl ((run_ite ..).trans (if_congr Iff.rfl rfl rfl)))

section
variable (hd : d.toNat < 32) (ha : a.toNat < 32)
include hd ha

theorem admitted_migr : admitted s [.reg d, .reg a] := admitted_regs (rs := [d, a]) (by simp [hd, ha])

theorem migr_answers {v : Word} (hb : migrOp d a s = .ok .seq (s.updMe fun t => t.setReg d.toNat v)) :
    completesWith (.migr d a) s (s.updMe fun t => t.setReg d.toNat v) (s.me.pc + 4) :=
  plainForm_completes exec_migr (admitted_migr hd ha) hb (Strand.setReg_pc ..)

theorem migr_stays (h : (migrMask s (s.me.reg a.toNat)).testBit (classOf s s.me.core) = true) :
    completesWith (.migr d a) s (s.updMe fun t => t.setReg d.toNat 0) (s.me.pc + 4) :=
  migr_answers hd ha ((migrOp_eq d a s).trans (if_pos h))

section
variable (h : (migrMask s (s.me.reg a.toNat)).testBit (classOf s s.me.core) = false)
include h

theorem migr_refused (hno : migrAway s (s.me.reg a.toNat) = 0 ∨ (s.strand (s.owner s.cur)).travel.credits = 0 ∨
    s.inFamily s.cur = true) : completesWith (.migr d a) s (s.updMe fun t => t.setReg d.toNat 2) (s.me.pc + 4) := by
  refine migr_answers hd ha ?_
  rw [migrOp_eq, h, if_neg Bool.false_ne_true, if_pos hno]

theorem migr_searches (haway : migrAway s (s.me.reg a.toNat) ≠ 0) (hcredits : (s.strand (s.owner s.cur)).travel.credits ≠ 0)
    (hfamily : s.inFamily s.cur = false) : exec (.migr d a) s =
      .next (park (migrSearch s d (migrAway s (s.me.reg a.toNat))) s.cur (.migrate (migrAway s (s.me.reg a.toNat)) false)) := by
  have hbody := migrOp_eq d a s
  rw [h, if_neg Bool.false_ne_true, if_neg (by simp [haway, hcredits, hfamily])] at hbody
  exact insn_parkAt (check_plainForm (admitted_migr hd ha)) hbody

end

end

end Sys2Proof.Machine

open Sys2Proof.Machine

/-- Settles O15: EXIT by what is still on its way and by its couple, MIGR along its three branches. -/
theorem strandLife : Obligations.StrandLife := by
  unfold Obligations.StrandLife
  refine ⟨fun s t ho hf hh ht hcur => ?exits, fun s => ⟨fun h => ?awaits, fun f ho hf hh => ?held⟩, fun s c d a hd ha =>
    ⟨yield_completes s, hint_completes, hint_restartsWindow, migr_stays hd ha, fun h => ⟨fun hno => ?refused, ?searches⟩⟩⟩
  case exits =>
    have hquiet : s.quiet := ⟨ho, hf, hh⟩
    refine ⟨exit_parks hquiet ht, fun hc => ?_⟩
    have hgo := exit_ends hquiet ht hcur hc
    have hme : t.me = t.strand s.cur := congrArg t.strand hcur
    rw [hme]
    exact ⟨fun hcp => ⟨_, hgo, exit_single ht hcp rfl⟩, fun hcp hx hd => ⟨_, hgo, exit_first ht hcp hx hd rfl⟩,
      fun hcp hx => ⟨_, hgo, exit_second hcp hx rfl⟩⟩
  case awaits => exact insn_park (check_exitForm s) (exitOp_awaits h)
  case held => exact insn_park (check_exitForm s) (exitOp_held ho hf hh)
  case refused => exact migr_refused hd ha h (.inr hno)
  case searches =>
    rintro away rfl
    exact ⟨fun h0 => migr_refused hd ha h (.inl h0), fun h0 hcr hfam => migr_searches hd ha h h0 hcr hfam⟩

end

section
/-! What the homes, the rings and the records never touch: the moves under way, the blend, the slots that cores have promised, and
which contexts are lost (R11, R351, R373). -/

namespace Sys2Proof.Machine

/-- The parts of the state on which a move rests beside its strands. -/
structure Posts where
  moves : List Move
  blend : Nat
  reserved : Nat → List Nat
  lost : Nat → Bool

def State.posts (s : State) : Posts :=
  ⟨s.moves, s.module.blend, fun c => (s.core c).reserved, fun c => (s.context c).lost⟩

/-- They are as before. -/
def KeepsPosts (s s' : State) : Prop := s'.posts = s.posts

namespace KeepsPosts

variable {s s1 s' : State}

theorem refl (s : State) : KeepsPosts s s := rfl

theorem trans (h : KeepsPosts s s1) (g : KeepsPosts s1 s') : KeepsPosts s s' := Eq.trans g h

theorem foldl {α : Type} {f : State → α → State} (hf : ∀ s x, KeepsPosts s (f s x)) (l : List α) (s : State) :
    KeepsPosts s (l.foldl f s) := by
  induction l generalizing s with
  | nil => exact refl s
  | cons x l ih => exact (hf s x).trans (ih _)

theorem ite {c : Prop} [Decidable c] (h1 : c → KeepsPosts s s1) (h2 : ¬c → KeepsPosts s s') :
    KeepsPosts s (if c then s1 else s') := by
  split
  · exact h1 ‹_›
  · exact h2 ‹_›

/-- The moves, the module, the cores and the contexts are the same data. -/
theorem of_eq (hm : s'.moves = s.moves) (hb : s'.module = s.module) (hc : s'.cores = s.cores) (hx : s'.contexts = s.contexts) :
    KeepsPosts s s' := by
  simp only [KeepsPosts, State.posts, State.core, State.context, hm, hb, hc, hx]

/-- `of_eq`, with the states named. -/
theorem between (s s' : State) (hm : s'.moves = s.moves) (hb : s'.module = s.module) (hc : s'.cores = s.cores)
    (hx : s'.contexts = s.contexts) : KeepsPosts s s' := of_eq hm hb hc hx

theorem moves (h : KeepsPosts s s') : s'.moves = s.moves := congrArg Posts.moves h
theorem reserved (h : KeepsPosts s s') (c : Nat) : (s'.core c).reserved = (s.core c).reserved := congrFun (congrArg Posts.reserved h) c
theorem lost (h : KeepsPosts s s') (c : Nat) : (s'.context c).lost = (s.context c).lost := congrFun (congrArg Posts.lost h) c

theorem classOf (h : KeepsPosts s s') (c : Nat) : classOf s' c = classOf s c := by
  have hb : s'.module.blend = s.module.blend := congrArg Posts.blend h
  simp only [Machine.classOf, hb]

/-! Updates of the tables. -/

theorem updCore (s : State) (c : Nat) {f : Core → Core} (hf : ∀ x, (f x).reserved = x.reserved) : KeepsPosts s (s.updCore c f) := by
  have hkeep : ∀ n, ((s.updCore c f).core n).reserved = (s.core n).reserved := by
    intro n
    rw [State.updCore_core]
    split
    · rw [hf, ‹n = c›]
    · rfl
  exact congrArg (fun r => (⟨s.moves, s.module.blend, r, fun c => (s.context c).lost⟩ : Posts)) (funext hkeep)

theorem updContext (s : State) (c : Nat) {f : Context → Context} (hf : ∀ x, (f x).lost = x.lost) :
    KeepsPosts s (s.updContext c f) := by
  have hkeep : ∀ n, ((s.updContext c f).context n).lost = (s.context n).lost := by
    intro n
    rw [State.updContext_context]
    split
    · rw [hf, ‹n = c›]
    · rfl
  exact congrArg (fun l => (⟨s.moves, s.module.blend, fun c => (s.core c).reserved, l⟩ : Posts)) (funext hkeep)

theorem updStrand (s : State) (u : Nat) (f : Strand → Strand) : KeepsPosts s (s.updStrand u f) := rfl

theorem raise (s : State) (n : Nat) : KeepsPosts s (s.raise n) := rfl

/-! Lines and their homes. -/

theorem setCopy (s : State) (core line : Nat) (c : Copy) : KeepsPosts s (s.setCopy core line c) := updCore s core fun _ => rfl

theorem unpin (s : State) (core line : Nat) : KeepsPosts s (unpin s core line) := updCore s core fun _ => rfl

theorem coreDrop (s : State) (core line : Nat) : KeepsPosts s (coreDrop s core line) := by
  refine ((setCopy s core line Copy.none).trans (unpin _ core line)).trans ?_
  exact foldl (fun s (x : Nat × Nat × Nat) => updStrand s x.1 _) _ _

theorem coreClean (s : State) (core line : Nat) : KeepsPosts s (coreClean s core line) := by
  unfold Machine.coreClean
  extract_lets s1
  have h1 : KeepsPosts s s1 := by
    unfold s1
    split
    · exact setCopy ..
    · exact refl s
  refine h1.trans ?_
  exact foldl (fun s (x : Nat × Nat × Nat) => updStrand s x.1 _) _ _

theorem markDirty (s : State) (line : Nat) : KeepsPosts s (markDirty s line) := ite (fun _ => of_eq rfl rfl rfl rfl) fun _ => refl s

theorem keyLine (s : State) (line k : Nat) : KeepsPosts s (keyLine s line k) := by
  unfold Machine.keyLine
  extract_lets k1 s1
  have h1 : KeepsPosts s s1 := ite (fun _ => refl s) fun _ => of_eq rfl rfl rfl rfl
  exact ite (fun _ => refl s) fun _ => h1.trans (of_eq rfl rfl rfl rfl)

theorem rekey (s : State) (line : Nat) : KeepsPosts s (rekey s line) := ite (fun _ => refl s) fun _ => keyLine ..

theorem homeMerge (s : State) (line : Nat) (data : BitVec 1024) (dirty : BitVec 32) :
    KeepsPosts s (homeMerge s line data dirty) := by
  unfold Machine.homeMerge
  refine ite (fun _ => of_eq rfl rfl rfl rfl) fun _ => ite (fun _ => refl s) fun _ => ?_
  exact ((rekey s _).trans (markDirty _ _)).trans (of_eq rfl rfl rfl rfl)

theorem takeBack (s : State) (agent line : Nat) (drop : Bool) : KeepsPosts s (takeBack s agent line drop) := by
  unfold Machine.takeBack
  extract_lets mine s1 s2 m s3
  have h1 : KeepsPosts s s1 := foldl (fun s (w : WriteBack) => homeMerge s line w.data w.dirty) mine s
  have h2 : KeepsPosts s s2 := h1.trans (of_eq rfl rfl rfl rfl)
  have h3 : KeepsPosts s s3 := h2.trans (ite (fun _ => refl s2) fun _ => homeMerge ..)
  have hcore : ∀ (s : State) c, KeepsPosts s (if drop then Machine.coreDrop s c line else Machine.coreClean s c line) :=
    fun s c => ite (fun _ => coreDrop ..) fun _ => coreClean ..
  refine h3.trans ?_
  clear_value s3
  split
  · exact hcore s3 agent
  · split
    · split
      · exact refl s3
      · exact (foldl hcore _ s3).trans (of_eq rfl rfl rfl rfl)
    · exact of_eq rfl rfl rfl rfl

theorem recallAll (s : State) (line : Nat) : KeepsPosts s (recallAll s line) :=
  (foldl (fun s a => takeBack s a line true) _ s).trans (of_eq rfl rfl rfl rfl)

/-- A tracked line is recalled, another is left alone. -/
theorem recalled (s : State) (line : Nat) :
    KeepsPosts s (if (s.line line).code = 1 ∨ (s.line line).code = 2 then Machine.recallAll s line else s) :=
  ite (fun _ => recallAll s line) fun _ => refl s

theorem homeStore (s : State) (pa : Nat) (bs : List Byte) : KeepsPosts s (homeStore s pa bs) :=
  (foldl (fun s l => (recalled s l).trans (markDirty _ l)) _ s).trans (of_eq rfl rfl rfl rfl)

theorem stampKey (s : State) (l : Leaf) (n : Nat) : KeepsPosts s (stampKey s l n) :=
  ite (fun _ => foldl (fun s x => keyLine s x _) _ s) fun _ => refl s

theorem guestMerge (s : State) (die core line : Nat) (data : BitVec 1024) (dirty : BitVec 32) :
    KeepsPosts s (guestMerge s die core line data dirty) := by
  unfold Machine.guestMerge
  split
  · exact refl s
  · exact of_eq rfl rfl rfl rfl

theorem evictCopy (s : State) (core line : Nat) : KeepsPosts s (evictCopy s core line) := by
  unfold Machine.evictCopy
  split
  · exact refl s
  · extract_lets s1
    have h1 : KeepsPosts s s1 := (setCopy s core line Copy.none).trans (unpin _ core line)
    clear_value s1
    refine h1.trans (ite (fun _ => refl _) fun _ => ite (fun _ => guestMerge ..) fun _ => ite (fun _ => ?_) fun _ => ?_)
    · exact of_eq rfl rfl rfl rfl
    · exact ite (fun _ => of_eq rfl rfl rfl rfl) fun _ => refl _

theorem dropCopies (s : State) (core : Nat) : KeepsPosts s (dropCopies s core) := foldl (fun _ _ => evictCopy ..) _ s

theorem leaveCore (s : State) (core ctx : Nat) : KeepsPosts s (leaveCore s core ctx) := ite (fun _ => refl s) fun _ => dropCopies ..

theorem selfInvalidate (s : State) (core scope : Nat) : KeepsPosts s (selfInvalidate s core scope) := by
  unfold Machine.selfInvalidate
  extract_lets s1
  have h1 : KeepsPosts s s1 := updCore s core fun _ => rfl
  refine ite (fun _ => refl s) fun _ => h1.trans ?_
  refine foldl (fun s u => ?_) _ _
  exact foldl (fun s (w : Nat × Window) => updStrand s u _) _ _

/-! Rings, notifications and the fault log. -/

theorem naingStore {va : Word} {bs : List Byte} (h : naingStore s va bs = some s') : KeepsPosts s s' := by
  unfold Machine.naingStore at h
  split at h
  · obtain ⟨-, h⟩ := Option.ite_none_right_eq_some.mp h
    cases h
    exact (stampKey ..).trans (homeStore ..)
  · cases h

theorem append {r : Ring} {bs : List Byte} (h : r.append s bs = some s') : KeepsPosts s s' := by
  unfold Ring.append at h
  split at h
  · obtain ⟨-, h⟩ := Option.ite_none_left_eq_some.mp h
    split at h
    next h1 => exact (naingStore h1).trans (naingStore h)
    next => cases h
  · cases h

theorem notify (s : State) (ctx kind : Nat) (va : Word) (count tier die : Nat) :
    KeepsPosts s (notify s ctx kind va count tier die) := by
  unfold Machine.notify
  extract_lets c e
  refine ite (fun _ => refl s) fun _ => ?_
  split
  next h =>
    refine (append h).trans (trans ?_ (raise _ 0))
    exact updContext _ _ fun _ => rfl
  next => exact updContext _ _ fun _ => rfl

theorem faultLog (s : State) (ctx : Nat) (f : FaultEntry) : KeepsPosts s (faultLog s ctx f) := by
  unfold Machine.faultLog
  extract_lets c e s1
  have h1 : KeepsPosts s s1 := raise ..
  split
  next h => exact h1.trans ((append h).trans (updContext _ _ fun _ => rfl))
  next => exact h1.trans (updContext _ _ fun _ => rfl)

/-! Stores at their homes. -/

theorem forceFetch (s : State) (f ctx : Nat) (va : Word) : KeepsPosts s (forceFetch s f ctx va) := by
  unfold Machine.forceFetch
  extract_lets p die naing s1 s2
  exact ite (fun _ => refl s) fun _ => (between s s2 rfl rfl rfl rfl).trans (notify ..)

theorem logAppend (s : State) (pa op wd : Nat) (v : Word) (ctx : Nat) (va : Word) :
    KeepsPosts s (logAppend s pa op wd v ctx va) := by
  unfold Machine.logAppend
  extract_lets f die s1 p e
  have h1 : KeepsPosts s s1 := of_eq rfl rfl rfl rfl
  split
  extract_lets use s2 s3 warn s4
  have h4 : KeepsPosts s1 s4 := of_eq rfl rfl rfl rfl
  refine h1.trans (ite (fun _ => of_eq rfl rfl rfl rfl) fun _ => ite (fun _ => of_eq rfl rfl rfl rfl) fun _ =>
    ite (fun _ => ?_) fun _ => ?_)
  · exact (between s1 (s1.updParcel f _) rfl rfl rfl rfl).trans (forceFetch ..)
  · exact ite (fun _ => h4.trans (notify ..)) fun _ => h4

theorem homeOp (s : State) (pa n op : Nat) (v : Word) (logEnable : Bool) (ctx : Nat) (va : Word) :
    KeepsPosts s (homeOp s pa n op v logEnable ctx va) := by
  unfold Machine.homeOp
  refine ite (fun _ => logAppend ..) fun _ => ite (fun _ => logAppend ..) fun _ => ite (fun _ => ?_) fun _ => ?_
  · exact (recalled s _).trans (of_eq rfl rfl rfl rfl)
  · exact ite (fun _ => of_eq rfl rfl rfl rfl) fun _ => ite (fun _ => homeStore ..) fun _ => homeStore ..

theorem homePut_go (bs : List Byte) (logEnable : Bool) (ctx : Nat) (va : Word) (pa : Nat) (s : State) (o fuel : Nat) :
    KeepsPosts s (homePut.go pa bs logEnable ctx va s o fuel) := by
  induction fuel generalizing s o with
  | zero => exact refl s
  | succ fuel ih => exact ite (fun _ => refl s) fun _ => (homeOp ..).trans (ih _ _)

theorem homePut (s : State) (pa : Nat) (bs : List Byte) (logEnable : Bool) (ctx : Nat) (va : Word) :
    KeepsPosts s (homePut s pa bs logEnable ctx va) :=
  ite (fun _ => homeStore ..) fun _ => homePut_go ..

theorem ctxStore {ctx : Nat} {va : Word} {bs : List Byte} (h : ctxStore s ctx va bs = .ok s') : KeepsPosts s s' := by
  unfold Machine.ctxStore at h
  split at h
  · cases h
  · split at h
    · cases h
    · split at h
      · cases h
      · split at h
        · cases h
          exact faultLog ..
        · cases h
          exact (stampKey ..).trans (homePut ..)

theorem queueError (s : State) (q code cause sub index : Nat) (toError : Bool) :
    KeepsPosts s (queueError s q code cause sub index toError) := by
  unfold Machine.queueError
  extract_lets d w s1 s2
  have h1 : KeepsPosts s s1 := by
    unfold s1
    split
    next h => exact ctxStore h
    next => exact refl s
  have h2 : KeepsPosts s1 s2 := ite (fun _ => of_eq rfl rfl rfl rfl) fun _ => refl s1
  exact h1.trans (h2.trans (raise ..))

/-! Window write-backs. -/

theorem countTransfer (s : State) (pa ctx : Nat) (va : Word) (counterEnable : Bool) :
    KeepsPosts s (countTransfer s pa ctx va counterEnable) := by
  unfold Machine.countTransfer
  extract_lets f tier die p full s1 n thr hit s2 s3
  have h1 : KeepsPosts s s1 := ite (fun _ => refl s) fun _ => of_eq rfl rfl rfl rfl
  have h2 : KeepsPosts s s2 := h1.trans (between s1 s2 rfl rfl rfl rfl)
  have h3 : KeepsPosts s s3 := h2.trans (ite (fun _ => notify ..) fun _ => refl s2)
  exact ite (fun _ => refl s) fun _ => ite (fun _ => refl s) fun _ => ite (fun _ => h3.trans (notify ..)) fun _ => h3

theorem evictLine (s : State) (line : Nat) : KeepsPosts s (evictLine s line) := by
  unfold Machine.evictLine
  extract_lets l s1 written s2
  have h1 : KeepsPosts s s1 := ite (fun _ => recallAll ..) fun _ => refl s
  have h2 : KeepsPosts s s2 := h1.trans (between s1 s2 rfl rfl rfl rfl)
  refine ite (fun _ => ?_) fun _ => h2
  split
  · exact h2.trans (countTransfer ..)
  · exact h2

theorem evictGuest (s : State) (die line : Nat) : KeepsPosts s (evictGuest s die line) := by
  unfold Machine.evictGuest
  split
  · exact refl s
  · extract_lets agent m d s1
    have hdrop : KeepsPosts s s1 := (foldl (fun s c => coreDrop s c line) _ s).trans (of_eq rfl rfl rfl rfl)
    clear_value s1
    exact ite (fun _ => hdrop) fun _ => ite (fun _ => hdrop.trans (of_eq rfl rfl rfl rfl)) fun _ => hdrop.trans (of_eq rfl rfl rfl rfl)

theorem fitSlice (s : State) (die line : Nat) : KeepsPosts s (fitSlice s die line) :=
  ite (fun _ => refl s) fun _ => ite (fun _ => evictLine ..) fun _ => evictGuest ..

theorem touchLine (s : State) (pa ctx : Nat) (va : Word) (counterEnable : Bool) :
    KeepsPosts s (touchLine s pa ctx va counterEnable) :=
  ite (fun _ => refl s) fun _ => (between s (s.updLine _ _) rfl rfl rfl rfl).trans ((fitSlice ..).trans (countTransfer ..))

theorem touchWrite (s : State) (l : Leaf) (ctx : Nat) (va : Word) : KeepsPosts s (touchWrite s l ctx va) :=
  ite (fun _ => refl s) fun _ => touchLine ..

theorem updateGuest (s : State) (die line o : Nat) (bs : List Byte) : KeepsPosts s (updateGuest s die line o bs) := by
  unfold Machine.updateGuest
  refine ite (fun _ => refl s) fun _ => ?_
  split
  · exact of_eq rfl rfl rfl rfl
  · exact refl s

theorem writePrivate (s : State) (u line : Nat) (va : Word) (dirty : BitVec 32) (data : List Byte) :
    KeepsPosts s (writePrivate s u line va dirty data) := by
  unfold Machine.writePrivate
  extract_lets t leaf log s1 me s2
  refine ite (fun _ => faultLog ..) fun _ => ?_
  have h1 : KeepsPosts s s1 := by
    unfold s1
    generalize leaf = found
    cases found with
    | none => exact refl s
    | some l => exact (touchWrite ..).trans (stampKey ..)
  have h2 : KeepsPosts { s1 with cur := u } s2 :=
    foldl (fun s m => ite (fun _ => (homePut ..).trans (updateGuest ..)) fun _ => refl s) _ _
  have hcur : KeepsPosts s1 { s1 with cur := u } := of_eq rfl rfl rfl rfl
  exact (h1.trans (hcur.trans h2)).trans (of_eq rfl rfl rfl rfl)

theorem writeBackWindow (s : State) (u i j : Nat) (cv : Bool) : KeepsPosts s (writeBackWindow s u i j cv) := by
  unfold Machine.writeBackWindow
  extract_lets t w dirty p line a s1 s2 s3 s4 va s5
  refine ite (fun _ => refl s) fun _ => ite (fun _ => ite (fun _ => refl s) fun _ => ?_) fun _ => ?_
  · have h1 : KeepsPosts s s1 := ite (fun _ => faultLog ..) fun _ => refl s
    have h3 : KeepsPosts s s3 := (h1.trans (takeBack ..)).trans (coreDrop ..)
    clear_value s3
    exact h3.trans (of_eq rfl rfl rfl rfl)
  · have h5 : KeepsPosts s s5 := ite (fun _ => refl s) fun _ => writePrivate ..
    exact h5.trans (of_eq rfl rfl rfl rfl)

/-! Trace records. -/

theorem quartersPut {q : Quarters} {d : Nat} {bs : List Byte} (h : q.put s d bs = some s') : KeepsPosts s s' := by
  unfold Quarters.put at h
  split at h
  · cases h
  · obtain ⟨-, h⟩ := Option.ite_none_left_eq_some.mp h
    split at h
    · cases h
      exact (homeStore ..).trans (homeStore ..)
    · cases h

theorem writeRec {q : Quarters} {d src delta : Nat} {r : Rec} (h : writeRec s q d src delta r = some s') : KeepsPosts s s' := by
  unfold Machine.writeRec at h
  split at h
  · cases h
  · next hput =>
    cases h
    exact (quartersPut hput).trans (updContext _ _ fun _ => rfl)

theorem writeSyncs {q : Quarters} {d : Nat} {srcs : List Nat} (h : Machine.writeSyncs s q d srcs = some s') : KeepsPosts s s' := by
  induction srcs generalizing s with
  | nil =>
    cases h
    exact refl _
  | cons x srcs ih =>
    unfold Machine.writeSyncs at h
    split at h
    · cases h
    · next hsync => exact (writeRec hsync).trans (ih h)

theorem syncWhen {sync : Bool} {q : Quarters} {d src : Nat}
    (h : (if sync then writeSync s q d src else some s) = some s') : KeepsPosts s s' := by
  split at h
  · exact writeRec h
  · cases h
    exact refl s

theorem traceRec (s : State) (ctx d src : Nat) (r : Rec) : KeepsPosts s (traceRec s ctx d src r) := by
  unfold Machine.traceRec
  extract_lets t gap lost sync srcs
  split
  · exact refl s
  · extract_lets done
    have hdone : ∀ s', done = some s' → KeepsPosts s s' := by
      intro s' h
      unfold done at h
      split at h
      · obtain ⟨-, h⟩ := Option.ite_none_right_eq_some.mp h
        split at h
        · cases h
        · next hsync => exact (syncWhen hsync).trans (writeRec h)
      · obtain ⟨-, h⟩ := Option.ite_none_right_eq_some.mp h
        split at h
        · cases h
        · next s1 hgap =>
          obtain ⟨s0, hsync, hgap⟩ := Option.bind_eq_some_iff.mp hgap
          extract_lets s2 at h
          split at h
          · cases h
          · next hsyncs =>
            have hgone : KeepsPosts s1 s2 := updContext _ _ fun _ => rfl
            exact (syncWhen hsync).trans ((writeRec hgap).trans (hgone.trans ((writeSyncs hsyncs).trans (writeRec h))))
    clear_value done
    split
    · exact hdone _ rfl
    · exact updContext _ _ fun _ => rfl

theorem strandRec (s : State) (u bit : Nat) (r : Rec) : KeepsPosts s (strandRec s u bit r) :=
  ite (fun _ => traceRec ..) fun _ => refl s

theorem pipeEnd (s : State) (u pipe : Nat) (stop : Bool) : KeepsPosts s (pipeEnd s u pipe stop) :=
  (strandRec ..).trans (of_eq rfl rfl rfl rfl)

theorem pipeStop (s : State) (u : Nat) : KeepsPosts s (pipeStop s u) := by
  unfold Machine.pipeStop
  split
  · exact pipeEnd ..
  · exact refl s

theorem migrationRec (s : State) (u kind slot core target reason bytes : Nat) :
    KeepsPosts s (migrationRec s u kind slot core target reason bytes) := ite (fun _ => traceRec ..) fun _ => refl s

end KeepsPosts

end Sys2Proof.Machine
end

section
/-! What operations on strands leave of them, field by field. -/

namespace Sys2Proof.Machine

variable {s s1 s' : State} {β : Type} {g : Strand → β} {u : Nat}

/-- Every strand's g is as before. -/
structure KeepsField (g : Strand → β) (s s' : State) : Prop where
  strands : ∀ v, g (s'.strand v) = g (s.strand v)

namespace KeepsField

theorem refl (g : Strand → β) (s : State) : KeepsField g s s := ⟨fun _ => rfl⟩

theorem trans (h : KeepsField g s s1) (h' : KeepsField g s1 s') : KeepsField g s s' :=
  ⟨fun v => (h'.strands v).trans (h.strands v)⟩

theorem foldl {α : Type} {f : State → α → State} (hf : ∀ s x, KeepsField g s (f s x)) (l : List α) (s : State) :
    KeepsField g s (l.foldl f s) := by
  induction l generalizing s with
  | nil => exact refl g s
  | cons x l ih => exact (hf s x).trans (ih _)

theorem ite {c : Prop} [Decidable c] (h1 : c → KeepsField g s s1) (h2 : ¬c → KeepsField g s s') :
    KeepsField g s (if c then s1 else s') := by
  split
  · exact h1 ‹_›
  · exact h2 ‹_›

/-- Strands that are the same data. -/
theorem of_eq (h : s'.strands = s.strands) : KeepsField g s s' := ⟨fun v => by rw [State.strand, h, State.strand]⟩

theorem updStrand (s : State) (u : Nat) {f : Strand → Strand} (hf : ∀ t, g (f t) = g t) : KeepsField g s (s.updStrand u f) :=
  ⟨State.updStrand_keeps g s u f hf⟩

/-- A field that is none of the windows. -/
theorem of_strands (hg : ∀ t : Strand, g t.sansWindows = g t) (h : KeepsStrands s s') : KeepsField g s s' :=
  ⟨fun v => by rw [← hg, h.strands, hg]⟩

/-- A field that is neither run state nor trace. -/
theorem wake (hg : ∀ t r tr, g { t with run := r, trace := tr } = g t) (s : State) (u : Nat) : KeepsField g s (wake s u) := by
  refine updStrand s u fun t => ?_
  obtain ⟨tr, htr⟩ := countParked_trace s t
  split
  · rw [htr]
    exact hg t .ready tr
  · rfl

end KeepsField

/-! Waking. -/

/-- A run state from which waking leads to Ready. -/
def Run.wakes (r : Run) : Prop := r.isParked = true ∨ r = .ready

theorem wake_others (s : State) {u v : Nat} (h : v ≠ u) : (wake s u).strand v = s.strand v := by
  rw [wake, State.updStrand_strand, if_neg h]

theorem wake_ready (h : (s.strand u).run.wakes) : ((wake s u).strand u).run = .ready := by
  rcases h with hp | hr
  · cases hw : (s.strand u).run with
    | parked w => rw [wake_strand s u hw, if_pos rfl]
    | _ => rw [hw] at hp; cases hp
  · rw [wake, State.updStrand_strand, if_pos rfl, hr]
    exact hr

theorem wake_wakes {v : Nat} (h : (s.strand v).run.wakes) (u : Nat) : ((wake s u).strand v).run.wakes := by
  by_cases hv : v = u
  · subst hv
    exact .inr (wake_ready h)
  · rwa [wake_others s hv]

/-! Records, withdrawals and abandoned moves. -/

theorem KeepsStrands.migrationRec (s : State) (u kind slot core target reason bytes : Nat) :
    KeepsStrands s (migrationRec s u kind slot core target reason bytes) := ite (fun _ => traceRec ..) fun _ => refl s

/-- Claims that are taken back are the booths' and the landing slots' affair. -/
theorem claimsBack_strands (s : State) (u : Nat) (es : List (Nat × Nat)) :
    (es.foldl (init := s) fun s e => unclaim s e.1 e.2 (s.strand u).core).strands = s.strands := by
  induction es generalizing s with
  | nil => rfl
  | cons e es ih => exact ih _

/-- The claims of a redeem that is withdrawn are taken back before its strand wakes. -/
theorem ticketWithdrawal_keeps (hg : ∀ t r tr, g { t with run := r, trace := tr } = g t) (s : State) (u : Nat) :
    KeepsField g s (ticketWithdrawal s u) := by
  unfold ticketWithdrawal
  extract_lets s1
  have h1 : KeepsField g s s1 := .of_eq (claimsBack_strands ..)
  split
  · exact h1.trans (.wake hg ..)
  · exact h1

theorem ticketWithdrawal_wakes (h : (s.strand u).run.wakes) : ((ticketWithdrawal s u).strand u).run.wakes := by
  unfold ticketWithdrawal
  extract_lets s1
  have h1 : s1.strands = s.strands := claimsBack_strands ..
  have hw : (s1.strand u).run.wakes := by rwa [State.strand, h1]
  split
  · exact wake_wakes hw u
  · exact hw

theorem giveCredit_keeps (hg : ∀ t v, g { t with travel := v } = g t) (t : Strand) (due : Nat) : g (t.giveCredit due) = g t := by
  unfold Strand.giveCredit
  split
  · exact hg ..
  · rfl

theorem abandonMove_keeps (hw : ∀ t : Strand, g t.sansWindows = g t) (hg : ∀ t v, g { t with travel := v } = g t) (s : State)
    (u : Nat) : KeepsField g s (abandonMove s u) := by
  unfold abandonMove
  split
  · exact .refl g s
  · next m hm =>
    extract_lets s1 back
    have h1 : KeepsField g s s1 := .of_eq rfl
    have hback : ∀ s core, KeepsField g s (back s core) := fun s core =>
      KeepsField.trans (.updStrand s u fun t => giveCredit_keeps hg t _) (.of_strands hw (.migrationRec ..))
    clear_value back
    split
    · exact h1.trans (.ite (fun _ => hback ..) fun _ => .refl g s1)
    · exact h1.trans (KeepsField.trans (.of_eq (s := s1) (s' := s1.updCore _ _) rfl) (hback ..))

end Sys2Proof.Machine
end

section
/-! STRAND_WAKE (R103, R370). -/

namespace Sys2Proof.Machine

variable {s : State} {u : Nat} {w : Wait}

/-- Where a strand stands and what its registers hold. -/
def Strand.place (t : Strand) : Word × Tab Word := (t.pc, t.x)

theorem strandWake_unmet (h : wakeable s u = false) : strandWake s u = s := if_pos (by rw [h]; rfl)

/-- A strand whose condition is met is woken, and its tile operation is over. -/
theorem strandWake_met (hw : (s.strand u).run = .parked w) (hs : ∀ a b c d, w ≠ .shootdown a b c d) (h : wakeable s u = true)
    (hc : (s.strand u).called = false) :
    strandWake s u = (wake s u).updStrand u fun t => { t with tile := { t.tile with op := none } } := by
  unfold strandWake
  rw [if_neg (by simp [h]), if_neg (by simp [hc])]
  split
  · next hsd => exact absurd (Run.parked.inj (hw.symm.trans hsd)) (hs _ _ _ _)
  · rfl

theorem strandWake_called (hw : (s.strand u).run = .parked w) (hh : w.atHome = false) (hc : (s.strand u).called = true) :
    strandWake s u = unpark s u := by
  have hwakeable : wakeable s u = true := by simp [wakeable, hw, hh, hc]
  unfold strandWake
  rw [if_neg (by simp [hwakeable]), if_pos hc]

/-- A strand that is called back from its wait is Ready where it stood. -/
theorem unpark_spec (hw : (s.strand u).run = .parked w) :
    ((unpark s u).strand u).run = .ready ∧ KeepsField Strand.place s (unpark s u) := by
  have hwakes : (s.strand u).run.wakes := .inl (by rw [hw]; rfl)
  unfold unpark
  split
  · extract_lets both
    have hgone : KeepsField Strand.run s (abandonMove s (s.owner u)) := abandonMove_keeps (fun _ => rfl) (fun _ _ => rfl) ..
    have hall : ∀ (l : List Nat) (s : State), (s.strand u).run.wakes → ((l.foldl wake s).strand u).run.wakes := by
      intro l
      induction l with
      | nil => exact fun _ h => h
      | cons v l ih => exact fun s h => ih _ (wake_wakes h v)
    refine ⟨wake_ready (hall both _ (by rwa [hgone.strands])), ?_⟩
    have hkeep : KeepsField Strand.place s (abandonMove s (s.owner u)) := abandonMove_keeps (fun _ => rfl) (fun _ _ => rfl) ..
    exact (hkeep.trans (.foldl (fun s v => .wake (fun _ _ _ => rfl) s v) _ _)).trans (.wake (fun _ _ _ => rfl) ..)
  · extract_lets s1 s2
    have hdrop : (withdrawRequests s [u]).strands = s.strands := rfl
    have h1 : (s1.strand u).run.wakes := ticketWithdrawal_wakes (by rwa [State.strand, hdrop])
    have hk1 : KeepsField Strand.place s s1 := KeepsField.trans (.of_eq hdrop) (ticketWithdrawal_keeps (fun _ _ _ => rfl) ..)
    have hpart {β : Type} (g : Strand → β) (hg : ∀ t p, g { t with parts := p } = g t) : KeepsField g s1 s2 := by
      refine .updStrand s1 u fun t => ?_
      split
      · exact hg ..
      · rfl
    have h2 : (s2.strand u).run.wakes := by rwa [(hpart Strand.run fun _ _ => rfl).strands]
    have hk2 : KeepsField Strand.place s s2 := hk1.trans (hpart _ fun _ _ => rfl)
    clear_value s2
    refine ⟨(KeepsField.strands ?_ u).trans (wake_ready h2), (hk2.trans (.wake (fun _ _ _ => rfl) s2 u)).trans ?_⟩
    · exact .updStrand _ u fun _ => rfl
    · exact .updStrand _ u fun _ => rfl

theorem exec_strandWake (u : Nat) (s : State) : exec (.strandWake u) s = .next (strandWake s u) := rfl

/-- A strand that wakes is Ready where it stood. -/
theorem strandWake_met_spec (hw : (s.strand u).run = .parked w) (hs : ∀ a b c d, w ≠ .shootdown a b c d)
    (h : wakeable s u = true) (hc : (s.strand u).called = false) : ((strandWake s u).strand u).run = .ready ∧
      ((strandWake s u).strand u).place = (s.strand u).place ∧ (strandWake s u).mem = s.mem := by
  rw [strandWake_met hw hs h hc]
  refine ⟨?_, ?_, rfl⟩
  · rw [State.updStrand_strand, if_pos rfl]
    exact wake_ready (.inl (by rw [hw]; rfl))
  · have hkeep : KeepsField Strand.place s (wake s u) := .wake (fun _ _ _ => rfl) s u
    refine (hkeep.trans ?_).strands u
    exact .updStrand _ u fun _ => rfl

end Sys2Proof.Machine
end

section
/-! A move begins (R351-R354): what is reserved, what the credit leaves, and how its strands stop. -/

namespace Sys2Proof.Machine

variable {s : State} {m : Move} {c u v w : Nat}

/-! Kept windows give way: cores change, and nothing else. -/

theorem keptRoom_cores (s : State) (core tier : Nat) (us : List Nat) (bytes wins : Nat) :
    ∃ cs, keptRoom s core tier us bytes wins = { s with cores := cs } ∧ KeepsPosts s (keptRoom s core tier us bytes wins) := by
  unfold keptRoom
  generalize List.range 16 = is
  induction is generalizing s with
  | nil => exact ⟨s.cores, rfl, .refl s⟩
  | cons i is ih =>
    rw [List.foldl_cons]
    extract_lets kept
    split
    · split
      · next k hk =>
        obtain ⟨cs, he, hp⟩ := ih (s.updCore core fun c => { c with kept := c.kept.erase k })
        refine ⟨cs, he, KeepsPosts.trans ?_ hp⟩
        exact .updCore s core fun _ => rfl
      · exact ih s
    · exact ih s

theorem fitKept_cores (s : State) (core tier : Nat) (us : List Nat) :
    ∃ cs, fitKept s core tier us = { s with cores := cs } ∧ KeepsPosts s (fitKept s core tier us) := keptRoom_cores ..

/-! What waits for the strands is withdrawn. -/

theorem Tab.get_map_values {α : Type} (d : α) (f : α → α) (hf : f d = d) (t : Tab α) (k : Nat) :
    Tab.get d (t.map fun p => (p.1, f p.2)) k = f (Tab.get d t k) := by
  induction t with
  | nil => exact hf.symm
  | cons p t ih =>
    simp only [List.map_cons, Tab.get]
    split
    · rfl
    · exact ih

theorem KeepsPosts.withdrawRequests (s : State) (us : List Nat) : KeepsPosts s (withdrawRequests s us) := by
  have hcore : ∀ c, ((Machine.withdrawRequests s us).core c).reserved = (s.core c).reserved := fun c =>
    (congrArg Core.reserved (Tab.get_map_values Core.blank
      (fun c => { c with landers := c.landers.filter fun u => !us.contains u }) rfl s.cores c) :)
  exact congrArg (fun r => (⟨s.moves, s.module.blend, r, fun c => (s.context c).lost⟩ : Posts)) (funext hcore)

/-! A strand stops. -/

theorem atPlace_of_migrating {t : Strand} (h : t.run = .migrating) : t.atPlace = none := by
  simp [Strand.atPlace, h]

theorem Strand.atPlace_congr {t t' : Strand} (hr : t'.run = t.run) (ht : t'.trace = t.trace) : t'.atPlace = t.atPlace := by
  simp only [Strand.atPlace, hr, ht]

theorem pipeStop_keeps (s : State) (u : Nat) : KeepsButRecords s (pipeStop s u) := by
  unfold pipeStop
  split
  · exact .pipeEnd ..
  · exact .refl s

theorem pipeStop_others (h : v ≠ u) : ((pipeStop s u).strand v).sansWindows = (s.strand v).sansWindows := by
  unfold pipeStop
  split
  · unfold pipeEnd
    rw [State.updStrand_strand, if_neg h]
    exact (KeepsStrands.strandRec ..).strands v
  · rfl

/-- A strand of a unit that moves stops, unless replay holds an operation of it at its place. -/
def stopToMove (s : State) (u : Nat) : State :=
  if (s.strand u).atPlace.isSome then s else (pipeStop s u).updStrand u fun t => t.stop s .migrating

theorem stopToMove_migrating (h : (s.strand u).atPlace = none) : ((stopToMove s u).strand u).run = .migrating := by
  unfold stopToMove
  rw [if_neg (by simp [h]), State.updStrand_strand, if_pos rfl]
  rfl

theorem stopToMove_others (h : v ≠ u) : ((stopToMove s u).strand v).sansWindows = (s.strand v).sansWindows := by
  unfold stopToMove
  split
  · rfl
  · rw [State.updStrand_strand, if_neg h, pipeStop_others h]

theorem stopToMove_stays_migrating (h : (s.strand v).run = .migrating) (u : Nat) : ((stopToMove s u).strand v).run = .migrating := by
  by_cases hv : v = u
  · subst hv
    exact stopToMove_migrating (atPlace_of_migrating h)
  · exact (congrArg Strand.run (stopToMove_others hv) :).trans h

theorem stopToMove_free (h : (s.strand v).atPlace = none) (u : Nat) : ((stopToMove s u).strand v).atPlace = none := by
  by_cases hv : v = u
  · subst hv
    exact atPlace_of_migrating (stopToMove_migrating h)
  · have hstop := stopToMove_others (s := s) hv
    have hrun : ((stopToMove s u).strand v).run = (s.strand v).run := (congrArg Strand.run hstop :)
    have htrace : ((stopToMove s u).strand v).trace = (s.strand v).trace := (congrArg Strand.trace hstop :)
    rw [Strand.atPlace_congr hrun htrace, h]

/-- What a stop leaves of a strand. -/
theorem stopToMove_keeps {β : Type} {g : Strand → β} (hr : ∀ t : Strand, g t.sansRecords = g t)
    (hg : ∀ (s : State) (t : Strand), g (t.stop s .migrating) = g t) (s : State) (u : Nat) : KeepsField g s (stopToMove s u) := by
  refine .ite (fun _ => .refl g s) fun _ => ?_
  have hpipe : KeepsField g s (pipeStop s u) := ⟨(pipeStop_keeps s u).field g hr⟩
  exact hpipe.trans (.updStrand _ u (hg _))

theorem Strand.stop_keeps {β : Type} {g : Strand → β} (hg : ∀ (t : Strand) r ra ca cf ps tl tr, g { t with
    run := r, resumeAs := ra, cycleAcc := ca, cycleFrom := cf, parts := ps, tile := tl, trace := tr } = g t)
    (s : State) (t : Strand) : g (t.stop s .migrating) = g t := by
  obtain ⟨tr, htr⟩ := countParked_trace s t
  unfold Strand.stop
  rw [htr]
  exact hg t .migrating _ _ _ _ _ tr

/-- A unit none of whose strands replay holds stops as a whole. -/
theorem stopAll_migrating (us : List Nat) (s : State) (h : ∀ v ∈ us, (s.strand v).atPlace = none) :
    ∀ v ∈ us, ((us.foldl stopToMove s).strand v).run = .migrating := by
  have hstays : ∀ (l : List Nat) (s : State) (v : Nat), (s.strand v).run = .migrating →
      ((l.foldl stopToMove s).strand v).run = .migrating := by
    intro l
    induction l with
    | nil => exact fun _ _ h => h
    | cons w l ih => exact fun s v h => ih _ v (stopToMove_stays_migrating h w)
  induction us generalizing s with
  | nil => exact nofun
  | cons w us ih =>
    intro v hv
    rcases List.mem_cons.mp hv with rfl | hv
    · exact hstays us _ v (stopToMove_migrating (h v (List.mem_cons_self ..)))
    · exact ih _ (fun x hx => stopToMove_free (h x (List.mem_cons_of_mem _ hx)) w) v hv

/-! The move. -/

/-- The slots that a move reserves on a core for the unit of its strand. -/
def moveSlots (s : State) (u core : Nat) : List Nat := (s.freeSlots core).take (s.couple u).length

/-- A move with its target. -/
def Move.aimed (m : Move) (s : State) (core : Nat) : Move :=
  { m with target := some (core, moveSlots s m.uid core), since := if (s.strand m.uid).run = .migrating then m.since else s.clock }

/-- A strand whose credit is consumed: it returns at a time (R353). -/
def Strand.payCredit (t : Strand) (due : Nat) : Strand :=
  { t with travel := { t.travel with credits := t.travel.credits - 1, returns := t.travel.returns ++ [due] } }

/-- A state in which the move has its target and its slots, and its credit is paid. -/
def aimedState (s : State) (m : Move) (core : Nat) : State :=
  let s2 : State := { s.updCore core fun c => { c with reserved := c.reserved ++ moveSlots s m.uid core } with
    moves := (s.moves.filter fun x => x.uid != m.uid) ++ [m.aimed s core] }
  let s3 := fitKept s2 core (tierOfStrand s2 m.uid) (s.couple m.uid)
  if (s.strand m.uid).run = .migrating then s3
  else s3.updStrand m.uid fun t => t.payCredit (s3.time + (s3.context t.ctx).creditDelay)

theorem beginMove_eq (s : State) (m : Move) (core : Nat) : beginMove s m core =
    (s.couple m.uid).foldl stopToMove (withdrawRequests (migrationRec (aimedState s m core) m.uid 0x30 (s.strand m.uid).slot
      (s.strand m.uid).core core m.reason 0) (s.couple m.uid)) := rfl

/-- The target and the slots alone. -/
def targetState (s : State) (m : Move) (core : Nat) : State :=
  { s.updCore core fun c => { c with reserved := c.reserved ++ moveSlots s m.uid core } with
    moves := (s.moves.filter fun x => x.uid != m.uid) ++ [m.aimed s core] }

theorem targetState_posts (s : State) (m : Move) (core : Nat) : m.aimed s core ∈ (targetState s m core).moves ∧
    ((targetState s m core).core core).reserved = (s.core core).reserved ++ moveSlots s m.uid core := by
  refine ⟨List.mem_append_right _ (List.mem_singleton_self _), ?_⟩
  have hcore := State.updCore_core s core (fun c => { c with reserved := c.reserved ++ moveSlots s m.uid core }) core
  rw [if_pos rfl] at hcore
  exact (congrArg Core.reserved hcore :)

/-- With room made among the kept windows. -/
def fittedState (s : State) (m : Move) (core : Nat) : State :=
  fitKept (targetState s m core) core (tierOfStrand (targetState s m core) m.uid) (s.couple m.uid)

theorem fittedState_posts (s : State) (m : Move) (core : Nat) : KeepsPosts (targetState s m core) (fittedState s m core) :=
  (fitKept_cores ..).choose_spec.2

theorem fittedState_rest (s : State) (m : Move) (core : Nat) : (fittedState s m core).strands = s.strands ∧
    (fittedState s m core).clock = s.clock ∧ (fittedState s m core).contexts = s.contexts := by
  obtain ⟨cs, hcs, -⟩ := fitKept_cores (targetState s m core) core (tierOfStrand (targetState s m core) m.uid) (s.couple m.uid)
  unfold fittedState
  rw [hcs]
  exact ⟨rfl, rfl, rfl⟩

theorem aimedState_eq (s : State) (m : Move) (core : Nat) : aimedState s m core =
    if (s.strand m.uid).run = .migrating then fittedState s m core
    else (fittedState s m core).updStrand m.uid fun t =>
      t.payCredit ((fittedState s m core).time + ((fittedState s m core).context t.ctx).creditDelay) := rfl

theorem aimedState_fitted (s : State) (m : Move) (core : Nat) : KeepsPosts (fittedState s m core) (aimedState s m core) := by
  rw [aimedState_eq]
  exact .ite (fun _ => .refl _) fun _ => .updStrand ..

/-- The moves and the reserved slots of that state. -/
theorem aimedState_posts (s : State) (m : Move) (core : Nat) : m.aimed s core ∈ (aimedState s m core).moves ∧
    ((aimedState s m core).core core).reserved = (s.core core).reserved ++ moveSlots s m.uid core := by
  have hposts := (fittedState_posts s m core).trans (aimedState_fitted s m core)
  rw [hposts.moves, hposts.reserved]
  exact targetState_posts s m core

/-- The strands of that state: only a credit is paid. -/
theorem aimedState_strand (s : State) (m : Move) (core v : Nat) : (aimedState s m core).strand v =
    if v = m.uid ∧ (s.strand m.uid).run ≠ .migrating
    then (s.strand v).payCredit (s.time + (s.context (s.strand v).ctx).creditDelay) else s.strand v := by
  obtain ⟨hstrands, hclock, hcontexts⟩ := fittedState_rest s m core
  have hstrand : ∀ v, (fittedState s m core).strand v = s.strand v := fun v => by rw [State.strand, hstrands, State.strand]
  have htime : (fittedState s m core).time = s.time := by rw [State.time, hclock, State.time]
  have hcontext : ∀ c, (fittedState s m core).context c = s.context c := fun c => by rw [State.context, hcontexts, State.context]
  rw [aimedState_eq]
  by_cases hr : (s.strand m.uid).run = .migrating
  · rw [if_pos hr, if_neg fun h => h.2 hr, hstrand]
  · rw [if_neg hr, State.updStrand_strand]
    by_cases hv : v = m.uid
    · rw [if_pos hv, if_pos ⟨hv, hr⟩, hv, hstrand, htime, hcontext]
    · rw [if_neg hv, if_neg fun h => hv h.1, hstrand]

theorem aimedState_keeps {β : Type} {g : Strand → β} (hg : ∀ t v, g { t with travel := v } = g t) (s : State) (m : Move)
    (core : Nat) : KeepsField g s (aimedState s m core) := by
  refine ⟨fun v => ?_⟩
  rw [aimedState_strand]
  split
  · exact hg ..
  · rfl

theorem beginMove_posts (s : State) (m : Move) (core : Nat) : KeepsPosts (aimedState s m core) (beginMove s m core) := by
  rw [beginMove_eq]
  refine (KeepsPosts.migrationRec ..).trans ((KeepsPosts.withdrawRequests ..).trans (.foldl (fun s v => ?_) _ _))
  exact .ite (fun _ => .refl s) fun _ => (KeepsPosts.pipeStop s v).trans (.updStrand ..)

/-- What stopping and the record of a move leave of the strands. -/
theorem beginMove_keeps {β : Type} {g : Strand → β} (hr : ∀ t : Strand, g t.sansRecords = g t)
    (hg : ∀ (t : Strand) r ra ca cf ps tl tr, g { t with
      run := r, resumeAs := ra, cycleAcc := ca, cycleFrom := cf, parts := ps, tile := tl, trace := tr } = g t)
    (s : State) (m : Move) (core : Nat) : KeepsField g (aimedState s m core) (beginMove s m core) := by
  rw [beginMove_eq]
  have hw : ∀ t : Strand, g t.sansWindows = g t := fun t => (hr t.sansWindows).symm.trans (hr t)
  generalize hrec : migrationRec (aimedState s m core) m.uid 0x30 (s.strand m.uid).slot (s.strand m.uid).core core m.reason 0 = s1
  have h1 : KeepsField g (aimedState s m core) s1 := hrec ▸ .of_strands hw (.migrationRec ..)
  have h2 : KeepsField g s1 (withdrawRequests s1 (s.couple m.uid)) := .of_eq rfl
  refine (h1.trans h2).trans ?_
  exact .foldl (fun s v => stopToMove_keeps hr (Strand.stop_keeps hg) s v) _ _

/-- A move begins: its slots are reserved, its strands stop where they stand, and a credit is consumed. -/
theorem beginMove_spec (h : ∀ v ∈ s.couple m.uid, (s.strand v).atPlace = none) {t : State} (ht : t = beginMove s m c) :
    (t.core c).reserved = (s.core c).reserved ++ moveSlots s m.uid c ∧
    (∀ v ∈ s.couple m.uid, (t.strand v).run = .migrating ∧ (t.strand v).pc = (s.strand v).pc) ∧
    m.aimed s c ∈ t.moves ∧
    ((s.strand m.uid).run ≠ .migrating →
      (t.strand m.uid).travel.credits = (s.strand m.uid).travel.credits - 1 ∧
      (t.strand m.uid).travel.returns =
        (s.strand m.uid).travel.returns ++ [s.time + (s.context (s.strand m.uid).ctx).creditDelay]) := by
  subst ht
  obtain ⟨hmoves, hreserved⟩ := aimedState_posts s m c
  have hposts := beginMove_posts s m c
  refine ⟨by rw [hposts.reserved, hreserved], fun v hv => ⟨?_, ?_⟩, by rwa [hposts.moves], fun hr => ?_⟩
  · rw [beginMove_eq]
    refine stopAll_migrating _ _ (fun x hx => ?_) v hv
    have haim : KeepsField Strand.atPlace s (aimedState s m c) := aimedState_keeps (fun _ _ => rfl) ..
    have hrec : KeepsField Strand.atPlace (aimedState s m c) (migrationRec (aimedState s m c) m.uid 0x30 (s.strand m.uid).slot
      (s.strand m.uid).core c m.reason 0) := .of_strands (fun _ => rfl) (.migrationRec ..)
    have hdrop : ∀ s us, KeepsField Strand.atPlace s (withdrawRequests s us) := fun _ _ => .of_eq rfl
    exact (((haim.trans hrec).trans (hdrop ..)).strands x).trans (h x hx)
  · have haim : KeepsField Strand.pc s (aimedState s m c) := aimedState_keeps (fun _ _ => rfl) ..
    exact (haim.trans (beginMove_keeps (fun _ => rfl) (fun _ _ _ _ _ _ _ _ => rfl) s m c)).strands v
  · have htravel : KeepsField Strand.travel (aimedState s m c) (beginMove s m c) :=
      beginMove_keeps (fun _ => rfl) (fun _ _ _ _ _ _ _ _ => rfl) ..
    rw [htravel.strands, aimedState_strand, if_pos ⟨rfl, hr⟩]
    exact ⟨rfl, rfl⟩

end Sys2Proof.Machine
end

section
/-! A core frees, a proactive return, a credit's return and Naing's order (R351-R353, R360), and the mark of a saved unit (R394). -/

namespace Sys2Proof.Machine

variable {s : State} {u c : Nat} {m : Move}

theorem exec_migrationCoreFreed (u : Nat) (s : State) : exec (.migrationCoreFreed u) s = .next (migrationCoreFreed s u) := rfl
theorem exec_proactiveReturn (u : Nat) (s : State) : exec (.proactiveReturn u) s = .next (proactiveReturn s u) := rfl
theorem exec_creditReturn (u : Nat) (s : State) : exec (.creditReturn u) s = .next (creditReturn s u) := rfl
theorem exec_resumptionMark (u : Nat) (s : State) : exec (.resumptionMark u) s = .next (resumptionMark s u) := rfl

theorem migrationCoreFreed_waits (h : s.moves.find? (fun m => m.uid = u) = some m) (hm : movable s m = none) :
    migrationCoreFreed s u = s := by
  unfold migrationCoreFreed
  simp only [h, hm]

theorem migrationCoreFreed_begins (h : s.moves.find? (fun m => m.uid = u) = some m) (hm : movable s m = some c) :
    migrationCoreFreed s u = beginMove s m c := by
  unfold migrationCoreFreed
  simp only [h, hm]

/-! Proactive return. -/

/-- The search of a proactive return: a core of the launch class, and no other. -/
def returnMove (s : State) (u : Nat) : Move := ⟨u, 2 ^ (s.strand u).travel.launchClass, 3, s.time, none, s.clock, none, 0, 0, []⟩

/-- Why no proactive return begins before a core is sought. -/
def State.staysAway (s : State) (u : Nat) : Prop :=
  classOf s (s.strand u).core = (s.strand u).travel.launchClass ∨ (s.strand u).travel.credits < 2 ∨
    (s.strand u).run.inPlay = false ∨ s.moves.any (fun x => x.uid = u) = true

theorem proactiveReturn_stays (h : s.staysAway u) : proactiveReturn s u = s := by
  unfold State.staysAway at h
  unfold proactiveReturn
  exact if_pos (by simpa using h)

theorem proactiveReturn_seeks (h : ¬s.staysAway u) : proactiveReturn s u =
    match movable s (returnMove s u) with
    | some c => beginMove s (returnMove s u) c
    | none => s := by
  unfold State.staysAway at h
  unfold proactiveReturn
  exact if_neg (by simpa using h)

theorem proactiveReturn_waits (h : movable s (returnMove s u) = none) : proactiveReturn s u = s := by
  by_cases hs : s.staysAway u
  · exact proactiveReturn_stays hs
  · rw [proactiveReturn_seeks hs, h]

theorem proactiveReturn_begins (hs : ¬s.staysAway u) (h : movable s (returnMove s u) = some c) :
    proactiveReturn s u = beginMove s (returnMove s u) c := by
  rw [proactiveReturn_seeks hs, h]

/-! Credits. -/

theorem creditReturn_waits (h : (s.strand u).travel.returns = [] ∨
    ∃ r rest, (s.strand u).travel.returns = r :: rest ∧ s.time < r) : creditReturn s u = s := by
  unfold creditReturn
  rcases h with h | ⟨r, rest, h, hr⟩
  · simp only [h]
  · simp only [h]
    exact if_neg (by omega)

theorem creditReturn_pays {r : Nat} {rest : List Nat} (h : (s.strand u).travel.returns = r :: rest) (hr : r ≤ s.time) :
    creditReturn s u = s.updStrand u fun t =>
      { t with travel := { t.travel with credits := t.travel.credits + 1, returns := rest } } := by
  unfold creditReturn
  simp only [h]
  exact if_pos hr

/-! Naing's order. -/

/-- The search that Naing orders. -/
def orderedMove (s : State) (o mask : Nat) : Move :=
  ⟨o, mask, 4, s.time + (s.context (s.strand o).ctx).waitBound, none, s.clock, none, 0, 0, []⟩

theorem naingOrderedMove_eq (s : State) (u : Nat) (classes : BitVec 3) : naingOrderedMove s u classes =
    if classes.toNat &&& (s.strand (s.owner u)).travel.allowed = 0 ∨ (s.strand (s.owner u)).run.inPlay = false ∨
      s.moves.any (fun x => x.uid = s.owner u) = true then s
    else { s with moves := s.moves ++
      [orderedMove s (s.owner u) (classes.toNat &&& (s.strand (s.owner u)).travel.allowed)] } := by
  unfold naingOrderedMove
  exact if_congr (by simp) rfl rfl

/-! Marks of saved units. -/

/-- A saved unit that a resumption of one of its members marks. -/
def SavedUnit.markFor (u : Nat) (x : SavedUnit) : SavedUnit := if x.members.contains u then { x with marked := true } else x

theorem resumptionMark_saved (s : State) (u : Nat) : (resumptionMark s u).saved = s.saved.map (SavedUnit.markFor u) := rfl

theorem SavedUnit.markFor_others {x : SavedUnit} (h : u ∉ x.members) : x.markFor u = x := by simp [markFor, h]

theorem SavedUnit.markFor_marked {x : SavedUnit} (h : u ∈ (x.markFor u).members) : (x.markFor u).marked = true := by
  by_cases hu : u ∈ x.members
  · simp [markFor, hu]
  · rw [markFor_others hu] at h
    exact absurd h hu

end Sys2Proof.Machine
end

section
/-! MIGRATION_SEARCH_EXPIRY (R350, R352): a search ends without a core. -/

namespace Sys2Proof.Machine

variable {s : State} {u v d : Nat} {m : Move} {β : Type} {g : Strand → β}

theorem exec_migrationSearchExpiry (u : Nat) (s : State) : exec (.migrationSearchExpiry u) s = .next (migrationSearchExpiry s u) := rfl

/-! A MIGR answers. -/

theorem countIssued_keeps (hg : ∀ t : Strand, g t.uncounted = g t) (s : State) (u c : Nat) : KeepsField g s (countIssued s u c) :=
  ⟨fun v => by rw [← hg, (countIssued_spec s u c).1, hg]⟩

theorem countIssued_pc (s : State) (u c : Nat) : KeepsField Strand.pc s (countIssued s u c) := ⟨(countIssued_spec s u c).2.1⟩

/-- A strand past its MIGR, with the answer. -/
def Strand.answered (t : Strand) (d : Nat) (r : Word) : Strand := { t.setReg d r with pc := t.pc + 4 }

theorem Strand.answered_keeps (hx : ∀ t x pc, g { t with x := x, pc := pc } = g t) (t : Strand) (d : Nat) (r : Word) :
    g (t.answered d r) = g t := by
  unfold Strand.answered Strand.setReg
  split
  · exact hx t t.x _
  · exact hx t _ _

/-- A MIGR that has waited answers, and is counted at user level. -/
def answerMigr (s : State) (u d : Nat) (r : Word) : State :=
  let s := s.updStrand u fun t => t.answered d r
  if (s.strand u).firmware then s else countIssued s u 7

theorem answerMigr_counts (hg : ∀ t : Strand, g t.uncounted = g t) (s : State) (u d : Nat) (r : Word) :
    KeepsField g (s.updStrand u fun t => t.answered d r) (answerMigr s u d r) :=
  .ite (fun _ => .refl ..) fun _ => countIssued_keeps hg ..

theorem answerMigr_pc (s : State) (u d : Nat) (r : Word) : ((answerMigr s u d r).strand u).pc = (s.strand u).pc + 4 := by
  have hcount : KeepsField Strand.pc (s.updStrand u fun t => t.answered d r) (answerMigr s u d r) :=
    .ite (fun _ => .refl ..) fun _ => countIssued_pc ..
  rw [hcount.strands, State.updStrand_strand, if_pos rfl]
  rfl

theorem answerMigr_reg (s : State) (u d : Nat) (r : Word) (q : Nat) :
    ((answerMigr s u d r).strand u).reg q = if q = d ∧ q ≠ 0 then r else (s.strand u).reg q := by
  have hcount : KeepsField (Strand.reg · q) (s.updStrand u fun t => t.answered d r) (answerMigr s u d r) :=
    answerMigr_counts (fun _ => rfl) ..
  have hreg : ((s.strand u).answered d r).reg q = ((s.strand u).setReg d r).reg q := rfl
  rw [hcount.strands, State.updStrand_strand, if_pos rfl, hreg, Strand.reg_setReg]
  exact if_congr ⟨fun ⟨h, h0⟩ => ⟨h, h ▸ h0⟩, fun ⟨h, h0⟩ => ⟨h, h ▸ h0⟩⟩ rfl rfl

/-- A field that is none of those that an answer changes. -/
theorem answerMigr_keeps (hg : ∀ t : Strand, g t.uncounted = g t) (hx : ∀ t x pc, g { t with x := x, pc := pc } = g t) (s : State)
    (u d : Nat) (r : Word) : KeepsField g s (answerMigr s u d r) := by
  refine KeepsField.trans ?_ (answerMigr_counts hg s u d r)
  exact .updStrand s u fun t => Strand.answered_keeps hx t d r

/-! An instruction is emulated. -/

theorem countEmulation_keeps (hg : ∀ t v, g { t with travel := v } = g t) (s : State) (u : Nat) :
    KeepsField g s (countEmulation s u) := .foldl (fun s v => .updStrand s v fun t => hg t _) _ s

/-- What an emulation leaves of its strand, windows and the counts of its moves apart. -/
theorem emulated_field {w : InstrWord} {n : Nat} (hg : ∀ t v, g { t with travel := v } = g t)
    (hw : ∀ t : Strand, g (t.sansWindows.enterEmulation w n) = g (t.enterEmulation w n)) (s : State) (u : Nat) :
    g ((emulated s u w n).strand u) = g ((s.strand u).enterEmulation w n) := by
  have hrec : KeepsField (fun t => g (t.enterEmulation w n)) s
    (migrationRec s u 0x32 (s.strand u).slot (s.strand u).core (s.strand u).core n 0) := .of_strands hw (.migrationRec ..)
  have hcount : ∀ s u, KeepsField g s (countEmulation s u) := countEmulation_keeps hg
  unfold emulated
  rw [(hcount ..).strands, State.updStrand_strand, if_pos rfl]
  exact hrec.strands u

/-! The search ends. -/

theorem find?_of_imp {α : Type} {p q : α → Bool} {l : List α} {a : α} (h : l.find? p = some a) (hq : q a = true)
    (hqp : ∀ x, q x = true → p x = true) : l.find? q = some a := by
  rw [List.find?_eq_some_iff_append] at h ⊢
  obtain ⟨-, as, bs, hl, has⟩ := h
  refine ⟨hq, as, bs, hl, fun x hx => ?_⟩
  have hp := has x hx
  cases hqx : q x with
  | false => rfl
  | true => rw [hqp x hqx] at hp; cases hp

/-- Whether a move is a search of a strand that is over its deadline. -/
def Move.over (s : State) (u : Nat) (m : Move) : Bool :=
  m.uid = u && m.target.isNone && decide (m.deadline < s.time) && (s.strand u).run != .migrating

theorem migrationSearchExpiry_waits (h : s.moves.find? (Move.over s u) = none) : migrationSearchExpiry s u = s := by
  unfold migrationSearchExpiry
  split
  · rfl
  · next m hm => exact absurd (h.symm.trans hm) nofun

theorem couple_single (h : (s.strand u).coupled = false) : s.couple u = [u] := by simp [State.couple, h]

/-- The searches and moves of a strand are no more. -/
def State.dropSearch (s : State) (u : Nat) : State := { s with moves := s.moves.filter fun x => x.uid != u }

/-- The search of a single strand that issued it. -/
theorem migrationSearchExpiry_single {w : Nat} {b : Bool} (h : s.moves.find? (Move.over s u) = some m)
    (hc : (s.strand u).coupled = false) (hi : m.issuer = u) (hr : (s.strand u).run = .parked (.migrate w b)) :
    migrationSearchExpiry s u = match m.dest with
      | some d => answerMigr (wake (s.dropSearch u) u) u d 2
      | none => emulate (wake (s.dropSearch u) u) u m.word m.xfields 2
          (some (.migrate m.classes false)) := by
  unfold migrationSearchExpiry
  split
  · next hn => exact absurd (h.symm.trans hn) nofun
  · next m' hm =>
    obtain rfl : m = m' := Option.some.inj (h.symm.trans hm)
    extract_lets s1 waiting
    have hcouple : s1.couple u = [u] := couple_single hc
    have hrun : (s1.strand u).run = .parked (.migrate w b) := hr
    have hwaiting : waiting = [u] := by simp [waiting, hcouple, hrun]
    have hs1 : s.dropSearch u = s1 := rfl
    rw [hs1]
    clear_value waiting s1
    subst hwaiting
    rw [List.foldl_cons, List.foldl_nil]
    cases m.dest with
    | none => exact if_neg (not_not_intro hi.symm)
    | some d => exact if_neg (not_not_intro hi.symm)

/-- A MIGR whose search is over answers 2. -/
theorem migrationSearchExpiry_migr {w : Nat} {b : Bool} (h : s.moves.find? (Move.over s u) = some m)
    (hc : (s.strand u).coupled = false) (hi : m.issuer = u) (hr : (s.strand u).run = .parked (.migrate w b)) (hd : m.dest = some d)
    {t : State} (ht : t = migrationSearchExpiry s u) : (t.strand u).run = .ready ∧ (t.strand u).pc = (s.strand u).pc + 4 ∧
      ∀ r, (t.strand u).reg r = if r = d ∧ r ≠ 0 then 2 else (s.strand u).reg r := by
  rw [migrationSearchExpiry_single h hc hi hr, hd] at ht
  subst ht
  generalize hs1 : s.dropSearch u = s1
  have hstrand : s1.strand u = s.strand u := by rw [← hs1]; rfl
  have hready : ((wake s1 u).strand u).run = .ready := wake_ready (.inl (by rw [hstrand, hr]; rfl))
  have hwoken {β : Type} (g : Strand → β) (hg : ∀ t r tr, g { t with run := r, trace := tr } = g t) :
      g ((wake s1 u).strand u) = g (s.strand u) := ((KeepsField.wake hg s1 u).strands u).trans (congrArg g hstrand)
  refine ⟨?_, ?_, fun r => ?_⟩
  · have hrun : KeepsField Strand.run (wake s1 u) (answerMigr (wake s1 u) u d 2) :=
      answerMigr_keeps (fun _ => rfl) (fun _ _ _ => rfl) ..
    rw [hrun.strands, hready]
  · rw [answerMigr_pc, hwoken Strand.pc fun _ _ _ => rfl]
  · have hreg : ((wake s1 u).strand u).reg r = (s.strand u).reg r := hwoken (·.reg r) fun _ _ _ => rfl
    rw [answerMigr_reg, hreg]

/-- A class-missing trap whose search is over is emulated where its strand has a handler. -/
theorem migrationSearchExpiry_emulates {w : Nat} {b : Bool} (h : s.moves.find? (Move.over s u) = some m)
    (hc : (s.strand u).coupled = false) (hi : m.issuer = u) (hr : (s.strand u).run = .parked (.migrate w b)) (hd : m.dest = none)
    (he : (s.strand u).canEmulate m.xfields = true) {t : State} (ht : t = migrationSearchExpiry s u) :
    (t.strand u).run = .ready ∧ (t.strand u).pc = (s.strand u).emuVec ∧
      (t.strand u).uipc = (s.strand u).pc + 4 ∧
      (t.strand u).reg 24 = m.word.setWidth 64 ∧
      (t.strand u).reg 25 = (s.strand u).pc ∧ (t.strand u).reg 26 = 2 := by
  rw [migrationSearchExpiry_single h hc hi hr, hd] at ht
  subst ht
  generalize hs1 : s.dropSearch u = s1
  have hstrand : s1.strand u = s.strand u := by rw [← hs1]; rfl
  have hwoken {β : Type} (g : Strand → β) (hg : ∀ t r tr, g { t with run := r, trace := tr } = g t) :
      g ((wake s1 u).strand u) = g (s.strand u) := ((KeepsField.wake hg s1 u).strands u).trans (congrArg g hstrand)
  have hcan : ((wake s1 u).strand u).canEmulate m.xfields = true := (hwoken (·.canEmulate m.xfields) fun _ _ _ => rfl).trans he
  have hpc := hwoken Strand.pc fun _ _ _ => rfl
  have hvec := hwoken Strand.emuVec fun _ _ _ => rfl
  have hgone {β : Type} (g : Strand → β) (hg : ∀ t v, g { t with travel := v } = g t)
      (hw : ∀ t : Strand, g (t.sansWindows.enterEmulation m.word 2) = g (t.enterEmulation m.word 2)) :
      g ((emulated (wake s1 u) u m.word 2).strand u) = g (((wake s1 u).strand u).enterEmulation m.word 2) :=
    emulated_field hg hw (wake s1 u) u
  have hreg : ∀ r, ((emulated (wake s1 u) u m.word 2).strand u).reg r = (((wake s1 u).strand u).enterEmulation m.word 2).reg r :=
    fun r => hgone (·.reg r) (fun _ _ => rfl) fun _ => rfl
  rw [emulate_of_canEmulate hcan]
  refine ⟨?_, ?_, ?_, ?_, ?_, ?_⟩
  · exact hgone Strand.run (fun _ _ => rfl) fun _ => rfl
  · exact (hgone Strand.pc (fun _ _ => rfl) fun _ => rfl).trans hvec
  · exact (hgone Strand.uipc (fun _ _ => rfl) fun _ => rfl).trans (congrArg (· + 4) hpc)
  · rw [hreg]
    exact Strand.enterEmulation_x _ m.word 2 24
  · rw [hreg, ← hpc]
    exact Strand.enterEmulation_x _ m.word 2 25
  · rw [hreg]
    exact Strand.enterEmulation_x _ m.word 2 26

end Sys2Proof.Machine
end

section
/-! A lost context stays lost (R373). -/

namespace Sys2Proof.Machine

variable {s s' : State} {ctx : Nat}

/-- A context is lost. -/
def State.lostAt (s : State) (ctx : Nat) : Prop := (s.context ctx).lost = true

namespace State.lostAt

theorem of_posts (h : s.lostAt ctx) (hk : KeepsPosts s s') : s'.lostAt ctx := (hk.lost ctx).trans h

theorem of_contexts (h : s.lostAt ctx) (hc : s'.contexts = s.contexts) : s'.lostAt ctx := by
  unfold State.lostAt State.context
  rw [hc]
  exact h

theorem foldl {α : Type} {f : State → α → State} (hf : ∀ s x, s.lostAt ctx → (f s x).lostAt ctx) (l : List α)
    (h : s.lostAt ctx) : (l.foldl f s).lostAt ctx := by
  induction l generalizing s with
  | nil => exact h
  | cons x l ih => exact ih (hf s x h)

theorem dropMoves (h : s.lostAt ctx) (c : Nat) : (dropMoves s c).lostAt ctx := by
  unfold Machine.dropMoves
  extract_lets s1
  have h1 : s1.lostAt ctx := by
    refine foldl (fun s m hs => ?_) _ h
    split
    · split
      · exact hs.of_contexts rfl
      · exact hs
    · exact hs
  exact h1.of_contexts rfl

theorem finishStrand (h : s.lostAt ctx) (u : Nat) : (finishStrand s u).lostAt ctx := by
  refine of_posts (s := s.updStrand u fun t => t.over (s.cycles t)) (h.of_contexts rfl) ?_
  exact .leaveCore ..

theorem releaseReserved (h : s.lostAt ctx) (id : Nat) : (releaseReserved s id).lostAt ctx := by
  unfold Machine.releaseReserved
  extract_lets s1
  have h1 : s1.lostAt ctx := by
    refine foldl (fun s r hs => ?_) _ h
    refine foldl (fun s c hs => ?_) _ hs
    exact hs.of_contexts rfl
  exact h1.of_contexts rfl

theorem cancelCommands (h : s.lostAt ctx) (c : Nat) : (cancelCommands s c).lostAt ctx := by
  refine foldl (fun s d hs => ?_) _ h
  exact hs.of_contexts rfl

end State.lostAt

/-- A context that is lost is lost. -/
theorem loseContext_lost (s : State) (ctx sub : Nat) (v : Option Nat) : (loseContext s ctx sub v).lostAt ctx := by
  unfold loseContext
  split
  · assumption
  · extract_lets slotCore s1 s2 mine s3 s4 s5 s6
    have h2 : s2.lostAt ctx := by
      unfold State.lostAt s2
      rw [State.updContext_context, if_pos rfl]
    have hdrop : (dropMoves (withdrawRequests s2 mine) ctx).lostAt ctx :=
      State.lostAt.dropMoves (h2.of_contexts (s' := withdrawRequests s2 mine) rfl) ctx
    have h3 : s3.lostAt ctx := .foldl (fun _ v hs => hs.finishStrand v) mine hdrop
    have h4 : s4.lostAt ctx := h3.cancelCommands ctx
    have h5 : s5.lostAt ctx := by
      refine .foldl (fun s i hs => ?_) _ h4
      exact (hs.releaseReserved i).of_contexts rfl
    have h6 : s6.lostAt ctx := by
      refine .foldl (fun s q hs => ?_) _ h5
      have hplacing : (setPlacing s q none).lostAt ctx := hs.of_contexts rfl
      exact hplacing.of_posts (.queueError ..)
    clear_value s6
    exact h6.of_contexts rfl

end Sys2Proof.Machine
end
section
/-! What a carry leaves of a strand: all but its windows and its allotment (R354). -/

namespace Sys2Proof.Machine

/-- A strand apart from its windows and its allotment. -/
def Strand.carried (t : Strand) : Strand := { t with windows := [], allot := [], spoiled := [] }

/-- Every strand is as before, windows and allotments apart, and every core is of its class. -/
structure Carries (s s' : State) : Prop where
  strands : KeepsField Strand.carried s s'
  classes : ∀ c, classOf s' c = classOf s c

namespace Carries

variable {s s1 s' : State}

theorem refl (s : State) : Carries s s := ⟨.refl .., fun _ => rfl⟩

theorem trans (h : Carries s s1) (g : Carries s1 s') : Carries s s' :=
  ⟨h.strands.trans g.strands, fun c => (g.classes c).trans (h.classes c)⟩

theorem of_keeps (h : KeepsStrands s s') (g : KeepsPosts s s') : Carries s s' := ⟨.of_strands (fun _ => rfl) h, g.classOf⟩

theorem foldl {α : Type} {f : State → α → State} (hf : ∀ s x, Carries s (f s x)) (l : List α) (s : State) :
    Carries s (l.foldl f s) := by
  induction l generalizing s with
  | nil => exact refl s
  | cons x l ih => exact (hf s x).trans (ih _)

theorem ite {c : Prop} [Decidable c] (h1 : c → Carries s s1) (h2 : ¬c → Carries s s') : Carries s (if c then s1 else s') := by
  split
  · exact h1 ‹_›
  · exact h2 ‹_›

/-- Strands that are the same data, in a module that is. -/
theorem of_eq (s s' : State) (h : s'.strands = s.strands) (hm : s'.module = s.module) : Carries s s' :=
  ⟨.of_eq h, fun c => by simp only [classOf, hm]⟩

theorem updStrand (s : State) (u : Nat) {f : Strand → Strand} (hf : ∀ t, (f t).carried = t.carried) : Carries s (s.updStrand u f) :=
  ⟨.updStrand s u hf, fun _ => rfl⟩

/-- A field that is neither of the windows nor of the allotment. -/
theorem field (h : Carries s s') {β : Type} (g : Strand → β) (hg : ∀ t : Strand, g t.carried = g t) (u : Nat) :
    g (s'.strand u) = g (s.strand u) := by
  rw [← hg, h.strands.strands, hg]

/-! The steps of a carry. -/

theorem keepWindow (s : State) (u i : Nat) : Carries s (keepWindow s u i) := by
  unfold Machine.keepWindow
  extract_lets tier t w bytes s1
  have h1 : Carries s s1 := .of_eq s s1 rfl rfl
  clear_value s1
  refine h1.trans ?_
  exact .updStrand s1 u fun _ => rfl

theorem closeWindows (s : State) (u : Nat) (save : Bool) : Carries s (closeWindows s u save) := by
  refine foldl (fun s w => ?_) _ s
  extract_lets s1 s2 bare
  have h1 : Carries s s1 := foldl (fun s (jp : Nat × Nat) => of_keeps (.writeBackWindow ..) (.writeBackWindow ..)) _ s
  have h2 : Carries s1 s2 := .ite (fun _ => .keepWindow ..) fun _ => .refl s1
  clear_value s2
  refine (h1.trans h2).trans (.updStrand s2 u fun t => ?_)
  split <;> rfl

theorem reattachWindows (s : State) (u : Nat) : Carries s (reattachWindows s u) := by
  refine foldl (fun s k => ?_) _ s
  extract_lets w s1 filled
  refine ite (fun _ => ?_) fun _ => refl s
  have h1 : Carries s s1 := .of_eq s s1 rfl rfl
  clear_value s1
  refine h1.trans ?_
  exact .updStrand s1 u fun _ => rfl

end Carries

end Sys2Proof.Machine
end

section
/-! MIGRATION_CARRY_COMPLETE (R354, R355): a single strand is carried. -/

namespace Sys2Proof.Machine

variable {s s1 : State} {u core k : Nat} {slots : List Nat} {m : Move}

theorem exec_migrationCarryComplete (u : Nat) (s : State) :
    exec (.migrationCarryComplete u) s = .next (migrationCarryComplete s u) := rfl

namespace Carries

theorem saveStore {agent : Nat} {va : Word} {bs : List Byte} {n : Nat} {s s' : State}
    (h : saveStore s agent va bs n = some s') : Carries s s' := by
  induction n generalizing s va bs with
  | zero =>
    unfold Machine.saveStore at h
    split at h
    · cases h
      exact refl _
    · cases h
  | succ n ih =>
    unfold Machine.saveStore at h
    split at h
    · cases h
      exact refl _
    · split at h
      · cases h
      · next l hl =>
        extract_lets pc part at h
        split at h
        · generalize hs1 : countRequests s agent ((part.length + 127) / 128) = s1 at h
          have h1 : Carries s s1 := hs1 ▸ .of_eq s _ rfl rfl
          have h2 : Carries s1 (homeStore (stampKey s1 l part.length) l.pa part) :=
            .of_keeps ((KeepsStrands.stampKey ..).trans (.homeStore ..)) ((KeepsPosts.stampKey ..).trans (.homeStore ..))
          exact (h1.trans h2).trans (ih h)
        · cases h

theorem selfInvalidate (s : State) (core scope : Nat) : Carries s (selfInvalidate s core scope) := by
  unfold Machine.selfInvalidate
  refine ite (fun _ => refl s) fun _ => ?_
  extract_lets s1
  have h1 : Carries s s1 := .of_eq s s1 rfl rfl
  clear_value s1
  refine h1.trans (foldl (fun s v => ?_) _ s1)
  exact foldl (fun s (w : Nat × Window) => .of_keeps (.updWindow ..) (.updStrand ..)) _ s

theorem switchContext (s : State) (core ctx : Nat) : Carries s (switchContext s core ctx) :=
  ite (fun _ => refl s) fun _ => .foldl (fun _ _ => .of_keeps (.evictCopy ..) (.evictCopy ..)) _ s

theorem leaveCore (s : State) (core ctx : Nat) : Carries s (leaveCore s core ctx) := .of_keeps (.leaveCore ..) (.leaveCore ..)

theorem migrationRec (s : State) (u kind slot core target reason bytes : Nat) :
    Carries s (migrationRec s u kind slot core target reason bytes) := .of_keeps (.migrationRec ..) (.migrationRec ..)

end Carries

/-! The tile state. -/

/-- A strand that moves off an M-core leaves its tile state in its save area; where that fails, its context is lost. -/
theorem parkTiles_cases (s : State) (u target : Nat) : parkTiles s u target = s ∨
    (classOf s target ≠ 2 ∧ ∃ s' sv, Carries s s' ∧
      parkTiles s u target = s'.updStrand u fun t => { t with tileSave := some sv }) ∨
    (parkTiles s u target).lostAt (s.strand u).ctx := by
  unfold parkTiles
  extract_lets t va
  split
  · next h =>
    split
    · next s' hs => exact .inr (.inl ⟨h.2.2, s', _, .saveStore hs, rfl⟩)
    · exact .inr (.inr (loseContext_lost ..))
  · exact .inl rfl

/-- A strand without tile state in its area, or on a core of another class, has none to reload. -/
theorem reloadTiles_idle (h : (s.strand u).tileSave = none ∨ classOf s (s.strand u).core ≠ 2) : reloadTiles s u = s := by
  unfold reloadTiles
  extract_lets t
  split
  · rfl
  · next va bs hsave =>
    rcases h with h | h
    · exact absurd (h.symm.trans hsave) nofun
    · exact if_pos h

/-! The strand resumes at the core. -/

/-- A strand as it resumes. -/
def Strand.resumedAt (t : Strand) (core slot gvl : Nat) (fence : Bool) (clock : Nat) : Strand :=
  { t with
    run := t.resumeAs, core := core, slot := slot, gvl := gvl, queues := t.queues.map fun q => (q.1, q.2.rebased), fence := fence,
    parkedAt := clock, cycleFrom := clock }

theorem resumeStrand_carries (s : State) (u core k : Nat) : ∃ s' n f c, Carries s s' ∧
    Carries (s'.updStrand u fun t => t.resumedAt core k n f c) (resumeStrand s u core k) := by
  refine ⟨switchContext s core (s.strand u).ctx, grantGvl s u, unsettled s u, s.clock, .switchContext .., ?_⟩
  exact (Carries.selfInvalidate _ core 3).trans (.reattachWindows ..)

/-- A strand that has moved once more (R361). -/
def Strand.countMove (t : Strand) : Strand := { t with travel := { t.travel with mig := (t.travel.mig + 1) % 2 ^ 32 } }

/-- A strand at the end of its carry, in the slot that was reserved for it. -/
def landed (s : State) (u core k : Nat) (t : Strand) : State :=
  (leaveCore (resumeStrand s u core k) t.core t.ctx).updStrand u Strand.countMove

theorem Strand.resumedAt_carried (t : Strand) (core slot gvl : Nat) (fence : Bool) (clock : Nat) :
    (t.resumedAt core slot gvl fence clock).carried = t.carried.resumedAt core slot gvl fence clock := rfl

theorem Strand.countMove_carried (t : Strand) : t.countMove.carried = t.carried.countMove := rfl

theorem classOf_updStrand (s : State) (u : Nat) (f : Strand → Strand) (d : Nat) : classOf (s.updStrand u f) d = classOf s d := rfl

theorem landed_carried (s : State) (u core k : Nat) (t : Strand) : (∃ n f c,
    ((landed s u core k t).strand u).carried = ((s.strand u).resumedAt core k n f c).countMove.carried) ∧
    ∀ d, classOf (landed s u core k t) d = classOf s d := by
  obtain ⟨s1, n, f, c, h1, h2⟩ := resumeStrand_carries s u core k
  have h3 := h2.trans (.leaveCore _ t.core t.ctx)
  unfold landed
  refine ⟨⟨n, f, c, ?_⟩, fun d => ?_⟩
  case refine_2 => rw [classOf_updStrand, h3.classes, classOf_updStrand, h1.classes]
  have hafter := h3.strands.strands u
  rw [State.updStrand_strand, if_pos rfl, Strand.resumedAt_carried, h1.strands.strands u] at hafter
  rw [State.updStrand_strand, if_pos rfl, Strand.countMove_carried, hafter, Strand.countMove_carried, Strand.resumedAt_carried]

/-- The reservation is used up, and the move is over. -/
def State.endMove (s : State) (u core : Nat) (slots : List Nat) : State :=
  { s.updCore core fun c => { c with reserved := c.reserved.filter fun k => !slots.contains k } with
    moves := s.moves.filter fun x => x.uid != u }

/-- The MIGR that asked for the move answers. -/
def answerMove (s : State) (m : Move) (u : Nat) : State :=
  match m.dest with
  | some d => if (s.strand u).resumeAs = .ready ∧ u = m.issuer then answerMigr s u d 1 else s
  | none => s

theorem migrationCarryComplete_waits (h : s.moves.find? (fun m => m.uid = u) = some m) (ht : m.target = some (core, slots))
    (hd : (s.couple u).any (fun v => !drained s v) = true) : migrationCarryComplete s u = s := by
  have hall : (!((s.couple u).all fun v => drained s v)) = true := by simpa using hd
  unfold migrationCarryComplete
  simp only [h, ht, if_pos hall]

section
variable (h : s.moves.find? (fun m => m.uid = u) = some m) (ht : m.target = some (core, slots)) (hc : (s.strand u).coupled = false)
  (hd : drained s u = true) (hs1 : s1 = parkTiles (closeWindows s u false) u core)
include h ht hc hd hs1

theorem migrationCarryComplete_loses (hl : (s1.context (s.strand u).ctx).lost = true) : migrationCarryComplete s u = s1 := by
  subst hs1
  unfold migrationCarryComplete
  simp only [h, ht, couple_single hc, List.all_cons, List.all_nil, hd, List.foldl_cons, List.foldl_nil]
  exact if_pos hl

theorem migrationCarryComplete_single (hl : (s1.context (s.strand u).ctx).lost = false) (hk : slots = [k]) : ∃ bytes,
    migrationCarryComplete s u = reloadTiles (migrationRec (answerMove (landed (s1.endMove u core slots) u core k (s.strand u)) m u)
      u 0x31 (s.strand u).slot (s.strand u).core core m.reason bytes) u := by
  subst hk
  unfold migrationCarryComplete
  split
  · next hn => exact absurd (h.symm.trans hn) nofun
  next m' hm =>
  obtain rfl : m = m' := Option.some.inj (h.symm.trans hm)
  split
  · next hn => exact absurd (ht.symm.trans hn) nofun
  next core' slots' ht' =>
  obtain ⟨rfl, rfl⟩ : core = core' ∧ [k] = slots' := by simpa using ht.symm.trans ht'
  extract_lets us t bytes s2 s3 s4 s5 s6 s7
  have hus : us = [u] := couple_single hc
  clear_value us
  subst hus
  have h2 : s2 = s1 := hs1.symm
  clear_value s2
  subst h2
  have h4 : s4 = s2.endMove u core [k] := rfl
  clear_value s4
  have h5 : s5 = leaveCore (resumeStrand s4 u core k) t.core t.ctx := by
    simp only [s5, List.zip_cons_cons, List.zip_nil_left, List.foldl_cons, List.foldl_nil]
  clear_value s5
  have h6 : s6 = s5.updStrand u Strand.countMove := by
    unfold s6
    rw [List.foldl_cons, List.foldl_nil]
    rfl
  clear_value s6
  have h7 : s7 = answerMove s6 m u := by
    unfold s7 answerMove
    cases m.dest with
    | none => rfl
    | some d => rfl
  clear_value s7
  refine ⟨bytes, ?_⟩
  subst h7 h6 h5 h4
  rw [if_neg (by simp [hd]), if_neg (by simp [t, hl]), List.foldl_cons, List.foldl_nil]
  rfl

end

end Sys2Proof.Machine
end

section
/-! What a strand is at the end of its carry (R354, R361). -/

namespace Sys2Proof.Machine

variable {s s1 : State} {u core k d : Nat} {slots : List Nat} {m : Move} {β : Type} {g : Strand → β}

/-- A strand apart from the tile state in its save area. -/
def Strand.sansTiles (t : Strand) : Strand := { t with tileSave := none }

/-- What is carried of a strand, the tile state in its save area apart. -/
def Strand.load (t : Strand) : Strand := t.carried.sansTiles

/-- A strand before and after its drains: its load is as before, and a tile state is in its area only if it was there, or where the target's
class has none to reload. -/
structure Closed (s s1 : State) (u core : Nat) : Prop where
  load : (s1.strand u).load = (s.strand u).load
  classes : ∀ c, classOf s1 c = classOf s c
  tiles : (s1.strand u).tileSave = (s.strand u).tileSave ∨ classOf s core ≠ 2

theorem parkTiles_closed (hl : ¬(parkTiles s u core).lostAt (s.strand u).ctx) : Closed s (parkTiles s u core) u core := by
  rcases parkTiles_cases s u core with h | ⟨hc, s', sv, hs, h⟩ | h
  · rw [h]
    exact ⟨rfl, fun _ => rfl, .inl rfl⟩
  · rw [h]
    refine ⟨?_, fun c => (classOf_updStrand ..).trans (hs.classes c), .inr hc⟩
    rw [State.updStrand_strand, if_pos rfl]
    have hload := congrArg Strand.sansTiles (hs.strands.strands u)
    exact hload
  · exact absurd h hl

theorem closed_of_unlost (hs1 : s1 = parkTiles (closeWindows s u false) u core) (hl : (s1.context (s.strand u).ctx).lost = false) :
    Closed s s1 u core := by
  have hclose : Carries s (closeWindows s u false) := .closeWindows ..
  have hctx : ((closeWindows s u false).strand u).ctx = (s.strand u).ctx := hclose.field Strand.ctx (fun _ => rfl) u
  obtain ⟨hload, hclasses, htiles⟩ : Closed (closeWindows s u false) s1 u core := by
    subst hs1
    refine parkTiles_closed fun h => ?_
    rw [hctx] at h
    exact absurd (h.symm.trans hl) nofun
  refine ⟨hload.trans ?_, fun c => (hclasses c).trans (hclose.classes c), ?_⟩
  · exact congrArg Strand.sansTiles (hclose.strands.strands u)
  · rw [hclose.classes, hclose.field Strand.tileSave (fun _ => rfl) u] at htiles
    exact htiles

theorem Strand.resumedAt_sansTiles (t : Strand) (core slot gvl : Nat) (fence : Bool) (clock : Nat) :
    (t.resumedAt core slot gvl fence clock).sansTiles = t.sansTiles.resumedAt core slot gvl fence clock := rfl

theorem Strand.countMove_sansTiles (t : Strand) : t.countMove.sansTiles = t.sansTiles.countMove := rfl

theorem Strand.landed_load (t : Strand) (core slot gvl : Nat) (fence : Bool) (clock : Nat) :
    (t.resumedAt core slot gvl fence clock).countMove.load = (t.load.resumedAt core slot gvl fence clock).countMove := by
  simp only [Strand.load, Strand.countMove_carried, Strand.resumedAt_carried, Strand.countMove_sansTiles,
    Strand.resumedAt_sansTiles]

theorem Strand.landed_tileSave (t : Strand) (core slot gvl : Nat) (fence : Bool) (clock : Nat) :
    (t.resumedAt core slot gvl fence clock).countMove.tileSave = t.tileSave := rfl

theorem Strand.carried_tileSave (t : Strand) : t.carried.tileSave = t.tileSave := rfl

theorem State.endMove_strand (s : State) (u core : Nat) (slots : List Nat) (v : Nat) :
    (s.endMove u core slots).strand v = s.strand v := rfl

/-- The strand that has landed, beside what the strand was before the drains. -/
theorem Closed.landed (h : Closed s s1 u core) (slots : List Nat) (k : Nat) (t : Strand) : ∃ s2 n f c,
    s2 = landed (s1.endMove u core slots) u core k t ∧
    (∀ {β : Type} (g : Strand → β), (∀ t : Strand, g t.load = g t) →
      g (s2.strand u) = g ((s.strand u).resumedAt core k n f c).countMove) ∧
    ((s2.strand u).tileSave = (s.strand u).tileSave ∨ classOf s2 core ≠ 2) ∧ ∀ c, classOf s2 c = classOf s c := by
  obtain ⟨⟨n, f, c, hland⟩, hclasses⟩ := landed_carried (s1.endMove u core slots) u core k t
  generalize hs2 : Machine.landed (s1.endMove u core slots) u core k t = s2 at hland hclasses
  have hsame : ∀ c, classOf s2 c = classOf s c := fun c => (hclasses c).trans (h.classes c)
  have hload := congrArg Strand.sansTiles hland
  have htiles := congrArg Strand.tileSave hland
  rw [State.endMove_strand] at hload htiles
  rw [Strand.carried_tileSave, Strand.carried_tileSave, Strand.landed_tileSave] at htiles
  have hcargo : (s2.strand u).load = ((s.strand u).resumedAt core k n f c).countMove.load := by
    rw [Strand.landed_load, ← h.load, ← Strand.landed_load]
    exact hload
  refine ⟨s2, n, f, c, rfl, fun g hg => ?_, ?_, hsame⟩
  · rw [← hg, hcargo, hg]
  · rw [htiles, hsame]
    exact h.tiles

/-! The answer. -/

theorem answerMove_keeps (hg : ∀ t : Strand, g t.uncounted = g t) (hx : ∀ t x pc, g { t with x := x, pc := pc } = g t) (s : State)
    (m : Move) (u : Nat) : KeepsField g s (answerMove s m u) := by
  unfold answerMove
  split
  · exact .ite (fun _ => answerMigr_keeps hg hx ..) fun _ => .refl ..
  · exact .refl ..

theorem answerMove_classes (s : State) (m : Move) (u c : Nat) : classOf (answerMove s m u) c = classOf s c := by
  have hcount : ∀ s v, classOf (countIssued s v 7) c = classOf s c := fun s v => by
    have hmodule : (countIssued s v 7).module = s.module := (congrArg State.module (countIssued_spec s v 7).2.2.2.1 :)
    simp only [classOf, hmodule]
  unfold answerMove
  split
  · split
    · unfold answerMigr
      extract_lets s1
      split
      · rfl
      · exact hcount s1 u
    · rfl
  · rfl

theorem answerMove_none (h : m.dest = none) : answerMove s m u = s := by
  unfold answerMove
  simp only [h]

theorem answerMove_some (h : m.dest = some d) (hr : (s.strand u).resumeAs = .ready) (hi : m.issuer = u) :
    answerMove s m u = answerMigr s u d 1 := by
  unfold answerMove
  simp only [h]
  exact if_pos ⟨hr, hi.symm⟩

/-! The carry. -/

section
variable (h : s.moves.find? (fun m => m.uid = u) = some m) (ht : m.target = some (core, slots)) (hc : (s.strand u).coupled = false)
  (hd : drained s u = true) (hs1 : s1 = parkTiles (closeWindows s u false) u core)
  (hl : (s1.context (s.strand u).ctx).lost = false) (hk : slots = [k]) (htile : (s.strand u).tileSave = none ∨ classOf s core ≠ 2)
include h ht hc hd hs1 hl hk htile

/-- The strand lands with what it carried, and answers its MIGR; there is no tile state to reload. -/
theorem migrationCarryComplete_lands : ∃ s2 n f c, (∀ {β : Type} (g : Strand → β), (∀ t : Strand, g t.load = g t) →
      g (s2.strand u) = g ((s.strand u).resumedAt core k n f c).countMove) ∧
    KeepsStrands (answerMove s2 m u) (migrationCarryComplete s u) := by
  obtain ⟨bytes, hrun⟩ := migrationCarryComplete_single h ht hc hd hs1 hl hk
  obtain ⟨s2, n, f, c, hs2, hland, htiles, hclasses⟩ := (closed_of_unlost hs1 hl).landed slots k (s.strand u)
  rw [← hs2] at hrun
  have hanswer : KeepsField Strand.tileSave s2 (answerMove s2 m u) := answerMove_keeps (fun _ => rfl) (fun _ _ _ => rfl) ..
  have hcore : KeepsField Strand.core s2 (answerMove s2 m u) := answerMove_keeps (fun _ => rfl) (fun _ _ _ => rfl) ..
  have hrec : Carries (answerMove s2 m u) (migrationRec (answerMove s2 m u) u 0x31 (s.strand u).slot (s.strand u).core core
    m.reason bytes) := .migrationRec ..
  rw [reloadTiles_idle] at hrun
  · exact ⟨s2, n, f, c, hland, hrun ▸ .migrationRec ..⟩
  · rw [hrec.field Strand.tileSave (fun _ => rfl), hrec.field Strand.core (fun _ => rfl), hrec.classes, hanswer.strands,
      hcore.strands, answerMove_classes, hland Strand.core fun _ => rfl]
    rcases htiles with hsame | hclass
    · rw [hsame]
      exact htile.imp_right fun hne => by rwa [hclasses]
    · exact .inr hclass

/-- Where the strand is, and what its registers hold. -/
theorem migrationCarryComplete_spec {t : State} (hend : t = migrationCarryComplete s u) :
    (t.strand u).run = (s.strand u).resumeAs ∧
    (t.strand u).core = core ∧ (t.strand u).slot = k ∧
    (t.strand u).travel.mig = ((s.strand u).travel.mig + 1) % 2 ^ 32 ∧
    (m.dest = none → (t.strand u).pc = (s.strand u).pc ∧
      ∀ r, (t.strand u).reg r = (s.strand u).reg r) ∧
    (∀ d, m.dest = some d → (s.strand u).resumeAs = .ready → m.issuer = u →
      (t.strand u).pc = (s.strand u).pc + 4 ∧
      ∀ r, (t.strand u).reg r = if r = d ∧ r ≠ 0 then 1 else (s.strand u).reg r) := by
  subst hend
  obtain ⟨s2, n, f, c, hland, hend⟩ := migrationCarryComplete_lands h ht hc hd hs1 hl hk htile
  have hfield {β : Type} (g : Strand → β) (hg : ∀ t : Strand, g t.sansWindows = g t) :
      g ((migrationCarryComplete s u).strand u) = g ((answerMove s2 m u).strand u) := (KeepsField.of_strands hg hend).strands u
  have hkept {β : Type} (g : Strand → β) (hg : ∀ t : Strand, g t.sansWindows = g t) (hu : ∀ t : Strand, g t.uncounted = g t)
      (hx : ∀ t x pc, g { t with x := x, pc := pc } = g t) (hload : ∀ t : Strand, g t.load = g t) :
      g ((migrationCarryComplete s u).strand u) = g ((s.strand u).resumedAt core k n f c).countMove :=
    ((hfield g hg).trans ((answerMove_keeps hu hx s2 m u).strands u)).trans (hland g hload)
  refine ⟨?_, ?_, ?_, ?_, fun hn => ?_, fun d hdest hr hi => ?_⟩
  · exact hkept Strand.run (fun _ => rfl) (fun _ => rfl) (fun _ _ _ => rfl) fun _ => rfl
  · exact hkept Strand.core (fun _ => rfl) (fun _ => rfl) (fun _ _ _ => rfl) fun _ => rfl
  · exact hkept Strand.slot (fun _ => rfl) (fun _ => rfl) (fun _ _ _ => rfl) fun _ => rfl
  · exact hkept (fun t => t.travel.mig) (fun _ => rfl) (fun _ => rfl) (fun _ _ _ => rfl) fun _ => rfl
  · rw [answerMove_none hn] at hfield
    exact ⟨(hfield Strand.pc fun _ => rfl).trans (hland Strand.pc fun _ => rfl),
      fun r => (hfield (Strand.reg · r) fun _ => rfl).trans (hland (Strand.reg · r) fun _ => rfl)⟩
  · have hready : (s2.strand u).resumeAs = .ready := (hland Strand.resumeAs fun _ => rfl).trans hr
    rw [answerMove_some hdest hready hi] at hfield
    have hpc : (s2.strand u).pc = (s.strand u).pc := hland Strand.pc fun _ => rfl
    have hreg : ∀ r, (s2.strand u).reg r = (s.strand u).reg r := fun r => hland (Strand.reg · r) fun _ => rfl
    refine ⟨?_, fun r => ?_⟩
    · rw [hfield Strand.pc fun _ => rfl, answerMigr_pc, hpc]
    · rw [hfield (Strand.reg · r) fun _ => rfl, answerMigr_reg, hreg]

end

end Sys2Proof.Machine
end

section
/-! PREEMPTION_SAVE_COMPLETE (R374 steps 4 to 6): the members are Saved, and the waiting CTXSV has its answer. -/

namespace Sys2Proof.Machine

variable {s s1 s2 : State} {u v w d : Nat} {p : Preempt}

theorem exec_preemptionSaveComplete (u : Nat) (s : State) : exec (.preemptionSaveComplete u) s = .next (saveComplete s u) := rfl

/-! The members. -/

/-- The members of a unit as they are when it is saved: CYCLE stops. -/
def saveMembers (s : State) (us : List Nat) : State :=
  us.foldl (init := s) fun s v => s.updStrand v fun t => { t with run := .saved, cycleAcc := s.cycles t }

theorem saveMembers_mem (s : State) (us : List Nat) : (saveMembers s us).mem = s.mem := by
  refine foldl_mem (fun s v => ?_) us s
  exact State.updStrand_mem ..

theorem saveMembers_others {us : List Nat} (h : v ∉ us) : (saveMembers s us).strand v = s.strand v := by
  induction us generalizing s with
  | nil => rfl
  | cons x us ih =>
    obtain ⟨hx, hus⟩ := not_or.mp (mt List.mem_cons.mpr h)
    exact (ih hus).trans ((State.updStrand_strand ..).trans (if_neg hx))

theorem saveMembers_run {us : List Nat} (h : v ∈ us ∨ (s.strand v).run = .saved) : ((saveMembers s us).strand v).run = .saved := by
  induction us generalizing s with
  | nil => exact h.resolve_left List.not_mem_nil
  | cons x us ih =>
    by_cases hus : v ∈ us
    · exact ih (.inl hus)
    · refine ih (.inr ?_)
      rw [State.updStrand_strand]
      split
      · rfl
      · next hx => exact h.resolve_left fun hv => (List.mem_cons.mp hv).elim hx hus

/-! The waiting CTXSV. -/

theorem endWaiter_mem (s : State) (x : Option (Nat × Nat)) (r : Word) : (endWaiter s x r).mem = s.mem := by
  unfold endWaiter
  split
  · rfl
  · extract_lets t waits past
    split
    · rfl
    · split <;> rfl

theorem endWaiter_saved (s : State) (x : Option (Nat × Nat)) (r : Word) : (endWaiter s x r).saved = s.saved := by
  unfold endWaiter
  split
  · rfl
  · extract_lets t waits past
    split
    · rfl
    · split <;> rfl

/-- A saved strand stays Saved. -/
theorem endWaiter_run (h : (s.strand v).run = .saved) (x : Option (Nat × Nat)) (r : Word) :
    ((endWaiter s x r).strand v).run = .saved := by
  unfold endWaiter
  split
  · exact h
  · next w d =>
    extract_lets t waits past
    split
    · next hwaits =>
      have hne : v ≠ w := by
        rintro rfl
        simp [waits, t, h] at hwaits
      rw [State.updStrand_strand, if_neg hne, wake_others s hne, h]
    · split
      · have hpast : KeepsField Strand.run s (s.updStrand w fun t => { past t with resumeAs := .ready }) :=
          .updStrand s w fun t => Strand.answered_keeps (g := Strand.run) (fun _ _ _ => rfl) t d r
        exact (hpast.strands v).trans h
      · exact h

theorem endWaiter_waits {a b : Nat} (h : (s.strand w).run = .parked (.save a b)) (d : Nat) (r : Word) :
    endWaiter s (some (w, d)) r = (wake s w).updStrand w fun t => t.answered d r := by
  unfold endWaiter
  simp only [h]
  rfl

/-! The save. -/

theorem saveComplete_waits (h : s.preempts.find? (fun p => p.members.contains u) = some p) (hr : saveReady s p = false) :
    saveComplete s u = s := by
  unfold saveComplete
  simp only [h, hr]
  rfl

/-- A save that is ready, on a context that lives, into an area that takes it. -/
theorem saveComplete_saves (h : s.preempts.find? (fun p => p.members.contains u) = some p) (hr : saveReady s p = true)
    (hs1 : s1 = p.members.foldl (fun s v => closeWindows s v true) { s with preempts := s.preempts.filter (· != p) })
    (hl : (s1.context (s1.strand (p.members.headD 0)).ctx).lost = false)
    (hb : (s1.strand (p.members.headD 0)).saveBase.toNat % 4096 = 0) (hsp : ∀ v ∈ p.members, (s1.strand v).spoiled = [])
    (hsave : saveStore s1 (carouselUnit s1 (p.members.headD 0)) (s1.strand (p.members.headD 0)).saveBase
      (saveArea s1 p.members) 64 = some s2) : ∃ s3 x, KeepsStrands (saveMembers s2 p.members) s3 ∧ s3.mem = s2.mem ∧
      x.base = (s1.strand (p.members.headD 0)).saveBase ∧ x.members = p.members ∧ x.marked = false ∧
      saveComplete s u = endWaiter { s3 with saved := s3.saved ++ [x] } p.waiter 1 := by
  have hall : (p.members.all fun v => (s1.strand v).spoiled.isEmpty) = true := by simpa using hsp
  unfold saveComplete
  split
  · next hn => exact absurd (h.symm.trans hn) nofun
  next p' hp =>
  obtain rfl : p = p' := Option.some.inj (h.symm.trans hp)
  rw [if_neg (by simp [hr])]
  extract_lets us s0 s1' base ctx area tag
  have h1 : s1' = s1 := hs1.symm
  clear_value s1'
  subst h1
  have hlives : (s1'.context ctx).lost = false := hl
  have hsound : (decide (base.toNat % 4096 = 0) && us.all fun v => (s1'.strand v).spoiled.isEmpty) = true :=
    Bool.and_eq_true_iff.mpr ⟨decide_eq_true hb, hall⟩
  rw [if_neg (by rw [hlives]; exact Bool.false_ne_true), if_pos hsound]
  split
  · next hn => exact absurd (hsave.symm.trans hn) nofun
  next s2' hs2 =>
  obtain rfl : s2 = s2' := Option.some.inj (hsave.symm.trans hs2)
  extract_lets die core s3 s4
  have hkeep : KeepsStrands s3 s4 := .leaveCore ..
  have hmem : s4.mem = s2.mem := (leaveCore_mem ..).trans (saveMembers_mem s2 us)
  exact ⟨s4, _, hkeep, hmem, rfl, rfl, rfl, rfl⟩

end Sys2Proof.Machine
end

section
/-! Waking, Carousel's moves, credits and saves together. -/

namespace Sys2Proof.Machine

variable {s s1 s2 : State} {u : Nat} {m : Move} {p : Preempt}

theorem Strand.place_pc {t t' : Strand} (h : t'.place = t.place) : t'.pc = t.pc := congrArg Prod.fst h

theorem Strand.place_x {t t' : Strand} (h : t'.place = t.place) : t'.x = t.x := congrArg Prod.snd h

theorem find?_uid (h : s.moves.find? (fun m => m.uid = u) = some m) : m.uid = u := by simpa using List.find?_some h

/-- The first move of a strand is the search that is over, where it is one. -/
theorem find?_over {w : Nat} {b : Bool} (h : s.moves.find? (fun m => m.uid = u) = some m) (ht : m.target = none)
    (hd : m.deadline < s.time) (hr : (s.strand u).run = .parked (.migrate w b)) : s.moves.find? (Move.over s u) = some m := by
  refine find?_of_imp h ?_ fun x hx => ?_
  · simp [Move.over, find?_uid h, ht, hd, hr]
  · simp only [Move.over, Bool.and_eq_true] at hx
    exact hx.1.1.1

/-- The state after a save: the members are Saved, and the CTXSV that waits for them goes on. -/
theorem saved_spec {s3 : State} {x : SavedUnit} {us : List Nat} {waiter : Option (Nat × Nat)} (h : KeepsStrands (saveMembers s2 us) s3)
    {t : State} (ht : t = endWaiter { s3 with saved := s3.saved ++ [x] } waiter 1) :
    (∀ v ∈ us, (t.strand v).run = .saved) ∧
    ∀ w d a b, waiter = some (w, d) → w ∉ us → (s2.strand w).run = .parked (.save a b) →
      (t.strand w).run = .ready ∧
      (t.strand w).pc = (s2.strand w).pc + 4 ∧
      (d ≠ 0 → (t.strand w).reg d = 1) := by
  generalize hs4 : ({ s3 with saved := s3.saved ++ [x] } : State) = s4 at ht
  subst ht
  have hstrand : ∀ v, s4.strand v = s3.strand v := fun v => by rw [← hs4]; rfl
  refine ⟨fun v hv => endWaiter_run ?_ waiter 1, ?_⟩
  · rw [hstrand, h.run]
    exact saveMembers_run (.inl hv)
  · rintro w d a b rfl hw hr
    have hself {β : Type} (g : Strand → β) (hg : ∀ t : Strand, g t.sansWindows = g t) : g (s4.strand w) = g (s2.strand w) := by
      rw [hstrand, (KeepsField.of_strands hg h).strands, saveMembers_others hw]
    have hrun : (s4.strand w).run = .parked (.save a b) := (hself Strand.run fun _ => rfl).trans hr
    have hpc : ((wake s4 w).strand w).pc = (s2.strand w).pc :=
      ((KeepsField.wake (fun _ _ _ => rfl) s4 w).strands w).trans (hself Strand.pc fun _ => rfl)
    rw [endWaiter_waits hrun, State.updStrand_strand, if_pos rfl]
    refine ⟨?_, congrArg (· + 4) hpc, fun hd => ?_⟩
    · rw [Strand.answered_keeps (g := Strand.run) fun _ _ _ => rfl]
      exact wake_ready (.inl (by rw [hrun]; rfl))
    · have hreg : (((wake s4 w).strand w).answered d 1).reg d = (((wake s4 w).strand w).setReg d 1).reg d := rfl
      rw [hreg, Strand.reg_setReg, if_pos ⟨rfl, hd⟩]

end Sys2Proof.Machine

open Sys2Proof.Machine

/-- Settles O58: each event along the branches of its step. -/
theorem movesAndWakes : Obligations.MovesAndWakes := by
  unfold Obligations.MovesAndWakes
  refine ⟨fun s u => ⟨fun h => ?unmet, fun w hw hs hm hc => ?met, fun w hw hh hc => ?called⟩,
    fun s u m hm => ⟨fun hn => ?waits, fun c hc hfree => ?begins, fun hn => ?pends, fun classes cr ht hd hc hi hr =>
      ⟨fun d hdest => ?refused, fun hdest he => ?emulated⟩, fun core slots ht => ⟨fun hd => ?drains, fun s1 hc hd hs1 hl => ?loses,
        fun s1 k hc hd hk hs1 hl htile => ?lands⟩⟩,
    fun s u v hv => ⟨fun h => ?holds, fun r rest h hr => ?pays⟩,
    fun s u m hm => ⟨fun h => ?stays, fun c hs hc hfree => ?returns⟩,
    fun s u mask classes hmask => ⟨fun h => ?ignored, fun h => ?ordered⟩,
    fun s u p hp => ⟨fun hr => ?unready, fun hr s1 s2 v hv hs1 hl hb hsp hsave => ?saved⟩,
    fun s u => ?marks⟩
  case unmet => exact congrArg _ (strandWake_unmet h)
  case met =>
    obtain ⟨hrun, hplace, hmem⟩ := strandWake_met_spec hw hs hm hc
    exact ⟨_, exec_strandWake u s, hrun, Strand.place_pc hplace, Strand.place_x hplace, hmem⟩
  case called =>
    obtain ⟨hrun, hkeep⟩ := unpark_spec hw
    have hplace := hkeep.strands u
    rw [← strandWake_called hw hh hc] at hrun hplace
    exact ⟨_, exec_strandWake u s, hrun, Strand.place_pc hplace, Strand.place_x hplace⟩
  case waits => exact congrArg _ (migrationCoreFreed_waits hm hn)
  case begins =>
    obtain rfl := find?_uid hm
    obtain ⟨hreserved, hstops, hmoves, hcredit⟩ := beginMove_spec hfree (migrationCoreFreed_begins hm hc)
    exact ⟨_, _, exec_migrationCoreFreed _ s, rfl, hreserved, hstops, hmoves, hcredit⟩
  case pends => exact congrArg _ (migrationSearchExpiry_waits hn)
  case refused => exact ⟨_, exec_migrationSearchExpiry u s, migrationSearchExpiry_migr (find?_over hm ht hd hr) hc hi hr hdest rfl⟩
  case emulated =>
    exact ⟨_, exec_migrationSearchExpiry u s, migrationSearchExpiry_emulates (find?_over hm ht hd hr) hc hi hr hdest he rfl⟩
  case drains => exact congrArg _ (migrationCarryComplete_waits hm ht hd)
  case loses => exact congrArg _ (migrationCarryComplete_loses hm ht hc hd hs1 hl)
  case lands => exact ⟨_, exec_migrationCarryComplete u s, migrationCarryComplete_spec hm ht hc hd hs1 hl hk htile rfl⟩
  case holds =>
    subst hv
    exact congrArg _ (creditReturn_waits h)
  case pays =>
    subst hv
    refine ⟨_, exec_creditReturn u s, ?_⟩
    rw [creditReturn_pays h hr, State.updStrand_strand, if_pos rfl]
    exact ⟨rfl, rfl, rfl⟩
  case stays =>
    subst hm
    rw [← or_assoc, ← or_assoc, ← or_assoc] at h
    rcases h with h | h
    · exact congrArg _ (proactiveReturn_stays (by simpa [State.staysAway, or_assoc] using h))
    · exact congrArg _ (proactiveReturn_waits h)
  case returns =>
    subst hm
    obtain ⟨hreserved, hstops, -, -⟩ := beginMove_spec hfree (proactiveReturn_begins hs hc)
    exact ⟨_, exec_proactiveReturn u s, fun v hv => (hstops v hv).1, hreserved⟩
  case ignored =>
    subst hmask
    exact congrArg _ ((naingOrderedMove_eq s u classes).trans (if_pos h))
  case ordered =>
    subst hmask
    exact congrArg _ ((naingOrderedMove_eq s u classes).trans (if_neg h))
  case unready => exact congrArg _ (saveComplete_waits hp hr)
  case saved =>
    subst hv
    obtain ⟨s3, x, hkeep, hmem, hbase, hmembers, hmarked, hrun⟩ := saveComplete_saves hp hr hs1 hl hb hsp hsave
    obtain ⟨hsaved, hwaiter⟩ := saved_spec hkeep hrun
    have hend : (saveComplete s u).mem = s2.mem := by rw [hrun, endWaiter_mem, ← hmem]
    refine ⟨_, exec_preemptionSaveComplete u s, hsaved, hend, ⟨x, ?_, hbase, hmembers, hmarked⟩, hwaiter⟩
    rw [hrun, endWaiter_saved]
    exact List.mem_append_right _ (List.mem_singleton_self x)
  case marks =>
    refine ⟨_, exec_resumptionMark u s, rfl, rfl, ?_, fun x hx hu => ?_, fun x hx hu => ?_⟩
    · rw [resumptionMark_saved, List.length_map]
    · rw [resumptionMark_saved] at hx
      obtain ⟨y, -, rfl⟩ := List.mem_map.mp hx
      exact SavedUnit.markFor_marked hu
    · rw [resumptionMark_saved]
      exact List.mem_map.mpr ⟨x, hx, SavedUnit.markFor_others hu⟩

end

section
/-! The values of the integer operations: each of the model's functions, on integers or on digits, gives the operation on words
where its result is cut to their width (R63, R115-R117, R163). -/

namespace Sys2Proof.Machine

variable {w : Nat} (x y : BitVec w)

/-! Sums, products, logic and shifts. -/

theorem ofInt_toInt_add : BitVec.ofInt w (x.toInt + y.toInt) = x + y := by
  rw [BitVec.ofInt_add, BitVec.ofInt_toInt, BitVec.ofInt_toInt]

theorem ofInt_toInt_sub : BitVec.ofInt w (x.toInt - y.toInt) = x - y := by
  rw [Int.sub_eq_add_neg, BitVec.ofInt_add, BitVec.ofInt_neg, BitVec.ofInt_toInt, BitVec.ofInt_toInt, BitVec.sub_eq_add_neg]

theorem ofInt_toInt_mul : BitVec.ofInt w (x.toInt * y.toInt) = x * y := by
  rw [BitVec.ofInt_mul, BitVec.ofInt_toInt, BitVec.ofInt_toInt]

theorem ofInt_toNat : BitVec.ofInt w x.toNat = x := by
  rw [BitVec.ofInt_natCast, BitVec.ofNat_toNat, BitVec.setWidth_eq]

theorem ofInt_toInt_neg : BitVec.ofInt w (-x.toInt) = -x := by
  rw [BitVec.ofInt_neg, BitVec.ofInt_toInt]

theorem ofInt_natAbs : BitVec.ofInt w x.toInt.natAbs = if x.msb then -x else x := by
  by_cases h : x.toInt < 0
  · rw [Int.ofNat_natAbs_of_nonpos h.le, ofInt_toInt_neg, if_pos (BitVec.msb_eq_toInt ▸ decide_eq_true h)]
  · rw [Int.natAbs_of_nonneg (not_lt.mp h), BitVec.ofInt_toInt, if_neg (by simpa [BitVec.msb_eq_toInt] using h)]

theorem toInt_signExtend_mul : (x.signExtend (w + w) * y.signExtend (w + w)).toInt = x.toInt * y.toInt := by
  have hle : x.toInt * y.toInt ≤ 2 ^ (w * 2 - 2) := BitVec.toInt_mul_toInt_le
  have hge : -(2 ^ (w * 2 - 2)) ≤ x.toInt * y.toInt := BitVec.le_toInt_mul_toInt
  rw [BitVec.toInt_mul, BitVec.toInt_signExtend_of_le (by omega), BitVec.toInt_signExtend_of_le (by omega)]
  obtain rfl | hw := Nat.eq_zero_or_pos w
  · simp [BitVec.of_length_zero]
  · have hpow : (2 : Int) ^ (w + w) = 4 * 2 ^ (w * 2 - 2) := by
      rw [show w + w = w * 2 - 2 + 2 by omega, pow_add, Int.mul_comm]
      norm_num
    have hpos : (0 : Int) < 2 ^ (w * 2 - 2) := by positivity
    refine Int.bmod_eq_of_le ?_ ?_ <;> push_cast <;> rw [hpow] <;> omega

/-- The high half of a signed product. -/
theorem ofInt_mul_div_twoPow : BitVec.ofInt w (x.toInt * y.toInt / (2 ^ w : Nat)) =
    (x.signExtend (w + w) * y.signExtend (w + w)).extractLsb' w w := by
  rw [← toInt_signExtend_mul]
  generalize x.signExtend (w + w) * y.signExtend (w + w) = z
  have hhigh : z.extractLsb' w w = (z.sshiftRight w).signExtend w := by
    rw [BitVec.signExtend_eq_setWidth_of_le _ (by omega)]
    refine BitVec.eq_of_getLsbD_eq fun i hi => ?_
    rw [BitVec.getLsbD_extractLsb', BitVec.getLsbD_setWidth, BitVec.getLsbD_sshiftRight]
    simp [hi, show ¬ w + w ≤ i by omega]
  rw [hhigh, ← Int.shiftRight_eq_div_pow, ← BitVec.toInt_sshiftRight, BitVec.signExtend]

/-- The high half of a natural product. -/
theorem ofInt_mul_div_twoPow_nat : BitVec.ofInt w ((x.toNat * y.toNat / 2 ^ w : Nat) : Int) =
    (x.setWidth (w + w) * y.setWidth (w + w)).extractLsb' w w := by
  have hlt : x.toNat * y.toNat < 2 ^ (w + w) := by
    rw [Nat.pow_add]
    exact Nat.mul_lt_mul'' x.isLt y.isLt
  apply BitVec.eq_of_toNat_eq
  rw [BitVec.ofInt_natCast, BitVec.extractLsb'_toNat, BitVec.toNat_mul, BitVec.toNat_setWidth_of_le (by omega),
    BitVec.toNat_setWidth_of_le (by omega), Nat.mod_eq_of_lt hlt, Nat.shiftRight_eq_div_pow, BitVec.toNat_ofNat]

theorem ofInt_shiftLeft (n : Nat) : BitVec.ofInt w ((x.toNat * 2 ^ n : Nat) : Int) = x <<< n := by
  apply BitVec.eq_of_toNat_eq
  rw [BitVec.ofInt_natCast, BitVec.toNat_ofNat, BitVec.toNat_shiftLeft, Nat.shiftLeft_eq]

theorem ofInt_ushiftRight (n : Nat) : BitVec.ofInt w ((x.toNat / 2 ^ n : Nat) : Int) = x >>> n := by
  rw [← Nat.shiftRight_eq_div_pow, ← BitVec.toNat_ushiftRight, ofInt_toNat]

theorem ofInt_sshiftRight (n : Nat) : BitVec.ofInt w (x.toInt / (2 ^ n : Nat)) = x.sshiftRight n := by
  rw [← Int.shiftRight_eq_div_pow, ← BitVec.toInt_sshiftRight, BitVec.ofInt_toInt]

/-- A rotation brings the high part of a word down and its low part up. -/
theorem ofInt_rotr {n : Nat} (hn : n < w) : BitVec.ofInt w (rotr w x n) = x.rotateRight n := by
  have hsplit : 2 ^ n * 2 ^ (w - n) = 2 ^ w := by rw [← Nat.pow_add, Nat.add_sub_cancel' hn.le]
  have hhigh : x.toNat / 2 ^ n < 2 ^ (w - n) := Nat.div_lt_of_lt_mul (hsplit ▸ x.isLt)
  have hlow : x.toNat * 2 ^ (w - n) % 2 ^ w = (x.toNat % 2 ^ n) <<< (w - n) := by
    rw [← hsplit, Nat.mul_mod_mul_right, Nat.shiftLeft_eq]
  apply BitVec.eq_of_toNat_eq
  rw [BitVec.ofInt_natCast, BitVec.toNat_ofNat, rotr, Nat.mod_mod, ← Nat.add_mod_mod, hlow, Nat.add_comm,
    Nat.shiftLeft_add_eq_or_of_lt hhigh, BitVec.toNat_rotateRight, Nat.mod_eq_of_lt hn, Nat.shiftRight_eq_div_pow,
    Nat.shiftLeft_eq x.toNat, hlow, Nat.or_comm, Nat.mod_eq_of_lt]
  rw [← hlow]
  exact Nat.or_lt_two_pow (hhigh.trans_le (Nat.pow_le_pow_right two_pos (by omega))) (Nat.mod_lt _ (by positivity))

/-! Choices and comparisons. -/

theorem ofInt_ite_toInt (p : Prop) [Decidable p] : BitVec.ofInt w (if p then y.toInt else x.toInt) = if p then y else x := by
  rw [apply_ite (BitVec.ofInt w), BitVec.ofInt_toInt, BitVec.ofInt_toInt]

theorem ofInt_ite_one (p : Prop) [Decidable p] : BitVec.ofInt w (if p then 1 else 0) = if p then 1 else 0 := by
  rw [apply_ite (BitVec.ofInt w)]
  rfl

theorem ofInt_ite_toNat (p : Prop) [Decidable p] :
    BitVec.ofInt w ((if p then y.toNat else x.toNat : Nat) : Int) = if p then y else x := by
  rw [← apply_ite BitVec.toNat, ofInt_toNat]

theorem ofInt_ite_toNat' (p : Prop) [Decidable p] :
    BitVec.ofInt w (if p then (y.toNat : Int) else x.toNat) = if p then y else x := by
  rw [apply_ite (BitVec.ofInt w), ofInt_toNat, ofInt_toNat]

/-! Counts of bits, and reversals. -/

theorem clzAuxRec_eq_leadZeros {n : Nat} (hn : n < w) : x.clzAuxRec n = BitVec.ofNat w (w - 1 - n + leadZeros x (n + 1)) := by
  induction n with
  | zero =>
    rw [BitVec.clzAuxRec_zero, leadZeros]
    split
    · rfl
    · rw [leadZeros, show w - 1 - 0 + (1 + 0) = w by omega]
  | succ n ih =>
    rw [BitVec.clzAuxRec_succ, leadZeros]
    split
    · rfl
    · rw [ih (by omega), show w - 1 - (n + 1) + (1 + leadZeros x (n + 1)) = w - 1 - n + leadZeros x (n + 1) by omega]

theorem ofInt_leadZeros : BitVec.ofInt w (leadZeros x w) = x.clz := by
  obtain rfl | hw := Nat.eq_zero_or_pos w
  · exact Subsingleton.elim _ _
  · rw [BitVec.ofInt_natCast, BitVec.clz, clzAuxRec_eq_leadZeros x (by omega), Nat.sub_self, Nat.zero_add,
      Nat.sub_add_cancel hw]

/-- The trailing zero bits of a word are the leading ones of its reverse. -/
theorem trailZeros_eq_leadZeros {i n : Nat} (h : i + n = w) : trailZeros x i n = leadZeros x.reverse n := by
  induction n generalizing i with
  | zero => rfl
  | succ n ih =>
    have hbit : x.reverse.getLsbD n = x.getLsbD i := by
      rw [BitVec.getLsbD_reverse, BitVec.getMsbD_eq_getLsbD]
      simp [show n < w by omega, show w - 1 - n = i by omega]
    rw [trailZeros, leadZeros, hbit, ih (by omega)]

theorem ofInt_trailZeros : BitVec.ofInt w (trailZeros x 0 w) = x.reverse.clz := by
  rw [trailZeros_eq_leadZeros x (Nat.zero_add w), ofInt_leadZeros]

theorem popCount_eq_countP (n : Nat) : popCount x n = (List.range n).countP x.getLsbD := by
  induction n with
  | zero => rfl
  | succ n ih => rw [popCount, ih, List.range_succ, List.countP_append, List.countP_singleton, Nat.add_comm]

theorem ofInt_popCount : BitVec.ofInt w (popCount x w) = BitVec.ofNat w ((List.range w).countP x.getLsbD) := by
  rw [BitVec.ofInt_natCast, popCount_eq_countP]

/-- Bits taken from the lowest up stand in the reverse order. -/
theorem testBit_foldl_bits (n j : Nat) :
    ((List.range n).foldl (fun r i => 2 * r + (if x.getLsbD i then 1 else 0)) 0).testBit j =
      (decide (j < n) && x.getLsbD (n - 1 - j)) := by
  induction n generalizing j with
  | zero => simp
  | succ n ih =>
    rw [List.range_succ, List.foldl_append, List.foldl_cons, List.foldl_nil]
    cases j with
    | zero => cases h : x.getLsbD n <;> simp [Nat.testBit_zero, h]
    | succ j =>
      have hhalf (r : Nat) : (2 * r + (if x.getLsbD n then 1 else 0)) / 2 = r := by split <;> omega
      rw [Nat.testBit_succ, hhalf, ih, show n + 1 - 1 - (j + 1) = n - 1 - j by omega]
      simp

theorem ofInt_bitReverse : BitVec.ofInt w (bitReverse w x) = x.reverse := by
  apply BitVec.eq_of_getLsbD_eq
  intro j hj
  rw [BitVec.ofInt_natCast, BitVec.getLsbD_ofNat, bitReverse, testBit_foldl_bits, BitVec.getLsbD_reverse,
    BitVec.getMsbD_eq_getLsbD]
  simp [hj]

/-- Bytes taken from the lowest up stand in the reverse order. -/
theorem foldl_bytes_eq_sum (f : Nat → Nat) (n : Nat) : (List.range n).foldl (fun r i => 256 * r + f i) 0 =
    ((List.range n).map fun i => f i * 256 ^ (n - 1 - i)).sum := by
  induction n with
  | zero => rfl
  | succ n ih =>
    have hshift : ((List.range n).map fun i => f i * 256 ^ (n + 1 - 1 - i)) =
        (List.range n).map fun i => 256 * (f i * 256 ^ (n - 1 - i)) := by
      refine List.map_congr_left fun i hi => ?_
      rw [show n + 1 - 1 - i = n - 1 - i + 1 by have := List.mem_range.mp hi; omega, Nat.pow_succ]
      ring
    rw [List.range_succ, List.foldl_append, ih, List.map_append, List.sum_append, hshift, List.sum_map_mul_left]
    simp

theorem byteReverse_eq_byteSwap : byteReverse (w / 8) x.toNat = BitVec.ofNat 64 (byteSwap w x) := by
  have hpow (i : Nat) : 2 ^ (8 * i) = 256 ^ i := by rw [Nat.pow_mul]
  rw [byteReverse, byteSwap, foldl_bytes_eq_sum]
  simp only [hpow]

theorem ofInt_byteSwap (hw : w ≤ 64) : BitVec.ofInt w (byteSwap w x) = (byteReverse (w / 8) x.toNat).setWidth w := by
  rw [byteReverse_eq_byteSwap, BitVec.setWidth_ofNat_of_le hw, BitVec.ofInt_natCast]

/-! The ends of the range, and saturation. -/

theorem ofInt_intMax : BitVec.ofInt w (2 ^ (w - 1) - 1) = BitVec.intMax w := by
  rw [← BitVec.toInt_intMax, BitVec.ofInt_toInt]

theorem ofInt_intMin (hw : 0 < w) : BitVec.ofInt w (-2 ^ (w - 1)) = BitVec.intMin w := by
  rw [← BitVec.toInt_intMin_of_pos hw, BitVec.ofInt_toInt]

theorem satOp_eq_clamps (hw : 0 < w) (f : Int → Int → Int) (a b d : Nat) :
    satOp w f a b d = clamps w (f (BitVec.ofNat w a).toInt (BitVec.ofNat w b).toInt) := by
  simp only [satOp, clamps, Nat.cast_pow, Nat.cast_ofNat, ofInt_intMax, ofInt_intMin hw]

/-! Division. -/

theorem ofInt_ndiv : BitVec.ofInt w (ndiv w x y) = if y = 0 then BitVec.allOnes w else x / y := by
  have hzero : y.toNat = 0 ↔ y = 0 := by simp [← BitVec.toNat_inj]
  rw [ndiv, apply_ite (BitVec.ofInt w)]
  refine if_congr hzero ?_ ?_
  · rw [← Nat.cast_pred (by positivity), ← BitVec.toNat_allOnes, ofInt_toNat]
  · rw [← BitVec.toNat_udiv, ofInt_toNat]

theorem ofInt_nrem : BitVec.ofInt w (nrem w x y) = if y = 0 then x else x % y := by
  have hzero : y.toNat = 0 ↔ y = 0 := by simp [← BitVec.toNat_inj]
  rw [nrem, apply_ite (BitVec.ofInt w), ofInt_toNat, ← BitVec.toNat_umod, ofInt_toNat]
  exact if_congr hzero rfl rfl

/-- The quotient that overflows. -/
theorem overflows_iff (hw : 0 < w) : (x.toInt = -2 ^ (w - 1) ∧ y.toInt = -1) ↔ (x = BitVec.intMin w ∧ y = BitVec.allOnes w) := by
  rw [← BitVec.toInt_inj, ← BitVec.toInt_inj, BitVec.toInt_intMin_of_pos hw, BitVec.toInt_allOnes, if_pos hw]

theorem ofInt_sdiv (hw : 0 < w) : BitVec.ofInt w (sdiv w x y) = divides w x y := by
  have hzero : y.toInt = 0 ↔ y = 0 := by simp [← BitVec.toInt_inj]
  have hsign : 0 ≤ x.toInt ↔ ¬ x.msb = true := by simp [BitVec.msb_eq_toInt]
  have hquot : BitVec.ofInt w (Int.tdiv x.toInt y.toInt) = x.sdiv y := by
    rw [← BitVec.toInt_inj, BitVec.toInt_ofInt, BitVec.toInt_sdiv]
  simp only [sdiv, divides, apply_ite (BitVec.ofInt w), Nat.cast_pow, Nat.cast_ofNat, hzero, hsign, overflows_iff x y hw,
    ofInt_intMax, ofInt_intMin hw, hquot, ite_not]

theorem ofInt_srem (hw : 0 < w) : BitVec.ofInt w (srem w x y) = remains w x y := by
  have hzero : y.toInt = 0 ↔ y = 0 := by simp [← BitVec.toInt_inj]
  have hnone : BitVec.ofInt w 0 = 0 := BitVec.ofInt_ofNat w 0
  simp only [srem, remains, apply_ite (BitVec.ofInt w), Nat.cast_pow, Nat.cast_ofNat, hzero, overflows_iff x y hw, hnone,
    ← BitVec.toInt_srem, BitVec.ofInt_toInt]

end Sys2Proof.Machine
end

section
/-! The scalar ALU and the immediates: an instruction that reads scalar operands and writes a value of them (R115-R119). -/

namespace Sys2Proof.Machine

variable {s s1 e : State} {d : BitVec 6}

/-- An effect that changes scalar state alone and goes on to the next word completes there. -/
theorem scalarOnly_completes {i : Instr} {f : Form} {body : M Flow} (hx : exec i s = insn f body s) (hc : f.check s = none)
    (hb : body s = .ok .seq e) (hs : ScalarOnly d s e) : completesWith i s e (s.me.pc + 4) := by
  have hpc : (e.strand s.cur).pc = s.me.pc := hs.cur ▸ hs.pc
  exact insn_completes hx hc hb (.inl ⟨rfl, by rw [hpc]⟩)

/-- The result of a form of 64 or of 32 bits, from those of each width. -/
theorem aluResult_eq_aluValue (t : BitVec 1) {v : Nat → Int} {r64 : Word} {r32 : BitVec 32} (h64 : BitVec.ofInt 64 (v 64) = r64)
    (h32 : BitVec.ofInt 32 (v 32) = r32) : aluResult (aluWidth t) (v (aluWidth t)) = aluValue t r64 r32 := by
  subst h64 h32
  obtain rfl | rfl := BitVec.eq_zero_or_eq_one t
  · exact BitVec.ofInt_toInt
  · rfl

/-- An instruction that is `alu2` computes its function, cut to each width. -/
theorem alu2_computes {i : BitVec 6 → BitVec 6 → BitVec 6 → BitVec 1 → BitVec 1 → Instr} {classes : Nat}
    {f : (w : Nat) → BitVec w → BitVec w → Int} {r64 : Word → Word → Word} {r32 : BitVec 32 → BitVec 32 → BitVec 32}
    {code : BitVec 5} {xs : BitVec 6 → BitVec 6 → BitVec 6 → List Nat}
    (hx : ∀ d a b t sy s, exec (i d a b t sy) s = insn (classedForm (fr 1 d a b code (0#1 ++ t) sy)
      [.data d 1 true, syncOpnd a sy, .data b 1 false] classes (xs d a b)) (alu2 d a b t sy f) s)
    (h64 : ∀ x y, BitVec.ofInt 64 (f 64 x y) = r64 x y) (h32 : ∀ x y, BitVec.ofInt 32 (f 32 x y) = r32 x y) :
    computes2 i classes r64 r32 := by
  intro s s1 s2 e d a b t sy x y hops hcl h1 h2 h3
  have hwrite : ScalarOnly d s e := ((readSync_only h1).trans (readX_only h2)).trans (writeX_only h3)
  have hb : alu2 d a b t sy f s = .ok .seq e := by
    rw [← aluResult_eq_aluValue t (v := fun w => f w (x.setWidth w) (y.setWidth w)) (by rw [h64]; simp) (h32 ..)] at h3
    rw [alu2, run_bind_ok h1, run_bind_ok h2]
    exact run_bind_ok h3
  exact ⟨scalarOnly_completes (hx ..) (check_classedForm hops hcl) hb hwrite, hwrite⟩

/-- An instruction that is `alu1` computes its function, cut to each width. -/
theorem alu1_computes {i : BitVec 6 → BitVec 6 → BitVec 1 → BitVec 1 → Instr} {f : (w : Nat) → BitVec w → Int}
    {r64 : Word → Word} {r32 : BitVec 32 → BitVec 32} {b : BitVec 6} {code : BitVec 5}
    (hx : ∀ d a t sy s, exec (i d a t sy) s = insn { word := fr 1 d a b code (0#1 ++ t) sy, ops := [.data d 1 true, syncOpnd a sy] }
      (alu1 d a t sy f) s)
    (h64 : ∀ x, BitVec.ofInt 64 (f 64 x) = r64 x) (h32 : ∀ x, BitVec.ofInt 32 (f 32 x) = r32 x) : computes1 i r64 r32 := by
  intro s s1 e d a t sy x hops h1 h2
  have hwrite : ScalarOnly d s e := (readSync_only h1).trans (writeX_only h2)
  have hb : alu1 d a t sy f s = .ok .seq e := by
    rw [← aluResult_eq_aluValue t (v := fun w => f w (x.setWidth w)) (by rw [h64]; simp) (h32 ..)] at h2
    rw [alu1, run_bind_ok h1]
    exact run_bind_ok h2
  exact ⟨scalarOnly_completes (hx ..) (check_plainForm hops) hb hwrite, hwrite⟩

end Sys2Proof.Machine

open Sys2Proof.Machine

/-- Settles O1: each form is `alu1` or `alu2` at its function, which gives the operation on words of 64 and of 32 bits. -/
theorem aluFunctions : Obligations.AluFunctions := by
  unfold Obligations.AluFunctions
  refine ⟨⟨?add, ?sub, ?mul, ?mulh, ?mulhn⟩, ⟨?and, ?or, ?xor, ?andn, ?sll, ?srl, ?sra, ?rotr, fun h => ⟨?slli, ?srli, ?srai⟩⟩,
    ⟨?min, ?max, ?minn, ?maxn, ?slt, ?sltn, ?seq, ?clz, ?ctz, ?popc, ?brev, ?bswap⟩, ?div, ?rem, ?divn, ?remn⟩
  case add => exact alu2_computes (fun _ _ _ _ _ _ => rfl) ofInt_toInt_add ofInt_toInt_add
  case sub => exact alu2_computes (fun _ _ _ _ _ _ => rfl) ofInt_toInt_sub ofInt_toInt_sub
  case mul => exact alu2_computes (fun _ _ _ _ _ _ => rfl) ofInt_toInt_mul ofInt_toInt_mul
  case mulh => exact alu2_computes (fun _ _ _ _ _ _ => rfl) ofInt_mul_div_twoPow ofInt_mul_div_twoPow
  case mulhn => exact alu2_computes (fun _ _ _ _ _ _ => rfl) ofInt_mul_div_twoPow_nat ofInt_mul_div_twoPow_nat
  case and => exact alu2_computes (fun _ _ _ _ _ _ => rfl) (fun _ _ => ofInt_toNat _) fun _ _ => ofInt_toNat _
  case or => exact alu2_computes (fun _ _ _ _ _ _ => rfl) (fun _ _ => ofInt_toNat _) fun _ _ => ofInt_toNat _
  case xor => exact alu2_computes (fun _ _ _ _ _ _ => rfl) (fun _ _ => ofInt_toNat _) fun _ _ => ofInt_toNat _
  case andn => exact alu2_computes (fun _ _ _ _ _ _ => rfl) (fun _ _ => ofInt_toNat _) fun _ _ => ofInt_toNat _
  case sll => exact alu2_computes (fun _ _ _ _ _ _ => rfl) (fun x _ => ofInt_shiftLeft x _) fun x _ => ofInt_shiftLeft x _
  case srl => exact alu2_computes (fun _ _ _ _ _ _ => rfl) (fun x _ => ofInt_ushiftRight x _) fun x _ => ofInt_ushiftRight x _
  case sra => exact alu2_computes (fun _ _ _ _ _ _ => rfl) (fun x _ => ofInt_sshiftRight x _) fun x _ => ofInt_sshiftRight x _
  case rotr =>
    exact alu2_computes (fun _ _ _ _ _ _ => rfl) (fun x _ => ofInt_rotr x (Nat.mod_lt _ (by decide)))
      fun x _ => ofInt_rotr x (Nat.mod_lt _ (by decide))
  case slli =>
    exact alu1_computes (fun _ _ _ _ _ => rfl) (fun x => by rw [ofInt_shiftLeft, Nat.mod_eq_of_lt h.isLt])
      fun x => ofInt_shiftLeft x _
  case srli =>
    exact alu1_computes (fun _ _ _ _ _ => rfl) (fun x => by rw [ofInt_ushiftRight, Nat.mod_eq_of_lt h.isLt])
      fun x => ofInt_ushiftRight x _
  case srai =>
    exact alu1_computes (fun _ _ _ _ _ => rfl) (fun x => by rw [ofInt_sshiftRight, Nat.mod_eq_of_lt h.isLt])
      fun x => ofInt_sshiftRight x _
  case min =>
    refine alu2_computes (fun _ _ _ _ _ _ => rfl) (fun x y => ?_) fun x y => ?_ <;>
      simp only [ofInt_ite_toInt, BitVec.slt_iff_toInt_lt]
  case max =>
    refine alu2_computes (fun _ _ _ _ _ _ => rfl) (fun x y => ?_) fun x y => ?_ <;>
      simp only [ofInt_ite_toInt, BitVec.slt_iff_toInt_lt]
  case minn => exact alu2_computes (fun _ _ _ _ _ _ => rfl) (fun _ _ => ofInt_ite_toNat ..) fun _ _ => ofInt_ite_toNat ..
  case maxn => exact alu2_computes (fun _ _ _ _ _ _ => rfl) (fun _ _ => ofInt_ite_toNat ..) fun _ _ => ofInt_ite_toNat ..
  case slt =>
    refine alu2_computes (fun _ _ _ _ _ _ => rfl) (fun x y => ?_) fun x y => ?_ <;>
      simp only [ofInt_ite_one, BitVec.slt_iff_toInt_lt]
  case sltn => exact alu2_computes (fun _ _ _ _ _ _ => rfl) (fun _ _ => ofInt_ite_one _) fun _ _ => ofInt_ite_one _
  case seq => exact alu2_computes (fun _ _ _ _ _ _ => rfl) (fun _ _ => ofInt_ite_one _) fun _ _ => ofInt_ite_one _
  case clz => exact alu1_computes (fun _ _ _ _ _ => rfl) ofInt_leadZeros ofInt_leadZeros
  case ctz => exact alu1_computes (fun _ _ _ _ _ => rfl) ofInt_trailZeros ofInt_trailZeros
  case popc => exact alu1_computes (fun _ _ _ _ _ => rfl) ofInt_popCount ofInt_popCount
  case brev => exact alu1_computes (fun _ _ _ _ _ => rfl) ofInt_bitReverse ofInt_bitReverse
  case bswap =>
    exact alu1_computes (fun _ _ _ _ _ => rfl) (fun x => (ofInt_byteSwap x (by decide)).trans (BitVec.setWidth_eq _))
      fun x => ofInt_byteSwap x (by decide)
  case div =>
    exact alu2_computes (fun _ _ _ _ _ _ => rfl) (fun x y => ofInt_sdiv x y (by decide)) fun x y => ofInt_sdiv x y (by decide)
  case rem =>
    exact alu2_computes (fun _ _ _ _ _ _ => rfl) (fun x y => ofInt_srem x y (by decide)) fun x y => ofInt_srem x y (by decide)
  case divn => exact alu2_computes (fun _ _ _ _ _ _ => rfl) ofInt_ndiv ofInt_ndiv
  case remn => exact alu2_computes (fun _ _ _ _ _ _ => rfl) ofInt_nrem ofInt_nrem

end

section
/-! The immediates (R118, R119). -/

namespace Sys2Proof.Machine

variable {s e : State} {d : BitVec 6}

/-- An instruction that is `imm2` computes its function of the sign-extended immediate. -/
theorem imm2_computes {i : BitVec 6 → BitVec 6 → BitVec 14 → Instr} {r : Word → Word → Word} {major : BitVec 6}
    (hx : ∀ d a m s, exec (i d a m) s =
      insn { word := fi major d a m, ops := [.data d 1 true, .data a 1 false] } (imm2 d a m r) s) : computesImm i r := by
  intro s s1 e d a m x hops h1 h2
  have hwrite : ScalarOnly d s e := (readX_only h1).trans (writeX_only h2)
  have hb : imm2 d a m r s = .ok .seq e := by
    rw [imm2, run_bind_ok h1]
    exact run_bind_ok h2
  exact ⟨scalarOnly_completes (hx ..) (check_plainForm hops) hb hwrite, hwrite⟩

theorem upperImm_eq_mul (m : BitVec 20) : upperImm m = m.signExtend 64 * 16384 := by
  rw [upperImm, BitVec.shiftLeft_eq_mul_twoPow]
  rfl

/-- An instruction whose effect is one write of a data operand completes past it. -/
theorem writeX_completes {i : Instr} {w : InstrWord} {body : M Unit} {v : Word}
    (hx : exec i s = insn { word := w, ops := [.data d 1 true] } (seq body) s) (hb : body s = writeX d v s)
    (hops : admitted s [.data d 1 true]) (h : answers (writeX d v) s () e) :
    completesWith i s e (s.me.pc + 4) ∧ ScalarOnly d s e :=
  ⟨scalarOnly_completes hx (check_plainForm hops) (run_bind_ok (hb.trans h)) (writeX_only h), writeX_only h⟩

end Sys2Proof.Machine

open Sys2Proof.Machine

/-- Settles O2: each immediate form is `imm2` at its function, and the upper immediates write one value. -/
theorem immediates : Obligations.Immediates := by
  unfold Obligations.Immediates
  refine ⟨?addi, ?andi, ?ori, ?xori, ?slti, ?sltni, fun s e d m hops => ?upper⟩
  case addi => exact imm2_computes fun _ _ _ _ => rfl
  case andi => exact imm2_computes fun _ _ _ _ => rfl
  case ori => exact imm2_computes fun _ _ _ _ => rfl
  case xori => exact imm2_computes fun _ _ _ _ => rfl
  case slti => exact imm2_computes fun _ _ _ _ => rfl
  case sltni => exact imm2_computes fun _ _ _ _ => rfl
  case upper =>
    rw [← upperImm_eq_mul]
    have hlui : exec (.lui d m) s = execLui d m s := rfl
    have hauipc : exec (.auipc d m) s = execAuipc d m s := rfl
    exact ⟨writeX_completes hlui rfl hops, writeX_completes hauipc (run_bind_ok (run_me s)) hops⟩

end

section
/-! Full bits, and XPUT (R114, R140, R148, R149). -/

namespace Sys2Proof.Machine

variable {s e : State} {d a : BitVec 6} {p : Nat}

/-- Setting a bit of the full bits leaves the others. -/
theorem getLsbD_setBit (x : BitVec 32) {n : Nat} (hn : n < 32) (k : Nat) :
    (x ||| BitVec.ofNat 32 (2 ^ n)).getLsbD k = (x.getLsbD k || decide (k = n)) := by
  rw [BitVec.getLsbD_or, BitVec.getLsbD_ofNat, Nat.testBit_two_pow]
  by_cases hk : k = n
  · simp [hk, hn]
  · simp [hk, Ne.symm hk]

theorem Strand.setReg_full (t : Strand) (r : Nat) (v : Word) : (t.setReg r v).full = t.full := by
  unfold Strand.setReg
  split <;> rfl

/-! FSET, FCLR and FTEST. -/

/-- The strand with its full bits changed. -/
def Strand.withFull (t : Strand) (b : BitVec 32) : Strand := { t with full := b }

@[simp] theorem Strand.withFull_full (t : Strand) (b : BitVec 32) : (t.withFull b).full = b := rfl

/-- An instruction on the full bits completes with them changed and nothing else. -/
theorem fullOp_completes {i : Instr} {w : InstrWord} {on : Bool} {b : BitVec 32}
    (hx : exec i s = insn { word := w, ops := [.reg d] } (fullOp d on) s) (hd : d.toNat < 32)
    (hb : (if on then s.me.full ||| BitVec.ofNat 32 (2 ^ d.toNat) else s.me.full &&& ~~~(BitVec.ofNat 32 (2 ^ d.toNat))) = b) :
    completesWith i s (s.updMe fun t => t.withFull b) (s.me.pc + 4) := by
  subst hb
  have hs : ScalarOnly d s (s.updMe fun t => t.withFull
      (if on then s.me.full ||| BitVec.ofNat 32 (2 ^ d.toNat) else s.me.full &&& ~~~(BitVec.ofNat 32 (2 ^ d.toNat)))) :=
    .upd d s s.cur _ rfl fun _ _ => rfl
  exact scalarOnly_completes hx (check_plainForm (admitted_reg hd)) rfl hs

theorem fset_completes (hd : d.toNat < 32) : ∃ e, completesWith (.fset d) s e (s.me.pc + 4) ∧
    e.me.full.getLsbD d.toNat = true ∧ e.me.x = s.me.x ∧ ∀ k, k ≠ d.toNat → e.me.full.getLsbD k = s.me.full.getLsbD k := by
  have hx : exec (.fset d) s = execFset d s := rfl
  refine ⟨_, fullOp_completes (on := true) hx hd rfl, ?_⟩
  simp only [State.updMe_me, Strand.withFull_full, if_true, getLsbD_setBit _ hd]
  exact ⟨by simp, rfl, fun k hk => by simp [hk]⟩

theorem fclr_completes (hd : d.toNat < 32) : ∃ e, completesWith (.fclr d) s e (s.me.pc + 4) ∧
    e.me.full.getLsbD d.toNat = false ∧ e.me.x = s.me.x ∧ ∀ k, k ≠ d.toNat → e.me.full.getLsbD k = s.me.full.getLsbD k := by
  have hx : exec (.fclr d) s = execFclr d s := rfl
  refine ⟨_, fullOp_completes (on := false) hx hd rfl, ?_⟩
  simp only [State.updMe_me, Strand.withFull_full, Bool.false_eq_true, if_false, getLsbD_clearBit]
  exact ⟨by simp, rfl, fun k hk => by simp [hk]⟩

theorem ftest_completes (hd : d.toNat < 32) (ha : a.toNat < 32) : completesWith (.ftest d a) s
    (s.updMe fun t => t.setReg d.toNat (if a = 0 ∨ s.me.full.getLsbD a.toNat = true then 1 else 0)) (s.me.pc + 4) := by
  have hx : exec (.ftest d a) s = execFtest d a s := rfl
  have hb : writeX d (if a = 0 ∨ s.me.full.getLsbD a.toNat = true then 1 else 0) s = .ok ()
      (s.updMe fun t => t.setReg d.toNat (if a = 0 ∨ s.me.full.getLsbD a.toNat = true then 1 else 0)) := by
    rw [writeX, if_pos hd, run_writeReg]
  exact scalarOnly_completes hx (check_plainForm (admitted_jalr hd ha)) rfl (writeX_only hb)

/-! XPUT to a register. -/

/-- What is under way at a strand changes no program counter when it gives up a register. -/
theorem spareReg_pc (s : State) (p d u : Nat) : ((spareReg s p d).strand u).pc = (s.strand u).pc := by
  unfold spareReg
  split
  · next w _ =>
    have hkeep := State.updStrand_keeps Strand.pc s p (fun t => { t with run := .parked (w.spare d) }) (fun _ => rfl) u
    cases w <;> exact hkeep
  · rfl

theorem spareReg_idle {d : Nat} (h : ∀ w, (s.strand p).run ≠ .parked w) : spareReg s p d = s := by
  unfold spareReg
  split
  · next w hw => exact absurd hw (h w)
  · rfl

/-- XPUT's form passes its checks where its fields name registers. -/
theorem check_xputForm {w : InstrWord} (hd : d.toNat < 32) (ha : a.toNat < 32) :
    ({ word := w, ops := [if d.toNat < 32 then .reg d else .queue d [1, 4] (some true), .reg a] } : Form).check s = none := by
  rw [if_pos hd]
  exact check_plainForm (admitted_jalr hd ha)

theorem exec_xput : exec (.xput d a) s = execXput d a s := rfl

/-- The state in which the target of an XPUT has its value. -/
def State.xputTo (s : State) (p d : Nat) (v : Word) : State :=
  (spareReg s p d).updStrand p fun t => { t.setReg d v with full := t.full ||| BitVec.ofNat 32 (2 ^ d) }

theorem xputTo_pc (s : State) (p d : Nat) (v : Word) (u : Nat) : ((s.xputTo p d v).strand u).pc = (s.strand u).pc := by
  have hkeep := State.updStrand_keeps Strand.pc (spareReg s p d) p
    (fun t => { t.setReg d v with full := t.full ||| BitVec.ofNat 32 (2 ^ d) }) (fun t => Strand.setReg_pc t d v) u
  exact hkeep.trans (spareReg_pc s p d u)

section
variable (hd : d.toNat < 32)
include hd

theorem xputOp_puts (hfull : (s.strand (xputTarget s)).full.getLsbD d.toNat = false) :
    xputOp d a s = .ok .seq (s.xputTo (xputTarget s) d.toNat (s.me.reg a.toNat)) := by
  unfold xputOp
  rw [run_bind_ok (run_readReg a s)]
  simp only [hd, if_true]
  rw [run_bind_ok (run_get s)]
  simp only [hfull]
  rfl

variable (hfull : (s.strand (xputTarget s)).full.getLsbD d.toNat = true)
include hfull

theorem xputOp_parks (hc : s.me.coupled = true) (hp : partnerGone s s.cur = false) :
    xputOp d a s = .error (.park (.fullClear d.toNat)) s := by
  unfold xputOp
  rw [run_bind_ok (run_readReg a s)]
  simp only [hd, if_true]
  rw [run_bind_ok (run_get s)]
  simp only [hfull, hc, hp]
  rfl

theorem xputOp_traps (hc : s.me.coupled = false) : xputOp d a s = .error (.trap ⟨13, 7, d.setWidth 64⟩) s := by
  unfold xputOp
  rw [run_bind_ok (run_readReg a s)]
  simp only [hd, if_true]
  rw [run_bind_ok (run_get s)]
  simp only [hfull, hc]
  rfl

end

/-- XPUT to a full register of an uncoupled strand takes the trap of its own field: no operand is stuck. -/
theorem xput_traps (hd : d.toNat < 32) (ha : a.toNat < 32)
    (hfull : (s.strand (xputTarget s)).full.getLsbD d.toNat = true) (hc : s.me.coupled = false) :
    exec (.xput d a) s = .next (takeTrap s s.cur ⟨13, 7, d.setWidth 64⟩ false false) := by
  rw [exec_xput, execXput, insn_trap (check_xputForm hd ha) (xputOp_traps hd hfull hc),
    stopTrap_eq_takeTrap (by simp [Form.firstStuck, Opnd.stuck, hd]) (by simp [Form.firstStuck, Opnd.stuck, hd, Trap.isEffect])]
  simp [Form.firstStuck, Opnd.stuck, hd]

/-! XPUT to a queue. -/

theorem xputOp_queue (hd : 32 ≤ d.toNat)
    (h : answers (pushQueue (d.toNat - 32) ((s.me.reg a.toNat).setWidth 2048)) s () e) : xputOp d a s = .ok .seq e := by
  unfold xputOp
  rw [run_bind_ok (run_readReg a s)]
  simp only [Nat.not_lt.mpr hd, if_false]
  exact run_bind_ok h

theorem xput_appends (hd : 32 ≤ d.toNat) (hops : admitted s [.queue d [1, 4] (some true), .reg a])
    (h : answers (pushQueue (d.toNat - 32) ((s.me.reg a.toNat).setWidth 2048)) s () e) :
    completesWith (.xput d a) s e (s.me.pc + 4) := by
  refine scalarOnly_completes (d := d) exec_xput ?_ (xputOp_queue hd h) (pushQueue_only h)
  rw [if_neg (Nat.not_lt.mpr hd)]
  exact check_plainForm hops

end Sys2Proof.Machine

open Sys2Proof.Machine

/-- Settles O13: the instructions on full bits, and XPUT along the branches of `xputOp`. -/
theorem fullBits : Obligations.FullBits := by
  unfold Obligations.FullBits
  refine ⟨fun s d a hd ha => ⟨fset_completes hd, fclr_completes hd, ftest_completes hd ha, fun p hp hfull => ?_,
    fun hfull => ⟨fun hc hg => insn_park (check_xputForm hd ha) (xputOp_parks hd hfull hc hg), xput_traps hd ha hfull⟩⟩,
    fun s e d a hd hops => xput_appends hd hops⟩
  subst hp
  have hdone := insn_completes exec_xput (check_xputForm hd ha) (xputOp_puts (a := a) hd hfull) (.inl ⟨rfl, rfl⟩)
  rw [xputTo_pc] at hdone
  exact ⟨hdone, spareReg_idle⟩

end

section
/-! The integer vector instructions: element operations on words of the width of the type field, and folds (R63, R154-R164). -/

namespace Sys2Proof.Machine

variable {w : Nat} {t : BitVec 2}

theorem tyWidth_pos (t : BitVec 2) : 0 < tyWidth t := by
  unfold tyWidth
  split_ifs <;> decide

theorem tyWidth_inside (t : BitVec 2) : 0 < 2048 / tyWidth t := by
  unfold tyWidth
  split_ifs <;> decide

/-! Elements. -/

/-- A function of integers that gives an operation on words is that operation on elements. -/
theorem intOp_eq_onBits {s : Strand} {f : BitVec (tyWidth t) → BitVec (tyWidth t) → Int}
    {op : (w : Nat) → BitVec w → BitVec w → BitVec w → BitVec w} {a b d : Nat}
    (h : BitVec.ofInt (tyWidth t) (f (BitVec.ofNat _ a) (BitVec.ofNat _ b)) =
      op (tyWidth t) (BitVec.ofNat _ a) (BitVec.ofNat _ b) (BitVec.ofNat _ d)) : intOp (tyWidth t) f a b d = onBits op s t a b d :=
  congrArg (fun v : BitVec (tyWidth t) => (v.toNat, 0)) h

/-- A vector instruction of two sources computes the element function that its own equals. -/
theorem valu2_computes {i : BitVec 6 → BitVec 6 → BitVec 6 → BitVec 2 → BitVec 1 → Instr} {classes : BitVec 2 → Nat}
    {dst : BitVec 6 → Opnd} {g : BitVec 2 → Nat → Nat → Nat → Nat × Nat} {f : Strand → BitVec 2 → Nat → Nat → Nat → Nat × Nat}
    {code : BitVec 5} (hx : ∀ d a b t x s, exec (i d a b t x) s = insn (classedForm (fr 20 d a b code t x)
      [dst d, .data a 2 false, xOpnd b x] (classes t) [xField b x]) (lanes2 d a b x (tyWidth t) 0 (g t)) s)
    (hf : ∀ s t a b d, g t a b d = f s t a b d) : computesLanes2 i classes tyWidth 0 dst f :=
  lanes2_computes _ _ hx fun d a b t x s => congrArg (lanes2 d a b x (tyWidth t) 0 · s) (funext₃ (hf s.me t))

/-- A vector instruction of one source does so too. -/
theorem valu1_computes {i : BitVec 6 → BitVec 6 → BitVec 2 → Instr} {g : BitVec 2 → Nat → Nat × Nat}
    {f : Strand → BitVec 2 → Nat → Nat × Nat} {code : BitVec 5}
    (hx : ∀ d a t s, exec (i d a t) s = insn (classedForm (fr 20 d a 0 code t 0) [.data d 2 true, .data a 2 false]
      (vecClasses t) []) (lanes1 d a (tyWidth t) 0 (g t)) s)
    (hf : ∀ s t a, g t a = f s t a) : computesLanes1 i vecClasses tyWidth 0 f :=
  lanes1_computes _ _ hx fun d a t s => congrArg (lanes1 d a (tyWidth t) 0 · s) (funext (hf s.me t))

/-- An operation of integers on words, by its value cut to the width. -/
theorem intOp_computes {i : BitVec 6 → BitVec 6 → BitVec 6 → BitVec 2 → BitVec 1 → Instr} {classes : BitVec 2 → Nat}
    {f : (t : BitVec 2) → BitVec (tyWidth t) → BitVec (tyWidth t) → Int}
    {op : (w : Nat) → BitVec w → BitVec w → BitVec w → BitVec w} {code : BitVec 5}
    (hx : ∀ d a b t x s, exec (i d a b t x) s = insn (classedForm (fr 20 d a b code t x)
      [.data d 2 true, .data a 2 false, xOpnd b x] (classes t) [xField b x])
      (lanes2 d a b x (tyWidth t) 0 (intOp (tyWidth t) (f t))) s)
    (hop : ∀ t x y z, BitVec.ofInt _ (f t x y) = op _ x y z) :
    computesLanes2 i classes tyWidth 0 (fun d => .data d 2 true) (onBits op) :=
  valu2_computes hx fun _ t _ _ _ => intOp_eq_onBits (hop t ..)

/-! Folds. -/

theorem elem_lt (v : Vec) (w k : Nat) : elem v w k < 2 ^ w := Nat.mod_lt _ (by positivity)

/-- A fold whose steps raise no flag raises none. -/
theorem foldFlags_plain (h : Nat → Nat → Nat) (xs : List Nat) (b : Nat) :
    foldFlags (fun p q => (h p q, 0)) xs b = (xs.foldl h b, 0) := by
  unfold foldFlags
  induction xs generalizing b with
  | nil => rfl
  | cons x xs ih =>
    rw [List.foldl_cons, List.foldl_cons]
    simpa using ih (h b x)

/-- A reduction that folds the active elements without flags computes what the fold gives of an element. -/
theorem valuFold_computes {i : BitVec 6 → BitVec 6 → BitVec 6 → BitVec 2 → Instr} {h : BitVec 2 → Nat → Nat → Nat}
    {f : BitVec 2 → List Nat → Nat → Nat × Nat} {code : BitVec 5}
    (hx : ∀ d a b t s, exec (i d a b t) s = insn (classedForm (fr 20 d a b code t 0)
      [.data d 2 true, .data a 2 false, .data b 2 false] (vecClasses t) [])
      (reduce d a b (tyWidth t) 0 (foldActive fun p q => (h t p q, 0))) s)
    (hf : ∀ t xs b, b < 2 ^ tyWidth t → (xs.foldl (h t) b, 0) = f t xs b) : computesReduction i tyWidth 0 f := by
  intro s s1 s2 s3 d a b t va vb old hops hcl h1 h2 h3
  have hc := check_classedForm (w := fr 20 d a b code t 0) (xs := []) hops hcl
  refine ⟨fun hn s4 e h4 he => ?_, fun hn p hp => ?_⟩
  · refine insn_completes (hx d a b t s) hc ?_ (.inl ⟨rfl, rfl⟩)
    rw [reduce_empty h1 h2 h3 hn, run_bind_ok h4, run_bind_ok he, run_pure]
  · refine reduce_completes (tyWidth_inside t) (hx d a b t s) hc h1 h2 h3 hn ?_
    rw [← hp, ← hf t _ _ (elem_lt ..), ← foldFlags_plain]
    exact foldActive_eq_foldFlags ..

/-- The sum of elements wraps once or at each step alike. -/
theorem foldl_add_mod (m : Nat) (xs : List Nat) (b : Nat) (hb : b < m) :
    xs.foldl (fun p q => (p + q) % m) b = (b + xs.sum) % m := by
  induction xs generalizing b with
  | nil => rw [List.foldl_nil, List.sum_nil, Nat.add_zero, Nat.mod_eq_of_lt hb]
  | cons x xs ih => rw [List.foldl_cons, ih _ (Nat.mod_lt _ (by omega)), List.sum_cons, Nat.mod_add_mod, Nat.add_assoc]

theorem sPick_false (w : Nat) : sPick w false =
    fun a b => if (BitVec.ofNat w a).toInt < (BitVec.ofNat w b).toInt then a else b := by
  funext a b
  by_cases h : (BitVec.ofNat w a).toInt < (BitVec.ofNat w b).toInt <;> simp [sPick, h]

theorem sPick_true (w : Nat) : sPick w true =
    fun a b => if (BitVec.ofNat w a).toInt < (BitVec.ofNat w b).toInt then b else a := by
  funext a b
  by_cases h : (BitVec.ofNat w a).toInt < (BitVec.ofNat w b).toInt <;> simp [sPick, h]

end Sys2Proof.Machine

open Sys2Proof.Machine

/-- Settles O17: each form is `lanes1`, `lanes2` or a fold at its function, which gives the operation on words of the width. -/
theorem vectorInteger : Obligations.VectorInteger := by
  unfold Obligations.VectorInteger
  refine ⟨⟨?vadd, ?vsub, ?vmul, ?vmulh, ?vmac, ?vdiv, ?vdivn, ?vrem, ?vmin, ?vmax, ?vminn, ?vmaxn, ?vand, ?vor, ?vxor, ?vsll,
    ?vsrl, ?vsra⟩, ?vsadd, ?vssub, ?vabs, ?vneg, ?vredsum, ?vredmin, ?vredmax⟩
  case vadd => exact intOp_computes (fun _ _ _ _ _ _ => rfl) fun _ x y _ => ofInt_toInt_add x y
  case vsub => exact intOp_computes (fun _ _ _ _ _ _ => rfl) fun _ x y _ => ofInt_toInt_sub x y
  case vmul => exact intOp_computes (fun _ _ _ _ _ _ => rfl) fun _ x y _ => ofInt_toInt_mul x y
  case vmulh => exact intOp_computes (fun _ _ _ _ _ _ => rfl) fun _ x y _ => by rw [Nat.cast_pow, Nat.cast_ofNat]
  case vmac =>
    refine valu2_computes (fun _ _ _ _ _ _ => rfl) fun _ t a b d => intOp_eq_onBits ?_
    rw [BitVec.ofInt_add, BitVec.ofInt_toInt, ofInt_toInt_mul]
  case vdiv => exact intOp_computes (fun _ _ _ _ _ _ => rfl) fun t x y _ => ofInt_sdiv x y (tyWidth_pos t)
  case vdivn => exact intOp_computes (fun _ _ _ _ _ _ => rfl) fun _ x y _ => ofInt_ndiv x y
  case vrem => exact intOp_computes (fun _ _ _ _ _ _ => rfl) fun t x y _ => ofInt_srem x y (tyWidth_pos t)
  case vmin => exact intOp_computes (fun _ _ _ _ _ _ => rfl) fun _ x y _ => ofInt_ite_toInt ..
  case vmax => exact intOp_computes (fun _ _ _ _ _ _ => rfl) fun _ x y _ => ofInt_ite_toInt ..
  case vminn => exact intOp_computes (fun _ _ _ _ _ _ => rfl) fun _ x y _ => ofInt_ite_toNat' ..
  case vmaxn => exact intOp_computes (fun _ _ _ _ _ _ => rfl) fun _ x y _ => ofInt_ite_toNat' ..
  case vand => exact intOp_computes (fun _ _ _ _ _ _ => rfl) fun _ _ _ _ => BitVec.ofInt_toInt
  case vor => exact intOp_computes (fun _ _ _ _ _ _ => rfl) fun _ _ _ _ => BitVec.ofInt_toInt
  case vxor => exact intOp_computes (fun _ _ _ _ _ _ => rfl) fun _ _ _ _ => BitVec.ofInt_toInt
  case vsll => exact intOp_computes (fun _ _ _ _ _ _ => rfl) fun _ x _ _ => ofInt_shiftLeft x _
  case vsrl => exact intOp_computes (fun _ _ _ _ _ _ => rfl) fun _ x _ _ => ofInt_ushiftRight x _
  case vsra => exact intOp_computes (fun _ _ _ _ _ _ => rfl) fun _ x _ _ => ofInt_sshiftRight x _
  case vsadd => exact valu2_computes (fun _ _ _ _ _ _ => rfl) fun _ t => satOp_eq_clamps (tyWidth_pos t) _
  case vssub => exact valu2_computes (fun _ _ _ _ _ _ => rfl) fun _ t => satOp_eq_clamps (tyWidth_pos t) _
  case vabs =>
    exact valu1_computes (fun _ _ _ _ => rfl) fun _ _ _ => congrArg (fun v : BitVec _ => (v.toNat, 0)) (ofInt_natAbs _)
  case vneg =>
    exact valu1_computes (fun _ _ _ _ => rfl) fun _ _ _ => congrArg (fun v : BitVec _ => (v.toNat, 0)) (ofInt_toInt_neg _)
  case vredsum =>
    exact valuFold_computes (fun _ _ _ _ _ => rfl) fun t xs b hb => congrArg (·, 0) (foldl_add_mod _ xs b hb)
  case vredmin => exact valuFold_computes (fun _ _ _ _ _ => rfl) fun t xs b _ => by rw [← sPick_false]
  case vredmax => exact valuFold_computes (fun _ _ _ _ _ => rfl) fun t xs b _ => by rw [← sPick_true]

end

section
/-! SBAR and WAITV (R124, R299, R300, R305). -/

namespace Sys2Proof.Machine

variable {s s1 s2 : State}

/-! SBAR. -/

section
variable {m : BitVec 4} {p k : BitVec 2}

theorem exec_sbar : exec (.sbar m p k) s = execSbar m p k s := rfl

/-- What an acquire over the streams of a mask waits for. -/
def acquireWaits (s : State) (m : BitVec 4) : Bool :=
  fetching s s.cur m.toNat || reducing s s.cur || redeeming s s.cur m.toNat

/-- SBAR past its release. -/
def sbarAcquire (m : BitVec 4) (p k : BitVec 2) : M Flow := do
  if k.getLsbD 0 then
    let s ← get
    if acquireWaits s m then throw (.park (.performed (m.toNat * 16 + 0x100 + m.toNat * 1024)))
    acquire p.toNat
  return .seq

/-- SBAR releases first. -/
theorem sbarOp_releases (h : answers (if k.getLsbD 1 then release p.toNat m.toNat else pure ()) s () s1) :
    sbarOp m p k s = sbarAcquire m p k s1 := run_when h

theorem sbarAcquire_goes (h : k.getLsbD 0 = true → acquireWaits s m = false) :
    sbarAcquire m p k s = .ok .seq (if k.getLsbD 0 then selfInvalidate s s.me.core p.toNat else s) := by
  unfold sbarAcquire
  by_cases hk : k.getLsbD 0 = true
  · rw [if_pos hk, if_pos hk, run_bind_ok (run_get s)]
    simp only [h hk]
    rfl
  · rw [if_neg hk, if_neg hk]
    rfl

theorem sbarAcquire_parks (hk : k.getLsbD 0 = true) (h : acquireWaits s m = true) :
    sbarAcquire m p k s = .error (.park (.performed (m.toNat * 16 + 0x100 + m.toNat * 1024))) s := by
  unfold sbarAcquire
  rw [if_pos hk, run_bind_ok (run_get s)]
  simp only [h]
  rfl

/-- A release parks while a fetch, a reduction or a train is left. -/
theorem release_parks {scope mask : Nat} (h : fetching s s.cur mask = true ∨ reducing s s.cur = true ∨
    (s.me.trains.any fun x => mask.testBit x.1 && x.2 != 0) = true) :
    release scope mask s = .error (.park (.performed (mask % 16 * 17 + 0x100))) s := by
  unfold release
  rw [run_bind_ok (run_get s)]
  have hleft : (fetching s s.cur mask || reducing s s.cur || (s.me.trains.any fun x => mask.testBit x.1 && x.2 != 0)) = true := by
    simpa [or_assoc] using h
  simp only [hleft]
  rfl

theorem sbarOp_parks (hk : k.getLsbD 1 = true) {w : Wait} (h : release p.toNat m.toNat s = .error (.park w) s) :
    sbarOp m p k s = .error (.park w) s := by
  unfold sbarOp
  rw [if_pos hk]
  exact run_bind_error h

theorem sbar_parks {w : Wait} {e : State} (h : sbarOp m p k s = .error (.park w) e) :
    exec (.sbar m p k) s = .next (park s s.cur w) :=
  insn_park (check_plainForm (ops := []) nofun) h

end

/-! WAITV. -/

section
variable {d a b : BitVec 6} {sc : BitVec 2}

theorem exec_waitv : exec (.waitv d a b sc) s = execWaitv d a b sc s := rfl

theorem check_waitv {w : InstrWord} (he : s.me.isExecute = false) (hd : d.toNat < 32) (ha : a.toNat < 32) (hb : b.toNat < 32) :
    ({ word := w, ops := [.reg d, .reg a, .reg b], bar := true } : Form).check s = none := check_wmap he hd ha hb

/-- WAITV past its word's place. -/
def waitvRead (d : BitVec 6) (sc : BitVec 2) (va v : Word) : M Flow := do
  let (bs, _) ← loadBytes va 8 false sc.toNat
  let x := leWord 64 bs
  if x = v then throw (.park (.value va v))
  acquire sc.toNat
  writeReg d x
  return .seq

variable (hall : answers allStreams s () s)
include hall

theorem waitvOp_eq : waitvOp d a b sc s =
    (syncLeaf (s.me.reg a.toNat) 8 false true >>= fun _ => waitvRead d sc (s.me.reg a.toNat) (s.me.reg b.toNat)) s := by
  unfold waitvOp
  rw [run_bind_ok (run_readReg a s), run_bind_ok (run_readReg b s), run_bind_ok hall]
  rfl

theorem waitvOp_placeFault {x : Trap} (h : stops (syncLeaf (s.me.reg a.toNat) 8 false true) s x) :
    stops (waitvOp d a b sc) s x := by
  obtain ⟨e, he⟩ := h
  exact ⟨e, (waitvOp_eq hall).trans (run_bind_error he)⟩

variable {l : Leaf} (hleaf : answers (syncLeaf (s.me.reg a.toNat) 8 false true) s l s1)
include hleaf

theorem waitvOp_loadFault {x : Trap} (h : stops (loadBytes (s.me.reg a.toNat) 8 false sc.toNat) s1 x) :
    stops (waitvOp d a b sc) s x := by
  obtain ⟨e, he⟩ := h
  exact ⟨e, (waitvOp_eq hall).trans ((run_bind_ok hleaf).trans (run_bind_error he))⟩

variable {bs : List Byte} {p : Bool} (hload : answers (loadBytes (s.me.reg a.toNat) 8 false sc.toNat) s1 (bs, p) s2)
include hload

theorem waitvOp_waits (h : leWord 64 bs = s.me.reg b.toNat) :
    waitvOp d a b sc s = .error (.park (.value (s.me.reg a.toNat) (s.me.reg b.toNat))) s2 := by
  rw [waitvOp_eq hall, run_bind_ok hleaf, waitvRead, run_bind_ok hload]
  simp only [h, if_true]
  rfl

theorem waitvOp_goes (h : leWord 64 bs ≠ s.me.reg b.toNat) : waitvOp d a b sc s =
    .ok .seq ((selfInvalidate s2 s2.me.core sc.toNat).updMe fun t => t.setReg d.toNat (leWord 64 bs)) := by
  rw [waitvOp_eq hall, run_bind_ok hleaf, waitvRead, run_bind_ok hload]
  simp only [h, if_false]
  rfl

end

end Sys2Proof.Machine

open Sys2Proof.Machine

/-- Settles O37: SBAR is its release and then its acquire, and WAITV goes along the steps of `waitvOp`. -/
theorem fencesAndValueWaits : Obligations.FencesAndValueWaits := by
  unfold Obligations.FencesAndValueWaits
  refine ⟨fun s s1 m p k => ⟨fun hrel hacq => ?completes, fun hk hleft => ?releaseParks, fun hk hleft => ?acquireParks⟩,
    fun s s1 s2 d a b sc va x l bs p he hd ha hb hva hall => ?waitv⟩
  case completes =>
    have hready : k.getLsbD 0 = true → acquireWaits s1 m = false := fun hk => by
      obtain ⟨hfetch, hreduce, hredeem⟩ := hacq hk
      rw [acquireWaits, hfetch, hreduce, hredeem]
      rfl
    exact insn_completes exec_sbar (check_plainForm (ops := []) nofun)
      ((sbarOp_releases hrel).trans (sbarAcquire_goes hready)) (.inl ⟨rfl, rfl⟩)
  case releaseParks => exact sbar_parks (sbarOp_parks hk (release_parks hleft))
  case acquireParks =>
    subst hk
    have hwaits : acquireWaits s m = true := by simpa [acquireWaits, or_assoc] using hleft
    have hnone : sbarOp m p 1 s = sbarAcquire m p 1 s := rfl
    exact sbar_parks (hnone.trans (sbarAcquire_parks rfl hwaits))
  case waitv =>
    subst hva
    have hc {w} := check_waitv (w := w) he hd ha hb
    refine ⟨fun y hstop h3 h13 hy => ?_, fun hleaf y hstop h3 h13 hy => ?_, fun hleaf hload hx => ⟨fun hv => ?_, fun hv => ?_⟩⟩
    · exact insn_takesStop exec_waitv hc (waitvOp_placeFault hall hstop) h3 h13 hy
    · exact insn_takesStop exec_waitv hc (waitvOp_loadFault hall hleaf hstop) h3 h13 hy
    · obtain rfl : x = leWord 64 bs := hx
      rw [hv]
      exact insn_park hc (waitvOp_waits hall hleaf hload hv)
    · obtain rfl : x = leWord 64 bs := hx
      exact insn_completes exec_waitv hc (waitvOp_goes hall hleaf hload hv) (.inl ⟨rfl, rfl⟩)

end

section
/-! A store to a line of the home: its bytes, and no other byte, reach memory (R123, R232, R242). -/

namespace Sys2Proof

theorem leBytes_length (n v : Nat) : (leBytes n v).length = n := by
  induction n generalizing v with
  | zero => rfl
  | succ n ih => rw [leBytes, List.length_cons, ih]

theorem leBytes_getElem (n v i : Nat) (h : i < (leBytes n v).length) : (leBytes n v)[i] = BitVec.ofNat 8 (v / 256 ^ i) := by
  induction n generalizing v i with
  | zero => exact absurd h (Nat.not_lt_zero i)
  | succ n ih =>
    cases i with
    | zero => simp [leBytes]
    | succ i => simp [leBytes, ih, Nat.pow_succ', Nat.div_div_eq_div_mul]

end Sys2Proof

namespace Sys2Proof.Machine

variable {s s1 s2 : State} {pa c : Nat} {va : Word} {l : Leaf} {bs : List Byte}

/-- The bytes of a number stored in memory, and nothing else changed. -/
theorem memByte_memStore_leBytes (m : List Host.Cell) (a n v x : Nat) : memByte (memStore m a (leBytes n v)) x =
    if a ≤ x ∧ x < a + n then BitVec.ofNat 8 (v / 256 ^ (x - a)) else memByte m x := by
  have hlen := leBytes_length n v
  split
  · next h =>
    obtain ⟨hle, hlt⟩ := h
    have hin := memByte_memStore_in (leBytes n v) m a (x - a) (by omega)
    rwa [Nat.add_sub_cancel' hle, leBytes_getElem] at hin
  · next h => exact memByte_memStore_out _ _ _ _ (by omega)

/-! A byte address stands for its line. -/

theorem homeDie_line (pa : Nat) : homeDie (pa / 128 * 128) = homeDie pa := by
  have h16 : pa / 128 * 128 / 2 ^ 16 = pa / 2 ^ 16 := by omega
  have h38 : pa / 128 * 128 / 2 ^ 38 = pa / 2 ^ 38 := by omega
  have h39 : pa / 128 * 128 / 2 ^ 39 = pa / 2 ^ 39 := by omega
  have h48 : pa / 128 * 128 / 2 ^ 48 = pa / 2 ^ 48 := by omega
  unfold homeDie tierOf
  rw [h16, h38, h39, h48]

theorem homeSlice_line (pa : Nat) : homeSlice (pa / 128 * 128) = homeSlice pa := by
  have h7 : pa / 128 * 128 / 2 ^ 7 = pa / 2 ^ 7 := by omega
  have h16 : pa / 128 * 128 / 2 ^ 16 = pa / 2 ^ 16 := by omega
  unfold homeSlice
  rw [h7, h16]

theorem roomFor_line : s.roomFor (pa / 128 * 128) ↔ s.roomFor pa := by
  unfold State.roomFor
  rw [homeDie_line, homeSlice_line, Nat.mul_div_cancel _ (by decide)]

theorem touchLine_line (s : State) (pa ctx : Nat) (va : Word) :
    touchLine s (pa / 128 * 128) ctx va false = touchLine s pa ctx va false := by
  unfold touchLine countTransfer
  rw [homeDie_line, Nat.mul_div_cancel _ (by decide)]
  rfl

theorem movedPa_line : s.movedPa (pa / 128 * 128) = pa / 128 * 128 ↔ s.movedPa pa = pa := by
  have hframe : pa / 128 * 128 / 65536 = pa / 65536 := by omega
  unfold State.movedPa
  rw [hframe]
  cases (s.parcel (pa / 65536)).moved with
  | none => exact iff_of_true rfl rfl
  | some g => dsimp only; omega

theorem lineHeld_line (s : State) (pa : Nat) : lineHeld s (pa / 128 * 128) = lineHeld s pa := by
  have hframe : pa / 128 * 128 / 65536 = pa / 65536 := by omega
  have hline : pa / 128 * 128 % 65536 / 128 = pa % 65536 / 128 := by omega
  unfold lineHeld
  rw [hframe, hline]

/-- The home of the line of an address keeps nothing open, said of the address. -/
theorem openLine_iff : s.openLine (pa / 128) ↔ (s.parcel (pa / 65536)).blocked = false ∧ s.movedPa pa = pa ∧
    (s.line (pa / 128)).code = 0 ∧ lineHeld s pa = false := by
  have hframe : pa / 128 / 512 = pa / 65536 := by omega
  rw [← movedPa_line, ← lineHeld_line, ← hframe]
  exact ⟨fun ⟨hb, hm, hu, hf⟩ => ⟨hb, hm, hu, hf⟩, fun ⟨hb, hm, hu, hf⟩ => ⟨hb, hm, hu, hf⟩⟩

/-! The store at its home. -/

/-- The lines that bytes inside one line touch. -/
theorem lines_inside (hpos : 0 < bs.length) (hin : pa % 128 + bs.length ≤ 128) :
    (List.range ((pa % 128 + bs.length + 127) / 128)).map (fun i => pa / 128 + i) = [pa / 128] := by
  have hone : (pa % 128 + bs.length + 127) / 128 = 1 := by omega
  rw [hone]
  rfl

/-- Bytes stored inside a line whose home keeps nothing open are in memory. -/
theorem homePut_mem (hopen : s.openLine (pa / 128)) (hpos : 0 < bs.length) (hin : pa % 128 + bs.length ≤ 128) (ctx : Nat)
    (va : Word) : (homePut s pa bs false ctx va).mem = memStore s.mem pa bs := by
  obtain ⟨hb, hm, hu, hf⟩ := openLine_iff.mp hopen
  have hput : homePut s pa bs false ctx va = homeStore s pa bs := by
    unfold homePut
    simp only [hm, hb, hf]
    rfl
  have hstore : homeStore s pa bs = { markDirty s (pa / 128) with mem := memStore (markDirty s (pa / 128)).mem pa bs } := by
    unfold homeStore
    rw [lines_inside hpos hin]
    simp [hu]
  rw [hput, hstore, (markDirty_open s (pa / 128)).1]

/-- A line that has the leaf's key already keeps it, and the state with it. -/
theorem stampKey_inside (hpos : 0 < bs.length) (hin : l.pa % 128 + bs.length ≤ 128)
    (hid : (s.line (l.pa / 128)).key = keyId s l.keyIndex) : stampKey s l bs.length = s := by
  unfold stampKey
  split
  · rw [lines_inside hpos hin]
    exact if_pos hid
  · rfl

/-- The touch of the line by a store leaves memory and the line's home as they are. -/
theorem touchWrite_inside (hopen : s.openLine (l.pa / 128)) (hroom : s.roomFor l.pa) (hlog : l.logEnable = false)
    (hcount : l.counterEnable = false) (ctx : Nat) (va : Word) :
    (touchWrite s l ctx va).mem = s.mem ∧ (touchWrite s l ctx va).openLine (l.pa / 128) := by
  obtain ⟨hb, -⟩ := openLine_iff.mp hopen
  have hline : touchWrite s l ctx va = touchWrite s { l with pa := l.pa / 128 * 128 } ctx va := by
    have hframe : l.pa / 128 * 128 / 65536 = l.pa / 65536 := by omega
    have hquiet : Leaf.logEnable { l with pa := l.pa / 128 * 128 } = false := hlog
    have huncounted : Leaf.counterEnable { l with pa := l.pa / 128 * 128 } = false := hcount
    unfold touchWrite Leaf.frame
    simp only [hlog, hcount, hquiet, huncounted, hframe, touchLine_line]
    rfl
  obtain ⟨hmem, hkept, -⟩ := touchWrite_open (l := { l with pa := l.pa / 128 * 128 }) rfl hlog hcount hopen
    (roomFor_line.mpr hroom) ctx va
  rw [hline]
  exact ⟨hmem, hkept⟩

/-- The steps of a store of home class through a leaf whose memory takes it. -/
theorem memStoreAt_runs (hcls : l.cls = 2) (hlog : l.logEnable = false) (hreach : reachable s l.pa = true)
    (hkey : keyEmpty s l = false) (hstamp : stampKey s l bs.length = s) : answers (memStoreAt l va bs c) s ()
      (homePut (nextRequest (touchWrite s l s.me.ctx va) s.me.core) l.pa bs false s.me.ctx va) := by
  unfold answers memStoreAt
  rw [run_bind_ok (run_get s)]
  simp only [hreach, hkey, hlog, hcls, hstamp]
  rfl

/-- A line of home class that is open to a store, with room in the last-level cache and under the key of the leaf. -/
structure State.takesStore (s : State) (l : Leaf) : Prop where
  home : l.cls = 2
  uncounted : l.logEnable = false ∧ l.counterEnable = false
  reached : reachable s l.pa = true
  keyed : keyEmpty s l = false ∧ (s.line (l.pa / 128)).key = keyId s l.keyIndex
  room : s.roomFor l.pa
  opened : s.openLine (l.pa / 128)

theorem memStoreAt_home (h : s.takesStore l) (hpos : 0 < bs.length) (hin : l.pa % 128 + bs.length ≤ 128) :
    ∃ e, answers (memStoreAt l va bs c) s () e ∧ e.mem = memStore s.mem l.pa bs := by
  obtain ⟨hcls, ⟨hlog, hcount⟩, hreach, ⟨hkey, hid⟩, hroom, hopen⟩ := h
  obtain ⟨hmem, hkept⟩ := touchWrite_inside hopen hroom hlog hcount s.me.ctx va
  refine ⟨_, memStoreAt_runs hcls hlog hreach hkey (stampKey_inside hpos hin hid), ?_⟩
  have hnext : (nextRequest (touchWrite s l s.me.ctx va) s.me.core).openLine (l.pa / 128) := hkept.congr rfl rfl
  exact (homePut_mem hnext hpos hin _ _).trans (congrArg (memStore · l.pa bs) hmem)

/-! The instruction. -/

/-- With nothing under way at its bytes, an access waits for nothing. -/
theorem awaitOwn_free {va : Word} {pa n : Nat} (htrain : trainOverlap s s.cur va pa n = false)
    (hfetch : fetchOverlap s s.cur va pa n = false) : awaitOwn va pa n s = .ok () s := by
  unfold awaitOwn
  rw [run_bind_ok (run_get s)]
  simp only [htrain, hfetch]
  rfl

/-- A store at a place of memory that it reaches, with nothing to wait for and no watch, ends with its write. -/
theorem storeBytes_mem {e : State} (hp : answers (resolve .store va bs.length) s (.mem l) s1)
    (hch : answers (checkChannel va bs.length) s1 () s1) (hw : watchHit s.me .store va bs.length = none)
    (htrain : trainOverlap s1 s1.cur va l.pa bs.length = false) (hfetch : fetchOverlap s1 s1.cur va l.pa bs.length = false)
    (hstore : answers (memStoreAt l va bs c) s1 () e) : answers (storeBytes va bs c) s () e := by
  have hawait : awaitPlace (.mem l) va bs.length s1 = .ok () s1 :=
    (run_bind_ok (run_get s1)).trans (awaitOwn_free htrain hfetch)
  unfold answers storeBytes
  rw [run_bind_ok (run_me s), run_bind_ok hp, run_bind_ok hch, run_bind_ok hawait]
  refine (run_bind_ok hstore).trans ?_
  rw [hw]
  rfl

variable {d b o : BitVec 6} {w st scope : BitVec 2} {v : Word}

/-- Reading an operand changes no register of a register-only field. -/
theorem reg_of_readX (h : answers (readX d) s v s1) (r : Nat) : s1.me.reg r = s.me.reg r :=
  reg_of_reads (a := 0) (sy := 0) (x := 0) (s1 := s) rfl h r

/-- ST without an order stores the low bytes of its operand and does nothing else. -/
theorem storeOp_runs {e : State} (hread : answers (readX d) s v s1) (hva : va = memAddr s.me b o w)
    (hal : va.toNat % sizeOf w = 0) (hst : answers (streamReady st.toNat) s1 () s1)
    (hstore : answers (storeBytes va (leBytes (sizeOf w) v.toNat) scope.toNat) s1 () e) :
    storeOp d b o w st 0 scope s = .ok .seq e := by
  have haddr : memAddr s1.me b o w = va := by rw [hva, memAddr, memAddr, reg_of_readX hread]
  have hcheck : checkAligned va (sizeOf w) s1 = .ok () s1 := by rw [checkAligned, if_pos hal, run_pure]
  unfold storeOp
  rw [run_bind_ok hread, run_bind_ok (run_me s1)]
  simp only [haddr]
  rw [run_bind_ok hcheck, run_bind_ok hst]
  exact run_bind_ok hstore

/-- Completion keeps the memory of the effect. -/
theorem Completed.mem_eq {e t : State} {pc : Word} (h : Completed s e pc t) : t.mem = e.mem :=
  (congrArg State.mem h.device : t.device.mem = e.device.mem)

end Sys2Proof.Machine

open Sys2Proof Sys2Proof.Machine

/-- Settles O8: the store is its write at the home of an open line, and completion leaves memory alone. -/
theorem storeToHome : Obligations.StoreToHome := by
  unfold Obligations.StoreToHome
  intro s s1 s2 d b o w st c v va l hops hex hread hva hal hst hp hmem hcur hch hwatch hheld hfetch htrain hroom hcls hlog hcount
    hin hkey hreach hid hcode hblocked hmoved
  have hlen : (leBytes (2 ^ w.toNat) v.toNat).length = 2 ^ w.toNat := leBytes_length ..
  have hpos : 0 < (leBytes (2 ^ w.toNat) v.toNat).length := hlen.symm ▸ Nat.two_pow_pos _
  have htakes : s2.takesStore l :=
    ⟨hcls, ⟨hlog, hcount⟩, hreach, ⟨hkey, hid⟩, hroom, openLine_iff.mpr ⟨hblocked, hmoved, hcode, hheld⟩⟩
  obtain ⟨e, hstore, hbytes⟩ := memStoreAt_home (va := va) (c := c.toNat) htakes hpos (by rwa [hlen])
  have hwrite := storeBytes_mem (bs := leBytes (2 ^ w.toNat) v.toNat) (by rwa [hlen]) (by rwa [hlen]) (by rwa [hlen])
    (by rwa [hlen]) (by rwa [hlen]) hstore
  have hbody := storeOp_runs (scope := c) hread hva hal hst hwrite
  have hx : exec (.st d b o w st 0 c) s = execSt d b o w st 0 c s := rfl
  have hc : ({ word := fm 15 d b o w st 0 c, ops := [.data d 1 false, .reg b], bar := true } : Form).check s = none :=
    (Form.check_none _ s).mpr ⟨rfl, nofun, hops, fun _ => hex, onClass_all s⟩
  obtain ⟨t, ht, hdone⟩ := insn_completes hx hc hbody (.inl ⟨rfl, rfl⟩)
  refine ⟨t, ht, fun a => ?_⟩
  rw [hdone.mem_eq, hbytes, hmem, memByte_memStore_leBytes]

end

section
/-! Plain allotment: bytes of the scratchpad aperture under no window are stored where a load finds them (R124, R208, R255). -/

namespace Sys2Proof.Machine

variable {s s' : State} {k : Kind} {t : Strand} {bs : List Byte} {va va' : Word} {o n u pa pa' n' : Nat}

/-! The bytes of an allotment after a store. -/

/-- Entries set one after the other leave every other entry alone. -/
theorem get_setRun_out (bs : List Byte) (a : List (Nat × Byte)) (o m k : Nat) (h : k < o + m ∨ o + m + bs.length ≤ k) :
    Tab.get 0 ((bs.zipIdx m).foldl (fun a bi => Tab.set 0 a (o + bi.2) bi.1) a) k = Tab.get 0 a k := by
  induction bs generalizing a m with
  | nil => rfl
  | cons b bs ih =>
    rw [List.length_cons] at h
    rw [List.zipIdx_cons, List.foldl_cons, ih _ (m + 1) (by omega), Tab.get_set, if_neg (by omega)]

/-- Entries set one after the other are read back. -/
theorem get_setRun_in (bs : List Byte) (a : List (Nat × Byte)) (o m i : Nat) (h : i < bs.length) :
    Tab.get 0 ((bs.zipIdx m).foldl (fun a bi => Tab.set 0 a (o + bi.2) bi.1) a) (o + (m + i)) = bs[i] := by
  induction bs generalizing a m i with
  | nil => exact absurd h (Nat.not_lt_zero i)
  | cons b bs ih =>
    rw [List.zipIdx_cons, List.foldl_cons]
    cases i with
    | zero =>
      rw [get_setRun_out bs _ o (m + 1) _ (by omega)]
      exact Tab.get_set_self ..
    | succ i => simpa [Nat.add_right_comm, Nat.add_assoc] using ih _ (m + 1) i (by simpa using h)

theorem storeAllot_allot_out (t : Strand) (o : Nat) (bs : List Byte) {k : Nat} (h : k < o ∨ o + bs.length ≤ k) :
    Tab.get 0 (t.storeAllot o bs).allot k = Tab.get 0 t.allot k := get_setRun_out bs t.allot o 0 k h

/-- The bytes stored are the bytes read. -/
theorem allotBytes_storeAllot (t : Strand) (o : Nat) (bs : List Byte) : allotBytes (t.storeAllot o bs) o bs.length = bs := by
  refine List.ext_getElem (by simp [allotBytes]) fun i _ hi => ?_
  simpa [allotBytes, Strand.storeAllot] using get_setRun_in bs t.allot o 0 i hi

/-- A store poisons no word. -/
theorem spoiledAt_storeAllot (bs : List Byte) (h : t.spoiledAt o n = false) : (t.storeAllot o bs).spoiledAt o n = false :=
  List.any_eq_false.mpr fun b hb => List.any_eq_false.mp h b (List.mem_of_mem_filter hb)

/-! Accesses in flight do not depend on the bytes of an allotment. -/

theorem allotUp_congr (howner : ∀ v, s'.owner v = s.owner v) (hparent : ∀ v, (s'.strand v).parent = (s.strand v).parent)
    (n u : Nat) : State.allotOwner.allotUp s' n u = State.allotOwner.allotUp s n u := by
  induction n generalizing u with
  | zero => rfl
  | succ n ih =>
    unfold State.allotOwner.allotUp
    rw [hparent]
    cases (s.strand u).parent with
    | none => rfl
    | some p => exact (ih _).trans (by rw [howner])

theorem globalVa_congr (howner : s'.allotOwner u = s.allotOwner u) (hwin : ∀ v, (s'.strand v).windows = (s.strand v).windows)
    (va : Word) : s'.globalVa u va = s.globalVa u va := by
  unfold State.globalVa windowAt Strand.window
  rw [howner]
  simp only [hwin]

/-- Under no window an address is its own global one. -/
theorem globalVa_plain (hoff : apertureOffset va = some o) (hwin : windowAt (s.strand (s.allotOwner u)) o = none) :
    s.globalVa u va = va := by
  unfold State.globalVa
  rw [hoff]
  dsimp only
  rw [hwin]

/-- Bytes whose global address lies in the aperture meet others by their global addresses alone. -/
theorem bytesMeet_congr (hglobal : ∀ x, s'.globalVa u x = s.globalVa u x) (hin : (apertureOffset (s.globalVa u va)).isNone = false)
    (pa₁ pa₂ : Nat) : bytesMeet s' u va pa n va' pa₁ n' = bytesMeet s u va pa n va' pa₂ n' := by
  simp [bytesMeet, hglobal, hin]

theorem writesBytes_congr (hmeet : ∀ va' pa₁ pa₂ n', bytesMeet s' u va pa n va' pa₁ n' = bytesMeet s u va pa n va' pa₂ n')
    (e : Instr) : writesBytes s' u va pa n e = writesBytes s u va pa n e := by
  unfold writesBytes
  split
  · exact congrArg _ (congrArg (List.any _) (funext fun _ => hmeet _ _ _ _))
  · exact congrArg _ (hmeet _ _ _ _)
  · rfl

theorem readsBytes_congr (hdie : ∀ d, s'.die d = s.die d)
    (hmeet : ∀ va' pa₁ pa₂ n', bytesMeet s' u va pa n va' pa₁ n' = bytesMeet s u va pa n va' pa₂ n')
    (e : Instr) : readsBytes s' u va pa n e = readsBytes s u va pa n e := by
  unfold readsBytes
  split
  · exact congrArg _ (hmeet _ _ _ _)
  · simp only [hdie]
    exact congrArg _ (hmeet _ _ _ _)
  · rfl

theorem trainOverlap_congr (hagenda : s'.agenda = s.agenda)
    (hmeet : ∀ va' pa₁ pa₂ n', bytesMeet s' u va pa n va' pa₁ n' = bytesMeet s u va pa n va' pa₂ n') :
    trainOverlap s' u va pa n = trainOverlap s u va pa n := by
  unfold trainOverlap
  rw [hagenda, funext (writesBytes_congr hmeet)]

theorem fetchOverlap_congr (hagenda : s'.agenda = s.agenda) (hdie : ∀ d, s'.die d = s.die d)
    (hmeet : ∀ va' pa₁ pa₂ n', bytesMeet s' u va pa n va' pa₁ n' = bytesMeet s u va pa n va' pa₂ n') :
    fetchOverlap s' u va pa n = fetchOverlap s u va pa n := by
  unfold fetchOverlap
  rw [hagenda, funext (readsBytes_congr hdie hmeet)]

/-! Accesses to plain allotment. -/

/-- An address of plain allotment: inside it, under no window, with nothing under way at its bytes. -/
structure State.plainAt (s : State) (va : Word) (o n : Nat) : Prop where
  offset : apertureOffset va = some o
  fits : o + n ≤ (s.strand (s.allotOwner s.cur)).allotSize
  uncovered : windowAt (s.strand (s.allotOwner s.cur)) o = none
  unwritten : trainOverlap s s.cur va 0 n = false
  unread : fetchOverlap s s.cur va 0 n = false

theorem State.plainAt.resolve_eq (h : s.plainAt va o n) (k : Kind) :
    answers (resolve k va n) s (.spad (s.allotOwner s.cur) o) s := by
  unfold answers resolve
  rw [run_bind_ok (run_get s), h.offset]
  dsimp only
  rw [if_neg (Nat.not_lt.mpr h.fits), h.uncovered]
  rfl

theorem State.plainAt.checkChannel_eq (h : s.plainAt va o n) : answers (checkChannel va n) s () s := by
  unfold answers checkChannel
  rw [run_bind_ok (run_me s), h.offset, Option.isSome_some, Bool.or_true]
  rfl

theorem State.plainAt.awaitPlace_eq (h : s.plainAt va o n) : answers (awaitPlace (.spad u o) va n) s () s :=
  (run_bind_ok (run_get s)).trans (awaitOwn_free h.unwritten h.unread)

/-- The state after a store to plain allotment. -/
def State.storePlain (s : State) (o : Nat) (bs : List Byte) : State :=
  s.updStrand (s.allotOwner s.cur) fun t => t.storeAllot o bs

/-- What a store to an allotment leaves of a strand. -/
theorem storePlain_keeps {β : Type} (p : Strand → β) (hp : ∀ t, p (t.storeAllot o bs) = p t) (v : Nat) :
    p ((s.storePlain o bs).strand v) = p (s.strand v) := State.updStrand_keeps p s _ _ hp v

theorem storePlain_allotOwner (s : State) (o : Nat) (bs : List Byte) (u : Nat) :
    (s.storePlain o bs).allotOwner u = s.allotOwner u := by
  have howner (v : Nat) : (s.storePlain o bs).owner v = s.owner v :=
    owner_congr (storePlain_keeps (·.coupled) (fun _ => rfl) v) (storePlain_keeps (·.strandId) (fun _ => rfl) v)
      (storePlain_keeps (·.partner) (fun _ => rfl) v)
  exact (allotUp_congr howner (storePlain_keeps (·.parent) fun _ => rfl) _ _).trans (by rw [howner]; rfl)

/-- A store to plain allotment leaves it plain. -/
theorem State.plainAt.storePlain (h : s.plainAt va o n) (bs : List Byte) : (s.storePlain o bs).plainAt va o n := by
  have howner : (s.storePlain o bs).allotOwner (s.storePlain o bs).cur = s.allotOwner s.cur := storePlain_allotOwner s o bs s.cur
  have hglobal (x : Word) : (s.storePlain o bs).globalVa s.cur x = s.globalVa s.cur x :=
    globalVa_congr (storePlain_allotOwner s o bs s.cur) (storePlain_keeps (·.windows) fun _ => rfl) x
  have hin : (apertureOffset (s.globalVa s.cur va)).isNone = false := by
    rw [globalVa_plain h.offset h.uncovered, h.offset]
    rfl
  have hmeet (va' : Word) (pa₁ pa₂ n' : Nat) :
      bytesMeet (s.storePlain o bs) s.cur va 0 n va' pa₁ n' = bytesMeet s s.cur va 0 n va' pa₂ n' :=
    bytesMeet_congr hglobal hin pa₁ pa₂
  have hagenda : (s.storePlain o bs).agenda = s.agenda := rfl
  have hdie (d : Nat) : (s.storePlain o bs).die d = s.die d := rfl
  refine ⟨h.offset, ?_, ?_, ?_, ?_⟩
  · rw [howner, storePlain_keeps (·.allotSize) fun _ => rfl]
    exact h.fits
  · rw [howner]
    exact (storePlain_keeps (windowAt · o) (fun _ => rfl) _).trans h.uncovered
  · exact (trainOverlap_congr hagenda hmeet).trans h.unwritten
  · exact (fetchOverlap_congr hagenda hdie hmeet).trans h.unread

/-- A store that no watch meets. -/
theorem storeBytes_plain {c : Nat} (h : s.plainAt va o bs.length) (hw : watchHit s.me .store va bs.length = none) :
    answers (storeBytes va bs c) s () (s.storePlain o bs) := by
  unfold answers storeBytes
  rw [run_bind_ok (run_me s), run_bind_ok (h.resolve_eq .store), run_bind_ok h.checkChannel_eq, run_bind_ok h.awaitPlace_eq, hw]
  rfl

/-- A load of sound bytes that no watch meets. -/
theorem loadBytes_plain {c : Nat} (h : s.plainAt va o n) (hw : watchHit s.me .load va n = none)
    (hsound : (s.strand (s.allotOwner s.cur)).spoiledAt o n = false) :
    answers (loadBytes va n false c) s (allotBytes (s.strand (s.allotOwner s.cur)) o n, false) s :=
  (loadBytes_spad (h.resolve_eq .load) h.checkChannel_eq h.awaitPlace_eq hw).trans (by rw [hsound])

end Sys2Proof.Machine

open Sys2Proof.Machine

/-- Settles O7: plain allotment stays plain under a store, which changes the bytes of one allotment and nothing that an access
is resolved by. -/
theorem scratchpadAccess : Obligations.ScratchpadAccess := by
  unfold Obligations.ScratchpadAccess
  intro s va o c bs hoff hfits hwin hwstore hwload htrain hfetch hsound
  have hplain : s.plainAt va o bs.length := ⟨hoff, hfits, hwin, htrain, hfetch⟩
  have howner : (s.storePlain o bs).allotOwner (s.storePlain o bs).cur = s.allotOwner s.cur := storePlain_allotOwner s o bs s.cur
  have hthere : (s.storePlain o bs).strand (s.allotOwner s.cur) = (s.strand (s.allotOwner s.cur)).storeAllot o bs := by
    rw [State.storePlain, State.updStrand_strand, if_pos rfl]
  have hwatch : watchHit (s.storePlain o bs).me .load va bs.length = none :=
    (storePlain_keeps (watchHit · .load va bs.length) (fun _ => rfl) s.cur).trans hwload
  have hload := loadBytes_plain (c := c) (hplain.storePlain bs) hwatch (by rw [howner, hthere]; exact spoiledAt_storeAllot bs hsound)
  rw [howner, hthere, allotBytes_storeAllot] at hload
  refine ⟨s.storePlain o bs, storeBytes_plain hplain hwstore, hload, fun k hk => ?_, fun _ => rfl, rfl, rfl, fun u hu => ?_⟩
  · rw [hthere]
    exact storeAllot_allot_out _ o bs hk
  · rw [State.storePlain, State.updStrand_strand, if_neg hu]

end

section
/-! QCFG (R134, R135, R148): its checks in order, and the configuration that it makes. -/

namespace Sys2Proof.Machine

variable {s : State} {d a : BitVec 6} {q : Nat} {v : Word}

/-- A queue trap of another sub-cause than 7 names what its effect names, and the effect is undone (R46, R150). -/
theorem insn_takesQueueTrap {f : Form} {body : M Flow} {n : Nat} {e : State} (hc : f.check s = none) (hn : n ≠ 7)
    (hb : body s = .error (.trap ⟨13, n, v⟩) e) : insn f body s = .next (takeTrap s s.cur ⟨13, n, v⟩ false false) := by
  rw [insn_trap hc hb, Form.firstStuck_of_ne fun h => hn h.2, stopTrap_eq_takeTrap (by simp) rfl]

/-- A queue that QCFG may reconfigure: no slot is allocated, and no strand of the couple is parked on it. -/
structure State.idleQueue (s : State) (q : Nat) : Prop where
  empty : (s.queue s.cur q).slots = []
  unparked : ((s.couple s.cur).any fun u => (s.strand u).parkedOn q) = false

/-- The check that a queue may be reconfigured stops exactly where it is not idle. -/
theorem idleQueue_iff : s.idleQueue q ↔
    (!(s.queue s.cur q).slots.isEmpty || (s.couple s.cur).any fun u => (s.strand u).parkedOn q) = false := by
  rw [Bool.or_eq_false_iff, Bool.not_eq_false', List.isEmpty_iff]
  exact ⟨fun ⟨he, hp⟩ => ⟨he, hp⟩, fun ⟨he, hp⟩ => ⟨he, hp⟩⟩

theorem configureQueue_busy (h : ¬ s.idleQueue q) :
    configureQueue q v s = .error (.trap ⟨13, 5, BitVec.ofNat 64 (32 + q)⟩) s := by
  rw [idleQueue_iff, Bool.not_eq_false] at h
  unfold configureQueue
  exact (run_bind_ok (run_get s)).trans (run_checked h)

section
variable (hidle : s.idleQueue q)
include hidle

theorem configureQueue_zero :
    configureQueue q 0 s = .ok () (s.updQueue s.cur q fun k => { Queue.none with gen := k.gen + 1 }) := by
  unfold configureQueue
  rw [run_bind_ok (run_get s)]
  simp only [idleQueue_iff.mp hidle]
  rfl

variable (hv : v ≠ 0)
include hv

theorem configureQueue_malformed (hw : QueueWord.of v = none) : configureQueue q v s = .error (.trap ⟨13, 3, v⟩) s := by
  unfold configureQueue
  rw [run_bind_ok (run_get s)]
  simp only [idleQueue_iff.mp hidle, hv, hw]
  rfl

variable {k : QueueWord} (hw : QueueWord.of v = some k)
include hw

theorem configureQueue_tooLarge (h : s.me.queueBudget < queuesCost s s.cur q (k.depth * slotBytes k.kind)) :
    configureQueue q v s = .error (.trap ⟨13, 4, v⟩) s := by
  unfold configureQueue
  rw [run_bind_ok (run_get s)]
  simp only [idleQueue_iff.mp hidle, hv, hw, h]
  rfl

theorem configureQueue_fits (h : queuesCost s s.cur q (k.depth * slotBytes k.kind) ≤ s.me.queueBudget) :
    configureQueue q v s = .ok () (s.updQueue s.cur q fun x => ⟨v.setWidth 32, 0, [], none, x.gen + 1⟩) := by
  unfold configureQueue
  rw [run_bind_ok (run_get s)]
  simp only [idleQueue_iff.mp hidle, hv, hw, Nat.not_lt.mpr h]
  rfl

end

/-! The instruction. -/

/-- The fields of QCFG: a queue that may be unconfigured, and a register. -/
theorem admitted_qcfg (hd : 32 ≤ d.toNat) (hd' : d.toNat < 48) (ha : a.toNat < 32) : admitted s [.handle d, .reg a] := by
  have hhandle : (Opnd.handle d).bad = none := by rw [Opnd.bad, if_neg (Nat.not_lt.mpr hd), if_pos hd']
  have hreg : (Opnd.reg a).bad = none := by rw [Opnd.bad, if_pos ha]
  rintro o (_ | ⟨_, _ | ⟨_, ⟨⟩⟩⟩)
  · exact ⟨hhandle, rfl⟩
  · exact ⟨hreg, rfl⟩

section
variable (hd : 32 ≤ d.toNat) (hd' : d.toNat < 48) (ha : a.toNat < 32)
include hd hd' ha

/-- QCFG completes with the queue that its configuration leaves. -/
theorem qcfg_completes {g : Queue → Queue}
    (h : configureQueue (d.toNat - 32) (s.me.reg a.toNat) s = .ok () (s.updQueue s.cur q g)) :
    completesWith (.qcfg d a) s (s.updQueue s.cur q g) (s.me.pc + 4) := by
  have hx : exec (.qcfg d a) s = execQcfg d a s := rfl
  have hb : qcfgOp d a s = .ok .seq (s.updQueue s.cur q g) := by
    unfold qcfgOp
    rw [run_bind_ok (run_readReg a s), run_bind_ok h, run_pure]
  exact scalarOnly_completes hx (check_plainForm (admitted_qcfg hd hd' ha)) hb (.updQueue d s s.cur q g)

/-- QCFG takes the trap of a configuration that fails, which names no operand that is stuck. -/
theorem qcfg_traps {n : Nat} {x : Word} (hn : n ≠ 7)
    (h : configureQueue (d.toNat - 32) (s.me.reg a.toNat) s = .error (.trap ⟨13, n, x⟩) s) :
    exec (.qcfg d a) s = .next (takeTrap s s.cur ⟨13, n, x⟩ false false) := by
  have hx : exec (.qcfg d a) s = execQcfg d a s := rfl
  have hb : qcfgOp d a s = .error (.trap ⟨13, n, x⟩) s := by
    unfold qcfgOp
    rw [run_bind_ok (run_readReg a s), run_bind_error h]
  exact hx.trans (insn_takesQueueTrap (check_plainForm (admitted_qcfg hd hd' ha)) hn hb)

end

end Sys2Proof.Machine

open Sys2Proof Sys2Proof.Machine

/-- Settles O11: QCFG along the checks of `configureQueue`, whose budget check comes last. -/
theorem queueConfiguration : Obligations.QueueConfiguration := by
  unfold Obligations.QueueConfiguration
  rintro s d a q v hd hd' ha rfl rfl
  have hnum : 32 + (d.toNat - 32) = d.toNat := by omega
  refine ⟨fun hslots hparked => ?_, fun hbusy => ?_⟩
  · have hidle : s.idleQueue (d.toNat - 32) := ⟨hslots, hparked⟩
    refine ⟨fun hv => qcfg_completes hd hd' ha ?_,
      fun hv hw => qcfg_traps hd hd' ha (by decide) (configureQueue_malformed hidle hv hw),
      fun k hv hw => ⟨fun hfits => qcfg_completes hd hd' ha (configureQueue_fits hidle hv hw hfits),
        fun hlarge => qcfg_traps hd hd' ha (by decide) (configureQueue_tooLarge hidle hv hw hlarge)⟩⟩
    rw [hv]
    exact configureQueue_zero hidle
  · have hnot : ¬ s.idleQueue (d.toNat - 32) := fun ⟨hempty, hunparked⟩ =>
      hbusy.elim (absurd hempty) fun hparked => Bool.false_ne_true (hunparked.symm.trans hparked)
    have htrap := qcfg_traps hd hd' ha (by decide) (configureQueue_busy hnot)
    rwa [hnum] at htrap

end

section
/-! What leaves the queues of a couple as they are (R133). -/

namespace Sys2Proof.Machine

variable {s s' : State}

/-- What of a strand a couple's queues rest on. -/
def Strand.queueState (t : Strand) : List (Nat × Queue) × Bool × Word × Nat := (t.queues, t.coupled, t.strandId, t.partner)

/-- Where that is as before for every strand, a couple's queues have the same owner. -/
theorem KeepsField.owner_eq (h : KeepsField Strand.queueState s s') (u : Nat) : s'.owner u = s.owner u := by
  have hall := h.strands u
  simp only [Strand.queueState, Prod.mk.injEq] at hall
  obtain ⟨-, hcoupled, hid, hpartner⟩ := hall
  exact owner_congr hcoupled hid hpartner

/-- Then so is every queue. -/
theorem KeepsField.queue_eq (h : KeepsField Strand.queueState s s') (u q : Nat) : s'.queue u q = s.queue u q := by
  have hqueues : (s'.strand (s.owner u)).queues = (s.strand (s.owner u)).queues := congrArg Prod.fst (h.strands (s.owner u))
  rw [State.queue, h.owner_eq, hqueues, State.queue]

end Sys2Proof.Machine
end

section
/-! QADV, QCOMMIT, QFILL, QFREE, QRESET and QDRAIN (R137, R148). -/

namespace Sys2Proof.Machine

variable {s e : State} {d a b : BitVec 6} {q : Nat}

/-! Heads that are discarded. -/

/-- The state with the head of a queue discarded, poisoned or not. -/
def State.dropHead (s : State) (q : Nat) : State :=
  s.updQueue s.cur q fun k => { k with h := (k.h + 1) % 65536, slots := (s.queue s.cur q).slots.tail }

theorem dropHead_cur (s : State) (q : Nat) : (s.dropHead q).cur = s.cur := rfl

theorem dropHead_queue (s : State) (q r : Nat) : (s.dropHead q).queue s.cur r =
    if r = q then { s.queue s.cur q with h := ((s.queue s.cur q).h + 1) % 65536, slots := (s.queue s.cur q).slots.tail }
    else s.queue s.cur r := queue_updQueue ..

/-- The state with n heads of a queue discarded. -/
def State.discard (s : State) (q : Nat) : Nat → State
  | 0 => s
  | n + 1 => (s.dropHead q).discard q n

theorem discard_only (d : BitVec 6) (s : State) (q n : Nat) : ScalarOnly d s (s.discard q n) := by
  induction n generalizing s with
  | zero => exact .refl d s
  | succ n ih => exact (ScalarOnly.updQueue ..).trans (ih (s.dropHead q))

/-- H advances by the number of heads, modulo 2^16, and the other queues stay as they are. -/
theorem discard_queue (s : State) (q n : Nat) :
    ((s.discard q n).queue s.cur q).slots = (s.queue s.cur q).slots.drop n ∧
    ((s.discard q n).queue s.cur q).h % 65536 = ((s.queue s.cur q).h + n) % 65536 ∧
    ∀ r, r ≠ q → (s.discard q n).queue s.cur r = s.queue s.cur r := by
  induction n generalizing s with
  | zero => exact ⟨rfl, rfl, fun _ _ => rfl⟩
  | succ n ih =>
    have hrest := ih (s.dropHead q)
    simp only [dropHead_cur, dropHead_queue, if_true] at hrest
    obtain ⟨hslots, hhead, hothers⟩ := hrest
    refine ⟨hslots.trans (by rw [List.drop_tail]), hhead.trans (by omega), fun r hr => ?_⟩
    exact (hothers r hr).trans (if_neg hr)

/-- A queue with a ready head has one ready head more than the queue without it. -/
theorem ready_succ {k : Queue} {n : Nat} (h : n + 1 ≤ k.ready) :
    ∃ x rest, k.slots = x :: rest ∧ x.ready = true ∧ n ≤ (rest.takeWhile fun x => x.ready).length := by
  unfold Queue.ready at h
  cases hk : k.slots with
  | nil => simp [hk] at h
  | cons x rest =>
    rw [hk, List.takeWhile_cons] at h
    split at h
    · next hx => exact ⟨x, rest, rfl, hx, Nat.le_of_succ_le_succ h⟩
    · simp at h

/-- The state after QADV of n ready heads: nothing of it is under way any more. -/
def State.advanced (s : State) (q n : Nat) : State := (s.discard q n).updMe fun t => t.setPart Progress.none

theorem discardHeads_ready {n : Nat} (begun : Bool) (h : n ≤ (s.queue s.cur q).ready) :
    discardHeads q begun n s = .ok () (s.advanced q n) := by
  induction n generalizing s begun with
  | zero => rfl
  | succ n ih =>
    obtain ⟨x, rest, hk, hx, hn⟩ := ready_succ h
    have hrest : n ≤ ((s.dropHead q).queue (s.dropHead q).cur q).ready := by
      rw [dropHead_cur, dropHead_queue, if_pos rfl, hk]
      exact hn
    have hdrop : s.dropHead q = s.updQueue s.cur q fun k => { k with h := (k.h + 1) % 65536, slots := rest } := by
      rw [State.dropHead, hk]
      rfl
    have hnext := ih true hrest
    rw [hdrop] at hnext
    have hadv : s.advanced q (n + 1) = (s.dropHead q).advanced q n := rfl
    unfold discardHeads
    rw [run_bind_ok (run_get s), hadv, hdrop]
    simp only [hk, hx]
    exact (run_bind_ok (run_set _ s)).trans hnext

/-- QADV that finds its heads ready discards them. -/
theorem qadvOp_ready (hfresh : s.me.part.heads = none) (h : (s.me.reg b.toNat).toNat ≤ (s.queue s.cur (a.toNat - 32)).ready) :
    qadvOp a b s = .ok .seq (s.advanced (a.toNat - 32) (s.me.reg b.toNat).toNat) := by
  unfold qadvOp
  rw [run_bind_ok (run_readReg b s), run_bind_ok (run_me s)]
  simp only [hfresh]
  exact run_bind_ok (discardHeads_ready false h)

theorem advanced_pc (s : State) (q n : Nat) : ((s.advanced q n).strand s.cur).pc = s.me.pc := by
  have hkeep := State.updStrand_keeps Strand.pc (s.discard q n) (s.discard q n).cur (·.setPart Progress.none) (fun _ => rfl) s.cur
  have hpc := (discard_only 0 s q n).pc
  rw [State.me, (discard_only 0 s q n).cur] at hpc
  exact hkeep.trans hpc

theorem advanced_queue (s : State) (q n u r : Nat) : (s.advanced q n).queue u r = (s.discard q n).queue u r :=
  (KeepsField.updStrand (s.discard q n) (s.discard q n).cur (f := (·.setPart Progress.none)) fun _ => rfl).queue_eq u r

/-! The instructions. -/

/-- An instruction that changes one queue completes with that change. -/
theorem updQueue_completes {i : Instr} {w : InstrWord} {ops : List Opnd} {body : M Flow} {g : Queue → Queue}
    (hx : exec i s = insn { word := w, ops := ops } body s) (hops : admitted s ops)
    (hb : body s = .ok .seq (s.updQueue s.cur q g)) : completesWith i s (s.updQueue s.cur q g) (s.me.pc + 4) :=
  scalarOnly_completes hx (check_plainForm hops) hb (.updQueue 0 s s.cur q g)

/-- An instruction that writes one register completes with that write. -/
theorem setReg_completes {i : Instr} {w : InstrWord} {ops : List Opnd} {body : M Flow} {v : Word}
    (hx : exec i s = insn { word := w, ops := ops } body s) (hops : admitted s ops)
    (hb : body s = .ok .seq (s.updMe fun t => t.setReg d.toNat v)) :
    completesWith i s (s.updMe fun t => t.setReg d.toNat v) (s.me.pc + 4) :=
  insn_completes hx (check_plainForm hops) hb (.inl ⟨rfl, by rw [pc_updMe_setReg, State.me]⟩)

theorem qdrainOp_filled (h : ((s.queue s.cur (a.toNat - 32)).slots.all fun x => x.ready) = true) :
    qdrainOp a s = .ok .seq s := by
  unfold qdrainOp
  rw [run_bind_ok (run_get s)]
  exact if_pos h ▸ rfl

theorem qdrainOp_waits (h : ((s.queue s.cur (a.toNat - 32)).slots.all fun x => x.ready) = false) :
    qdrainOp a s = .error (.park (.queueDrain (a.toNat - 32))) s := by
  unfold qdrainOp
  rw [run_bind_ok (run_get s)]
  simp only [h]
  rfl

/-- The fields after the first are admitted where all are. -/
theorem admitted_tail {o : Opnd} {os : List Opnd} (h : admitted s (o :: os)) : admitted s os :=
  fun x hx => h x (List.mem_cons_of_mem o hx)

theorem qadv_completes {n : Nat} (hq : q = a.toNat - 32) (hops : admitted s [.queue a [] (some false), .reg b])
    (hfresh : s.me.part.heads = none) (hn : n = (s.me.reg b.toNat).toNat) (h : n ≤ (s.queue s.cur q).ready) :
    completesWith (.qadv a b) s (s.advanced q n) (s.me.pc + 4) := by
  subst hq hn
  have hx : exec (.qadv a b) s = execQadv a b s := rfl
  exact insn_completes hx (check_plainForm hops) (qadvOp_ready hfresh h) (.inl ⟨rfl, by rw [advanced_pc]⟩)

end Sys2Proof.Machine

open Sys2Proof Sys2Proof.Machine

/-- Settles O12: each instruction changes its queue or reads it, and QADV discards ready heads one after another. -/
theorem queueInstructions : Obligations.QueueInstructions := by
  unfold Obligations.QueueInstructions
  refine ⟨?_, ?_, ?_⟩
  · rintro s d a q rfl hops
    have hqueue := admitted_tail hops
    have hfill : exec (.qfill d a) s = execQfill d a s := rfl
    have hfree : exec (.qfree d a) s = execQfree d a s := rfl
    have hreset : exec (.qreset a) s = execQreset a s := rfl
    have hdrain : exec (.qdrain a) s = execQdrain a s := rfl
    exact ⟨setReg_completes hfill hops rfl, setReg_completes hfree hops rfl, updQueue_completes hreset hqueue rfl,
      fun h => insn_completes hdrain (check_plainForm hqueue) (qdrainOp_filled h) (.inl ⟨rfl, rfl⟩),
      fun h => hdrain.trans (insn_park (check_plainForm hqueue) (qdrainOp_waits h))⟩
  · rintro s a q rfl hops
    have hcommit : exec (.qcommit a) s = execQcommit a s := rfl
    exact updQueue_completes hcommit hops rfl
  · intro s a b q n hq hops hfresh hn hle
    obtain ⟨hslots, hhead, hothers⟩ := discard_queue s q n
    refine ⟨_, qadv_completes hq hops hfresh hn hle, ?_, ?_, (discard_only 0 s q n).device, fun r hr => ?_⟩
    · rw [advanced_queue, hslots]
    · rw [advanced_queue, hhead]
    · rw [advanced_queue, hothers r hr]

end

section
/-! The steps of a vector load (R173-R175): its elements one after another, into a register or as a whole. -/

namespace Sys2Proof.Machine

variable {s s0 s1 s2 s3 e : State} {v : VAccess} {is : List Nat} {f : Nat → Nat} {d : BitVec 6}

/-! The elements. -/

/-- What each element leaves behind is performed with it. -/
theorem perform_loadsAll {put : Nat → Nat → State → State} {one : Nat → M Unit} {early : Nat → List Nat → Bool}
    (hone : ∀ i x s s', answers (loadElem v i) s x s' → one i s = .ok () (put i x s')) (h : loadsAll v put is f s s1) :
    perform early one is s = .ok (is, none) s1 := by
  induction is generalizing s with
  | nil =>
    obtain rfl : s1 = s := h
    rfl
  | cons i is ih =>
    obtain ⟨s', hload, hrest⟩ := h
    unfold perform
    rw [run_bind_ok (attempt_ok (hone i _ s s' hload))]
    dsimp only
    rw [run_bind_ok (ih hrest)]
    rfl

/-- A load into a register whose elements are all performed comes to its end. -/
theorem loadReg_runs (his : s.me.todo v.w v.n = is) (hready : answers (vecReady d.toNat) s () s)
    (hch : answers (checkChannels v is) s () s)
    (hload : loadsAll v (fun i x s => s.updMe fun t => t.setVec d.toNat (setElem (t.vec d.toNat) v.w i x) ((i + 1) * v.w / 8))
      is f s s1) (hend : answers (vmemEnd 4) s1 () e) : loadReg d v s = .ok () e := by
  subst his
  unfold loadReg
  rw [run_bind_ok (run_me s)]
  refine (run_bind_ok hready).trans ((run_bind_ok hch).trans ((run_bind_ok (perform_loadsAll ?_ hload)).trans hend))
  intro i x s s' h
  exact run_bind_ok h

/-- The elements that a load as a whole has loaded. -/
theorem loadAll_runs {body : Nat → Vec → M (ForInStep Vec)}
    (hbody : ∀ i r s x s', answers (loadElem v i) s x s' → body i r s = .ok (.yield (setElem r v.w i x)) s')
    (h : loadsAll v (fun _ _ s => s) is f s s1) (r : Vec) :
    (forIn is r body : M Vec) s = .ok (putElems r v.w is f) s1 := by
  induction is generalizing s r with
  | nil =>
    obtain rfl : s1 = s := h
    rfl
  | cons i is ih =>
    obtain ⟨s', hload, hrest⟩ := h
    rw [List.forIn_cons, run_bind_ok (hbody i r s _ s' hload)]
    exact ih hrest _

theorem loadWhole_runs (his : s.me.todo v.w v.n = is) (hcheck : answers (checkElems .load v is) s () s1)
    (hch : answers (checkChannels v is) s1 () s1) (hload : loadsAll v (fun _ _ s => s) is f s1 s2) (r : Vec) :
    loadWhole v r s = .ok (putElems r v.w is f, topOf is * v.w / 8) s2 := by
  subst his
  unfold loadWhole
  rw [run_bind_ok (run_me s)]
  refine (run_bind_ok hcheck).trans ((run_bind_ok hch).trans ((run_bind_ok (loadAll_runs ?_ hload r)).trans rfl))
  intro i r s x s' h
  exact run_bind_ok h

/-! The load. -/

section
variable {st : BitVec 2} {whole : Bool} (hst : answers (streamReady st.toNat) s () s)
include hst

theorem vload_register (hd : d.toNat < 32) (h : loadReg d v s = .ok () e) : vload d false st v s = .ok .seq e := by
  unfold vload
  rw [run_bind_ok hst]
  simp only [hd, if_true]
  exact run_bind_ok h

theorem vload_whole {r : Vec} {n : Nat} (hd : d.toNat < 32) (hready : answers (vecReady d.toNat) s () s)
    (hload : loadWhole v (s.me.vec d.toNat) s = .ok (r, n) s2) (hwrite : answers (writeV d r n) s2 () s3)
    (hend : answers (vmemEnd 4) s3 () e) : vload d true st v s = .ok .seq e := by
  unfold vload
  rw [run_bind_ok hst]
  simp only [hd, if_true]
  rw [run_bind_ok hready, run_bind_ok (run_me s), run_bind_ok hload]
  dsimp only
  rw [run_bind_ok hwrite, run_bind_ok hend]
  rfl

theorem vload_queue {slot gen n : Nat} {r : Vec} (hd : 32 ≤ d.toNat)
    (halloc : answers (allocSlot (d.toNat - 32) ⟨false, false, 0, []⟩) s (slot, gen) s0)
    (hload : loadWhole v 0 s0 = .ok (r, n) s2) (hfill : answers (fillLater (d.toNat - 32) slot gen r) s2 () e) :
    vload d whole st v s = .ok .seq e := by
  unfold vload
  rw [run_bind_ok hst]
  simp only [Nat.not_lt.mpr hd, if_false]
  rw [run_bind_ok halloc]
  dsimp only
  rw [run_bind_ok hload]
  dsimp only
  rw [run_bind_ok hfill]
  rfl

end

/-- An instruction that is such a load under its form's checks completes as one. -/
theorem vload_loadsVector {i : Instr} {F : Form} {body : M Flow} {st : BitVec 2} {whole : Bool} (hx : exec i s = insn F body s)
    (hc : F.check s = none) (hb : body s = vload d whole st v s) : loadsVector i s d st v whole := by
  intro s1 s2 s3 e f is his hst
  have hdone {e : State} (h : vload d whole st v s = .ok .seq e) : completesWith i s e ((e.strand s.cur).pc + 4) :=
    insn_completes hx hc (hb.trans h) (.inl ⟨rfl, rfl⟩)
  refine ⟨fun hd hw hready hch hload hend => hdone ?_, fun hd hw hready hcheck hch hload hwrite hend => hdone ?_,
    fun s0 slot gen hd halloc hsame hcheck hch hload hfill => hdone ?_⟩
  · rw [hw]
    exact vload_register hst hd (loadReg_runs his.symm hready hch hload hend)
  · rw [hw]
    exact vload_whole hst hd hready (loadWhole_runs his.symm hcheck hch hload _) hwrite hend
  · exact vload_queue hst hd halloc (loadWhole_runs hsame hcheck hch hload 0) hfill

end Sys2Proof.Machine
end

section
/-! VLDB and VLDFF (R173, R174, R176): one access for all elements, and a load that its first fault cuts. -/

namespace Sys2Proof.Machine

variable {s s0 s1 s2 e : State} {v : VAccess} {is below above : List Nat} {f : Nat → Nat} {d : BitVec 6} {j k : Nat} {x : Trap}
  {old r : Vec} {place : Option (Nat × Nat)} {st : BitVec 2} {part : Bool}

/-- An effect that stops part-way with such a trap leaves what it has done, and the trap is taken (R368). -/
theorem insn_takesTrapAt {F : Form} {body : M Flow} (hc : F.check s = none) (hb : body s = .error (.trapAt x part) e)
    (h3 : x.cause ≠ 3) (he : x.isEffect = false) : insn F body s = .next (takeTrap e e.cur x false part) := by
  simp only [insn, hc, hb, stopTrap_eq_takeTrap h3 he]

/-! VLDB. -/

section
variable (hst : answers (streamReady st.toNat) s () s) (hold : answers (oldV d) s old s)
  (hplace : answers (loadSlot d) s place s0)
include hst hold hplace

theorem vldbOp_idle (hidle : s.me.fromStart v.n = []) (h : answers (deliverLoad d place 0 none) s0 () e) :
    vldbOp d st v s = .ok .seq e := by
  unfold vldbOp
  rw [run_bind_ok hst, run_bind_ok (run_me s), run_bind_ok hold, run_bind_ok hplace, hidle]
  exact run_bind_ok h

variable {rest : List Nat} (hlow : s.me.fromStart v.n = j :: rest) (hch : answers (checkChannels v [j]) s0 () s0)
include hlow hch

theorem vldbOp_loads {y : Nat} (hload : answers (loadElem v j) s0 y s1)
    (h : answers (deliverLoad d place (putElems old v.w (s.me.todo v.w v.n) fun _ => y)
      (some (topOf (s.me.todo v.w v.n) * v.w / 8))) s1 () e) : vldbOp d st v s = .ok .seq e := by
  unfold vldbOp
  rw [run_bind_ok hst, run_bind_ok (run_me s), run_bind_ok hold, run_bind_ok hplace, hlow]
  dsimp only
  rw [run_bind_ok hch, run_bind_ok (attempt_ok hload)]
  exact run_bind_ok h

theorem vldbOp_faults (hd : d.toNat < 32) (hload : stops (loadElem v j) s0 x)
    (h : stopAt v x j [] 4 s0 = .error (.trapAt x part) e) : vldbOp d st v s = .error (.trapAt x part) e := by
  obtain ⟨s', hload⟩ := hload
  unfold vldbOp
  rw [run_bind_ok hst, run_bind_ok (run_me s), run_bind_ok hold, run_bind_ok hplace, hlow]
  dsimp only
  rw [run_bind_ok hch, run_bind_ok (attempt_error hload)]
  simp only [hd, if_true]
  exact run_bind_error h

end

/-! VLDFF. -/

/-- Elements that are loaded without a fault go before those that follow them. -/
theorem faultFirst_append {rest done : List Nat} {r' : Vec} {stop : Option (Nat × Trap)} (h : loadsFirst v below f s s1)
    (hrest : faultFirst v k rest (putElems r v.w below f) s1 = .ok (r', done, stop) e) :
    faultFirst v k (below ++ rest) r s = .ok (r', below ++ done, stop) e := by
  induction below generalizing s r with
  | nil =>
    obtain rfl : s1 = s := h
    exact hrest
  | cons i below ih =>
    obtain ⟨hch, s', hload, hbelow⟩ := h
    rw [List.cons_append, faultFirst, run_bind_ok hch, run_bind_ok (attempt_ok hload)]
    exact run_bind_ok (ih hbelow hrest)

theorem faultFirst_all (h : loadsFirst v is f s s1) : faultFirst v k is r s = .ok (putElems r v.w is f, is, none) s1 := by
  have hall := faultFirst_append (k := k) (rest := []) h (run_pure (putElems r v.w is f, [], none) s1)
  rwa [List.append_nil] at hall

/-- What VLDFF keeps of the fault of an element: that of the first active one and a watch are taken, another cuts the strip
(R176, R369). -/
def firstFault (k j : Nat) (x : Trap) : Trap := if j = k ∨ x.cause = 17 then x else ⟨0, 0, 0⟩

theorem faultFirst_stops (h : loadsFirst v below f s s1) (hch : answers (checkChannel (v.addr j) (v.w / 8)) s1 () s1)
    (hload : stops (loadElem v j) s1 x) : faultFirst v k (below ++ j :: above) r s =
      .ok (putElems r v.w below f, below, some (j, firstFault k j x)) s1 := by
  obtain ⟨s', hload⟩ := hload
  have hstop : faultFirst v k (j :: above) (putElems r v.w below f) s1 =
      .ok (putElems r v.w below f, [], some (j, firstFault k j x)) s1 := by
    rw [faultFirst, run_bind_ok hch, run_bind_ok (attempt_error hload)]
    rfl
  have hall := faultFirst_append h hstop
  rwa [List.append_nil] at hall

section
variable {done : List Nat} (hst : answers (streamReady st.toNat) s () s) (hold : answers (oldV d) s old s)
  (hplace : answers (loadSlot d) s place s0)
include hst hold hplace

theorem vldffOp_whole
    (hload : faultFirst v ((s.me.fromStart v.n).headD v.n) (s.me.todo v.w v.n) old s0 = .ok (r, done, none) s1)
    (h : answers (deliverLoad d place r (some (topOf done * v.w / 8))) s1 () e) : vldffOp d st v s = .ok .seq e := by
  unfold vldffOp
  rw [run_bind_ok hst, run_bind_ok (run_me s), run_bind_ok hold, run_bind_ok hplace]
  dsimp only
  rw [run_bind_ok hload]
  exact run_bind_ok h

theorem vldffOp_cut (hx : x.cause = 0)
    (hload : faultFirst v ((s.me.fromStart v.n).headD v.n) (s.me.todo v.w v.n) old s0 = .ok (r, done, some (j, x)) s1)
    (h : answers (deliverLoad d place r (some (topOf done * v.w / 8)))
      (s1.updMe fun t => { t with vl := BitVec.ofNat 64 (j + vlCode v.w * 4096) }) () e) : vldffOp d st v s = .ok .seq e := by
  unfold vldffOp
  rw [run_bind_ok hst, run_bind_ok (run_me s), run_bind_ok hold, run_bind_ok hplace]
  dsimp only
  rw [run_bind_ok hload]
  dsimp only
  rw [if_neg (not_not.mpr hx), run_bind_ok (run_updMe _ s1)]
  exact run_bind_ok h

theorem vldffOp_faults (hx : x.cause ≠ 0) (hd : d.toNat < 32)
    (hload : faultFirst v ((s.me.fromStart v.n).headD v.n) (s.me.todo v.w v.n) old s0 = .ok (r, done, some (j, x)) s1)
    (hwrite : answers (writeV d r (topOf done * v.w / 8)) s1 () s2)
    (h : stopAt v x j done 4 s2 = .error (.trapAt x part) e) : vldffOp d st v s = .error (.trapAt x part) e := by
  unfold vldffOp
  rw [run_bind_ok hst, run_bind_ok (run_me s), run_bind_ok hold, run_bind_ok hplace]
  dsimp only
  rw [run_bind_ok hload]
  dsimp only
  rw [if_pos hx, if_pos hd]
  exact (run_bind_ok hwrite).trans (run_bind_error h)

end

/-! The instructions. -/

/-- The checks of a vector load pass off the execute strand, on a core of its classes. -/
theorem check_vectorLoad {w : InstrWord} {ops : List Opnd} {classes : Nat} {xs : List Nat} (he : s.me.isExecute = false)
    (hops : admitted s ops) (hcl : onClass s classes) :
    ({ word := w, ops := ops, bar := true, classes := classes, xfields := xs } : Form).check s = none :=
  (Form.check_none _ s).mpr ⟨rfl, nofun, hops, fun _ => he, hcl⟩

section
variable {b : BitVec 6} {w : BitVec 2} {h : BitVec 1} (he : s.me.isExecute = false) (hops : admitted s [.data d 2 true, .reg b])
include he hops

theorem vldb_completes (hrun : vldbOp d st (broadcastAccess s.me b w) s = .ok .seq e) :
    completesWith (.vldb d b w st h) s e ((e.strand s.cur).pc + 4) := by
  have hx : exec (.vldb d b w st h) s = execVldb d b w st h s := rfl
  exact insn_completes hx (check_vectorLoad he hops (onClass_all s)) ((run_bind_ok (run_me s)).trans hrun) (.inl ⟨rfl, rfl⟩)

theorem vldb_traps (hrun : vldbOp d st (broadcastAccess s.me b w) s = .error (.trapAt x part) e) (h3 : x.cause ≠ 3)
    (heff : x.isEffect = false) : exec (.vldb d b w st h) s = .next (takeTrap e e.cur x false part) := by
  have hx : exec (.vldb d b w st h) s = execVldb d b w st h s := rfl
  exact hx.trans (insn_takesTrapAt (check_vectorLoad he hops (onClass_all s)) ((run_bind_ok (run_me s)).trans hrun) h3 heff)

theorem vldff_completes (hrun : vldffOp d st (unitAccess s.me b w) s = .ok .seq e) :
    completesWith (.vldff d b w st h) s e ((e.strand s.cur).pc + 4) := by
  have hx : exec (.vldff d b w st h) s = execVldff d b w st h s := rfl
  exact insn_completes hx (check_vectorLoad he hops (onClass_all s)) ((run_bind_ok (run_me s)).trans hrun) (.inl ⟨rfl, rfl⟩)

theorem vldff_traps (hrun : vldffOp d st (unitAccess s.me b w) s = .error (.trapAt x part) e) (h3 : x.cause ≠ 3)
    (heff : x.isEffect = false) : exec (.vldff d b w st h) s = .next (takeTrap e e.cur x false part) := by
  have hx : exec (.vldff d b w st h) s = execVldff d b w st h s := rfl
  exact hx.trans (insn_takesTrapAt (check_vectorLoad he hops (onClass_all s)) ((run_bind_ok (run_me s)).trans hrun) h3 heff)

end

end Sys2Proof.Machine

open Sys2Proof Sys2Proof.Machine

/-- Settles O40: VLD, VLDS and VLDX are one load at their addresses, and VLDB and VLDFF go by what their accesses answer. -/
theorem vectorLoads : Obligations.VectorLoads := by
  unfold Obligations.VectorLoads
  intro s d b i w st h he
  have hvld : exec (.vld d b w st h) s = execVld d b w st h s := rfl
  have hvlds : exec (.vlds d b w st h) s = execVlds d b w st h s := rfl
  have hvldx : exec (.vldx d b i w st h) s = execVldx d b i w st h s := rfl
  refine ⟨fun hops => ⟨?_, ?_⟩, fun hops hcl hready => ?_, fun hops hst v is old place s0 his hold hplace _ => ⟨?_, ?_⟩⟩
  · exact vload_loadsVector hvld (check_vectorLoad he hops (onClass_all s)) (run_bind_ok (run_me s))
  · exact vload_loadsVector hvlds (check_vectorLoad he hops (onClass_all s)) (run_bind_ok (run_me s))
  · exact vload_loadsVector hvldx (check_vectorLoad he hops hcl) ((run_bind_ok hready).trans (run_bind_ok (run_me s)))
  · rintro rfl
    subst his
    refine ⟨fun j rest hlow hch => ⟨fun x s1 e hload hdeliver => ?_, fun x part e hload h3 heff hd hstop => ?_⟩,
      fun e hidle hdeliver => ?_⟩
    · exact vldb_completes he hops (vldbOp_loads hst hold hplace hlow hch hload hdeliver)
    · exact vldb_traps he hops (vldbOp_faults hst hold hplace hlow hch hd hload hstop) h3 heff
    · exact vldb_completes he hops (vldbOp_idle hst hold hplace hidle hdeliver)
  · rintro rfl s1 f
    refine ⟨fun e hall hdeliver => ?_, fun below j above x hparts hbelow hch hload => ?_⟩
    · subst his
      exact vldff_completes he hops (vldffOp_whole hst hold hplace (faultFirst_all hall) hdeliver)
    have hfault := faultFirst_stops (above := above) (r := old)
      (k := (s.me.fromStart (unitAccess s.me b w).n).headD (unitAccess s.me b w).n) hbelow hch hload
    rw [← hparts, his, firstFault] at hfault
    refine ⟨fun hj hwatch e hdeliver => ?_, fun hfirst h0 h3 heff hd s2 part e hwrite hstop => ?_⟩
    · rw [if_neg (not_or.mpr ⟨hj, hwatch⟩)] at hfault
      exact vldff_completes he hops (vldffOp_cut hst hold hplace rfl hfault hdeliver)
    · rw [if_pos hfirst] at hfault
      exact vldff_traps he hops (vldffOp_faults hst hold hplace h0 hd hfault hwrite hstop) h3 heff

end

section
/-! The read point of a booth entry (R279, R281): what the home of its bytes answers. -/

namespace Sys2Proof.Machine

variable {s s' s1 : State} {slice entry pa n p : Nat} {l : Leaf} {b : Booth}

/-- What the answer of a line's home rests on is as before: memory, the write-backs in flight, the parcels, the module's keys, and
the line's code and key. -/
structure SameHome (p : Nat) (s s' : State) : Prop where
  mem : s'.mem = s.mem
  writeBacks : s'.writeBacks = s.writeBacks
  parcels : s'.parcels = s.parcels
  module : s'.module = s.module
  code : (s'.line p).code = (s.line p).code
  key : (s'.line p).key = (s.line p).key

namespace SameHome

theorem refl (p : Nat) (s : State) : SameHome p s s := ⟨rfl, rfl, rfl, rfl, rfl, rfl⟩

theorem trans (h : SameHome p s s1) (h' : SameHome p s1 s') : SameHome p s s' :=
  ⟨h'.mem.trans h.mem, h'.writeBacks.trans h.writeBacks, h'.parcels.trans h.parcels, h'.module.trans h.module,
    h'.code.trans h.code, h'.key.trans h.key⟩

/-- The touch of a line for which there is room. -/
theorem touchRead (hroom : s.roomFor pa) (hmoved : s.movedPa pa = pa) (hlog : (s.parcel (pa / 65536)).log = []) (ctx : Nat)
    (va : Word) : SameHome (pa / 128) s (touchRead s pa ctx va false) := by
  unfold Machine.touchRead
  rw [hmoved, hlog, if_pos List.isEmpty_nil, ← touchLine_line]
  rcases touchLine_roomFor (roomFor_line.mpr hroom) ctx va with h | h
  · rw [h]
    exact refl ..
  · rw [h]
    exact ⟨rfl, rfl, rfl, rfl, by rw [State.updLine_line, if_pos rfl], by rw [State.updLine_line, if_pos rfl]⟩

/-- A core's copies are no affair of the home. -/
theorem dropUntracked (p : Nat) (s : State) (core line : Nat) : SameHome p s (dropUntracked s core line) := by
  unfold Machine.dropUntracked
  extract_lets s1
  have h1 : SameHome p s s1 := by
    unfold s1
    split
    · split <;> exact ⟨rfl, rfl, rfl, rfl, rfl, rfl⟩
    · exact refl ..
  clear_value s1
  split
  · split
    · exact h1
    · exact h1.trans ⟨rfl, rfl, rfl, rfl, rfl, rfl⟩
  · exact h1

theorem nextRequest (p : Nat) (s : State) (agent : Nat) : SameHome p s (nextRequest s agent) := ⟨rfl, rfl, rfl, rfl, rfl, rfl⟩

theorem ite {c : Prop} [Decidable c] (h : SameHome p s s1) (h' : SameHome p s s') : SameHome p s (if c then s1 else s') := by
  split
  · exact h
  · exact h'

end SameHome

/-- Where no agent owns the lines of bytes and no write-back is in flight, their home reads them in memory. -/
theorem coherentBytes_memory (hcode : ∀ i, i < n → (s.line ((pa + i) / 128)).code = 0) (hwb : s.writeBacks = []) :
    coherentBytes s pa n = memBytes s.mem pa n := by
  induction n generalizing pa with
  | zero => rfl
  | succ n ih =>
    have hfirst : (s.line (pa / 128)).code = 0 := hcode 0 (Nat.succ_pos n)
    have hrest : ∀ i, i < n → (s.line ((pa + 1 + i) / 128)).code = 0 := fun i hi => by
      rw [Nat.add_right_comm]
      exact hcode (i + 1) (Nat.succ_lt_succ hi)
    rw [coherentBytes, ih hrest]
    simp [hfirst, hwb, memBytes]

/-- Bytes whose lines have the key of their leaf decrypt to themselves (R424). -/
theorem decrypted_keyed {bs : List Byte} (h : ∀ i, i < bs.length → (s.line ((l.pa + i) / 128)).key = keyId s l.keyIndex) :
    decrypted s l bs = bs := by
  unfold decrypted
  split
  · refine List.ext_getElem (by simp) fun i hi hi' => ?_
    simp [h i hi']
  · rfl

/-- Memory at whose home a read meets nothing that keeps its bytes from being those of memory. -/
structure State.plainRead (s : State) (l : Leaf) (n : Nat) : Prop where
  unlogged : inLogStore l.pa = false
  unmoved : s.movedPa l.pa = l.pa
  quiet : s.writeBacks = []
  parcel : (s.parcel (l.pa / 65536)).log = [] ∧ (s.parcel (l.pa / 65536)).held = []
  unheld : (s.line (l.pa / 128)).code = 0
  keyed : (s.line (l.pa / 128)).key = keyId s l.keyIndex
  inside : l.pa % 128 + n ≤ 128

/-- That rests on the home of the line. -/
theorem State.plainRead.congr (h : s.plainRead l n) (hs : SameHome (l.pa / 128) s s') : s'.plainRead l n := by
  obtain ⟨hlog, hmoved, hwb, hparcel, hcode, hkey, hin⟩ := h
  have hparcels : s'.parcel = s.parcel := by
    funext f
    rw [State.parcel, hs.parcels, State.parcel]
  refine ⟨hlog, ?_, hs.writeBacks.trans hwb, by rwa [hparcels], hs.code.trans hcode, ?_, hin⟩
  · unfold State.movedPa at hmoved ⊢
    rwa [hparcels]
  · rw [hs.key, hkey, keyId, keyId, hs.module]

theorem homeRead_plain (h : s.plainRead l n) : decrypted s l (homeRead s l.pa n) = memBytes s.mem l.pa n := by
  obtain ⟨hlogged, hmoved, hwb, ⟨hlog, hheld⟩, hcode, hkey, hin⟩ := h
  have hline : ∀ i, i < n → (l.pa + i) / 128 = l.pa / 128 := fun i hi => by omega
  have hread : homeRead s l.pa n = memBytes s.mem l.pa n := by
    unfold homeRead
    simp only [hmoved, hlogged, hlog, hheld]
    exact coherentBytes_memory (fun i hi => by rw [hline i hi, hcode]) hwb
  rw [hread]
  refine decrypted_keyed fun i hi => ?_
  rw [memBytes_length] at hi
  rw [hline i hi, hkey]

/-- The leaf of an entry, at the bytes that it asks for. -/
def Booth.asked (b : Booth) : Leaf := ⟨b.leaf, b.pa, 0, 1⟩

/-- The state after the read point of an entry whose line no agent owns. -/
def State.captured (s : State) (b : Booth) : State :=
  let t := touchRead s b.pa b.ctx b.va b.asked.counterEnable
  nextRequest (if b.asked.cls ≤ 1 then dropUntracked t b.core (b.pa / 128) else t) (asker t b.core b.asked)

theorem capture_unowned (hsound : poisonedAt s b.asked b.size = false) (hfree : (s.line (b.pa / 128)).code ≠ 2) :
    capture s b = (leWord 1024 (decrypted (s.captured b) b.asked (homeRead (s.captured b) b.pa b.size)), false, s.captured b) := by
  unfold capture
  extract_lets l line before owners s1 s2 s3 s4 s5
  have hpoison : ¬ poisonedAt s l b.size = true := Bool.eq_false_iff.mp hsound
  rw [if_neg hpoison]
  have howners : owners = [] := if_neg hfree
  clear_value owners
  subst howners
  rfl

/-- A read point at plain memory captures its bytes (R279). -/
theorem capture_plain (h : s.plainRead b.asked b.size) (hroom : s.roomFor b.pa) (hcount : b.asked.counterEnable = false)
    (hsound : poisonedAt s b.asked b.size = false) :
    (capture s b).1 = BitVec.ofNat 1024 (leNat (memBytes s.mem b.pa b.size)) ∧ (capture s b).2.1 = false := by
  have hcode : (s.line (b.pa / 128)).code = 0 := h.unheld
  have htouch := SameHome.touchRead hroom h.unmoved h.parcel.1 b.ctx b.va
  have hsame : SameHome (b.pa / 128) s (s.captured b) := by
    unfold State.captured
    rw [hcount]
    refine htouch.trans (.trans (.ite (.dropUntracked ..) (.refl ..)) (.nextRequest ..))
  have hread := homeRead_plain (h.congr hsame)
  rw [capture_unowned hsound (by omega), leWord]
  refine ⟨?_, rfl⟩
  rw [← hsame.mem]
  exact congrArg (fun bs => BitVec.ofNat 1024 (leNat bs)) hread

end Sys2Proof.Machine
end

section
/-! Booth entries: their read point, delivery, claim, withdrawal and expiry (R279-R289). -/

namespace Sys2Proof.Machine

variable {s s' s1 : State} {slice entry u d kind : Nat} {b : Booth} {tk : Word}

/-! Entries, read after write. -/

theorem booth_setBooth (s : State) (slice entry : Nat) (b : Booth) : (s.setBooth slice entry b).booth slice entry = b := by
  rw [State.booth, State.setBooth, State.updDie_die, if_pos rfl, Tab.get_set_self]

/-- The entries are the dies'. -/
theorem booth_congr (h : s'.dies = s.dies) (slice entry : Nat) : s'.booth slice entry = s.booth slice entry := by
  rw [State.booth, State.die, h, State.booth, State.die]

theorem State.dies_of_device (h : s'.device = s.device) : s'.dies = s.dies :=
  (congrArg State.dies h : s'.device.dies = s.device.dies)

theorem State.mem_of_device (h : s'.device = s.device) : s'.mem = s.mem :=
  (congrArg State.mem h : s'.device.mem = s.device.mem)

/-! The read point. -/

theorem boothFill_captures {g : Gate} {v : BitVec 1024} {p : Bool} (harr : (s.booth slice entry).arrived = false)
    (hst : (s.booth slice entry).st = .pending ∨ (s.booth slice entry).st = .claimed)
    (hg : g = replayGate s (s.booth slice entry).issuer (slice / 32) 3 (holdExpired s (slice / 32) (.boothFill slice entry)))
    (hcap : capture (dropHold s (slice / 32) (.boothFill slice entry)) (s.booth slice entry) = (v, p, s1)) :
    boothFill s slice entry = (replayDone s1 (s.booth slice entry).issuer (slice / 32) 3 g).setBooth slice entry
      { s.booth slice entry with
        st := if (s.booth slice entry).st = .pending then .ready else .claimed, data := v, poison := p, arrived := true } := by
  subst hg
  unfold boothFill
  rcases hst with hst | hst <;> simp only [harr, hst, hcap] <;> rfl

/-- The read of a released entry is made for nothing. -/
theorem boothFill_released (harr : (s.booth slice entry).arrived = false) (hst : (s.booth slice entry).st.released = true) :
    (boothFill s slice entry).booth slice entry = { s.booth slice entry with arrived := true } := by
  have hfree : (s.booth slice entry).st ≠ .free := fun h => by
    rw [h] at hst
    cases hst
  unfold boothFill
  extract_lets b die e g
  rw [if_neg (not_or.mpr ⟨by rw [harr]; exact Bool.false_ne_true, hfree⟩), if_pos hst]
  exact booth_setBooth ..

/-! Delivery. -/

/-- The state in which an entry has been delivered to a strand: it is Redeemed, and its landing slot is free. -/
def State.delivered (s : State) (u slice entry : Nat) : State :=
  releaseLanding (redeemEntry s slice entry) (s.strand u).core u

theorem delivered_booth (s : State) (u slice entry : Nat) :
    ((s.delivered u slice entry).booth slice entry).st = .redeemed := by
  have hset := booth_setBooth s slice entry { s.booth slice entry with st := .redeemed, released := s.tick, data := 0 }
  exact congrArg Booth.st ((booth_congr rfl slice entry).trans hset)

theorem delivered_mem (s : State) (u slice entry : Nat) : (s.delivered u slice entry).mem = s.mem := rfl

/-- Of a strand it changes the tickets outstanding at most. -/
theorem delivered_keeps {β : Type} {g : Strand → β} (hg : ∀ t n, g { t with tickets := n } = g t) (s : State)
    (u slice entry : Nat) : KeepsField g s (s.delivered u slice entry) :=
  ⟨State.updStrand_keeps g (s.setBooth slice entry { s.booth slice entry with
    st := .redeemed, released := s.tick, data := 0 }) _ _ fun t => hg t _⟩

/-- A strand whose register takes a value and that goes on past its instruction. -/
def State.passes (s : State) (u d : Nat) (v : Word) : State :=
  ((wake s u).updStrand u fun t => t.setReg d v).updStrand u fun t => { t with pc := t.pc + 4 }

theorem passes_device (s : State) (u d : Nat) (v : Word) : (s.passes u d v).device = s.device := by
  rw [State.passes, State.device_updStrand, State.device_updStrand, wake, State.device_updStrand]

/-- It is Ready at the next instruction, with that register written and no other. -/
theorem passes_strand {w : Wait} (h : (s.strand u).run = .parked w) (d : Nat) (v : Word) :
    ((s.passes u d v).strand u).run = .ready ∧ ((s.passes u d v).strand u).pc = (s.strand u).pc + 4 ∧
    ∀ r, ((s.passes u d v).strand u).reg r = if r = d ∧ r ≠ 0 then v else (s.strand u).reg r := by
  obtain ⟨tr, htr⟩ := countParked_trace s (s.strand u)
  have hwoken : (wake s u).strand u = { s.strand u with run := .ready, trace := tr } := by
    rw [wake_strand s u h, if_pos rfl, htr]
  have hend : (s.passes u d v).strand u =
      ({ ({ s.strand u with run := .ready, trace := tr } : Strand).setReg d v with
        pc := (({ s.strand u with run := .ready, trace := tr } : Strand).setReg d v).pc + 4 } : Strand) := by
    rw [State.passes, State.updStrand_strand, if_pos rfl, State.updStrand_strand, if_pos rfl, hwoken]
  rw [hend]
  refine ⟨congrArg Strand.run (Strand.setReg_sansScalar ..), congrArg (· + 4) (Strand.setReg_pc ..), fun r => ?_⟩
  refine (Strand.reg_setReg ..).trans ?_
  by_cases hr : r = d
  · subst hr
    rfl
  · rw [if_neg (fun h => hr h.1), if_neg (fun h => hr h.1)]
    rfl

/-- An instruction that is counted unless its strand is at firmware level (R438). -/
def State.counted (s : State) (u : Nat) : State := if (s.strand u).firmware then s else countIssued s u 7

theorem counted_device (s : State) (u : Nat) : (s.counted u).device = s.device := by
  unfold State.counted
  split
  · rfl
  · obtain ⟨-, -, -, hdevice, -⟩ := countIssued_spec s u 7
    exact hdevice

theorem counted_pc (s : State) (u v : Nat) : ((s.counted u).strand v).pc = (s.strand v).pc := by
  unfold State.counted
  split
  · rfl
  · obtain ⟨-, hpc, -⟩ := countIssued_spec s u 7
    exact hpc v

/-- A field that is neither the program counter nor a count. -/
theorem counted_keeps {β : Type} {g : Strand → β} (hg : ∀ t : Strand, g t.uncounted = g t) (s : State) (u : Nat) :
    KeepsField g s (s.counted u) := by
  unfold State.counted
  split
  · exact .refl g s
  · obtain ⟨huncounted, -⟩ := countIssued_spec s u 7
    exact ⟨fun v => by rw [← hg, huncounted, hg]⟩

/-- The state in which an entry has been delivered to a register of the strand that waits for it. -/
def State.deliveredTo (s : State) (u slice entry d : Nat) (v : Word) : State :=
  ((s.delivered u slice entry).passes u d v).counted u

/-- The strand goes on with its register written, and the entry is Redeemed. -/
theorem deliveredTo_spec {w : Wait} (s : State) (slice entry : Nat) (h : (s.strand u).run = .parked w) (d : Nat) (v : Word) :
    ((s.deliveredTo u slice entry d v).strand u).run = .ready ∧
    ((s.deliveredTo u slice entry d v).strand u).pc = (s.strand u).pc + 4 ∧
    (∀ r, ((s.deliveredTo u slice entry d v).strand u).reg r =
      if r = d ∧ r ≠ 0 then v else (s.strand u).reg r) ∧
    ((s.deliveredTo u slice entry d v).booth slice entry).st = .redeemed ∧
    (s.deliveredTo u slice entry d v).mem = s.mem := by
  have hfield {β : Type} (g : Strand → β) (hg : ∀ t n, g { t with tickets := n } = g t) :
      g ((s.delivered u slice entry).strand u) = g (s.strand u) := (delivered_keeps hg s u slice entry).strands u
  obtain ⟨hready, hpc, hreg⟩ := passes_strand ((hfield Strand.run fun _ _ => rfl).trans h) d v
  have hcounted {β : Type} (g : Strand → β) (hg : ∀ t : Strand, g t.uncounted = g t) :=
    (counted_keeps hg ((s.delivered u slice entry).passes u d v) u).strands u
  have hdevice := (counted_device ((s.delivered u slice entry).passes u d v) u).trans (passes_device ..)
  refine ⟨(hcounted Strand.run fun _ => rfl).trans hready, (counted_pc ..).trans (hpc.trans ?_), fun r => ?_, ?_, ?_⟩
  · rw [hfield Strand.pc fun _ _ => rfl]
  · refine (hcounted (Strand.reg · r) fun _ => rfl).trans ((hreg r).trans ?_)
    rw [hfield (Strand.reg · r) fun _ _ => rfl]
  · exact (congrArg Booth.st (booth_congr (State.dies_of_device hdevice) slice entry)).trans (delivered_booth s u slice entry)
  · exact (State.mem_of_device hdevice).trans (delivered_mem s u slice entry)

section
variable {rest : List (Nat × Nat)} (hdel : deliverable s u = (slice, entry) :: rest) (hfence : (s.die (slice / 32)).fenced = false)
include hdel hfence

/-- A scalar that is delivered to its register lets its strand go on. -/
theorem ticketDelivery_register (hdest : (s.booth slice entry).dest = none) (hrun : (s.strand u).run = .parked (.ticket tk 0 d))
    (hpoison : (s.booth slice entry).poison = false) : ticketDelivery s u =
      s.deliveredTo u slice entry d ((s.booth slice entry).value.setWidth 64) := by
  have hrun' : ((s.delivered u slice entry).strand u).run = .parked (.ticket tk 0 d) :=
    ((delivered_keeps (g := Strand.run) (fun _ _ => rfl) s u slice entry).strands u).trans hrun
  unfold State.delivered at hrun'
  unfold ticketDelivery
  simp only [hdel, hfence, hdest, hrun', hpoison]
  rfl

/-- What is delivered to a slot of a queue fills it. -/
theorem ticketDelivery_slot {q slot gen i : Nat} (hdest : (s.booth slice entry).dest = some (q, slot, gen))
    (hplace : (s.queue u q).place slot gen = some i) : ticketDelivery s u =
      (s.delivered u slice entry).updQueue u q fun k =>
        k.updSlot i fun _ => ⟨true, (s.booth slice entry).poison, (s.booth slice entry).value, []⟩ := by
  have hqueue : (s.delivered u slice entry).queue u q = s.queue u q :=
    (delivered_keeps (fun _ _ => rfl) s u slice entry).queue_eq u q
  unfold State.delivered at hqueue
  unfold ticketDelivery
  simp only [hdel, hfence, hdest, hqueue, hplace, Bool.or_false]
  rfl

end

/-! Claims. -/

theorem fencedTicket_open (h : (s.die (tkSlice tk / 32)).fenced = false) : fencedTicket tk s = .ok () s := by
  unfold fencedTicket
  rw [run_bind_ok (run_get s)]
  simp only [h]
  rfl

/-- The state in which the redeem that has waited longest for a landing slot of its core makes its claim. -/
def State.landed (s : State) (u : Nat) : State :=
  { (wake s u).updCore (s.strand u).core fun c => { c with landers := c.landers.filter (· != u) } with cur := u }

/-- A claim that goes through lets its strand go on; at firmware level nothing is counted. -/
theorem boothClaim_claims (hrun : (s.strand u).run = .parked (.landing tk kind d))
    (hroom : (s.core (s.strand u).core).landing.length < 128) (hfirst : (landQueue s (s.strand u).core).head? = some u)
    (hfence : (s.die (tkSlice tk / 32)).fenced = false) (hclaim : answers (claimTicket tk kind d) (s.landed u) .seq s')
    (hfw : (s'.strand u).firmware = true) : boothClaim s u = s'.updStrand u fun t => { t with pc := t.pc + 4 } := by
  have hopen : fencedTicket tk (s.landed u) = .ok () (s.landed u) := fencedTicket_open hfence
  have hboth : (do fencedTicket tk; claimTicket tk kind d) (s.landed u) = .ok .seq s' := (run_bind_ok hopen).trans hclaim
  have hlevel : ((s'.updStrand u fun t => { t with pc := t.pc + 4 }).strand u).firmware = true := by
    rw [State.updStrand_strand, if_pos rfl]
    exact hfw
  unfold State.landed at hboth
  unfold boothClaim
  simp only [hrun, hfirst, Nat.not_le.mpr hroom, hboth, hlevel, ne_eq, not_true_eq_false, or_self, if_false, if_true]

/-- The state in which a redeem has been withdrawn: its claim is taken back, and its strand wakes. -/
def State.withdrawn (s : State) (u slice entry : Nat) : State := wake (unclaim s slice entry (s.strand u).core) u

theorem ticketWithdrawal_one (hrun : (s.strand u).run = .parked (.ticket tk kind d)) (hclaimed : claimedBy s u = [(slice, entry)]) :
    ticketWithdrawal s u = s.withdrawn u slice entry := by
  have hrun' : ((unclaim s slice entry (s.strand u).core).strand u).run = .parked (.ticket tk kind d) := hrun
  unfold ticketWithdrawal
  rw [hclaimed]
  simp only [List.foldl_cons, List.foldl_nil, hrun']
  rfl

theorem unclaim_booth (s : State) (slice entry core : Nat) : (unclaim s slice entry core).booth slice entry =
    { s.booth slice entry with st := if (s.booth slice entry).arrived then .ready else .pending, claimer := 0 } :=
  booth_setBooth ..

/-- The strand is Ready at its redeem again, and the entry is as it was before the claim. -/
theorem withdrawn_spec {w : Wait} (s : State) (slice entry : Nat) (h : (s.strand u).run = .parked w) :
    ((s.withdrawn u slice entry).strand u).run = .ready ∧
    ((s.withdrawn u slice entry).strand u).pc = (s.strand u).pc ∧
    (∀ r, ((s.withdrawn u slice entry).strand u).reg r = (s.strand u).reg r) ∧
    (s.withdrawn u slice entry).booth slice entry =
      { s.booth slice entry with st := if (s.booth slice entry).arrived then .ready else .pending, claimer := 0 } := by
  have hparked : ((unclaim s slice entry (s.strand u).core).strand u).run = .parked w := h
  have hkeep {β : Type} (g : Strand → β) (hg : ∀ t r tr, g { t with run := r, trace := tr } = g t) :
      g ((s.withdrawn u slice entry).strand u) = g (s.strand u) := (KeepsField.wake hg ..).strands u
  exact ⟨wake_ready (.inl (by rw [hparked]; rfl)), hkeep Strand.pc fun _ _ _ => rfl,
    fun r => hkeep (Strand.reg · r) fun _ _ _ => rfl, unclaim_booth s slice entry (s.strand u).core⟩

/-! Expiry. -/

theorem ticketExpiry_expires (h : boothExpired s (s.booth slice entry) = true) :
    ((ticketExpiry s slice entry).booth slice entry).st = .expired ∧
    ((ticketExpiry s slice entry).context (s.booth slice entry).ctx).orphans =
      (s.context (s.booth slice entry).ctx).orphans + 1 ∧
    (ticketExpiry s slice entry).mem = s.mem := by
  unfold ticketExpiry
  extract_lets b s1
  rw [if_pos h]
  have horphans := State.updContext_context s1 b.ctx (fun c => { c with orphans := c.orphans + 1 }) b.ctx
  rw [if_pos rfl] at horphans
  exact ⟨congrArg Booth.st (booth_setBooth s slice entry _), congrArg Context.orphans horphans, rfl⟩

end Sys2Proof.Machine
end

section
/-! Fills of queue slots and of window lines (R137, R143, R148, R262, R410). -/

namespace Sys2Proof.Machine

variable {s s' : State} {u q slot gen idx line : Nat}

/-! Queue slots. -/

theorem KeepsButRecords.pipeClose (s : State) (u : Nat) (key : List Nat) : KeepsButRecords s (pipeClose s u key) := by
  unfold Machine.pipeClose
  split
  · exact refl s
  · exact (of_keeps (.strandRec ..)).trans (updStrand _ u fun _ => rfl)

/-- The end of a vector load is a matter of its record. -/
theorem loadOver_keeps (s : State) (u q slot gen : Nat) : KeepsButRecords s (loadOver s u q slot gen) := by
  unfold loadOver
  extract_lets s1
  have h1 : KeepsButRecords s s1 := .pipeClose ..
  split
  · exact h1.trans (.pipeClose ..)
  · exact h1

theorem loadOver_queue (s : State) (u q slot gen : Nat) : (loadOver s u q slot gen).queue u q = s.queue u q :=
  (KeepsField.mk fun v => (loadOver_keeps s u q slot gen).field Strand.queueState (fun _ => rfl) v).queue_eq u q

theorem queueFill_gone {v : Vec} {p : Bool} (h : (s.queue u q).place slot gen = none) :
    queueFill s u q slot gen v p = loadOver s u q slot gen := by
  unfold queueFill
  simp only [loadOver_queue, h]

theorem queueFill_fills {v : Vec} {p : Bool} {i : Nat} (h : (s.queue u q).place slot gen = some i) :
    queueFill s u q slot gen v p = (loadOver s u q slot gen).updQueue u q fun k => k.updSlot i fun _ =>
      ⟨true, p, if (s.queue u q).kind = 4 then (if v = 0 then 0 else 1) else v, []⟩ := by
  unfold queueFill
  simp only [loadOver_queue, h]

/-! Window lines. -/

/-- A line of a window that is filled has every word valid. -/
theorem fillWindow_valid (t : Strand) (i j : Nat) (d : BitVec 1024) (line : Nat) (wide : Bool) :
    Tab.get 0 ((t.fillWindow i j d line wide).window i).valid j = BitVec.allOnes 32 := by
  unfold Strand.fillWindow
  extract_lets w v old new t1
  rw [window_updWindow, Tab.get_set_self]

/-- So it is after the counter of its fill has advanced. -/
theorem filled_valid (s : State) (u i j : Nat) (d : BitVec 1024) (line : Nat) (wide : Bool) :
    Tab.get 0 (((((s.updStrand u fun t => t.fillWindow i j d line wide).updMe fun t => t.bump 6 1).strand u).window i).valid) j =
      BitVec.allOnes 32 := by
  have hkeep := State.updStrand_keeps (fun t => Tab.get 0 (t.window i).valid j)
    (s.updStrand u fun t => t.fillWindow i j d line wide) s.cur (·.bump 6 1) (fun _ => rfl) u
  refine hkeep.trans ?_
  rw [State.updStrand_strand, if_pos rfl]
  exact fillWindow_valid ..

theorem fillFrom_valid {own : Bool} {i j : Nat} {l : Leaf} {va : Word} (h : fillFrom u i j own l va s = .ok () s') :
    Tab.get 0 ((s'.strand u).window i).valid j = BitVec.allOnes 32 := by
  unfold fillFrom at h
  rw [run_bind_ok (run_get s)] at h
  obtain ⟨-, rfl⟩ := EStateM.Result.ok.inj h
  exact filled_valid ..

theorem fillWindowLine_valid {own : Bool} {i j : Nat} {va : Word} (h : fillWindowLine u i j own va s = .ok () s') :
    Tab.get 0 ((s'.strand u).window i).valid j = BitVec.allOnes 32 := by
  unfold fillWindowLine at h
  rw [run_bind_ok (run_get s)] at h
  obtain ⟨l, s1, -, h⟩ := of_bind_ok h
  obtain ⟨_, s2, -, h⟩ := of_bind_ok h
  rw [run_bind_ok (run_get s2), run_ite] at h
  split at h
  · cases h
  · obtain ⟨_, s3, -, h⟩ := of_bind_ok h
    exact fillFrom_valid h

/-- The fill of a line of a window, after the first touch of the window. -/
def fillBound (u idx line : Nat) (w : Window) : M Unit := do
  rebindWindow u idx
  fillWindowLine u idx line false (w.base + BitVec.ofNat 64 (128 * line))

theorem fillBound_valid {w : Window} (h : fillBound u idx line w s = .ok () s') :
    Tab.get 0 ((s'.strand u).window idx).valid line = BitVec.allOnes 32 := by
  obtain ⟨_, s1, -, hfill⟩ := of_bind_ok h
  exact fillWindowLine_valid hfill

theorem windowFill_fills {w : Window} (hw : (s.strand u).window? idx = some w) (hline : line < w.size)
    (hvalid : Tab.get 0 w.valid line ≠ BitVec.allOnes 32) (hslot : (s.strand u).run.holdsSlot = true)
    (h : fillBound u idx line w { s with cur := u } = .ok () s') : windowFill s u idx line = { s' with cur := s.cur } := by
  have hrun : runAs s u (fillBound u idx line w) = some ((), { s' with cur := s.cur }) := by rw [runAs, h]
  unfold fillBound at hrun
  unfold windowFill
  simp only [hw, hslot, hrun]
  exact if_neg (not_or.mpr ⟨Nat.not_le.mpr hline, not_or.mpr ⟨hvalid, Bool.false_ne_true⟩⟩)

end Sys2Proof.Machine

open Sys2Proof Sys2Proof.Machine

/-- Settles O51: each event along the branch of its step that its hypotheses choose. -/
theorem ticketEvents : Obligations.TicketEvents := by
  unfold Obligations.TicketEvents
  refine ⟨?_, ?_, ?_, ?_, ?_, ?_, ?_, ?_, ?_⟩
  · rintro s s1 slice entry b g v p rfl harr hst hg hcap
    have hx : exec (.boothFill slice entry) s = .next (boothFill s slice entry) := rfl
    rw [hx, boothFill_captures harr hst hg hcap]
  · rintro s slice entry b rfl harr hst
    exact ⟨_, rfl, boothFill_released harr hst⟩
  · intro s b hlogged hroom hsound hcode hwb _ hkey hlog hheld hmoved hcount hin
    exact capture_plain ⟨hlogged, hmoved, hwb, ⟨hlog, hheld⟩, hcode, hkey, hin⟩ hroom hcount hsound
  · rintro s u slice entry kind d tk rest b hdel rfl hfence
    refine ⟨?_, fun q slot gen i hdest hplace => ?_⟩
    · rintro hdest hrun hpoison rfl
      obtain ⟨hready, hpc, hreg, hbooth, hmem⟩ :=
        deliveredTo_spec s slice entry hrun d ((s.booth slice entry).value.setWidth 64)
      have hx : exec (.ticketDelivery u) s = .next (ticketDelivery s u) := rfl
      rw [hx, ticketDelivery_register hdel hfence hdest hrun hpoison]
      exact ⟨_, rfl, hready, hpc, hreg, hbooth, fun x => by rw [hmem]⟩
    · have hx : exec (.ticketDelivery u) s = .next (ticketDelivery s u) := rfl
      rw [hx, ticketDelivery_slot hdel hfence hdest hplace]
      refine ⟨_, rfl, delivered_booth s u slice entry, ?_⟩
      rw [queue_updQueue, if_pos rfl, (delivered_keeps (fun _ _ => rfl) s u slice entry).queue_eq]
  · intro s s' u kind d tk hrun hroom hfirst hfence hclaim hfw
    have hx : exec (.boothClaim u) s = .next (boothClaim s u) := rfl
    rw [hx, boothClaim_claims hrun hroom hfirst hfence hclaim hfw]
  · rintro s u kind d slice entry tk b hrun hclaimed rfl
    have hx : exec (.ticketWithdrawal u) s = .next (ticketWithdrawal s u) := rfl
    rw [hx, ticketWithdrawal_one hrun hclaimed]
    exact ⟨_, rfl, withdrawn_spec s slice entry hrun⟩
  · intro s slice entry hexp
    obtain ⟨hst, horphans, hmem⟩ := ticketExpiry_expires hexp
    exact ⟨_, rfl, hst, horphans, fun x => by rw [hmem]⟩
  · intro s u q slot gen v p
    have hx : exec (.queueFillArrival u q slot gen v p) s = .next (queueFill s u q slot gen v p) := rfl
    refine ⟨fun h => ?_, fun i h => ?_⟩
    · rw [hx, queueFill_gone h]
    · rw [hx, queueFill_fills h]
  · intro s s' u idx line w hw hline hvalid hslot hfill
    have hx : exec (.windowFill u idx line) s = .next (windowFill s u idx line) := rfl
    have hbound : fillBound u idx line w { s with cur := u } = .ok () s' := hfill
    exact ⟨by rw [hx, windowFill_fills hw hline hvalid hslot hbound], fillBound_valid hbound⟩

end

section
/-! Vector compares (R169): the bits of a predicate that they write. -/

namespace Sys2Proof.Machine

variable {s s1 s2 s3 e : State} {d a b : BitVec 6} {x : BitVec 1} {va : Vec} {vb : Nat → Nat} {w : Nat} {is : List Nat}

/-- The bits of a list written into a predicate. -/
def setBits (p : Pred) (is : List Nat) (f : Nat → Bool) : Pred := is.foldl (fun p k => setBit p k (f k)) p

theorem setBits_getLsbD (p : Pred) (is : List Nat) (f : Nat → Bool) {k : Nat} (hk : k < 256) :
    (setBits p is f).getLsbD k = if k ∈ is then f k else p.getLsbD k := by
  unfold setBits
  induction is generalizing p with
  | nil => simp
  | cons j is ih =>
    rw [List.foldl_cons, ih, setBit_getLsbD _ _ _ _ hk]
    by_cases hmem : k ∈ is
    · simp [hmem]
    · by_cases hj : k = j <;> simp [hmem, hj]

/-- A compare goes through its elements once, for their bits and for their flags. -/
theorem foldl_setBit_flags (g : Nat → Bool × Nat) (is : List Nat) (p : Pred) (fl : Nat) :
    is.foldl (fun r k => (setBit r.1 k (g k).1, r.2 ||| (g k).2)) (p, fl) =
      (setBits p is fun k => (g k).1, is.foldl (fun m k => m ||| (g k).2) fl) := by
  induction is generalizing p fl with
  | nil => rfl
  | cons j is ih => exact ih _ _

/-! Compares. -/

theorem compare_runs {f : Nat → Nat → Bool × Nat} (h1 : answers (readV a) s va s1) (h2 : answers (readB b x w) s1 vb s2)
    (his : s.me.lanes (if !s.me.vms.getLsbD 6 && s.me.vms.extractLsb' 0 6 = d then 0 else s.me.vstartN) (s.me.strip w) = is)
    (h3 : answers (raiseFlags (is.foldl (fun m k => m ||| (f (elem va w k) (vb k)).2) 0)) s2 () s3)
    (he : answers (vecEnd (some 2)) (if is.isEmpty then s3 else
      s3.updMe fun t => t.setPred d.toNat (setBits (s.me.pred d.toNat) is fun k => (f (elem va w k) (vb k)).1)) () e) :
    compare d a b x w f s = .ok .seq e := by
  rw [compare, run_bind_ok (run_me s), run_bind_ok h1, run_bind_ok h2]
  dsimp only
  rw [his, foldl_setBit_flags (fun k => f (elem va w k) (vb k))]
  dsimp only
  rw [run_bind_ok h3]
  cases hempty : is.isEmpty <;> rw [hempty] at he
  · exact (run_bind_ok (run_updMe _ s3)).trans (run_bind_ok he)
  · exact run_bind_ok he

/-- An instruction that is `compare` at a function of its elements computes that function. -/
theorem compare_computes {i : BitVec 6 → BitVec 6 → BitVec 6 → BitVec 2 → BitVec 1 → Instr} {width : BitVec 2 → Nat}
    {f : BitVec 2 → Nat → Nat → Bool × Nat} (code : BitVec 5)
    (hx : ∀ d a b t x s, exec (i d a b t x) s = insn (classedForm (fr 22 d a b code t x) [.data a 2 false, xOpnd b x]
      (vecClasses t) [xField b x]) (compare d a b x (width t) (f t)) s) : computesCompare i width f := by
  intro s s1 s2 d a b t x va vb is hops hcl h1 h2 his
  refine ⟨_, fun k hk => setBits_getLsbD _ is _ hk, fun s3 e h3 he => ?_⟩
  exact insn_completes (hx d a b t x s) (check_classedForm hops hcl) (compare_runs h1 h2 his h3 he) (.inl ⟨rfl, rfl⟩)

end Sys2Proof.Machine

open Sys2Proof Sys2Proof.Machine

/-- Settles O20: each form is `compare` at its function, whose bits are those of its list of elements. -/
theorem vectorCompare : Obligations.VectorCompare := by
  unfold Obligations.VectorCompare
  exact ⟨compare_computes 0 fun _ _ _ _ _ _ => rfl, compare_computes 1 fun _ _ _ _ _ _ => rfl,
    compare_computes 2 fun _ _ _ _ _ _ => rfl, compare_computes 3 fun _ _ _ _ _ _ => rfl,
    compare_computes 4 fun _ _ _ _ _ _ => rfl, compare_computes 5 fun _ _ _ _ _ _ => rfl,
    compare_computes 6 fun _ _ _ _ _ _ => rfl, compare_computes 7 fun _ _ _ _ _ _ => rfl,
    compare_computes 8 fun _ _ _ _ _ _ => rfl, compare_computes 9 fun _ _ _ _ _ _ => rfl⟩

end

section
/-! The predicate instructions (R170). -/

namespace Sys2Proof.Machine

variable {s s1 e : State} {d a : BitVec 6} {i : Instr} {word : InstrWord}

/-! Results in a predicate. -/

/-- An instruction that is `predOp` writes its function to the bits of the strip. -/
theorem predOp_computes {g : Strand → Nat → Nat → Bool} {f : Nat → Bool}
    (hx : exec i s = insn { word := word } (predOp d g) s) (hf : ∀ k, k < s.me.vlCount → g s.me s.me.vlCount k = f k) :
    computesPred i s d f := by
  refine ⟨setBits (s.me.pred d.toNat) (List.range s.me.vlCount) (g s.me s.me.vlCount), fun k hk => ?_, fun e he => ?_⟩
  · rw [setBits_getLsbD _ _ _ hk]
    by_cases hn : k < s.me.vlCount
    · simp [hn, hf k hn]
    · simp [hn]
  · refine insn_completes hx (check_plainForm (admitted_none s)) ?_ (.inl ⟨rfl, rfl⟩)
    rw [predOp, run_bind_ok (run_me s)]
    dsimp only
    split at he <;> rename_i hn
    · rw [if_neg (not_not.mpr hn)]
      exact run_bind_ok he
    · rw [if_pos hn]
      exact (run_bind_ok (run_updMe _ s)).trans (run_bind_ok he)

/-! The lowest set bit. -/

/-- No bit below n is set, or the lowest of them is first. -/
theorem firstSet_eq {p : Pred} {n first : Nat} (hnone : (∀ k, k < n → p.getLsbD k = false) → first = n)
    (hsome : (∃ k, k < n ∧ p.getLsbD k = true) →
      first < n ∧ p.getLsbD first = true ∧ ∀ k, k < first → p.getLsbD k = false) : firstSet p n = first := by
  unfold firstSet
  by_cases h : ∃ k, k < n ∧ p.getLsbD k = true
  · obtain ⟨hlt, hset, hbelow⟩ := hsome h
    have hfind : (List.range n).find? (fun i => p.getLsbD i) = some first :=
      List.find?_range_eq_some.mpr ⟨hset, List.mem_range.mpr hlt, fun k hk => by simp [hbelow k hk]⟩
    rw [hfind, Option.getD_some]
  · push Not at h
    have hclear : ∀ k, k < n → p.getLsbD k = false := fun k hk => by simpa using h k hk
    have hfind : (List.range n).find? (fun i => p.getLsbD i) = none :=
      List.find?_eq_none.mpr fun k hk => by simp [hclear k (List.mem_range.mp hk)]
    rw [hfind, Option.getD_none, hnone hclear]

/-! Results in a scalar register, and PFROMX. -/

/-- An instruction that is `predToX` completes with its function of the predicate and the strip. -/
theorem predToX_completes {f : Pred → Nat → Word} {v : Word}
    (hx : exec i s = insn { word := word, ops := [.data d 1 true] } (predToX d a f) s) (hops : admitted s [.data d 1 true])
    (hv : f (s.me.pred a.toNat) s.me.vlCount = v) (h1 : answers (writeX d v) s () s1)
    (he : answers (vecEnd (some 2)) s1 () e) : completesWith i s e ((e.strand s.cur).pc + 4) := by
  subst hv
  refine insn_completes hx (check_plainForm hops) ?_ (.inl ⟨rfl, rfl⟩)
  rw [predToX, run_bind_ok (run_me s), run_bind_ok h1, run_bind_ok he, run_pure]

/-- A predicate of which the kth doubleword has been written (R170). -/
def setDoubleword (p : Pred) (k : Nat) (x : Word) : Pred :=
  (p &&& ~~~(BitVec.ofNat 256 ((2 ^ 64 - 1) * 2 ^ (64 * k)))) ||| (x.setWidth 256 <<< (64 * k))

theorem setDoubleword_getLsbD (p : Pred) {k j : Nat} (x : Word) (hk : k < 4) (hj : j < 256) :
    (setDoubleword p k x).getLsbD j = if j / 64 = k then x.getLsbD (j % 64) else p.getLsbD j := by
  have hmask : (BitVec.ofNat 256 ((2 ^ 64 - 1) * 2 ^ (64 * k))).getLsbD j = decide (j / 64 = k) := by
    rw [BitVec.getLsbD_ofNat, ← Nat.shiftLeft_eq, Nat.testBit_shiftLeft, Nat.testBit_two_pow_sub_one, Bool.eq_iff_iff]
    simp only [hj, decide_true, Bool.true_and, Bool.and_eq_true, decide_eq_true_eq]
    omega
  rw [setDoubleword, BitVec.getLsbD_or, BitVec.getLsbD_and, BitVec.getLsbD_not, hmask, BitVec.getLsbD_shiftLeft,
    BitVec.getLsbD_setWidth]
  by_cases h : j / 64 = k
  · subst h
    have hlow : ¬ j < 64 * (j / 64) := by omega
    have hin : j - 64 * (j / 64) = j % 64 := by omega
    have hlt : j % 64 < 256 := by omega
    simp [hj, hlow, hin, hlt]
  · rcases Nat.lt_or_gt_of_ne h with hlt | hgt
    · have hlow : j < 64 * k := by omega
      simp [h, hj, hlow]
    · have hout : x.getLsbD (j - 64 * k) = false := BitVec.getLsbD_of_ge _ _ (by omega)
      simp [h, hj, hout]

theorem setDoubleword_extractLsb' (p : Pred) {k : Nat} (x : Word) (hk : k < 4) :
    (setDoubleword p k x).extractLsb' (64 * k) 64 = x := by
  refine BitVec.eq_of_getLsbD_eq fun j hj => ?_
  rw [BitVec.getLsbD_extractLsb', setDoubleword_getLsbD p x hk (by omega), if_pos (by omega)]
  simp [hj, Nat.mod_eq_of_lt hj]

/-- The predicates are no scalar state that reading operands changes. -/
theorem ScalarOnly.pred (h : ScalarOnly d s e) (r : Nat) : e.me.pred r = s.me.pred r := by
  rw [State.me, State.me, h.cur]
  exact (congrArg (Strand.pred · r) (h.strands s.cur) : (e.strand s.cur).sansScalar.pred r = (s.strand s.cur).sansScalar.pred r)

theorem pfromx_completes {k : BitVec 2} {x : Word} (hops : admitted s [.data a 1 false]) (h1 : answers (readX a) s x s1)
    (hp : s1.me.pred d.toNat = s.me.pred d.toNat)
    (he : answers (vecEnd (some 2)) (s1.updMe fun t => t.setPred d.toNat (setDoubleword (s.me.pred d.toNat) k.toNat x)) () e) :
    completesWith (.pfromx d a k) s e ((e.strand s.cur).pc + 4) := by
  have hx : exec (.pfromx d a k) s = execPfromx d a k s := rfl
  rw [← hp] at he
  have hrun : pfromxOp d a k s = .ok .seq e := by
    rw [pfromxOp, run_bind_ok h1]
    exact (run_bind_ok (run_updMe _ s1)).trans (run_bind_ok he)
  exact insn_completes hx (check_plainForm hops) hrun (.inl ⟨rfl, rfl⟩)

end Sys2Proof.Machine

open Sys2Proof Sys2Proof.Machine

/-- Settles O21: each form is `predOp` or `predToX` at its function, and PFROMX writes one doubleword of its predicate. -/
theorem predicates : Obligations.Predicates := by
  unfold Obligations.Predicates
  refine ⟨fun s d a b n first hn hnone hsome => ?_, fun s s1 e d a k hops h1 he => ?_, fun s s1 d a k x hops h1 => ?_⟩
  · subst hn
    have hfirst := firstSet_eq hnone hsome
    refine ⟨predOp_computes rfl fun _ _ => rfl, predOp_computes rfl fun _ _ => rfl, predOp_computes rfl fun _ _ => rfl,
      predOp_computes rfl fun _ _ => rfl, predOp_computes rfl fun _ _ => rfl, predOp_computes rfl fun _ _ => ?_,
      predOp_computes rfl fun _ _ => ?_, predOp_computes rfl fun _ _ => ?_, predOp_computes rfl fun _ _ => rfl,
      predOp_computes rfl fun _ _ => rfl, fun s1 e hops h1 he => predToX_completes rfl hops rfl h1 he,
      fun s1 e hops h1 he => predToX_completes rfl hops ?_ h1 he⟩ <;> rw [hfirst]
  · exact predToX_completes rfl hops rfl h1 he
  · refine ⟨setDoubleword (s.me.pred d.toNat) k.toNat x, setDoubleword_extractLsb' _ x k.isLt, fun j hj hne => ?_,
      fun e => pfromx_completes hops h1 ?_⟩
    · rw [setDoubleword_getLsbD _ x k.isLt hj, if_neg hne]
    · exact (readX_only (d := d) h1).pred _

end

section
/-! The permutes (R171): which elements of the destination each writes, and from where. -/

namespace Sys2Proof.Machine

variable {s s1 s2 s3 e : State} {d a b : BitVec 6} {t : BitVec 2} {x : BitVec 1} {w : Nat} {va vb old : Vec} {vs : Nat → Nat}

/-- A permute of these elements, and the end of its instruction. -/
def permuteEnd (d : BitVec 6) (w : Nat) (is : List Nat) (f : Nat → Nat) : M Flow := do
  permute d w is f
  return .seq

theorem permuteEnd_runs {is : List Nat} {f : Nat → Nat} {s4 : State} (hold : answers (oldV d) s2 old s3)
    (h4 : answers (writeV d (setElems old w is fun k => (f k, 0)).1 (topOf is * w / 8)) s3 () s4)
    (he : answers (vecEnd (some 3)) s4 () e) : permuteEnd d w is f s2 = .ok .seq e := by
  have hrun : permute d w is f s2 = .ok () e := by
    rw [permute, run_bind_ok hold]
    exact (run_bind_ok h4).trans he
  exact run_bind_ok hrun

/-- An instruction whose effect comes to a permute writes its elements. -/
theorem permuteEnd_writes {i : Instr} {word : InstrWord} {ops : List Opnd} {classes : Nat} {xs : List Nat} {body : M Flow}
    {is : List Nat} {f : Nat → Nat} (hx : exec i s = insn (classedForm word ops classes xs) body s) (hops : admitted s ops)
    (hcl : onClass s classes) (hb : body s = permuteEnd d w is f s2) (hold : answers (oldV d) s2 old s3) :
    writesElems i s s3 d w old is f :=
  ⟨_, fun k hk => setElems_elem old w is (fun k => (f k, 0)) k (elem_inside hk), fun _ _ h4 he =>
    insn_completes hx (check_classedForm hops hcl) (hb.trans (permuteEnd_runs hold h4 he)) (.inl ⟨rfl, rfl⟩)⟩

section
variable (h1 : answers (readV a) s va s1)
include h1

theorem vcompressOp_runs : vcompressOp d a t s = permuteEnd d (tyWidth t)
    (List.range (s.me.lanes 0 (s.me.strip (tyWidth t))).length)
    (fun j => elem va (tyWidth t) ((s.me.lanes 0 (s.me.strip (tyWidth t))).getD j 0)) s1 := by
  rw [vcompressOp, run_bind_ok (run_me s), run_bind_ok h1]
  rfl

theorem vexpandOp_runs : vexpandOp d a t s = permuteEnd d (tyWidth t) (s.me.lanes 0 (s.me.strip (tyWidth t)))
    (fun j => elem va (tyWidth t) ((s.me.lanes 0 (s.me.strip (tyWidth t))).idxOf j)) s1 := by
  rw [vexpandOp, run_bind_ok (run_me s), run_bind_ok h1]
  rfl

theorem masked_runs (f : Vec → Nat → Nat → Nat) : masked d a t f s =
    permuteEnd d (tyWidth t) (s.me.lanes 0 (s.me.strip (tyWidth t))) (f va (2048 / tyWidth t)) s1 := by
  rw [masked, run_bind_ok (run_me s), run_bind_ok h1]
  rfl

theorem masked2_runs (f : Vec → Vec → Nat → Nat → Nat) (h2 : answers (readV b) s1 vb s2) : masked2 d a b t f s =
    permuteEnd d (tyWidth t) (s.me.lanes 0 (s.me.strip (tyWidth t))) (f va vb (s.me.strip (tyWidth t))) s2 := by
  rw [masked2, run_bind_ok (run_me s), run_bind_ok h1, run_bind_ok h2]
  rfl

variable (h2 : answers (readB b x (tyWidth t)) s1 vs s2)
include h2

theorem slideOp_up_runs : slideOp d a b t x true s = permuteEnd d (tyWidth t)
    ((s.me.lanes 0 (s.me.strip (tyWidth t))).filter fun j => decide (vs 0 ≤ j)) (fun j => elem va (tyWidth t) (j - vs 0)) s2 := by
  rw [slideOp, run_bind_ok (run_me s), run_bind_ok h1, run_bind_ok h2]
  rfl

theorem slideOp_down_runs : slideOp d a b t x false s = permuteEnd d (tyWidth t) (s.me.lanes 0 (s.me.strip (tyWidth t)))
    (fun j => if j + vs 0 < 2048 / tyWidth t then elem va (tyWidth t) (j + vs 0) else 0) s2 := by
  rw [slideOp, run_bind_ok (run_me s), run_bind_ok h1, run_bind_ok h2]
  rfl

end

theorem viotaOp_runs : viotaOp d a t s = permuteEnd d (tyWidth t) (s.me.lanes 0 (s.me.strip (tyWidth t)))
    (fun j => (List.range j).countP fun i => (s.me.pred a.toNat).getLsbD i) s := by
  rw [viotaOp, run_bind_ok (run_me s)]
  rfl

theorem vinsxOp_runs {p q : Word} (h1 : answers (readX a) s p s1) (h2 : answers (readX b) s1 q s2) : vinsxOp d a b t s =
    permuteEnd d (tyWidth t) (if q.toNat < 2048 / tyWidth t then [q.toNat] else []) (fun _ => p.toNat % 2 ^ tyWidth t) s2 := by
  rw [vinsxOp, run_bind_ok h1, run_bind_ok h2]
  rfl

theorem vextxOp_runs {q : Word} (h1 : answers (readV a) s va s1) (h2 : answers (readX b) s1 q s2)
    (h3 : answers (writeX d (if q.toNat < 2048 / tyWidth t then (BitVec.ofNat (tyWidth t)
      (elem va (tyWidth t) q.toNat)).signExtend 64 else 0)) s2 () s3) (he : answers (vecEnd (some 3)) s3 () e) :
    vextxOp d a b t s = .ok .seq e := by
  rw [vextxOp, run_bind_ok h1, run_bind_ok h2, run_bind_ok h3, run_bind_ok he, run_pure]

end Sys2Proof.Machine

open Sys2Proof Sys2Proof.Machine

/-- Settles O22: each permute reads its sources and then writes the elements of its list. -/
theorem permutes : Obligations.Permutes := by
  unfold Obligations.Permutes
  rintro s s1 s2 s3 d a b k t x w c n va vb old vs act rfl rfl rfl rfl
  refine ⟨fun hcl hops h1 hold => ⟨?vcompress, ?vexpand⟩, fun hops hcl h1 hold => ⟨?vbcast, ?vmov⟩,
    fun hops hcl h1 h2 hold => ⟨?vslideup, ?vslidedn⟩,
    fun hops hcl h1 h2 hold => ⟨fun hcl3 => ?vpermx, ?vzip, ?vunzip⟩, fun hops hcl hold => ?viota,
    fun p q hops hcl h1 h2 hold => ?vinsx, fun q e hops hcl h1 h2 h3 he => ?vextx⟩
  case vcompress => exact permuteEnd_writes rfl hops hcl (vcompressOp_runs h1) hold
  case vexpand => exact permuteEnd_writes rfl hops hcl (vexpandOp_runs h1) hold
  case vbcast => exact permuteEnd_writes rfl hops hcl (masked_runs h1 _) hold
  case vmov =>
    have hx : exec (.vmov d a t) s = execVmov d a t s := rfl
    exact lanes1_writes hx (check_classedForm (xs := []) hops hcl) rfl h1 hold
  case vslideup => exact permuteEnd_writes rfl hops hcl (slideOp_up_runs h1 h2) hold
  case vslidedn => exact permuteEnd_writes rfl hops hcl (slideOp_down_runs h1 h2) hold
  case vpermx => exact permuteEnd_writes rfl hops hcl3 (masked2_runs h1 _ h2) hold
  case vzip => exact permuteEnd_writes rfl hops hcl (masked2_runs h1 _ h2) hold
  case vunzip => exact permuteEnd_writes rfl hops hcl (masked2_runs h1 _ h2) hold
  case viota => exact permuteEnd_writes rfl hops hcl viotaOp_runs hold
  case vinsx => exact permuteEnd_writes rfl hops hcl (vinsxOp_runs h1 h2) hold
  case vextx =>
    have hx : exec (.vextx d a b t) s = execVextx d a b t s := rfl
    exact insn_completes hx (check_classedForm hops hcl) (vextxOp_runs h1 h2 h3 he) (.inl ⟨rfl, rfl⟩)

end

section
/-! An empty strip under a threshold that no strip meets (R179, R180): SCTHR above 64 makes no strip dense, where the statement's
product is 0 on both sides. -/

namespace Sys2Proof.Machine

/-- A strand with VL 0, an empty compaction buffer and SCTHR 65. -/
def overThreshold : State := { State.reset with strands := [(0, { Strand.blank with scthr := 65 })] }

/-- SCPUT answers 0: the empty strip is not dense, and it fits. -/
theorem scput_overThreshold : ∃ t, exec (.scput 1 0 0) overThreshold = .next t ∧ (t.strand 0).reg 1 = 0 := ⟨_, rfl, by decide⟩

/-- The state in which the statement has it end: x1 is 1. -/
def calledDense : State := overThreshold.updMe fun x => { x with compaction := overThreshold.me.compaction }.setReg 1 1

theorem calledDense_ends : ∃ e, answers (vecEnd (some 3)) calledDense () e ∧ (e.strand 0).reg 1 = 1 := ⟨_, rfl, by decide⟩

theorem Strand.reg_of_uncounted {t t' : Strand} (h : t.uncounted = t'.uncounted) (r : Nat) : t.reg r = t'.reg r :=
  (congrArg (Strand.reg · r) h : t.uncounted.reg r = t'.uncounted.reg r)

theorem admitted_scput : admitted overThreshold [.reg 1, .data 0 2 false] := by
  intro o ho
  simp only [List.mem_cons, List.not_mem_nil, or_false] at ho
  rcases ho with rfl | rfl <;> exact ⟨rfl, rfl⟩

end Sys2Proof.Machine

open Sys2Proof Sys2Proof.Machine

/-- Refutes O23: with VL 0, an empty buffer and SCTHR 65 the statement has SCPUT find the empty strip dense and answer 1. By R179 no
strip is dense under such a threshold: the model answers 0. -/
theorem not_stripControl : ¬ Obligations.StripControl := by
  unfold Obligations.StripControl
  intro h
  obtain ⟨e, he, hone⟩ := calledDense_ends
  obtain ⟨-, -, -, -, -, -, hscput, -⟩ := h overThreshold overThreshold e 1 0 0 0 0 (by decide) (by decide)
  obtain ⟨t, ht, hdone⟩ := hscput 0 0 32 0 [] _ 1 _ admitted_scput rfl rfl rfl rfl rfl (by decide) he
  obtain ⟨t', ht', hzero⟩ := scput_overThreshold
  obtain rfl : t = t' := Host.Outcome.next.inj (ht.symm.trans ht')
  have hreg := Strand.reg_of_uncounted (hdone.strands 0) 1
  rw [hzero, hone] at hreg
  exact absurd hreg (by decide)

end

section
/-! The end record of a scatter (R178, R410): the last of its trains closes the pipe that the instruction opened. -/

namespace Sys2Proof.Machine

/-- A strand whose VSTXR has completed but for one train of stream 0: its pipe is still open. -/
def lastTrainUnderWay : State :=
  { State.reset with
    strands := [(0, { Strand.blank with
      run := .ready
      trains := [(0, 1)]
      trace := { Strand.blank.trace with tag := 1, ends := [⟨5, 0, 0, [1, 0]⟩] } })]
    module := { Module.reset with keys := [(0, some 0)] } }

/-- The train's one element: 32 bits of home memory. -/
def lastTrain : List TrainElem := [⟨0x50000, 0x50000, 0x58013, 7⟩]

/-- The train, once performed, leaves nothing open. -/
theorem elementTrain_lastTrain :
    ((elementTrain lastTrainUnderWay 0 0 32 0 lastTrain).strand 0).trace.ends = [] := by decide +kernel

/-- Its elements alone leave the pipe open. -/
theorem performTrain_lastTrain :
    ((performTrain lastTrainUnderWay 0 32 lastTrain).strand 0).trace.ends = [⟨5, 0, 0, [1, 0]⟩] := by decide +kernel

end Sys2Proof.Machine

open Sys2Proof Sys2Proof.Machine

/-- Refutes O57: the statement has an element train leave its elements and its acknowledgement alone. The last train of a VSTXR also
closes that instruction's pipe, where its end record is due (R410): the strand's list of open pipes is one entry shorter. -/
theorem not_interruptsAndTrace : ¬ Obligations.InterruptsAndTrace := by
  unfold Obligations.InterruptsAndTrace
  rintro ⟨-, -, -, -, -, htrain, -⟩
  obtain ⟨t, ht, hpost, -⟩ := htrain lastTrainUnderWay 0 0 0 32 lastTrain
  obtain rfl : elementTrain lastTrainUnderWay 0 0 32 0 lastTrain = t := Host.Outcome.next.inj ht
  have hends := congrArg (fun t : State => (t.strand 0).trace.ends) hpost
  exact nomatch elementTrain_lastTrain.symm.trans (hends.trans performTrain_lastTrain)

end

section
/-! The steps of a vector store (R173-R175, R177): its elements one after another, and the full lines in which none is active. -/

namespace Sys2Proof.Machine

variable {s s1 s2 s3 s4 e : State} {v : VAccess} {is : List Nat} {f : Nat → Nat} {d : BitVec 6} {st : BitVec 2} {x : Vec}

theorem perform_storesAll {early : Nat → List Nat → Bool} (h : storesAll v f is s s1) :
    perform early (fun i => storeElem v i (f i)) is s = .ok (is, none) s1 := by
  induction is generalizing s with
  | nil =>
    obtain rfl : s1 = s := h
    rfl
  | cons i is ih =>
    obtain ⟨s', hstore, hrest⟩ := h
    unfold perform
    rw [run_bind_ok (attempt_ok hstore)]
    exact run_bind_ok (ih hrest)

theorem forM_storesAll (h : storesAll v f is s s1) : (is.forM fun i => storeElem v i (f i)) s = .ok () s1 := by
  induction is generalizing s with
  | nil =>
    obtain rfl : s1 = s := h
    rfl
  | cons i is ih =>
    obtain ⟨s', hstore, hrest⟩ := h
    exact (run_bind_ok hstore).trans (ih hrest)

section
variable (hst : answers (streamReady st.toNat) s () s) (hread : answers (readV d) s x s1) (his : s1.me.todo v.w v.n = is)
include hst hread his

theorem vstore_register (hd : d.toNat < 32) (hch : answers (checkChannels v is) s1 () s1)
    (hstore : storesAll v (elem x v.w) is s1 s2) (hidle : answers (idleStores v) s2 () s3) (hend : answers (vmemEnd 5) s3 () e) :
    vstore d st v s = .ok .seq e := by
  subst his
  unfold vstore
  rw [run_bind_ok hst, run_bind_ok hread, run_bind_ok (run_me s1)]
  simp only [hd, if_true]
  rw [run_bind_ok hch, run_bind_ok (perform_storesAll hstore)]
  exact (run_bind_ok hidle).trans (run_bind_ok hend)

theorem vstore_queue (hd : 32 ≤ d.toNat) (hcheck : answers (checkElems .store v is) s1 () s2)
    (hch : answers (checkChannels v is) s2 () s2) (hstore : storesAll v (elem x v.w) is s2 s3)
    (hidle : answers (idleStores v) s3 () s4) (hend : answers (vmemEnd 5) s4 () e) : vstore d st v s = .ok .seq e := by
  subst his
  unfold vstore
  rw [run_bind_ok hst, run_bind_ok hread, run_bind_ok (run_me s1)]
  simp only [Nat.not_lt.mpr hd, if_false]
  rw [run_bind_ok hcheck, run_bind_ok hch, run_bind_ok (forM_storesAll hstore), run_bind_ok hidle, run_bind_ok hend, run_pure]

end

/-- An instruction that is such a store under its form's checks completes as one. -/
theorem vstore_storesVector {i : Instr} {F : Form} {body : M Flow} (hx : exec i s = insn F body s) (hc : F.check s = none)
    (hb : body s = vstore d st v s) : storesVector i s d st v := by
  intro s1 s2 s3 s4 e x is hst hread his
  have hdone {e : State} (h : vstore d st v s = .ok .seq e) : completesWith i s e ((e.strand s.cur).pc + 4) :=
    insn_completes hx hc (hb.trans h) (.inl ⟨rfl, rfl⟩)
  exact ⟨fun hd hch hstore hidle hend => hdone (vstore_register hst hread his.symm hd hch hstore hidle hend),
    fun hd hcheck hch hstore hidle hend => hdone (vstore_queue hst hread his.symm hd hcheck hch hstore hidle hend)⟩

end Sys2Proof.Machine
end

section
/-! VSTXR (R178): the elements that it gathers, and the trains that leave with them. -/

namespace Sys2Proof.Machine

variable {s s1 s2 s3 e : State} {v : VAccess} {is : List Nat} {es : List TrainElem} {f : Nat → Nat} {d : BitVec 6} {st : BitVec 2}
  {x : Vec}

/-- A loop whose every round goes through and goes on folds what its rounds do to the state. -/
theorem forIn_modifies {α : Type} {body : α → PUnit → M (ForInStep PUnit)} {g : State → α → State}
    (hbody : ∀ a s, body a ⟨⟩ s = .ok (.yield ⟨⟩) (g s a)) (l : List α) (s : State) :
    (forIn l ⟨⟩ body : M PUnit) s = .ok ⟨⟩ (l.foldl g s) := by
  induction l generalizing s with
  | nil => rfl
  | cons a l ih =>
    rw [List.forIn_cons, run_bind_ok (hbody a s)]
    exact ih _

/-- What a scatter does with one element: it stores one of the scratchpad, and adds one of memory to those for the trains. -/
def gatherElem (v : VAccess) (f : Nat → Nat) (i : Nat) (es : List TrainElem) : M (ForInStep (List TrainElem)) := do
  checkWatch .store (v.addr i) (v.w / 8)
  match ← resolve .store (v.addr i) (v.w / 8) with
  | .mem l =>
    awaitOwn (v.addr i) l.pa (v.w / 8)
    return .yield (es ++ [⟨v.addr i, l.pa, l.bits, BitVec.ofNat 64 (f i)⟩])
  | _ =>
    storeElem v i (f i)
    return .yield es

theorem gatherElem_memory {i : Nat} {l : Leaf} (acc : List TrainElem)
    (hwatch : answers (checkWatch .store (v.addr i) (v.w / 8)) s () s)
    (hplace : answers (resolve .store (v.addr i) (v.w / 8)) s (.mem l) s1)
    (hown : answers (awaitOwn (v.addr i) l.pa (v.w / 8)) s1 () s1) :
    gatherElem v f i acc s = .ok (.yield (acc ++ [⟨v.addr i, l.pa, l.bits, BitVec.ofNat 64 (f i)⟩])) s1 := by
  unfold gatherElem
  rw [run_bind_ok hwatch, run_bind_ok hplace]
  exact run_bind_ok hown

theorem gatherElem_scratchpad {i : Nat} {p : Place} (acc : List TrainElem)
    (hwatch : answers (checkWatch .store (v.addr i) (v.w / 8)) s () s)
    (hplace : answers (resolve .store (v.addr i) (v.w / 8)) s p s1) (hp : ∀ l, p ≠ .mem l)
    (hstore : answers (storeElem v i (f i)) s1 () s2) : gatherElem v f i acc s = .ok (.yield acc) s2 := by
  unfold gatherElem
  rw [run_bind_ok hwatch, run_bind_ok hplace]
  cases p with
  | mem l => exact absurd rfl (hp l)
  | spad u o => exact run_bind_ok hstore
  | window u i j o => exact run_bind_ok hstore

theorem forIn_gathers (h : gathers v f is s es s1) (acc : List TrainElem) :
    (forIn is acc (gatherElem v f) : M (List TrainElem)) s = .ok (acc ++ es) s1 := by
  induction is generalizing s es acc with
  | nil =>
    obtain ⟨rfl, rfl⟩ := h
    rw [List.append_nil]
    rfl
  | cons i is ih =>
    obtain ⟨hwatch, ⟨l, s', rest, hplace, hown, hrest, rfl⟩ | ⟨p, s', s2, hplace, hp, hstore, hrest⟩⟩ := h
    · rw [List.forIn_cons, run_bind_ok (gatherElem_memory acc hwatch hplace hown)]
      refine (ih hrest _).trans ?_
      rw [List.append_assoc]
      rfl
    · rw [List.forIn_cons, run_bind_ok (gatherElem_scratchpad acc hwatch hplace hp hstore)]
      exact ih hrest acc

/-- The train of one base die leaves, if it homes an element. -/
def sendTrain (st w : Nat) (es : List TrainElem) (s : State) (die : Nat) : State :=
  if (es.filter fun e => homeDie e.pa = die) = [] then s
  else (s.updMe fun t => { t with trains := Tab.set 0 t.trains st (Tab.get 0 t.trains st + 1) }).post
    (.elementTrain s.cur die st w (es.filter fun e => homeDie e.pa = die))

/-- The round of VSTXR's loop for one base die. -/
def sendRound (st w : Nat) (es : List TrainElem) (die : Nat) (_ : PUnit) : M (ForInStep PUnit) := do
  let mine := es.filter fun e => homeDie e.pa = die
  if !mine.isEmpty then
    modify fun s => (s.updMe fun t => { t with trains := Tab.set 0 t.trains st (Tab.get 0 t.trains st + 1) }).post
      (.elementTrain s.cur die st w mine)
  return .yield ⟨⟩

theorem sendRound_runs (st w : Nat) (es : List TrainElem) (die : Nat) (s : State) :
    sendRound st w es die ⟨⟩ s = .ok (.yield ⟨⟩) (sendTrain st w es s die) := by
  unfold sendRound sendTrain
  dsimp only
  generalize es.filter (fun e => homeDie e.pa = die) = mine
  cases mine <;> rfl

theorem forIn_sendTrains (s : State) (st w : Nat) (es : List TrainElem) :
    (forIn (List.range 4) ⟨⟩ (sendRound st w es) : M PUnit) s = .ok ⟨⟩ (sendTrains s st w es) :=
  forIn_modifies (sendRound_runs st w es) _ s

theorem vstxrOp_runs (hst : answers (streamReady st.toNat) s () s) (hread : answers (readV d) s x s1)
    (his : is = s1.me.todo v.w v.n) (hcheck : answers (checkRemote v is) s1 () s2) (hch : answers (checkChannels v is) s2 () s2)
    (hgather : gathers v (elem x v.w) is s2 es s3)
    (hend : answers (if es.isEmpty then vmemEnd 5 else vmemEndLater 5 [1, st.toNat]) (sendTrains s3 st.toNat v.w es) () e) :
    vstxrOp d st v s = .ok .seq e := by
  subst his
  unfold vstxrOp
  rw [run_bind_ok hst, run_bind_ok hread, run_bind_ok (run_me s1)]
  refine (run_bind_ok hcheck).trans ((run_bind_ok hch).trans ((run_bind_ok (forIn_gathers hgather [])).trans ?_))
  refine (run_bind_ok (forIn_sendTrains s3 st.toNat v.w es)).trans ?_
  rw [List.nil_append]
  split at hend <;> rename_i h
  · rw [if_pos h]
    exact run_bind_ok hend
  · rw [if_neg h]
    exact run_bind_ok hend

end Sys2Proof.Machine

open Sys2Proof Sys2Proof.Machine

/-- Settles O41: VST, VSTS and VSTX are one store at their addresses, and VSTXR gathers its elements and sends their trains. -/
theorem vectorStores : Obligations.VectorStores := by
  unfold Obligations.VectorStores
  intro s d b i w st h he
  have hvst : exec (.vst d b w st h) s = execVst d b w st h s := rfl
  have hvsts : exec (.vsts d b w st h) s = execVsts d b w st h s := rfl
  have hvstx : exec (.vstx d b i w st h) s = execVstx d b i w st h s := rfl
  have hvstxr : exec (.vstxr d b i w st h) s = execVstxr d b i w st h s := rfl
  refine ⟨fun hops => ⟨?_, ?_⟩, fun hops hcl hready => ⟨?_, ?_⟩⟩
  · exact vstore_storesVector hvst (check_vectorLoad he hops (onClass_all s)) (run_bind_ok (run_me s))
  · exact vstore_storesVector hvsts (check_vectorLoad he hops (onClass_all s)) (run_bind_ok (run_me s))
  · exact vstore_storesVector hvstx (check_vectorLoad he hops hcl) ((run_bind_ok hready).trans (run_bind_ok (run_me s)))
  · rintro v x is es s1 s2 s3 e rfl hst hread his hcheck hch hgather hend
    have hrun := vstxrOp_runs hst hread his hcheck hch hgather hend
    exact insn_completes hvstxr (check_vectorLoad he hops hcl)
      ((run_bind_ok hready).trans ((run_bind_ok (run_me s)).trans hrun)) (.inl ⟨rfl, rfl⟩)

end

section
/-! What vector accesses to plain allotment leave alone: the device, and of each strand what they are resolved by (R208, R255). -/

namespace Sys2Proof.Machine

variable {s s1 s' : State} {β γ : Type} {p : Strand → β} {k : Kind} {va : Word} {o n : Nat}

/-- Two states that differ in their strands alone, and there in what p leaves out. -/
structure StrandFrame (p : Strand → β) (s s' : State) : Prop where
  device : s'.device = s.device
  agenda : s'.agenda = s.agenda
  strands : ∀ u, p (s'.strand u) = p (s.strand u)

namespace StrandFrame

theorem refl (p : Strand → β) (s : State) : StrandFrame p s s := ⟨rfl, rfl, fun _ => rfl⟩

theorem trans (h : StrandFrame p s s1) (h' : StrandFrame p s1 s') : StrandFrame p s s' :=
  ⟨h'.device.trans h.device, h'.agenda.trans h.agenda, fun u => (h'.strands u).trans (h.strands u)⟩

theorem updStrand (s : State) (u : Nat) {g : Strand → Strand} (hg : ∀ t, p (g t) = p t) : StrandFrame p s (s.updStrand u g) :=
  ⟨rfl, rfl, State.updStrand_keeps p s u g hg⟩

/-- What is read off p is kept with it. -/
theorem weaken {q : Strand → γ} (f : β → γ) (hf : ∀ t, f (p t) = q t) (h : StrandFrame p s s') : StrandFrame q s s' :=
  ⟨h.device, h.agenda, fun u => by rw [← hf, h.strands, hf]⟩

theorem cur (h : StrandFrame p s s') : s'.cur = s.cur := (congrArg State.cur h.device : s'.device.cur = s.device.cur)

theorem die (h : StrandFrame p s s') (d : Nat) : s'.die d = s.die d :=
  (congrArg (State.die · d) h.device : s'.device.die d = s.device.die d)

theorem me (h : StrandFrame p s s') : p s'.me = p s.me := by
  rw [State.me, State.me, h.cur]
  exact h.strands s.cur

end StrandFrame

/-- What an access to the aperture is resolved by, of a strand: its couple and its family, its allotment's size and windows, and its
watches. -/
def Strand.reach (t : Strand) : Strand :=
  { Strand.blank with
    coupled := t.coupled
    strandId := t.strandId
    partner := t.partner
    parent := t.parent
    allotSize := t.allotSize
    windows := t.windows
    trace := t.trace }

/-- An access finds its allotment where it did. -/
theorem StrandFrame.allotOwner (h : StrandFrame Strand.reach s s') (u : Nat) : s'.allotOwner u = s.allotOwner u := by
  have howner (v : Nat) : s'.owner v = s.owner v :=
    owner_congr (congrArg Strand.coupled (h.strands v) :) (congrArg Strand.strandId (h.strands v) :)
      (congrArg Strand.partner (h.strands v) :)
  exact (allotUp_congr howner (fun v => (congrArg Strand.parent (h.strands v) :)) _ _).trans (by rw [howner]; rfl)

/-- Plain allotment stays plain under what is no part of an access. -/
theorem State.plainAt.congr (hp : s.plainAt va o n) (h : StrandFrame Strand.reach s s') : s'.plainAt va o n := by
  have hwin (u : Nat) : (s'.strand u).windows = (s.strand u).windows := (congrArg Strand.windows (h.strands u) :)
  have hglobal (x : Word) : s'.globalVa s.cur x = s.globalVa s.cur x := globalVa_congr (h.allotOwner _) hwin x
  have hin : (apertureOffset (s.globalVa s.cur va)).isNone = false := by
    rw [globalVa_plain hp.offset hp.uncovered, hp.offset]
    rfl
  have hmeet (va' : Word) (pa₁ pa₂ n' : Nat) : bytesMeet s' s.cur va 0 n va' pa₁ n' = bytesMeet s s.cur va 0 n va' pa₂ n' :=
    bytesMeet_congr hglobal hin pa₁ pa₂
  have hsize (u : Nat) : (s'.strand u).allotSize = (s.strand u).allotSize := (congrArg Strand.allotSize (h.strands u) :)
  have hcur := h.cur
  refine ⟨hp.offset, ?_, ?_, ?_, ?_⟩
  · rw [hcur, h.allotOwner, hsize]
    exact hp.fits
  · rw [hcur, h.allotOwner]
    exact (congrArg (windowAt · o) (h.strands _) :).trans hp.uncovered
  · rw [hcur]
    exact (trainOverlap_congr h.agenda hmeet).trans hp.unwritten
  · rw [hcur]
    exact (fetchOverlap_congr h.agenda h.die hmeet).trans hp.unread

/-- An element's access to plain allotment: aligned, at no watch, and, for a load, of sound bytes. -/
structure State.plainElem (s : State) (k : Kind) (va : Word) (o n : Nat) : Prop extends s.plainAt va o n where
  aligned : va.toNat % n = 0
  unwatched : watchHit s.me k va n = none
  sound : k = .load → (s.strand (s.allotOwner s.cur)).spoiledAt o n = false

theorem State.plain_iff : s.plain k va n ↔ ∃ o, s.plainElem k va o n :=
  exists_congr fun _ => ⟨fun ⟨hoff, hal, hfit, hwin, hwatch, htrain, hfetch, hsound⟩ =>
    ⟨⟨hoff, hfit, hwin, htrain, hfetch⟩, hal, hwatch, hsound⟩,
    fun ⟨⟨hoff, hfit, hwin, htrain, hfetch⟩, hal, hwatch, hsound⟩ => ⟨hoff, hal, hfit, hwin, hwatch, htrain, hfetch, hsound⟩⟩

theorem State.plainElem.congr (hp : s.plainElem k va o n) (h : StrandFrame Strand.reach s s')
    (hspoiled : k = .load → ∀ u, (s'.strand u).spoiled = (s.strand u).spoiled) : s'.plainElem k va o n := by
  refine ⟨hp.toplainAt.congr h, hp.aligned, ?_, fun hk => ?_⟩
  · exact (congrArg (watchHit · k va n) h.me :).trans hp.unwatched
  · rw [h.cur, h.allotOwner, Strand.spoiledAt, hspoiled hk]
    exact hp.sound hk

/-! The end of a vector memory instruction of a strand that is not traced (R158, R410, R413). -/

/-- A strand apart from its place in a vector instruction and the counts of its trace. -/
def Strand.sansEnd (t : Strand) : Strand :=
  { t with
    vstart := 0
    vdone := 0
    trace := { t.trace with counters := [], tag := 0, pipe := none } }

theorem strandRec_untraced {u : Nat} (h : (s.strand u).trace.admitted = false) (bit : Nat) (r : Rec) : strandRec s u bit r = s := by
  unfold strandRec traces
  simp [h]

theorem pipeBegin_untraced {u : Nat} (h : (s.strand u).trace.admitted = false) (pipe : Nat) :
    StrandFrame Strand.sansEnd s (pipeBegin s u pipe) := by
  unfold pipeBegin
  split
  · exact .refl ..
  · rw [pipeRec, pipeRecAt, strandRec_untraced h]
    exact .updStrand s u fun _ => rfl

theorem pipeEnd_untraced {u : Nat} (h : (s.strand u).trace.admitted = false) (pipe : Nat) (stop : Bool) :
    StrandFrame Strand.sansEnd s (pipeEnd s u pipe stop) := by
  rw [pipeEnd, pipeRec, pipeRecAt, strandRec_untraced h]
  exact .updStrand s u fun _ => rfl

theorem StrandFrame.admitted (h : StrandFrame Strand.sansEnd s s') (u : Nat) :
    (s'.strand u).trace.admitted = (s.strand u).trace.admitted := (congrArg (·.trace.admitted) (h.strands u) :)

theorem pipeRecords_untraced {u : Nat} (h : (s.strand u).trace.admitted = false) (pipe : Nat) (stop : Bool) :
    StrandFrame Strand.sansEnd s (pipeRecords s u pipe stop) :=
  (pipeBegin_untraced h pipe).trans (pipeEnd_untraced (((pipeBegin_untraced h pipe).admitted u).trans h) pipe stop)

/-- A vector memory instruction ends with VSTART and VDONE 0, and nothing else changes but its counts. -/
theorem vmemEnd_untraced (h : s.me.trace.admitted = false) (pipe : Nat) :
    ∃ e, answers (vmemEnd pipe) s () e ∧ StrandFrame Strand.sansEnd s e ∧ e.me.vstart = 0 ∧ e.me.vdone = 0 := by
  let s1 := s.updMe fun t => { t.bump 0 1 with vstart := 0 }
  let s2 := pipeRecords s1 s1.cur pipe false
  have hbegun : StrandFrame Strand.sansEnd s s1 := .updStrand s s.cur fun _ => rfl
  have hrecords : StrandFrame Strand.sansEnd s1 s2 := pipeRecords_untraced ((hbegun.admitted s.cur).trans h) pipe false
  have hended : StrandFrame Strand.sansEnd s2 (s2.updMe fun t => { t with vdone := 0 }) := .updStrand s2 s2.cur fun _ => rfl
  refine ⟨_, rfl, hbegun.trans (hrecords.trans hended), ?_, ?_⟩
  · have hkept := (KeepsButRecords.pipeRecords s1 s1.cur pipe false).field Strand.vstart (fun _ => rfl) s1.cur
    have hme : s2.me.vstart = 0 := by
      rw [State.me, hrecords.cur, hkept]
      exact congrArg Strand.vstart (State.updMe_me s _)
    exact (congrArg Strand.vstart (State.updMe_me s2 _)).trans hme
  · exact congrArg Strand.vdone (State.updMe_me s2 _)

end Sys2Proof.Machine
end

section
/-! Elements in plain allotment, one after another: what loads read (R173, R174). -/

namespace Sys2Proof.Machine

variable {s s1 s' : State} {v : VAccess} {is : List Nat} {f : Nat → Nat} {i n : Nat} {k : Kind} {d : BitVec 6}

/-- The offset of an element of the aperture in its allotment. -/
def VAccess.offset (v : VAccess) (i : Nat) : Nat := (apertureOffset (v.addr i)).getD 0

theorem VAccess.offset_eq {o : Nat} (h : apertureOffset (v.addr i) = some o) : v.offset i = o := by
  rw [VAccess.offset, h, Option.getD_some]

theorem State.plain.elem (h : s.plain k (v.addr i) n) : s.plainElem k (v.addr i) (v.offset i) n := by
  obtain ⟨o, ho⟩ := State.plain_iff.mp h
  rwa [VAccess.offset_eq ho.offset]

/-- A field that names a vector register passes the checks as a data operand. -/
theorem admitted_vector (hd : d.toNat < 32) {produce : Bool} : admitted s [.data d 2 produce] := by
  intro o ho
  obtain rfl := List.mem_singleton.mp ho
  exact ⟨if_pos (by omega), if_neg (by omega)⟩

theorem checkAligned_aligned {va : Word} (h : va.toNat % n = 0) : answers (checkAligned va n) s () s := by
  unfold answers checkAligned
  rw [if_pos h, run_pure]

theorem atElem_ok {α : Type} {m : M α} {a : α} (va : Word) (h : m s = .ok a s') : atElem va m s = .ok a s' := by
  unfold atElem
  rw [run_bind_ok (attempt_ok h)]
  rfl

/-- No watermark keeps elements of the aperture waiting (R324). -/
theorem checkChannels_plain (h : ∀ i ∈ is, s.plainElem k (v.addr i) (v.offset i) (v.w / 8)) :
    answers (checkChannels v is) s () s := by
  unfold answers checkChannels
  induction is with
  | nil => rfl
  | cons i is ih =>
    exact (run_bind_ok (h i List.mem_cons_self).checkChannel_eq).trans (ih fun j hj => h j (List.mem_cons_of_mem _ hj))

/-- No gang's strip is awaited in a register (R327). -/
theorem vecReady_gangless (h : s.me.gangs = []) (r : Nat) : answers (vecReady r) s () s := by
  unfold answers vecReady
  rw [run_bind_ok (run_me s), h]
  rfl

/-! Loads. -/

/-- The value of an element's bytes in the allotment. -/
def State.plainValue (s : State) (v : VAccess) (i : Nat) : Nat :=
  leNat (allotBytes (s.strand (s.allotOwner s.cur)) (v.offset i) (v.w / 8))

theorem loadElem_plain (h : s.plainElem .load (v.addr i) (v.offset i) (v.w / 8)) :
    answers (loadElem v i) s (s.plainValue v i) s := by
  have hload := loadBytes_spad (scope := 0) (deliver := false) (again := v.again s.me i) (h.resolve_eq .load) h.checkChannel_eq
    h.awaitPlace_eq h.unwatched
  unfold answers loadElem
  rw [run_bind_ok (checkAligned_aligned h.aligned), run_bind_ok (run_me s), run_bind_ok (atElem_ok _ hload)]
  rfl

/-- A strand apart from its vector registers. -/
def Strand.sansVector (t : Strand) : Strand := { t with v := [], vdirty := 0, hwm := [] }

theorem StrandFrame.reach_of_sansVector (h : StrandFrame Strand.sansVector s s') : StrandFrame Strand.reach s s' :=
  h.weaken (p := Strand.sansVector) Strand.reach fun _ => rfl

theorem State.plainElem.of_sansVector {va : Word} {o : Nat} (hp : s.plainElem k va o n)
    (h : StrandFrame Strand.sansVector s s') : s'.plainElem k va o n :=
  hp.congr h.reach_of_sansVector fun _ u => (congrArg Strand.spoiled (h.strands u) :)

theorem plainValue_of_sansVector (h : StrandFrame Strand.sansVector s s') (i : Nat) : s'.plainValue v i = s.plainValue v i := by
  rw [State.plainValue, h.cur, h.reach_of_sansVector.allotOwner]
  exact congrArg leNat (congrArg (allotBytes · (v.offset i) (v.w / 8)) (h.strands _) :)

/-- A strand with one element of a vector register loaded. -/
def Strand.loadInto (t : Strand) (r : Nat) (v : VAccess) (i x : Nat) : Strand :=
  t.setVec r (setElem (t.vec r) v.w i x) ((i + 1) * v.w / 8)

theorem Strand.vec_loadInto (t : Strand) (r : Nat) (i x r' : Nat) :
    (t.loadInto r v i x).vec r' = if r' = r then setElem (t.vec r) v.w i x else t.vec r' := Tab.get_set ..

theorem loadsAll_plain (r : Nat) (h : ∀ i ∈ is, s.plainElem .load (v.addr i) (v.offset i) (v.w / 8))
    (hf : ∀ i, f i = s.plainValue v i) :
    ∃ s1, loadsAll v (fun i x s => s.updMe fun t => t.loadInto r v i x) is f s s1 ∧ StrandFrame Strand.sansVector s s1 ∧
      s1.me.vec r = putElems (s.me.vec r) v.w is f ∧ ∀ r', r' ≠ r → s1.me.vec r' = s.me.vec r' := by
  induction is generalizing s with
  | nil => exact ⟨s, rfl, .refl .., rfl, fun _ _ => rfl⟩
  | cons i is ih =>
    have hput : StrandFrame Strand.sansVector s (s.updMe fun t => t.loadInto r v i (f i)) := .updStrand s s.cur fun _ => rfl
    obtain ⟨s1, hload, hframe, hvec, hothers⟩ := ih (s := s.updMe fun t => t.loadInto r v i (f i))
      (fun j hj => (h j (List.mem_cons_of_mem _ hj)).of_sansVector hput)
      (fun j => (hf j).trans (plainValue_of_sansVector hput j).symm)
    have hfirst : answers (loadElem v i) s (f i) s := hf i ▸ loadElem_plain (h i List.mem_cons_self)
    refine ⟨s1, ⟨s, hfirst, hload⟩, hput.trans hframe, ?_, fun r' hr => ?_⟩
    · rw [hvec, State.updMe_me, Strand.vec_loadInto, if_pos rfl]
      rfl
    · rw [hothers r' hr, State.updMe_me, Strand.vec_loadInto, if_neg hr]

theorem leNat_lt (bs : List Byte) : leNat bs < 256 ^ bs.length := by
  induction bs with
  | nil => exact Nat.one_pos
  | cons b bs ih =>
    have hb := b.isLt
    rw [leNat, List.length_cons, Nat.pow_succ]
    omega

/-- A value of w bits, w one of the access widths, is its own element. -/
theorem plainValue_lt {w : BitVec 2} (hw : v.w = wdWidth w) (i : Nat) : s.plainValue v i < 2 ^ v.w := by
  have hlen := leNat_lt (allotBytes (s.strand (s.allotOwner s.cur)) (v.offset i) (v.w / 8))
  have hpow : (256 : Nat) ^ (v.w / 8) = 2 ^ v.w := by
    rw [hw, wdWidth, Nat.mul_div_cancel_left _ (by decide), Nat.pow_mul]
  rwa [allotBytes, List.length_map, List.length_range, hpow] at hlen

/-- A vector load from plain allotment into a register (R173, R208). -/
theorem loadsVector_plain {x : Instr} {st w : BitVec 2} (hx : loadsVector x s d st v false) (hw : v.w = wdWidth w)
    (hd : d.toNat < 32) (htrace : s.me.trace.admitted = false) (hgangs : s.me.gangs = [])
    (hst : answers (streamReady st.toNat) s () s) (h : ∀ k ∈ s.me.todo v.w v.n, s.plain .load (v.addr k) (v.w / 8)) :
    ∃ e, completesWith x s e (s.me.pc + 4) ∧ e.device = s.device ∧ e.agenda = s.agenda ∧ e.me.vstart = 0 ∧ e.me.vdone = 0 ∧
      (∀ k o, k < 2048 / v.w → apertureOffset (v.addr k) = some o → elem (e.me.vec d.toNat) v.w k =
        if k ∈ s.me.todo v.w v.n then leNat (allotBytes (s.strand (s.allotOwner s.cur)) o (v.w / 8))
        else elem (s.me.vec d.toNat) v.w k) ∧
      (∀ r, r ≠ d.toNat → e.me.vec r = s.me.vec r) ∧ (∀ r, e.me.reg r = s.me.reg r) := by
  have helem : ∀ k ∈ s.me.todo v.w v.n, s.plainElem .load (v.addr k) (v.offset k) (v.w / 8) := fun k hk => (h k hk).elem
  obtain ⟨s1, hload, hframe, hvec, hothers⟩ := loadsAll_plain d.toNat helem fun _ => rfl
  obtain ⟨e, hend, hended, hvstart, hvdone⟩ := vmemEnd_untraced ((congrArg (·.trace.admitted) hframe.me :).trans htrace) 4
  have hdone := (hx s1 s1 s1 e (s.plainValue v) _ rfl hst).1 hd rfl (vecReady_gangless hgangs _) (checkChannels_plain helem) hload hend
  have hpc : (e.strand s.cur).pc = s.me.pc :=
    (congrArg Strand.pc (hended.strands s.cur) :).trans (congrArg Strand.pc (hframe.strands s.cur) :)
  have hvecs (r : Nat) : e.me.vec r = s1.me.vec r := (congrArg (Strand.vec · r) hended.me :)
  rw [hpc] at hdone
  refine ⟨e, hdone, hended.device.trans hframe.device, hended.agenda.trans hframe.agenda, hvstart, hvdone, fun k o hk ho => ?_,
    fun r hr => (hvecs r).trans (hothers r hr),
    fun r => (congrArg (Strand.reg · r) hended.me :).trans (congrArg (Strand.reg · r) hframe.me :)⟩
  rw [hvecs, hvec, elem_putElems _ _ _ _ (elem_inside hk), Nat.mod_eq_of_lt (plainValue_lt hw k), State.plainValue,
    VAccess.offset_eq ho]

end Sys2Proof.Machine
end

section
/-! Elements in plain allotment, one after another: what stores leave (R173, R174, R177). -/

namespace Sys2Proof.Machine

variable {s s1 s' : State} {v : VAccess} {is : List Nat} {f : Nat → Nat} {i j k x : Nat} {t : Strand} {d b : BitVec 6} {w : BitVec 2}

/-- A store to plain allotment as part of a vector store, at no watch. -/
theorem storeBytes_plainAt {va : Word} {o c : Nat} {bs : List Byte} {again full : Bool} (h : s.plainAt va o bs.length)
    (hw : watchHit s.me .store va bs.length = none) : answers (storeBytes va bs c again full) s () (s.storePlain o bs) := by
  unfold answers storeBytes
  rw [run_bind_ok (run_me s), run_bind_ok (h.resolve_eq .store), run_bind_ok h.checkChannel_eq, run_bind_ok h.awaitPlace_eq, hw]
  rfl

theorem storeElem_plain (h : s.plainElem .store (v.addr i) (v.offset i) (v.w / 8)) (x : Nat) :
    answers (storeElem v i x) s () (s.storePlain (v.offset i) (leBytes (v.w / 8) x)) := by
  have hlen : (leBytes (v.w / 8) x).length = v.w / 8 := leBytes_length ..
  have hstore := storeBytes_plainAt (c := 0) (again := v.again s.me i) (full := v.full i) (bs := leBytes (v.w / 8) x)
    (by rw [hlen]; exact h.toplainAt) (by rw [hlen]; exact h.unwatched)
  unfold answers storeElem
  rw [run_bind_ok (checkAligned_aligned h.aligned), run_bind_ok (run_me s)]
  exact atElem_ok _ hstore

/-- A strand apart from the bytes of its allotment. -/
def Strand.sansAllot (t : Strand) : Strand := { t with allot := [], spoiled := [] }

theorem StrandFrame.reach_of_sansAllot (h : StrandFrame Strand.sansAllot s s') : StrandFrame Strand.reach s s' :=
  h.weaken (p := Strand.sansAllot) Strand.reach fun _ => rfl

/-- A strand with the bytes of one element stored in its allotment. -/
def Strand.storeFrom (v : VAccess) (f : Nat → Nat) (t : Strand) (i : Nat) : Strand :=
  t.storeAllot (v.offset i) (leBytes (v.w / 8) (f i))

theorem storesAll_plain (h : ∀ i ∈ is, s.plainElem .store (v.addr i) (v.offset i) (v.w / 8)) :
    ∃ s1, storesAll v f is s s1 ∧ StrandFrame Strand.sansAllot s s1 ∧
      s1.strand (s.allotOwner s.cur) = is.foldl (Strand.storeFrom v f) (s.strand (s.allotOwner s.cur)) := by
  induction is generalizing s with
  | nil => exact ⟨s, rfl, .refl .., rfl⟩
  | cons i is ih =>
    have hput : StrandFrame Strand.sansAllot s (s.storePlain (v.offset i) (leBytes (v.w / 8) (f i))) :=
      .updStrand s _ fun _ => rfl
    have howner : (s.storePlain (v.offset i) (leBytes (v.w / 8) (f i))).allotOwner s.cur = s.allotOwner s.cur :=
      hput.reach_of_sansAllot.allotOwner _
    obtain ⟨s1, hstore, hframe, hbytes⟩ := ih (s := s.storePlain (v.offset i) (leBytes (v.w / 8) (f i)))
      fun j hj => (h j (List.mem_cons_of_mem _ hj)).congr hput.reach_of_sansAllot nofun
    refine ⟨s1, ⟨_, storeElem_plain (h i List.mem_cons_self) (f i), hstore⟩, hput.trans hframe, ?_⟩
    rw [hput.cur, howner, State.storePlain, State.updStrand_strand, if_pos rfl] at hbytes
    exact hbytes

/-! The bytes of the allotment after the stores. -/

/-- A byte outside an element. -/
def VAccess.misses (v : VAccess) (i x : Nat) : Prop := x < v.offset i ∨ v.offset i + v.w / 8 ≤ x

theorem storeFrom_missed (t : Strand) (h : v.misses i x) : Tab.get 0 (t.storeFrom v f i).allot x = Tab.get 0 t.allot x :=
  storeAllot_allot_out t _ _ (by rwa [leBytes_length])

theorem storeFrom_byte (t : Strand) (hj : j < v.w / 8) :
    Tab.get 0 (t.storeFrom v f i).allot (v.offset i + j) = BitVec.ofNat 8 (f i / 256 ^ j) := by
  have hlen : j < (leBytes (v.w / 8) (f i)).length := by rwa [leBytes_length]
  have hget := get_setRun_in (leBytes (v.w / 8) (f i)) t.allot (v.offset i) 0 j hlen
  rw [Nat.zero_add, leBytes_getElem] at hget
  exact hget

theorem storesFrom_missed (h : ∀ i ∈ is, v.misses i x) :
    Tab.get 0 (is.foldl (Strand.storeFrom v f) t).allot x = Tab.get 0 t.allot x := by
  induction is generalizing t with
  | nil => rfl
  | cons i is ih =>
    rw [List.foldl_cons, ih fun j hj => h j (List.mem_cons_of_mem _ hj), storeFrom_missed t (h i List.mem_cons_self)]

/-- The elements of a list lie apart in the allotment. -/
def VAccess.apartIn (v : VAccess) (is : List Nat) : Prop :=
  ∀ i ∈ is, ∀ k ∈ is, i ≠ k → v.offset i + v.w / 8 ≤ v.offset k ∨ v.offset k + v.w / 8 ≤ v.offset i

theorem storesFrom_byte (hapart : v.apartIn is) (hk : k ∈ is) (hj : j < v.w / 8) :
    Tab.get 0 (is.foldl (Strand.storeFrom v f) t).allot (v.offset k + j) = BitVec.ofNat 8 (f k / 256 ^ j) := by
  induction is generalizing t with
  | nil => exact absurd hk List.not_mem_nil
  | cons i is ih =>
    rw [List.foldl_cons]
    by_cases hrest : k ∈ is
    · exact ih (fun a ha c hc => hapart a (List.mem_cons_of_mem _ ha) c (List.mem_cons_of_mem _ hc)) hrest
    · obtain rfl : k = i := (List.mem_cons.mp hk).resolve_right hrest
      have hmissed : ∀ a ∈ is, v.misses a (v.offset k + j) := fun a ha => by
        have hne : a ≠ k := fun heq => hrest (heq ▸ ha)
        have hor := hapart a (List.mem_cons_of_mem _ ha) k List.mem_cons_self hne
        unfold VAccess.misses
        omega
      rw [storesFrom_missed hmissed, storeFrom_byte t hj]

/-! The elements of a unit-stride strip lie apart (R155, R173). -/

/-- Element i of a strip begins below byte 4096 of it. -/
theorem strip_byte_lt (t : Strand) (w : BitVec 2) {i : Nat} (hi : i < t.strip (wdWidth w)) : i * 2 ^ w.toNat < 4096 := by
  have hcount : t.vlCount < 512 := BitVec.isLt _
  have hwidth : tyWidth (t.vl.extractLsb' 12 2) ≤ 64 := by
    unfold tyWidth
    split_ifs <;> decide
  have hbits : t.stripBits ≤ 511 * 64 := Nat.mul_le_mul (Nat.le_of_lt_succ hcount) hwidth
  have hin : i * wdWidth w ≤ t.stripBits :=
    (Nat.mul_le_mul_right _ hi.le).trans (Nat.div_mul_le_self ..)
  have hassoc : i * wdWidth w = 8 * (i * 2 ^ w.toNat) := Nat.mul_left_comm ..
  omega

theorem apertureOffset_some {va : Word} {o : Nat} (h : apertureOffset va = some o) :
    va.toNat = 0x7FF000000000 + o ∧ o < 0x100000 := by
  unfold apertureOffset apertureBase at h
  split at h
  · injection h
    omega
  · cases h

/-- Elements that begin in the aperture lie apart there: the strip is too short to come round the address space. -/
theorem unitAccess_apart (hin : ∀ i ∈ is, apertureOffset ((unitAccess t b w).addr i) = some ((unitAccess t b w).offset i))
    (his : ∀ i ∈ is, i < t.strip (wdWidth w)) : (unitAccess t b w).apartIn is := by
  have hbytes : wdWidth w / 8 = 2 ^ w.toNat := Nat.mul_div_cancel_left _ (by decide)
  have haddr (i : Nat) : ((unitAccess t b w).addr i).toNat = ((t.reg b.toNat).toNat + i * 2 ^ w.toNat % 2 ^ 64) % 2 ^ 64 := by
    rw [unitAccess, hbytes, BitVec.toNat_add, BitVec.toNat_ofNat]
  have hstep (i k : Nat) (h : i < k) : i * 2 ^ w.toNat + 2 ^ w.toNat ≤ k * 2 ^ w.toNat := by
    rw [← Nat.succ_mul]
    exact Nat.mul_le_mul_right _ h
  intro i hi k hk hne
  obtain ⟨hi1, hi2⟩ := apertureOffset_some (hin i hi)
  obtain ⟨hk1, hk2⟩ := apertureOffset_some (hin k hk)
  have hi3 := strip_byte_lt t w (his i hi)
  have hk3 := strip_byte_lt t w (his k hk)
  have hwidth : (unitAccess t b w).w / 8 = 2 ^ w.toNat := hbytes
  have hreg := (t.reg b.toNat).isLt
  rw [haddr] at hi1 hk1
  rw [hwidth]
  rcases Nat.lt_or_gt_of_ne hne with hlt | hlt
  · have hle := hstep i k hlt
    omega
  · have hle := hstep k i hlt
    omega

/-! The store. -/

theorem readV_register (hd : d.toNat < 32) (hgangs : s.me.gangs = []) : answers (readV d) s (s.me.vec d.toNat) s := by
  unfold answers readV
  rw [if_pos hd, run_bind_ok (vecReady_gangless hgangs _), run_bind_ok (run_me s), run_pure]

/-- No line without an active element needs a store of its own (R251). -/
theorem idleStores_none (h : v.idleLines s.me = []) : answers (idleStores v) s () s := by
  unfold answers idleStores
  rw [run_bind_ok (run_me s), h]
  rfl

/-- A vector store from a register to plain allotment (R173, R208). -/
theorem storesVector_plain {y : Instr} {st : BitVec 2} (hx : storesVector y s d st v) (hd : d.toNat < 32)
    (htrace : s.me.trace.admitted = false) (hgangs : s.me.gangs = []) (hst : answers (streamReady st.toNat) s () s)
    (h : ∀ k ∈ s.me.todo v.w v.n, s.plain .store (v.addr k) (v.w / 8)) (hidle : v.idleLines s.me = [])
    (hapart : v.apartIn (s.me.todo v.w v.n)) :
    ∃ e, completesWith y s e (s.me.pc + 4) ∧ e.device = s.device ∧ e.agenda = s.agenda ∧ e.me.vstart = 0 ∧ e.me.vdone = 0 ∧
      (∀ k ∈ s.me.todo v.w v.n, ∀ o, apertureOffset (v.addr k) = some o → ∀ j, j < v.w / 8 →
        Tab.get 0 (e.strand (s.allotOwner s.cur)).allot (o + j) =
          BitVec.ofNat 8 (elem (s.me.vec d.toNat) v.w k / 256 ^ j)) ∧
      (∀ x, (∀ k ∈ s.me.todo v.w v.n, ∀ o, apertureOffset (v.addr k) = some o → x < o ∨ o + v.w / 8 ≤ x) →
        Tab.get 0 (e.strand (s.allotOwner s.cur)).allot x = Tab.get 0 (s.strand (s.allotOwner s.cur)).allot x) ∧
      (∀ r, e.me.vec r = s.me.vec r) ∧ (∀ r, e.me.reg r = s.me.reg r) := by
  have helem : ∀ k ∈ s.me.todo v.w v.n, s.plainElem .store (v.addr k) (v.offset k) (v.w / 8) := fun k hk => (h k hk).elem
  obtain ⟨s1, hstore, hframe, hbytes⟩ := storesAll_plain (f := elem (s.me.vec d.toNat) v.w) helem
  obtain ⟨e, hend, hended, hvstart, hvdone⟩ := vmemEnd_untraced ((congrArg (·.trace.admitted) hframe.me :).trans htrace) 5
  have hidle1 : v.idleLines s1.me = [] := (congrArg v.idleLines hframe.me :).trans hidle
  have hdone := (hx s s1 s1 s1 e _ _ hst (readV_register hd hgangs) rfl).1 hd (checkChannels_plain helem) hstore
    (idleStores_none hidle1) hend
  have hpc : (e.strand s.cur).pc = s.me.pc :=
    (congrArg Strand.pc (hended.strands s.cur) :).trans (congrArg Strand.pc (hframe.strands s.cur) :)
  have hkept : (e.strand (s.allotOwner s.cur)).allot = (s1.strand (s.allotOwner s.cur)).allot :=
    (congrArg Strand.allot (hended.strands _) :)
  have hallot := hkept.trans (congrArg Strand.allot hbytes)
  rw [hpc] at hdone
  refine ⟨e, hdone, hended.device.trans hframe.device, hended.agenda.trans hframe.agenda, hvstart, hvdone,
    fun k hk o ho j hj => ?_, fun x hx => ?_,
    fun r => (congrArg (Strand.vec · r) hended.me :).trans (congrArg (Strand.vec · r) hframe.me :),
    fun r => (congrArg (Strand.reg · r) hended.me :).trans (congrArg (Strand.reg · r) hframe.me :)⟩
  · rw [hallot, ← VAccess.offset_eq ho, storesFrom_byte hapart hk hj]
  · rw [hallot, storesFrom_missed fun k hk => hx k hk _ (helem k hk).offset]

end Sys2Proof.Machine

open Sys2Proof Sys2Proof.Machine

/-- Settles O42: the elements of a load read plain allotment, and those of a unit-stride store lie apart in it. -/
theorem vectorInScratchpad : Obligations.VectorInScratchpad := by
  unfold Obligations.VectorInScratchpad
  intro s d b w st h hd hb he htrace hgangs hst
  have hdata (produce : Bool) : admitted s [.data d 2 produce, .reg b] := admitted_with_reg (admitted_vector hd) hb
  obtain ⟨hloads, -⟩ := vectorLoads s d b 0 w st h he
  obtain ⟨hstores, -⟩ := vectorStores s d b 0 w st h he
  obtain ⟨hvld, hvlds⟩ := hloads (hdata true)
  obtain ⟨hvst, -⟩ := hstores (hdata false)
  refine ⟨?_, ?_⟩
  · rintro i v (⟨rfl, rfl⟩ | ⟨rfl, rfl⟩) hplain
    · exact loadsVector_plain hvld (w := w) rfl hd htrace hgangs hst hplain
    · exact loadsVector_plain hvlds (w := w) rfl hd htrace hgangs hst hplain
  · rintro v rfl hplain hidle
    refine storesVector_plain hvst hd htrace hgangs hst hplain hidle (unitAccess_apart (fun i hi => (hplain i hi).elem.offset)
      fun i hi => ?_)
    obtain ⟨hlt, -⟩ := (Strand.mem_lanes ..).mp (List.mem_of_mem_filter hi)
    exact hlt

end
